-- ==== Sys2Proof/Word.lean ====
section
/-!
DEFINITION. The register word, the byte and their plainest conversions (spec 00_scope, R13 and R14).
-/

namespace Sys2Proof

/-- A register of the device: 32 bits (R13). -/
abbrev Word := BitVec 32

/-- The smallest addressable unit of every memory of the device. -/
abbrev Byte := BitVec 8

/-- A data word of `n` bytes as the device stores it: little-endian (R13). -/
def leBytes : Nat → Nat → List Byte
  | 0, _ => []
  | n + 1, v => BitVec.ofNat 8 v :: leBytes n (v / 256)

/-- The number that little-endian bytes hold (R13). -/
def leNat : List Byte → Nat
  | [] => 0
  | b :: r => b.toNat + 256 * leNat r

/-- The number that bytes hold most significant byte first: the order of the SPI host port (R13). -/
def beNat (bs : List Byte) : Nat := leNat bs.reverse

/-- `n` bytes of a number, most significant byte first. -/
def beBytes (n v : Nat) : List Byte := (leBytes n v).reverse

/-- The two's-complement value of the low `n` bits of `v` (sN of R14). -/
def signed (n v : Nat) : Int :=
  let m := v % 2 ^ n
  if 2 * m < 2 ^ n then (m : Int) else (m : Int) - (2 ^ n : Nat)

/-- The low `n` bits of an integer, as a natural number. -/
def wrapInt (n : Nat) (x : Int) : Nat := (x % ((2 ^ n : Nat) : Int)).toNat

/-- An integer held between the limits of an `n`-bit two's-complement value. -/
def satInt (n : Nat) (x : Int) : Int :=
  let hi : Int := ((2 ^ (n - 1) : Nat) : Int) - 1
  let lo : Int := -((2 ^ (n - 1) : Nat) : Int)
  if x < lo then lo else if hi < x then hi else x

end Sys2Proof
end

