-- ==== Sys2Proof/Syntax.lean ====
section
/-!
DEFINITION. The commands of the block: one constructor for each row of spec/opcode_table.json, with the operands this model gives it.
Every command's first operand `t` is the moment it happens, in ACLK ticks (assumption 1).
Points that the spec leaves open or that are read from it by inference: DESIGN CHOICE 1, 8, 57 of the assumption log.
-/

namespace Sys2Proof

/-- Who writes or reads a register: the sources of a clamp record, R441. -/
inductive Source where
  /-- The SPI host port. -/
  | spi
  /-- An authenticated management frame. -/
  | mgmt
  /-- Hearth: boot lists and the mailbox. -/
  | hearth
  /-- The cross-field checks of a commit. -/
  | commit
  /-- The twin mirror. -/
  | twin
deriving DecidableEq, Repr

/-- The rails whose detectors hold the device in cold reset (R460). -/
inductive Rail where
  | vcore | vdda09 | vddq | vio33
deriving DecidableEq, Repr

/-- What a reset detector saw: its rail, the voltage outside which it stood, in microvolts (R460, R485). -/
structure RailLevel where
  rail : Rail
  uv : Nat
deriving DecidableEq, Repr

/-- A low level of RESET_N: the moment at which it has lasted so many nanoseconds (R497). -/
structure ResetLow where
  t : Nat
  ns : Nat
deriving DecidableEq, Repr

/-- One comparison window of HSC: `n` samples of the spare and of the slice beside it as sums of raw codes, sums of squares and cross sum, and the
delay that best aligns the spare with that slice, in 10 fs (R127, R129). -/
structure Shadow where
  n : Nat
  sumS : Int
  sumK : Int
  sqS : Nat
  sqK : Nat
  cross : Int
  tau : Int
deriving DecidableEq, Repr

/-- An empty comparison window. -/
def Shadow.zero : Shadow := ⟨0, 0, 0, 0, 0, 0, 0⟩

/-- Samples of a channel inside tone windows whose device ticks agree modulo 128, the tone's pattern, as `moment` tells, and that were taken under the conditions in
force at device tick `at_`: how many, and the sum of their raw codes (R135). -/
structure ToneSum where
  at_ : Nat
  moment : Nat
  n : Nat
  sum : Int
deriving DecidableEq, Repr

/-- What a tachometer input shows: its level and for how many ticks it has held it (R216). -/
structure TachLevel where
  high : Bool
  held : Nat
deriving DecidableEq, Repr

/-- What a maintenance slot of a channel does: it holds the channel for `hold` MCLK and may bring it a new VrefDQ (R322, R329). -/
structure SlotWork where
  hold : Nat
  vref : Option Nat
deriving DecidableEq, Repr

/-- A sample of a string (R68): lane, string B or A, compliance voltage in mV and sensed current in µA. -/
structure StringSample where
  lane : Nat
  b : Bool
  mv : Nat
  ua : Nat
deriving DecidableEq, Repr


/-- The kinds of received Ethernet frames (R381, R382). -/
inductive RxKind where
  /-- UDP to a port, with its payload. -/
  | udp (port : Nat) (body : List Byte)
  | ptp
  | arp
  | neighbour
  /-- IP fragments, IPv4 options, IPv6 extension headers, TCP and every other kind. -/
  | other
deriving DecidableEq, Repr
/-- The instructions of the test port (R399, R400). -/
inductive TapInstr where
  | bypass | idcode | sample | extest | clamp | highz
  /-- The private instructions: supervisor debug and memory access. -/
  | priv
deriving DecidableEq, Repr

/-- The commands, in the order of the opcode table. -/
inductive Instr where
  /-- REGISTER_WRITE (R439): A write to a register that has no row of its own lands in the live or staged copy after the range checks. -/
  | registerWrite (t : Nat) (src : Source) (addr val : Word)
  /-- GUARDED_FIRST_WRITE (R443): The value half of a guarded pair opens a pair, discarding any pair the same source already had open. -/
  | guardedFirstWrite (t : Nat) (src : Source) (addr val : Word)
  /-- GUARDED_COMPLEMENT_WRITE (R443): The complement write at offset + 0x800 completes the pair, which is applied after range checks or discarded as broken. -/
  | guardedComplementWrite (t : Nat) (src : Source) (addr val : Word)
  /-- GUARD_TIMEOUT (R444): SYS_GUARD_TMO expires with a pair open; the pair is discarded and GUARD_FAULT and SYS_GUARD_CNT move. -/
  | guardTimeout (t : Nat) (win : Nat)
  /-- COMMIT (R435): A write of SYS_COMMIT runs the cross-field checks and turns the staged copy of each named window into a pending copy. -/
  | commit (t : Nat) (src : Source) (mask : Word)
  /-- SNAPSHOT (R450): A write of SYS_SNAP.TAKE copies every live counter to its holding copy on one PCLK edge. -/
  | snapshot (t : Nat) (src : Source)
  /-- RC_READ (R449): A read of a clear-on-read register returns its value and clears it on the latching edge. -/
  | rcRead (t : Nat) (src : Source) (addr : Word)
  /-- UPTIME_LO_READ (R458): A read of SYS_UPTIME_LO latches SYS_UPTIME_HI. -/
  | uptimeLoRead (t : Nat) (src : Source)
  /-- SYS_RUN (R458): A guarded write of SYS_CTRL.RUN ends bring-up, starts Hearth's periodic duties and arms the watchdog. -/
  | sysRun (t : Nat) (src : Source)
  /-- WARM_RESET (R466): A guarded write of SYS_CTRL.WARM starts a warm reset, holding the reset domain. -/
  | warmReset (t : Nat) (src : Source)
  /-- LEGACY_SELECT (R41): A write of SYS_CTRL.LEGACY selects legacy mode before the first commit, or is kept with a clamp report after it. -/
  | legacySelect (t : Nat) (src : Source) (on : Bool)
  /-- EXPERT_ENABLE (R451): A guarded write setting SYS_CTRL.EXPERT_EN opens expert space and the TST window to writes. -/
  | expertEnable (t : Nat) (src : Source)
  /-- EXPERT_DISABLE (R451): A guarded write clearing EXPERT_EN locks expert space, keeps expert values and ends every TST injection. -/
  | expertDisable (t : Nat) (src : Source)
  /-- CRC_REF_WRITE (R448): A guarded write of SYS_CRC_REF sets the reference and ends any CRC hold. -/
  | crcRefWrite (t : Nat) (src : Source) (ref : Word)
  /-- CRC_PASS_END (R447): A configuration CRC pass of 2^16 PCLK ends; its result is written and compared with the reference unless discarded or held. -/
  | crcPassEnd (t : Nat)
  /-- CRC_HOLD_END (R448): 2^24 PCLK after the last hold event and PEND clearing, the CRC hold ends and comparison resumes. -/
  | crcHoldEnd (t : Nat)
  /-- HIBERNATE (R470): A guarded write of SYS_HIBCTRL.GO stops the device, isolates the always-on domain, lowers PWR_EN and the feed gates. -/
  | hibernate (t : Nat) (src : Source) (wakeHigh : Bool)
  /-- WAKE (R471): WAKE high for at least 100 µs in hibernate acquires a feed, raises PWR_EN and starts a cold power-up. -/
  | wake (t : Nat) (highUs mvA mvB : Nat)
  /-- VAON_APPLY (R459): VAON is applied; the always-on domain acquires a feed and drives PWR_EN high. -/
  | vaonApply (t : Nat) (mvA mvB : Nat)
  /-- COLD_RESET (R466): RESET_N low or a reset detector holds the device in cold reset, clearing all state outside the always-on domain. -/
  | coldReset (low : ResetLow)
  /-- RESET_RELEASE (R462): RESET_N rises, or the detector hold ends, and the device leaves cold reset and starts PLL lock. -/
  | resetRelease (t : Nat) (straps : Nat)
  /-- RAIL_OUT_OF_TOLERANCE (R485): A detected rail leaves its tolerance for more than 10 µs and the device takes a cold reset. -/
  | railOutOfTolerance (t : Nat) (rail : RailLevel) (ns : Nat)
  /-- PLL_LOCK (R24): The root PLL locks, the divided clocks start and the boot read pass begins. -/
  | pllLock (t : Nat)
  /-- CLOCK_MONITOR_CHECK (R24): Every 10 µs the clock monitor compares REFCLK against its nominal value. -/
  | clockMonitorCheck (t : Nat) (ppm : Int) (lossOfLock : Bool)
  /-- WATCHDOG_REFRESH (R38): Hearth refreshes the device watchdog. -/
  | watchdogRefresh (t : Nat)
  /-- WATCHDOG_EXPIRY (R38): The watchdog expires without refresh, trips Quench with cause WDOG and starts a watchdog reset. -/
  | watchdogExpiry (t : Nat)
  /-- LOCKSTEP_MISMATCH (R37): The lockstep cores disagree and the supervisor domain resets while the rest of the device runs on. -/
  | lockstepMismatch (t : Nat)
  /-- HEARTH_RESTART_DONE (R37): Hearth is running again after a restart and catches up deferred calibrations, reports and requests. -/
  | hearthRestartDone (t : Nat)
  /-- WARM_RESET_HOLD_END (R468): After 1,024 PCLK of a warm or watchdog reset Hearth restarts, checks its SRAM image and the queues are rebuilt. -/
  | warmResetHoldEnd (t : Nat) (imageOk : Bool)
  /-- BOOT_VERIFY_DONE (R464): The boot read pass over the image ends and every CRC and the HMAC have been checked. -/
  | bootVerifyDone (t : Nat) (image : List Byte)
  /-- TRAINING_DONE (R320): DRAM training completes on both channels and MEM_STAT.READY sets. -/
  | trainingDone (t : Nat) (fail0 fail1 : Option Nat) (vrefdq : List Nat) (temp : Nat)
  /-- BOOT_APPLY_DONE (R463): The configuration lists and DRAM memory loads are applied and SYS_BOOTSTAGE reads READY. -/
  | bootApplyDone (t : Nat)
  /-- BOOT_CHUNK_READY (R398): A write of NET_BOOTCTL.READY hands the staged image chunk to the boot from the SPI host. -/
  | bootChunkReady (t : Nat) (src : Source)
  /-- EMIT_ENABLE (R82): A guarded write setting EMIT_EN moves a lane from OFF to CHECK, or clamps to 0 without HSC_READY or with Quench latched. -/
  | emitEnable (t : Nat) (src : Source) (mask : Nat)
  /-- EMIT_DISABLE (R81): Clearing EMIT_EN moves a lane to OFF at once and discards its fixed releases as suppressed. -/
  | emitDisable (t : Nat) (src : Source) (mask : Nat)
  /-- QFORCE (R85): A guarded write of LAN_CTRL.QFORCE trips Quench with cause FORCE. -/
  | qforce (t : Nat) (src : Source)
  /-- QUENCH_CLEAR (R93): A guarded write of LAN_QCLR.CLR starts a 4,256 PCLK clear check on the quenched lanes. -/
  | quenchClear (t : Nat) (src : Source)
  /-- QCLR_CHECK_END (R93): The clear check ends; Quench clears with lanes OFF, or QCLR_FAIL is set with the failing causes. -/
  | qclrCheckEnd (t : Nat)
  /-- STRING_SAMPLE (R68): At each 10.24 µs grid tick every string is sampled against the open and short conditions. -/
  | stringSample (t : Nat) (samples : List StringSample)
  /-- OVERCURRENT (R70): A string exceeds 1.25 × setpoint + 10 mA on two consecutive PCLK edges and an overcurrent fault is declared. -/
  | overcurrent (t : Nat) (n : Nat) (b : Bool) (i1 i2 : Nat)
  /-- MONITOR_WINDOW_END (R73): A monitor integration window ends and is checked against CEIL for over-power. -/
  | monitorWindowEnd (t : Nat) (averages : List Nat)
  /-- APC_UPDATE (R72): Every 64 windows the power loop adjusts the trim of string B's peak and checks for a dead monitor. -/
  | apcUpdate (t : Nat) (n : Nat)
  /-- DECAY_CHECK (R88): 2 µs after the gates go low each string in scope is measured and DECAY_SLOW set if still 5 mA or more. -/
  | decayCheck (t : Nat) (n ia ib : Nat)
  /-- INTERLOCK_CHANGE (R94): The filtered state of INTLK_N changes; a low level trips Quench with cause INTLK. -/
  | interlockChange (t : Nat) (high : Bool) (held : Nat)
  /-- STRING_A_RAMP_DONE (R83): String A's 2,048 PCLK ramp to ISET_A ends and the lane becomes EMITTING. -/
  | stringARampDone (t : Nat) (n : Nat)
  /-- CHIRP_TABLE_WRITE (R76): A write to the chirp table window marks a staged table changed, or is discarded while TBLPEND is set. -/
  | chirpTableWrite (t : Nat) (src : Source) (addr val : Word)
  /-- TABLE_COPYBACK_DONE (R75): The copy of a newly active chirp table back into the staged bank completes and TBLPEND clears. -/
  | tableCopybackDone (t : Nat) (n : Nat)
  /-- LAUNCH_RELEASE (R49): A fixed release tick arrives; the launch is stamped, the chirp plays and stamp-driven work follows. -/
  | launchRelease (t : Nat) (n : Nat)
  /-- BOOSTER_LEAD (R65): LEAD PCLK before the pulse edge the dump FET turns on and string B ramps to peak. -/
  | boosterLead (t : Nat) (n : Nat)
  /-- BOOSTER_PULSE_START (R65): At stamp + OFFSET steering turns the dump FET off and the booster pulse begins, checked for a late ramp. -/
  | boosterPulseStart (t : Nat) (n ua : Nat)
  /-- BOOSTER_PULSE_END (R65): After WIDTH ticks the dump FET turns on again and the stage ramps down to keep-alive. -/
  | boosterPulseEnd (t : Nat) (n : Nat)
  /-- BOOSTER_TAIL_END (R65): The tail of LEAD PCLK ends and steering returns the current to the booster. -/
  | boosterTailEnd (t : Nat) (n : Nat)
  /-- RANGE_STEP_DECIDE (R100): In automatic mode HI_CNT or LO_CNT consecutive samples decide a range step down or up. -/
  | rangeStepDecide (t : Nat) (c : Nat) (codes : List Int)
  /-- OVERLOAD_RISE (R106): In schedule mode the step-down condition raises the overload offset by one. -/
  | overloadRise (t : Nat) (c : Nat) (codes : List Int)
  /-- RANGE_STEP_APPLY (R102): 32 ticks after a decided step or overload rise the new range applies at the ORX input. -/
  | rangeStepApply (t : Nat) (c : Nat)
  /-- SCHEDULE_ENTRY_START (R104): A schedule entry's start point is reached and its range applies. -/
  | scheduleEntryStart (t : Nat) (c : Nat)
  /-- BLANK_WINDOW_START (R108): A lane's blanking window opens at its stamp and the receivers switch to BLANKR. -/
  | blankWindowStart (t : Nat) (n : Nat)
  /-- BLANK_WINDOW_END (R108): The blanking window ends and automatic or schedule ranging resumes. -/
  | blankWindowEnd (t : Nat) (n : Nat)
  /-- CM_WINDOW_END (R109): A 1,024 PCLK common-mode window ends and the photodiode currents are checked. -/
  | cmWindowEnd (t : Nat) (c ip im : Nat)
  /-- SCHEDULE_TABLE_WRITE (R113): A write to the ORX schedule tables lands in the staged copy, or is discarded while SCHPEND is set. -/
  | scheduleTableWrite (t : Nat) (src : Source) (addr val : Word)
  /-- HSC_CALIBRATE (R123): HSC_CALCMD.START starts the 12 ms power-up self-calibration, cancelling rotations, or clamps to 0. -/
  | hscCalibrate (t : Nat) (src : Source)
  /-- HSC_CAL_DONE (R123): The self-calibration ends; slices are checked and assigned, corrections loaded and HSC_READY set. -/
  | hscCalDone (t : Nat) (ttrim : Nat) (slices : List (Int × Int × Int))
  /-- HSC_ROTATE (R128): HSC_CALCMD.ROTATE starts a rotation at once on each channel named. -/
  | hscRotate (t : Nat) (src : Source) (mask : Nat)
  /-- ROTATION_START (R128): A channel's rotation falls due in the HSC_ROT period and starts, or is deferred. -/
  | rotationStart (t : Nat) (c : Nat)
  /-- TRIM_PHASE_END (R133): The TRIM phase ends with the spare's static trims measured. -/
  | trimPhaseEnd (t : Nat) (c : Nat)
  /-- SHADOW0_END (R127): SHADOW0 ends and the spare moves to the position-1 edge. -/
  | shadow0End (t : Nat) (c : Nat) (sh : Shadow)
  /-- SHADOW1_END (R129): SHADOW1 ends and estimation of the new correction targets begins. -/
  | shadow1End (t : Nat) (c : Nat) (sh : Shadow)
  /-- ESTIMATION_DONE (R129): Estimation fixes the offset, gain and skew targets and the ramp waits for stamps. -/
  | estimationDone (t : Nat) (c : Nat) (tone : List ToneSum)
  /-- SLICE_SWAP (R131): After the ramp the spare takes over one position at its next sample and HSC_ROT_CNT increments. -/
  | sliceSwap (t : Nat) (c : Nat)
  /-- SLICE_CHECK_WINDOW (R136): A 65,536-sample window ends and the stuck-bit and pair-mismatch checks are evaluated. -/
  | sliceCheckWindow (t : Nat) (c : Nat) (seen : List (Nat × Nat)) (pair : Shadow)
  /-- SLICE_DIAG_END (R137): The diagnostic after a pair mismatch ends and names the slice to retire, if any. -/
  | sliceDiagEnd (t : Nat) (c : Nat) (pos0 pos1 : Shadow)
  /-- TRIM_SWEEP_START (R133): On the MQ-450 and MQ-250 a die-temperature change beyond HSC_CAL_DT starts a trim sweep. -/
  | trimSweepStart (t : Nat) (temp : Nat)
  /-- HSC_MAN_WRITE (R140): A write of HSC_MAN_Cn selects manual slice positions, or is kept with a clamp report. -/
  | hscManWrite (t : Nat) (src : Source) (c : Nat) (val : Word)
  /-- SPECTRUM_WRITE (R162): A write to a matched-filter spectrum or custom coefficients lands staged, or is discarded while conversion is pending. -/
  | spectrumWrite (t : Nat) (src : Source) (addr val : Word)
  /-- MF_CONVERSION_DONE (R162): Conversion of changed spectra or custom coefficients into taps completes and MFPEND or XPEND clears. -/
  | mfConversionDone (t : Nat) (unit : Nat)
  /-- PATH_BOUNDARY (R159): 48 ticks after a stamp the sub-band paths of the probe record PHREF and take their pending changes. -/
  | pathBoundary (t : Nat) (n : Nat)
  /-- DDC_OUTPUT (R158): A sub-band path delivers one output word with its flags to PHX. -/
  | ddcOutput (t : Nat) (c b : Nat) (k0 k1 k2 : List Int)
  /-- PHASE_SAMPLE (R172): A point's differential phase is formed, unwrapped, filled or skipped and written into its tile row. -/
  | phaseSample (t : Nat) (n b : Nat)
  /-- BLOCK_CLOSE (R176): A block's close time arrives; INVALID rows, temperatures and the block record are written and BLKPOS advances. -/
  | blockClose (t : Nat) (n : Nat)
  /-- TRACE_END_EVAL (R181): After 256 launches of probe 0 the trace end, floor and break distance are evaluated. -/
  | traceEndEval (t : Nat) (n : Nat)
  /-- POINT_STATE_ECC (R178): A double-bit error in a point's PHX state clears it as at first use and posts a report. -/
  | pointStateEcc (t : Nat) (n pt : Nat)
  /-- ENGINE_RUN (R199): Setting ANV_En_CTRL.RUN from HALTED issues the instruction at ANV_En_PC. -/
  | engineRun (t : Nat) (src : Source) (e : Nat)
  /-- ENGINE_HALT_REQUEST (R199): Clearing RUN requests a halt at the next instruction boundary. -/
  | engineHaltRequest (t : Nat) (src : Source) (e : Nat)
  /-- ENGINE_HALT (R200): The engine reaches the boundary after a halt request and enters HALTED. -/
  | engineHalt (t : Nat) (e : Nat)
  /-- ENGINE_STEP (R224): Writing STEP from HALTED issues one instruction. -/
  | engineStep (t : Nat) (src : Source) (e : Nat)
  /-- ENGINE_RESET (R224): Writing RESET from HALTED or ERROR clears registers, events and DMA channels. -/
  | engineReset (t : Nat) (src : Source) (e : Nat)
  /-- ENGINE_CLRERR (R224): Writing CLRERR returns an engine in ERROR to HALTED. -/
  | engineClrerr (t : Nat) (src : Source) (e : Nat)
  /-- IMEM_WRITE (R195): A host write to IMEM applies while HALTED or in ERROR, and is discarded otherwise. -/
  | imemWrite (t : Nat) (src : Source) (addr val : Word)
  /-- DMEM_HOST_ACCESS (R196): A host read or write of DMEM is served after bank arbitration, with ECC handling. -/
  | dmemHostAccess (t : Nat) (src : Source) (addr val : Word) (write : Bool)
  /-- DMA_COMPLETE (R211): A DMA transfer completes, with the reclaimed check for tile reads, and raises its channel event. -/
  | dmaComplete (t : Nat) (e c : Nat)
  /-- TACH_EDGE (R216): A qualified tachometer edge is stamped, written to its ring and updates SPEED. -/
  | tachEdge (t : Nat) (k : Nat) (level : TachLevel) (lost : Bool)
  /-- TACH_TIMEOUT (R218): No qualified edge for TMO × 65,536 PCLK sets SPEED to 0 and STALE. -/
  | tachTimeout (t : Nat) (k : Nat)
  /-- ADD (R236): Scalar sum sD ← sA + sB. -/
  | add (t e : Nat)
  /-- SUB (R236): Scalar difference sD ← sA − sB. -/
  | sub (t e : Nat)
  /-- AND (R236): Scalar bitwise AND. -/
  | and (t e : Nat)
  /-- OR (R236): Scalar bitwise OR. -/
  | or (t e : Nat)
  /-- XOR (R236): Scalar bitwise XOR. -/
  | xor (t e : Nat)
  /-- SHL (R236): Scalar left shift. -/
  | shl (t e : Nat)
  /-- SHR (R236): Scalar logical right shift. -/
  | shr (t e : Nat)
  /-- SAR (R236): Scalar arithmetic right shift, truncating. -/
  | sar (t e : Nat)
  /-- MIN (R236): Scalar signed minimum. -/
  | min (t e : Nat)
  /-- MAX (R236): Scalar signed maximum. -/
  | max (t e : Nat)
  /-- MINU (R236): Scalar unsigned minimum. -/
  | minu (t e : Nat)
  /-- MAXU (R236): Scalar unsigned maximum. -/
  | maxu (t e : Nat)
  /-- MUL (R236): Low 32 bits of the scalar product. -/
  | mul (t e : Nat)
  /-- MULH (R236): High 32 bits of the signed scalar product. -/
  | mulh (t e : Nat)
  /-- SLT (R236): Scalar signed set-less-than. -/
  | slt (t e : Nat)
  /-- SLTU (R236): Scalar unsigned set-less-than. -/
  | sltu (t e : Nat)
  /-- CLS (R236): Count of redundant sign bits of sA. -/
  | cls (t e : Nat)
  /-- CLZ (R236): Count of leading zeros of sA. -/
  | clz (t e : Nat)
  /-- ADDI (R236): Scalar sum with an immediate; LI is its alias. -/
  | addi (t e : Nat)
  /-- SUBI (R236): Scalar difference with an immediate. -/
  | subi (t e : Nat)
  /-- ANDI (R236): Scalar AND with an immediate. -/
  | andi (t e : Nat)
  /-- ORI (R236): Scalar OR with an immediate. -/
  | ori (t e : Nat)
  /-- XORI (R236): Scalar XOR with an immediate. -/
  | xori (t e : Nat)
  /-- SHLI (R236): Scalar left shift by an immediate. -/
  | shli (t e : Nat)
  /-- SHRI (R236): Scalar logical right shift by an immediate. -/
  | shri (t e : Nat)
  /-- SARI (R236): Scalar arithmetic right shift by an immediate. -/
  | sari (t e : Nat)
  /-- MINI (R236): Scalar signed minimum with an immediate. -/
  | mini (t e : Nat)
  /-- MAXI (R236): Scalar signed maximum with an immediate. -/
  | maxi (t e : Nat)
  /-- MINUI (R236): Scalar unsigned minimum with an immediate. -/
  | minui (t e : Nat)
  /-- MAXUI (R236): Scalar unsigned maximum with an immediate. -/
  | maxui (t e : Nat)
  /-- MULI (R236): Low product bits with an immediate. -/
  | muli (t e : Nat)
  /-- MULHI (R236): High signed product bits with an immediate. -/
  | mulhi (t e : Nat)
  /-- SLTI (R236): Signed set-less-than against an immediate. -/
  | slti (t e : Nat)
  /-- SLTUI (R236): Unsigned set-less-than against an immediate. -/
  | sltui (t e : Nat)
  /-- CLSI (R236): Redundant sign bits of sA in the immediate form, IMM zero. -/
  | clsi (t e : Nat)
  /-- CLZI (R236): Leading zeros of sA in the immediate form, IMM zero. -/
  | clzi (t e : Nat)
  /-- SLD (R236): Scalar 32-bit load through a pointer. -/
  | sld (t e : Nat)
  /-- SLDH (R236): Scalar 16-bit sign-extended load. -/
  | sldh (t e : Nat)
  /-- SST (R236): Scalar 32-bit store. -/
  | sst (t e : Nat)
  /-- SSTH (R236): Scalar 16-bit store. -/
  | ssth (t e : Nat)
  /-- PSET (R237): Write a pointer-file register of the selected kind from a scalar. -/
  | pset (t e : Nat)
  /-- PSETI (R237): Write a pointer-file register of the selected kind from an immediate. -/
  | pseti (t e : Nat)
  /-- PGET (R237): Read a pointer-file register into a scalar. -/
  | pget (t e : Nat)
  /-- PMOD (R237): Update a pointer by its modifier and mode without an access. -/
  | pmod (t e : Nat)
  /-- PSTEP (R237): Update a pointer by an immediate step and its mode without an access. -/
  | pstep (t e : Nat)
  /-- VADD (R239): Vector 32-bit add. -/
  | vadd (t e : Nat)
  /-- VSUB (R239): Vector 32-bit subtract. -/
  | vsub (t e : Nat)
  /-- VADDH (R239): Vector 16-bit add per half. -/
  | vaddh (t e : Nat)
  /-- VSUBH (R239): Vector 16-bit subtract per half. -/
  | vsubh (t e : Nat)
  /-- VAND (R239): Vector bitwise AND. -/
  | vand (t e : Nat)
  /-- VOR (R239): Vector bitwise OR. -/
  | vor (t e : Nat)
  /-- VXOR (R239): Vector bitwise XOR. -/
  | vxor (t e : Nat)
  /-- VMIN (R239): Vector 32-bit minimum. -/
  | vmin (t e : Nat)
  /-- VMAX (R239): Vector 32-bit maximum. -/
  | vmax (t e : Nat)
  /-- VMINH (R239): Vector 16-bit minimum per half. -/
  | vminh (t e : Nat)
  /-- VMAXH (R239): Vector 16-bit maximum per half. -/
  | vmaxh (t e : Nat)
  /-- VABS (R239): Vector 32-bit absolute value. -/
  | vabs (t e : Nat)
  /-- VABSH (R239): Vector 16-bit absolute value per half. -/
  | vabsh (t e : Nat)
  /-- VSHL (R239): Vector 32-bit left shift. -/
  | vshl (t e : Nat)
  /-- VSAR (R239): Vector 32-bit rounded arithmetic right shift. -/
  | vsar (t e : Nat)
  /-- VSARH (R239): Vector 16-bit rounded arithmetic right shift per half. -/
  | vsarh (t e : Nat)
  /-- VMOV (R239): Vector move. -/
  | vmov (t e : Nat)
  /-- VBCST (R239): Broadcast a scalar into every lane. -/
  | vbcst (t e : Nat)
  /-- VBCSTH (R239): Broadcast sA[15:0] into every half. -/
  | vbcsth (t e : Nat)
  /-- VSEL (R239): Select lanes from vA or vB by a predicate. -/
  | vsel (t e : Nat)
  /-- VSWAPH (R239): Exchange the halves of each lane. -/
  | vswaph (t e : Nat)
  /-- VEXT (R239): Extract one lane into a scalar. -/
  | vext (t e : Nat)
  /-- VMULH (R239): Vector Q1.15 multiply per half. -/
  | vmulh (t e : Nat)
  /-- VMULHB (R239): Vector Q1.15 multiply per half by a scalar. -/
  | vmulhb (t e : Nat)
  /-- VMULW (R239): Vector Q1.31 multiply. -/
  | vmulw (t e : Nat)
  /-- VMULI (R239): Vector integer multiply of the low halves. -/
  | vmuli (t e : Nat)
  /-- VMAC2 (R240): Dot multiply-accumulate of both halves into one accumulator, register operands. -/
  | vmac2 (t e : Nat)
  /-- VMSU2 (R240): Dot multiply-subtract, register operands. -/
  | vmsu2 (t e : Nat)
  /-- VMUL2 (R240): Dot multiply into an accumulator, register operands. -/
  | vmul2 (t e : Nat)
  /-- VMACP (R240): Pair multiply-accumulate into two accumulators, register operands. -/
  | vmacp (t e : Nat)
  /-- VMSUP (R240): Pair multiply-subtract, register operands. -/
  | vmsup (t e : Nat)
  /-- VMULP (R240): Pair multiply into two accumulators, register operands. -/
  | vmulp (t e : Nat)
  /-- VMAC2_MEM (R240): Dot multiply-accumulate with memory operands. -/
  | vmac2Mem (t e : Nat)
  /-- VMSU2_MEM (R240): Dot multiply-subtract with memory operands. -/
  | vmsu2Mem (t e : Nat)
  /-- VMUL2_MEM (R240): Dot multiply with memory operands. -/
  | vmul2Mem (t e : Nat)
  /-- VMACP_MEM (R240): Pair multiply-accumulate with memory operands. -/
  | vmacpMem (t e : Nat)
  /-- VMSUP_MEM (R240): Pair multiply-subtract with memory operands. -/
  | vmsupMem (t e : Nat)
  /-- VMULP_MEM (R240): Pair multiply with memory operands. -/
  | vmulpMem (t e : Nat)
  /-- ACLR (R241): Clear an accumulator. -/
  | aclr (t e : Nat)
  /-- AMOV (R241): Move a vector into an accumulator, sign-extended. -/
  | amov (t e : Nat)
  /-- AADD (R241): Add one accumulator into another. -/
  | aadd (t e : Nat)
  /-- VPACK (R241): Narrow two accumulators, shifted, into the halves of a vector. -/
  | vpack (t e : Nat)
  /-- VNARW (R241): Narrow an accumulator, shifted, to 32-bit lanes. -/
  | vnarw (t e : Nat)
  /-- ARED (R241): Sum an accumulator across lanes into a scalar. -/
  | ared (t e : Nat)
  /-- CMUL (R243): Complex multiply. -/
  | cmul (t e : Nat)
  /-- CMULC (R243): Complex multiply by the conjugate. -/
  | cmulc (t e : Nat)
  /-- CMAC (R243): Complex multiply-accumulate into an accumulator pair. -/
  | cmac (t e : Nat)
  /-- CMACC (R243): Complex multiply-accumulate with the conjugate. -/
  | cmacc (t e : Nat)
  /-- CMAG2 (R243): Complex squared magnitude into lanes. -/
  | cmag2 (t e : Nat)
  /-- CMAG2A (R243): Accumulate the complex squared magnitude. -/
  | cmag2a (t e : Nat)
  /-- CCONJ (R243): Complex conjugate. -/
  | cconj (t e : Nat)
  /-- CBFLYM (R244): Radix-2 butterfly on two DMEM rows with a twiddle from the twiddle unit. -/
  | cbflym (t e : Nat)
  /-- CBFLYMC (R244): Radix-2 butterfly with the conjugate twiddle. -/
  | cbflymc (t e : Nat)
  /-- VCMPEQ (R246): Predicate from lane equality. -/
  | vcmpeq (t e : Nat)
  /-- VCMPNE (R246): Predicate from lane inequality. -/
  | vcmpne (t e : Nat)
  /-- VCMPLT (R246): Predicate from signed less-than. -/
  | vcmplt (t e : Nat)
  /-- VCMPLE (R246): Predicate from signed less-or-equal. -/
  | vcmple (t e : Nat)
  /-- VCMPGT (R246): Predicate from signed greater-than. -/
  | vcmpgt (t e : Nat)
  /-- VCMPGE (R246): Predicate from signed greater-or-equal. -/
  | vcmpge (t e : Nat)
  /-- VTINV (R246): Predicate marking lanes holding an INVALID phase word. -/
  | vtinv (t e : Nat)
  /-- KAND (R246): Predicate AND. -/
  | kand (t e : Nat)
  /-- KOR (R246): Predicate OR. -/
  | kor (t e : Nat)
  /-- KXOR (R246): Predicate XOR. -/
  | kxor (t e : Nat)
  /-- KANDN (R246): Predicate AND-NOT. -/
  | kandn (t e : Nat)
  /-- KNOT (R246): Predicate NOT. -/
  | knot (t e : Nat)
  /-- KFROM (R246): Predicate from a scalar. -/
  | kfrom (t e : Nat)
  /-- KTO (R246): Predicate into a scalar. -/
  | kto (t e : Nat)
  /-- KPOP (R246): Population count of a predicate. -/
  | kpop (t e : Nat)
  /-- VLD (R247): Load a 64-byte row into a vector. -/
  | vld (t e : Nat)
  /-- VST (R247): Store a vector as a 64-byte row, keeping predicated lanes. -/
  | vst (t e : Nat)
  /-- VLDB_H (R247): Broadcast-load 16 bits into every half. -/
  | vldbH (t e : Nat)
  /-- VLDB_W (R247): Broadcast-load 32 bits into every lane. -/
  | vldbW (t e : Nat)
  /-- DMAST (R248): Start a DMA channel with a descriptor, waiting while the channel is busy; refused descriptors set DMAERR. -/
  | dmast (t e : Nat)
  /-- DMAWT (R248): Wait until a DMA channel is not busy and read its status. -/
  | dmawt (t e : Nat)
  /-- DMARD (R248): Read a DMA channel's status without waiting. -/
  | dmard (t e : Nat)
  /-- POST (R220): Hand a descriptor to a queue after pending DMEM-to-DRAM transfers complete, waiting for acceptance or refusal. -/
  | post (t e : Nat)
  /-- TAKE (R221): Copy the next untaken descriptor of the engine's own queue into DMEM. -/
  | take (t e : Nat)
  /-- DONE (R248): Complete a taken command of the engine's queue by sequence. -/
  | done (t e : Nat)
  /-- JMP (R249): Jump to TARGET. -/
  | jmp (t e : Nat)
  /-- CALL (R249): Jump to TARGET with the return address in s31. -/
  | call (t e : Nat)
  /-- JR (R249): Jump to the address in a scalar. -/
  | jr (t e : Nat)
  /-- BEQZ (R249): Branch if the scalar is zero. -/
  | beqz (t e : Nat)
  /-- BNEZ (R249): Branch if the scalar is not zero. -/
  | bnez (t e : Nat)
  /-- BLTZ (R249): Branch if the scalar is negative. -/
  | bltz (t e : Nat)
  /-- BGEZ (R249): Branch if the scalar is not negative. -/
  | bgez (t e : Nat)
  /-- DBNZ (R249): Decrement a scalar and branch if it is not zero. -/
  | dbnz (t e : Nat)
  /-- REP (R250): Repeat the next instruction CNT + 1 times. -/
  | rep (t e : Nat)
  /-- REP_REG (R250): Repeat the next instruction the number of times held in a scalar. -/
  | repReg (t e : Nat)
  /-- WAIT (R251): Wait for a masked event and report the lowest pending one. -/
  | wait (t e : Nat)
  /-- NOP (R249): No operation for one tick. -/
  | nop (t e : Nat)
  /-- HALT (R249): Enter HALTED at this boundary with the PC at the next instruction. -/
  | halt (t e : Nat)
  /-- SRD (R252): Read a special register into a scalar. -/
  | srd (t e : Nat)
  /-- SWR (R252): Write a scalar into a writable special register. -/
  | swr (t e : Nat)
  /-- BXADV (R208): Advance the block-exponent stage: set SCALE, add it to EXP, reset HEAD. -/
  | bxadv (t e : Nat)
  /-- WCK_RUN (R265): Setting WCK_CTRL.RUN[n] starts a stopped sequencer at WCK_Ln_PC. -/
  | wckRun (t : Nat) (src : Source) (n : Nat)
  /-- WCK_STOP (R265): Clearing RUN[n] stops a sequencer at its next boundary, ending any wait. -/
  | wckStop (t : Nat) (src : Source) (n : Nat)
  /-- WCK_CLRERR (R265): Writing CLRERR[n] returns a sequencer from ERROR to STOPPED. -/
  | wckClrerr (t : Nat) (src : Source) (n : Nat)
  /-- WICK_PROGRAM_WRITE (R267): A host write of Wick program memory or PC applies while stopped and is discarded otherwise. -/
  | wickProgramWrite (t : Nat) (src : Source) (addr val : Word)
  /-- WCK_HALT (R266): The Wick HALT instruction stops the sequencer and clears RUN. -/
  | wckHalt (t : Nat) (n : Nat)
  /-- WCK_WAIT (R256): The Wick WAIT instruction waits N ticks. -/
  | wckWait (t : Nat) (n : Nat)
  /-- WAIT_EXPIRY (R256): A Wick WAIT's count elapses and the next instruction issues. -/
  | waitExpiry (t : Nat) (n : Nat)
  /-- WCK_LAUNCH (R258): LAUNCH posts a probe request to the launch matrix at the action time, stalling while its cell is occupied. -/
  | wckLaunch (t : Nat) (n : Nat)
  /-- WCK_BLANK (R256): BLANK sets the lane's blanking window for later launches. -/
  | wckBlank (t : Nat) (n : Nat)
  /-- WCK_RANGE (R105): RANGE sets the active schedule index of both channels for the next launch. -/
  | wckRange (t : Nat) (n : Nat)
  /-- WCK_ALIGN (R261): ALIGN waits until the next instruction can issue on the alignment grid. -/
  | wckAlign (t : Nat) (n : Nat)
  /-- ALIGN_GRID_TICK (R261): The target grid tick of an ALIGN arrives and the next instruction issues. -/
  | alignGridTick (t : Nat) (n : Nat)
  /-- WCK_PPS (R262): PPS waits for the next selected PPS edge. -/
  | wckPps (t : Nat) (n : Nat)
  /-- PPS_TIMEOUT (R262): No PPS edge within 1.5 s; the next instruction issues and PPSMISS is set. -/
  | ppsTimeout (t : Nat) (n : Nat)
  /-- WCK_LOOP (R257): LOOP opens a loop of CNT + 1 passes. -/
  | wckLoop (t : Nat) (n : Nat)
  /-- WCK_ENDL (R257): ENDL closes the innermost loop or continues at its start. -/
  | wckEndl (t : Nat) (n : Nat)
  /-- WCK_JMP (R256): The Wick JMP continues at TARGET. -/
  | wckJmp (t : Nat) (n : Nat)
  /-- WCK_TRIG (R263): TRIG orders a capture trigger at the action time. -/
  | wckTrig (t : Nat) (n : Nat)
  /-- WCK_TONE (R260): TONE orders the calibration tone for LEN ticks from the action time. -/
  | wckTone (t : Nat) (n : Nat)
  /-- TRIGGER_ACTION (R263): A trigger's action time arrives; it counts, starts an armed capture or posts an event with no capture. -/
  | triggerAction (t : Nat) (n : Nat)
  /-- CAPTURE_END (R264): A capture has written LEN × 4 KiB and its event descriptor is posted to Q(16 + n). -/
  | captureEnd (t : Nat) (n : Nat) (samples : List Int)
  /-- CAPTURE_TRUNCATE (R264): A capture falls more than 64 KiB behind its source and ends with a truncation flag. -/
  | captureTruncate (t : Nat) (n len : Nat) (samples : List Int)
  /-- TONE_ON (R260): The tone's action time arrives and it is injected into both channels of the lane. -/
  | toneOn (t : Nat) (n : Nat)
  /-- TONE_OFF (R260): The tone window ends. -/
  | toneOff (t : Nat) (n : Nat)
  /-- REF_READY (R283): 5 ms after AUX_REFBUF.EN the reference buffer is ready and waiting work proceeds. -/
  | refReady (t : Nat)
  /-- SEQ_START (R278): Setting AUX_SEQ.RUN starts the regular sequence at entry 0. -/
  | seqStart (t : Nat)
  /-- SEQ_STOP (R278): Clearing AUX_SEQ.RUN ends the running entry, discards its windows and disconnects the source. -/
  | seqStop (t : Nat)
  /-- INJECT_REQUEST (R279): An injected conversion is requested by the host, merged with any pending one, aborting a regular entry. -/
  | injectRequest (t : Nat) (src : Source) (k : Nat)
  /-- AUX_CALIBRATE (R291): AUX_CALCMD.START commands a 16-step self-calibration, deferred behind injections or REFREADY. -/
  | auxCalibrate (t : Nat) (src : Source)
  /-- AUX_CAL_STEP_END (R292): A calibration window ends; after the last step the factors are computed, checked and stored. -/
  | auxCalStepEnd (t : Nat) (a b : Int)
  /-- AUX_TEMP_CHECK (R295): Every 100 ms Hearth compares die temperature with TCAL and commands a calibration on drift. -/
  | auxTempCheck (t : Nat) (temp : Nat)
  /-- DISCHARGE_START (R275): 196 PCLK after a source switch the converter inputs and used pins are tied to mid-rail. -/
  | dischargeStart (t : Nat)
  /-- DISCHARGE_END (R275): The discharge time D ends. -/
  | dischargeEnd (t : Nat)
  /-- SOURCE_CONNECT (R275): The incoming source is connected, its excitation starts and the settle count starts. -/
  | sourceConnect (t : Nat)
  /-- SETTLE_END (R275): Settling ends and the first conversion window opens. -/
  | settleEnd (t : Nat)
  /-- WINDOW_END (R276): An AUX conversion window of one mains period ends. -/
  | windowEnd (t : Nat) (raw : Int)
  /-- RESULT_WRITE (R276): 64 PCLK after the last window the result and tag are written and delivered, and the sequence moves on. -/
  | resultWrite (t : Nat)
  /-- LINESYNC_EDGE (R277): A LINESYNC edge gives a new mains period, accepted if in range, and updates the mains frequency. -/
  | linesyncEdge (t : Nat) (rising : Bool)
  /-- LINESYNC_LOST (R277): No acceptable period for 50 ms sets LSLOST and windows use the fallback period. -/
  | linesyncLost (t : Nat)
  /-- LEAD_CHECK (R288): Every quarter period the lead checks of the connected channel declare or clear faults. -/
  | leadCheck (t : Nat) (amp : Nat) (limit : Bool) (sns inp : List Nat)
  /-- RESULT_AGE_STALE (R286): A result's age exceeds AUX_STALE and it is tagged STALE. -/
  | resultAgeStale (t : Nat) (src : Nat)
  /-- AUX_RESULT_READ (R287): A read of an AUX result register latches its tag. -/
  | auxResultRead (t : Nat) (addr : Word)
  /-- MEM_REQUEST (R310): A port request arrives at the controller and is ordered against requests to the same burst. -/
  | memRequest (t : Nat) (port addr : Nat) (half ap : Bool) (data : Option (List Byte))
  /-- MEM_COMMAND_SLOT (R312): A channel chooses and issues its next command by class, urgency, direction, page and age. -/
  | memCommandSlot (t : Nat) (c : Nat) (half : Bool) (err : Nat)
  /-- REFRESH_DUE (R317): tREFI elapses and a refresh falls due, issued or postponed behind class-0 requests. -/
  | refreshDue (t : Nat) (c : Nat) (temps : Word)
  /-- SELF_REFRESH_ENTRY (R318): A channel idle for IDLE × 64 MCLK precharges and enters self-refresh. -/
  | selfRefreshEntry (t : Nat) (c : Nat)
  /-- BUDGET_WINDOW_END (R315): An accounting window ends, held ports are released and new budgets apply. -/
  | budgetWindowEnd (t : Nat)
  /-- ZQCS (R322): A ZQ calibration runs on each rank on temperature drift or at least every 128 ms. -/
  | zqcs (t : Nat) (c temp : Nat)
  /-- RETRAIN_SLOT (R322): A maintenance slot of retraining holds its channel for up to 768 MCLK. -/
  | retrainSlot (t : Nat) (c temp : Nat) (work : SlotWork) (last : Bool)
  /-- SCRUB_READ (R325): MP11 reads the next burst of the scrub pass and corrects it. -/
  | scrubRead (t : Nat) (err : Nat)
  /-- QUEUE_DOORBELL (R336): A host write of QUE_Qq_DOORBELL.SUBMIT submits the SUB words for checking and acceptance. -/
  | queueDoorbell (t : Nat) (src : Source) (q : Nat)
  /-- QUEUE_ACCEPT (R339): The journal writes, and the standby's mirror confirmation, complete and the descriptor is accepted. -/
  | queueAccept (t : Nat) (q : Nat)
  /-- HOST_DONE (R340): A host write of QUE_Qq_DONE completes the oldest presented descriptor, or sets DONEERR. -/
  | hostDone (t : Nat) (src : Source) (q seq : Nat)
  /-- COMPLETION_FINAL (R341): The state record with the new CMP_SEQ is written and confirmed and the completion is final. -/
  | completionFinal (t : Nat) (q : Nat)
  /-- MIRROR_WAIT_TIMEOUT (R34): The Bellows link stays down beyond the twin lease time and acceptance turns unmirrored. -/
  | mirrorWaitTimeout (t : Nat)
  /-- MST_FRAME_SEND (R355): A stream frame is full of whole records and is formed, retained and transmitted. -/
  | mstFrameSend (t : Nat) (q : Nat)
  /-- MST_FLUSH_TIMEOUT (R355): QUE_MST_FLUSH µs after its first record a partly filled frame is sent. -/
  | mstFlushTimeout (t : Nat) (q : Nat)
  /-- MST_ACK (R356): An ACK frame releases acknowledged frames and triggers one retransmission of gaps. -/
  | mstAck (t : Nat) (n : Nat) (vid : Option Nat) (frame : List Byte)
  /-- MST_RTO (R357): A frame's retransmission timeout expires and it is sent again with RETX, stalling after 16 timeouts. -/
  | mstRto (t : Nat) (q seq : Nat)
  /-- PAYLOAD_UNREADABLE (R505): NET cannot read a descriptor's payload; its records are withheld and the stream restarts with SYNC. -/
  | payloadUnreadable (t : Nat) (q : Nat) (ue : Bool)
  /-- COMPRESS (R369): A COMPRESS job is taken, validated and compressed into a segment with trailer and context record. -/
  | compress (t : Nat)
  /-- DECOMPRESS (R373): A DECOMPRESS job is taken, validated and decoded with its symbol checks. -/
  | decompress (t : Nat)
  /-- CRU_JOB_END (R376): A Crucible job ends, its completion record is written and the job is completed. -/
  | cruJobEnd (t : Nat) (unit : Nat)
  /-- LINK_UP (R380): An Ethernet port's link comes up at 10GBASE-R or 1000BASE-X. -/
  | linkUp (t : Nat) (n speed : Nat)
  /-- LINK_DOWN (R380): A port loses its link; in failover mode streams move to the other port. -/
  | linkDown (t : Nat) (n : Nat)
  /-- SPEED_TRY_TIMEOUT (R380): In automatic mode a 500 ms attempt at one speed fails and the other is tried. -/
  | speedTryTimeout (t : Nat) (n : Nat)
  /-- RX_FRAME_DROP (R381): A received frame of an unsupported kind or wrong VID is dropped and counted. -/
  | rxFrameDrop (t : Nat) (n : Nat) (vid : Option Nat) (dst : Nat) (kind : RxKind)
  /-- ARP_REQUEST (R381): An ARP request for the device's address is answered. -/
  | arpRequest (t : Nat) (n : Nat) (vid : Option Nat) (smac sip target : Nat)
  /-- NEIGHBOUR_SOLICITATION (R381): An IPv6 neighbour solicitation for the device's address is answered. -/
  | neighbourSolicitation (t : Nat) (n : Nat) (vid : Option Nat) (smac sip target : Nat)
  /-- MGMT_READ (R393): An authenticated management READ returns register words. -/
  | mgmtRead (t : Nat) (n : Nat) (vid : Option Nat) (smac sip sport : Nat) (frame : List Byte)
  /-- MGMT_WRITE (R393): An authenticated management WRITE applies its address-value pairs as one unit. -/
  | mgmtWrite (t : Nat) (n : Nat) (vid : Option Nat) (smac sip sport : Nat) (frame : List Byte)
  /-- MGMT_SUBMIT (R393): An authenticated management SUBMIT submits a descriptor as a host producer. -/
  | mgmtSubmit (t : Nat) (n : Nat) (vid : Option Nat) (smac sip sport : Nat) (frame : List Byte)
  /-- PTP_SYNC_RX (R385): A PTP Sync is stamped and received in slave role. -/
  | ptpSyncRx (t : Nat) (port : Nat) (udp : Bool) (dom seq origin : Nat) (twoStep : Bool)
  /-- PTP_FOLLOW_UP_RX (R385): A Follow_Up is received and used by the servo. -/
  | ptpFollowUpRx (t : Nat) (port : Nat) (udp : Bool) (dom seq origin : Nat)
  /-- PTP_DELAY_RESP_RX (R385): A Delay_Resp is received and the servo steps or slews the clock. -/
  | ptpDelayRespRx (t : Nat) (port : Nat) (udp : Bool) (dom seq t4 : Nat)
  /-- PTP_DELAY_REQ_RX (R385): In master role a Delay_Req is answered. -/
  | ptpDelayReqRx (t : Nat) (port : Nat) (udp : Bool) (dom seq peer : Nat)
  /-- PTP_SYNC_TX (R385): In master role a Sync is sent at 16 per second. -/
  | ptpSyncTx (t : Nat)
  /-- PTP_SYNC_TIMEOUT (R385): No Sync for 3 s clears PTPLOCK. -/
  | ptpSyncTimeout (t : Nat)
  /-- PPS_EDGE (R387): A selected PPS edge latches device and PTP time and ends waiting PPS instructions. -/
  | ppsEdge (t : Nat) (pin rising : Bool)
  /-- PPSIN_TIMEOUT (R386): PPS_IN has no edge for 1.5 s and PPSIN_OK clears. -/
  | ppsinTimeout (t : Nat)
  /-- SECOND_BOUNDARY (R386): The PTP clock crosses a second boundary and PPS_OUT goes high. -/
  | secondBoundary (t : Nat)
  /-- PPS_OUT_END (R386): OUT_WIDTH ms after the boundary PPS_OUT goes low. -/
  | ppsOutEnd (t : Nat)
  /-- SPI_WRITE (R389): A 0x02 write frame is applied at CS_N rise if its CRC and length are right. -/
  | spiWrite (t : Nat) (bytes : List Byte)
  /-- SPI_READ (R390): A 0x0B read frame latches its words at the last dummy byte and returns status, data and CRC. -/
  | spiRead (t : Nat) (bytes : List Byte) (late : Bool)
  /-- SPI_STATUS (R388): A 0x05 frame returns NET_SPI_STATUS with its CRC. -/
  | spiStatus (t : Nat)
  /-- SPI_UNKNOWN_COMMAND (R389): A frame with an unknown command byte is ignored to its end. -/
  | spiUnknownCommand (t : Nat) (bytes : List Byte)
  /-- FEED_SAMPLE (R408): Every 64 PCLK each feed voltage is sampled and OK, sag and dip conditions evaluated. -/
  | feedSample (t : Nat) (mvA mvB : Nat)
  /-- FEED_QUALIFIED (R410): A feed has been OK for 1 s and becomes QUALIFIED. -/
  | feedQualified (t : Nat) (b : Bool)
  /-- LEASE_RENEWAL (R404): At each renewal interval a healthy holder renews its lease in hardware. -/
  | leaseRenewal (t : Nat) (twin readBack : Bool)
  /-- LEASE_STOP (R405): A holder reaches 7L/8 since its last confirmed renewal and fences itself. -/
  | leaseStop (t : Nat) (twin : Bool)
  /-- LEASE_EXPIRY_ACQUIRE (R406): A challenger hears no renewal for 9L/8 and acquires the lease. -/
  | leaseExpiryAcquire (t : Nat) (twin : Bool)
  /-- RELEASE_CONFIRMED (R411): The released feed gate reads low for 8 PCLK plus OFFT and the other feed acquires. -/
  | releaseConfirmed (t : Nat) (lowAt : Nat)
  /-- NOCONF_TIMEOUT (R411): The released gate has not read low within 512 PCLK; NOCONF is set and acquisition waits for expiry. -/
  | noconfTimeout (t : Nat)
  /-- FEED_SWITCHBACK (R414): A guarded write of PWR_SWITCHBACK moves the feed lease to a QUALIFIED feed. -/
  | feedSwitchback (t : Nat) (src : Source) (toB : Bool)
  /-- TWIN_ENABLE (R420): Setting TWN_CTRL.EN starts pairing by listening for a HEARTBEAT. -/
  | twinEnable (t : Nat) (src : Source)
  /-- TWIN_DISABLE (R429): Clearing TWN_CTRL.EN ends twin operation and releases the lease on the holder. -/
  | twinDisable (t : Nat) (src : Source)
  /-- PAIRING_LISTEN_END (R420): The pairing listen time ends without a HEARTBEAT and the unit acquires. -/
  | pairingListenEnd (t : Nat)
  /-- HEARTBEAT (R418): A HEARTBEAT frame is received, renewing the lease and making a pairing unit standby. -/
  | heartbeat (t : Nat) (epoch lease dev : Nat) (strap : Bool) (part serial : Nat)
  /-- STATUS (R421): A STATUS frame from the standby reports eligibility and checkpoint blocks to the holder. -/
  | status (t : Nat) (epoch : Nat) (synced eligible : Bool) (blocks : List Nat)
  /-- RELEASE (R424): A RELEASE frame from the holder lets the standby acquire at once. -/
  | release (t : Nat) (epoch reason : Nat)
  /-- JOURNAL (R346): A JOURNAL frame is written by the standby at the same DRAM address and confirmed. -/
  | journal (t : Nat) (addr : Nat) (bytes : List Byte) (payload : Option (Nat × Nat)) (last : Bool)
  /-- CONFIG (R420): A CONFIG frame applies the holder's committed configuration on the standby. -/
  | config (t : Nat) (pairs : List (Word × Word)) (last : Bool)
  /-- CHECKPOINT (R421): A CHECKPOINT frame is written by the standby, completing a lane checkpoint when its CRCs pass. -/
  | checkpoint (t : Nat) (n blk off : Nat) (eng : Bool) (bytes : List Byte)
  /-- BELLOWS_RESEND (R418): A Bellows frame unacknowledged for 20 µs is sent again, and after 8 attempts the link is down. -/
  | bellowsResend (t : Nat) (seq : Nat)
  /-- BELLOWS_LANE_LOSS (R418): One Bellows lane loses lock and the link runs at half rate with HALFLINK. -/
  | bellowsLaneLoss (t : Nat) (k : Nat)
  /-- LEASE_IN_PULSE (R419): A LEASE_IN pulse of valid width counts as a renewal on the line path. -/
  | leaseInPulse (t : Nat) (width : Nat)
  /-- LEASE_OUT_PULSE (R419): Every L/2 a unit in role 1 or 2 emits a 10 µs LEASE_OUT pulse. -/
  | leaseOutPulse (t : Nat) (readBack : Bool)
  /-- PATH_SILENCE (R419): One path is silent for 9L/8; LINK_OK or LINE_OK drops and a report is posted. -/
  | pathSilence (t : Nat) (line : Bool)
  /-- OSW_SETTLED (R422): TWN_OSWSET has elapsed after takeover and the ramped lanes become EMITTING. -/
  | oswSettled (t : Nat)
  /-- TWIN_SWITCHBACK (R426): A guarded write of TWN_SWITCHBACK schedules a lease move to an eligible standby. -/
  | twinSwitchback (t : Nat) (src : Source)
  /-- ECC_INJECT (R456): TST_ECC.GO flips one or two bits in the next write to the chosen target. -/
  | eccInject (t : Nat) (src : Source) (target : Nat) (double : Bool)
  /-- SLICE_FAULT_INJECT (R456): A write of TST_SLICE forces a stuck bit, gain or offset fault on a slice. -/
  | sliceFaultInject (t : Nat) (src : Source) (val : Word)
  /-- DUMMY_LOAD_SELECT (R457): A write of TST_DUMMY puts OFF lanes into or out of dummy-load mode. -/
  | dummyLoadSelect (t : Nat) (src : Source) (val : Word)
  /-- EMIT_FAULT_INJECT (R457): A write of TST_EMITFLT drives a dummy lane's model into a chosen emitter fault. -/
  | emitFaultInject (t : Nat) (src : Source) (val : Word)
  /-- ILLEGAL_INSTRUCTION (R227): An Anvil instruction word with an undefined OP or FN, including the all-zero word, issues and puts the engine in ERROR with code ILLEGAL. -/
  | illegalInstruction (t e : Nat)
  /-- WICK_UNDEFINED_OPERATION (R257): A Wick word whose operation field is undefined issues and stops the sequencer in ERROR with code ILLEGAL. -/
  | wickUndefinedOperation (t : Nat) (n : Nat)
  /-- BELLOWS_LANE_LOCK (R34): A Bellows lane regains lock, so the link returns to full rate or comes back up, and the holder mirrors outstanding journal entries and resumes mirrored acceptance. -/
  | bellowsLaneLock (t : Nat) (k : Nat)
  /-- TAP_INSTRUCTION (R399): An instruction loaded through the IEEE 1149.1 test port takes effect, holding LAN gates low, STEER diverting and QUENCH_N low in EXTEST, CLAMP and HIGHZ, and acting as BYPASS for private instructions under DBGLOCK. -/
  | tapInstruction (t : Nat) (instr : TapInstr)
  /-- VAON_REMOVED (R472): VAON is removed and the always-on domain loses the feed lease state, PREF, UV, the management counter and SYS_RSTCAUSE. -/
  | vaonRemoved (t : Nat)
  /-- LANE_IDLE (R178): A lane's last stamp becomes older than 8N ACLK ticks and PHX_Ln_STAT.IDLE sets. -/
  | laneIdle (t : Nat) (n : Nat)
  /-- MAILBOX_JOB_END (R340): Hearth ends a mailbox request taken from Q63 and completes its descriptor. -/
  | mailboxJobEnd (t : Nat)
deriving DecidableEq, Repr

end Sys2Proof
end

