-- ==== Sys2Proof/Decode.lean ====
section
/-!
DEFINITION. Words of the opcode table: no row gives bits, so no word spells a command.
Points that the spec leaves open or that are read from it by inference: DESIGN CHOICE 7 of the assumption log.
-/

namespace Sys2Proof

/-- The command that a word spells by the table's bits. The rows of spec/opcode_table.json have no fields. -/
def decodeTableWord (_nbits _w : Nat) : Option Instr := none

end Sys2Proof
end

