-- ==== Sys2Proof/Machine/RegMap.lean ====
section
/-!
DEFINITION. The register map of the control bus (spec 19_register_map R477 to R483, 17_register_model R431 and R432, and the register tables of every chapter):
which registers each 64 KiB window holds, and each field's bits, access code, reset value and range check.
-/

namespace Sys2Proof.Machine

/-- The access codes of R17. -/
inductive Access where
  | rw | ro | wo | rc | w1c | rwg | wog | rws
deriving DecidableEq, Repr

/-- Where a field's reset value comes from (R18). -/
inductive ResetFrom where
  /-- A number the register table gives. -/
  | num (n : Nat)
  /-- That number times the unit's index. -/
  | perUnit (n : Nat)
  /-- One number for each unit. -/
  | listed (ns : List Nat)
  /-- The mask of the lanes the variant has. -/
  | lanes
  /-- 1, but 0 on the MQ-850 (R133). -/
  | trim
  /-- A fuse: the die revision, the part code, the debug lock, the boot authentication or the address words of a port. -/
  | fuseRev | fusePart | fuseDbg | fuseAuth | fuseMacLo | fuseMacHi
deriving DecidableEq, Repr

/-- The range check of R438 and R439 that a field's table row states. -/
inductive Check where
  | none
  /-- Clamps to the nearest of two limits. -/
  | range (lo hi : Nat)
  /-- Clamps to the nearest multiple of a step between two limits, the larger when midway. -/
  | step (lo hi st : Nat)
  /-- Clamps to the nearest power of two between two limits, the larger when midway. -/
  | pow2 (lo hi : Nat)
  /-- Keeps the previous value unless the written one is listed. -/
  | enum (vs : List Nat)
  /-- A lane mask: bits of fused-off lanes clamp to zero (R3). -/
  | laneMask
  /-- A lane index: a fused-off lane's index reads zero (R3). -/
  | laneIdx
  /-- A lane index: a fused-off lane's index clamps to the unit's own number. -/
  | laneOwn
  /-- Not writable once MEM_STAT.READY is set (R302, R307). -/
  | memLocked
  /-- Reads zero in legacy mode (R452). -/
  | legacyZero
  /-- A two's-complement value held between plus and minus a limit. -/
  | signedMag (m : Nat)
  /-- The chapter's own rule. -/
  | chapter
deriving DecidableEq, Repr

/-- One field of a register table. -/
structure FieldDef where
  hi : Nat
  lo : Nat
  acc : Access
  reset : ResetFrom
  check : Check
deriving DecidableEq, Repr

/-- One register of a window: its first offset, how many units have it, their stride, and its fields from the lowest bit upward. -/
structure RegDef where
  off : Nat
  count : Nat
  stride : Nat
  fields : List FieldDef
deriving DecidableEq, Repr

/-- A named field of a register: the control-bus address in unit 0's block, the unit stride and the bits. -/
structure Fld where
  addr : Nat
  stride : Nat
  hi : Nat
  lo : Nat
deriving DecidableEq, Repr


/-- The registers of window 0, SYS. -/
def regsSYS : List RegDef := [
  ⟨0x0, 1, 0x0, [⟨7, 0, .ro, .fuseRev, .none⟩, ⟨31, 16, .ro, .fusePart, .none⟩]⟩,  -- SYS_ID
  ⟨0x4, 1, 0x0, [⟨0, 0, .rwg, .num 0, .chapter⟩, ⟨1, 1, .wog, .num 0, .none⟩, ⟨2, 2, .rwg, .num 0, .chapter⟩, ⟨3, 3, .rwg, .num 0, .none⟩]⟩,  -- SYS_CTRL
  ⟨0x8, 1, 0x0, [⟨15, 0, .wo, .num 0, .none⟩, ⟨31, 16, .ro, .num 0, .none⟩]⟩,  -- SYS_COMMIT
  ⟨0xC, 1, 0x0, [⟨0, 0, .wo, .num 0, .none⟩]⟩,  -- SYS_SNAP
  ⟨0x10, 1, 0x0, [⟨31, 0, .rwg, .num 0, .none⟩]⟩,  -- SYS_CRC_REF
  ⟨0x14, 1, 0x0, [⟨0, 0, .rw, .num 0, .none⟩, ⟨2, 1, .rw, .num 0, .chapter⟩]⟩,  -- SYS_CRC_CTRL
  ⟨0x18, 1, 0x0, [⟨15, 0, .rw, .num 1024, .range 64 65535⟩]⟩,  -- SYS_GUARD_TMO
  ⟨0x1C, 1, 0x0, [⟨8, 0, .rw, .num 0, .none⟩]⟩,  -- SYS_APBASE
  ⟨0x20, 1, 0x0, [⟨4, 0, .ro, .num 0, .none⟩]⟩,  -- SYS_STRAPS
  ⟨0x24, 1, 0x0, [⟨0, 0, .wog, .num 0, .chapter⟩]⟩,  -- SYS_HIBCTRL
  ⟨0x200, 1, 0x0, [⟨0, 0, .rc, .num 0, .none⟩, ⟨1, 1, .rc, .num 0, .none⟩, ⟨2, 2, .rc, .num 0, .none⟩, ⟨3, 3, .rc, .num 0, .none⟩, ⟨4, 4, .rc, .num 0, .none⟩, ⟨5, 5, .rc, .num 0, .none⟩, ⟨6, 6, .rc, .num 0, .none⟩, ⟨7, 7, .rc, .num 0, .none⟩, ⟨8, 8, .rc, .num 0, .none⟩]⟩,  -- SYS_STAT
  ⟨0x204, 1, 0x0, [⟨31, 0, .ro, .num 0, .none⟩]⟩,  -- SYS_CRC_LIVE
  ⟨0x208, 1, 0x0, [⟨7, 0, .ro, .num 0, .none⟩, ⟨15, 8, .ro, .num 0, .none⟩, ⟨23, 16, .ro, .num 0, .none⟩, ⟨31, 24, .ro, .num 0, .none⟩]⟩,  -- SYS_TEMP
  ⟨0x20C, 1, 0x0, [⟨15, 0, .ro, .num 0, .none⟩]⟩,  -- SYS_DIRTY
  ⟨0x210, 1, 0x0, [⟨2, 0, .ro, .num 1, .none⟩, ⟨8, 8, .ro, .num 0, .none⟩]⟩,  -- SYS_RSTCAUSE
  ⟨0x214, 1, 0x0, [⟨3, 0, .ro, .num 0, .none⟩, ⟨4, 4, .ro, .num 0, .none⟩]⟩,  -- SYS_BOOTSTAGE
  ⟨0x600, 1, 0x0, [⟨31, 0, .ro, .num 0, .none⟩]⟩,  -- SYS_CLAMP_CNT
  ⟨0x604, 1, 0x0, [⟨31, 0, .ro, .num 0, .none⟩]⟩,  -- SYS_GUARD_CNT
  ⟨0x608, 1, 0x0, [⟨31, 0, .ro, .num 0, .none⟩]⟩,  -- SYS_UPTIME_LO
  ⟨0x60C, 1, 0x0, [⟨31, 0, .ro, .num 0, .none⟩]⟩,  -- SYS_UPTIME_HI
  ⟨0x610, 1, 0x0, [⟨31, 0, .ro, .num 0, .none⟩]⟩,  -- SYS_CRCFAIL_CNT
  ⟨0x614, 1, 0x0, [⟨31, 0, .ro, .num 0, .none⟩]⟩,  -- SYS_COMMIT_CNT
  ⟨0x618, 1, 0x0, [⟨31, 0, .ro, .num 0, .none⟩]⟩,  -- SYS_WARM_CNT
  ⟨0x61C, 1, 0x0, [⟨31, 0, .ro, .num 0, .none⟩]⟩  -- SYS_WDOG_CNT
  ]

/-- The registers of window 1, LAN. -/
def regsLAN : List RegDef := [
  ⟨0x0, 1, 0x0, [⟨7, 0, .rwg, .num 0, .chapter⟩, ⟨8, 8, .wog, .num 0, .none⟩]⟩,  -- LAN_CTRL
  ⟨0x4, 1, 0x0, [⟨0, 0, .rwg, .num 0, .chapter⟩, ⟨2, 1, .rwg, .num 1, .none⟩]⟩,  -- LAN_QCFG
  ⟨0x8, 1, 0x0, [⟨10, 0, .rws, .num 125, .range 16 1024⟩]⟩,  -- LAN_BLANK
  ⟨0xC, 1, 0x0, [⟨4, 0, .rws, .num 5, .range 2 20⟩]⟩,  -- LAN_KEEPALIVE
  ⟨0x10, 1, 0x0, [⟨0, 0, .wog, .num 0, .chapter⟩]⟩,  -- LAN_QCLR
  ⟨0x14, 1, 0x0, [⟨2, 0, .rw, .num 0, .laneIdx⟩]⟩,  -- LAN_TBLPAGE
  ⟨0x200, 1, 0x0, [⟨7, 0, .ro, .num 0, .none⟩, ⟨15, 8, .ro, .num 0, .none⟩, ⟨23, 16, .ro, .num 0, .none⟩, ⟨24, 24, .ro, .num 0, .none⟩, ⟨25, 25, .ro, .num 0, .none⟩, ⟨26, 26, .ro, .num 0, .none⟩, ⟨27, 27, .ro, .num 0, .none⟩, ⟨28, 28, .ro, .num 0, .none⟩]⟩,  -- LAN_STAT
  ⟨0x204, 1, 0x0, [⟨7, 0, .ro, .num 0, .none⟩, ⟨15, 8, .ro, .num 0, .none⟩, ⟨18, 16, .ro, .num 0, .none⟩, ⟨19, 19, .ro, .num 0, .none⟩, ⟨20, 20, .ro, .num 0, .none⟩]⟩,  -- LAN_QCAUSE
  ⟨0x208, 1, 0x0, [⟨31, 0, .ro, .num 0, .none⟩]⟩,  -- LAN_QTIME_LO
  ⟨0x20C, 1, 0x0, [⟨31, 0, .ro, .num 0, .none⟩]⟩,  -- LAN_QTIME_HI
  ⟨0x600, 1, 0x0, [⟨31, 0, .ro, .num 0, .none⟩]⟩,  -- LAN_QUENCH_CNT
  ⟨0x610, 8, 0x4, [⟨31, 0, .ro, .num 0, .none⟩]⟩,  -- LAN_DLY_CNT
  ⟨0x630, 8, 0x4, [⟨31, 0, .ro, .num 0, .none⟩]⟩,  -- LAN_DLY_MAX
  ⟨0x4000, 8, 0x200, [⟨8, 0, .rws, .num 0, .range 0 250⟩, ⟨13, 12, .rws, .num 0, .none⟩]⟩,  -- LAN_Ln_STRA
  ⟨0x4004, 8, 0x200, [⟨9, 0, .rws, .num 0, .range 0 800⟩, ⟨13, 12, .rws, .num 0, .none⟩, ⟨22, 16, .rws, .num 64, .range 16 96⟩]⟩,  -- LAN_Ln_STRB
  ⟨0x4008, 8, 0x200, [⟨15, 0, .rws, .num 0, .none⟩, ⟨16, 16, .rws, .num 0, .none⟩]⟩,  -- LAN_Ln_APC
  ⟨0x400C, 8, 0x200, [⟨7, 0, .rws, .num 50, .range 10 150⟩, ⟨15, 8, .rws, .num 200, .range 100 240⟩, ⟨23, 16, .rws, .num 50, .range 10 150⟩, ⟨31, 24, .rws, .num 200, .range 100 240⟩]⟩,  -- LAN_Ln_DIAG
  ⟨0x4010, 8, 0x200, [⟨2, 0, .ro, .num 0, .none⟩, ⟨6, 4, .ro, .num 0, .none⟩, ⟨8, 8, .ro, .num 0, .none⟩, ⟨9, 9, .ro, .num 0, .none⟩, ⟨10, 10, .ro, .num 0, .none⟩, ⟨15, 12, .ro, .num 0, .none⟩, ⟨18, 16, .ro, .num 0, .none⟩, ⟨22, 20, .ro, .num 0, .none⟩]⟩,  -- LAN_Ln_FAULT
  ⟨0x4014, 8, 0x200, [⟨15, 0, .rws, .num 65535, .none⟩]⟩,  -- LAN_Ln_CEIL
  ⟨0x4018, 8, 0x200, [⟨11, 0, .rws, .num 1563, .range 157 1953⟩, ⟨23, 16, .rws, .num 0, .none⟩]⟩,  -- LAN_Ln_PULSE
  ⟨0x4020, 8, 0x200, [⟨12, 0, .rws, .num 3125, .range 313 4096⟩]⟩,  -- LAN_Ln_CLEN0
  ⟨0x4024, 8, 0x200, [⟨12, 0, .rws, .num 3125, .range 313 4096⟩]⟩,  -- LAN_Ln_CLEN1
  ⟨0x4028, 8, 0x200, [⟨12, 0, .rws, .num 3125, .range 313 4096⟩]⟩,  -- LAN_Ln_CLEN2
  ⟨0x402C, 8, 0x200, [⟨12, 0, .rws, .num 3125, .range 313 4096⟩]⟩,  -- LAN_Ln_CLEN3
  ⟨0x4040, 8, 0x200, [⟨15, 0, .ro, .num 0, .none⟩, ⟨25, 16, .ro, .num 0, .none⟩]⟩  -- LAN_Ln_MON
  ]

/-- The registers of window 2, ORX. -/
def regsORX : List RegDef := [
  ⟨0x200, 1, 0x0, [⟨0, 0, .ro, .num 0, .none⟩]⟩,  -- ORX_STAT
  ⟨0x600, 16, 0x4, [⟨31, 0, .ro, .num 0, .none⟩]⟩,  -- ORX_CLIP_CNT
  ⟨0x640, 16, 0x4, [⟨31, 0, .ro, .num 0, .none⟩]⟩,  -- ORX_RSW_CNT
  ⟨0x680, 16, 0x4, [⟨31, 0, .ro, .num 0, .none⟩]⟩,  -- ORX_OVLD_CNT
  ⟨0x6C0, 1, 0x0, [⟨31, 0, .ro, .num 0, .none⟩]⟩,  -- ORX_CMFLT_CNT
  ⟨0x4000, 16, 0x200, [⟨1, 0, .rws, .num 0, .none⟩, ⟨3, 2, .rws, .num 0, .enum [0, 1, 2]⟩, ⟨5, 4, .rws, .num 0, .none⟩, ⟨7, 6, .rws, .num 3, .none⟩, ⟨9, 8, .rws, .num 0, .none⟩, ⟨15, 12, .rws, .num 0, .none⟩, ⟨16, 16, .rws, .num 1, .none⟩]⟩,  -- ORX_Cn_RANGE
  ⟨0x4004, 16, 0x200, [⟨6, 0, .rws, .num 90, .range 50 99⟩, ⟨13, 8, .rws, .num 20, .range 5 24⟩, ⟨19, 16, .rws, .num 2, .range 1 8⟩, ⟨31, 20, .rws, .num 64, .range 16 4095⟩]⟩,  -- ORX_Cn_HYST
  ⟨0x4008, 16, 0x200, [⟨7, 0, .rws, .num 20, .range 1 254⟩, ⟨15, 8, .rws, .num 250, .range 2 255⟩, ⟨21, 16, .rws, .num 25, .range 5 50⟩, ⟨24, 24, .rws, .num 1, .none⟩]⟩,  -- ORX_Cn_CMWIN
  ⟨0x400C, 16, 0x200, [⟨11, 0, .ro, .num 0, .none⟩, ⟨27, 16, .ro, .num 0, .none⟩]⟩,  -- ORX_Cn_CMVAL
  ⟨0x4010, 16, 0x200, [⟨1, 0, .ro, .num 0, .none⟩, ⟨2, 2, .ro, .num 0, .none⟩, ⟨3, 3, .ro, .num 0, .none⟩, ⟨4, 4, .ro, .num 0, .none⟩, ⟨5, 5, .ro, .num 0, .none⟩, ⟨6, 6, .ro, .num 0, .none⟩, ⟨7, 7, .ro, .num 0, .none⟩, ⟨8, 8, .ro, .num 0, .none⟩, ⟨15, 12, .ro, .num 0, .none⟩]⟩  -- ORX_Cn_STAT
  ]

/-- The registers of window 3, HSC. -/
def regsHSC : List RegDef := [
  ⟨0x0, 1, 0x0, [⟨0, 0, .rws, .num 1, .none⟩, ⟨1, 1, .rws, .num 1, .none⟩, ⟨2, 2, .rws, .trim, .chapter⟩]⟩,  -- HSC_CTRL
  ⟨0x4, 1, 0x0, [⟨0, 0, .rws, .num 0, .none⟩, ⟨1, 1, .rws, .num 0, .none⟩]⟩,  -- HSC_FMT
  ⟨0x8, 1, 0x0, [⟨0, 0, .wo, .num 0, .none⟩, ⟨1, 1, .wo, .num 0, .none⟩, ⟨31, 16, .wo, .num 0, .none⟩]⟩,  -- HSC_CALCMD
  ⟨0xC, 1, 0x0, [⟨31, 0, .rws, .num 97656250, .range 9765625 4294967295⟩]⟩,  -- HSC_ROT
  ⟨0x10, 1, 0x0, [⟨12, 0, .rws, .num 256, .range 16 4096⟩]⟩,  -- HSC_RAMP
  ⟨0x14, 1, 0x0, [⟨5, 0, .rws, .num 8, .range 2 32⟩]⟩,  -- HSC_CAL_DT
  ⟨0x18, 1, 0x0, [⟨1, 0, .rws, .num 2, .none⟩]⟩,  -- HSC_TONE
  ⟨0x200, 1, 0x0, [⟨0, 0, .ro, .num 0, .none⟩, ⟨1, 1, .ro, .num 0, .none⟩, ⟨2, 2, .ro, .num 0, .none⟩, ⟨3, 3, .ro, .num 0, .none⟩, ⟨4, 4, .ro, .num 0, .none⟩, ⟨15, 8, .ro, .num 0, .none⟩, ⟨31, 16, .ro, .num 0, .none⟩]⟩,  -- HSC_STAT
  ⟨0x600, 1, 0x0, [⟨31, 0, .ro, .num 0, .none⟩]⟩,  -- HSC_ROT_CNT
  ⟨0x604, 1, 0x0, [⟨31, 0, .ro, .num 0, .none⟩]⟩,  -- HSC_CAL_COUNT
  ⟨0x608, 1, 0x0, [⟨31, 0, .ro, .num 0, .none⟩]⟩,  -- HSC_CAL_TIME_S
  ⟨0x60C, 1, 0x0, [⟨31, 0, .ro, .num 0, .none⟩]⟩,  -- HSC_CAL_TIME_NS
  ⟨0x610, 16, 0x4, [⟨31, 0, .ro, .num 0, .none⟩]⟩,  -- HSC_SAT_CNT
  ⟨0x650, 1, 0x0, [⟨31, 0, .ro, .num 0, .none⟩]⟩,  -- HSC_RETIRE_CNT
  ⟨0x2000, 16, 0x4, [⟨0, 0, .rws, .num 0, .none⟩, ⟨2, 1, .rws, .num 0, .none⟩, ⟨4, 3, .rws, .num 1, .none⟩]⟩,  -- HSC_MAN_Cn
  ⟨0x4000, 16, 0x200, [⟨1, 0, .ro, .num 0, .none⟩, ⟨3, 2, .ro, .num 1, .none⟩, ⟨5, 4, .ro, .num 2, .none⟩, ⟨10, 8, .ro, .num 0, .none⟩, ⟨14, 12, .ro, .num 0, .none⟩, ⟨16, 16, .ro, .num 0, .none⟩, ⟨17, 17, .ro, .num 0, .none⟩]⟩,  -- HSC_Cn_SLICE
  ⟨0x4010, 16, 0x200, [⟨15, 0, .ro, .num 0, .none⟩, ⟨31, 16, .ro, .num 0, .none⟩]⟩,  -- HSC_Cn_CORA0
  ⟨0x4014, 16, 0x200, [⟨15, 0, .ro, .num 0, .none⟩]⟩,  -- HSC_Cn_CORB0
  ⟨0x4018, 16, 0x200, [⟨15, 0, .ro, .num 0, .none⟩, ⟨31, 16, .ro, .num 0, .none⟩]⟩,  -- HSC_Cn_CORA1
  ⟨0x401C, 16, 0x200, [⟨15, 0, .ro, .num 0, .none⟩]⟩,  -- HSC_Cn_CORB1
  ⟨0x4020, 16, 0x200, [⟨15, 0, .ro, .num 0, .none⟩, ⟨31, 16, .ro, .num 0, .none⟩]⟩,  -- HSC_Cn_CORA2
  ⟨0x4024, 16, 0x200, [⟨15, 0, .ro, .num 0, .none⟩]⟩,  -- HSC_Cn_CORB2
  ⟨0x4040, 16, 0x200, [⟨15, 0, .ro, .num 32768, .none⟩, ⟨31, 16, .ro, .num 32768, .none⟩]⟩,  -- HSC_Cn_SCALE
  ⟨0x4044, 16, 0x200, [⟨15, 0, .ro, .num 0, .none⟩, ⟨31, 16, .ro, .num 0, .none⟩]⟩,  -- HSC_Cn_TONEAMP
  ⟨0x4048, 16, 0x200, [⟨0, 0, .ro, .num 0, .none⟩, ⟨1, 1, .ro, .num 0, .none⟩, ⟨2, 2, .ro, .num 0, .none⟩, ⟨3, 3, .ro, .num 0, .none⟩, ⟨4, 4, .ro, .num 0, .none⟩, ⟨5, 5, .ro, .num 0, .none⟩, ⟨6, 6, .ro, .num 0, .none⟩]⟩,  -- HSC_Cn_STAT
  ⟨0x404C, 16, 0x200, [⟨15, 0, .ro, .num 0, .none⟩]⟩  -- HSC_Cn_SAMPLE
  ]

/-- The registers of window 4, DDC. -/
def regsDDC : List RegDef := [
  ⟨0x0, 1, 0x0, [⟨7, 0, .rws, .lanes, .laneMask⟩]⟩,  -- DDC_CTRL
  ⟨0x4, 1, 0x0, [⟨7, 0, .rws, .num 0, .laneMask⟩]⟩,  -- DDC_PHASEMODE
  ⟨0x8, 1, 0x0, [⟨7, 0, .rws, .num 0, .laneMask⟩, ⟨9, 8, .rws, .num 1, .enum [1, 2, 3]⟩, ⟨21, 16, .rws, .num 16, .range 4 63⟩]⟩,  -- DDC_MEDIAN
  ⟨0xC, 1, 0x0, [⟨2, 0, .rw, .num 0, .laneIdx⟩]⟩,  -- DDC_TBLPAGE
  ⟨0x40, 8, 0x4, [⟨7, 0, .rws, .num 128, .range 8 128⟩, ⟨15, 8, .rws, .num 128, .range 8 128⟩, ⟨23, 16, .rws, .num 128, .range 8 128⟩, ⟨31, 24, .rws, .num 128, .range 8 128⟩]⟩,  -- DDC_MFTAPSn
  ⟨0x200, 1, 0x0, [⟨15, 0, .ro, .num 0, .none⟩, ⟨23, 16, .ro, .num 0, .none⟩, ⟨24, 24, .ro, .num 0, .none⟩]⟩,  -- DDC_STAT
  ⟨0x600, 16, 0x4, [⟨31, 0, .ro, .num 0, .none⟩]⟩,  -- DDC_SAT_CNT
  ⟨0x640, 16, 0x4, [⟨31, 0, .ro, .num 0, .none⟩]⟩,  -- DDC_MED_CNT
  ⟨0x680, 1, 0x0, [⟨31, 0, .ro, .num 0, .none⟩]⟩,  -- DDC_RESTART_CNT
  ⟨0x2000, 1, 0x0, [⟨7, 0, .rws, .num 0, .laneMask⟩]⟩,  -- DDC_XSET
  ⟨0x2004, 1, 0x0, [⟨23, 0, .rws, .num 12544, .range 256 32768⟩]⟩,  -- DDC_XGDLY
  ⟨0x4000, 16, 0x400, [⟨31, 0, .rws, .num 335544320, .none⟩]⟩,  -- DDC_Cn_NCO0
  ⟨0x4004, 16, 0x400, [⟨31, 0, .rws, .num 805306368, .none⟩]⟩,  -- DDC_Cn_NCO1
  ⟨0x4008, 16, 0x400, [⟨31, 0, .rws, .num 1275068416, .none⟩]⟩,  -- DDC_Cn_NCO2
  ⟨0x400C, 16, 0x400, [⟨31, 0, .rws, .num 1744830464, .none⟩]⟩,  -- DDC_Cn_NCO3
  ⟨0x4010, 16, 0x400, [⟨23, 0, .ro, .num 45312, .none⟩]⟩,  -- DDC_Cn_GDLY0
  ⟨0x4014, 16, 0x400, [⟨23, 0, .ro, .num 45312, .none⟩]⟩,  -- DDC_Cn_GDLY1
  ⟨0x4018, 16, 0x400, [⟨23, 0, .ro, .num 45312, .none⟩]⟩,  -- DDC_Cn_GDLY2
  ⟨0x401C, 16, 0x400, [⟨23, 0, .ro, .num 45312, .none⟩]⟩,  -- DDC_Cn_GDLY3
  ⟨0x4020, 16, 0x400, [⟨31, 0, .ro, .num 0, .none⟩]⟩,  -- DDC_Cn_PHREF0
  ⟨0x4024, 16, 0x400, [⟨31, 0, .ro, .num 0, .none⟩]⟩,  -- DDC_Cn_PHREF1
  ⟨0x4028, 16, 0x400, [⟨31, 0, .ro, .num 0, .none⟩]⟩,  -- DDC_Cn_PHREF2
  ⟨0x402C, 16, 0x400, [⟨31, 0, .ro, .num 0, .none⟩]⟩,  -- DDC_Cn_PHREF3
  ⟨0x4030, 16, 0x400, [⟨3, 0, .ro, .num 0, .none⟩, ⟨7, 4, .ro, .num 0, .none⟩, ⟨9, 8, .ro, .num 0, .none⟩]⟩  -- DDC_Cn_STAT
  ]

/-- The registers of window 5, PHX. -/
def regsPHX : List RegDef := [
  ⟨0x0, 1, 0x0, [⟨0, 0, .rws, .num 0, .none⟩, ⟨7, 4, .rws, .num 10, .range 4 15⟩, ⟨11, 8, .rws, .num 8, .range 4 15⟩, ⟨14, 12, .rws, .num 2, .range 0 6⟩]⟩,  -- PHX_CTRL
  ⟨0x4, 1, 0x0, [⟨20, 0, .rws, .num 1468200, .range 1400000 1600000⟩]⟩,  -- PHX_GIDX
  ⟨0x8, 1, 0x0, [⟨5, 0, .rws, .num 2, .range 1 32⟩]⟩,  -- PHX_GAUGE
  ⟨0xC, 1, 0x0, [⟨23, 0, .rws, .num 4096, .none⟩]⟩,  -- PHX_FADE_TH
  ⟨0x10, 1, 0x0, [⟨13, 0, .rws, .num 2048, .step 512 8192 512⟩]⟩,  -- PHX_BLOCK
  ⟨0x14, 1, 0x0, [⟨23, 0, .rws, .num 5734400, .chapter⟩]⟩,  -- PHX_TCOEF
  ⟨0x18, 1, 0x0, [⟨19, 0, .rws, .num 0, .none⟩]⟩,  -- PHX_TILEBASE
  ⟨0x1C, 1, 0x0, [⟨19, 0, .rws, .num 3072, .none⟩]⟩,  -- PHX_TEMPBASE
  ⟨0x200, 1, 0x0, [⟨7, 0, .ro, .num 0, .none⟩, ⟨15, 8, .ro, .num 0, .none⟩, ⟨23, 16, .ro, .num 0, .none⟩]⟩,  -- PHX_STAT
  ⟨0x600, 8, 0x4, [⟨31, 0, .ro, .num 0, .none⟩]⟩,  -- PHX_FILL_CNT
  ⟨0x620, 8, 0x4, [⟨31, 0, .ro, .num 0, .none⟩]⟩,  -- PHX_INV_CNT
  ⟨0x640, 8, 0x4, [⟨31, 0, .ro, .num 0, .none⟩]⟩,  -- PHX_REREF_CNT
  ⟨0x660, 8, 0x4, [⟨31, 0, .ro, .num 0, .none⟩]⟩,  -- PHX_OVR_CNT
  ⟨0x680, 8, 0x4, [⟨31, 0, .ro, .num 0, .none⟩]⟩,  -- PHX_BLK_CNT
  ⟨0x6A0, 1, 0x0, [⟨31, 0, .ro, .num 0, .none⟩]⟩,  -- PHX_ECC_CNT
  ⟨0x4000, 8, 0x200, [⟨3, 0, .rws, .num 0, .none⟩, ⟨4, 4, .rws, .num 0, .none⟩, ⟨5, 5, .rws, .num 0, .none⟩]⟩,  -- PHX_Ln_REFCH
  ⟨0x4004, 8, 0x200, [⟨15, 0, .ro, .num 0, .none⟩, ⟨16, 16, .ro, .num 0, .none⟩, ⟨17, 17, .ro, .num 0, .none⟩, ⟨18, 18, .ro, .num 0, .none⟩, ⟨19, 19, .ro, .num 0, .none⟩]⟩,  -- PHX_Ln_BREAK
  ⟨0x4008, 8, 0x200, [⟨15, 0, .rws, .num 0, .none⟩, ⟨31, 16, .rws, .num 0, .chapter⟩]⟩,  -- PHX_Ln_COIL
  ⟨0x400C, 8, 0x200, [⟨13, 0, .ro, .num 0, .none⟩, ⟨31, 16, .ro, .num 0, .none⟩]⟩,  -- PHX_Ln_BLKPOS
  ⟨0x4010, 8, 0x200, [⟨0, 0, .ro, .num 1, .none⟩, ⟨1, 1, .ro, .num 0, .none⟩, ⟨2, 2, .ro, .num 1, .none⟩, ⟨3, 3, .ro, .num 0, .none⟩, ⟨4, 4, .ro, .num 0, .none⟩, ⟨5, 5, .ro, .num 0, .none⟩, ⟨6, 6, .ro, .num 0, .none⟩, ⟨7, 7, .ro, .num 0, .none⟩, ⟨8, 8, .ro, .num 0, .none⟩, ⟨31, 24, .ro, .num 0, .none⟩]⟩,  -- PHX_Ln_STAT
  ⟨0x4014, 8, 0x200, [⟨15, 0, .rws, .num 0, .none⟩, ⟨16, 16, .rws, .num 0, .none⟩]⟩,  -- PHX_Ln_ENDREF
  ⟨0x4018, 8, 0x200, [⟨23, 0, .ro, .num 0, .none⟩]⟩,  -- PHX_Ln_FLOOR
  ⟨0x401C, 8, 0x200, [⟨23, 0, .ro, .num 0, .none⟩]⟩,  -- PHX_Ln_BRKDIST
  ⟨0x4020, 8, 0x200, [⟨31, 0, .ro, .num 0, .none⟩]⟩,  -- PHX_Ln_TANCH
  ⟨0x4024, 8, 0x200, [⟨31, 0, .ro, .num 0, .none⟩]⟩  -- PHX_Ln_DRIFT
  ]

/-- The registers of window 6, WCK. -/
def regsWCK : List RegDef := [
  ⟨0x0, 1, 0x0, [⟨7, 0, .rw, .num 0, .chapter⟩, ⟨15, 8, .wo, .num 0, .none⟩]⟩,  -- WCK_CTRL
  ⟨0x4, 1, 0x0, [⟨23, 0, .rw, .num 12288, .range 1 16777215⟩]⟩,  -- WCK_SYNC
  ⟨0x8, 1, 0x0, [⟨19, 0, .rws, .num 3088, .none⟩]⟩,  -- WCK_CAPBASE
  ⟨0x200, 1, 0x0, [⟨7, 0, .ro, .num 0, .none⟩, ⟨15, 8, .ro, .num 0, .none⟩]⟩,  -- WCK_STAT
  ⟨0x600, 8, 0x4, [⟨31, 0, .ro, .num 0, .none⟩]⟩,  -- WCK_LAUNCH_CNT
  ⟨0x620, 8, 0x4, [⟨31, 0, .ro, .num 0, .none⟩]⟩,  -- WCK_SUPP_CNT
  ⟨0x640, 8, 0x4, [⟨31, 0, .ro, .num 0, .none⟩]⟩,  -- WCK_STALL_CNT
  ⟨0x660, 8, 0x4, [⟨31, 0, .ro, .num 0, .none⟩]⟩,  -- WCK_TRIG_CNT
  ⟨0x4000, 8, 0x200, [⟨15, 0, .rws, .num 49152, .step 1024 49152 1024⟩]⟩,  -- WCK_Ln_FRAME
  ⟨0x4004, 8, 0x200, [⟨2, 0, .rws, .num 4, .range 1 4⟩]⟩,  -- WCK_Ln_PROBES
  ⟨0x4008, 8, 0x200, [⟨9, 0, .rw, .num 0, .chapter⟩]⟩,  -- WCK_Ln_PC
  ⟨0x400C, 8, 0x200, [⟨3, 0, .rws, .num 0, .enum [0, 1, 2, 3, 4, 5, 6, 7, 8, 9]⟩, ⟨4, 4, .rw, .num 0, .none⟩, ⟨30, 16, .rws, .num 1, .range 1 16384⟩]⟩,  -- WCK_Ln_CAP
  ⟨0x4010, 8, 0x200, [⟨1, 0, .ro, .num 0, .none⟩, ⟨5, 4, .ro, .num 0, .none⟩, ⟨10, 8, .ro, .num 0, .none⟩, ⟨12, 12, .ro, .num 0, .none⟩, ⟨13, 13, .ro, .num 0, .none⟩, ⟨14, 14, .ro, .num 0, .none⟩]⟩,  -- WCK_Ln_STAT
  ⟨0x4014, 8, 0x200, [⟨23, 0, .ro, .num 0, .none⟩, ⟨25, 24, .ro, .num 0, .none⟩, ⟨26, 26, .ro, .num 0, .none⟩]⟩  -- WCK_Ln_LASTDLY
  ]

/-- The registers of window 7, ANV. -/
def regsANV : List RegDef := [
  ⟨0x0, 1, 0x0, [⟨7, 0, .rws, .num 0, .none⟩]⟩,  -- ANV_CTRL
  ⟨0x4, 1, 0x0, [⟨19, 0, .rws, .num 3808, .none⟩]⟩,  -- ANV_TACHBASE
  ⟨0x8, 1, 0x0, [⟨19, 0, .rws, .num 3712, .none⟩]⟩,  -- ANV_CKBASE
  ⟨0x200, 1, 0x0, [⟨7, 0, .ro, .num 0, .none⟩, ⟨15, 8, .ro, .lanes, .none⟩, ⟨23, 16, .ro, .num 0, .none⟩]⟩,  -- ANV_STAT
  ⟨0x600, 8, 0x4, [⟨31, 0, .ro, .num 0, .none⟩]⟩,  -- ANV_BUSY_CNT
  ⟨0x620, 8, 0x4, [⟨31, 0, .ro, .num 0, .none⟩]⟩,  -- ANV_STALL_CNT
  ⟨0x640, 8, 0x4, [⟨31, 0, .ro, .num 0, .none⟩]⟩,  -- ANV_RECL_CNT
  ⟨0x660, 8, 0x4, [⟨31, 0, .ro, .num 0, .none⟩]⟩,  -- ANV_TEDGE_CNT
  ⟨0x680, 1, 0x0, [⟨31, 0, .ro, .num 0, .none⟩]⟩,  -- ANV_ECC_CNT
  ⟨0x4000, 8, 0x400, [⟨0, 0, .rw, .num 0, .chapter⟩, ⟨1, 1, .wo, .num 0, .none⟩, ⟨2, 2, .wo, .num 0, .none⟩, ⟨3, 3, .wo, .num 0, .none⟩]⟩,  -- ANV_En_CTRL
  ⟨0x4004, 8, 0x400, [⟨12, 0, .rw, .num 0, .chapter⟩]⟩,  -- ANV_En_PC
  ⟨0x4008, 8, 0x400, [⟨0, 0, .w1c, .num 0, .none⟩, ⟨1, 1, .w1c, .num 0, .none⟩, ⟨2, 2, .w1c, .num 0, .none⟩, ⟨3, 3, .w1c, .num 0, .none⟩, ⟨8, 8, .ro, .num 0, .none⟩]⟩,  -- ANV_En_ASTAT
  ⟨0x400C, 8, 0x400, [⟨15, 0, .ro, .num 0, .none⟩, ⟨19, 16, .ro, .num 0, .none⟩, ⟨21, 20, .ro, .num 0, .none⟩, ⟨23, 23, .ro, .num 0, .none⟩, ⟨31, 31, .ro, .num 0, .none⟩]⟩,  -- ANV_En_AOVIDX
  ⟨0x4010, 8, 0x400, [⟨3, 0, .ro, .num 15, .none⟩, ⟨5, 4, .ro, .num 2, .none⟩, ⟨9, 8, .ro, .num 0, .none⟩, ⟨23, 16, .ro, .num 0, .none⟩]⟩,  -- ANV_En_BEXP
  ⟨0x4014, 8, 0x400, [⟨16, 0, .ro, .num 0, .none⟩]⟩,  -- ANV_En_LOOPCNT
  ⟨0x4018, 8, 0x400, [⟨2, 0, .rws, .perUnit 1, .laneOwn⟩, ⟨3, 3, .rws, .num 1, .none⟩, ⟨4, 4, .rws, .num 0, .none⟩]⟩,  -- ANV_En_BIND
  ⟨0x401C, 8, 0x400, [⟨1, 0, .ro, .num 0, .none⟩, ⟨7, 4, .ro, .num 0, .none⟩]⟩,  -- ANV_En_STAT
  ⟨0x4020, 8, 0x400, [⟨12, 0, .ro, .num 0, .none⟩]⟩,  -- ANV_En_ERRPC
  ⟨0x4024, 8, 0x400, [⟨7, 0, .ro, .num 0, .none⟩]⟩,  -- ANV_En_EVT
  ⟨0x4028, 8, 0x400, [⟨31, 0, .ro, .num 4294967295, .none⟩]⟩,  -- ANV_En_CKBLK
  ⟨0x402C, 8, 0x400, [⟨13, 0, .ro, .num 0, .none⟩, ⟨31, 16, .ro, .num 0, .none⟩]⟩,  -- ANV_En_POS
  ⟨0x4040, 8, 0x400, [⟨7, 0, .ro, .num 0, .none⟩, ⟨31, 16, .ro, .num 0, .none⟩]⟩,  -- ANV_En_DMA0
  ⟨0x4044, 8, 0x400, [⟨7, 0, .ro, .num 0, .none⟩, ⟨31, 16, .ro, .num 0, .none⟩]⟩,  -- ANV_En_DMA1
  ⟨0x4048, 8, 0x400, [⟨7, 0, .ro, .num 0, .none⟩, ⟨31, 16, .ro, .num 0, .none⟩]⟩,  -- ANV_En_DMA2
  ⟨0x404C, 8, 0x400, [⟨7, 0, .ro, .num 0, .none⟩, ⟨31, 16, .ro, .num 0, .none⟩]⟩,  -- ANV_En_DMA3
  ⟨0x6000, 8, 0x40, [⟨7, 0, .rws, .num 32, .range 1 255⟩, ⟨8, 8, .rws, .num 0, .none⟩, ⟨26, 16, .rws, .num 1, .range 1 1024⟩]⟩,  -- ANV_Tt_CFG
  ⟨0x6004, 8, 0x40, [⟨11, 0, .rws, .num 1490, .range 1 4095⟩]⟩,  -- ANV_Tt_TMO
  ⟨0x6008, 8, 0x40, [⟨31, 0, .ro, .num 0, .none⟩]⟩,  -- ANV_Tt_SPEED
  ⟨0x600C, 8, 0x40, [⟨0, 0, .ro, .num 1, .none⟩, ⟨1, 1, .ro, .num 0, .none⟩, ⟨2, 2, .ro, .num 0, .none⟩]⟩,  -- ANV_Tt_STAT
  ⟨0x6010, 8, 0x40, [⟨31, 0, .ro, .num 0, .none⟩]⟩,  -- ANV_Tt_WIDX
  ⟨0x6014, 8, 0x40, [⟨31, 0, .ro, .num 0, .none⟩]⟩,  -- ANV_Tt_LAST_LO
  ⟨0x6018, 8, 0x40, [⟨31, 0, .ro, .num 0, .none⟩]⟩  -- ANV_Tt_LAST_HI
  ]

/-- The registers of window 8, AUX. -/
def regsAUX : List RegDef := [
  ⟨0x0, 1, 0x0, [⟨0, 0, .rws, .num 0, .none⟩]⟩,  -- AUX_CTRL
  ⟨0x4, 1, 0x0, [⟨0, 0, .rws, .num 0, .none⟩]⟩,  -- AUX_REFBUF
  ⟨0x8, 1, 0x0, [⟨1, 0, .rws, .num 0, .enum [0, 1, 2]⟩, ⟨2, 2, .rws, .num 0, .none⟩, ⟨3, 3, .rws, .num 0, .none⟩]⟩,  -- AUX_MAINS
  ⟨0xC, 1, 0x0, [⟨5, 0, .rws, .num 1, .range 1 32⟩, ⟨8, 8, .rws, .num 0, .none⟩, ⟨9, 9, .rws, .num 1, .none⟩, ⟨19, 16, .rws, .num 1, .none⟩]⟩,  -- AUX_SEQ
  ⟨0x10, 1, 0x0, [⟨4, 0, .wo, .num 0, .none⟩, ⟨16, 16, .wo, .num 0, .none⟩]⟩,  -- AUX_INJ
  ⟨0x14, 1, 0x0, [⟨0, 0, .wo, .num 0, .none⟩]⟩,  -- AUX_CALCMD
  ⟨0x18, 1, 0x0, [⟨5, 0, .rws, .num 4, .range 1 32⟩, ⟨8, 8, .rws, .num 1, .none⟩]⟩,  -- AUX_CAL_DT
  ⟨0x1C, 1, 0x0, [⟨0, 0, .rws, .num 0, .none⟩]⟩,  -- AUX_FMT
  ⟨0x20, 1, 0x0, [⟨21, 0, .rws, .num 2500000, .range 2450000 2550000⟩]⟩,  -- AUX_VREFX_UV
  ⟨0x24, 1, 0x0, [⟨19, 0, .rws, .num 1000000, .range 990000 1010000⟩]⟩,  -- AUX_RREFX_MOHM
  ⟨0x28, 1, 0x0, [⟨11, 0, .rws, .num 512, .range 1 4095⟩]⟩,  -- AUX_STALE
  ⟨0x200, 1, 0x0, [⟨0, 0, .ro, .num 0, .none⟩, ⟨1, 1, .ro, .num 0, .none⟩, ⟨2, 2, .ro, .num 0, .none⟩, ⟨3, 3, .ro, .num 0, .none⟩, ⟨4, 4, .ro, .num 0, .none⟩, ⟨5, 5, .ro, .num 0, .none⟩, ⟨6, 6, .ro, .num 0, .none⟩, ⟨12, 8, .ro, .num 0, .none⟩, ⟨20, 16, .ro, .num 31, .none⟩, ⟨31, 24, .ro, .num 0, .none⟩]⟩,  -- AUX_STAT
  ⟨0x204, 1, 0x0, [⟨1, 0, .ro, .num 0, .none⟩, ⟨7, 4, .ro, .num 0, .none⟩, ⟨13, 12, .ro, .num 0, .none⟩, ⟨16, 16, .ro, .num 1, .none⟩]⟩,  -- AUX_CAL_STAT
  ⟨0x208, 1, 0x0, [⟨31, 0, .ro, .num 0, .none⟩]⟩,  -- AUX_INJ_RESULT
  ⟨0x20C, 1, 0x0, [⟨31, 0, .ro, .num 0, .none⟩]⟩,  -- AUX_INJ_TAG
  ⟨0x210, 1, 0x0, [⟨23, 0, .ro, .num 0, .none⟩]⟩,  -- AUX_ITONE
  ⟨0x214, 1, 0x0, [⟨31, 0, .ro, .num 0, .none⟩]⟩,  -- AUX_ITONE_TAG
  ⟨0x218, 1, 0x0, [⟨23, 0, .ro, .num 0, .none⟩]⟩,  -- AUX_LINEPER
  ⟨0x600, 1, 0x0, [⟨31, 0, .ro, .num 0, .none⟩]⟩,  -- AUX_CAL_COUNT
  ⟨0x604, 1, 0x0, [⟨31, 0, .ro, .num 0, .none⟩]⟩,  -- AUX_CAL_TIME_S
  ⟨0x608, 1, 0x0, [⟨31, 0, .ro, .num 0, .none⟩]⟩,  -- AUX_CAL_TIME_NS
  ⟨0x60C, 1, 0x0, [⟨31, 0, .ro, .num 0, .none⟩]⟩,  -- AUX_WIN_CNT
  ⟨0x610, 1, 0x0, [⟨31, 0, .ro, .num 0, .none⟩]⟩,  -- AUX_ABORT_CNT
  ⟨0x614, 1, 0x0, [⟨31, 0, .ro, .num 0, .none⟩]⟩,  -- AUX_INJ_CNT
  ⟨0x618, 1, 0x0, [⟨31, 0, .ro, .num 0, .none⟩]⟩,  -- AUX_LFLT_CNT
  ⟨0x2000, 1, 0x0, [⟨0, 0, .rws, .num 0, .none⟩]⟩,  -- AUX_XREF
  ⟨0x4000, 16, 0x200, [⟨2, 0, .rws, .num 0, .enum [0, 1, 2, 3, 4]⟩, ⟨5, 4, .rws, .num 0, .none⟩, ⟨9, 8, .rws, .num 1, .none⟩, ⟨19, 12, .rws, .num 100, .range 0 250⟩, ⟨25, 20, .rws, .num 4, .range 1 63⟩, ⟨26, 26, .rws, .num 1, .none⟩, ⟨27, 27, .rws, .num 1, .none⟩, ⟨28, 28, .rws, .num 1, .none⟩]⟩,  -- AUX_Cn_CFG
  ⟨0x4004, 16, 0x200, [⟨7, 0, .rws, .num 50, .range 5 200⟩]⟩,  -- AUX_Cn_MUX
  ⟨0x4008, 16, 0x200, [⟨8, 0, .rws, .num 40, .range 0 329⟩, ⟨24, 16, .rws, .num 290, .range 0 330⟩, ⟨31, 25, .rws, .num 50, .range 10 90⟩]⟩,  -- AUX_Cn_CMWIN
  ⟨0x400C, 16, 0x200, [⟨31, 0, .ro, .num 0, .none⟩]⟩,  -- AUX_Cn_RESULT
  ⟨0x4010, 16, 0x200, [⟨31, 0, .ro, .num 0, .none⟩]⟩,  -- AUX_Cn_TAG
  ⟨0x4014, 16, 0x200, [⟨0, 0, .ro, .num 0, .none⟩, ⟨1, 1, .ro, .num 0, .none⟩, ⟨2, 2, .ro, .num 0, .none⟩, ⟨3, 3, .ro, .num 0, .none⟩, ⟨15, 8, .ro, .num 0, .none⟩]⟩  -- AUX_Cn_FAULT
  ]

/-- The registers of window 9, MEM. -/
def regsMEM : List RegDef := [
  ⟨0x0, 1, 0x0, [⟨1, 0, .rws, .num 2, .enum [0, 1, 2]⟩, ⟨4, 4, .rws, .num 1, .none⟩, ⟨15, 8, .rws, .num 80, .range 60 100⟩]⟩,  -- MEM_CTRL
  ⟨0x4, 1, 0x0, [⟨0, 0, .rws, .num 0, .memLocked⟩, ⟨1, 1, .rws, .num 0, .memLocked⟩, ⟨2, 2, .rws, .num 0, .memLocked⟩, ⟨13, 8, .ro, .num 34, .none⟩]⟩,  -- MEM_GEOM
  ⟨0x10, 1, 0x0, [⟨28, 0, .rws, .num 17318401, .memLocked⟩]⟩,  -- MEM_XMAP_CH
  ⟨0x14, 1, 0x0, [⟨28, 0, .rws, .num 34636802, .memLocked⟩]⟩,  -- MEM_XMAP_BG0
  ⟨0x18, 1, 0x0, [⟨28, 0, .rws, .num 277094416, .memLocked⟩]⟩,  -- MEM_XMAP_BG1
  ⟨0x1C, 1, 0x0, [⟨28, 0, .rws, .num 69273604, .memLocked⟩]⟩,  -- MEM_XMAP_BA0
  ⟨0x20, 1, 0x0, [⟨28, 0, .rws, .num 138547208, .memLocked⟩]⟩,  -- MEM_XMAP_BA1
  ⟨0x30, 1, 0x0, [⟨15, 0, .rws, .num 4096, .range 256 65535⟩]⟩,  -- MEM_AGE_LIMIT
  ⟨0x34, 1, 0x0, [⟨0, 0, .rws, .num 1, .none⟩, ⟨31, 16, .rws, .num 1024, .range 16 65535⟩]⟩,  -- MEM_SR_CTRL
  ⟨0x38, 1, 0x0, [⟨15, 0, .rws, .num 256, .range 16 65535⟩]⟩,  -- MEM_BWIN
  ⟨0x3C, 1, 0x0, [⟨3, 0, .rws, .num 2, .range 1 15⟩, ⟨11, 8, .rws, .num 8, .range 2 15⟩]⟩,  -- MEM_MAINT
  ⟨0x40, 1, 0x0, [⟨15, 0, .rws, .num 480, .range 10 65535⟩]⟩,  -- MEM_SCRUB
  ⟨0x200, 1, 0x0, [⟨0, 0, .ro, .num 0, .none⟩, ⟨2, 1, .ro, .num 0, .none⟩, ⟨4, 3, .ro, .num 0, .none⟩, ⟨5, 5, .ro, .num 0, .none⟩, ⟨6, 6, .ro, .num 0, .none⟩, ⟨15, 8, .ro, .num 0, .none⟩]⟩,  -- MEM_STAT
  ⟨0x204, 1, 0x0, [⟨31, 0, .ro, .num 0, .none⟩]⟩,  -- MEM_UE_ADDR_LO
  ⟨0x208, 1, 0x0, [⟨2, 0, .ro, .num 0, .none⟩]⟩,  -- MEM_UE_ADDR_HI
  ⟨0x600, 1, 0x0, [⟨31, 0, .ro, .num 0, .none⟩]⟩,  -- MEM_CE_CNT
  ⟨0x604, 1, 0x0, [⟨31, 0, .ro, .num 0, .none⟩]⟩,  -- MEM_UE_CNT
  ⟨0x608, 1, 0x0, [⟨31, 0, .ro, .num 0, .none⟩]⟩,  -- MEM_SRABORT_CNT
  ⟨0x60C, 1, 0x0, [⟨31, 0, .ro, .num 0, .none⟩]⟩,  -- MEM_SRWAKE_CNT
  ⟨0x610, 1, 0x0, [⟨31, 0, .ro, .num 0, .none⟩]⟩,  -- MEM_RETRAIN_CNT
  ⟨0x614, 1, 0x0, [⟨31, 0, .ro, .num 0, .none⟩]⟩,  -- MEM_SCRUB_PASS_CNT
  ⟨0x640, 12, 0x4, [⟨31, 0, .ro, .num 0, .none⟩]⟩,  -- MEM_BURST_CNT
  ⟨0x680, 12, 0x4, [⟨31, 0, .ro, .num 0, .none⟩]⟩,  -- MEM_MISS_CNT
  ⟨0x4000, 12, 0x100, [⟨1, 0, .rws, .listed [0, 1, 1, 1, 0, 2, 1, 2, 1, 2, 1, 3], .none⟩, ⟨5, 4, .rws, .listed [0, 1, 0, 0, 1, 1, 2, 1, 1, 2, 1, 2], .enum [0, 1, 2]⟩]⟩,  -- MEM_Pp_CLASS
  ⟨0x4004, 12, 0x100, [⟨15, 0, .rws, .listed [1024, 2048, 2048, 2048, 1024, 4096, 1024, 4096, 2048, 4096, 2048, 16384], .range 64 65535⟩]⟩,  -- MEM_Pp_TARGET
  ⟨0x4008, 12, 0x100, [⟨15, 0, .rws, .num 0, .none⟩]⟩,  -- MEM_Pp_BUDGET
  ⟨0x4010, 12, 0x100, [⟨1, 0, .ro, .num 0, .none⟩, ⟨2, 2, .ro, .num 0, .none⟩, ⟨3, 3, .ro, .num 0, .none⟩, ⟨15, 8, .ro, .num 0, .none⟩, ⟨31, 16, .ro, .num 0, .none⟩]⟩,  -- MEM_Pp_STAT
  ⟨0x6000, 2, 0x100, [⟨0, 0, .ro, .num 0, .none⟩, ⟨1, 1, .ro, .num 0, .none⟩, ⟨7, 4, .ro, .num 0, .none⟩, ⟨15, 8, .ro, .num 0, .none⟩, ⟨23, 16, .ro, .num 0, .none⟩]⟩  -- MEM_CHc_STAT
  ]

/-- The registers of window 10, QUE. -/
def regsQUE : List RegDef := [
  ⟨0x0, 1, 0x0, [⟨0, 0, .rws, .num 0, .none⟩]⟩,  -- QUE_CTRL
  ⟨0x4, 1, 0x0, [⟨19, 0, .rws, .num 3600, .none⟩]⟩,  -- QUE_JOURNAL_BASE
  ⟨0x8, 1, 0x0, [⟨19, 0, .rws, .num 2000, .range 100 1000000⟩]⟩,  -- QUE_MST_RTO
  ⟨0xC, 1, 0x0, [⟨15, 0, .rws, .num 100, .range 1 65535⟩]⟩,  -- QUE_MST_FLUSH
  ⟨0x200, 1, 0x0, [⟨0, 0, .ro, .num 0, .none⟩, ⟨1, 1, .ro, .num 0, .none⟩]⟩,  -- QUE_STAT
  ⟨0x600, 64, 0x4, [⟨31, 0, .ro, .num 0, .none⟩]⟩,  -- QUE_ACC_CNT
  ⟨0x700, 1, 0x0, [⟨31, 0, .ro, .num 0, .none⟩]⟩,  -- QUE_CRC_CNT
  ⟨0x704, 1, 0x0, [⟨31, 0, .ro, .num 0, .none⟩]⟩,  -- QUE_QFULL_CNT
  ⟨0x708, 1, 0x0, [⟨31, 0, .ro, .num 0, .none⟩]⟩,  -- QUE_DUP_CNT
  ⟨0x70C, 1, 0x0, [⟨31, 0, .ro, .num 0, .none⟩]⟩,  -- QUE_REPLAY_CNT
  ⟨0x710, 1, 0x0, [⟨31, 0, .ro, .num 0, .none⟩]⟩,  -- QUE_DROP_CNT
  ⟨0x714, 1, 0x0, [⟨31, 0, .ro, .num 0, .none⟩]⟩,  -- QUE_RETX_CNT
  ⟨0x718, 1, 0x0, [⟨31, 0, .ro, .num 0, .none⟩]⟩,  -- QUE_UNMIR_CNT
  ⟨0x71C, 1, 0x0, [⟨31, 0, .ro, .num 0, .none⟩]⟩,  -- QUE_NOTPERM_CNT
  ⟨0x4000, 64, 0x100, [⟨14, 0, .rws, .perUnit 512, .none⟩]⟩,  -- QUE_Qq_BASE
  ⟨0x4004, 64, 0x100, [⟨10, 0, .rws, .num 512, .pow2 16 1024⟩]⟩,  -- QUE_Qq_SIZE
  ⟨0x4008, 64, 0x100, [⟨10, 0, .rws, .num 512, .chapter⟩]⟩,  -- QUE_Qq_QUOTA
  ⟨0x400C, 64, 0x100, [⟨9, 0, .ro, .num 0, .none⟩]⟩,  -- QUE_Qq_HEAD
  ⟨0x4010, 64, 0x100, [⟨9, 0, .ro, .num 0, .none⟩]⟩,  -- QUE_Qq_TAIL
  ⟨0x4014, 64, 0x100, [⟨0, 0, .wo, .num 0, .none⟩]⟩,  -- QUE_Qq_DOORBELL
  ⟨0x4018, 64, 0x100, [⟨30, 0, .ro, .num 0, .none⟩]⟩,  -- QUE_Qq_ACC_SEQ
  ⟨0x401C, 64, 0x100, [⟨10, 0, .ro, .num 0, .none⟩, ⟨14, 12, .ro, .num 0, .none⟩, ⟨16, 16, .ro, .num 0, .none⟩, ⟨17, 17, .ro, .num 0, .none⟩, ⟨18, 18, .ro, .num 0, .none⟩, ⟨19, 19, .ro, .num 0, .none⟩, ⟨20, 20, .ro, .num 0, .none⟩, ⟨21, 21, .ro, .num 0, .none⟩]⟩,  -- QUE_Qq_STAT
  ⟨0x4020, 64, 0x100, [⟨1, 0, .rws, .listed [2,2,2,2,2,2,2,2,1,1,1,1,1,1,1,1,1,1,1,1,1,1,1,1,3,3,3,3,3,3,3,3,0,0,0,0,0,0,0,0,0,0,0,0,0,0,0,0,1,1,1,1,1,1,1,1,3,3,3,3,1,1,1,3], .chapter⟩, ⟨2, 2, .rws, .num 1, .none⟩, ⟨14, 8, .rws, .num 4, .range 4 88⟩, ⟨31, 16, .rws, .perUnit 1, .chapter⟩]⟩,  -- QUE_Qq_CFG
  ⟨0x4024, 64, 0x100, [⟨30, 0, .ro, .num 0, .none⟩]⟩,  -- QUE_Qq_CMP_SEQ
  ⟨0x4028, 64, 0x100, [⟨30, 0, .ro, .num 0, .none⟩]⟩,  -- QUE_Qq_TAKEN_SEQ
  ⟨0x402C, 64, 0x100, [⟨30, 0, .wo, .num 0, .none⟩]⟩,  -- QUE_Qq_DONE
  ⟨0x4030, 64, 0x100, [⟨30, 0, .ro, .num 0, .none⟩]⟩,  -- QUE_Qq_DUPSEQ
  ⟨0x4040, 64, 0x100, [⟨31, 0, .wo, .num 0, .none⟩]⟩,  -- QUE_Qq_SUB0
  ⟨0x4044, 64, 0x100, [⟨31, 0, .wo, .num 0, .none⟩]⟩,  -- QUE_Qq_SUB1
  ⟨0x4048, 64, 0x100, [⟨31, 0, .wo, .num 0, .none⟩]⟩,  -- QUE_Qq_SUB2
  ⟨0x404C, 64, 0x100, [⟨31, 0, .wo, .num 0, .none⟩]⟩,  -- QUE_Qq_SUB3
  ⟨0x4050, 64, 0x100, [⟨31, 0, .wo, .num 0, .none⟩]⟩,  -- QUE_Qq_SUB4
  ⟨0x4054, 64, 0x100, [⟨31, 0, .wo, .num 0, .none⟩]⟩,  -- QUE_Qq_SUB5
  ⟨0x4058, 64, 0x100, [⟨31, 0, .wo, .num 0, .none⟩]⟩,  -- QUE_Qq_SUB6
  ⟨0x405C, 64, 0x100, [⟨31, 0, .wo, .num 0, .none⟩]⟩,  -- QUE_Qq_SUB7
  ⟨0x4060, 64, 0x100, [⟨31, 0, .wo, .num 0, .none⟩]⟩,  -- QUE_Qq_SUB8
  ⟨0x4064, 64, 0x100, [⟨31, 0, .wo, .num 0, .none⟩]⟩,  -- QUE_Qq_SUB9
  ⟨0x4068, 64, 0x100, [⟨31, 0, .wo, .num 0, .none⟩]⟩,  -- QUE_Qq_SUB10
  ⟨0x406C, 64, 0x100, [⟨31, 0, .wo, .num 0, .none⟩]⟩,  -- QUE_Qq_SUB11
  ⟨0x4070, 64, 0x100, [⟨31, 0, .wo, .num 0, .none⟩]⟩,  -- QUE_Qq_SUB12
  ⟨0x4074, 64, 0x100, [⟨31, 0, .wo, .num 0, .none⟩]⟩,  -- QUE_Qq_SUB13
  ⟨0x4078, 64, 0x100, [⟨31, 0, .wo, .num 0, .none⟩]⟩,  -- QUE_Qq_SUB14
  ⟨0x407C, 64, 0x100, [⟨31, 0, .wo, .num 0, .none⟩]⟩,  -- QUE_Qq_SUB15
  ⟨0x4080, 64, 0x100, [⟨31, 0, .ro, .num 0, .none⟩]⟩,  -- QUE_Qq_RD0
  ⟨0x4084, 64, 0x100, [⟨31, 0, .ro, .num 0, .none⟩]⟩,  -- QUE_Qq_RD1
  ⟨0x4088, 64, 0x100, [⟨31, 0, .ro, .num 0, .none⟩]⟩,  -- QUE_Qq_RD2
  ⟨0x408C, 64, 0x100, [⟨31, 0, .ro, .num 0, .none⟩]⟩,  -- QUE_Qq_RD3
  ⟨0x4090, 64, 0x100, [⟨31, 0, .ro, .num 0, .none⟩]⟩,  -- QUE_Qq_RD4
  ⟨0x4094, 64, 0x100, [⟨31, 0, .ro, .num 0, .none⟩]⟩,  -- QUE_Qq_RD5
  ⟨0x4098, 64, 0x100, [⟨31, 0, .ro, .num 0, .none⟩]⟩,  -- QUE_Qq_RD6
  ⟨0x409C, 64, 0x100, [⟨31, 0, .ro, .num 0, .none⟩]⟩,  -- QUE_Qq_RD7
  ⟨0x40A0, 64, 0x100, [⟨31, 0, .ro, .num 0, .none⟩]⟩,  -- QUE_Qq_RD8
  ⟨0x40A4, 64, 0x100, [⟨31, 0, .ro, .num 0, .none⟩]⟩,  -- QUE_Qq_RD9
  ⟨0x40A8, 64, 0x100, [⟨31, 0, .ro, .num 0, .none⟩]⟩,  -- QUE_Qq_RD10
  ⟨0x40AC, 64, 0x100, [⟨31, 0, .ro, .num 0, .none⟩]⟩,  -- QUE_Qq_RD11
  ⟨0x40B0, 64, 0x100, [⟨31, 0, .ro, .num 0, .none⟩]⟩,  -- QUE_Qq_RD12
  ⟨0x40B4, 64, 0x100, [⟨31, 0, .ro, .num 0, .none⟩]⟩,  -- QUE_Qq_RD13
  ⟨0x40B8, 64, 0x100, [⟨31, 0, .ro, .num 0, .none⟩]⟩,  -- QUE_Qq_RD14
  ⟨0x40BC, 64, 0x100, [⟨31, 0, .ro, .num 0, .none⟩]⟩  -- QUE_Qq_RD15
  ]

/-- The registers of window 11, CRU. -/
def regsCRU : List RegDef := [
  ⟨0x0, 1, 0x0, [⟨0, 0, .rws, .num 1, .legacyZero⟩]⟩,  -- CRU_CTRL
  ⟨0x4, 1, 0x0, [⟨3, 0, .rws, .num 6, .range 0 9⟩]⟩,  -- CRU_LEVEL
  ⟨0x8, 1, 0x0, [⟨19, 0, .rws, .num 3616, .none⟩]⟩,  -- CRU_CTXBASE
  ⟨0x200, 1, 0x0, [⟨0, 0, .ro, .num 0, .none⟩, ⟨1, 1, .ro, .num 0, .none⟩, ⟨6, 4, .ro, .num 0, .none⟩, ⟨10, 8, .ro, .num 0, .none⟩, ⟨16, 16, .ro, .num 0, .none⟩]⟩,  -- CRU_STAT
  ⟨0x204, 1, 0x0, [⟨2, 0, .rc, .num 0, .none⟩, ⟨10, 8, .rc, .num 0, .none⟩]⟩,  -- CRU_ERR
  ⟨0x208, 1, 0x0, [⟨31, 0, .ro, .num 0, .none⟩]⟩,  -- CRU_ERR_SEQ
  ⟨0x20C, 1, 0x0, [⟨31, 0, .ro, .num 0, .none⟩]⟩,  -- CRU_ERR_POS
  ⟨0x600, 1, 0x0, [⟨31, 0, .ro, .num 0, .none⟩]⟩,  -- CRU_CJOB_CNT
  ⟨0x604, 1, 0x0, [⟨31, 0, .ro, .num 0, .none⟩]⟩,  -- CRU_DJOB_CNT
  ⟨0x608, 1, 0x0, [⟨31, 0, .ro, .num 0, .none⟩]⟩,  -- CRU_CIN_KIB
  ⟨0x60C, 1, 0x0, [⟨31, 0, .ro, .num 0, .none⟩]⟩,  -- CRU_COUT_KIB
  ⟨0x610, 1, 0x0, [⟨31, 0, .ro, .num 0, .none⟩]⟩,  -- CRU_DOUT_KIB
  ⟨0x614, 1, 0x0, [⟨31, 0, .ro, .num 0, .none⟩]⟩  -- CRU_FAULT_CNT
  ]

/-- The registers of window 12, NET. -/
def regsNET : List RegDef := [
  ⟨0x0, 1, 0x0, [⟨1, 0, .rws, .num 3, .none⟩, ⟨3, 2, .rws, .num 2, .none⟩]⟩,  -- NET_CTRL
  ⟨0x4, 1, 0x0, [⟨15, 0, .rws, .num 47810, .none⟩, ⟨31, 16, .rws, .num 47810, .none⟩]⟩,  -- NET_UDP
  ⟨0x8, 1, 0x0, [⟨1, 0, .rws, .num 1, .enum [0, 1, 2]⟩, ⟨2, 2, .rws, .num 0, .none⟩, ⟨3, 3, .rws, .num 1, .none⟩, ⟨11, 4, .rws, .num 0, .none⟩, ⟨12, 12, .rws, .num 0, .none⟩]⟩,  -- NET_PTP
  ⟨0xC, 1, 0x0, [⟨0, 0, .rws, .num 0, .none⟩, ⟨1, 1, .rws, .num 0, .none⟩, ⟨2, 2, .rws, .num 1, .none⟩, ⟨15, 8, .rws, .num 100, .range 1 255⟩]⟩,  -- NET_PPS
  ⟨0x10, 1, 0x0, [⟨0, 0, .rws, .num 1, .none⟩, ⟨15, 8, .rws, .num 60, .range 1 255⟩]⟩,  -- NET_MGMT
  ⟨0x14, 1, 0x0, [⟨3, 0, .rws, .num 8, .none⟩]⟩,  -- NET_SPI_CFG
  ⟨0x18, 1, 0x0, [⟨0, 0, .wo, .num 0, .none⟩]⟩,  -- NET_BOOTCTL
  ⟨0x200, 1, 0x0, [⟨1, 0, .ro, .num 0, .none⟩, ⟨2, 2, .ro, .num 0, .none⟩, ⟨3, 3, .ro, .num 0, .none⟩, ⟨4, 4, .ro, .num 0, .none⟩, ⟨5, 5, .ro, .fuseDbg, .none⟩, ⟨6, 6, .ro, .fuseAuth, .none⟩, ⟨7, 7, .ro, .num 0, .none⟩, ⟨8, 8, .ro, .num 0, .none⟩]⟩,  -- NET_STAT
  ⟨0x204, 1, 0x0, [⟨31, 0, .ro, .num 0, .none⟩]⟩,  -- NET_SPI_LASTRC
  ⟨0x208, 1, 0x0, [⟨11, 0, .ro, .num 0, .none⟩]⟩,  -- NET_SPI_STATUS
  ⟨0x20C, 1, 0x0, [⟨31, 0, .ro, .num 0, .none⟩]⟩,  -- NET_PPS_DEV_LO
  ⟨0x210, 1, 0x0, [⟨31, 0, .ro, .num 0, .none⟩]⟩,  -- NET_PPS_DEV_HI
  ⟨0x214, 1, 0x0, [⟨31, 0, .ro, .num 0, .none⟩]⟩,  -- NET_PPS_SEC_LO
  ⟨0x218, 1, 0x0, [⟨15, 0, .ro, .num 0, .none⟩]⟩,  -- NET_PPS_SEC_HI
  ⟨0x21C, 1, 0x0, [⟨29, 0, .ro, .num 0, .none⟩]⟩,  -- NET_PPS_NS
  ⟨0x220, 1, 0x0, [⟨31, 0, .ro, .num 0, .none⟩]⟩,  -- NET_PTP_OFFSET
  ⟨0x224, 1, 0x0, [⟨31, 0, .ro, .num 0, .none⟩]⟩,  -- NET_BOOTREQ
  ⟨0x600, 1, 0x0, [⟨31, 0, .ro, .num 0, .none⟩]⟩,  -- NET_RXDROP_CNT
  ⟨0x604, 1, 0x0, [⟨31, 0, .ro, .num 0, .none⟩]⟩,  -- NET_MGMT_OK_CNT
  ⟨0x608, 1, 0x0, [⟨31, 0, .ro, .num 0, .none⟩]⟩,  -- NET_MGMT_REJ_CNT
  ⟨0x60C, 1, 0x0, [⟨31, 0, .ro, .num 0, .none⟩]⟩,  -- NET_SPI_ERR_CNT
  ⟨0x610, 1, 0x0, [⟨31, 0, .ro, .num 0, .none⟩]⟩,  -- NET_PPS_CNT
  ⟨0x614, 2, 0x4, [⟨31, 0, .ro, .num 0, .none⟩]⟩,  -- NET_TXFRM_CNT
  ⟨0x4000, 2, 0x400, [⟨1, 0, .rws, .num 0, .enum [0, 1, 2]⟩, ⟨2, 2, .rws, .num 0, .none⟩, ⟨3, 3, .rws, .num 0, .none⟩, ⟨15, 4, .rws, .num 1, .range 1 4094⟩]⟩,  -- NET_Pn_MODE
  ⟨0x4004, 2, 0x400, [⟨13, 0, .rws, .num 1500, .range 576 9000⟩]⟩,  -- NET_Pn_MTU
  ⟨0x4008, 2, 0x400, [⟨31, 0, .rws, .fuseMacLo, .none⟩]⟩,  -- NET_Pn_MAC_LO
  ⟨0x400C, 2, 0x400, [⟨15, 0, .rws, .fuseMacHi, .none⟩]⟩,  -- NET_Pn_MAC_HI
  ⟨0x4010, 2, 0x400, [⟨31, 0, .rws, .num 0, .none⟩]⟩,  -- NET_Pn_DMAC_LO
  ⟨0x4014, 2, 0x400, [⟨15, 0, .rws, .num 0, .none⟩]⟩,  -- NET_Pn_DMAC_HI
  ⟨0x4018, 2, 0x400, [⟨31, 0, .rws, .num 0, .none⟩]⟩,  -- NET_Pn_IP4
  ⟨0x401C, 2, 0x400, [⟨31, 0, .rws, .num 0, .none⟩]⟩,  -- NET_Pn_DIP4
  ⟨0x4020, 2, 0x400, [⟨31, 0, .rws, .num 0, .none⟩]⟩,  -- NET_Pn_IP6_0
  ⟨0x4024, 2, 0x400, [⟨31, 0, .rws, .num 0, .none⟩]⟩,  -- NET_Pn_IP6_1
  ⟨0x4028, 2, 0x400, [⟨31, 0, .rws, .num 0, .none⟩]⟩,  -- NET_Pn_IP6_2
  ⟨0x402C, 2, 0x400, [⟨31, 0, .rws, .num 0, .none⟩]⟩,  -- NET_Pn_IP6_3
  ⟨0x4030, 2, 0x400, [⟨31, 0, .rws, .num 0, .none⟩]⟩,  -- NET_Pn_DIP6_0
  ⟨0x4034, 2, 0x400, [⟨31, 0, .rws, .num 0, .none⟩]⟩,  -- NET_Pn_DIP6_1
  ⟨0x4038, 2, 0x400, [⟨31, 0, .rws, .num 0, .none⟩]⟩,  -- NET_Pn_DIP6_2
  ⟨0x403C, 2, 0x400, [⟨31, 0, .rws, .num 0, .none⟩]⟩,  -- NET_Pn_DIP6_3
  ⟨0x4080, 2, 0x400, [⟨0, 0, .ro, .num 0, .none⟩, ⟨2, 1, .ro, .num 0, .none⟩, ⟨3, 3, .ro, .num 0, .none⟩]⟩  -- NET_Pn_STAT
  ]

/-- The registers of window 13, PWR. -/
def regsPWR : List RegDef := [
  ⟨0x0, 1, 0x0, [⟨0, 0, .rwg, .num 0, .none⟩]⟩,  -- PWR_CTRL
  ⟨0x4, 1, 0x0, [⟨19, 0, .rws, .num 97656, .range 9766 976563⟩]⟩,  -- PWR_LEASE
  ⟨0x8, 1, 0x0, [⟨15, 0, .rws, .num 10800, .range 8000 12000⟩, ⟨31, 16, .rws, .num 11400, .none⟩]⟩,  -- PWR_UV
  ⟨0xC, 1, 0x0, [⟨0, 0, .wog, .num 0, .chapter⟩, ⟨1, 1, .wog, .num 0, .none⟩]⟩,  -- PWR_SWITCHBACK
  ⟨0x10, 1, 0x0, [⟨7, 0, .rws, .num 8, .range 1 64⟩, ⟨15, 8, .rws, .num 20, .range 1 100⟩, ⟨27, 16, .rws, .num 1953, .range 0 2441⟩]⟩,  -- PWR_UVCFG
  ⟨0x14, 1, 0x0, [⟨15, 0, .rws, .num 500, .range 50 5000⟩]⟩,  -- PWR_FREQWIN
  ⟨0x200, 1, 0x0, [⟨0, 0, .ro, .num 0, .none⟩, ⟨1, 1, .ro, .num 0, .none⟩, ⟨2, 2, .ro, .num 0, .none⟩, ⟨3, 3, .ro, .num 0, .none⟩, ⟨4, 4, .ro, .num 0, .none⟩, ⟨5, 5, .ro, .num 0, .none⟩, ⟨6, 6, .ro, .num 0, .none⟩, ⟨7, 7, .ro, .num 0, .none⟩, ⟨8, 8, .ro, .num 0, .none⟩, ⟨9, 9, .ro, .num 0, .none⟩]⟩,  -- PWR_STAT
  ⟨0x600, 1, 0x0, [⟨31, 0, .ro, .num 0, .none⟩]⟩,  -- PWR_TRANSFER_CNT
  ⟨0x604, 1, 0x0, [⟨31, 0, .ro, .num 0, .none⟩]⟩,  -- PWR_DIP_CNT
  ⟨0x608, 1, 0x0, [⟨31, 0, .ro, .num 0, .none⟩]⟩,  -- PWR_SAG_CNT
  ⟨0x60C, 1, 0x0, [⟨31, 0, .ro, .num 0, .none⟩]⟩,  -- PWR_NOCONF_CNT
  ⟨0x610, 1, 0x0, [⟨31, 0, .ro, .num 0, .none⟩]⟩,  -- PWR_MAINS_FREQ
  ⟨0x4000, 2, 0x200, [⟨15, 0, .ro, .num 0, .none⟩]⟩,  -- PWR_Ff_VOLT
  ⟨0x4004, 2, 0x200, [⟨15, 0, .ro, .num 0, .none⟩]⟩,  -- PWR_Ff_DIPMIN
  ⟨0x4008, 2, 0x200, [⟨31, 0, .ro, .num 0, .none⟩]⟩  -- PWR_Ff_DIPLEN
  ]

/-- The registers of window 14, TWN. -/
def regsTWN : List RegDef := [
  ⟨0x0, 1, 0x0, [⟨0, 0, .rwg, .num 0, .none⟩]⟩,  -- TWN_CTRL
  ⟨0x4, 1, 0x0, [⟨19, 0, .rws, .num 195313, .range 48828 976563⟩]⟩,  -- TWN_LEASE
  ⟨0x8, 1, 0x0, [⟨0, 0, .wog, .num 0, .chapter⟩]⟩,  -- TWN_SWITCHBACK
  ⟨0xC, 1, 0x0, [⟨19, 0, .rws, .num 3648, .none⟩]⟩,  -- TWN_PXBASE
  ⟨0x10, 1, 0x0, [⟨15, 0, .rws, .num 9766, .range 0 48828⟩]⟩,  -- TWN_OSWSET
  ⟨0x200, 1, 0x0, [⟨1, 0, .ro, .num 0, .none⟩, ⟨2, 2, .ro, .num 0, .none⟩, ⟨3, 3, .ro, .num 0, .none⟩, ⟨4, 4, .ro, .num 0, .none⟩, ⟨5, 5, .ro, .num 0, .none⟩, ⟨6, 6, .w1c, .num 0, .none⟩, ⟨7, 7, .ro, .num 0, .none⟩, ⟨8, 8, .ro, .num 0, .none⟩, ⟨9, 9, .ro, .num 0, .none⟩, ⟨10, 10, .ro, .num 0, .none⟩, ⟨11, 11, .ro, .num 0, .none⟩, ⟨12, 12, .ro, .num 0, .none⟩]⟩,  -- TWN_STAT
  ⟨0x204, 1, 0x0, [⟨31, 0, .ro, .num 0, .none⟩]⟩,  -- TWN_EPOCH
  ⟨0x600, 1, 0x0, [⟨31, 0, .ro, .num 0, .none⟩]⟩,  -- TWN_TAKEOVER_CNT
  ⟨0x604, 1, 0x0, [⟨31, 0, .ro, .num 0, .none⟩]⟩,  -- TWN_CKPT_CNT
  ⟨0x608, 1, 0x0, [⟨31, 0, .ro, .num 0, .none⟩]⟩,  -- TWN_LINKLOSS_CNT
  ⟨0x60C, 1, 0x0, [⟨31, 0, .ro, .num 0, .none⟩]⟩,  -- TWN_LINELOSS_CNT
  ⟨0x610, 1, 0x0, [⟨31, 0, .ro, .num 0, .none⟩]⟩,  -- TWN_SUPERSEDE_CNT
  ⟨0x614, 1, 0x0, [⟨31, 0, .ro, .num 0, .none⟩]⟩,  -- TWN_LASTGAP
  ⟨0x4000, 8, 0x200, [⟨31, 0, .ro, .num 4294967295, .none⟩]⟩,  -- TWN_Ln_CKBLK
  ⟨0x4004, 8, 0x200, [⟨31, 0, .ro, .num 4294967295, .none⟩]⟩  -- TWN_Ln_RESUME
  ]

/-- The registers of window 15, TST. -/
def regsTST : List RegDef := [
  ⟨0x0, 1, 0x0, [⟨11, 0, .rw, .num 0, .none⟩, ⟨31, 16, .rw, .num 0, .none⟩]⟩,  -- TST_DRAMLAT
  ⟨0x4, 1, 0x0, [⟨5, 0, .rw, .num 0, .none⟩, ⟨8, 8, .rw, .num 0, .none⟩]⟩,  -- TST_QBP
  ⟨0x8, 1, 0x0, [⟨0, 0, .rw, .num 0, .none⟩, ⟨31, 16, .rw, .num 0, .signedMag 1000⟩]⟩,  -- TST_LEASESKEW
  ⟨0xC, 1, 0x0, [⟨1, 0, .rw, .num 0, .none⟩, ⟨31, 8, .rw, .num 0, .none⟩]⟩,  -- TST_HBDELAY
  ⟨0x10, 1, 0x0, [⟨1, 0, .rw, .num 0, .none⟩, ⟨11, 8, .rw, .num 0, .none⟩]⟩,  -- TST_BLDROP
  ⟨0x14, 1, 0x0, [⟨3, 0, .rw, .num 0, .none⟩, ⟨5, 4, .rw, .num 0, .enum [0, 1, 2]⟩, ⟨7, 6, .rw, .num 0, .none⟩, ⟨11, 8, .rw, .num 0, .range 0 13⟩]⟩,  -- TST_SLICE
  ⟨0x18, 1, 0x0, [⟨2, 0, .rw, .num 0, .enum [0, 1, 2, 3, 4]⟩, ⟨3, 3, .rw, .num 0, .none⟩, ⟨4, 4, .wo, .num 0, .none⟩]⟩,  -- TST_ECC
  ⟨0x1C, 1, 0x0, [⟨31, 0, .rw, .num 0, .none⟩]⟩,  -- TST_ECCADDR
  ⟨0x20, 1, 0x0, [⟨7, 0, .rw, .num 0, .chapter⟩]⟩,  -- TST_DUMMY
  ⟨0x24, 1, 0x0, [⟨2, 0, .rw, .num 0, .chapter⟩, ⟨3, 3, .rw, .num 0, .none⟩, ⟨6, 4, .rw, .num 0, .chapter⟩]⟩,  -- TST_EMITFLT
  ⟨0x200, 1, 0x0, [⟨9, 0, .ro, .num 0, .none⟩]⟩  -- TST_STAT
  ]

/-- The registers of each window of R22. -/
def regsOf : Nat → List RegDef
  | 0 => regsSYS
  | 1 => regsLAN
  | 2 => regsORX
  | 3 => regsHSC
  | 4 => regsDDC
  | 5 => regsPHX
  | 6 => regsWCK
  | 7 => regsANV
  | 8 => regsAUX
  | 9 => regsMEM
  | 10 => regsQUE
  | 11 => regsCRU
  | 12 => regsNET
  | 13 => regsPWR
  | 14 => regsTWN
  | 15 => regsTST
  | _ => []

/-- The register at an offset of a window, with its unit's index. -/
def findReg : List RegDef → Nat → Option (RegDef × Nat)
  | [], _ => none
  | r :: rs, off =>
    if r.off ≤ off then
      if r.stride = 0 then (if off = r.off then some (r, 0) else findReg rs off)
      else if (off - r.off) % r.stride = 0 ∧ (off - r.off) / r.stride < r.count then some (r, (off - r.off) / r.stride)
      else findReg rs off
    else findReg rs off

/-- The register at an address of the sixteen windows, with its unit's index. -/
def regAt (a : Nat) : Option (RegDef × Nat) := findReg (regsOf (a / 0x10000)) (a % 0x10000)

namespace Fld

/-- SYS_ID[7:0] (R4, R458). -/
def SYS_ID_REV : Fld := ⟨0x0, 0x0, 7, 0⟩
/-- SYS_ID[31:16] (R4, R458). -/
def SYS_ID_PART : Fld := ⟨0x0, 0x0, 31, 16⟩
/-- SYS_CTRL[0:0] (R458). -/
def SYS_CTRL_RUN : Fld := ⟨0x4, 0x0, 0, 0⟩
/-- SYS_CTRL[1:1] (R458). -/
def SYS_CTRL_WARM : Fld := ⟨0x4, 0x0, 1, 1⟩
/-- SYS_CTRL[2:2] (R458). -/
def SYS_CTRL_LEGACY : Fld := ⟨0x4, 0x0, 2, 2⟩
/-- SYS_CTRL[3:3] (R458). -/
def SYS_CTRL_EXPERT_EN : Fld := ⟨0x4, 0x0, 3, 3⟩
/-- SYS_COMMIT[15:0] (R435). -/
def SYS_COMMIT_GO : Fld := ⟨0x8, 0x0, 15, 0⟩
/-- SYS_COMMIT[31:16] (R435). -/
def SYS_COMMIT_PEND : Fld := ⟨0x8, 0x0, 31, 16⟩
/-- SYS_SNAP[0:0] (R450). -/
def SYS_SNAP_TAKE : Fld := ⟨0xC, 0x0, 0, 0⟩
/-- SYS_CRC_REF[31:0] (R447). -/
def SYS_CRC_REF_REF : Fld := ⟨0x10, 0x0, 31, 0⟩
/-- SYS_CRC_CTRL[0:0] (R448). -/
def SYS_CRC_CTRL_EN : Fld := ⟨0x14, 0x0, 0, 0⟩
/-- SYS_CRC_CTRL[2:1] (R448). -/
def SYS_CRC_CTRL_ACTION : Fld := ⟨0x14, 0x0, 2, 1⟩
/-- SYS_GUARD_TMO[15:0] (R443). -/
def SYS_GUARD_TMO_TMO : Fld := ⟨0x18, 0x0, 15, 0⟩
/-- SYS_APBASE[8:0] (R392). -/
def SYS_APBASE_BASE : Fld := ⟨0x1C, 0x0, 8, 0⟩
/-- SYS_STRAPS[4:0] (R462). -/
def SYS_STRAPS_STRAPS : Fld := ⟨0x20, 0x0, 4, 0⟩
/-- SYS_HIBCTRL[0:0] (R476). -/
def SYS_HIBCTRL_GO : Fld := ⟨0x24, 0x0, 0, 0⟩
/-- SYS_STAT[0:0] (R458). -/
def SYS_STAT_GUARD_FAULT : Fld := ⟨0x200, 0x0, 0, 0⟩
/-- SYS_STAT[1:1] (R458). -/
def SYS_STAT_CRC_MISMATCH : Fld := ⟨0x200, 0x0, 1, 1⟩
/-- SYS_STAT[2:2] (R458). -/
def SYS_STAT_FROZEN : Fld := ⟨0x200, 0x0, 2, 2⟩
/-- SYS_STAT[3:3] (R458). -/
def SYS_STAT_CLKFAIL : Fld := ⟨0x200, 0x0, 3, 3⟩
/-- SYS_STAT[4:4] (R458). -/
def SYS_STAT_STRAPWARN : Fld := ⟨0x200, 0x0, 4, 4⟩
/-- SYS_STAT[5:5] (R458). -/
def SYS_STAT_BOOTFAIL : Fld := ⟨0x200, 0x0, 5, 5⟩
/-- SYS_STAT[6:6] (R458). -/
def SYS_STAT_CLAMP : Fld := ⟨0x200, 0x0, 6, 6⟩
/-- SYS_STAT[7:7] (R458). -/
def SYS_STAT_CRCVALID : Fld := ⟨0x200, 0x0, 7, 7⟩
/-- SYS_STAT[8:8] (R458). -/
def SYS_STAT_HOLD : Fld := ⟨0x200, 0x0, 8, 8⟩
/-- SYS_CRC_LIVE[31:0] (R447). -/
def SYS_CRC_LIVE_CRC : Fld := ⟨0x204, 0x0, 31, 0⟩
/-- SYS_TEMP[7:0] (R458). -/
def SYS_TEMP_T0 : Fld := ⟨0x208, 0x0, 7, 0⟩
/-- SYS_TEMP[15:8] (R458). -/
def SYS_TEMP_T1 : Fld := ⟨0x208, 0x0, 15, 8⟩
/-- SYS_TEMP[23:16] (R458). -/
def SYS_TEMP_T2 : Fld := ⟨0x208, 0x0, 23, 16⟩
/-- SYS_TEMP[31:24] (R458). -/
def SYS_TEMP_T3 : Fld := ⟨0x208, 0x0, 31, 24⟩
/-- SYS_DIRTY[15:0] (R434). -/
def SYS_DIRTY_DIRTY : Fld := ⟨0x20C, 0x0, 15, 0⟩
/-- SYS_RSTCAUSE[2:0] (R476). -/
def SYS_RSTCAUSE_CAUSE : Fld := ⟨0x210, 0x0, 2, 0⟩
/-- SYS_RSTCAUSE[8:8] (R476). -/
def SYS_RSTCAUSE_CLKFAIL : Fld := ⟨0x210, 0x0, 8, 8⟩
/-- SYS_BOOTSTAGE[3:0] (R463, R476). -/
def SYS_BOOTSTAGE_STAGE : Fld := ⟨0x214, 0x0, 3, 0⟩
/-- SYS_BOOTSTAGE[4:4] (R463, R476). -/
def SYS_BOOTSTAGE_SECONDARY : Fld := ⟨0x214, 0x0, 4, 4⟩
/-- SYS_CLAMP_CNT[31:0] (R439). -/
def SYS_CLAMP_CNT : Fld := ⟨0x600, 0x0, 31, 0⟩
/-- SYS_GUARD_CNT[31:0] (R444). -/
def SYS_GUARD_CNT : Fld := ⟨0x604, 0x0, 31, 0⟩
/-- SYS_UPTIME_LO[31:0] (R458). -/
def SYS_UPTIME_LO : Fld := ⟨0x608, 0x0, 31, 0⟩
/-- SYS_UPTIME_HI[31:0] (R458). -/
def SYS_UPTIME_HI : Fld := ⟨0x60C, 0x0, 31, 0⟩
/-- SYS_CRCFAIL_CNT[31:0] (R447). -/
def SYS_CRCFAIL_CNT : Fld := ⟨0x610, 0x0, 31, 0⟩
/-- SYS_COMMIT_CNT[31:0] (R435). -/
def SYS_COMMIT_CNT : Fld := ⟨0x614, 0x0, 31, 0⟩
/-- SYS_WARM_CNT[31:0] (R476). -/
def SYS_WARM_CNT : Fld := ⟨0x618, 0x0, 31, 0⟩
/-- SYS_WDOG_CNT[31:0] (R476). -/
def SYS_WDOG_CNT : Fld := ⟨0x61C, 0x0, 31, 0⟩
/-- LAN_CTRL[7:0] (R94). -/
def LAN_CTRL_EMIT_EN : Fld := ⟨0x10000, 0x0, 7, 0⟩
/-- LAN_CTRL[8:8] (R94). -/
def LAN_CTRL_QFORCE : Fld := ⟨0x10000, 0x0, 8, 8⟩
/-- LAN_QCFG[0:0] (R86, R94). -/
def LAN_QCFG_SCOPE : Fld := ⟨0x10004, 0x0, 0, 0⟩
/-- LAN_QCFG[2:1] (R86, R94). -/
def LAN_QCFG_INTLK_FILT : Fld := ⟨0x10004, 0x0, 2, 1⟩
/-- LAN_BLANK[10:0] (R78). -/
def LAN_BLANK_BLANK : Fld := ⟨0x10008, 0x0, 10, 0⟩
/-- LAN_KEEPALIVE[4:0] (R67). -/
def LAN_KEEPALIVE_KA : Fld := ⟨0x1000C, 0x0, 4, 0⟩
/-- LAN_QCLR[0:0] (R93). -/
def LAN_QCLR_CLR : Fld := ⟨0x10010, 0x0, 0, 0⟩
/-- LAN_TBLPAGE[2:0] (R94). -/
def LAN_TBLPAGE_LANE : Fld := ⟨0x10014, 0x0, 2, 0⟩
/-- LAN_STAT[7:0] (R94). -/
def LAN_STAT_EMITTING : Fld := ⟨0x10200, 0x0, 7, 0⟩
/-- LAN_STAT[15:8] (R94). -/
def LAN_STAT_QUENCHED : Fld := ⟨0x10200, 0x0, 15, 8⟩
/-- LAN_STAT[23:16] (R94). -/
def LAN_STAT_TBLPEND : Fld := ⟨0x10200, 0x0, 23, 16⟩
/-- LAN_STAT[24:24] (R94). -/
def LAN_STAT_INTLK_OPEN : Fld := ⟨0x10200, 0x0, 24, 24⟩
/-- LAN_STAT[25:25] (R94). -/
def LAN_STAT_HSC_READY : Fld := ⟨0x10200, 0x0, 25, 25⟩
/-- LAN_STAT[26:26] (R94). -/
def LAN_STAT_SAFE_ALL : Fld := ⟨0x10200, 0x0, 26, 26⟩
/-- LAN_STAT[27:27] (R94). -/
def LAN_STAT_QCLR_FAIL : Fld := ⟨0x10200, 0x0, 27, 27⟩
/-- LAN_STAT[28:28] (R94). -/
def LAN_STAT_QCLR_BUSY : Fld := ⟨0x10200, 0x0, 28, 28⟩
/-- LAN_QCAUSE[7:0] (R85, R89). -/
def LAN_QCAUSE_FIRST : Fld := ⟨0x10204, 0x0, 7, 0⟩
/-- LAN_QCAUSE[15:8] (R85, R89). -/
def LAN_QCAUSE_ALL : Fld := ⟨0x10204, 0x0, 15, 8⟩
/-- LAN_QCAUSE[18:16] (R85, R89). -/
def LAN_QCAUSE_LANE : Fld := ⟨0x10204, 0x0, 18, 16⟩
/-- LAN_QCAUSE[19:19] (R85, R89). -/
def LAN_QCAUSE_STRING : Fld := ⟨0x10204, 0x0, 19, 19⟩
/-- LAN_QCAUSE[20:20] (R85, R89). -/
def LAN_QCAUSE_LANEVALID : Fld := ⟨0x10204, 0x0, 20, 20⟩
/-- LAN_QTIME_LO[31:0] (R89). -/
def LAN_QTIME_LO_LO : Fld := ⟨0x10208, 0x0, 31, 0⟩
/-- LAN_QTIME_HI[31:0] (R89). -/
def LAN_QTIME_HI_HI : Fld := ⟨0x1020C, 0x0, 31, 0⟩
/-- LAN_QUENCH_CNT[31:0] (R94). -/
def LAN_QUENCH_CNT : Fld := ⟨0x10600, 0x0, 31, 0⟩
/-- LAN_DLY_CNT[31:0] (R78). -/
def LAN_DLY_CNT : Fld := ⟨0x10610, 0x4, 31, 0⟩
/-- LAN_DLY_MAX[31:0] (R78). -/
def LAN_DLY_MAX : Fld := ⟨0x10630, 0x4, 31, 0⟩
/-- LAN_Ln_STRA[8:0] (R95). -/
def LAN_Ln_STRA_ISET : Fld := ⟨0x14000, 0x200, 8, 0⟩
/-- LAN_Ln_STRA[13:12] (R95). -/
def LAN_Ln_STRA_RSH : Fld := ⟨0x14000, 0x200, 13, 12⟩
/-- LAN_Ln_STRB[9:0] (R95). -/
def LAN_Ln_STRB_ISET : Fld := ⟨0x14004, 0x200, 9, 0⟩
/-- LAN_Ln_STRB[13:12] (R95). -/
def LAN_Ln_STRB_RSH : Fld := ⟨0x14004, 0x200, 13, 12⟩
/-- LAN_Ln_STRB[22:16] (R95). -/
def LAN_Ln_STRB_LEAD : Fld := ⟨0x14004, 0x200, 22, 16⟩
/-- LAN_Ln_APC[15:0] (R72). -/
def LAN_Ln_APC_TARGET : Fld := ⟨0x14008, 0x200, 15, 0⟩
/-- LAN_Ln_APC[16:16] (R72). -/
def LAN_Ln_APC_EN : Fld := ⟨0x14008, 0x200, 16, 16⟩
/-- LAN_Ln_DIAG[7:0] (R68). -/
def LAN_Ln_DIAG_VSHORT_A : Fld := ⟨0x1400C, 0x200, 7, 0⟩
/-- LAN_Ln_DIAG[15:8] (R68). -/
def LAN_Ln_DIAG_VOPEN_A : Fld := ⟨0x1400C, 0x200, 15, 8⟩
/-- LAN_Ln_DIAG[23:16] (R68). -/
def LAN_Ln_DIAG_VSHORT_B : Fld := ⟨0x1400C, 0x200, 23, 16⟩
/-- LAN_Ln_DIAG[31:24] (R68). -/
def LAN_Ln_DIAG_VOPEN_B : Fld := ⟨0x1400C, 0x200, 31, 24⟩
/-- LAN_Ln_FAULT[2:0] (R95). -/
def LAN_Ln_FAULT_A_FLT : Fld := ⟨0x14010, 0x200, 2, 0⟩
/-- LAN_Ln_FAULT[6:4] (R95). -/
def LAN_Ln_FAULT_B_FLT : Fld := ⟨0x14010, 0x200, 6, 4⟩
/-- LAN_Ln_FAULT[8:8] (R95). -/
def LAN_Ln_FAULT_MON_HIGH : Fld := ⟨0x14010, 0x200, 8, 8⟩
/-- LAN_Ln_FAULT[9:9] (R95). -/
def LAN_Ln_FAULT_MON_LOW : Fld := ⟨0x14010, 0x200, 9, 9⟩
/-- LAN_Ln_FAULT[10:10] (R95). -/
def LAN_Ln_FAULT_DECAY_SLOW : Fld := ⟨0x14010, 0x200, 10, 10⟩
/-- LAN_Ln_FAULT[15:12] (R95). -/
def LAN_Ln_FAULT_LATE : Fld := ⟨0x14010, 0x200, 15, 12⟩
/-- LAN_Ln_FAULT[18:16] (R95). -/
def LAN_Ln_FAULT_FAILCNT_A : Fld := ⟨0x14010, 0x200, 18, 16⟩
/-- LAN_Ln_FAULT[22:20] (R95). -/
def LAN_Ln_FAULT_FAILCNT_B : Fld := ⟨0x14010, 0x200, 22, 20⟩
/-- LAN_Ln_CEIL[15:0] (R73). -/
def LAN_Ln_CEIL_CEIL : Fld := ⟨0x14014, 0x200, 15, 0⟩
/-- LAN_Ln_PULSE[11:0] (R65). -/
def LAN_Ln_PULSE_WIDTH : Fld := ⟨0x14018, 0x200, 11, 0⟩
/-- LAN_Ln_PULSE[23:16] (R65). -/
def LAN_Ln_PULSE_OFFSET : Fld := ⟨0x14018, 0x200, 23, 16⟩
/-- LAN_Ln_CLEN0[12:0] (R74). -/
def LAN_Ln_CLEN0_LEN : Fld := ⟨0x14020, 0x200, 12, 0⟩
/-- LAN_Ln_CLEN1[12:0] (R74). -/
def LAN_Ln_CLEN1_LEN : Fld := ⟨0x14024, 0x200, 12, 0⟩
/-- LAN_Ln_CLEN2[12:0] (R74). -/
def LAN_Ln_CLEN2_LEN : Fld := ⟨0x14028, 0x200, 12, 0⟩
/-- LAN_Ln_CLEN3[12:0] (R74). -/
def LAN_Ln_CLEN3_LEN : Fld := ⟨0x1402C, 0x200, 12, 0⟩
/-- LAN_Ln_MON[15:0] (R72). -/
def LAN_Ln_MON_AVG : Fld := ⟨0x14040, 0x200, 15, 0⟩
/-- LAN_Ln_MON[25:16] (R72). -/
def LAN_Ln_MON_IAPP : Fld := ⟨0x14040, 0x200, 25, 16⟩
/-- ORX_STAT[0:0] (R113). -/
def ORX_STAT_SCHPEND : Fld := ⟨0x20200, 0x0, 0, 0⟩
/-- ORX_CLIP_CNT[31:0] (R102). -/
def ORX_CLIP_CNT : Fld := ⟨0x20600, 0x4, 31, 0⟩
/-- ORX_RSW_CNT[31:0] (R102). -/
def ORX_RSW_CNT : Fld := ⟨0x20640, 0x4, 31, 0⟩
/-- ORX_OVLD_CNT[31:0] (R106). -/
def ORX_OVLD_CNT : Fld := ⟨0x20680, 0x4, 31, 0⟩
/-- ORX_CMFLT_CNT[31:0] (R110). -/
def ORX_CMFLT_CNT : Fld := ⟨0x206C0, 0x0, 31, 0⟩
/-- ORX_Cn_RANGE[1:0] (R114). -/
def ORX_Cn_RANGE_FIXR : Fld := ⟨0x24000, 0x200, 1, 0⟩
/-- ORX_Cn_RANGE[3:2] (R114). -/
def ORX_Cn_RANGE_MODE : Fld := ⟨0x24000, 0x200, 3, 2⟩
/-- ORX_Cn_RANGE[5:4] (R114). -/
def ORX_Cn_RANGE_MINR : Fld := ⟨0x24000, 0x200, 5, 4⟩
/-- ORX_Cn_RANGE[7:6] (R114). -/
def ORX_Cn_RANGE_MAXR : Fld := ⟨0x24000, 0x200, 7, 6⟩
/-- ORX_Cn_RANGE[9:8] (R114). -/
def ORX_Cn_RANGE_BLANKR : Fld := ⟨0x24000, 0x200, 9, 8⟩
/-- ORX_Cn_RANGE[15:12] (R114). -/
def ORX_Cn_RANGE_SCHED : Fld := ⟨0x24000, 0x200, 15, 12⟩
/-- ORX_Cn_RANGE[16:16] (R114). -/
def ORX_Cn_RANGE_OVLD_DN : Fld := ⟨0x24000, 0x200, 16, 16⟩
/-- ORX_Cn_HYST[6:0] (R100, R101). -/
def ORX_Cn_HYST_HI_PCT : Fld := ⟨0x24004, 0x200, 6, 0⟩
/-- ORX_Cn_HYST[13:8] (R100, R101). -/
def ORX_Cn_HYST_LO_PCT : Fld := ⟨0x24004, 0x200, 13, 8⟩
/-- ORX_Cn_HYST[19:16] (R100, R101). -/
def ORX_Cn_HYST_HI_CNT : Fld := ⟨0x24004, 0x200, 19, 16⟩
/-- ORX_Cn_HYST[31:20] (R100, R101). -/
def ORX_Cn_HYST_LO_CNT : Fld := ⟨0x24004, 0x200, 31, 20⟩
/-- ORX_Cn_CMWIN[7:0] (R109). -/
def ORX_Cn_CMWIN_CM_LO : Fld := ⟨0x24008, 0x200, 7, 0⟩
/-- ORX_Cn_CMWIN[15:8] (R109). -/
def ORX_Cn_CMWIN_CM_HI : Fld := ⟨0x24008, 0x200, 15, 8⟩
/-- ORX_Cn_CMWIN[21:16] (R109). -/
def ORX_Cn_CMWIN_IMB : Fld := ⟨0x24008, 0x200, 21, 16⟩
/-- ORX_Cn_CMWIN[24:24] (R109). -/
def ORX_Cn_CMWIN_EN : Fld := ⟨0x24008, 0x200, 24, 24⟩
/-- ORX_Cn_CMVAL[11:0] (R109). -/
def ORX_Cn_CMVAL_IP_DC : Fld := ⟨0x2400C, 0x200, 11, 0⟩
/-- ORX_Cn_CMVAL[27:16] (R109). -/
def ORX_Cn_CMVAL_IN_DC : Fld := ⟨0x2400C, 0x200, 27, 16⟩
/-- ORX_Cn_STAT[1:0] (R114). -/
def ORX_Cn_STAT_RNG : Fld := ⟨0x24010, 0x200, 1, 0⟩
/-- ORX_Cn_STAT[2:2] (R114). -/
def ORX_Cn_STAT_CM_LOW : Fld := ⟨0x24010, 0x200, 2, 2⟩
/-- ORX_Cn_STAT[3:3] (R114). -/
def ORX_Cn_STAT_CM_HIGH : Fld := ⟨0x24010, 0x200, 3, 3⟩
/-- ORX_Cn_STAT[4:4] (R114). -/
def ORX_Cn_STAT_IMB_FLT : Fld := ⟨0x24010, 0x200, 4, 4⟩
/-- ORX_Cn_STAT[5:5] (R114). -/
def ORX_Cn_STAT_CMFLT : Fld := ⟨0x24010, 0x200, 5, 5⟩
/-- ORX_Cn_STAT[6:6] (R114). -/
def ORX_Cn_STAT_OVLD : Fld := ⟨0x24010, 0x200, 6, 6⟩
/-- ORX_Cn_STAT[7:7] (R114). -/
def ORX_Cn_STAT_ACTIVE : Fld := ⟨0x24010, 0x200, 7, 7⟩
/-- ORX_Cn_STAT[8:8] (R114). -/
def ORX_Cn_STAT_SERVO_LIM : Fld := ⟨0x24010, 0x200, 8, 8⟩
/-- ORX_Cn_STAT[15:12] (R114). -/
def ORX_Cn_STAT_ASCHED : Fld := ⟨0x24010, 0x200, 15, 12⟩
/-- HSC_CTRL[0:0] (R141). -/
def HSC_CTRL_ROT_EN : Fld := ⟨0x30000, 0x0, 0, 0⟩
/-- HSC_CTRL[1:1] (R141). -/
def HSC_CTRL_SCALE_EN : Fld := ⟨0x30000, 0x0, 1, 1⟩
/-- HSC_CTRL[2:2] (R141). -/
def HSC_CTRL_TRIM_EN : Fld := ⟨0x30000, 0x0, 2, 2⟩
/-- HSC_FMT[0:0] (R121, R122). -/
def HSC_FMT_ALIGN : Fld := ⟨0x30004, 0x0, 0, 0⟩
/-- HSC_FMT[1:1] (R121, R122). -/
def HSC_FMT_SRC : Fld := ⟨0x30004, 0x0, 1, 1⟩
/-- HSC_CALCMD[0:0] (R123, R128). -/
def HSC_CALCMD_START : Fld := ⟨0x30008, 0x0, 0, 0⟩
/-- HSC_CALCMD[1:1] (R123, R128). -/
def HSC_CALCMD_ROTATE : Fld := ⟨0x30008, 0x0, 1, 1⟩
/-- HSC_CALCMD[31:16] (R123, R128). -/
def HSC_CALCMD_CHMASK : Fld := ⟨0x30008, 0x0, 31, 16⟩
/-- HSC_ROT[31:0] (R128). -/
def HSC_ROT_ROT : Fld := ⟨0x3000C, 0x0, 31, 0⟩
/-- HSC_RAMP[12:0] (R130). -/
def HSC_RAMP_RAMP : Fld := ⟨0x30010, 0x0, 12, 0⟩
/-- HSC_CAL_DT[5:0] (R133). -/
def HSC_CAL_DT_DT : Fld := ⟨0x30014, 0x0, 5, 0⟩
/-- HSC_TONE[1:0] (R135). -/
def HSC_TONE_LEVEL : Fld := ⟨0x30018, 0x0, 1, 0⟩
/-- HSC_STAT[0:0] (R141). -/
def HSC_STAT_CALBUSY : Fld := ⟨0x30200, 0x0, 0, 0⟩
/-- HSC_STAT[1:1] (R141). -/
def HSC_STAT_READY : Fld := ⟨0x30200, 0x0, 1, 1⟩
/-- HSC_STAT[2:2] (R141). -/
def HSC_STAT_CALFAIL : Fld := ⟨0x30200, 0x0, 2, 2⟩
/-- HSC_STAT[3:3] (R141). -/
def HSC_STAT_SWEEP : Fld := ⟨0x30200, 0x0, 3, 3⟩
/-- HSC_STAT[4:4] (R141). -/
def HSC_STAT_ROTDEFER : Fld := ⟨0x30200, 0x0, 4, 4⟩
/-- HSC_STAT[15:8] (R141). -/
def HSC_STAT_TTRIM : Fld := ⟨0x30200, 0x0, 15, 8⟩
/-- HSC_STAT[31:16] (R141). -/
def HSC_STAT_DEGRADED : Fld := ⟨0x30200, 0x0, 31, 16⟩
/-- HSC_ROT_CNT[31:0] (R131). -/
def HSC_ROT_CNT : Fld := ⟨0x30600, 0x0, 31, 0⟩
/-- HSC_CAL_COUNT[31:0] (R123). -/
def HSC_CAL_COUNT : Fld := ⟨0x30604, 0x0, 31, 0⟩
/-- HSC_CAL_TIME_S[31:0] (R123). -/
def HSC_CAL_TIME_S : Fld := ⟨0x30608, 0x0, 31, 0⟩
/-- HSC_CAL_TIME_NS[31:0] (R123). -/
def HSC_CAL_TIME_NS : Fld := ⟨0x3060C, 0x0, 31, 0⟩
/-- HSC_SAT_CNT[31:0] (R119). -/
def HSC_SAT_CNT : Fld := ⟨0x30610, 0x4, 31, 0⟩
/-- HSC_RETIRE_CNT[31:0] (R139). -/
def HSC_RETIRE_CNT : Fld := ⟨0x30650, 0x0, 31, 0⟩
/-- HSC_MAN_Cn[0:0] (R140). -/
def HSC_MAN_Cn_EN : Fld := ⟨0x32000, 0x4, 0, 0⟩
/-- HSC_MAN_Cn[2:1] (R140). -/
def HSC_MAN_Cn_POS0 : Fld := ⟨0x32000, 0x4, 2, 1⟩
/-- HSC_MAN_Cn[4:3] (R140). -/
def HSC_MAN_Cn_POS1 : Fld := ⟨0x32000, 0x4, 4, 3⟩
/-- HSC_Cn_SLICE[1:0] (R142). -/
def HSC_Cn_SLICE_POS0 : Fld := ⟨0x34000, 0x200, 1, 0⟩
/-- HSC_Cn_SLICE[3:2] (R142). -/
def HSC_Cn_SLICE_POS1 : Fld := ⟨0x34000, 0x200, 3, 2⟩
/-- HSC_Cn_SLICE[5:4] (R142). -/
def HSC_Cn_SLICE_SPARE : Fld := ⟨0x34000, 0x200, 5, 4⟩
/-- HSC_Cn_SLICE[10:8] (R142). -/
def HSC_Cn_SLICE_RETIRED : Fld := ⟨0x34000, 0x200, 10, 8⟩
/-- HSC_Cn_SLICE[14:12] (R142). -/
def HSC_Cn_SLICE_PHASE : Fld := ⟨0x34000, 0x200, 14, 12⟩
/-- HSC_Cn_SLICE[16:16] (R142). -/
def HSC_Cn_SLICE_NOSPARE : Fld := ⟨0x34000, 0x200, 16, 16⟩
/-- HSC_Cn_SLICE[17:17] (R142). -/
def HSC_Cn_SLICE_DOWN : Fld := ⟨0x34000, 0x200, 17, 17⟩
/-- HSC_Cn_CORA0[15:0] (R119). -/
def HSC_Cn_CORA0_OFF : Fld := ⟨0x34010, 0x200, 15, 0⟩
/-- HSC_Cn_CORA0[31:16] (R119). -/
def HSC_Cn_CORA0_GDEV : Fld := ⟨0x34010, 0x200, 31, 16⟩
/-- HSC_Cn_CORB0[15:0] (R119). -/
def HSC_Cn_CORB0_SKEW : Fld := ⟨0x34014, 0x200, 15, 0⟩
/-- HSC_Cn_CORA1[15:0] (R119). -/
def HSC_Cn_CORA1_OFF : Fld := ⟨0x34018, 0x200, 15, 0⟩
/-- HSC_Cn_CORA1[31:16] (R119). -/
def HSC_Cn_CORA1_GDEV : Fld := ⟨0x34018, 0x200, 31, 16⟩
/-- HSC_Cn_CORB1[15:0] (R119). -/
def HSC_Cn_CORB1_SKEW : Fld := ⟨0x3401C, 0x200, 15, 0⟩
/-- HSC_Cn_CORA2[15:0] (R119). -/
def HSC_Cn_CORA2_OFF : Fld := ⟨0x34020, 0x200, 15, 0⟩
/-- HSC_Cn_CORA2[31:16] (R119). -/
def HSC_Cn_CORA2_GDEV : Fld := ⟨0x34020, 0x200, 31, 16⟩
/-- HSC_Cn_CORB2[15:0] (R119). -/
def HSC_Cn_CORB2_SKEW : Fld := ⟨0x34024, 0x200, 15, 0⟩
/-- HSC_Cn_SCALE[15:0] (R142). -/
def HSC_Cn_SCALE_SCALE : Fld := ⟨0x34040, 0x200, 15, 0⟩
/-- HSC_Cn_SCALE[31:16] (R142). -/
def HSC_Cn_SCALE_NEXT : Fld := ⟨0x34040, 0x200, 31, 16⟩
/-- HSC_Cn_TONEAMP[15:0] (R142). -/
def HSC_Cn_TONEAMP_AMP : Fld := ⟨0x34044, 0x200, 15, 0⟩
/-- HSC_Cn_TONEAMP[31:16] (R142). -/
def HSC_Cn_TONEAMP_ITONE : Fld := ⟨0x34044, 0x200, 31, 16⟩
/-- HSC_Cn_STAT[0:0] (R142). -/
def HSC_Cn_STAT_LOWSIG : Fld := ⟨0x34048, 0x200, 0, 0⟩
/-- HSC_Cn_STAT[1:1] (R142). -/
def HSC_Cn_STAT_TONE_LOW : Fld := ⟨0x34048, 0x200, 1, 1⟩
/-- HSC_Cn_STAT[2:2] (R142). -/
def HSC_Cn_STAT_SCALEHOLD : Fld := ⟨0x34048, 0x200, 2, 2⟩
/-- HSC_Cn_STAT[3:3] (R142). -/
def HSC_Cn_STAT_SCALE_SRC : Fld := ⟨0x34048, 0x200, 3, 3⟩
/-- HSC_Cn_STAT[4:4] (R142). -/
def HSC_Cn_STAT_TRIMSKIP : Fld := ⟨0x34048, 0x200, 4, 4⟩
/-- HSC_Cn_STAT[5:5] (R142). -/
def HSC_Cn_STAT_MISMATCH : Fld := ⟨0x34048, 0x200, 5, 5⟩
/-- HSC_Cn_STAT[6:6] (R142). -/
def HSC_Cn_STAT_DIAG : Fld := ⟨0x34048, 0x200, 6, 6⟩
/-- HSC_Cn_SAMPLE[15:0] (R142). -/
def HSC_Cn_SAMPLE_WORD : Fld := ⟨0x3404C, 0x200, 15, 0⟩
/-- DDC_CTRL[7:0] (R164). -/
def DDC_CTRL_EN : Fld := ⟨0x40000, 0x0, 7, 0⟩
/-- DDC_PHASEMODE[7:0] (R149). -/
def DDC_PHASEMODE_MINPH : Fld := ⟨0x40004, 0x0, 7, 0⟩
/-- DDC_MEDIAN[7:0] (R155). -/
def DDC_MEDIAN_EN : Fld := ⟨0x40008, 0x0, 7, 0⟩
/-- DDC_MEDIAN[9:8] (R155). -/
def DDC_MEDIAN_WIN : Fld := ⟨0x40008, 0x0, 9, 8⟩
/-- DDC_MEDIAN[21:16] (R155). -/
def DDC_MEDIAN_K : Fld := ⟨0x40008, 0x0, 21, 16⟩
/-- DDC_TBLPAGE[2:0] (R164). -/
def DDC_TBLPAGE_LANE : Fld := ⟨0x4000C, 0x0, 2, 0⟩
/-- DDC_MFTAPSn[7:0] (R153). -/
def DDC_MFTAPSn_HT0 : Fld := ⟨0x40040, 0x4, 7, 0⟩
/-- DDC_MFTAPSn[15:8] (R153). -/
def DDC_MFTAPSn_HT1 : Fld := ⟨0x40040, 0x4, 15, 8⟩
/-- DDC_MFTAPSn[23:16] (R153). -/
def DDC_MFTAPSn_HT2 : Fld := ⟨0x40040, 0x4, 23, 16⟩
/-- DDC_MFTAPSn[31:24] (R153). -/
def DDC_MFTAPSn_HT3 : Fld := ⟨0x40040, 0x4, 31, 24⟩
/-- DDC_STAT[15:0] (R164). -/
def DDC_STAT_SETTLING : Fld := ⟨0x40200, 0x0, 15, 0⟩
/-- DDC_STAT[23:16] (R164). -/
def DDC_STAT_MFPEND : Fld := ⟨0x40200, 0x0, 23, 16⟩
/-- DDC_STAT[24:24] (R164). -/
def DDC_STAT_XPEND : Fld := ⟨0x40200, 0x0, 24, 24⟩
/-- DDC_SAT_CNT[31:0] (R156). -/
def DDC_SAT_CNT : Fld := ⟨0x40600, 0x4, 31, 0⟩
/-- DDC_MED_CNT[31:0] (R155). -/
def DDC_MED_CNT : Fld := ⟨0x40640, 0x4, 31, 0⟩
/-- DDC_RESTART_CNT[31:0] (R160). -/
def DDC_RESTART_CNT : Fld := ⟨0x40680, 0x0, 31, 0⟩
/-- DDC_XSET[7:0] (R150). -/
def DDC_XSET_CUSTOM : Fld := ⟨0x42000, 0x0, 7, 0⟩
/-- DDC_XGDLY[23:0] (R150). -/
def DDC_XGDLY_GDLY : Fld := ⟨0x42004, 0x0, 23, 0⟩
/-- DDC_Cn_NCO0[31:0] (R51, R145). -/
def DDC_Cn_NCO0_WORD : Fld := ⟨0x44000, 0x400, 31, 0⟩
/-- DDC_Cn_NCO1[31:0] (R51, R145). -/
def DDC_Cn_NCO1_WORD : Fld := ⟨0x44004, 0x400, 31, 0⟩
/-- DDC_Cn_NCO2[31:0] (R51, R145). -/
def DDC_Cn_NCO2_WORD : Fld := ⟨0x44008, 0x400, 31, 0⟩
/-- DDC_Cn_NCO3[31:0] (R51, R145). -/
def DDC_Cn_NCO3_WORD : Fld := ⟨0x4400C, 0x400, 31, 0⟩
/-- DDC_Cn_GDLY0[23:0] (R157). -/
def DDC_Cn_GDLY0_GDLY : Fld := ⟨0x44010, 0x400, 23, 0⟩
/-- DDC_Cn_GDLY1[23:0] (R157). -/
def DDC_Cn_GDLY1_GDLY : Fld := ⟨0x44014, 0x400, 23, 0⟩
/-- DDC_Cn_GDLY2[23:0] (R157). -/
def DDC_Cn_GDLY2_GDLY : Fld := ⟨0x44018, 0x400, 23, 0⟩
/-- DDC_Cn_GDLY3[23:0] (R157). -/
def DDC_Cn_GDLY3_GDLY : Fld := ⟨0x4401C, 0x400, 23, 0⟩
/-- DDC_Cn_PHREF0[31:0] (R146). -/
def DDC_Cn_PHREF0_PHREF : Fld := ⟨0x44020, 0x400, 31, 0⟩
/-- DDC_Cn_PHREF1[31:0] (R146). -/
def DDC_Cn_PHREF1_PHREF : Fld := ⟨0x44024, 0x400, 31, 0⟩
/-- DDC_Cn_PHREF2[31:0] (R146). -/
def DDC_Cn_PHREF2_PHREF : Fld := ⟨0x44028, 0x400, 31, 0⟩
/-- DDC_Cn_PHREF3[31:0] (R146). -/
def DDC_Cn_PHREF3_PHREF : Fld := ⟨0x4402C, 0x400, 31, 0⟩
/-- DDC_Cn_STAT[3:0] (R166). -/
def DDC_Cn_STAT_SETTLE : Fld := ⟨0x44030, 0x400, 3, 0⟩
/-- DDC_Cn_STAT[7:4] (R166). -/
def DDC_Cn_STAT_IDLE : Fld := ⟨0x44030, 0x400, 7, 4⟩
/-- DDC_Cn_STAT[9:8] (R166). -/
def DDC_Cn_STAT_SET : Fld := ⟨0x44030, 0x400, 9, 8⟩
/-- PHX_CTRL[0:0] (R190). -/
def PHX_CTRL_PRED : Fld := ⟨0x50000, 0x0, 0, 0⟩
/-- PHX_CTRL[7:4] (R190). -/
def PHX_CTRL_PTC : Fld := ⟨0x50000, 0x0, 7, 4⟩
/-- PHX_CTRL[11:8] (R190). -/
def PHX_CTRL_OTC : Fld := ⟨0x50000, 0x0, 11, 8⟩
/-- PHX_CTRL[14:12] (R190). -/
def PHX_CTRL_ANDIV : Fld := ⟨0x50000, 0x0, 14, 12⟩
/-- PHX_GIDX[20:0] (R43). -/
def PHX_GIDX_GIDX : Fld := ⟨0x50004, 0x0, 20, 0⟩
/-- PHX_GAUGE[5:0] (R54). -/
def PHX_GAUGE_G : Fld := ⟨0x50008, 0x0, 5, 0⟩
/-- PHX_FADE_TH[23:0] (R190). -/
def PHX_FADE_TH_TH : Fld := ⟨0x5000C, 0x0, 23, 0⟩
/-- PHX_BLOCK[13:0] (R190, R191). -/
def PHX_BLOCK_BLOCK : Fld := ⟨0x50010, 0x0, 13, 0⟩
/-- PHX_TCOEF[23:0] (R190). -/
def PHX_TCOEF_TCOEF : Fld := ⟨0x50014, 0x0, 23, 0⟩
/-- PHX_TILEBASE[19:0] (R29). -/
def PHX_TILEBASE_BASE : Fld := ⟨0x50018, 0x0, 19, 0⟩
/-- PHX_TEMPBASE[19:0] (R191). -/
def PHX_TEMPBASE_BASE : Fld := ⟨0x5001C, 0x0, 19, 0⟩
/-- PHX_STAT[7:0] (R191). -/
def PHX_STAT_ANCHORED : Fld := ⟨0x50200, 0x0, 7, 0⟩
/-- PHX_STAT[15:8] (R191). -/
def PHX_STAT_BREAK : Fld := ⟨0x50200, 0x0, 15, 8⟩
/-- PHX_STAT[23:16] (R191). -/
def PHX_STAT_STARTING : Fld := ⟨0x50200, 0x0, 23, 16⟩
/-- PHX_FILL_CNT[31:0] (R172). -/
def PHX_FILL_CNT : Fld := ⟨0x50600, 0x4, 31, 0⟩
/-- PHX_INV_CNT[31:0] (R172). -/
def PHX_INV_CNT : Fld := ⟨0x50620, 0x4, 31, 0⟩
/-- PHX_REREF_CNT[31:0] (R173). -/
def PHX_REREF_CNT : Fld := ⟨0x50640, 0x4, 31, 0⟩
/-- PHX_OVR_CNT[31:0] (R32). -/
def PHX_OVR_CNT : Fld := ⟨0x50660, 0x4, 31, 0⟩
/-- PHX_BLK_CNT[31:0] (R176). -/
def PHX_BLK_CNT : Fld := ⟨0x50680, 0x4, 31, 0⟩
/-- PHX_ECC_CNT[31:0] (R178). -/
def PHX_ECC_CNT : Fld := ⟨0x506A0, 0x0, 31, 0⟩
/-- PHX_Ln_REFCH[3:0] (R184). -/
def PHX_Ln_REFCH_CH : Fld := ⟨0x54000, 0x200, 3, 0⟩
/-- PHX_Ln_REFCH[4:4] (R184). -/
def PHX_Ln_REFCH_EN : Fld := ⟨0x54000, 0x200, 4, 4⟩
/-- PHX_Ln_REFCH[5:5] (R184). -/
def PHX_Ln_REFCH_PT : Fld := ⟨0x54000, 0x200, 5, 5⟩
/-- PHX_Ln_BREAK[15:0] (R181). -/
def PHX_Ln_BREAK_END : Fld := ⟨0x54004, 0x200, 15, 0⟩
/-- PHX_Ln_BREAK[16:16] (R181). -/
def PHX_Ln_BREAK_VALID : Fld := ⟨0x54004, 0x200, 16, 16⟩
/-- PHX_Ln_BREAK[17:17] (R181). -/
def PHX_Ln_BREAK_NONE : Fld := ⟨0x54004, 0x200, 17, 17⟩
/-- PHX_Ln_BREAK[18:18] (R181). -/
def PHX_Ln_BREAK_BRK : Fld := ⟨0x54004, 0x200, 18, 18⟩
/-- PHX_Ln_BREAK[19:19] (R181). -/
def PHX_Ln_BREAK_DARK : Fld := ⟨0x54004, 0x200, 19, 19⟩
/-- PHX_Ln_COIL[15:0] (R192). -/
def PHX_Ln_COIL_FIRST : Fld := ⟨0x54008, 0x200, 15, 0⟩
/-- PHX_Ln_COIL[31:16] (R192). -/
def PHX_Ln_COIL_COUNT : Fld := ⟨0x54008, 0x200, 31, 16⟩
/-- PHX_Ln_BLKPOS[13:0] (R176). -/
def PHX_Ln_BLKPOS_SLOT : Fld := ⟨0x5400C, 0x200, 13, 0⟩
/-- PHX_Ln_BLKPOS[31:16] (R176). -/
def PHX_Ln_BLKPOS_BLK : Fld := ⟨0x5400C, 0x200, 31, 16⟩
/-- PHX_Ln_STAT[0:0] (R192). -/
def PHX_Ln_STAT_IDLE : Fld := ⟨0x54010, 0x200, 0, 0⟩
/-- PHX_Ln_STAT[1:1] (R192). -/
def PHX_Ln_STAT_STARTING : Fld := ⟨0x54010, 0x200, 1, 1⟩
/-- PHX_Ln_STAT[2:2] (R192). -/
def PHX_Ln_STAT_RELATIVE : Fld := ⟨0x54010, 0x200, 2, 2⟩
/-- PHX_Ln_STAT[3:3] (R192). -/
def PHX_Ln_STAT_ANCH_STALE : Fld := ⟨0x54010, 0x200, 3, 3⟩
/-- PHX_Ln_STAT[4:4] (R192). -/
def PHX_Ln_STAT_XEXCL : Fld := ⟨0x54010, 0x200, 4, 4⟩
/-- PHX_Ln_STAT[5:5] (R192). -/
def PHX_Ln_STAT_YEXCL : Fld := ⟨0x54010, 0x200, 5, 5⟩
/-- PHX_Ln_STAT[6:6] (R192). -/
def PHX_Ln_STAT_BREAK : Fld := ⟨0x54010, 0x200, 6, 6⟩
/-- PHX_Ln_STAT[7:7] (R192). -/
def PHX_Ln_STAT_NOEND : Fld := ⟨0x54010, 0x200, 7, 7⟩
/-- PHX_Ln_STAT[8:8] (R192). -/
def PHX_Ln_STAT_SLOTCOLL : Fld := ⟨0x54010, 0x200, 8, 8⟩
/-- PHX_Ln_STAT[31:24] (R192). -/
def PHX_Ln_STAT_OVR : Fld := ⟨0x54010, 0x200, 31, 24⟩
/-- PHX_Ln_ENDREF[15:0] (R182). -/
def PHX_Ln_ENDREF_END : Fld := ⟨0x54014, 0x200, 15, 0⟩
/-- PHX_Ln_ENDREF[16:16] (R182). -/
def PHX_Ln_ENDREF_EN : Fld := ⟨0x54014, 0x200, 16, 16⟩
/-- PHX_Ln_FLOOR[23:0] (R181). -/
def PHX_Ln_FLOOR_FLOOR : Fld := ⟨0x54018, 0x200, 23, 0⟩
/-- PHX_Ln_BRKDIST[23:0] (R181). -/
def PHX_Ln_BRKDIST_DIST : Fld := ⟨0x5401C, 0x200, 23, 0⟩
/-- PHX_Ln_TANCH[31:0] (R185). -/
def PHX_Ln_TANCH_T : Fld := ⟨0x54020, 0x200, 31, 0⟩
/-- PHX_Ln_DRIFT[31:0] (R183). -/
def PHX_Ln_DRIFT_D : Fld := ⟨0x54024, 0x200, 31, 0⟩
/-- WCK_CTRL[7:0] (R265). -/
def WCK_CTRL_RUN : Fld := ⟨0x60000, 0x0, 7, 0⟩
/-- WCK_CTRL[15:8] (R265). -/
def WCK_CTRL_CLRERR : Fld := ⟨0x60000, 0x0, 15, 8⟩
/-- WCK_SYNC[23:0] (R261). -/
def WCK_SYNC_PERIOD : Fld := ⟨0x60004, 0x0, 23, 0⟩
/-- WCK_CAPBASE[19:0] (R264). -/
def WCK_CAPBASE_BASE : Fld := ⟨0x60008, 0x0, 19, 0⟩
/-- WCK_STAT[7:0] (R269). -/
def WCK_STAT_RUNNING : Fld := ⟨0x60200, 0x0, 7, 0⟩
/-- WCK_STAT[15:8] (R269). -/
def WCK_STAT_ERROR : Fld := ⟨0x60200, 0x0, 15, 8⟩
/-- WCK_LAUNCH_CNT[31:0] (R259). -/
def WCK_LAUNCH_CNT : Fld := ⟨0x60600, 0x4, 31, 0⟩
/-- WCK_SUPP_CNT[31:0] (R259). -/
def WCK_SUPP_CNT : Fld := ⟨0x60620, 0x4, 31, 0⟩
/-- WCK_STALL_CNT[31:0] (R258). -/
def WCK_STALL_CNT : Fld := ⟨0x60640, 0x4, 31, 0⟩
/-- WCK_TRIG_CNT[31:0] (R263). -/
def WCK_TRIG_CNT : Fld := ⟨0x60660, 0x4, 31, 0⟩
/-- WCK_Ln_FRAME[15:0] (R45). -/
def WCK_Ln_FRAME_N : Fld := ⟨0x64000, 0x200, 15, 0⟩
/-- WCK_Ln_PROBES[2:0] (R46). -/
def WCK_Ln_PROBES_P : Fld := ⟨0x64004, 0x200, 2, 0⟩
/-- WCK_Ln_PC[9:0] (R267). -/
def WCK_Ln_PC_PC : Fld := ⟨0x64008, 0x200, 9, 0⟩
/-- WCK_Ln_CAP[3:0] (R264). -/
def WCK_Ln_CAP_SRC : Fld := ⟨0x6400C, 0x200, 3, 0⟩
/-- WCK_Ln_CAP[4:4] (R264). -/
def WCK_Ln_CAP_ARM : Fld := ⟨0x6400C, 0x200, 4, 4⟩
/-- WCK_Ln_CAP[30:16] (R264). -/
def WCK_Ln_CAP_LEN : Fld := ⟨0x6400C, 0x200, 30, 16⟩
/-- WCK_Ln_STAT[1:0] (R270). -/
def WCK_Ln_STAT_STATE : Fld := ⟨0x64010, 0x200, 1, 0⟩
/-- WCK_Ln_STAT[5:4] (R270). -/
def WCK_Ln_STAT_ERR : Fld := ⟨0x64010, 0x200, 5, 4⟩
/-- WCK_Ln_STAT[10:8] (R270). -/
def WCK_Ln_STAT_DEPTH : Fld := ⟨0x64010, 0x200, 10, 8⟩
/-- WCK_Ln_STAT[12:12] (R270). -/
def WCK_Ln_STAT_CELLSTALL : Fld := ⟨0x64010, 0x200, 12, 12⟩
/-- WCK_Ln_STAT[13:13] (R270). -/
def WCK_Ln_STAT_PPSMISS : Fld := ⟨0x64010, 0x200, 13, 13⟩
/-- WCK_Ln_STAT[14:14] (R270). -/
def WCK_Ln_STAT_CAPBUSY : Fld := ⟨0x64010, 0x200, 14, 14⟩
/-- WCK_Ln_LASTDLY[23:0] (R259). -/
def WCK_Ln_LASTDLY_DLY : Fld := ⟨0x64014, 0x200, 23, 0⟩
/-- WCK_Ln_LASTDLY[25:24] (R259). -/
def WCK_Ln_LASTDLY_PROBE : Fld := ⟨0x64014, 0x200, 25, 24⟩
/-- WCK_Ln_LASTDLY[26:26] (R259). -/
def WCK_Ln_LASTDLY_SUPP : Fld := ⟨0x64014, 0x200, 26, 26⟩
/-- ANV_CTRL[7:0] (R217). -/
def ANV_CTRL_TACH_EN : Fld := ⟨0x70000, 0x0, 7, 0⟩
/-- ANV_TACHBASE[19:0] (R217). -/
def ANV_TACHBASE_BASE : Fld := ⟨0x70004, 0x0, 19, 0⟩
/-- ANV_CKBASE[19:0] (R222). -/
def ANV_CKBASE_BASE : Fld := ⟨0x70008, 0x0, 19, 0⟩
/-- ANV_STAT[7:0] (R223). -/
def ANV_STAT_RUNNING : Fld := ⟨0x70200, 0x0, 7, 0⟩
/-- ANV_STAT[15:8] (R223). -/
def ANV_STAT_HALTED : Fld := ⟨0x70200, 0x0, 15, 8⟩
/-- ANV_STAT[23:16] (R223). -/
def ANV_STAT_ERROR : Fld := ⟨0x70200, 0x0, 23, 16⟩
/-- ANV_BUSY_CNT[31:0] (R223). -/
def ANV_BUSY_CNT : Fld := ⟨0x70600, 0x4, 31, 0⟩
/-- ANV_STALL_CNT[31:0] (R223). -/
def ANV_STALL_CNT : Fld := ⟨0x70620, 0x4, 31, 0⟩
/-- ANV_RECL_CNT[31:0] (R212). -/
def ANV_RECL_CNT : Fld := ⟨0x70640, 0x4, 31, 0⟩
/-- ANV_TEDGE_CNT[31:0] (R223). -/
def ANV_TEDGE_CNT : Fld := ⟨0x70660, 0x4, 31, 0⟩
/-- ANV_ECC_CNT[31:0] (R197). -/
def ANV_ECC_CNT : Fld := ⟨0x70680, 0x0, 31, 0⟩
/-- ANV_En_CTRL[0:0] (R224). -/
def ANV_En_CTRL_RUN : Fld := ⟨0x74000, 0x400, 0, 0⟩
/-- ANV_En_CTRL[1:1] (R224). -/
def ANV_En_CTRL_STEP : Fld := ⟨0x74000, 0x400, 1, 1⟩
/-- ANV_En_CTRL[2:2] (R224). -/
def ANV_En_CTRL_RESET : Fld := ⟨0x74000, 0x400, 2, 2⟩
/-- ANV_En_CTRL[3:3] (R224). -/
def ANV_En_CTRL_CLRERR : Fld := ⟨0x74000, 0x400, 3, 3⟩
/-- ANV_En_PC[12:0] (R199). -/
def ANV_En_PC_PC : Fld := ⟨0x74004, 0x400, 12, 0⟩
/-- ANV_En_ASTAT[0:0] (R206). -/
def ANV_En_ASTAT_AOV : Fld := ⟨0x74008, 0x400, 0, 0⟩
/-- ANV_En_ASTAT[1:1] (R206). -/
def ANV_En_ASTAT_VOV : Fld := ⟨0x74008, 0x400, 1, 1⟩
/-- ANV_En_ASTAT[2:2] (R206). -/
def ANV_En_ASTAT_DMAERR : Fld := ⟨0x74008, 0x400, 2, 2⟩
/-- ANV_En_ASTAT[3:3] (R206). -/
def ANV_En_ASTAT_RECL : Fld := ⟨0x74008, 0x400, 3, 3⟩
/-- ANV_En_ASTAT[8:8] (R206). -/
def ANV_En_ASTAT_INREP : Fld := ⟨0x74008, 0x400, 8, 8⟩
/-- ANV_En_AOVIDX[15:0] (R207). -/
def ANV_En_AOVIDX_ITER : Fld := ⟨0x7400C, 0x400, 15, 0⟩
/-- ANV_En_AOVIDX[19:16] (R207). -/
def ANV_En_AOVIDX_LANE : Fld := ⟨0x7400C, 0x400, 19, 16⟩
/-- ANV_En_AOVIDX[21:20] (R207). -/
def ANV_En_AOVIDX_ACC : Fld := ⟨0x7400C, 0x400, 21, 20⟩
/-- ANV_En_AOVIDX[23:23] (R207). -/
def ANV_En_AOVIDX_INREP : Fld := ⟨0x7400C, 0x400, 23, 23⟩
/-- ANV_En_AOVIDX[31:31] (R207). -/
def ANV_En_AOVIDX_VALID : Fld := ⟨0x7400C, 0x400, 31, 31⟩
/-- ANV_En_BEXP[3:0] (R208). -/
def ANV_En_BEXP_HEAD : Fld := ⟨0x74010, 0x400, 3, 0⟩
/-- ANV_En_BEXP[5:4] (R208). -/
def ANV_En_BEXP_NEED : Fld := ⟨0x74010, 0x400, 5, 4⟩
/-- ANV_En_BEXP[9:8] (R208). -/
def ANV_En_BEXP_SCALE : Fld := ⟨0x74010, 0x400, 9, 8⟩
/-- ANV_En_BEXP[23:16] (R208). -/
def ANV_En_BEXP_EXP : Fld := ⟨0x74010, 0x400, 23, 16⟩
/-- ANV_En_LOOPCNT[16:0] (R250). -/
def ANV_En_LOOPCNT_LOOPCNT : Fld := ⟨0x74014, 0x400, 16, 0⟩
/-- ANV_En_BIND[2:0] (R213). -/
def ANV_En_BIND_LANE : Fld := ⟨0x74018, 0x400, 2, 0⟩
/-- ANV_En_BIND[3:3] (R213). -/
def ANV_En_BIND_EN : Fld := ⟨0x74018, 0x400, 3, 3⟩
/-- ANV_En_BIND[4:4] (R213). -/
def ANV_En_BIND_CKEN : Fld := ⟨0x74018, 0x400, 4, 4⟩
/-- ANV_En_STAT[1:0] (R198). -/
def ANV_En_STAT_STATE : Fld := ⟨0x7401C, 0x400, 1, 0⟩
/-- ANV_En_STAT[7:4] (R198). -/
def ANV_En_STAT_ERR : Fld := ⟨0x7401C, 0x400, 7, 4⟩
/-- ANV_En_ERRPC[12:0] (R203). -/
def ANV_En_ERRPC_ERRPC : Fld := ⟨0x74020, 0x400, 12, 0⟩
/-- ANV_En_EVT[7:0] (R214). -/
def ANV_En_EVT_PEND : Fld := ⟨0x74024, 0x400, 7, 0⟩
/-- ANV_En_CKBLK[31:0] (R222). -/
def ANV_En_CKBLK_BLK : Fld := ⟨0x74028, 0x400, 31, 0⟩
/-- ANV_En_POS[13:0] (R214). -/
def ANV_En_POS_SLOT : Fld := ⟨0x7402C, 0x400, 13, 0⟩
/-- ANV_En_POS[31:16] (R214). -/
def ANV_En_POS_BLK : Fld := ⟨0x7402C, 0x400, 31, 16⟩
/-- ANV_En_DMA0[7:0] (R224). -/
def ANV_En_DMA0_STAT : Fld := ⟨0x74040, 0x400, 7, 0⟩
/-- ANV_En_DMA0[31:16] (R224). -/
def ANV_En_DMA0_ROWS : Fld := ⟨0x74040, 0x400, 31, 16⟩
/-- ANV_En_DMA1[7:0] (R224). -/
def ANV_En_DMA1_STAT : Fld := ⟨0x74044, 0x400, 7, 0⟩
/-- ANV_En_DMA1[31:16] (R224). -/
def ANV_En_DMA1_ROWS : Fld := ⟨0x74044, 0x400, 31, 16⟩
/-- ANV_En_DMA2[7:0] (R224). -/
def ANV_En_DMA2_STAT : Fld := ⟨0x74048, 0x400, 7, 0⟩
/-- ANV_En_DMA2[31:16] (R224). -/
def ANV_En_DMA2_ROWS : Fld := ⟨0x74048, 0x400, 31, 16⟩
/-- ANV_En_DMA3[7:0] (R224). -/
def ANV_En_DMA3_STAT : Fld := ⟨0x7404C, 0x400, 7, 0⟩
/-- ANV_En_DMA3[31:16] (R224). -/
def ANV_En_DMA3_ROWS : Fld := ⟨0x7404C, 0x400, 31, 16⟩
/-- ANV_Tt_CFG[7:0] (R225). -/
def ANV_Tt_CFG_FILT : Fld := ⟨0x76000, 0x40, 7, 0⟩
/-- ANV_Tt_CFG[8:8] (R225). -/
def ANV_Tt_CFG_EDGE : Fld := ⟨0x76000, 0x40, 8, 8⟩
/-- ANV_Tt_CFG[26:16] (R225). -/
def ANV_Tt_CFG_PPR : Fld := ⟨0x76000, 0x40, 26, 16⟩
/-- ANV_Tt_TMO[11:0] (R225). -/
def ANV_Tt_TMO_TMO : Fld := ⟨0x76004, 0x40, 11, 0⟩
/-- ANV_Tt_SPEED[31:0] (R218). -/
def ANV_Tt_SPEED_SPEED : Fld := ⟨0x76008, 0x40, 31, 0⟩
/-- ANV_Tt_STAT[0:0] (R225). -/
def ANV_Tt_STAT_STALE : Fld := ⟨0x7600C, 0x40, 0, 0⟩
/-- ANV_Tt_STAT[1:1] (R225). -/
def ANV_Tt_STAT_LEVEL : Fld := ⟨0x7600C, 0x40, 1, 1⟩
/-- ANV_Tt_STAT[2:2] (R225). -/
def ANV_Tt_STAT_GAP : Fld := ⟨0x7600C, 0x40, 2, 2⟩
/-- ANV_Tt_WIDX[31:0] (R217). -/
def ANV_Tt_WIDX_WIDX : Fld := ⟨0x76010, 0x40, 31, 0⟩
/-- ANV_Tt_LAST_LO[31:0] (R225). -/
def ANV_Tt_LAST_LO_LO : Fld := ⟨0x76014, 0x40, 31, 0⟩
/-- ANV_Tt_LAST_HI[31:0] (R225). -/
def ANV_Tt_LAST_HI_HI : Fld := ⟨0x76018, 0x40, 31, 0⟩
/-- AUX_CTRL[0:0] (R297). -/
def AUX_CTRL_EN : Fld := ⟨0x80000, 0x0, 0, 0⟩
/-- AUX_REFBUF[0:0] (R283). -/
def AUX_REFBUF_EN : Fld := ⟨0x80004, 0x0, 0, 0⟩
/-- AUX_MAINS[1:0] (R276, R277). -/
def AUX_MAINS_MODE : Fld := ⟨0x80008, 0x0, 1, 0⟩
/-- AUX_MAINS[2:2] (R276, R277). -/
def AUX_MAINS_FALLBACK : Fld := ⟨0x80008, 0x0, 2, 2⟩
/-- AUX_MAINS[3:3] (R276, R277). -/
def AUX_MAINS_EDGE : Fld := ⟨0x80008, 0x0, 3, 3⟩
/-- AUX_SEQ[5:0] (R278). -/
def AUX_SEQ_LEN : Fld := ⟨0x8000C, 0x0, 5, 0⟩
/-- AUX_SEQ[8:8] (R278). -/
def AUX_SEQ_RUN : Fld := ⟨0x8000C, 0x0, 8, 8⟩
/-- AUX_SEQ[9:9] (R278). -/
def AUX_SEQ_CONT : Fld := ⟨0x8000C, 0x0, 9, 9⟩
/-- AUX_SEQ[19:16] (R278). -/
def AUX_SEQ_INJNRES : Fld := ⟨0x8000C, 0x0, 19, 16⟩
/-- AUX_INJ[4:0] (R279). -/
def AUX_INJ_SRC : Fld := ⟨0x80010, 0x0, 4, 0⟩
/-- AUX_INJ[16:16] (R279). -/
def AUX_INJ_REQ : Fld := ⟨0x80010, 0x0, 16, 16⟩
/-- AUX_CALCMD[0:0] (R291). -/
def AUX_CALCMD_START : Fld := ⟨0x80014, 0x0, 0, 0⟩
/-- AUX_CAL_DT[5:0] (R295). -/
def AUX_CAL_DT_DT : Fld := ⟨0x80018, 0x0, 5, 0⟩
/-- AUX_CAL_DT[8:8] (R295). -/
def AUX_CAL_DT_AUTO : Fld := ⟨0x80018, 0x0, 8, 8⟩
/-- AUX_FMT[0:0] (R285). -/
def AUX_FMT_ALIGN : Fld := ⟨0x8001C, 0x0, 0, 0⟩
/-- AUX_VREFX_UV[21:0] (R274). -/
def AUX_VREFX_UV_UV : Fld := ⟨0x80020, 0x0, 21, 0⟩
/-- AUX_RREFX_MOHM[19:0] (R274). -/
def AUX_RREFX_MOHM_MOHM : Fld := ⟨0x80024, 0x0, 19, 0⟩
/-- AUX_STALE[11:0] (R286). -/
def AUX_STALE_AGE : Fld := ⟨0x80028, 0x0, 11, 0⟩
/-- AUX_STAT[0:0] (R297). -/
def AUX_STAT_REFREADY : Fld := ⟨0x80200, 0x0, 0, 0⟩
/-- AUX_STAT[1:1] (R297). -/
def AUX_STAT_REFWAIT : Fld := ⟨0x80200, 0x0, 1, 1⟩
/-- AUX_STAT[2:2] (R297). -/
def AUX_STAT_CALBUSY : Fld := ⟨0x80200, 0x0, 2, 2⟩
/-- AUX_STAT[3:3] (R297). -/
def AUX_STAT_SEQRUN : Fld := ⟨0x80200, 0x0, 3, 3⟩
/-- AUX_STAT[4:4] (R297). -/
def AUX_STAT_INJBUSY : Fld := ⟨0x80200, 0x0, 4, 4⟩
/-- AUX_STAT[5:5] (R297). -/
def AUX_STAT_LSLOST : Fld := ⟨0x80200, 0x0, 5, 5⟩
/-- AUX_STAT[6:6] (R297). -/
def AUX_STAT_PROTECT : Fld := ⟨0x80200, 0x0, 6, 6⟩
/-- AUX_STAT[12:8] (R297). -/
def AUX_STAT_ENTRY : Fld := ⟨0x80200, 0x0, 12, 8⟩
/-- AUX_STAT[20:16] (R297). -/
def AUX_STAT_SRC : Fld := ⟨0x80200, 0x0, 20, 16⟩
/-- AUX_STAT[31:24] (R297). -/
def AUX_STAT_TCAL : Fld := ⟨0x80200, 0x0, 31, 24⟩
/-- AUX_CAL_STAT[1:0] (R293, R294). -/
def AUX_CAL_STAT_STATE : Fld := ⟨0x80204, 0x0, 1, 0⟩
/-- AUX_CAL_STAT[7:4] (R293, R294). -/
def AUX_CAL_STAT_FAIL : Fld := ⟨0x80204, 0x0, 7, 4⟩
/-- AUX_CAL_STAT[13:12] (R293, R294). -/
def AUX_CAL_STAT_CAUSE : Fld := ⟨0x80204, 0x0, 13, 12⟩
/-- AUX_CAL_STAT[16:16] (R293, R294). -/
def AUX_CAL_STAT_FACTORY : Fld := ⟨0x80204, 0x0, 16, 16⟩
/-- AUX_INJ_RESULT[31:0] (R279, R285). -/
def AUX_INJ_RESULT_RESULT : Fld := ⟨0x80208, 0x0, 31, 0⟩
/-- AUX_INJ_TAG[31:0] (R286). -/
def AUX_INJ_TAG_TAG : Fld := ⟨0x8020C, 0x0, 31, 0⟩
/-- AUX_ITONE[23:0] (R281). -/
def AUX_ITONE_PA : Fld := ⟨0x80210, 0x0, 23, 0⟩
/-- AUX_ITONE_TAG[31:0] (R286). -/
def AUX_ITONE_TAG_TAG : Fld := ⟨0x80214, 0x0, 31, 0⟩
/-- AUX_LINEPER[23:0] (R277). -/
def AUX_LINEPER_PER : Fld := ⟨0x80218, 0x0, 23, 0⟩
/-- AUX_CAL_COUNT[31:0] (R293). -/
def AUX_CAL_COUNT : Fld := ⟨0x80600, 0x0, 31, 0⟩
/-- AUX_CAL_TIME_S[31:0] (R293). -/
def AUX_CAL_TIME_S : Fld := ⟨0x80604, 0x0, 31, 0⟩
/-- AUX_CAL_TIME_NS[31:0] (R293). -/
def AUX_CAL_TIME_NS : Fld := ⟨0x80608, 0x0, 31, 0⟩
/-- AUX_WIN_CNT[31:0] (R297). -/
def AUX_WIN_CNT : Fld := ⟨0x8060C, 0x0, 31, 0⟩
/-- AUX_ABORT_CNT[31:0] (R279). -/
def AUX_ABORT_CNT : Fld := ⟨0x80610, 0x0, 31, 0⟩
/-- AUX_INJ_CNT[31:0] (R279). -/
def AUX_INJ_CNT : Fld := ⟨0x80614, 0x0, 31, 0⟩
/-- AUX_LFLT_CNT[31:0] (R289). -/
def AUX_LFLT_CNT : Fld := ⟨0x80618, 0x0, 31, 0⟩
/-- AUX_XREF[0:0] (R298). -/
def AUX_XREF_COLD_OK : Fld := ⟨0x82000, 0x0, 0, 0⟩
/-- AUX_Cn_CFG[2:0] (R271, R299). -/
def AUX_Cn_CFG_MODE : Fld := ⟨0x84000, 0x200, 2, 0⟩
/-- AUX_Cn_CFG[5:4] (R271, R299). -/
def AUX_Cn_CFG_RANGE : Fld := ⟨0x84000, 0x200, 5, 4⟩
/-- AUX_Cn_CFG[9:8] (R271, R299). -/
def AUX_Cn_CFG_EXCDIV : Fld := ⟨0x84000, 0x200, 9, 8⟩
/-- AUX_Cn_CFG[19:12] (R271, R299). -/
def AUX_Cn_CFG_EXCAMP : Fld := ⟨0x84000, 0x200, 19, 12⟩
/-- AUX_Cn_CFG[25:20] (R271, R299). -/
def AUX_Cn_CFG_SETTLE : Fld := ⟨0x84000, 0x200, 25, 20⟩
/-- AUX_Cn_CFG[26:26] (R271, R299). -/
def AUX_Cn_CFG_PULL : Fld := ⟨0x84000, 0x200, 26, 26⟩
/-- AUX_Cn_CFG[27:27] (R271, R299). -/
def AUX_Cn_CFG_SXEN : Fld := ⟨0x84000, 0x200, 27, 27⟩
/-- AUX_Cn_CFG[28:28] (R271, R299). -/
def AUX_Cn_CFG_CMEN : Fld := ⟨0x84000, 0x200, 28, 28⟩
/-- AUX_Cn_MUX[7:0] (R275). -/
def AUX_Cn_MUX_DISCH : Fld := ⟨0x84004, 0x200, 7, 0⟩
/-- AUX_Cn_CMWIN[8:0] (R288). -/
def AUX_Cn_CMWIN_LO : Fld := ⟨0x84008, 0x200, 8, 0⟩
/-- AUX_Cn_CMWIN[24:16] (R288). -/
def AUX_Cn_CMWIN_HI : Fld := ⟨0x84008, 0x200, 24, 16⟩
/-- AUX_Cn_CMWIN[31:25] (R288). -/
def AUX_Cn_CMWIN_SXLO : Fld := ⟨0x84008, 0x200, 31, 25⟩
/-- AUX_Cn_RESULT[31:0] (R284, R287). -/
def AUX_Cn_RESULT_RESULT : Fld := ⟨0x8400C, 0x200, 31, 0⟩
/-- AUX_Cn_TAG[31:0] (R286). -/
def AUX_Cn_TAG_TAG : Fld := ⟨0x84010, 0x200, 31, 0⟩
/-- AUX_Cn_FAULT[0:0] (R299). -/
def AUX_Cn_FAULT_OPEN : Fld := ⟨0x84014, 0x200, 0, 0⟩
/-- AUX_Cn_FAULT[1:1] (R299). -/
def AUX_Cn_FAULT_ILIM : Fld := ⟨0x84014, 0x200, 1, 1⟩
/-- AUX_Cn_FAULT[2:2] (R299). -/
def AUX_Cn_FAULT_CM_SNS : Fld := ⟨0x84014, 0x200, 2, 2⟩
/-- AUX_Cn_FAULT[3:3] (R299). -/
def AUX_Cn_FAULT_CM_IN : Fld := ⟨0x84014, 0x200, 3, 3⟩
/-- AUX_Cn_FAULT[15:8] (R299). -/
def AUX_Cn_FAULT_DECL : Fld := ⟨0x84014, 0x200, 15, 8⟩
/-- MEM_CTRL[1:0] (R317, R325). -/
def MEM_CTRL_REFMODE : Fld := ⟨0x90000, 0x0, 1, 0⟩
/-- MEM_CTRL[4:4] (R317, R325). -/
def MEM_CTRL_SCRUB_EN : Fld := ⟨0x90000, 0x0, 4, 4⟩
/-- MEM_CTRL[15:8] (R317, R325). -/
def MEM_CTRL_T2X : Fld := ⟨0x90000, 0x0, 15, 8⟩
/-- MEM_GEOM[0:0] (R302, R306). -/
def MEM_GEOM_WIDTH : Fld := ⟨0x90004, 0x0, 0, 0⟩
/-- MEM_GEOM[1:1] (R302, R306). -/
def MEM_GEOM_DENS : Fld := ⟨0x90004, 0x0, 1, 1⟩
/-- MEM_GEOM[2:2] (R302, R306). -/
def MEM_GEOM_RANKS : Fld := ⟨0x90004, 0x0, 2, 2⟩
/-- MEM_GEOM[13:8] (R302, R306). -/
def MEM_GEOM_AWIDTH : Fld := ⟨0x90004, 0x0, 13, 8⟩
/-- MEM_XMAP_CH[28:0] (R307). -/
def MEM_XMAP_CH_MASK : Fld := ⟨0x90010, 0x0, 28, 0⟩
/-- MEM_XMAP_BG0[28:0] (R307). -/
def MEM_XMAP_BG0_MASK : Fld := ⟨0x90014, 0x0, 28, 0⟩
/-- MEM_XMAP_BG1[28:0] (R307). -/
def MEM_XMAP_BG1_MASK : Fld := ⟨0x90018, 0x0, 28, 0⟩
/-- MEM_XMAP_BA0[28:0] (R307). -/
def MEM_XMAP_BA0_MASK : Fld := ⟨0x9001C, 0x0, 28, 0⟩
/-- MEM_XMAP_BA1[28:0] (R307). -/
def MEM_XMAP_BA1_MASK : Fld := ⟨0x90020, 0x0, 28, 0⟩
/-- MEM_AGE_LIMIT[15:0] (R312). -/
def MEM_AGE_LIMIT_AGE : Fld := ⟨0x90030, 0x0, 15, 0⟩
/-- MEM_SR_CTRL[0:0] (R318). -/
def MEM_SR_CTRL_EN : Fld := ⟨0x90034, 0x0, 0, 0⟩
/-- MEM_SR_CTRL[31:16] (R318). -/
def MEM_SR_CTRL_IDLE : Fld := ⟨0x90034, 0x0, 31, 16⟩
/-- MEM_BWIN[15:0] (R315). -/
def MEM_BWIN_WIN : Fld := ⟨0x90038, 0x0, 15, 0⟩
/-- MEM_MAINT[3:0] (R322). -/
def MEM_MAINT_ZQ_DT : Fld := ⟨0x9003C, 0x0, 3, 0⟩
/-- MEM_MAINT[11:8] (R322). -/
def MEM_MAINT_RT_DT : Fld := ⟨0x9003C, 0x0, 11, 8⟩
/-- MEM_SCRUB[15:0] (R325). -/
def MEM_SCRUB_PERIOD : Fld := ⟨0x90040, 0x0, 15, 0⟩
/-- MEM_STAT[0:0] (R327). -/
def MEM_STAT_READY : Fld := ⟨0x90200, 0x0, 0, 0⟩
/-- MEM_STAT[2:1] (R327). -/
def MEM_STAT_TRAINFAIL : Fld := ⟨0x90200, 0x0, 2, 1⟩
/-- MEM_STAT[4:3] (R327). -/
def MEM_STAT_SR : Fld := ⟨0x90200, 0x0, 4, 3⟩
/-- MEM_STAT[5:5] (R327). -/
def MEM_STAT_REF2X : Fld := ⟨0x90200, 0x0, 5, 5⟩
/-- MEM_STAT[6:6] (R327). -/
def MEM_STAT_RETRAIN : Fld := ⟨0x90200, 0x0, 6, 6⟩
/-- MEM_STAT[15:8] (R327). -/
def MEM_STAT_TTRAIN : Fld := ⟨0x90200, 0x0, 15, 8⟩
/-- MEM_UE_ADDR_LO[31:0] (R324). -/
def MEM_UE_ADDR_LO_LO : Fld := ⟨0x90204, 0x0, 31, 0⟩
/-- MEM_UE_ADDR_HI[2:0] (R324). -/
def MEM_UE_ADDR_HI_HI : Fld := ⟨0x90208, 0x0, 2, 0⟩
/-- MEM_CE_CNT[31:0] (R323). -/
def MEM_CE_CNT : Fld := ⟨0x90600, 0x0, 31, 0⟩
/-- MEM_UE_CNT[31:0] (R324). -/
def MEM_UE_CNT : Fld := ⟨0x90604, 0x0, 31, 0⟩
/-- MEM_SRABORT_CNT[31:0] (R319). -/
def MEM_SRABORT_CNT : Fld := ⟨0x90608, 0x0, 31, 0⟩
/-- MEM_SRWAKE_CNT[31:0] (R319). -/
def MEM_SRWAKE_CNT : Fld := ⟨0x9060C, 0x0, 31, 0⟩
/-- MEM_RETRAIN_CNT[31:0] (R322). -/
def MEM_RETRAIN_CNT : Fld := ⟨0x90610, 0x0, 31, 0⟩
/-- MEM_SCRUB_PASS_CNT[31:0] (R325). -/
def MEM_SCRUB_PASS_CNT : Fld := ⟨0x90614, 0x0, 31, 0⟩
/-- MEM_BURST_CNT[31:0] (R315). -/
def MEM_BURST_CNT : Fld := ⟨0x90640, 0x4, 31, 0⟩
/-- MEM_MISS_CNT[31:0] (R313). -/
def MEM_MISS_CNT : Fld := ⟨0x90680, 0x4, 31, 0⟩
/-- MEM_Pp_CLASS[1:0] (R308, R309). -/
def MEM_Pp_CLASS_CLASS : Fld := ⟨0x94000, 0x100, 1, 0⟩
/-- MEM_Pp_CLASS[5:4] (R308, R309). -/
def MEM_Pp_CLASS_HINT : Fld := ⟨0x94000, 0x100, 5, 4⟩
/-- MEM_Pp_TARGET[15:0] (R308, R313). -/
def MEM_Pp_TARGET_TARGET : Fld := ⟨0x94004, 0x100, 15, 0⟩
/-- MEM_Pp_BUDGET[15:0] (R315). -/
def MEM_Pp_BUDGET_BUDGET : Fld := ⟨0x94008, 0x100, 15, 0⟩
/-- MEM_Pp_STAT[1:0] (R328). -/
def MEM_Pp_STAT_URG : Fld := ⟨0x94010, 0x100, 1, 0⟩
/-- MEM_Pp_STAT[2:2] (R328). -/
def MEM_Pp_STAT_HELD : Fld := ⟨0x94010, 0x100, 2, 2⟩
/-- MEM_Pp_STAT[3:3] (R328). -/
def MEM_Pp_STAT_PROMOTED : Fld := ⟨0x94010, 0x100, 3, 3⟩
/-- MEM_Pp_STAT[15:8] (R328). -/
def MEM_Pp_STAT_PEND : Fld := ⟨0x94010, 0x100, 15, 8⟩
/-- MEM_Pp_STAT[31:16] (R328). -/
def MEM_Pp_STAT_USED : Fld := ⟨0x94010, 0x100, 31, 16⟩
/-- MEM_CHc_STAT[0:0] (R329). -/
def MEM_CHc_STAT_TRAINED : Fld := ⟨0x96000, 0x100, 0, 0⟩
/-- MEM_CHc_STAT[1:1] (R329). -/
def MEM_CHc_STAT_SELFREF : Fld := ⟨0x96000, 0x100, 1, 1⟩
/-- MEM_CHc_STAT[7:4] (R329). -/
def MEM_CHc_STAT_FAILSTEP : Fld := ⟨0x96000, 0x100, 7, 4⟩
/-- MEM_CHc_STAT[15:8] (R329). -/
def MEM_CHc_STAT_VREFDQ : Fld := ⟨0x96000, 0x100, 15, 8⟩
/-- MEM_CHc_STAT[23:16] (R329). -/
def MEM_CHc_STAT_OWED : Fld := ⟨0x96000, 0x100, 23, 16⟩
/-- QUE_CTRL[0:0] (R361). -/
def QUE_CTRL_EN : Fld := ⟨0xA0000, 0x0, 0, 0⟩
/-- QUE_JOURNAL_BASE[19:0] (R342). -/
def QUE_JOURNAL_BASE_BASE : Fld := ⟨0xA0004, 0x0, 19, 0⟩
/-- QUE_MST_RTO[19:0] (R357). -/
def QUE_MST_RTO_RTO : Fld := ⟨0xA0008, 0x0, 19, 0⟩
/-- QUE_MST_FLUSH[15:0] (R355). -/
def QUE_MST_FLUSH_FLUSH : Fld := ⟨0xA000C, 0x0, 15, 0⟩
/-- QUE_STAT[0:0] (R361). -/
def QUE_STAT_RECOVERING : Fld := ⟨0xA0200, 0x0, 0, 0⟩
/-- QUE_STAT[1:1] (R361). -/
def QUE_STAT_UNMIRRORED : Fld := ⟨0xA0200, 0x0, 1, 1⟩
/-- QUE_ACC_CNT[31:0] (R339). -/
def QUE_ACC_CNT : Fld := ⟨0xA0600, 0x4, 31, 0⟩
/-- QUE_CRC_CNT[31:0] (R337). -/
def QUE_CRC_CNT : Fld := ⟨0xA0700, 0x0, 31, 0⟩
/-- QUE_QFULL_CNT[31:0] (R337). -/
def QUE_QFULL_CNT : Fld := ⟨0xA0704, 0x0, 31, 0⟩
/-- QUE_DUP_CNT[31:0] (R337). -/
def QUE_DUP_CNT : Fld := ⟨0xA0708, 0x0, 31, 0⟩
/-- QUE_REPLAY_CNT[31:0] (R344). -/
def QUE_REPLAY_CNT : Fld := ⟨0xA070C, 0x0, 31, 0⟩
/-- QUE_DROP_CNT[31:0] (R349). -/
def QUE_DROP_CNT : Fld := ⟨0xA0710, 0x0, 31, 0⟩
/-- QUE_RETX_CNT[31:0] (R357). -/
def QUE_RETX_CNT : Fld := ⟨0xA0714, 0x0, 31, 0⟩
/-- QUE_UNMIR_CNT[31:0] (R346). -/
def QUE_UNMIR_CNT : Fld := ⟨0xA0718, 0x0, 31, 0⟩
/-- QUE_NOTPERM_CNT[31:0] (R337). -/
def QUE_NOTPERM_CNT : Fld := ⟨0xA071C, 0x0, 31, 0⟩
/-- QUE_Qq_BASE[14:0] (R330). -/
def QUE_Qq_BASE_BASE : Fld := ⟨0xA4000, 0x100, 14, 0⟩
/-- QUE_Qq_SIZE[10:0] (R330). -/
def QUE_Qq_SIZE_SIZE : Fld := ⟨0xA4004, 0x100, 10, 0⟩
/-- QUE_Qq_QUOTA[10:0] (R348). -/
def QUE_Qq_QUOTA_QUOTA : Fld := ⟨0xA4008, 0x100, 10, 0⟩
/-- QUE_Qq_HEAD[9:0] (R362). -/
def QUE_Qq_HEAD_HEAD : Fld := ⟨0xA400C, 0x100, 9, 0⟩
/-- QUE_Qq_TAIL[9:0] (R362). -/
def QUE_Qq_TAIL_TAIL : Fld := ⟨0xA4010, 0x100, 9, 0⟩
/-- QUE_Qq_DOORBELL[0:0] (R336). -/
def QUE_Qq_DOORBELL_SUBMIT : Fld := ⟨0xA4014, 0x100, 0, 0⟩
/-- QUE_Qq_ACC_SEQ[30:0] (R339). -/
def QUE_Qq_ACC_SEQ_SEQ : Fld := ⟨0xA4018, 0x100, 30, 0⟩
/-- QUE_Qq_STAT[10:0] (R362). -/
def QUE_Qq_STAT_OCC : Fld := ⟨0xA401C, 0x100, 10, 0⟩
/-- QUE_Qq_STAT[14:12] (R362). -/
def QUE_Qq_STAT_RESULT : Fld := ⟨0xA401C, 0x100, 14, 12⟩
/-- QUE_Qq_STAT[16:16] (R362). -/
def QUE_Qq_STAT_SUBBUSY : Fld := ⟨0xA401C, 0x100, 16, 16⟩
/-- QUE_Qq_STAT[17:17] (R362). -/
def QUE_Qq_STAT_OVERQUOTA : Fld := ⟨0xA401C, 0x100, 17, 17⟩
/-- QUE_Qq_STAT[18:18] (R362). -/
def QUE_Qq_STAT_DONEERR : Fld := ⟨0xA401C, 0x100, 18, 18⟩
/-- QUE_Qq_STAT[19:19] (R362). -/
def QUE_Qq_STAT_STALLED : Fld := ⟨0xA401C, 0x100, 19, 19⟩
/-- QUE_Qq_STAT[20:20] (R362). -/
def QUE_Qq_STAT_RETAINFULL : Fld := ⟨0xA401C, 0x100, 20, 20⟩
/-- QUE_Qq_STAT[21:21] (R362). -/
def QUE_Qq_STAT_UNMIRRORED : Fld := ⟨0xA401C, 0x100, 21, 21⟩
/-- QUE_Qq_CFG[1:0] (R331, R353). -/
def QUE_Qq_CFG_CONS : Fld := ⟨0xA4020, 0x100, 1, 0⟩
/-- QUE_Qq_CFG[2:2] (R331, R353). -/
def QUE_Qq_CFG_MIRPAY : Fld := ⟨0xA4020, 0x100, 2, 2⟩
/-- QUE_Qq_CFG[14:8] (R331, R353). -/
def QUE_Qq_CFG_RECSZ : Fld := ⟨0xA4020, 0x100, 14, 8⟩
/-- QUE_Qq_CFG[31:16] (R331, R353). -/
def QUE_Qq_CFG_STREAM : Fld := ⟨0xA4020, 0x100, 31, 16⟩
/-- QUE_Qq_CMP_SEQ[30:0] (R341). -/
def QUE_Qq_CMP_SEQ_SEQ : Fld := ⟨0xA4024, 0x100, 30, 0⟩
/-- QUE_Qq_TAKEN_SEQ[30:0] (R362). -/
def QUE_Qq_TAKEN_SEQ_SEQ : Fld := ⟨0xA4028, 0x100, 30, 0⟩
/-- QUE_Qq_DONE[30:0] (R340). -/
def QUE_Qq_DONE_SEQ : Fld := ⟨0xA402C, 0x100, 30, 0⟩
/-- QUE_Qq_DUPSEQ[30:0] (R337). -/
def QUE_Qq_DUPSEQ_SEQ : Fld := ⟨0xA4030, 0x100, 30, 0⟩
/-- QUE_Qq_SUB[31:0] (R336). -/
def QUE_Qq_SUB_WORD : Fld := ⟨0xA4040, 0x100, 31, 0⟩
/-- QUE_Qq_RD[31:0] (R340). -/
def QUE_Qq_RD_WORD : Fld := ⟨0xA4080, 0x100, 31, 0⟩
/-- CRU_CTRL[0:0] (R378). -/
def CRU_CTRL_EN : Fld := ⟨0xB0000, 0x0, 0, 0⟩
/-- CRU_LEVEL[3:0] (R378). -/
def CRU_LEVEL_LEVEL : Fld := ⟨0xB0004, 0x0, 3, 0⟩
/-- CRU_CTXBASE[19:0] (R378). -/
def CRU_CTXBASE_BASE : Fld := ⟨0xB0008, 0x0, 19, 0⟩
/-- CRU_STAT[0:0] (R378). -/
def CRU_STAT_CBUSY : Fld := ⟨0xB0200, 0x0, 0, 0⟩
/-- CRU_STAT[1:1] (R378). -/
def CRU_STAT_DBUSY : Fld := ⟨0xB0200, 0x0, 1, 1⟩
/-- CRU_STAT[6:4] (R378). -/
def CRU_STAT_CQ : Fld := ⟨0xB0200, 0x0, 6, 4⟩
/-- CRU_STAT[10:8] (R378). -/
def CRU_STAT_DQ : Fld := ⟨0xB0200, 0x0, 10, 8⟩
/-- CRU_STAT[16:16] (R378). -/
def CRU_STAT_WAITSTREAM : Fld := ⟨0xB0200, 0x0, 16, 16⟩
/-- CRU_ERR[2:0] (R378). -/
def CRU_ERR_CODE : Fld := ⟨0xB0204, 0x0, 2, 0⟩
/-- CRU_ERR[10:8] (R378). -/
def CRU_ERR_QUEUE : Fld := ⟨0xB0204, 0x0, 10, 8⟩
/-- CRU_ERR_SEQ[31:0] (R378). -/
def CRU_ERR_SEQ_SEQ : Fld := ⟨0xB0208, 0x0, 31, 0⟩
/-- CRU_ERR_POS[31:0] (R378). -/
def CRU_ERR_POS_POS : Fld := ⟨0xB020C, 0x0, 31, 0⟩
/-- CRU_CJOB_CNT[31:0] (R379). -/
def CRU_CJOB_CNT : Fld := ⟨0xB0600, 0x0, 31, 0⟩
/-- CRU_DJOB_CNT[31:0] (R379). -/
def CRU_DJOB_CNT : Fld := ⟨0xB0604, 0x0, 31, 0⟩
/-- CRU_CIN_KIB[31:0] (R379). -/
def CRU_CIN_KIB : Fld := ⟨0xB0608, 0x0, 31, 0⟩
/-- CRU_COUT_KIB[31:0] (R379). -/
def CRU_COUT_KIB : Fld := ⟨0xB060C, 0x0, 31, 0⟩
/-- CRU_DOUT_KIB[31:0] (R379). -/
def CRU_DOUT_KIB : Fld := ⟨0xB0610, 0x0, 31, 0⟩
/-- CRU_FAULT_CNT[31:0] (R379). -/
def CRU_FAULT_CNT : Fld := ⟨0xB0614, 0x0, 31, 0⟩
/-- NET_CTRL[1:0] (R401). -/
def NET_CTRL_PORT_EN : Fld := ⟨0xC0000, 0x0, 1, 0⟩
/-- NET_CTRL[3:2] (R401). -/
def NET_CTRL_STREAMPORT : Fld := ⟨0xC0000, 0x0, 3, 2⟩
/-- NET_UDP[15:0] (R401). -/
def NET_UDP_LOCAL : Fld := ⟨0xC0004, 0x0, 15, 0⟩
/-- NET_UDP[31:16] (R401). -/
def NET_UDP_DEST : Fld := ⟨0xC0004, 0x0, 31, 16⟩
/-- NET_PTP[1:0] (R385, R401). -/
def NET_PTP_ROLE : Fld := ⟨0xC0008, 0x0, 1, 0⟩
/-- NET_PTP[2:2] (R385, R401). -/
def NET_PTP_ONESTEP : Fld := ⟨0xC0008, 0x0, 2, 2⟩
/-- NET_PTP[3:3] (R385, R401). -/
def NET_PTP_TRANSPORT : Fld := ⟨0xC0008, 0x0, 3, 3⟩
/-- NET_PTP[11:4] (R385, R401). -/
def NET_PTP_DOMAIN : Fld := ⟨0xC0008, 0x0, 11, 4⟩
/-- NET_PTP[12:12] (R385, R401). -/
def NET_PTP_PORT : Fld := ⟨0xC0008, 0x0, 12, 12⟩
/-- NET_PPS[0:0] (R386). -/
def NET_PPS_SRC : Fld := ⟨0xC000C, 0x0, 0, 0⟩
/-- NET_PPS[1:1] (R386). -/
def NET_PPS_IN_EDGE : Fld := ⟨0xC000C, 0x0, 1, 1⟩
/-- NET_PPS[2:2] (R386). -/
def NET_PPS_OUT_EN : Fld := ⟨0xC000C, 0x0, 2, 2⟩
/-- NET_PPS[15:8] (R386). -/
def NET_PPS_OUT_WIDTH : Fld := ⟨0xC000C, 0x0, 15, 8⟩
/-- NET_MGMT[0:0] (R394). -/
def NET_MGMT_EN : Fld := ⟨0xC0010, 0x0, 0, 0⟩
/-- NET_MGMT[15:8] (R394). -/
def NET_MGMT_WINDOW : Fld := ⟨0xC0010, 0x0, 15, 8⟩
/-- NET_SPI_CFG[3:0] (R388). -/
def NET_SPI_CFG_APDUMMY : Fld := ⟨0xC0014, 0x0, 3, 0⟩
/-- NET_BOOTCTL[0:0] (R398). -/
def NET_BOOTCTL_READY : Fld := ⟨0xC0018, 0x0, 0, 0⟩
/-- NET_STAT[1:0] (R401). -/
def NET_STAT_LINK : Fld := ⟨0xC0200, 0x0, 1, 0⟩
/-- NET_STAT[2:2] (R401). -/
def NET_STAT_PTPLOCK : Fld := ⟨0xC0200, 0x0, 2, 2⟩
/-- NET_STAT[3:3] (R401). -/
def NET_STAT_PPSIN_OK : Fld := ⟨0xC0200, 0x0, 3, 3⟩
/-- NET_STAT[4:4] (R401). -/
def NET_STAT_ACTIVEPORT : Fld := ⟨0xC0200, 0x0, 4, 4⟩
/-- NET_STAT[5:5] (R401). -/
def NET_STAT_DBGLOCK : Fld := ⟨0xC0200, 0x0, 5, 5⟩
/-- NET_STAT[6:6] (R401). -/
def NET_STAT_BOOTAUTH : Fld := ⟨0xC0200, 0x0, 6, 6⟩
/-- NET_STAT[7:7] (R401). -/
def NET_STAT_BOOTWAIT : Fld := ⟨0xC0200, 0x0, 7, 7⟩
/-- NET_STAT[8:8] (R401). -/
def NET_STAT_PTPCONF : Fld := ⟨0xC0200, 0x0, 8, 8⟩
/-- NET_SPI_LASTRC[31:0] (R390). -/
def NET_SPI_LASTRC_VALUE : Fld := ⟨0xC0204, 0x0, 31, 0⟩
/-- NET_SPI_STATUS[11:0] (R388, R389). -/
def NET_SPI_STATUS_STATUS : Fld := ⟨0xC0208, 0x0, 11, 0⟩
/-- NET_PPS_DEV_LO[31:0] (R387). -/
def NET_PPS_DEV_LO_DEV : Fld := ⟨0xC020C, 0x0, 31, 0⟩
/-- NET_PPS_DEV_HI[31:0] (R387). -/
def NET_PPS_DEV_HI_DEV : Fld := ⟨0xC0210, 0x0, 31, 0⟩
/-- NET_PPS_SEC_LO[31:0] (R387). -/
def NET_PPS_SEC_LO_SEC : Fld := ⟨0xC0214, 0x0, 31, 0⟩
/-- NET_PPS_SEC_HI[15:0] (R387). -/
def NET_PPS_SEC_HI_SEC : Fld := ⟨0xC0218, 0x0, 15, 0⟩
/-- NET_PPS_NS[29:0] (R387). -/
def NET_PPS_NS_NS : Fld := ⟨0xC021C, 0x0, 29, 0⟩
/-- NET_PTP_OFFSET[31:0] (R401). -/
def NET_PTP_OFFSET_OFFSET : Fld := ⟨0xC0220, 0x0, 31, 0⟩
/-- NET_BOOTREQ[31:0] (R398). -/
def NET_BOOTREQ_OFFSET : Fld := ⟨0xC0224, 0x0, 31, 0⟩
/-- NET_RXDROP_CNT[31:0] (R381). -/
def NET_RXDROP_CNT : Fld := ⟨0xC0600, 0x0, 31, 0⟩
/-- NET_MGMT_OK_CNT[31:0] (R394). -/
def NET_MGMT_OK_CNT : Fld := ⟨0xC0604, 0x0, 31, 0⟩
/-- NET_MGMT_REJ_CNT[31:0] (R394). -/
def NET_MGMT_REJ_CNT : Fld := ⟨0xC0608, 0x0, 31, 0⟩
/-- NET_SPI_ERR_CNT[31:0] (R389). -/
def NET_SPI_ERR_CNT : Fld := ⟨0xC060C, 0x0, 31, 0⟩
/-- NET_PPS_CNT[31:0] (R387). -/
def NET_PPS_CNT : Fld := ⟨0xC0610, 0x0, 31, 0⟩
/-- NET_TXFRM_CNT[31:0] (R401). -/
def NET_TXFRM_CNT : Fld := ⟨0xC0614, 0x4, 31, 0⟩
/-- NET_Pn_MODE[1:0] (R402). -/
def NET_Pn_MODE_SPEED : Fld := ⟨0xC4000, 0x400, 1, 0⟩
/-- NET_Pn_MODE[2:2] (R402). -/
def NET_Pn_MODE_VLAN_EN : Fld := ⟨0xC4000, 0x400, 2, 2⟩
/-- NET_Pn_MODE[3:3] (R402). -/
def NET_Pn_MODE_IPV6 : Fld := ⟨0xC4000, 0x400, 3, 3⟩
/-- NET_Pn_MODE[15:4] (R402). -/
def NET_Pn_MODE_VID : Fld := ⟨0xC4000, 0x400, 15, 4⟩
/-- NET_Pn_MTU[13:0] (R402). -/
def NET_Pn_MTU_MTU : Fld := ⟨0xC4004, 0x400, 13, 0⟩
/-- NET_Pn_MAC_LO[31:0] (R402). -/
def NET_Pn_MAC_LO_MAC : Fld := ⟨0xC4008, 0x400, 31, 0⟩
/-- NET_Pn_MAC_HI[15:0] (R402). -/
def NET_Pn_MAC_HI_MAC : Fld := ⟨0xC400C, 0x400, 15, 0⟩
/-- NET_Pn_DMAC_LO[31:0] (R402). -/
def NET_Pn_DMAC_LO_DMAC : Fld := ⟨0xC4010, 0x400, 31, 0⟩
/-- NET_Pn_DMAC_HI[15:0] (R402). -/
def NET_Pn_DMAC_HI_DMAC : Fld := ⟨0xC4014, 0x400, 15, 0⟩
/-- NET_Pn_IP4[31:0] (R402). -/
def NET_Pn_IP4_ADDR : Fld := ⟨0xC4018, 0x400, 31, 0⟩
/-- NET_Pn_DIP4[31:0] (R402). -/
def NET_Pn_DIP4_ADDR : Fld := ⟨0xC401C, 0x400, 31, 0⟩
/-- NET_Pn_IP6_0[31:0] (R402). -/
def NET_Pn_IP6_0_ADDR : Fld := ⟨0xC4020, 0x400, 31, 0⟩
/-- NET_Pn_IP6_1[31:0] (R402). -/
def NET_Pn_IP6_1_ADDR : Fld := ⟨0xC4024, 0x400, 31, 0⟩
/-- NET_Pn_IP6_2[31:0] (R402). -/
def NET_Pn_IP6_2_ADDR : Fld := ⟨0xC4028, 0x400, 31, 0⟩
/-- NET_Pn_IP6_3[31:0] (R402). -/
def NET_Pn_IP6_3_ADDR : Fld := ⟨0xC402C, 0x400, 31, 0⟩
/-- NET_Pn_DIP6_0[31:0] (R402). -/
def NET_Pn_DIP6_0_ADDR : Fld := ⟨0xC4030, 0x400, 31, 0⟩
/-- NET_Pn_DIP6_1[31:0] (R402). -/
def NET_Pn_DIP6_1_ADDR : Fld := ⟨0xC4034, 0x400, 31, 0⟩
/-- NET_Pn_DIP6_2[31:0] (R402). -/
def NET_Pn_DIP6_2_ADDR : Fld := ⟨0xC4038, 0x400, 31, 0⟩
/-- NET_Pn_DIP6_3[31:0] (R402). -/
def NET_Pn_DIP6_3_ADDR : Fld := ⟨0xC403C, 0x400, 31, 0⟩
/-- NET_Pn_STAT[0:0] (R402). -/
def NET_Pn_STAT_LINK : Fld := ⟨0xC4080, 0x400, 0, 0⟩
/-- NET_Pn_STAT[2:1] (R402). -/
def NET_Pn_STAT_SPEED : Fld := ⟨0xC4080, 0x400, 2, 1⟩
/-- NET_Pn_STAT[3:3] (R402). -/
def NET_Pn_STAT_LOCK : Fld := ⟨0xC4080, 0x400, 3, 3⟩
/-- PWR_CTRL[0:0] (R427). -/
def PWR_CTRL_PREF : Fld := ⟨0xD0000, 0x0, 0, 0⟩
/-- PWR_LEASE[19:0] (R403). -/
def PWR_LEASE_LEASE : Fld := ⟨0xD0004, 0x0, 19, 0⟩
/-- PWR_UV[15:0] (R427). -/
def PWR_UV_UV : Fld := ⟨0xD0008, 0x0, 15, 0⟩
/-- PWR_UV[31:16] (R427). -/
def PWR_UV_DIP : Fld := ⟨0xD0008, 0x0, 31, 16⟩
/-- PWR_SWITCHBACK[0:0] (R414). -/
def PWR_SWITCHBACK_GO : Fld := ⟨0xD000C, 0x0, 0, 0⟩
/-- PWR_SWITCHBACK[1:1] (R414). -/
def PWR_SWITCHBACK_TO : Fld := ⟨0xD000C, 0x0, 1, 1⟩
/-- PWR_UVCFG[7:0] (R427). -/
def PWR_UVCFG_FILT : Fld := ⟨0xD0010, 0x0, 7, 0⟩
/-- PWR_UVCFG[15:8] (R427). -/
def PWR_UVCFG_HYST : Fld := ⟨0xD0010, 0x0, 15, 8⟩
/-- PWR_UVCFG[27:16] (R427). -/
def PWR_UVCFG_OFFT : Fld := ⟨0xD0010, 0x0, 27, 16⟩
/-- PWR_FREQWIN[15:0] (R413). -/
def PWR_FREQWIN_WIN : Fld := ⟨0xD0014, 0x0, 15, 0⟩
/-- PWR_STAT[0:0] (R427). -/
def PWR_STAT_HOLDER : Fld := ⟨0xD0200, 0x0, 0, 0⟩
/-- PWR_STAT[1:1] (R427). -/
def PWR_STAT_A_ON : Fld := ⟨0xD0200, 0x0, 1, 1⟩
/-- PWR_STAT[2:2] (R427). -/
def PWR_STAT_B_ON : Fld := ⟨0xD0200, 0x0, 2, 2⟩
/-- PWR_STAT[3:3] (R427). -/
def PWR_STAT_A_OK : Fld := ⟨0xD0200, 0x0, 3, 3⟩
/-- PWR_STAT[4:4] (R427). -/
def PWR_STAT_B_OK : Fld := ⟨0xD0200, 0x0, 4, 4⟩
/-- PWR_STAT[5:5] (R427). -/
def PWR_STAT_A_QUAL : Fld := ⟨0xD0200, 0x0, 5, 5⟩
/-- PWR_STAT[6:6] (R427). -/
def PWR_STAT_B_QUAL : Fld := ⟨0xD0200, 0x0, 6, 6⟩
/-- PWR_STAT[7:7] (R427). -/
def PWR_STAT_KEPT : Fld := ⟨0xD0200, 0x0, 7, 7⟩
/-- PWR_STAT[8:8] (R427). -/
def PWR_STAT_NOCONF : Fld := ⟨0xD0200, 0x0, 8, 8⟩
/-- PWR_STAT[9:9] (R427). -/
def PWR_STAT_FREQFLT : Fld := ⟨0xD0200, 0x0, 9, 9⟩
/-- PWR_TRANSFER_CNT[31:0] (R410). -/
def PWR_TRANSFER_CNT : Fld := ⟨0xD0600, 0x0, 31, 0⟩
/-- PWR_DIP_CNT[31:0] (R412). -/
def PWR_DIP_CNT : Fld := ⟨0xD0604, 0x0, 31, 0⟩
/-- PWR_SAG_CNT[31:0] (R410). -/
def PWR_SAG_CNT : Fld := ⟨0xD0608, 0x0, 31, 0⟩
/-- PWR_NOCONF_CNT[31:0] (R411). -/
def PWR_NOCONF_CNT : Fld := ⟨0xD060C, 0x0, 31, 0⟩
/-- PWR_MAINS_FREQ[31:0] (R413). -/
def PWR_MAINS_FREQ : Fld := ⟨0xD0610, 0x0, 31, 0⟩
/-- PWR_Ff_VOLT[15:0] (R428). -/
def PWR_Ff_VOLT_MV : Fld := ⟨0xD4000, 0x200, 15, 0⟩
/-- PWR_Ff_DIPMIN[15:0] (R428). -/
def PWR_Ff_DIPMIN_MV : Fld := ⟨0xD4004, 0x200, 15, 0⟩
/-- PWR_Ff_DIPLEN[31:0] (R428). -/
def PWR_Ff_DIPLEN_LEN : Fld := ⟨0xD4008, 0x200, 31, 0⟩
/-- TWN_CTRL[0:0] (R429). -/
def TWN_CTRL_EN : Fld := ⟨0xE0000, 0x0, 0, 0⟩
/-- TWN_LEASE[19:0] (R429). -/
def TWN_LEASE_LEASE : Fld := ⟨0xE0004, 0x0, 19, 0⟩
/-- TWN_SWITCHBACK[0:0] (R426). -/
def TWN_SWITCHBACK_GO : Fld := ⟨0xE0008, 0x0, 0, 0⟩
/-- TWN_PXBASE[19:0] (R429). -/
def TWN_PXBASE_BASE : Fld := ⟨0xE000C, 0x0, 19, 0⟩
/-- TWN_OSWSET[15:0] (R429). -/
def TWN_OSWSET_SET : Fld := ⟨0xE0010, 0x0, 15, 0⟩
/-- TWN_STAT[1:0] (R429). -/
def TWN_STAT_ROLE : Fld := ⟨0xE0200, 0x0, 1, 0⟩
/-- TWN_STAT[2:2] (R429). -/
def TWN_STAT_LINK_OK : Fld := ⟨0xE0200, 0x0, 2, 2⟩
/-- TWN_STAT[3:3] (R429). -/
def TWN_STAT_LINE_OK : Fld := ⟨0xE0200, 0x0, 3, 3⟩
/-- TWN_STAT[4:4] (R429). -/
def TWN_STAT_SYNCED : Fld := ⟨0xE0200, 0x0, 4, 4⟩
/-- TWN_STAT[5:5] (R429). -/
def TWN_STAT_ELIGIBLE : Fld := ⟨0xE0200, 0x0, 5, 5⟩
/-- TWN_STAT[6:6] (R429). -/
def TWN_STAT_SUPERSEDED : Fld := ⟨0xE0200, 0x0, 6, 6⟩
/-- TWN_STAT[7:7] (R429). -/
def TWN_STAT_UNMIRRORED : Fld := ⟨0xE0200, 0x0, 7, 7⟩
/-- TWN_STAT[8:8] (R429). -/
def TWN_STAT_CKSTALE : Fld := ⟨0xE0200, 0x0, 8, 8⟩
/-- TWN_STAT[9:9] (R429). -/
def TWN_STAT_SKEW : Fld := ⟨0xE0200, 0x0, 9, 9⟩
/-- TWN_STAT[10:10] (R429). -/
def TWN_STAT_ROLECONF : Fld := ⟨0xE0200, 0x0, 10, 10⟩
/-- TWN_STAT[11:11] (R429). -/
def TWN_STAT_HALFLINK : Fld := ⟨0xE0200, 0x0, 11, 11⟩
/-- TWN_STAT[12:12] (R429). -/
def TWN_STAT_SBPEND : Fld := ⟨0xE0200, 0x0, 12, 12⟩
/-- TWN_EPOCH[31:0] (R406). -/
def TWN_EPOCH_EPOCH : Fld := ⟨0xE0204, 0x0, 31, 0⟩
/-- TWN_TAKEOVER_CNT[31:0] (R422). -/
def TWN_TAKEOVER_CNT : Fld := ⟨0xE0600, 0x0, 31, 0⟩
/-- TWN_CKPT_CNT[31:0] (R421). -/
def TWN_CKPT_CNT : Fld := ⟨0xE0604, 0x0, 31, 0⟩
/-- TWN_LINKLOSS_CNT[31:0] (R419). -/
def TWN_LINKLOSS_CNT : Fld := ⟨0xE0608, 0x0, 31, 0⟩
/-- TWN_LINELOSS_CNT[31:0] (R419). -/
def TWN_LINELOSS_CNT : Fld := ⟨0xE060C, 0x0, 31, 0⟩
/-- TWN_SUPERSEDE_CNT[31:0] (R425). -/
def TWN_SUPERSEDE_CNT : Fld := ⟨0xE0610, 0x0, 31, 0⟩
/-- TWN_LASTGAP[31:0] (R422). -/
def TWN_LASTGAP : Fld := ⟨0xE0614, 0x0, 31, 0⟩
/-- TWN_Ln_CKBLK[31:0] (R430). -/
def TWN_Ln_CKBLK_BLK : Fld := ⟨0xE4000, 0x200, 31, 0⟩
/-- TWN_Ln_RESUME[31:0] (R430). -/
def TWN_Ln_RESUME_BLK : Fld := ⟨0xE4004, 0x200, 31, 0⟩
/-- TST_DRAMLAT[11:0] (R456). -/
def TST_DRAMLAT_PORTS : Fld := ⟨0xF0000, 0x0, 11, 0⟩
/-- TST_DRAMLAT[31:16] (R456). -/
def TST_DRAMLAT_EXTRA : Fld := ⟨0xF0000, 0x0, 31, 16⟩
/-- TST_QBP[5:0] (R456). -/
def TST_QBP_QUEUE : Fld := ⟨0xF0004, 0x0, 5, 0⟩
/-- TST_QBP[8:8] (R456). -/
def TST_QBP_EN : Fld := ⟨0xF0004, 0x0, 8, 8⟩
/-- TST_LEASESKEW[0:0] (R456). -/
def TST_LEASESKEW_INST : Fld := ⟨0xF0008, 0x0, 0, 0⟩
/-- TST_LEASESKEW[31:16] (R456). -/
def TST_LEASESKEW_PPM : Fld := ⟨0xF0008, 0x0, 31, 16⟩
/-- TST_HBDELAY[1:0] (R456). -/
def TST_HBDELAY_PATH : Fld := ⟨0xF000C, 0x0, 1, 0⟩
/-- TST_HBDELAY[31:8] (R456). -/
def TST_HBDELAY_DELAY : Fld := ⟨0xF000C, 0x0, 31, 8⟩
/-- TST_BLDROP[1:0] (R456). -/
def TST_BLDROP_LANES : Fld := ⟨0xF0010, 0x0, 1, 0⟩
/-- TST_BLDROP[11:8] (R456). -/
def TST_BLDROP_RATE : Fld := ⟨0xF0010, 0x0, 11, 8⟩
/-- TST_SLICE[3:0] (R456). -/
def TST_SLICE_CH : Fld := ⟨0xF0014, 0x0, 3, 0⟩
/-- TST_SLICE[5:4] (R456). -/
def TST_SLICE_SLICE : Fld := ⟨0xF0014, 0x0, 5, 4⟩
/-- TST_SLICE[7:6] (R456). -/
def TST_SLICE_KIND : Fld := ⟨0xF0014, 0x0, 7, 6⟩
/-- TST_SLICE[11:8] (R456). -/
def TST_SLICE_BIT : Fld := ⟨0xF0014, 0x0, 11, 8⟩
/-- TST_ECC[2:0] (R456). -/
def TST_ECC_TARGET : Fld := ⟨0xF0018, 0x0, 2, 0⟩
/-- TST_ECC[3:3] (R456). -/
def TST_ECC_DOUBLE : Fld := ⟨0xF0018, 0x0, 3, 3⟩
/-- TST_ECC[4:4] (R456). -/
def TST_ECC_GO : Fld := ⟨0xF0018, 0x0, 4, 4⟩
/-- TST_ECCADDR[31:0] (R456). -/
def TST_ECCADDR_ADDR : Fld := ⟨0xF001C, 0x0, 31, 0⟩
/-- TST_DUMMY[7:0] (R456, R457). -/
def TST_DUMMY_LANES : Fld := ⟨0xF0020, 0x0, 7, 0⟩
/-- TST_EMITFLT[2:0] (R456, R457). -/
def TST_EMITFLT_LANE : Fld := ⟨0xF0024, 0x0, 2, 0⟩
/-- TST_EMITFLT[3:3] (R456, R457). -/
def TST_EMITFLT_STRING : Fld := ⟨0xF0024, 0x0, 3, 3⟩
/-- TST_EMITFLT[6:4] (R456, R457). -/
def TST_EMITFLT_KIND : Fld := ⟨0xF0024, 0x0, 6, 4⟩
/-- TST_STAT[9:0] (R455). -/
def TST_STAT_ACTIVE : Fld := ⟨0xF0200, 0x0, 9, 0⟩

end Fld

end Sys2Proof.Machine
end

