-- ==== Sys2Proof/Config.lean ====
section
/-!
DEFINITION. What the spec leaves to an implementation and the values it leaves open: uninterpreted constants, of which nothing can be proved (assumption 3).
Points that the spec leaves open or that are read from it by inference: DESIGN CHOICE 3 of the assumption log.
-/

namespace Sys2Proof.Config

/-- A fresh value that the spec leaves open, by how many have been drawn before it. -/
opaque freeValue : Nat → Nat

/-- The fused factory SCALE of a receive channel (R123, R135). -/
opaque factoryScale : Nat → Nat

/-- The fused factory ratio K_TONE (R135). -/
opaque toneRatio : Rat

/-- The words of AUX_CALF held in fuses: the factory factors (R295). -/
opaque auxFactory : Nat → Word

/-- Whether an entry of the NCO's sine and cosine table is its value rounded down (even) or up (odd), which no rule gives (R145). -/
opaque ncoRound : Nat → Nat

/-- The taps of the linear-phase set's stages held in ROM, in Q1.17, of the first half of each stage, which the second mirrors (R147). -/
opaque halfBandTap : Nat → Nat → Int

/-- The taps of the minimum-phase set's stages held in ROM, in Q1.17 (R149). -/
opaque minPhaseTap : Nat → Nat → Int

/-- Bin `k` of the spectrum that Hearth derives from a chirp table, the NCO word and the chirp length before it is scaled: real and imaginary part. Its low-pass filter and
resampling are not given (R152, R454). -/
opaque legacyBin : List Nat → Nat → Nat → Nat → Int × Int

/-- Whether a scaled part of a derived bin is rounded away from zero (odd) or toward it (even), which no rule gives (R454). -/
opaque legacyRound : Nat → Nat

/-- The distance of the `k`-th earlier position that Crucible's match search examines at an input position, by what lies before it, newest first, and from it on (R368). -/
opaque matchCandidate : Nat → List Byte → List Byte → Nat

/-- A count that no rule fixes in the completion record of a job that ends OUTFULL or MEMERR, by which count it is, the job's operands, its history and its input
(R369, R375, R377). -/
opaque jobCount : Nat → List Nat → List Byte → List Byte → Nat

/-- Crucible's code lengths for the dynamic encoding of one block, as the bits of the block's header, by level, history and block (R369). -/
opaque deflateLengths : Nat → List Byte → List Byte → List Bool

/-- The manufacturer code of the device's BSDL description (R399). -/
opaque bsdlCode : Nat

/-- Field `k` of the 64-byte checkpoint state of a point, whose layout no rule gives (R421, R422). -/
opaque ckptField : Nat → List Byte → Int

end Sys2Proof.Config
end

