-- ==== Sys2Proof/Machine/State.lean ====
section
/-!
DEFINITION. The state of the device as plain data.
Registers live in one store keyed by control-bus address; what the spec gives the machine beside its registers (tables, memories, queues, timers and
work in progress) stands in one structure for each subsystem. INVENTORY.md, under State, lists every piece with its rule and reset value.
Points that the spec leaves open or that are read from it by inference: DESIGN CHOICE 5, 6, 10 of the assumption log.
-/

namespace Sys2Proof.Machine

/-- The ordering variants of R2, chosen by fuses. -/
inductive Variant where
  | mq850 | mq450 | mq250
deriving DecidableEq, Repr

/-- What fuses fix (R2, R4, R393, R396, R400, R402, R420) and what the board installs (R301). -/
structure Fixed where
  variant : Variant
  /-- SYS_ID[7:0], R4. -/
  rev : Nat
  /-- DBGLOCK fuse, R400. -/
  dbgLock : Bool
  /-- BOOTAUTH fuse, R397. -/
  bootAuth : Bool
  /-- The ports' own MAC addresses, R402. -/
  mac0 : Nat
  mac1 : Nat
  /-- Fused serial, R420. -/
  serial : Nat
  /-- The 256-bit management and image key, R393. -/
  key : List Byte
  /-- Installed DRAM in bytes, and whether the parts fitted are ×16 and stand in two ranks, R301. -/
  dram : Nat
  wide : Bool
  twoRanks : Bool
deriving DecidableEq, Repr

/-- Where the device stands between no power and running (R24, R25, R459 to R471). -/
inductive Power where
  /-- VAON is absent. -/
  | off
  /-- The always-on domain waits for a feed above UV (R409). -/
  | feedWait
  /-- PWR_EN is high and the device is held in cold reset (R460). -/
  | cold
  /-- The straps are sampled and the divided clocks wait for PLL lock (R24). -/
  | pll
  /-- The clocks run. -/
  | run
  /-- The reset domain is held by a warm or watchdog reset (R468). -/
  | hold
  /-- The divided clocks are held after a clock failure (R25). -/
  | clkFail
  /-- Hibernate: only the always-on domain has power (R470). -/
  | hib
deriving DecidableEq, Repr

/-- An open guarded pair (R443). -/
structure Guard where
  src : Source
  addr : Nat
  val : Word
  openAt : Nat
deriving DecidableEq, Repr

/-- A write of another source that waits for an open pair, or the writes of one management frame that wait together (R391, R393). -/
structure HeldWrite where
  src : Source
  words : List (Nat × Word)
  since : Nat
deriving DecidableEq, Repr

/-- A write of one word that fell on a PCLK edge: its source and register, and what the register held in force and staged before it (R479). -/
structure EdgeWrite where
  src : Source
  addr : Nat
  live : Word
  staged : Word
deriving DecidableEq, Repr

/-- What has met on one PCLK edge: writes of registers, latest first, and bits that hardware has set, by register (R479). -/
structure Edge where
  tick : Nat
  wrote : List EdgeWrite
  sets : List (Nat × Nat)
deriving DecidableEq, Repr

/-- The register store: values in force by scope, staged copies, pending copies and snapshot copies (R434 to R437, R450). A key is the control-bus
address, plus 2^20 times one more than a lane's number for the copy of a window-wide register that this lane works from (R436), plus 2^20 times
nine more than an engine's number for an engine's copy (R213). -/
structure Regs where
  live : List (Nat × Word)
  staged : List (Nat × Word)
  /-- The pending copies: what the latest commit of each window named. -/
  pending : List (Nat × Word)
  /-- (window, unit) pairs that have not yet taken the pending copy. -/
  wait : List (Nat × Nat)
  /-- Holding copies of the live counters, by address of the live counter. -/
  snap : List (Nat × Word)
  /-- The latest PCLK edge on which accesses could meet (R479). -/
  edge : Edge
deriving DecidableEq, Repr

/-- The level of an output pin (R490). -/
inductive Level where
  | low | high | highZ
deriving DecidableEq, Repr

/-- What the SYS window's mechanisms remember beside their registers. -/
structure Sys where
  power : Power
  /-- The device time at which the present cold reset, hold or power state began. -/
  powerAt : Nat
  /-- PLL lock, for SYS_UPTIME (R458). -/
  lockAt : Nat
  /-- Device time is the wall clock less this (R26, R420). -/
  timeBase : Int
  /-- A commit has been written since cold reset, after which LEGACY no longer moves (R41), and Hearth has derived its filters at a legacy commit (R454). -/
  committed : Bool
  derived : Bool
  guards : List Guard
  held : List HeldWrite
  /-- A covered value changed during the present CRC pass (R447). -/
  passDirty : Bool
  /-- Consecutive mismatching passes (R447). -/
  mismatches : Nat
  /-- A mismatch is declared, and commits are frozen until it clears (R447, R448). -/
  declared : Bool
  froze : Bool
  /-- A CRC hold is in force, since this moment (R448). -/
  hold : Option Nat
  /-- SYS_UPTIME_HI as the latest read of SYS_UPTIME_LO latched it (R458). -/
  uptimeHi : Option Word
  /-- Hearth runs (R37, R468). -/
  hearth : Bool
  hearthRestarts : Nat
  /-- Hearth's latest watchdog refresh, when the watchdog is armed (R38). -/
  wdog : Option Nat
  /-- Duties deferred while Hearth restarts, in due order (R36): the command's code and its unit. -/
  deferred : List (Nat × Nat)
  /-- INTLK_N as filtered is high (R94). -/
  intlkOk : Bool
  /-- The straps sampled at the latest cold reset (R462). -/
  straps : Nat
  /-- QUENCH_N is driven low by reset, PLL or boot failure (R92, R397). -/
  quenchPin : Bool
  /-- The instruction in the test port, and the boundary register: the levels that SAMPLE or EXTEST captured at the output pins (R399). -/
  tap : TapInstr
  boundary : List (Option Level)
  /-- A bit flip armed by TST_ECC for the next write of its target: target, double, address (R456). -/
  eccArm : Option (Nat × Bool × Nat)
  /-- Words of memories that hold an injected error: target, double, address (R456). -/
  eccBad : List (Nat × Bool × Nat)
  /-- Since when all four rails that the reset detectors judge have been within tolerance (R460, R485). -/
  railsAt : Nat
  /-- Entry into hibernate is under way: when its second step falls due, and whether WAKE is high then (R470). -/
  hibDue : Option (Nat × Bool)
deriving DecidableEq, Repr

/-- The boot of R463 to R465 and R395 to R398. -/
structure Boot where
  /-- The configuration lists buffered from the image: address and value (R464). -/
  lists : List (Nat × Nat)
  /-- The memory loads with DRAM destinations, read again at APPLY. -/
  loads : List (Nat × List Byte)
  /-- The image as far as the SPI host has staged it (R398). -/
  stream : List Byte
  /-- The staging window of R398. -/
  stage : List (Nat × Word)
  /-- Hearth's image is in supervisor SRAM. -/
  loaded : Bool
  /-- A write of NET_BOOTCTL.READY has declared the chunk asked for (R398). -/
  ready : Bool
  /-- The code in supervisor SRAM: destination and bytes of each type-1 section (R396). -/
  code : List (Nat × List Byte)
  /-- Where the image under way begins in flash, and the read commands sent to the flash port, latest first: command and flash offset (R395). -/
  flashAt : Nat
  reads : List (Nat × Nat)
deriving DecidableEq, Repr

/-- Who submits a descriptor (R331, R338). -/
inductive Producer where
  | host
  | engine (e : Nat)
  | wick (n : Nat)
  | device
  /-- A management SUBMIT: the port it came on, the addresses its response goes to, and its counter (R393, R394). -/
  | mgmt (port smac sip sport ctr : Nat)
deriving DecidableEq, Repr

/-- An accepted and uncompleted descriptor: its sequence and 64-byte image, whether a consumer has taken it, whether it is done, and the record
numbers of its stream, and whether its records are not sent (R339 to R341, R347, R353, R505). -/
structure Entry where
  seq : Nat
  img : List Byte
  taken : Bool
  done : Bool
  rec0 : Nat
  nrec : Nat
  /-- Device time of its acceptance, when its records became available (R355). -/
  at_ : Nat
  skip : Bool
deriving DecidableEq, Repr

/-- A submission that has passed its checks and waits for its journal writes and the mirror (R339). -/
structure Inflight where
  prod : Producer
  seq : Nat
  img : List Byte
  /-- The PCLK edge on which it came (R338). -/
  edge : Nat
deriving DecidableEq, Repr

/-- A retained MST frame (R357). -/
structure MstFrame where
  seq : Nat
  bytes : List Byte
  rec0 : Nat
  nrec : Nat
  /-- Device time of the last timed transmission. -/
  sentAt : Nat
  timeouts : Nat
  acked : Bool
  /-- The one retransmission on an ACK's gap has been made. -/
  gapSent : Bool
deriving DecidableEq, Repr

/-- The stream of one NET-consumed queue (R353 to R360, R505). -/
structure Stream where
  /-- Sequence of the next frame. -/
  next : Nat
  /-- The next record to place in a frame. -/
  nextRec : Nat
  /-- The next frame is frame 0 of a SYNC. -/
  sync : Bool
  /-- The first frame 0 since a cold power-up has not been sent. -/
  cold : Bool
  frames : List MstFrame
  /-- A payload that NET could not read: its sequence (R505). -/
  unread : Option Nat
deriving DecidableEq, Repr

/-- One queue beside its registers. -/
structure Queue where
  entries : List Entry
  inflight : List Inflight
  /-- Job id and sequence of the descriptors accepted, newest first (R337). -/
  hist : List (Nat × Nat)
  rseqNext : Nat
  stream : Stream
deriving DecidableEq, Repr

/-- A frame on the wire, for what the device has transmitted: port, class, destination and payload. -/
structure TxFrame where
  port : Nat
  cls : Nat
  dmac : Nat
  dip : Nat
  dport : Nat
  /-- VID and PCP when VLAN_EN is set (R381). -/
  vlan : Option (Nat × Nat)
  body : List Byte
deriving DecidableEq, Repr

/-- The queues and their delivery. -/
structure Que where
  q : Vector Queue 64
  /-- Reports that Hearth holds for Q60, Q61 and Q62, oldest first (R349). -/
  reports : List (Nat × List Byte)
  /-- Submissions that wait for the rebuild of a warm reset, oldest first: queue, producer and image (R344). -/
  waiting : List (Nat × Producer × List Byte)
  /-- Submissions of management frames that lost their turn to one of the same PCLK edge and are still to be answered: producer, result and the sequence of an original
  (R338, R394). -/
  turned : List (Producer × Nat × Nat)
  /-- Since when acceptance waits for the lost link (R34). -/
  linkLostAt : Option Nat
  /-- Acceptance is unmirrored (R34, R346). -/
  unmirrored : Bool
deriving DecidableEq, Repr

/-- A feed of the always-on domain (R408 to R413). -/
structure Feed where
  /-- The latest sample in millivolts. -/
  mv : Nat
  /-- Consecutive samples above UV + HYST. -/
  okRun : Nat
  /-- Since when the feed has been OK. -/
  okSince : Option Nat
  qualified : Bool
  /-- Consecutive samples of the holder below UV. -/
  lowRun : Nat
  /-- Consecutive samples below DIP, and above DIP + HYST while in a dip. -/
  dipRun : Nat
  dipEnd : Nat
  inDip : Bool
  dipMin : Nat
  dipLen : Nat
  /-- The gate this unit drives, and the level that its ball reads (R407, R411, R427). -/
  gate : Bool
  ball : Bool
deriving DecidableEq, Repr

/-- A release of the feed lease under way (R411). -/
structure FeedRelease where
  fromB : Bool
  releasedAt : Nat
  /-- No confirmation came within 512 PCLK. -/
  noConf : Bool
deriving DecidableEq, Repr

/-- The feed instance of the Ember lease and the always-on domain (R403 to R414, R472). -/
structure Pwr where
  a : Feed
  b : Feed
  /-- The holder, when a feed has been acquired: true for B. -/
  holder : Option Bool
  pwrEn : Bool
  renewedAt : Nat
  /-- L as the latest renewal carried it (R407). -/
  lease : Nat
  release : Option FeedRelease
  /-- A sag of the holder is in force with the holder kept (R410). -/
  sagKept : Bool
  /-- Copies of PREF and UV in the always-on domain (R472). -/
  pref : Bool
  uv : Nat
  /-- Last accepted management counter (R394). -/
  mgmtCtr : Nat
  /-- Consecutive mains periods outside and inside the window (R413). -/
  freqBad : Nat
  freqGood : Nat
  /-- When the feed gates go low after PWR_EN has fallen for hibernate (R470). -/
  gatesOff : Option Nat
deriving DecidableEq, Repr

/-- The states of an Anvil engine (R198). -/
inductive EngState where
  | halted | running | waiting | error
deriving DecidableEq, Repr

/-- A DMA channel (R209 to R212, ANV_En_DMAc of R224). -/
structure Dma where
  busy : Bool
  done : Bool
  reclaimed : Bool
  err : Bool
  code : Nat
  /-- Rows still to move. -/
  rows : Nat
  daddr : Nat
  maddr : Nat
  len : Nat
  /-- DIR: DMEM to DRAM. -/
  out : Bool
  tile : Bool
  dstride : Int
  mstride : Int
  lane : Nat
  block : Nat
deriving DecidableEq, Repr

/-- What an engine's instruction waits for outside the engine (R220, R251). -/
inductive EngWait where
  | none
  /-- A POST to queue `q` waits for acceptance; its result goes to scalar register `rd`. -/
  | post (q rd : Nat)
  /-- A WAIT waits for an event of the mask; its number goes to scalar register `rd`. -/
  | event (mask rd : Nat)
  /-- A DMAST, DMAWT or POST has waited for a DMA channel since this device time (R209, R220, R248). -/
  | chan (since : Nat)
deriving DecidableEq, Repr

/-- A REP under way: iterations still to issue and the index of the next one (R201, R250). -/
structure Rep where
  left : Nat
  idx : Nat
deriving DecidableEq, Repr

/-- Where the first accumulator overflow since AOV was clear fell (R207). -/
structure AovIdx where
  iter : Nat
  lane : Nat
  acc : Nat
  inRep : Bool
  valid : Bool
deriving DecidableEq, Repr

/-- The block-exponent register BEXP (R208). -/
structure Bexp where
  head : Nat
  need : Nat
  scale : Nat
  exp : Nat
deriving DecidableEq, Repr

/-- The sixteen 32-bit lanes of a vector register (R193). -/
abbrev Vec := Vector Word 16

/-- The sixteen 40-bit elements of an accumulator (R193). -/
abbrev Acc := Vector (BitVec 40) 16

/-- The results of one butterfly iteration that wait to be stored: bottom address and row, top address and row, whether one was narrowed out of range, and the least
headroom of its components when BX is set (R208, R244, R245). -/
structure FlyRow where
  bot : Nat
  botRow : List Byte
  top : Nat
  topRow : List Byte
  ov : Bool
  head : Option Nat
deriving DecidableEq, Repr

/-- An Anvil engine: its architectural registers, memories and control (R193 to R224). -/
structure Engine where
  /-- Instruction memory as 32-bit words by word index: instruction k is words 2k and 2k + 1 (R194). -/
  imem : List (Nat × Word)
  /-- Data memory by byte address (R194). -/
  dmem : List (Nat × Byte)
  st : EngState
  /-- ANV_En_CTRL.RUN: a run is in force (R199). -/
  run : Bool
  /-- A halt is requested at the next boundary (R199). -/
  haltReq : Bool
  /-- One instruction was issued by STEP (R224). -/
  stepping : Bool
  pc : Nat
  err : Nat
  errPc : Nat
  evt : BitVec 8
  s : Vector Word 32
  v : Vector Vec 32
  a : Vector Acc 4
  p : Vector Word 8
  m : Vector Word 8
  cb : Vector Word 8
  /-- The cb of each pointer as of its latest update (R205). -/
  cbUsed : Vector Word 8
  cl : Vector Word 8
  pm : Vector Word 8
  k : Vector (BitVec 16) 8
  aov : Bool
  vov : Bool
  dmaErr : Bool
  recl : Bool
  aovIdx : AovIdx
  /-- What the instruction being carried out overflows first, and the tick of the latest overflow with what it was, for a host clear on that tick (R207). -/
  ovNow : Option AovIdx
  overAt : Option (Nat × AovIdx)
  /-- The instruction being carried out has set VOV; the PCLK edge on which bits of ASTAT were last set, and which (R479). -/
  vovNow : Bool
  setOn : Nat × Nat
  bexp : Bexp
  rep : Option Rep
  /-- LOOPCNT (R250). -/
  loop : Nat
  /-- Butterfly results not yet stored, oldest first (R245). -/
  fly : List FlyRow
  /-- Until which tick the stores of the latest butterflies may still be due, and the addresses of their rows (R196, R245). -/
  late : Nat × List Nat
  ckblk : Word
  /-- The high half latched by the last read of TIME_LO (R252). -/
  timeHi : Word
  posSlot : Nat
  posBlk : Nat
  dma : Vector Dma 4
  wait : EngWait
  /-- The binding of the copy in force: lane, EN and CKEN (R213, R224). -/
  bound : Option Nat
  cken : Bool
deriving DecidableEq, Repr

/-- A tachometer input beside its registers (R216 to R219). -/
structure Tach where
  /-- The stamps of the latest edges, newest first, at most PPR + 1 of them. -/
  edges : List Nat
  /-- Edges since the input was last stale. -/
  fresh : Nat
  /-- The ring write of the previous edge was lost. -/
  lost : Bool
  /-- Device time of the last qualified edge, or of reset. -/
  last : Nat
deriving DecidableEq, Repr

/-- An idle DMA channel. -/
def Dma.reset : Dma := ⟨false, false, false, false, 0, 0, 0, 0, 0, false, false, 0, 0, 0, 0⟩

/-- A vector register of zeros. -/
def Vec.zero : Vec := Vector.replicate 16 0

/-- An accumulator of zeros. -/
def Acc.zero : Acc := Vector.replicate 16 0

/-- Engine `e` after cold reset or ANV_En_CTRL.RESET, with memories zero; every register that no rule gives a value holds zero (assumption 5). -/
def Engine.reset (e : Nat) : Engine where
  imem := []
  dmem := []
  st := .halted
  run := false
  haltReq := false
  stepping := false
  pc := 0
  err := 0
  errPc := 0
  evt := 0
  s := Vector.replicate 32 0
  v := Vector.replicate 32 Vec.zero
  a := Vector.replicate 4 Acc.zero
  p := Vector.replicate 8 0
  m := Vector.replicate 8 0
  cb := Vector.replicate 8 0
  cbUsed := Vector.replicate 8 0
  cl := Vector.replicate 8 0
  pm := Vector.replicate 8 0
  k := Vector.replicate 8 0
  aov := false
  vov := false
  dmaErr := false
  recl := false
  aovIdx := ⟨0, 0, 0, false, false⟩
  ovNow := none
  overAt := none
  vovNow := false
  setOn := (0, 0)
  bexp := ⟨15, 2, 0, 0⟩
  rep := none
  loop := 0
  fly := []
  late := (0, [])
  ckblk := 0xFFFFFFFF
  timeHi := 0
  posSlot := 0
  posBlk := 0
  dma := Vector.replicate 4 Dma.reset
  wait := .none
  bound := some e
  cken := false

/-- A tachometer input after reset. -/
def Tach.reset : Tach := ⟨[], 0, false, 0⟩

/-- The states of a lane's emission (R80, R83): `ramp` is string A's ramp toward EMITTING, `ramped` a lane that after a takeover waits for the optical switch (R422). -/
inductive LaneSt where
  | off | check | ramp | ramped | armed | emitting | quenched
deriving DecidableEq, Repr

/-- A request in a cell of the launch matrix, whose release is fixed (R77), with the blanking window and schedule index it carries (R255). -/
structure Cell where
  probe : Nat
  rel : Nat
  blank : Nat
  /-- The schedule index of the latest RANGE before it, with that instruction's issue tick. -/
  range : Option (Nat × Nat)
  /-- How many LAN commits, and how many DDC commits and conversions, had happened when the release was fixed (R75, R159, R162). -/
  lanGen : Nat
  ddcGen : Nat
  /-- The geometry change, counted from one, under whose new geometry the launch is; 0 under the old one (R58). -/
  newGeo : Nat
deriving DecidableEq, Repr

/-- The phases of string B (R65). -/
inductive BoostPhase where
  | keep | lead | pulse | tail
deriving DecidableEq, Repr

/-- A geometry change under way (R58, R60). -/
structure GeoChange where
  /-- The end of the last old frame, once the last old launch is fixed. -/
  pauseEnd : Nat
  /-- The old cycle's launches are complete. -/
  cycleDone : Bool
  /-- The first launch under the new geometry is fixed. -/
  started : Bool
  /-- Which of the lane's geometry changes this is, counted from one. -/
  num : Nat
deriving DecidableEq, Repr

/-- A lane's launch side beside its registers (R62 to R95). -/
structure Lane where
  st : LaneSt
  /-- Device time of entry to the state. -/
  since : Nat
  /-- Consecutive passing samples of the two strings. -/
  passA : Nat
  passB : Nat
  /-- Kinds of the latest failing samples of the two strings under a clear check: 0 none, 1 open, 2 short (R93). -/
  kindA : Nat
  kindB : Nat
  /-- The grid windows whose samples of the two strings have been taken, counted from one; 0 none (R68). -/
  tookA : Nat
  tookB : Nat
  /-- Consecutive windows above CEIL (R73). -/
  monHi : Nat
  monSum : Nat
  monCnt : Nat
  /-- The trim of string B's peak (R72). -/
  trim : Rat
  cells : List Cell
  /-- The latest fixed release of the lane and how long its chirp keeps the DAC busy (R77). -/
  lastRel : Option Nat
  lastDac : Nat
  /-- The probes of the current launch cycle whose releases are fixed, a bit each; a complete cycle starts the next one empty (R58). -/
  cycle : Nat
  /-- The latest stamp of each probe, and the lane's latest stamp. -/
  stamp : Vector (Option Nat) 4
  lastStamp : Option Nat
  boost : BoostPhase
  /-- Pulse edge of the cycle in progress and its end. -/
  edge : Nat
  /-- Active and staged chirp tables, by probe × 4096 + entry (R75). -/
  chirp : List (Nat × BitVec 12)
  chirpStg : List (Nat × BitVec 12)
  /-- Probes whose staged table has changed since its last commit. -/
  tblChanged : Nat
  /-- Probes whose committed table has not switched, and those being copied back. -/
  tblPend : Nat
  tblCopy : List (Nat × Nat)
  geo : Option GeoChange
  /-- Geometry changes begun so far (R58). -/
  geoNum : Nat
  /-- When the decay check of R88 falls due. -/
  decayAt : Option Nat
  /-- Ends of the blanking window of the launching probe (R55). -/
  blankEnd : Option Nat
  /-- The peak that the pulse cycle in progress was started with, in mA (R72, R84). -/
  peak : Nat
  /-- The lead of the next fixed launch has begun, and the edge of a stamped launch whose lead has not (R65). -/
  led : Bool
  pulse : Option Nat
  /-- How many LAN commits there were when the pending tables were committed (R75). -/
  tblGen : Nat
  /-- String B's latest diverted stretch: its start, and its end where it has ended (R65, R68). -/
  divFrom : Nat
  divTo : Option Nat
  /-- The probe whose table the DAC last began to play, and the stamp it plays from (R74). -/
  playing : Option (Nat × Nat)
  /-- How Quench found the lane: its state and since when, the phase of string B and the bounds of its latest diverted stretch (R68, R89). -/
  found : Option (LaneSt × Nat × BoostPhase × Nat × Option Nat)
deriving DecidableEq, Repr

/-- The launch matrix and Quench beside their registers. -/
structure Lantern where
  lane : Vector Lane 8
  /-- The latest release fixed of any lane (R77). -/
  lastRel : Option Nat
  /-- Since when a clear check runs, the lanes it runs on, and the causes that have failed in it (R93). -/
  clearAt : Option Nat
  clearLanes : List Nat
  clearBad : Nat
  /-- The declaring edge of the Quench that is latched and its latch edge, in device time (R89). -/
  latch : Option (Nat × Nat)
  /-- LAN commits so far. -/
  gen : Nat
deriving DecidableEq, Repr

/-- What a waiting Wick sequencer waits for (R256, R258, R261, R262). -/
inductive WckWait where
  | none | wait | align | pps | cell
deriving DecidableEq, Repr

/-- A capture under way (R264). -/
structure Capture where
  src : Nat
  len : Nat
  code : Nat
  action : Nat
  base : Nat
  /-- The sample word's format as the capture's start found it: left-aligned, raw codes (R121, R122). -/
  left : Bool
  raw : Bool
  /-- The output words that the source path has delivered, latest first (R158, R264). -/
  words : List Nat
deriving DecidableEq, Repr

/-- A Wick sequencer beside its registers (R254 to R270). -/
structure Wick where
  prog : List (Nat × Word)
  /-- The tick at which the next instruction issues. -/
  next : Nat
  wait : WckWait
  /-- When a PPS wait began. -/
  ppsFrom : Nat
  /-- Open loops, innermost first: address after the LOOP and passes left after this one. -/
  loops : List (Nat × Nat)
  blank : Nat
  /-- The latest RANGE: index and issue tick. -/
  range : Option (Nat × Nat)
  /-- Triggers ordered: action time and code. -/
  trigs : List (Nat × Nat)
  /-- Tone windows ordered or running, in order, and whether the first is running. -/
  tone : List (Nat × Nat)
  toneOn : Bool
  capture : Option Capture
deriving DecidableEq, Repr

/-- A lane after cold reset (R80, R467). -/
def Lane.reset : Lane where
  st := .off
  since := 0
  passA := 0
  passB := 0
  kindA := 0
  kindB := 0
  tookA := 0
  tookB := 0
  monHi := 0
  monSum := 0
  monCnt := 0
  trim := 1
  cells := []
  lastRel := none
  lastDac := 0
  cycle := 0
  stamp := Vector.replicate 4 none
  lastStamp := none
  boost := .keep
  edge := 0
  chirp := []
  chirpStg := []
  tblChanged := 0
  tblPend := 0
  tblCopy := []
  geo := none
  geoNum := 0
  decayAt := none
  blankEnd := none
  peak := 0
  led := false
  pulse := none
  tblGen := 0
  divFrom := 0
  divTo := some 0
  playing := none
  found := none

/-- A stopped sequencer with program memory zero (R267). -/
def Wick.reset : Wick := ⟨[], 0, .none, 0, [], 0, none, [], [], false, none⟩

/-- What a channel's samples are taken under from device tick `at_` on: the slices in the positions, OFF and GDEV of slices 0 to 2, SCALE, whether the channel is
down, and the range (R98, R116, R119, R139). -/
structure Conv where
  at_ : Nat
  pos0 : Nat
  pos1 : Nat
  off : List Int
  gdev : List Int
  scale : Nat
  down : Bool
  tag : Nat
deriving DecidableEq, Repr

/-- What the first samples after a cold reset are taken under (R113, R116, R142). -/
def Conv.reset : Conv := ⟨0, 0, 1, [0, 0, 0], [0, 0, 0], 32768, false, 0⟩

/-- A receive channel of ORX beside its registers (R96 to R111). -/
structure OrxCh where
  /-- The range of the hysteresis loop (R100). -/
  loop : Nat
  hiRun : Nat
  loRun : Nat
  /-- A decided step: the new range and when it applies (R102). -/
  step : Option (Nat × Nat)
  /-- An overload rise and when it applies (R106). -/
  rise : Option Nat
  /-- The overload offset (R106). -/
  offset : Nat
  /-- The schedule entry in force and the stamp it counts from (R104). -/
  entry : Nat
  from0 : Option Nat
  /-- The issue time of the index in force, an index that a commit has set, for the next stamp, and one of a commit that the lane has not taken, each with its issue
  time (R105, R107). -/
  selAt : Nat
  sel : Option (Nat × Nat)
  selCom : Option (Nat × Nat)
  blanked : Bool
  /-- Consecutive failing and passing common-mode windows (R110). -/
  cmFail : Nat
  cmPass : Nat
deriving DecidableEq, Repr

/-- ORX: its channels and schedule tables by schedule × 64 + entry (R104, R115). -/
structure Orx where
  ch : Vector OrxCh 16
  schedStg : List (Nat × Word)
  schedCom : List (Nat × Word)
  /-- The tables each lane works from. -/
  sched : Vector (List (Nat × Word)) 8
  /-- Lanes that have not taken the committed tables. -/
  schedWait : List Nat
  changed : Bool
deriving DecidableEq, Repr

/-- A receive channel after cold reset. -/
def OrxCh.reset : OrxCh := ⟨0, 0, 0, none, none, 0, 0, none, 0, none, none, false, 0, 0⟩


/-- A slice converter's channel beside its registers (R127 to R140). -/
structure HscCh where
  /-- Device time at which the phase in force, or its ramp step, ends. -/
  due : Nat
  /-- The position that the latest rotation replaced (R131). -/
  last : Option Nat
  /-- Values that the ramp starts from and its targets, by 3 × slice + 0 OFF, 1 GDEV, 2 SKEW; 9 is SCALE (R130). -/
  old : List (Nat × Int)
  tgt : List (Nat × Int)
  len : Nat
  step : Nat
  /-- The targets are fixed and the ramp runs. -/
  ramping : Bool
  /-- A swap follows the ramp (R132). -/
  swap : Bool
  /-- A rotation has come due and waits (R128). -/
  waiting : Bool
  /-- Slices trimmed in the sweep under way (R133). -/
  trimmed : Nat
  /-- The channel has completed or been skipped in the sweep. -/
  swept : Bool
  /-- Tone samples since the last update (R135). -/
  toneN : Nat
  /-- Samples of the tone window under way count from here on (R135). -/
  toneFrom : Nat
  /-- The rotation period in use, in PCLK: HSC_ROT as the end of a rotation found it (R128). -/
  per : Nat
  /-- A TRIM phase that ran when the sweep restarted does not count (R134). -/
  trimOld : Bool
  /-- The latest planned swap: its device time and the position it replaced (R131, R138). -/
  swapped : Option (Nat × Nat)
  /-- The comparisons of the rotation in progress: position 0, position 1. -/
  sh0 : Shadow
  sh1 : Shadow
  /-- The spare's corrections measured for each position, by 3 × position + kind (R138). -/
  meas : List (Nat × Int)
  /-- The slice that was the spare when they were measured. -/
  measBy : Nat
  /-- The end of the running diagnostic, and whether a rotation restarts after it (R137). -/
  diag : Option Nat
  restart : Bool
  /-- The interval signalled to PHX for exclusion (R138). -/
  excl : Option (Nat × Nat)
  /-- The latest sample: raw code, corrected code and range tag (R121, R142). -/
  raw : Int
  cor : Int
  tag : Nat
  /-- What samples were taken under, newest first, as far back as an output, a capture or the tone needs it (R98, R119, R135, R264). -/
  past : List Conv
  /-- The eight corrected samples with their tags that the paths' outputs of one device time share, and that time (R143). -/
  eight : Option (Nat × List (Int × Nat))
deriving DecidableEq, Repr

/-- HSC beside its registers. -/
structure Hsc where
  ch : Vector HscCh 16
  /-- Since when the self-calibration runs (R123). -/
  calSince : Option Nat
  /-- The temperature at which the trim sweep under way started, with offset 64 (R133). -/
  sweepTemp : Nat
  /-- The tag of the newest I_TONE result (R135, R281). -/
  itoneTag : Nat
deriving DecidableEq, Repr

/-- The PTP clock: hundredths of a nanosecond at a moment, and the servo's rate in steps of 2^-32 (R385). -/
structure Ptp where
  base : Int
  since : Nat
  rate : Int
deriving DecidableEq, Repr

/-- An HSC channel after cold reset. -/
def HscCh.reset : HscCh where
  due := 0
  last := none
  old := []
  tgt := []
  len := 256
  step := 0
  ramping := false
  swap := false
  waiting := false
  trimmed := 0
  swept := false
  toneN := 0
  toneFrom := 0
  per := 97656250
  trimOld := false
  swapped := none
  sh0 := Shadow.zero
  sh1 := Shadow.zero
  meas := []
  measBy := 3
  diag := none
  restart := false
  excl := none
  raw := 0
  cor := 0
  tag := 0
  past := []
  eight := none

/-- HSC after cold reset: no I_TONE result yet, which reads as STALE. -/
def Hsc.reset : Hsc := ⟨Vector.replicate 16 HscCh.reset, none, 0, 4⟩

/-- The frame that a sub-band path places its outputs in (R27, R163): group delay in whole samples, points under blanking and the NCO phase. -/
structure DdcFrame where
  stamp : Nat
  gdly : Nat
  blank : Nat
  phref : Nat
  n : Nat
deriving DecidableEq, Repr

/-- An output on its way through the rank filter (R155). -/
structure RankIn where
  i : Int
  q : Int
  sat : Bool
  frame : Option DdcFrame
deriving DecidableEq, Repr

/-- A sub-band path beside its registers (R143 to R163). -/
structure DdcPath where
  run : Bool
  /-- The lane's EN bit as the path has taken it. -/
  en : Bool
  /-- The NCO accumulator at a device time, and the word it advanced by before that time (R145). -/
  phase : Nat
  phaseAt : Nat
  wordWas : Nat
  /-- The filter in force: set, custom delay in Q16.8, taps, rank window (0 off) and its K. -/
  set : Nat
  xg : Nat
  taps : Nat
  win : Nat
  k : Nat
  /-- Outputs still to carry SETTLE, counted from the output due at `settleFrom`; and the count that a change opens with the output due at `nextFrom`. -/
  settle : Nat
  settleFrom : Nat
  next : Nat
  nextFrom : Nat
  /-- Outputs still to carry SAT. -/
  sat : Nat
  /-- Window and K that the rank stage works with, and the window's members, newest first. -/
  rankWin : Nat
  rankK : Nat
  hist : List RankIn
  /-- The inputs that half-band stages 1 to 3 and the matched filter hold, newest first, in LSB of Q20.4, Q20.4, Q20.5 and Q20.6 (R143, R147, R160). -/
  dl1 : List (Int × Int)
  dl2 : List (Int × Int)
  dl3 : List (Int × Int)
  dlm : List (Int × Int)
  /-- Custom coefficients in force, by window offset / 4 (R150, R162). -/
  coef : List (Nat × Word)
  /-- The frame of the latest launch, and the frames before it, newest first (R50, R163). -/
  cur : Option DdcFrame
  prev : List DdcFrame
  /-- The latest output word (R158). -/
  word : Nat
  /-- When the rank stage takes the window and K that the path has taken, before the rank delay (R163). -/
  rankFrom : Nat
  /-- Device time of the latest restart, before which no input enters, and of the path's next output (R151, R160). -/
  from_ : Nat
  out : Nat
deriving DecidableEq, Repr

/-- A launch whose paths have not yet reached their boundary 48 ticks after the stamp (R159). -/
structure DdcDue where
  lane : Nat
  probe : Nat
  stamp : Nat
  blank : Nat
  /-- How many DDC commits and conversions had happened when the release was fixed. -/
  gen : Nat
  /-- The first launch of a new geometry, whose boundary brings every path of the lane its changes (R58, R60). -/
  all_ : Bool
deriving DecidableEq, Repr

/-- DDC beside its registers. -/
structure Ddc where
  /-- Path b of channel c is entry 4c + b. -/
  path : Vector DdcPath 64
  due : List DdcDue
  /-- Commits and completed conversions so far; the latest commit, the conversion that made each waiting filter ready, by path as in `filt`, and the custom set's. -/
  gen : Nat
  commitGen : Nat
  mfGen : List (Nat × Nat)
  custGen : Nat
  /-- Paths, as lane × 4 + probe, that have not taken the committed copy, the converted filter, or the converted custom coefficients. -/
  wait : List Nat
  filt : List Nat
  cust : List Nat
  /-- Conversions under way: lane, or 8 for the custom set, and when it completes (R162). -/
  conv : List (Nat × Nat)
  /-- Spectra by lane × 2,048 + probe × 512 + bin: staged, committed and in force (R152, R162). -/
  specStg : List (Nat × Word)
  specCom : List (Nat × Word)
  spec : List (Nat × Word)
  specChanged : List Nat
  /-- Custom coefficients by window offset / 4: staged and committed (R150, R167). -/
  coefStg : List (Nat × Word)
  coefCom : List (Nat × Word)
  coefChanged : Bool
deriving DecidableEq, Repr

/-- A channel's output at a point: value in LSB of Q24.4 and its flags (R158). -/
structure Sample where
  i : Int
  q : Int
  settle : Bool
  blank : Bool
  sat : Bool
  med : Bool
deriving DecidableEq, Repr

/-- The class of a combined point in one launch (R169). -/
inductive PtClass where
  | void | excluded | missing | faded | good
deriving DecidableEq, Repr

/-- A combined point of a launch (R171). -/
structure Comb where
  re : Rat
  im : Rat
  cls : PtClass
deriving DecidableEq, Repr

/-- The frame of a launch whose phase samples PHX forms (R168). -/
structure PhxFrame where
  stamp : Nat
  probe : Nat
  slot : Nat
  n : Nat
  p : Nat
  g : Nat
  /-- LSB per kelvin in force at the launch (R183). -/
  k : Rat
  gdly : Nat
  /-- Points that receive an output: the frame is shortened when the probe launches again (R50). -/
  limit : Nat
  exX : Bool
  exY : Bool
  /-- The paths of X and Y were stopped at the launch (R144, R169). -/
  stX : Bool
  stY : Bool
  x : List (Nat × Sample)
  y : List (Nat × Sample)
  /-- Combined points not yet used, how many points are combined and the next point to form. -/
  z : List (Nat × Comb)
  combined : Nat
  next : Nat
  /-- The words of the open row, latest first. -/
  row : List Nat
deriving DecidableEq, Repr

/-- Polarisation averages of a point and probe, the reference and the continuity rotation e^(-jγ) up to a positive factor (R170, R171). -/
structure Pol where
  ax : Rat
  ay : Rat
  cre : Rat
  cim : Rat
  seeded : Bool
  refY : Bool
  rotRe : Rat
  rotIm : Rat
deriving DecidableEq, Repr

/-- A point's state (R172, R183, R186). -/
structure Pt where
  ref0 : Bool
  refb : Nat
  phi : Int
  prev : Int
  /-- Probe offsets 1 to 3 with eight fraction bits. -/
  off : Vector Int 4
  fills : Nat
  gap : Nat
  pol : Vector Pol 4
  /-- Baseline of the phase and of the temperature; the last anchored temperature. -/
  base : Option Rat
  tbase : Option Rat
  lastT : Option Rat
  /-- Sums over the next block to close: phi / K, 1 / K and samples; and those of the block after it, whose samples form before that close (R176). -/
  sumPK : Rat
  sumK : Rat
  cnt : Nat
  laterPK : Rat
  laterK : Rat
  laterCnt : Nat
  /-- Sum and count of the combined magnitude in 1/65,536 code (R181). -/
  mag : Nat
  magN : Nat
deriving DecidableEq, Repr

/-- What a block's record tells of its launches: a rebasing change taken in it, channels excluded in any launch, and formed samples (R177, R189). -/
structure BlockAcc where
  rebase : Bool
  exMask : Nat
  formed : Nat
deriving DecidableEq, Repr

/-- A lane's phase side beside its registers. -/
structure PhxLane where
  /-- The slot grid's origin (R175). -/
  grid : Option Nat
  lastStamp : Option Nat
  /-- The next block of the grid to close. -/
  block : Nat
  /-- Slots stamped, and slots with every row written, in blocks not yet closed. -/
  stamped : List Nat
  rows : List Nat
  frames : List PhxFrame
  pts : List (Nat × Pt)
  /-- The block number whose first row has been written (R32). -/
  begun : Option Nat
  /-- The next block to close, and the one after it, whose launches begin before that close (R176). -/
  acc : BlockAcc
  later : BlockAcc
  /-- The block closed before took a rebasing change: the close to come rebases (R177, R186). -/
  rebaseNext : Bool
  /-- The launch to come clears every reference (R177). -/
  clearRefs : Bool
  /-- The DDC commit whose NCO change has cleared the references. -/
  clearGen : Nat
  /-- Anchors: the newest valid temperature, the base, and whether the newest result was kept out (R184 to R186). -/
  tRtd : Option Int
  tRtdBase : Int
  anchored : Bool
  /-- No close has come since the first valid anchor (R186). -/
  fresh : Bool
  /-- The newest block number for which an anchor has been asked for or not (R184). -/
  asked : Option Nat
  kept : Bool
  drift : Rat
  coilOut : Bool
  /-- Probe-0 launches of the evaluation period and consecutive evaluations below and above the break point (R181, R182). -/
  evalN : Nat
  below : Nat
  above : Nat
deriving DecidableEq, Repr

/-- A sub-band path after cold reset (R166, R167). -/
def DdcPath.reset : DdcPath := ⟨true, true, 0, 0, 0, 0, 0x3100, 256, 0, 16, 0, 0, 0, 0, 0, 0, 16, [], [], [], [], [], [], none, [], 0, 0, 0, 8⟩

/-- DDC after cold reset. -/
def Ddc.reset : Ddc where
  path := Vector.replicate 64 DdcPath.reset
  due := []
  gen := 0
  commitGen := 0
  mfGen := []
  custGen := 0
  wait := []
  filt := []
  cust := []
  conv := []
  specStg := []
  specCom := []
  spec := []
  specChanged := []
  coefStg := []
  coefCom := []
  coefChanged := false

/-- Averages not yet seeded (R170). -/
def Pol.reset : Pol := ⟨0, 0, 0, 0, false, false, 1, 0⟩

/-- A point at first use. -/
def Pt.reset : Pt where
  ref0 := false
  refb := 0
  phi := 0
  prev := 0
  off := Vector.replicate 4 0
  fills := 0
  gap := 0
  pol := Vector.replicate 4 Pol.reset
  base := none
  tbase := none
  lastT := none
  sumPK := 0
  sumK := 0
  cnt := 0
  laterPK := 0
  laterK := 0
  laterCnt := 0
  mag := 0
  magN := 0

/-- A lane with no grid. -/
def PhxLane.reset : PhxLane where
  grid := none
  lastStamp := none
  block := 0
  stamped := []
  rows := []
  frames := []
  pts := []
  begun := none
  acc := ⟨false, 0, 0⟩
  later := ⟨false, 0, 0⟩
  rebaseNext := false
  clearRefs := false
  clearGen := 0
  tRtd := none
  tRtdBase := 0
  anchored := false
  fresh := false
  asked := none
  kept := false
  drift := 0
  coilOut := false
  evalN := 0
  below := 0
  above := 0

/-- A frame sent on the Bellows link (R418): 0 HEARTBEAT, 1 STATUS, 2 RELEASE, 3 JOURNAL, 4 CONFIG, 5 CHECKPOINT. Its header's length is that of its body. -/
structure BelFrame where
  kind : Nat
  seq : Nat
  epoch : Nat
  body : List Byte
  /-- TST_BLDROP drops the frame on its way (R456). -/
  lost : Bool
  /-- When it left. -/
  at_ : Nat
deriving DecidableEq, Repr

/-- The twin instance of the Ember lease and the Bellows link beside their registers (R403 to R426). -/
structure Twin where
  /-- TWN_OSW is driven high (R416). -/
  osw : Bool
  /-- The holder's last confirmed renewal (R405); this and the times below are counted on the wall, in ACLK ticks. -/
  renewedAt : Nat
  /-- When the last HEARTBEAT and the last LEASE_OUT pulse fell due (R404, R419). -/
  hbAt : Nat
  pulseAt : Nat
  /-- The last renewal heard on any path, the last Bellows frame and the last LEASE_IN pulse (R406, R419). -/
  heardAt : Nat
  linkAt : Nat
  lineAt : Nat
  /-- L as the latest renewal heard carried it (R407). -/
  lease : Nat
  /-- The end of the pairing listen (R420). -/
  listen : Option Nat
  /-- The last renewal heard before a takeover whose first stamp has not come (R422). -/
  gapFrom : Option Nat
  /-- When TWN_OSW was raised at a takeover whose lanes are not yet EMITTING (R422). -/
  oswAt : Option Nat
  /-- Lock of the two Bellows lanes (R418). -/
  lane0 : Bool
  lane1 : Bool
  /-- Sequence of the next Bellows frame, the frames sent, latest first, and how often frames were sent again (R418). -/
  seq : Nat
  sent : List BelFrame
  tries : List (Nat × Nat)
  /-- Payloads held in full by the mirror: queue and sequence (R347). -/
  payloads : List (Nat × Nat)
  /-- Copies received since the unit became standby: the configuration and the journal (R420). -/
  gotConfig : Bool
  gotJournal : Bool
  /-- The holder has sent the copies that a standby which is not SYNCED needs (R420). -/
  copied : Bool
  /-- Checkpoint shares being received: twice the lane, plus 1 for the engine share; the block; and the bytes received (R421). -/
  ckParts : List (Nat × Nat × Nat)
  /-- Lanes whose engine share of a closed block has not been sent, with the block (R222, R421). -/
  shareWait : List (Nat × Nat)
  /-- Lanes with a stale or overdue checkpoint, with the block at which it was found (R421). -/
  stale : List (Nat × Nat)
  /-- Lanes whose checkpoint a pending switch-back still waits for, with the block known at the write (R426). -/
  sbWait : List (Nat × Nat)
  /-- Lanes whose next checkpoint the holder still owes before mirrored acceptance resumes, with the block known when the link returned (R34). -/
  ckWait : List (Nat × Nat)
  /-- Checkpoint shares whose reads wait until MEM is READY: lane, block, engine share, address and length (R320). -/
  heldShares : List (Nat × Nat × Bool × Nat × Nat)
  /-- The lease has been released and not regained (R404, R424). -/
  released : Bool
  /-- The start of the latest LEASE_OUT pulse, whose level lasts 10 µs (R419). -/
  pulseOn : Option Nat
  /-- A RELEASE that waits for TWN_OSW to read back low, with its epoch and reason (R418, R424). -/
  releaseDue : Option (Nat × Nat)
  /-- Frames acknowledged to the peer, and HEARTBEATs sent since its last STATUS (R418, R420). -/
  acks : Nat
  unanswered : Nat
deriving DecidableEq, Repr

/-- The twin instance after cold reset. -/
def Twin.reset : Twin where
  osw := false
  renewedAt := 0
  hbAt := 0
  pulseAt := 0
  heardAt := 0
  linkAt := 0
  lineAt := 0
  lease := 195313
  listen := none
  gapFrom := none
  oswAt := none
  lane0 := false
  lane1 := false
  seq := 0
  sent := []
  tries := []
  payloads := []
  gotConfig := false
  gotJournal := false
  copied := false
  ckParts := []
  shareWait := []
  stale := []
  sbWait := []
  ckWait := []
  heldShares := []
  released := false
  pulseOn := none
  releaseDue := none
  acks := 0
  unanswered := 0

/-- What the AUX converter pair is doing (R275 to R294): from the disconnection of a source to the writing of its result, or a self-calibration. -/
inductive AuxStage where
  | idle | off | discharge | gap | settle | convert | write | cal
deriving DecidableEq, Repr

/-- The conversion in progress: its source, whether it is injected, and its windows (R276, R279). -/
structure AuxJob where
  src : Nat
  inj : Bool
  nwin : Nat
deriving DecidableEq, Repr

/-- An open window: when it opened, its length in ticks, and for each converter the offset and gain words in force then; `cold` says that REFREADY was clear
(R276, R284, R283). -/
structure AuxWin where
  start : Nat
  len : Nat
  cold : Bool
  off : Word
  gain : Word
deriving DecidableEq, Repr

/-- A pending injection: its source, the PHX lanes it serves, whether the channel was OFF at the request, and whether a commanded calibration waits for it
(R279, R282, R294). -/
structure AuxReq where
  src : Nat
  lanes : Nat
  off : Bool
  precal : Bool
deriving DecidableEq, Repr

/-- A source's latest result: value, tag bits [15:0], how many results have been written, and when (R286). -/
structure AuxSrc where
  val : Int
  tag : Nat
  cnt : Nat
  since : Nat
deriving DecidableEq, Repr

/-- AUX beside its registers (R271 to R300). -/
structure Aux where
  stage : AuxStage
  /-- When the stage ends. -/
  due : Nat
  job : Option AuxJob
  /-- When the source was connected. -/
  conn : Nat
  /-- When the next window opens, windows opened in this attempt, and those still open, oldest first. -/
  nextOpen : Option Nat
  opened : Nat
  wins : List AuxWin
  /-- Corrected codes of the valid windows, fault tags gathered over the windows, REF_COLD, and a window discarded as SETTLE (R284, R286, R290). -/
  codes : List Int
  faults : Nat
  cold : Bool
  spoiled : Bool
  /-- The declared VREFX and RREFX when the latest window opened (R284). -/
  vref : Nat
  rref : Nat
  pend : List AuxReq
  /-- The injection being served. -/
  serving : Option AuxReq
  /-- The regular sequence runs, and how often the present entry has been aborted in succession (R278, R280). -/
  seqOn : Bool
  aborts : Nat
  /-- The present entry has completed, and the sequence goes on after it (R278, R280). -/
  over_ : Bool
  /-- When REFREADY sets (R283). -/
  refDue : Option Nat
  /-- A calibration is commanded and has not started; the raw codes of its steps, converter A and B (R291, R294). -/
  calWait : Bool
  calCodes : List (Int × Int)
  /-- The die temperature when the running calibration started. -/
  calTemp : Nat
  /-- AUX_CALF words that differ from the factory ones, by offset / 4 (R295, R300). -/
  calf : List (Nat × Word)
  /-- Sequence entries, staged and in force (R300). -/
  seqStg : List (Nat × Word)
  seq : List (Nat × Word)
  /-- LEN when the present entry of the sequence began (R290). -/
  seqLen : Nat
  /-- Results of channels 0 to 15 and of ITONE, source 16; the latest injected value, tag bits and source, and when it was written (R279, R281, R286). -/
  src : Vector AuxSrc 17
  injVal : Int
  injTag : Nat
  injSince : Option Nat
  /-- Consecutive passing evaluations by 4 × channel + fault bit (R289). -/
  pass : List (Nat × Nat)
  /-- The last LINESYNC edge, consecutive acceptable periods, and since when none has come (R277). -/
  lineEdge : Option Nat
  lineGood : Nat
  lineAt : Nat
deriving DecidableEq, Repr

/-- AUX after cold reset. -/
def Aux.reset : Aux where
  stage := .idle
  due := 0
  job := none
  conn := 0
  nextOpen := none
  opened := 0
  wins := []
  codes := []
  faults := 0
  cold := false
  spoiled := false
  vref := 2500000
  rref := 1000000
  pend := []
  serving := none
  seqOn := false
  aborts := 0
  over_ := false
  refDue := none
  calWait := false
  calCodes := []
  calTemp := 0
  calf := []
  seqStg := []
  seq := []
  seqLen := 0
  src := Vector.replicate 17 ⟨0, 0, 0, 0⟩
  injVal := 0
  injTag := 0
  injSince := none
  pass := []
  lineEdge := none
  lineGood := 0
  lineAt := 0

/-- A request to the memory controller: port, byte address, direction, whether the client asks for auto-precharge, its data (what a write stores, what a read
will deliver), its arrival in MCLK, and the errors that a read has met in the cells: corrected beats, and whether the burst is poisoned (R308 to R313, R323, R324). -/
structure MemReq where
  port : Nat
  addr : Nat
  write : Bool
  ap : Bool
  data : List Byte
  since : Nat
  ce : Nat
  ue : Bool
deriving DecidableEq, Repr

/-- A DRAM bank that has been used: its place, the open row, the MCLK of its last ACT and PRE, the column of its last access, and the end of its last write's data
(R303, R304). -/
structure Bank where
  key : Nat
  row : Option Nat
  act : Nat
  pre : Nat
  col : Nat
  wrEnd : Nat
deriving DecidableEq, Repr

/-- A memory channel beside its registers; times are in MCLK (R312 to R322). -/
structure MemChan where
  /-- Requests accepted and not served, in order of arrival. -/
  reqs : List MemReq
  banks : List Bank
  /-- No command issues before this. -/
  busy : Nat
  /-- The last data transfer was a write. -/
  dirWrite : Bool
  /-- When the channel last had a pending request. -/
  used : Nat
  /-- When the next refresh falls due. -/
  refAt : Nat
  /-- Self-refresh: when the precharge-all was issued. -/
  sr : Option Nat
  /-- Time and temperature of the last ZQ calibration, and the last retraining slot. -/
  zqAt : Nat
  zqTemp : Nat
  slotAt : Option Nat
deriving DecidableEq, Repr

/-- The memory controller beside its registers (R308 to R325). -/
structure MemCtl where
  chan : Vector MemChan 2
  /-- Requests that wait at their ports, in order of arrival. -/
  waiting : List MemReq
  /-- Bursts of each port in this window, the ports held, the budgets and the window in force, and the window's start in MCLK. -/
  used : Vector Nat 12
  held : Nat
  budget : Vector Nat 12
  bwin : Nat
  winAt : Nat
  /-- The next address of the scrub pass, and the device time when the pass began. -/
  scrub : Nat
  scrubFrom : Nat
  /-- Corrected bursts that wait to be written back, by address (R323). -/
  wback : List Nat
  /-- The latest read delivered: port, address, data and whether it is poisoned. -/
  out : Option (Nat × Nat × List Byte × Bool)
deriving DecidableEq, Repr

/-- An idle memory channel. -/
def MemChan.reset : MemChan := ⟨[], [], 0, false, 0, 0, none, 0, 0, none⟩

/-- The memory controller after cold reset. -/
def MemCtl.reset : MemCtl := ⟨Vector.replicate 2 MemChan.reset, [], Vector.replicate 12 0, 0, Vector.replicate 12 0, 256, 0, 0, 0, [], none⟩

/-- A Crucible job that has been run and has not ended: its queue, sequence, stream when it has CTX, and what its completion record will hold
(R365, R371, R376). -/
structure CruJob where
  q : Nat
  seq : Nat
  stream : Option Nat
  img : List Byte
  status : Nat
  inBytes : Nat
  outBytes : Nat
  bitPos : Nat
  crc : Nat
deriving DecidableEq, Repr

/-- Crucible beside its registers (R367). -/
structure Cru where
  comp : Option CruJob
  dec : Option CruJob
  /-- A taken job of each unit that waits for its stream: queue and sequence. -/
  waitC : Option (Nat × Nat)
  waitD : Option (Nat × Nat)
  /-- The queue each unit served last. -/
  lastC : Nat
  lastD : Nat
  /-- What the context records saved last hold of a decompressor beyond the fields of R372: the slot's address, the record's CRC, BFINAL of the open block and the bits not
  consumed (R374). -/
  kept : List (Nat × Nat × Bool × List Bool)
deriving DecidableEq, Repr

/-- A Sync received in slave role: sequence, PTP time of its reception in nanoseconds, and its origin time once known (R385). -/
structure PtpSync where
  seq : Nat
  rx : Int
  origin : Option Int
deriving DecidableEq, Repr

/-- NET beside its registers (R380 to R387). -/
structure Net where
  /-- The speed tried on each port in automatic mode, and since when. -/
  speed : Vector (Nat × Nat) 2
  /-- Device time of the last Sync in slave role, the Sync being used, and consecutive offsets within ±100 ns and beyond ±1 µs. -/
  syncAt : Nat
  sync : Option PtpSync
  good : Nat
  bad : Nat
  /-- Sequence of the next Delay_Req in slave role, and the one that waits for its answer: sequence and the stamp with which it left (R385). -/
  reqSeq : Nat
  delayReq : Option (Nat × Int)
  /-- Sequence of the next Sync in master role, and when it was last sent. -/
  ptpSeq : Nat
  sentAt : Option Nat
  /-- The last PPS_IN edge: device time and the whole second it was taken as. -/
  ppsIn : Option (Nat × Nat)
  /-- PPS_OUT is high, since this device time. -/
  ppsOut : Option Nat
  /-- The latest seconds whose boundary has latched and has raised PPS_OUT. -/
  secEdge : Nat
  secOut : Nat
deriving DecidableEq, Repr

/-- NET after cold reset. -/
def Net.reset : Net := ⟨Vector.replicate 2 (1, 0), 0, none, 0, 0, 0, none, 0, none, none, none, 0, 0⟩
/-- The device. -/
structure State where
  /-- The latest moment a command has happened, in ACLK ticks (assumption 1). -/
  now : Nat
  /-- The commands that wait, first in, first out. -/
  pending : List Instr
  fixed : Fixed
  regs : Regs
  sys : Sys
  boot : Boot
  /-- External memory: bytes by address, in canonical form; an unlisted byte reads 0 (assumption 4). -/
  mem : List Host.Cell
  que : Que
  pwr : Pwr
  /-- The Anvil engines (R193). -/
  eng : Vector Engine 8
  tach : Vector Tach 8
  /-- Lantern: the lanes' launch side and the launch matrix. -/
  lan : Lantern
  /-- The Wick sequencers. -/
  wck : Vector Wick 8
  orx : Orx
  /-- The slice converters. -/
  hsc : Hsc
  /-- The PTP clock. -/
  ptp : Ptp
  ddc : Ddc
  /-- The lanes of phase and temperature extraction. -/
  phx : Vector PhxLane 8
  /-- The twin instance of the lease and the Bellows link. -/
  twn : Twin
  /-- Auxiliary measurement. -/
  aux : Aux
  /-- The memory controller. -/
  memc : MemCtl
  cru : Cru
  net : Net
  /-- What the device has transmitted on its Ethernet ports, latest first. -/
  tx : List TxFrame
  /-- The words answered to the latest read, in order (R390, R393). -/
  resp : List Byte
  /-- How many free values have been drawn: the model's own field (assumption 3). -/
  free : Nat
deriving DecidableEq, Repr

/-- Why a step stops with a fault. No command of this block stops with one: the type has no constructor that a meaning uses. -/
inductive Fault where
  /-- No command raises it; it stands for a step outside the spec (safe: nothing is claimed of it). -/
  | outsideSpec
deriving DecidableEq, Repr

/-- Why a step is refused. -/
inductive Refusal where
  /-- The command has no meaning yet; raised by its arm of exec alone (safe: nothing runs). -/
  | notModelled (mnemonic : String)
deriving DecidableEq, Repr

/-- An empty stream before its first frame (R360, R473). -/
def Stream.reset : Stream := ⟨0, 0, true, true, [], none⟩

/-- An empty queue (R338, R345). -/
def Queue.reset : Queue := ⟨[], [], [], 0, Stream.reset⟩

/-- A feed not yet sampled. -/
def Feed.reset : Feed := ⟨0, 0, none, false, 0, 0, 0, false, 0, 0, false, false⟩

/-- The device held in cold reset after VAON was applied: every field at its reset value (R18, R467). -/
def State.reset : State where
  now := 0
  pending := []
  fixed := ⟨.mq850, 0, false, false, 0x020000000000, 0x020000000001, 0, List.replicate 32 0, 0x400000000, false, false⟩
  regs := ⟨[], [], [], [], [], ⟨0, [], []⟩⟩
  sys := ⟨.cold, 0, 0, 0, false, false, [], [], false, 0, false, false, none, none, false, 0, none, [], true, 0, true, .idcode, [], none, [], 0, none⟩
  boot := ⟨[], [], [], [], false, false, [], 0, []⟩
  mem := []
  que := ⟨Vector.replicate 64 Queue.reset, [], [], [], none, false⟩
  pwr := ⟨{ Feed.reset with gate := true, ball := true }, Feed.reset, some false, true, 0, 97656, none, false, false, 10800, 0, 0, 0, none⟩
  eng := #v[Engine.reset 0, Engine.reset 1, Engine.reset 2, Engine.reset 3, Engine.reset 4, Engine.reset 5, Engine.reset 6, Engine.reset 7]
  tach := Vector.replicate 8 Tach.reset
  lan := ⟨Vector.replicate 8 Lane.reset, none, none, [], 0, none, 0⟩
  wck := Vector.replicate 8 Wick.reset
  orx := ⟨Vector.replicate 16 OrxCh.reset, [], [], Vector.replicate 8 [], [], false⟩
  hsc := Hsc.reset
  ptp := ⟨0, 0, 0⟩
  ddc := Ddc.reset
  phx := Vector.replicate 8 PhxLane.reset
  twn := Twin.reset
  aux := Aux.reset
  memc := MemCtl.reset
  cru := ⟨none, none, none, none, 7, 7, []⟩
  net := Net.reset
  tx := []
  resp := []
  free := 0

end Sys2Proof.Machine
end

