-- ==== Sys2Proof/Machine/Ops.lean ====
section
/-!
DEFINITION. The named operations over time, registers, memory and free values that every command is written with.
Points that the spec leaves open or that are read from it by inference: DESIGN CHOICE 1, 3, 4, 13 of the assumption log.
-/

namespace Sys2Proof.Machine

/-- What a command answers. -/
abbrev Out := Host.Outcome State Fault Refusal

/-! ### Sparse tables: address and value pairs in one canonical form -/

/-- The value at an address; an unlisted one reads as the default. -/
def sget {β : Type} (d : β) : List (Nat × β) → Nat → β
  | [], _ => d
  | c :: r, a => if c.1 = a then c.2 else sget d r a

/-- Insertion before the first larger address. -/
def sinsert {β : Type} (a : Nat) (v : β) : List (Nat × β) → List (Nat × β)
  | [] => [(a, v)]
  | c :: r => if a < c.1 then (a, v) :: c :: r else c :: sinsert a v r

/-- A write: the address's old entry goes, and a value other than the default is listed. -/
def sput {β : Type} [DecidableEq β] (d : β) (l : List (Nat × β)) (a : Nat) (v : β) : List (Nat × β) :=
  let m := l.filter (fun c => c.1 ≠ a)
  if v = d then m else sinsert a v m

/-- The canonical form: addresses strictly rising and no entry equal to the default. -/
def swf {β : Type} [DecidableEq β] (d : β) : List (Nat × β) → Bool
  | [] => true
  | c :: r => decide (c.2 ≠ d) && r.all (fun x => decide (c.1 < x.1)) && swf d r

/-! ### Variants and units (R2, R11) -/

/-- Lanes, Wick sequencers and Anvil engines of the variant (R2). -/
def Variant.lanes : Variant → Nat
  | .mq850 => 8
  | .mq450 => 4
  | .mq250 => 2

/-- The part code of SYS_ID[31:16] (R2). -/
def Variant.part : Variant → Nat
  | .mq850 => 0x0850
  | .mq450 => 0x0450
  | .mq250 => 0x0250

/-- Lanes of this device. -/
def State.lanes (s : State) : Nat := s.fixed.variant.lanes

/-- The PTP time in nanoseconds (R385). -/
def State.ptpTotal (s : State) : Nat :=
  let d : Int := 128 * ((s.now : Int) - s.ptp.since)
  ((s.ptp.base + d + d * s.ptp.rate / 2 ^ 32) / 100).toNat

/-- The whole seconds of the PTP time and the nanoseconds beside them (R385). -/
def State.ptpSec (s : State) : Nat := s.ptpTotal / 1000000000

/-- The nanoseconds of the PTP time within its second. -/
def State.ptpNs (s : State) : Nat := s.ptpTotal % 1000000000

/-- The mask of the lanes this device has. -/
def State.laneMask (s : State) : Nat := 2 ^ s.lanes - 1

/-! ### Time (R16, R26) -/

/-- One PCLK in ACLK ticks (R16). -/
def pclk : Nat := 8

/-- A command happens at `t`: time never runs back. -/
def State.begin (s : State) (t : Nat) : State := { s with now := max s.now t }

/-- The 64-bit device time counter in ACLK ticks (R26). -/
def State.dev (s : State) : Nat := ((s.now : Int) - s.sys.timeBase).toNat % 2 ^ 64

/-- The divided clocks run and no reset holds the reset domain (R24, R25, R468). -/
def State.clocked (s : State) : Bool := s.sys.power = .run

/-- A warm or watchdog reset holds the reset domain: sequencers, engines, PHX lanes, AUX, queues, Crucible, MST streams and Hearth (R467, R468). -/
def State.inReset (s : State) : Bool := s.sys.power = .hold

/-- The divided clocks run, whether a reset holds the reset domain or not (R24, R25, R467, R468). -/
def State.ticks (s : State) : Bool := s.clocked || s.inReset

/-- What no command changes: the queue of waiting commands, the moment it happens, and the fuses with what is soldered to the part (R2, R7). -/
def State.carry (s0 s : State) : State := { s with now := s0.now, pending := s0.pending, fixed := s0.fixed }

/-- A command of the reset domain: while the clocks or a reset hold it, it does not happen. -/
def clocked (t : Nat) (s : State) (f : State → State) : Out :=
  if (s.begin t).clocked then .next ((s.begin t).carry (f (s.begin t))) else .next (s.begin t)

/-- A command of the clocked units that a warm or watchdog reset leaves at work: emission, receivers, converters, downconversion, MEM, the ports and links, and the
registers (R126, R326, R467). -/
def ticking (t : Nat) (s : State) (f : State → State) : Out :=
  if (s.begin t).ticks then .next ((s.begin t).carry (f (s.begin t))) else .next (s.begin t)

/-- A command of the always-on domain or of the reset and clock logic. -/
def always (t : Nat) (s : State) (f : State → State) : Out := .next ((s.begin t).carry (f (s.begin t)))

/-- An effect that happens only under a condition. -/
def State.only (s : State) (c : Bool) (f : State → State) : State := if c then f s else s

/-- An effect made for each unit of a list, in order. -/
def State.each (s : State) (us : List Nat) (f : Nat → State → State) : State := us.foldl (fun s u => f u s) s

/-! ### Bit fields -/

/-- Bits [hi:lo] of a word. -/
def bitsOf (hi lo : Nat) (w : Word) : Nat := w.toNat / 2 ^ lo % 2 ^ (hi + 1 - lo)

/-- A word with bits [hi:lo] replaced. -/
def withBits (hi lo : Nat) (w : Word) (v : Nat) : Word :=
  BitVec.ofNat 32 (w.toNat / 2 ^ (hi + 1) * 2 ^ (hi + 1) + v % 2 ^ (hi + 1 - lo) * 2 ^ lo + w.toNat % 2 ^ lo)

/-- Bit `i` of a number. -/
def bit (w i : Nat) : Bool := w / 2 ^ i % 2 = 1

/-- A number with bit `i` set or cleared. -/
def setBit (w i : Nat) (b : Bool) : Nat :=
  if bit w i then (if b then w else w - 2 ^ i) else (if b then w + 2 ^ i else w)

/-- A truth value as a bit. -/
def b2n (b : Bool) : Nat := if b then 1 else 0

/-! ### Registers -/

/-- A field's reset value in unit `u` (R18). -/
def resetField (fx : Fixed) (fd : FieldDef) (u : Nat) : Nat :=
  match fd.reset with
  | .num n => n
  | .perUnit n => n * u
  | .listed ns => ns.getD u 0
  | .lanes => 2 ^ fx.variant.lanes - 1
  | .trim => if fx.variant = .mq850 then 0 else 1
  | .fuseRev => fx.rev
  | .fusePart => fx.variant.part
  | .fuseDbg => b2n fx.dbgLock
  | .fuseAuth => b2n fx.bootAuth
  | .fuseMacLo => (if u = 0 then fx.mac0 else fx.mac1) % 2 ^ 32
  | .fuseMacHi => (if u = 0 then fx.mac0 else fx.mac1) / 2 ^ 32

/-- A register's reset value. -/
def resetOf (fx : Fixed) (r : RegDef) (u : Nat) : Word :=
  r.fields.foldl (fun w fd => withBits fd.hi fd.lo w (resetField fx fd u)) 0

/-- The reset value at an address of the windows. -/
def resetAt (fx : Fixed) (a : Nat) : Word :=
  match regAt a with
  | some (r, u) => resetOf fx r u
  | none => 0

/-- The key of the copy of window-wide register `a` that lane `n` works from (R436). -/
def laneKey (n a : Nat) : Nat := a + (n + 1) * 0x100000

/-- The key of the copy of register `a` that engine `e` works from (R213). -/
def engKey (e a : Nat) : Nat := a + (e + 9) * 0x100000

/-- The value in force under a key. -/
def State.live (s : State) (k : Nat) : Word := sget (resetAt s.fixed (k % 0x100000)) s.regs.live k

/-- A new value in force under a key. -/
def State.setLive (s : State) (k : Nat) (w : Word) : State :=
  { s with regs := { s.regs with live := sput (resetAt s.fixed (k % 0x100000)) s.regs.live k w } }

/-- The staged copy of a register (R434). -/
def State.staged (s : State) (a : Nat) : Word := sget (resetAt s.fixed a) s.regs.staged a

/-- A new staged copy. -/
def State.setStaged (s : State) (a : Nat) (w : Word) : State :=
  { s with regs := { s.regs with staged := sput (resetAt s.fixed a) s.regs.staged a w } }

/-- The pending copy of a register: the value that the latest commit named (R435). -/
def State.pend (s : State) (a : Nat) : Word := sget (resetAt s.fixed a) s.regs.pending a

/-- A new pending copy. -/
def State.setPend (s : State) (a : Nat) (w : Word) : State :=
  { s with regs := { s.regs with pending := sput (resetAt s.fixed a) s.regs.pending a w } }

/-- The address of a field's register in unit `u`'s block. -/
def Fld.at (f : Fld) (u : Nat) : Nat := f.addr + f.stride * u

/-- A field's value in force in unit `u`. -/
def State.fld (s : State) (f : Fld) (u : Nat) : Nat := bitsOf f.hi f.lo (s.live (f.at u))

/-- A field's value in force as a flag. -/
def State.flag (s : State) (f : Fld) (u : Nat) : Bool := s.fld f u ≠ 0

/-- A field set in unit `u`, the register's other bits unchanged. -/
def State.setFld (s : State) (f : Fld) (u : Nat) (v : Nat) : State :=
  s.setLive (f.at u) (withBits f.hi f.lo (s.live (f.at u)) v)

/-- A flag set or cleared in unit `u`. -/
def State.setFlag (s : State) (f : Fld) (u : Nat) (b : Bool) : State := s.setFld f u (b2n b)

/-- Bit `i` of a field that holds one bit for each lane. -/
def State.laneBit (s : State) (f : Fld) (i : Nat) : Bool := bit (s.fld f 0) i

/-- Bit `i` of such a field set or cleared. -/
def State.setLaneBit (s : State) (f : Fld) (i : Nat) (b : Bool) : State := s.setFld f 0 (setBit (s.fld f 0) i b)

/-- A field of a window-wide register as lane `n` works from it (R436). -/
def State.laneFld (s : State) (n : Nat) (f : Fld) : Nat := bitsOf f.hi f.lo (s.live (laneKey n f.addr))

/-- A field of the pending copy (R435). -/
def State.pfld (s : State) (f : Fld) (u : Nat) : Nat := bitsOf f.hi f.lo (s.pend (f.at u))

/-- A live counter moves; it wraps at 2^32. -/
def State.count (s : State) (f : Fld) (u k : Nat) : State := s.setFld f u (s.fld f u + k)

/-! ### Accesses that meet on one PCLK edge (R479) -/

/-- What has met on the present PCLK edge. -/
def State.edgeNow (s : State) : Edge := if s.regs.edge.tick = s.dev / pclk then s.regs.edge else ⟨s.dev / pclk, [], []⟩

/-- Hardware sets bits of a register: a software clear on the same edge leaves them set (R449, R479). -/
def State.setOnEdge (s : State) (a mask : Nat) : State :=
  { s with regs := { s.regs with edge := { s.edgeNow with sets := (a, mask) :: s.edgeNow.sets } } }

/-- A flag that software clears is set by hardware. -/
def State.hwSet (s : State) (f : Fld) (u : Nat) : State := (s.setFlag f u true).setOnEdge (f.at u) (2 ^ f.lo)

/-- The bits of a register that hardware has set on this edge. -/
def State.edgeSets (s : State) (a : Nat) : Nat := (s.edgeNow.sets.filter (fun x => x.1 = a)).foldl (fun m x => m ||| x.2) 0

/-- The order in which one edge's writes apply: Hearth, management frame, SPI (R479). -/
def srcRank : Source → Nat
  | .spi => 2
  | .mgmt => 1
  | _ => 0

/-! ### Free values (assumption 3) -/

/-- A fresh value below `m`, which nothing constrains. -/
def State.freeVal (s : State) (m : Nat) : Nat := Config.freeValue s.free % m

/-- The counter of free values advances. -/
def State.drawn (s : State) : State := { s with free := s.free + 1 }

/-! ### Injected errors (R197, R323, R456) -/

/-- The worst error over `n` bytes from an address of a target: 0 none, 1 a single-bit error, 2 a double-bit error. -/
def State.eccRange (s : State) (target key n : Nat) : Nat :=
  s.sys.eccBad.foldl (fun m b => if b.1 = target ∧ key / 8 ≤ b.2.2 ∧ b.2.2 ≤ (key + n - 1) / 8 then max m (if b.2.1 then 2 else 1) else m) 0

/-- What a read of the 8-byte word at an address of a target meets. -/
def State.eccAt (s : State) (target key : Nat) : Nat := s.eccRange target key 1

/-- The errors of `n` bytes from an address are gone: corrected, or written over. -/
def State.eccClear (s : State) (target key n : Nat) : State :=
  { s with sys := { s.sys with eccBad := s.sys.eccBad.filter (fun b => b.1 ≠ target || b.2.2 < key / 8 || (key + n - 1) / 8 < b.2.2) } }

/-- An armed injection strikes at the next write of its target that covers its address (R456). -/
def State.eccStrike (s : State) (target base key n : Nat) : State :=
  match s.sys.eccArm with
  | some (tg, dbl, a) =>
    if tg = target && key ≤ a && a < key + n then
      { s with sys := { s.sys with eccArm := none, eccBad := s.sys.eccBad ++ [(target, dbl, (base + a) / 8)] } }
    else s
  | none => s

/-- A write of `n` bytes from an address of a target: words covered whole are made good, and a part of a word is merged into the corrected word, which counts in `f`; a
double-bit error in a word covered in part stays (R197, R311, R323). -/
def State.eccOver (s : State) (target a n : Nat) (f : Fld) : State :=
  let first := (a + 7) / 8
  let last := (a + n) / 8
  let s1 := if first < last then s.eccClear target (8 * first) (8 * (last - first)) else s
  let edge (s : State) (k : Nat) : State := if s.eccAt target (8 * k) = 1 then (s.eccClear target (8 * k) 8).count f 0 1 else s
  edge (edge s1 (a / 8)) ((a + n - 1) / 8)

/-- A write of `n` bytes of an engine's memory: what it does to earlier errors, and an armed injection may strike (R197, R456). -/
def State.eccWrite (s : State) (target base key n : Nat) : State := (s.eccOver target (base + key) n Fld.ANV_ECC_CNT).eccStrike target base key n

/-- Bytes as stored under a double-bit error: two bits of the word differ, which two is free. -/
def State.asStored (s : State) (w : Word) : Word :=
  let i := s.freeVal 32
  let j := (i + 1 + s.drawn.freeVal 31) % 32
  w ^^^ BitVec.ofNat 32 (2 ^ i + 2 ^ j)

/-- How many 8-byte words of `n` bytes hold an error. -/
def State.eccWords (s : State) (target key n : Nat) : Nat :=
  ((s.sys.eccBad.filter (fun b => b.1 = target && key / 8 ≤ b.2.2 && b.2.2 ≤ (key + n - 1) / 8)).map (·.2.2)).eraseDups.length

/-- Correctable errors are met: corrected and counted (R197). -/
def State.eccCorrect (s : State) (target key n : Nat) : State :=
  if s.eccRange target key n = 1 then (s.eccClear target key n).count Fld.ANV_ECC_CNT 0 (s.eccWords target key n) else s

/-- Engine e's place in the error tables. -/
def engBase (e : Nat) : Nat := e * 2 ^ 20

/-! ### External memory (R301, R392) -/

/-- W of R301 for a geometry. -/
def geomWidth (g : Word) : Nat := 34 - bitsOf 0 0 g + bitsOf 1 1 g + bitsOf 2 2 g

/-- Where external memory ends: the parts installed, or the address width of MEM_GEOM when that names smaller ones, whose upper half is then never addressed
(R302, R304). -/
def State.dramEnd (s : State) : Nat := min s.fixed.dram (2 ^ geomWidth (s.live Fld.MEM_GEOM_WIDTH.addr))

/-- A byte of external memory; an address beyond its end reads zero. -/
def State.readByte (s : State) (a : Nat) : Byte := if a < s.dramEnd then sget 0 s.mem a else 0

/-- A byte of external memory written; a write beyond its end is discarded. -/
def State.writeByte (s : State) (a : Nat) (b : Byte) : State :=
  if a < s.dramEnd then { s with mem := sput 0 s.mem a b } else s

/-- `n` bytes from an address upward. -/
def State.readBytes (s : State) (a : Nat) : Nat → List Byte
  | 0 => []
  | n + 1 => s.readByte a :: s.readBytes (a + 1) n

/-- Bytes stored from an address upward. -/
def State.storeBytes (s : State) (a : Nat) : List Byte → State
  | [] => s
  | b :: bs => (s.writeByte a b).storeBytes (a + 1) bs

/-- A write reaches DRAM cells that hold an error: words covered whole are made good, a part of a word is merged into a corrected word, and a poisoned
word that is covered in part stays poisoned; an armed injection may strike (R311, R323, R456). -/
def State.dramWritten (s : State) (a n : Nat) : State :=
  if s.sys.eccArm.isNone && s.sys.eccBad.isEmpty then s else (s.eccOver 0 a n Fld.MEM_CE_CNT).eccStrike 0 0 a n

/-- The canonical form of external memory: addresses strictly rising, no zero byte listed. -/
def Memory.wf (m : List Host.Cell) : Bool := swf 0 m

/-- Bytes written from an address upward. -/
def State.writeBytes (s : State) (a : Nat) (bs : List Byte) : State :=
  if bs.isEmpty then s else (s.storeBytes a bs).dramWritten a bs.length

/-- The address that a region's base register names, in units of 2^20 bytes. -/
def State.mib (s : State) (f : Fld) : Nat := s.fld f 0 * 2 ^ 20

/-! ### Rounding -/

/-- The nearest integer, a half rounding to the even one (R119). -/
def roundEven (x : Rat) : Int :=
  let f := x.floor
  let d := x - f
  if d < 1 / 2 then f else if 1 / 2 < d then f + 1 else if f % 2 = 0 then f else f + 1

/-- A right shift with convergent rounding: a half goes to the even value. -/
def shrEven (x : Int) (n : Nat) : Int :=
  let d : Int := ((2 ^ n : Nat) : Int)
  let q := x / d
  let r := 2 * (x % d)
  if r < d then q else if d < r then q + 1 else if q % 2 = 0 then q else q + 1

/-- A value lies in the format of `n` bits. -/
def fits (n : Nat) (x : Int) : Bool := decide (-((2 ^ (n - 1) : Nat) : Int) ≤ x) && decide (x < ((2 ^ (n - 1) : Nat) : Int))

/-- The nearest integer, a half rounding up. -/
def roundNear (x : Rat) : Int := (x + 1 / 2).floor

/-- A value whose rounding no rule fixes: the integer below or the one above, by a free value. -/
def State.openRound (s : State) (x : Rat) : Int := if (x.floor : Rat) = x then x.floor else x.floor + s.freeVal 2

/-- A value whose rounding no rule fixes, but for an example of the spec that gives one just above an integer as that integer: the integer below where it is the nearest,
else the integer below or the one above, by a free value (DESIGN CHOICE 13). -/
def State.openNear (s : State) (x : Rat) : Int := if x - x.floor < 1 / 2 then x.floor else s.openRound x

/-! ### Units held in vectors -/

/-- The engine `e`. -/
def State.engine (s : State) (e : Nat) : Engine := s.eng.getD e (Engine.reset e)

/-- Bits of ASTAT are set at device time `d` (R479). -/
def Engine.markSet (x : Engine) (d mask : Nat) : Engine := { x with setOn := (d / pclk, if x.setOn.1 = d / pclk then x.setOn.2 ||| mask else mask) }

/-- A change of engine `e` alone. -/
def State.setEngine (s : State) (e : Nat) (x : Engine) : State := { s with eng := s.eng.setIfInBounds e x }

/-- A change of engine `e` by a function. -/
def State.onEngine (s : State) (e : Nat) (f : Engine → Engine) : State := s.setEngine e (f (s.engine e))

/-- The queue `q` beside its registers. -/
def State.queue (s : State) (q : Nat) : Queue := s.que.q.getD q Queue.reset

/-- A change of queue `q` alone. -/
def State.onQueue (s : State) (q : Nat) (f : Queue → Queue) : State :=
  { s with que := { s.que with q := s.que.q.setIfInBounds q (f (s.queue q)) } }

/-! ### Engine registers and events (R214, R228, R251) -/

/-- A scalar register; s0 reads zero (R228). -/
def Engine.sreg (x : Engine) (i : Nat) : Word := if i = 0 then 0 else x.s.getD i 0

/-- A scalar register written; a write to s0 is discarded (R228). -/
def Engine.setS (x : Engine) (i : Nat) (w : Word) : Engine := if i = 0 then x else { x with s := x.s.setIfInBounds i w }

/-- The first of the listed bits that is set in a mask. -/
def firstBit (m : Nat) : List Nat → Option Nat
  | [] => none
  | i :: is => if bit m i then some i else firstBit m is

/-- The instruction at the PC is done: the PC advances modulo 8,192 (R249); a halt request or a STEP ends the run at this boundary (R199, R224). -/
def Engine.boundary (x : Engine) (pc : Nat) : Engine :=
  if x.haltReq || x.stepping then
    { x with pc := pc % 8192, st := .halted, run := false, haltReq := false, stepping := false, wait := .none }
  else { x with pc := pc % 8192, st := .running, wait := .none }

/-- A WAIT that finds a masked event pending reports and clears the lowest-numbered one (R251). -/
def Engine.tryWait (x : Engine) : Engine :=
  match x.wait with
  | .event mask rd =>
    match firstBit (x.evt.toNat &&& mask) [0, 1, 2, 4, 5, 6, 7] with
    | some i => (({ x with evt := x.evt &&& ~~~ BitVec.ofNat 8 (2 ^ i) }).setS rd (BitVec.ofNat 32 i)).boundary (x.pc + 1)
    | none => x
  | _ => x

/-- An event raised: one raised while pending stays pending once, and a WAIT for it ends (R214). -/
def Engine.raise (x : Engine) (i : Nat) : Engine :=
  ({ x with evt := x.evt ||| BitVec.ofNat 8 (2 ^ i) }).tryWait

/-- A waiting POST ends with its result (R220). -/
def Engine.postResult (x : Engine) (r : Word) : Engine :=
  match x.wait with
  | .post _ rd => (x.setS rd r).boundary (x.pc + 1)
  | _ => x

end Sys2Proof.Machine
end

