-- ==== Sys2Proof/Machine/Trig.lean ====
section
/-!
DEFINITION. Sine, cosine and the angle of a complex number, in fixed point fine enough for every rounding that the spec asks of them
(R146, R171, R172, R244).
Points that the spec leaves open or that are read from it by inference: DESIGN CHOICE 15 of the assumption log.
-/

namespace Sys2Proof.Machine

/-- π times 2^96, rounded down. -/
def pi96 : Nat := 0x3243F6A8885A308D313198A2E

/-- Terms of the sine or cosine series in units of 2^-96: `x2` is the square of the angle, `k` the order of the last term. -/
def trigSeries (x2 : Int) : Nat → Int → Nat → Int
  | 0, _, _ => 0
  | f + 1, term, k => term + trigSeries x2 f (-(term * x2 / 2 ^ 96) / ((k + 1) * (k + 2) : Nat)) (k + 2)

/-- cos and sin of 2π × r / 2^n for an angle in the first quadrant, times 2^96. -/
def quadrant (r n : Nat) : Int × Int :=
  let x : Int := ((2 * pi96 * r / 2 ^ n : Nat) : Int)
  let x2 := x * x / 2 ^ 96
  (trigSeries x2 24 (2 ^ 96) 0, trigSeries x2 24 x 1)

/-- cos and sin of 2π × a / 2^n, times 2^96 (n at least 2). -/
def cosSin (a n : Nat) : Int × Int :=
  let b := a % 2 ^ n
  let q := quadrant (b % 2 ^ (n - 2)) n
  match b / 2 ^ (n - 2) with
  | 0 => q
  | 1 => (-q.2, q.1)
  | 2 => (-q.1, -q.2)
  | _ => (q.2, -q.1)

/-- A point lies in the lower half plane, angles from π up to 2π. -/
def lowerHalf (x y : Int) : Bool := decide (y < 0) || (decide (y = 0) && decide (x < 0))

/-- The angle of (x, y), from 0 up to 2π, is at least 2π × a / 2^n. -/
def angleGe (x y : Int) (a n : Nat) : Bool :=
  let c := cosSin a n
  match lowerHalf x y, decide (2 ^ (n - 1) ≤ a) with
  | true, false => true
  | false, true => false
  | _, _ => decide (0 ≤ c.1 * y - c.2 * x)

/-- ⌊angle × 2^n / 2π⌋ by its bits from the highest. -/
def angleBits (x y : Int) (n : Nat) : Nat → Nat → Nat
  | 0, a => a
  | k + 1, a => angleBits x y n k (if angleGe x y (a + 2 ^ k) n then a + 2 ^ k else a)

/-- The angle of a complex number in LSB of 2π / 8,192, to the nearest, as -4,096 to +4,096: the argument lies above -π and goes up to π (R172); the angle of
zero is zero. -/
def phaseOf (re im : Rat) : Int :=
  let x := re.num * im.den
  let y := im.num * re.den
  if x = 0 ∧ y = 0 then 0
  else
    let h := angleBits x y 14 14 0
    let u : Int := ((h + 1) / 2 : Nat)
    if y < 0 then u - 8192 else u

end Sys2Proof.Machine
end

