-- ==== Sys2Proof/Machine/Filter.lean ====
section
/-!
DEFINITION. The arithmetic of a sub-band path from a channel's samples to the matched filter's output: range normalisation, mixer, half-band stages and matched filter
(spec 06_downconversion, R143, R145, R147, R149 to R152, R156, R167).
Points that the spec leaves open or that are read from it by inference: DEDUCED 14 of the assumption log.
-/

namespace Sys2Proof.Machine

/-- A complex value of a path, in LSB of its place's format. -/
abbrev IQ := Int × Int

/-- A complex value requantised: a right shift rounded half to even, held within `n` bits, with whether either part saturated (R156). -/
def quantIQ (n sh : Nat) (z : IQ) : IQ × Bool :=
  let re := shrEven z.1 sh
  let im := shrEven z.2 sh
  ((satInt n re, satInt n im), !(fits n re && fits n im))

/-- A sample's code times 64, 16, 4 or 1 by its range tag (R97, R98, R143). -/
def normalised (code : Int) (tag : Nat) : Int := code * 4 ^ (3 - tag)

/-- A word of the NCO's sine and cosine table: s18 in Q1.17 of a value times 2^96, rounded down or up as the table has it (R145). -/
def ncoWord (v : Int) (k : Nat) : Int :=
  let f := v / 2 ^ 79
  satInt 18 (if v % 2 ^ 79 = 0 then f else f + Config.ncoRound k % 2)

/-- Cosine and sine at an accumulator value, whose upper 20 bits address the table (R145). -/
def ncoPair (acc : Nat) : IQ :=
  let a := acc / 2 ^ 12 % 2 ^ 20
  let w := cosSin a 20
  (ncoWord w.1 (2 * a), ncoWord w.2 (2 * a + 1))

/-- The mixer: a normalised sample times e^(-jθ), in Q20.4 (R143). -/
def mix (x : Int) (acc : Nat) : IQ × Bool :=
  let w := ncoPair acc
  quantIQ 24 13 (x * w.1, -(x * w.2))

/-- The tap count of a half-band stage (R147). -/
def stageLen : Nat → Nat
  | 1 => 19
  | 2 => 67
  | _ => 159

/-- The word offset of a stage's taps in the custom coefficients (R167). -/
def stageBase : Nat → Nat
  | 1 => 0x3000
  | 2 => 0x3040
  | _ => 0x3100

/-- Tap `j` of a stage in the set in force: the linear-phase ROM is symmetric (R147), the minimum-phase ROM need not be (R149), the custom set is software's (R150, R167). -/
def DdcPath.tap (p : DdcPath) (stage j : Nat) : Int :=
  match p.set with
  | 0 => Config.halfBandTap stage (min j (stageLen stage - 1 - j))
  | 1 => Config.minPhaseTap stage j
  | _ => signed 18 (sget (0 : Word) p.coef (stageBase stage + j)).toNat

/-- The sum of taps and held inputs, newest input first: tap j multiplies the input j samples older (R167). -/
def firSum (tap : Nat → Int) : Nat → List IQ → IQ
  | _, [] => (0, 0)
  | j, x :: xs => let r := firSum tap (j + 1) xs; (tap j * x.1 + r.1, tap j * x.2 + r.2)

/-- The inputs that a stage holds after a further one, newest first. -/
def pushIQ (n : Nat) (x : IQ) (xs : List IQ) : List IQ := (x :: xs).take n

/-- Half-band stage 1, 2 or 3 takes an input: the path, and its output and whether it saturated; the outputs carry 4, 5 and 6 fraction bits (R143, R147). -/
def DdcPath.stage (p : DdcPath) (k : Nat) (x : IQ) : DdcPath × (Unit → IQ × Bool) :=
  match k with
  | 1 =>
    let d := pushIQ 19 x p.dl1
    ({ p with dl1 := d }, fun _ => quantIQ 24 17 (firSum (p.tap 1) 0 d))
  | 2 =>
    let d := pushIQ 67 x p.dl2
    ({ p with dl2 := d }, fun _ => quantIQ 25 16 (firSum (p.tap 2) 0 d))
  | _ =>
    let d := pushIQ 159 x p.dl3
    ({ p with dl3 := d }, fun _ => quantIQ 26 16 (firSum (p.tap 3) 0 d))

/-- A sample enters the path as the `k`-th of eight: each stage passes on every second output; the results that saturated are counted (R143, R156). -/
def DdcPath.feed (p : DdcPath) (k : Nat) (x : Int) (acc : Nat) : DdcPath × Nat :=
  let m := mix x acc
  let a := p.stage 1 m.1
  if k % 2 = 0 then (a.1, b2n m.2)
  else
    let ya := a.2 ()
    let b := a.1.stage 2 ya.1
    if k % 4 = 1 then (b.1, b2n m.2 + b2n ya.2)
    else
      let yb := b.2 ()
      let c := b.1.stage 3 yb.1
      if k = 3 then (c.1, b2n m.2 + b2n ya.2 + b2n yb.2)
      else
        let yc := c.2 ()
        ({ c.1 with dlm := pushIQ 256 yc.1 c.1.dlm }, b2n m.2 + b2n ya.2 + b2n yb.2 + b2n yc.2)

/-- The samples of an output's eight ticks, oldest first, each with its range tag, enter the path; `acc` is the accumulator at each of them. -/
def DdcPath.feedAll (p : DdcPath) (xs : List (Int × Nat)) (acc : Nat → Nat) : DdcPath × Nat :=
  (List.range 8).foldl (fun (r : DdcPath × Nat) k =>
    let x := xs.getD k (0, 3)
    let o := r.1.feed k (normalised x.1 x.2) (acc k)
    (o.1, r.2 + o.2)) (p, 0)

/-! ### The minimum-phase set's response (R149, R167) -/

/-- e^(-jθ) for θ = 2π a / 4,096, times 2^96. -/
def turnIQ (a : Int) : IQ := cosSin (-a % 4096).toNat 12

/-- A complex product. -/
def mulIQ (x y : IQ) : IQ := (x.1 * y.1 - x.2 * y.2, x.1 * y.2 + x.2 * y.1)

/-- The response of a stage of the minimum-phase set, whose inputs lie `d` ticks apart, at `bin` × 190.7349 kHz: 2π × `bin` / 4,096 a tick; times 2^113. -/
def minPhaseStage (stage d : Nat) (bin : Int) : IQ :=
  firSum (Config.minPhaseTap stage) 0 ((List.range (stageLen stage)).map (fun j => turnIQ (bin * (d * j : Nat))))

/-- Entry `k` of the table at 0xD000: the set's response at matched-filter bin `k`, referenced to 9 samples, which are 71 ticks of filtering and the tick that alignment
adds, as in Q1.15 (R149, R152, R161, R167). -/
def minPhaseBin (k : Nat) : Word :=
  let bin : Int := if k < 256 then k else (k : Int) - 512
  let h := mulIQ (mulIQ (mulIQ (minPhaseStage 1 1 bin) (minPhaseStage 2 2 bin)) (minPhaseStage 3 4 bin)) (turnIQ (-71 * bin))
  BitVec.ofNat 32 (wrapInt 16 (satInt 16 (shrEven h.1 420)) + wrapInt 16 (satInt 16 (shrEven h.2 420)) * 2 ^ 16)

/-! ### The matched filter (R151, R152) -/

/-- Tap h[m] of the matched filter of a spectrum, times 2^120: (1/512) Σ H[k] e^(+j2πkm/512) with H in Q1.15; the bins are listed by number modulo 512 (R152). -/
def mfTap (bins : List (Nat × Word)) (m : Int) : IQ :=
  bins.foldl (fun (r : IQ) e =>
    let hr := signed 16 e.2.toNat
    let hi := signed 16 (e.2.toNat / 2 ^ 16)
    let w := cosSin ((e.1 % 512 : Nat) * m % 512).toNat 9
    (r.1 + hr * w.1 - hi * w.2, r.2 + hr * w.2 + hi * w.1)) (0, 0)

/-- The sum of the matched filter's taps and inputs, newest input first, from tap `m` upward (R152). -/
def mfSum (bins : List (Nat × Word)) : Int → List IQ → IQ
  | _, [] => (0, 0)
  | m, x :: xs =>
    let h := mfTap bins m
    let r := mfSum bins (m + 1) xs
    (h.1 * x.1 - h.2 * x.2 + r.1, h.1 * x.2 + h.2 * x.1 + r.2)

/-- The matched filter's output in Q24.4 from the inputs held: taps -M/2 to M/2 - 1, applied with a delay of M/2 (R151, R152, R156). -/
def DdcPath.matched (p : DdcPath) (bins : List (Nat × Word)) : IQ × Bool :=
  quantIQ 28 122 (mfSum bins (-((p.taps / 2 : Nat) : Int)) (p.dlm.take p.taps))

/-- The stages of a path hold zero: at a restart and while it is stopped (R144, R160). -/
def DdcPath.emptied (p : DdcPath) : DdcPath := { p with dl1 := [], dl2 := [], dl3 := [], dlm := [], hist := [] }

end Sys2Proof.Machine
end

