-- ==== Sys2Proof/Machine/Crc.lean ====
section
/-!
DEFINITION. The checksums the device computes: CRC-32C (R335), CRC-8 of the SPI host port (R388) and HMAC-SHA-256 of management frames and boot images (R393, R396).
-/

namespace Sys2Proof.Machine

/-- One bit of CRC-32C: the reflected Castagnoli polynomial of 0x1EDC_6F41 (R335). -/
def crc32cBit (c : Nat) : Nat := if c % 2 = 1 then (c / 2) ^^^ 0x82F63B78 else c / 2

/-- One byte of CRC-32C. -/
def crc32cByte (c : Nat) (b : Byte) : Nat :=
  crc32cBit (crc32cBit (crc32cBit (crc32cBit (crc32cBit (crc32cBit (crc32cBit (crc32cBit (c ^^^ b.toNat))))))))

/-- CRC-32C: initial value and final XOR 0xFFFF_FFFF (R335). -/
def crc32c (bs : List Byte) : Nat := (bs.foldl crc32cByte 0xFFFFFFFF) ^^^ 0xFFFFFFFF

/-- One bit of CRC-8 with polynomial 0x07, most significant bit first (R388). -/
def crc8Bit (c : Nat) : Nat := if c / 128 % 2 = 1 then (2 * c % 256) ^^^ 0x07 else 2 * c % 256

/-- One byte of CRC-8. -/
def crc8Byte (c : Nat) (b : Byte) : Nat :=
  crc8Bit (crc8Bit (crc8Bit (crc8Bit (crc8Bit (crc8Bit (crc8Bit (crc8Bit (c ^^^ b.toNat))))))))

/-- CRC-8 of the SPI host port: initial value 0, no final XOR (R388). -/
def crc8 (bs : List Byte) : Nat := bs.foldl crc8Byte 0

/-- The round constants of SHA-256 (FIPS 180-4, named by R393), each half as one number whose leading 32 bits are its first constant. -/
def shaKeys : Nat × Nat :=
  (0x428a2f9871374491b5c0fbcfe9b5dba53956c25b59f111f1923f82a4ab1c5ed5d807aa9812835b01243185be550c7dc372be5d7480deb1fe9bdc06a7c19bf174e49b69c1efbe47860fc19dc6240ca1cc2de92c6f4a7484aa5cb0a9dc76f988da983e5152a831c66db00327c8bf597fc7c6e00bf3d5a7914706ca635114292967,
   0x27b70a852e1b21384d2c6dfc53380d13650a7354766a0abb81c2c92e92722c85a2bfe8a1a81a664bc24b8b70c76c51a3d192e819d6990624f40e3585106aa07019a4c1161e376c082748774c34b0bcb5391c0cb34ed8aa4a5b9cca4f682e6ff3748f82ee78a5636f84c878148cc7020890befffaa4506cebbef9a3f7c67178f2)

/-- The 32-bit words of a number of `n` words, from its leading bits downward. -/
def leadingWords (v : Nat) : Nat → List Nat
  | 0 => []
  | n + 1 => v / 2 ^ (32 * n) % 2 ^ 32 :: leadingWords v n

/-- Right rotation of a 32-bit number. -/
def rotr32 (n x : Nat) : Nat := (x >>> n) ||| ((x <<< (32 - n)) % 0x100000000)

/-- The eight working words of SHA-256. -/
structure Sha where
  a : Nat
  b : Nat
  c : Nat
  d : Nat
  e : Nat
  f : Nat
  g : Nat
  h : Nat
deriving DecidableEq, Repr

/-- Eight words of one number, from its leading bits downward. -/
def Sha.ofNat (v : Nat) : Sha :=
  let w (k : Nat) : Nat := v / 2 ^ (32 * (7 - k)) % 2 ^ 32
  ⟨w 0, w 1, w 2, w 3, w 4, w 5, w 6, w 7⟩

/-- The initial hash value of SHA-256, its first word in the leading bits. -/
def shaInit : Sha := Sha.ofNat 0x6a09e667bb67ae853c6ef372a54ff53a510e527f9b05688c1f83d9ab5be0cd19

/-- One round with round constant plus schedule word `kw`. -/
def shaRound (s : Sha) (kw : Nat) : Sha :=
  let m := 0x100000000
  let s1 := (rotr32 6 s.e) ^^^ (rotr32 11 s.e) ^^^ (rotr32 25 s.e)
  let ch := (s.e &&& s.f) ^^^ ((s.e ^^^ 0xFFFFFFFF) &&& s.g)
  let t1 := s.h + s1 + ch + kw
  let s0 := (rotr32 2 s.a) ^^^ (rotr32 13 s.a) ^^^ (rotr32 22 s.a)
  let mj := (s.a &&& s.b) ^^^ (s.a &&& s.c) ^^^ (s.b &&& s.c)
  ⟨(t1 + s0 + mj) % m, s.a, s.b, s.c, (s.d + t1) % m, s.e, s.f, s.g⟩

/-- The message schedule, newest word first, extended by `n` words. -/
def shaSched : Nat → List Nat → List Nat
  | 0, ws => ws
  | n + 1, ws =>
    let x := ws.getD 14 0
    let y := ws.getD 1 0
    let s0 := (rotr32 7 x) ^^^ (rotr32 18 x) ^^^ (x >>> 3)
    let s1 := (rotr32 17 y) ^^^ (rotr32 19 y) ^^^ (y >>> 10)
    shaSched n ((ws.getD 15 0 + s0 + ws.getD 6 0 + s1) % 0x100000000 :: ws)

/-- One 64-byte chunk as sixteen big-endian words. -/
def shaWords : Nat → List Byte → List Nat
  | 0, _ => []
  | n + 1, bs => beNat (bs.take 4) :: shaWords n (bs.drop 4)

/-- Compression of one chunk. -/
def shaChunk (s : Sha) (chunk : List Byte) : Sha :=
  let w := (shaSched 48 (shaWords 16 chunk).reverse).reverse
  let m := 0x100000000
  let r := (List.zipWith (· + ·) (leadingWords shaKeys.1 32 ++ leadingWords shaKeys.2 32) w).foldl shaRound s
  ⟨(s.a + r.a) % m, (s.b + r.b) % m, (s.c + r.c) % m, (s.d + r.d) % m,
   (s.e + r.e) % m, (s.f + r.f) % m, (s.g + r.g) % m, (s.h + r.h) % m⟩

/-- The chunks of a padded message. -/
def shaChunks : Nat → List Byte → Sha → Sha
  | 0, _, s => s
  | n + 1, bs, s => shaChunks n (bs.drop 64) (shaChunk s (bs.take 64))

/-- SHA-256 of a byte string: 32 bytes. -/
def sha256 (bs : List Byte) : List Byte :=
  let n := bs.length
  let zeros := (119 - n % 64) % 64
  let msg := bs ++ [(0x80 : Byte)] ++ List.replicate zeros (0 : Byte) ++ beBytes 8 (8 * n)
  let r := shaChunks (msg.length / 64) msg shaInit
  beBytes 4 r.a ++ beBytes 4 r.b ++ beBytes 4 r.c ++ beBytes 4 r.d ++
  beBytes 4 r.e ++ beBytes 4 r.f ++ beBytes 4 r.g ++ beBytes 4 r.h

/-- HMAC-SHA-256 with a key of at most 64 bytes (R393: 256 bits). -/
def hmacSha256 (key msg : List Byte) : List Byte :=
  let k := key ++ List.replicate (64 - key.length) (0 : Byte)
  sha256 (k.map (· ^^^ 0x5C) ++ sha256 (k.map (· ^^^ 0x36) ++ msg))

end Sys2Proof.Machine
end

