-- ==== Sys2Proof/Machine/MemPort.lean ====
section
/-!
DEFINITION. What every master of DRAM meets at its memory port: the timing parameters, the mapping of addresses, banks, bursts and budgets, self-refresh, and the writes
that wait until training is done (spec 12_memory_controller, R301 to R320).
Times of the controller are in MCLK, two to the ACLK tick; of the DRAM timing only the parameters of R303 are kept (assumption 20).
Points that the spec leaves open or that are read from it by inference: DESIGN CHOICE 20; DEDUCED 21 of the assumption log.
-/

namespace Sys2Proof.Machine

/-- The present MCLK: the first or the second of the ACLK tick. -/
def State.mclk (s : State) (half : Bool) : Nat := 2 * s.now + b2n half

/-- Channel `c`. -/
def State.memChan (s : State) (c : Nat) : MemChan := s.memc.chan.getD c MemChan.reset

/-- A change of channel `c`. -/
def State.onChan (s : State) (c : Nat) (f : MemChan → MemChan) : State :=
  { s with memc := { s.memc with chan := s.memc.chan.setIfInBounds c (f (s.memChan c)) } }

/-! ### Timing (R303, R317) -/

/-- The parameters of R303 that rules use, in MCLK. -/
def tRCD : Nat := 22
def tRP : Nat := 22
def tRAS : Nat := 50
def tRC : Nat := 72
def tCL : Nat := 22
def tCWL : Nat := 16
def tCKESR : Nat := 9
def tXSDLL : Nat := 1024
def tZQCS : Nat := 128
def State.tREFI (s : State) : Nat := if s.flag Fld.MEM_STAT_REF2X 0 then 6093 else 12187
def State.tRFC (s : State) : Nat := if s.flag Fld.MEM_GEOM_DENS 0 then 860 else 547
def State.tXS (s : State) : Nat := if s.flag Fld.MEM_GEOM_DENS 0 then 875 else 563

/-! ### Address mapping (R304, R305) -/

/-- The parity of the address bits that a mask selects: bit j of the mask selects address bit j + 6. -/
def maskParity (mask a : Nat) : Nat := (List.range 29).foldl (fun p j => if bit mask j && bit a (j + 6) then 1 - p else p) 0

/-- The channel of an address. -/
def State.chanOf (s : State) (a : Nat) : Nat := maskParity (s.fld Fld.MEM_XMAP_CH_MASK 0) a

/-- The bank of an address within its channel: rank, bank group and bank bits. -/
def State.bankKey (s : State) (a : Nat) : Nat :=
  let x16 := s.flag Fld.MEM_GEOM_WIDTH 0
  let rank := if s.flag Fld.MEM_GEOM_RANKS 0 then b2n (bit a (if x16 then 17 else 18)) else 0
  maskParity (s.fld Fld.MEM_XMAP_BG0_MASK 0) a + 2 * maskParity (s.fld Fld.MEM_XMAP_BA0_MASK 0) a + 4 * maskParity (s.fld Fld.MEM_XMAP_BA1_MASK 0) a
    + (if x16 then 0 else 8 * maskParity (s.fld Fld.MEM_XMAP_BG1_MASK 0) a) + 16 * rank

/-- The row of an address. -/
def State.rowOf (s : State) (a : Nat) : Nat :=
  a / 2 ^ ((if s.flag Fld.MEM_GEOM_WIDTH 0 then 17 else 18) + b2n (s.flag Fld.MEM_GEOM_RANKS 0))

/-- The column of an address: C[9:3] above the home bits with ×8 parts, C[9:4] there and C[3] at bit 10 with ×16 parts; the beats C[2:0] are zero. -/
def State.colOf (s : State) (a : Nat) : Nat := if s.flag Fld.MEM_GEOM_WIDTH 0 then 16 * (a / 2 ^ 11 % 64) + 8 * (a / 2 ^ 10 % 2) else 8 * (a / 2 ^ 11 % 128)

/-- The bank of a key, closed and long idle when it has not been used. -/
def MemChan.bank (m : MemChan) (key : Nat) : Bank := (m.banks.find? (fun b => b.key = key)).getD ⟨key, none, 0, 0, 0, 0⟩

/-- A bank's new state. -/
def MemChan.setBank (m : MemChan) (b : Bank) : MemChan := { m with banks := m.banks.filter (fun x => x.key ≠ b.key) ++ [b] }

/-- Every open row closed at a time. -/
def MemChan.closeAll (m : MemChan) (at_ : Nat) : MemChan :=
  { m with banks := m.banks.map (fun b => if b.row.isSome then { b with row := none, pre := at_ } else b) }

/-- A burst is served to a port: counted, and the port is held when it reaches its budget (R315). -/
def State.burst (s : State) (p : Nat) : State :=
  let u := s.memc.used.getD p 0 + 1
  let b := s.memc.budget.getD p 0
  { s with memc := { s.memc with
      used := s.memc.used.setIfInBounds p u
      held := if b ≠ 0 && b ≤ u then setBit s.memc.held p true else s.memc.held } }.count Fld.MEM_BURST_CNT p 1

/-- The temperature has moved beyond ZQ_DT since the last ZQ calibration of a channel (R322). -/
def State.zqDrift (s : State) (c temp : Nat) : Bool :=
  let z := (s.memChan c).zqTemp
  decide (z + s.fld Fld.MEM_MAINT_ZQ_DT 0 < temp) || decide (temp + s.fld Fld.MEM_MAINT_ZQ_DT 0 < z)

/-- When a row may be precharged: tRAS after its ACT and, after a write, when its data has left (R303; DEDUCED 21). -/
def Bank.mayClose (b : Bank) : Nat := max (b.act + tRAS) b.wrEnd

/-- A channel leaves self-refresh, whose precharge-all was issued at `at_`: SRX after tCKESR, tXS, a ZQCS of all ranks together on drift, a refresh, and only then
requests; the DLL is locked by then (R303, R318, R319). -/
def State.srExit (s : State) (c at_ now : Nat) : State :=
  let temp := s.fld Fld.SYS_TEMP_T2 0
  let zq := s.zqDrift c temp
  let srx := max now (at_ + tRP + tCKESR)
  let ready := max (srx + tXSDLL) (srx + s.tXS + (if zq then tZQCS else 0) + s.tRFC)
  s.onChan c (fun m => { m with
    sr := none
    busy := ready
    refAt := ready + s.tREFI
    zqAt := if zq then ready else m.zqAt
    zqTemp := if zq then temp else m.zqTemp })

/-- A request reaches a channel that is entering or in self-refresh: before SRE the entry is abandoned, after it the channel exits (R318, R319). -/
def State.srArrival (s : State) (c now : Nat) : State :=
  match (s.memChan c).sr with
  | none => s
  | some at_ =>
    if now < at_ + tRP then (s.onChan c (fun m => { m with sr := none, busy := max m.busy (at_ + tRP) })).count Fld.MEM_SRABORT_CNT 0 1
    else (s.srExit c at_ now).only (decide (now < at_ + tRP + tCKESR)) (fun s => s.count Fld.MEM_SRWAKE_CNT 0 1)

/-! ### The accesses of the device's own masters (R308 to R311, R315, R320) -/

/-- A page hint closes the row after the access; `ap` is what the client asks for (R309). -/
def State.closes (s : State) (p : Nat) (ap : Bool) : Bool :=
  match s.fld Fld.MEM_Pp_CLASS_HINT p with
  | 0 => ap
  | 1 => false
  | _ => true

/-- A bank after the transfer of a burst at `now`: its column, the end of a write's data, and under auto-precharge the row closed as soon as the timing lets it
(R303, R309). -/
def Bank.transfer (b : Bank) (now col : Nat) (write close : Bool) : Bank :=
  let b1 := { b with col := col, wrEnd := if write then now + tCWL + 4 else b.wrEnd }
  if close then { b1 with row := none, pre := max now b1.mayClose } else b1

/-- An access to the burst at `a`: its channel leaves self-refresh, and its row is opened where it is not open, and left open or closed (R303, R309, R318). -/
def State.access (s : State) (p : Nat) (ap write : Bool) (a : Nat) : State :=
  let c := s.chanOf a
  let now := s.mclk false
  (s.srArrival c now).onChan c (fun m =>
    let b := m.bank (s.bankKey a)
    let b1 := if b.row = some (s.rowOf a) then b else { b with row := some (s.rowOf a), act := now }
    { m with used := now }.setBank (b1.transfer now (s.colOf a) write (s.closes p ap)))

/-- A burst of one of the device's own masters is served on port `p`, which counts it (R315). -/
def State.served (s : State) (p : Nat) (ap write : Bool) (a : Nat) : State := (s.access p ap write a).burst p

/-- The 64-byte bursts that `n` bytes at an address lie in. -/
def burstsOf (a n : Nat) : List Nat := if n = 0 then [] else (List.range ((a + n + 63) / 64 - a / 64)).map (fun i => a / 64 * 64 + 64 * i)

/-- `n` bytes at an address travel on port `p`. -/
def State.traffic (s : State) (p : Nat) (ap write : Bool) (a n : Nat) : State := s.each (burstsOf a n) (fun b s => s.served p ap write b)

/-- A write that is newer than the write-back of a corrected burst cancels it (R323). -/
def State.backOff (s : State) (a n : Nat) : State :=
  { s with memc := { s.memc with wback := s.memc.wback.filter (fun b => !(burstsOf a n).contains b) } }

/-- A write that waits at its port keeps the later ones to its bursts waiting (R310). -/
def State.behindWaiting (s : State) (a n : Nat) : Bool := s.memc.waiting.any (fun r => decide (a / 64 ≤ r.addr / 64) && decide (64 * (r.addr / 64) < a + n))

/-- The requests of a write, one for each burst. -/
def writeReqs (p : Nat) (ap : Bool) (since a : Nat) (bs : List Byte) : List MemReq :=
  (burstsOf a bs.length).map (fun b => ⟨p, max a b, true, ap, (bs.drop (b - a)).take (b + 64 - max a b), since, 0, false⟩)

/-- A write of one of the device's own masters on port `p`: it waits at the port while READY is clear (R310, R320). -/
def State.portWrite (s : State) (p : Nat) (ap : Bool) (a : Nat) (bs : List Byte) : State :=
  if s.flag Fld.MEM_STAT_READY 0 && !s.behindWaiting a bs.length then ((s.traffic p ap true a bs.length).backOff a bs.length).writeBytes a bs
  else { s with memc := { s.memc with waiting := s.memc.waiting ++ writeReqs p ap (s.mclk false) a bs } }

end Sys2Proof.Machine
end

