-- ==== Sys2Proof/Machine/Que.lean ====
section
/-!
DEFINITION. Work queues: descriptors, submission checks, acceptance, taking, completion, the journal and the device's own reports (spec 13_queues_and_delivery, R330 to R352).
Points that the spec leaves open or that are read from it by inference: DEDUCED 12, 21, 29, 51; DESIGN CHOICE 26, 36 of the assumption log.
-/

namespace Sys2Proof.Machine

/-! ### Descriptors (R332 to R335) -/

/-- The little-endian field of `n` bytes at offset `o` of an image. -/
def imgGet (img : List Byte) (o n : Nat) : Nat := leNat ((img.drop o).take n)

/-- An image with the field of `n` bytes at offset `o` replaced. -/
def imgSet (img : List Byte) (o n v : Nat) : List Byte := img.take o ++ leBytes n v ++ img.drop (o + n)

/-- The flags of R333. -/
def flInline : Nat := 0
def flPartial : Nat := 2
def flTrunc : Nat := 5
def flReplay : Nat := 8
def flUnmirrored : Nat := 9
def flNoPayload : Nat := 10

/-- A descriptor's flag. -/
def imgFlag (img : List Byte) (i : Nat) : Bool := bit (imgGet img 14 2) i

/-- A descriptor with its CRC written over its final bytes (R335). -/
def imgSeal (img : List Byte) : List Byte := imgSet img 60 4 (crc32c (img.take 60))

/-- The CRC of a descriptor or a state record holds (R335, R342). -/
def crcOk (img : List Byte) : Bool := imgGet img 60 4 = crc32c (img.take 60)

/-- A descriptor of a device producer: INLINE, with its flags, opcode and bytes 32 to 59 (R332, R351, R352). -/
def mkInline (opcode flags : Nat) (body : List Byte) : List Byte :=
  leBytes 8 0 ++ leBytes 4 0 ++ leBytes 2 opcode ++ leBytes 2 flags ++ leBytes 8 0 ++ leBytes 4 0 ++ leBytes 4 0 ++
  (body ++ List.replicate (28 - body.length) 0).take 28 ++ leBytes 4 0

/-- The next sequence: bit 31 is always 0 and 0 is never used (R338). -/
def nextSeq (q : Nat) : Nat := if q = 0x7FFFFFFF then 1 else q + 1

/-- The consumers of R331 as QUE_Qq_CFG.CONS shows them. -/
def consHost : Nat := 0
def consNet : Nat := 1
def consEngine : Nat := 2
def consDevice : Nat := 3

/-- The consumer of queue `q`. -/
def State.cons (s : State) (q : Nat) : Nat := s.fld Fld.QUE_Qq_CFG_CONS q

/-- Record size of queue `q` in bytes (R353). -/
def State.recSize (s : State) (q : Nat) : Nat := 16 * s.fld Fld.QUE_Qq_CFG_RECSZ q

/-- How many records of a stream a descriptor fills (R353, R358). -/
def recCount (rsz : Nat) (img : List Byte) : Nat :=
  if imgFlag img flInline then 1 else (imgGet img 24 4 + rsz - 1) / rsz

/-- A host producer: the doorbell or a management frame (R336, R393). -/
def Producer.isHost : Producer → Bool
  | .host | .mgmt .. => true
  | _ => false

/-- The producers of R331. -/
def mayPost (q : Nat) : Producer → Bool
  | .host | .mgmt .. => q < 8 || (24 ≤ q && q < 56) || q = 63
  | .engine _ => 8 ≤ q && q < 48
  | .wick n => q = 16 + n
  | .device => 56 ≤ q && q < 63

/-! ### The twin mirror (R346, R418) -/

/-- TWN_STAT.ROLE (R416). -/
def State.role (s : State) : Nat := s.fld Fld.TWN_STAT_ROLE 0

/-- The bytes of a frame on the link: a header of 16 bytes with type, epoch, sequence and length, the payload and a CRC-32C; the header's layout is the model's
(DESIGN CHOICE 36) (R418). -/
def BelFrame.wire (f : BelFrame) : List Byte :=
  let head := leBytes 4 f.kind ++ leBytes 4 f.epoch ++ leBytes 4 f.seq ++ leBytes 4 f.body.length
  head ++ f.body ++ leBytes 4 (crc32c (head ++ f.body))

/-- The priority of a frame type (R418). -/
def belPrio (kind : Nat) : Nat := if kind ≤ 2 then 0 else kind - 2

/-- A frame joins those sent, latest first: of the frames of one moment the more urgent leaves first (R418). -/
def belQueue (f : BelFrame) : List BelFrame → List BelFrame
  | [] => [f]
  | g :: r => if g.at_ = f.at_ && belPrio f.kind < belPrio g.kind then g :: belQueue f r else f :: g :: r

/-- A frame leaves on the Bellows link, while one of its lanes is locked; TST_BLDROP.RATE drops one in 2^RATE, which one is free (R418, R456). -/
def State.belSend (s : State) (kind : Nat) (body : List Byte) : State :=
  if s.twn.lane0 || s.twn.lane1 then
    let rate := s.fld Fld.TST_BLDROP_RATE 0
    let lost := decide (rate ≠ 0) && decide (s.freeVal (2 ^ rate) = 0)
    { s with twn := { s.twn with seq := s.twn.seq + 1, sent := belQueue ⟨kind, s.twn.seq, s.fld Fld.TWN_EPOCH_EPOCH 0, body, lost, s.now⟩ s.twn.sent } }.drawn
  else s

/-- Bytes cut into payloads of at most `n` bytes, each with its offset. -/
def segments (n : Nat) : Nat → Nat → List Byte → List (Nat × List Byte)
  | 0, _, _ => []
  | k + 1, o, bs => if bs.isEmpty then [] else (o, bs.take n) :: segments n k (o + n) (bs.drop n)

/-- The holder mirrors its journal while the link carries it (R34, R346). -/
def State.mirrors (s : State) : Bool := decide (s.role = 1) && s.que.linkLostAt.isNone

/-- A journal write travels to the standby with its address, in frames of at most 4,096 bytes (R346, R418). -/
def State.mirror (s : State) (a : Nat) (bs : List Byte) : State :=
  if s.mirrors then (segments 4080 bs.length 0 bs).foldl (fun s x => s.belSend 3 (leBytes 8 (a + x.1) ++ x.2)) s else s

/-! ### Acceptance (R336 to R339) -/

/-- The results of R337 as QUE_Qq_STAT.RESULT shows them. -/
def resAccepted : Nat := 1
def resDup : Nat := 2
def resCrc : Nat := 3
def resQfull : Nat := 4
def resNotPerm : Nat := 5
def resFenced : Nat := 6

/-- Occupancy of queue `q` with the submissions that have passed their checks (assumption 12). -/
def State.occupied (s : State) (q : Nat) : Nat := s.fld Fld.QUE_Qq_STAT_OCC q + (s.queue q).inflight.length

/-- The sequence of an earlier descriptor with the same job id among the last SIZE accepted (R337). -/
def State.dupOf (s : State) (q : Nat) (img : List Byte) : Option Nat :=
  let job := imgGet img 0 8
  if job = 0 then none
  else
    let recent := ((s.queue q).inflight.reverse.map (fun f => (imgGet f.img 0 8, f.seq)) ++ (s.queue q).hist).take (s.fld Fld.QUE_Qq_SIZE_SIZE q)
    (recent.find? (fun h => h.1 = job)).map (·.2)

/-- The checks of R337 in their order: the result a refused submission gets, or none; the entry into hibernate refuses every submission with NOTPERM (R470). -/
def State.checkSubmit (s : State) (q : Nat) (p : Producer) (img : List Byte) : Option Nat :=
  if !mayPost q p || !s.flag Fld.QUE_CTRL_EN 0 || s.sys.hibDue.isSome then some resNotPerm
  else if 2 ≤ s.fld Fld.TWN_STAT_ROLE 0 then some resFenced
  else if p.isHost && !crcOk img then some resCrc
  else if (s.dupOf q img).isSome then some resDup
  else if s.fld Fld.QUE_Qq_QUOTA_QUOTA q ≤ s.occupied q
      || (s.flag Fld.TST_QBP_EN 0 && s.fld Fld.TST_QBP_QUEUE 0 = q) then some resQfull
  else none

/-- Each refusal increments the counter for its reason (R337, R361). -/
def State.countRefusal (s : State) (r : Nat) : State :=
  if r = resCrc then s.count Fld.QUE_CRC_CNT 0 1
  else if r = resDup then s.count Fld.QUE_DUP_CNT 0 1
  else if r = resQfull then s.count Fld.QUE_QFULL_CNT 0 1
  else s.count Fld.QUE_NOTPERM_CNT 0 1

/-- The last sequence given on a queue. -/
def State.lastSeq (s : State) (q : Nat) : Nat :=
  match (s.queue q).inflight.getLast? with
  | some f => f.seq
  | none => s.fld Fld.QUE_Qq_ACC_SEQ_SEQ q

/-- The image as the device completes it: sequence, flags, epoch and CRC (R332, R335, R346). -/
def State.finalImage (s : State) (img : List Byte) (seq : Nat) : List Byte :=
  let flags := imgGet img 14 2 % 256 + (if s.que.unmirrored then 2 ^ flUnmirrored else 0)
  imgSeal (imgSet (imgSet (imgSet img 8 4 seq) 14 2 flags) 28 4 (s.fld Fld.TWN_EPOCH_EPOCH 0))

/-- Ring index `i` of queue `q` in the journal (R342). -/
def State.imageAddr (s : State) (q i : Nat) : Nat := s.mib Fld.QUE_JOURNAL_BASE_BASE + q * 0x10000 + 64 * i

/-- The state record of queue `q` in the journal (R342). -/
def State.recordAddr (s : State) (q : Nat) : Nat := s.mib Fld.QUE_JOURNAL_BASE_BASE + 0x400000 + 64 * q

/-- How many record numbers a descriptor of queue `q` takes (R353). -/
def State.recNumbers (s : State) (q : Nat) (img : List Byte) : Nat := if s.cons q = consNet then recCount (s.recSize q) img else 0

/-- The state record of R342 as it is issued: it counts every submission whose image is written and every completion of the done run at the head, before acceptance and
completion show (R339, R341). -/
def State.stateRecord (s : State) (q : Nat) : List Byte :=
  let x := s.queue q
  let size := s.fld Fld.QUE_Qq_SIZE_SIZE q
  let run := x.entries.takeWhile (fun e => e.done)
  let cmp := (run.getLast?.map (fun e => e.seq)).getD (s.fld Fld.QUE_Qq_CMP_SEQ_SEQ q)
  imgSeal (leBytes 4 (s.lastSeq q) ++ leBytes 4 cmp
    ++ leBytes 4 (s.fld Fld.QUE_Qq_TAKEN_SEQ_SEQ q) ++ leBytes 4 (x.rseqNext + (x.inflight.map (fun f => s.recNumbers q f.img)).sum)
    ++ leBytes 4 (s.fld Fld.TWN_EPOCH_EPOCH 0) ++ leBytes 2 ((s.fld Fld.QUE_Qq_TAIL_TAIL q + x.inflight.length) % size)
    ++ leBytes 2 ((s.fld Fld.QUE_Qq_HEAD_HEAD q + run.length) % size) ++ List.replicate 40 0)

/-- The state record of queue `q` is written (R342). -/
def State.writeRecord (s : State) (q : Nat) : State :=
  (s.portWrite 6 true (s.recordAddr q) (s.stateRecord q)).mirror (s.recordAddr q) (s.stateRecord q)

/-- The place of a producer among those that reach a queue on one PCLK edge: engines 0 to 7, then the device, then the host (R338). -/
def Producer.rank : Producer → Nat
  | .engine k => k
  | .wick _ | .device => 8
  | .host | .mgmt .. => 9

/-- A submission takes the next sequence, and its image is written to the journal (R338, R339, R346). -/
def State.handIn (s : State) (q : Nat) (p : Producer) (edge : Nat) (img : List Byte) : State :=
  let seq := nextSeq (s.lastSeq q)
  let fin := s.finalImage img seq
  let i := (s.fld Fld.QUE_Qq_TAIL_TAIL q + (s.queue q).inflight.length) % s.fld Fld.QUE_Qq_SIZE_SIZE q
  ((s.onQueue q (fun x => { x with inflight := x.inflight ++ [⟨p, seq, fin, edge⟩] })).portWrite 6 true (s.imageAddr q i) fin).mirror (s.imageAddr q i) fin

/-- The submissions of a queue that came on this PCLK edge from producers that are served after `p` (R338). -/
def State.overtaken (s : State) (q : Nat) (p : Producer) : List Inflight :=
  ((s.queue q).inflight.reverse.takeWhile (fun f => f.edge = s.now / pclk && decide (p.rank < f.prod.rank))).reverse

/-- The queue without the submissions that a producer overtakes, which is what its checks see: it is served before them (R338). -/
def State.setAside (s : State) (q : Nat) (p : Producer) : State :=
  s.onQueue q (fun x => { x with inflight := x.inflight.take (x.inflight.length - (s.overtaken q p).length) })

/-- The checks of R337 for a producer in its turn on the PCLK edge (R338). -/
def State.checkTurn (s : State) (q : Nat) (p : Producer) (img : List Byte) : Option Nat := (s.setAside q p).checkSubmit q p img

/-- The word that POST returns for a refusal (R220, R337). -/
def State.postWord (s : State) (q r : Nat) (img : List Byte) : Word :=
  if r = resDup then BitVec.ofNat 32 ((s.dupOf q img).getD 0)
  else if r = resQfull then 0x80000001
  else if r = resFenced then 0x80000003
  else 0x80000002

/-- A refused submission of the host: RESULT and, for a duplicate, the original sequence (R336, R337). -/
def State.hostRefused (s : State) (q r : Nat) (img : List Byte) : State :=
  let s1 := if r = resDup then s.setFld Fld.QUE_Qq_DUPSEQ_SEQ q ((s.dupOf q img).getD 0) else s
  ((s1.setFld Fld.QUE_Qq_STAT_RESULT q r).setFlag Fld.QUE_Qq_STAT_SUBBUSY q false).countRefusal r

/-- A submission that one of the same PCLK edge, served before it, leaves without a place is refused to its producer (R337, R338, R349). -/
def State.turnAway (s : State) (q : Nat) (p : Producer) (r : Nat) (img : List Byte) : State :=
  match p with
  | .host => s.hostRefused q r img
  | .engine k => (s.countRefusal r).onEngine k (fun x => x.postResult (s.postWord q r img))
  | .wick _ => (s.countRefusal r).count Fld.QUE_DROP_CNT 0 1
  | .device => { s with que := { s.que with reports := s.que.reports ++ [(q, img)] } }.countRefusal r
  | .mgmt .. => { s with que := { s.que with turned := s.que.turned ++ [(p, r, (s.dupOf q img).getD 0)] } }.countRefusal r

/-- A submission goes to the journal behind those that stand: its image is written, and then the state record that counts it; it is not yet accepted (R339, R342). -/
def State.ringIn (s : State) (q : Nat) (p : Producer) (img : List Byte) : State := (s.handIn q p (s.now / pclk) img).writeRecord q

/-- A submission that passes its checks goes to the journal before those of its PCLK edge that it overtakes, which are checked again in their turn (R338, R339, R342). -/
def State.enterRing (s : State) (q : Nat) (p : Producer) (img : List Byte) : State :=
  let late := s.overtaken q p
  if late.isEmpty then s.ringIn q p img
  else
    (late.foldl (fun s f =>
      match s.checkSubmit q f.prod f.img with
      | none => s.handIn q f.prod f.edge f.img
      | some r => s.turnAway q f.prod r f.img) ((s.setAside q p).handIn q p (s.now / pclk) img)).writeRecord q

/-- Acceptance and completion wait for nothing further: a single unit has no mirror, a holder's link carries it or acceptance is unmirrored; a standby or a fenced unit
accepts nothing (R34, R339, R341, R346, R347). -/
def State.mirrorReady (s : State) : Bool := decide (s.role = 0) || (decide (s.role = 1) && (s.que.unmirrored || s.que.linkLostAt.isNone))

/-- The occupancy is at or above a reduced quota (R348). -/
def State.setOverQuota (s : State) (q : Nat) : State :=
  if s.flag Fld.QUE_Qq_STAT_OVERQUOTA q && s.fld Fld.QUE_Qq_STAT_OCC q < s.fld Fld.QUE_Qq_QUOTA_QUOTA q then
    s.setFlag Fld.QUE_Qq_STAT_OVERQUOTA q false
  else s

/-! ### Taking and completing (R340, R341) -/

/-- The oldest descriptor of a queue that no consumer has taken. -/
def Queue.untaken (x : Queue) : Option Entry := x.entries.find? (fun e => !e.taken && !e.done)

/-- The oldest descriptor not yet done. -/
def Queue.oldest (x : Queue) : Option Entry := x.entries.find? (fun e => !e.done)

/-- A descriptor's mark changed. -/
def Queue.mark (x : Queue) (seq : Nat) (f : Entry → Entry) : Queue :=
  { x with entries := x.entries.map (fun e => if e.seq = seq then f e else e) }

/-- A consumer of the device takes a descriptor: TAKEN_SEQ and the state record follow (R340, R342). -/
def State.take (s : State) (q seq : Nat) : State :=
  ((s.onQueue q (fun x => x.mark seq (fun e => { e with taken := true }))).setFld Fld.QUE_Qq_TAKEN_SEQ_SEQ q seq).writeRecord q

/-- A descriptor is done: it completes once every earlier one is, and the state record that counts the completions is written (R341, R342). -/
def State.done (s : State) (q seq : Nat) : State :=
  let s1 := s.onQueue q (fun x => x.mark seq (fun e => { e with done := true }))
  s1.only ((s1.queue q).entries.head?.any (fun e => e.done)) (fun s => s.writeRecord q)

/-- Hearth takes the oldest mailbox request when it has none in hand and the queues present work (R36, R340, R361). -/
def State.mailboxTake (s : State) : State :=
  let x := s.queue 63
  if s.sys.hearth && s.flag Fld.QUE_CTRL_EN 0 && !x.entries.any (fun e => e.taken && !e.done) then
    match x.untaken with
    | some e => s.take 63 e.seq
    | none => s
  else s

/-! ### Acceptance becomes visible (R339) -/

/-- A submission's image as it is accepted: UNMIRRORED tells how it was accepted (R333, R346). -/
def State.acceptedImage (s : State) (img : List Byte) : List Byte :=
  if imgFlag img flUnmirrored = s.que.unmirrored then img else imgSeal (imgSet img 14 2 (setBit (imgGet img 14 2) flUnmirrored s.que.unmirrored))

/-- The image is written anew when its acceptance differs from what was expected at its submission. -/
def State.rewriteImage (s : State) (q : Nat) (f : Inflight) : State :=
  let img := s.acceptedImage f.img
  let a := s.imageAddr q (s.fld Fld.QUE_Qq_TAIL_TAIL q)
  s.only (img ≠ f.img) (fun s => (s.portWrite 6 true a img).mirror a img)

/-- An image written to slot `k` of queue `q`'s ring: an armed injection strikes there. One bit flipped is corrected when the slot is read; two stay flipped, at free places
of the word (DEDUCED 51) (R330, R456). -/
def State.slotWrite (s : State) (q k : Nat) (img : List Byte) : State × List Byte :=
  let a := 64 * (s.fld Fld.QUE_Qq_BASE_BASE q + k)
  match s.sys.eccArm with
  | some (3, dbl, b) =>
    if a ≤ b && b < a + 64 then
      let s1 := { s with sys := { s.sys with eccArm := none } }
      let o := (b - a) / 8 * 8
      let i := s1.freeVal 64
      let j := (i + 1 + s1.drawn.freeVal 63) % 64
      if dbl then (s1.drawn.drawn, imgSet img o 8 (imgGet img o 8 ^^^ (2 ^ i ^^^ 2 ^ j))) else (s1, img)
    else (s, img)
  | _ => (s, img)

/-- The oldest submission of queue `q` is accepted: sequence, occupancy, result and the consumer's event together; on a NET-consumed queue one without a record is done at once
(R339, R341, R353, R358). -/
def State.accept (s : State) (q : Nat) : State :=
  match (s.queue q).inflight with
  | [] => s
  | f :: rest =>
    let img := s.acceptedImage f.img
    let n := s.recNumbers q img
    let r0 := (s.queue q).rseqNext
    let empty := s.cons q = consNet && n = 0
    let w := (s.rewriteImage q f).slotWrite q (s.fld Fld.QUE_Qq_TAIL_TAIL q) img
    let e : Entry := ⟨f.seq, w.2, false, empty, r0, n, s.dev, false⟩
    let s1 := w.1.onQueue q (fun x =>
      { x with
        inflight := rest
        entries := x.entries ++ [e]
        hist := (imgGet img 0 8, f.seq) :: x.hist
        rseqNext := (r0 + n) % 2 ^ 32 })
    let s2 := (((s1.setFld Fld.QUE_Qq_ACC_SEQ_SEQ q f.seq).setFld Fld.QUE_Qq_TAIL_TAIL q
        ((s.fld Fld.QUE_Qq_TAIL_TAIL q + 1) % s.fld Fld.QUE_Qq_SIZE_SIZE q)).setFld Fld.QUE_Qq_STAT_OCC q
        (s.fld Fld.QUE_Qq_STAT_OCC q + 1)).count Fld.QUE_ACC_CNT q 1
    let s3 := if s.que.unmirrored then
        (s2.count Fld.QUE_UNMIR_CNT 0 1).setFlag Fld.QUE_Qq_STAT_UNMIRRORED q true else s2
    let s4 := match f.prod with
      | .host => (s3.setFld Fld.QUE_Qq_STAT_RESULT q resAccepted).setFlag Fld.QUE_Qq_STAT_SUBBUSY q false
      | .engine k => s3.onEngine k (fun x => x.postResult (BitVec.ofNat 32 f.seq))
      | _ => s3
    let s5 := if q < 8 then s4.onEngine q (fun x => x.raise 2) else s4
    (s5.only empty (fun s => s.done q f.seq)).only (q = 63) State.mailboxTake

/-! ### The device's own descriptors and reports (R349, R352, R441) -/

/-- A device producer's descriptor, which is INLINE: submitted, or the refusal it meets (R338, R349). -/
def State.devicePost (s : State) (q : Nat) (p : Producer) (img : List Byte) : State × Bool :=
  match s.checkTurn q p img with
  | none => (s.enterRing q p img, true)
  | some r => (s.countRefusal r, false)

/-- A report for Q60, Q61 or Q62, which no other producer may post to. One that is refused counts and is held, up to 256 for each queue, and so is one that arises before a warm reset's rebuild; beyond that it is
dropped and counted (R337, R344, R349). -/
def State.report (s : State) (q : Nat) (img : List Byte) : State :=
  let heldFor := s.que.reports.filter (fun r => r.1 = q)
  match heldFor, s.inReset || s.flag Fld.QUE_STAT_RECOVERING 0, s.checkSubmit q .device img with
  | [], false, none => s.ringIn q .device img
  | hs, rebuild, chk =>
    let s1 := match rebuild, chk with
      | false, some r => s.countRefusal r
      | _, _ => s
    if hs.length < 256 then { s1 with que := { s1.que with reports := s1.que.reports ++ [(q, img)] } }
    else s1.count Fld.QUE_DROP_CNT 0 1

/-- Held reports are submitted again in order, each queue's up to its first refusal; none before a warm reset's rebuild (R344, R349). -/
def State.retryReports (s : State) : State :=
  if s.inReset then s else
  let r := s.que.reports.foldl
    (fun (acc : State × List (Nat × List Byte)) h =>
      if acc.2.any (fun k => k.1 = h.1) then (acc.1, acc.2 ++ [h])
      else if (acc.1.checkSubmit h.1 .device h.2).isNone then (acc.1.ringIn h.1 .device h.2, acc.2)
      else (acc.1, acc.2 ++ [h]))
    (s, [])
  { r.1 with que := { r.1.que with reports := r.2 } }

/-- A fault report on Q61 (R352): source window and unit, the status register's offset and value, the detail, and 1 declared, 2 cleared or 3 event. -/
def State.fault (s : State) (win unit off value detail kind : Nat) : State :=
  s.report 61 (mkInline 4 1 (leBytes 1 win ++ leBytes 1 unit ++ leBytes 2 off ++ leBytes 4 value ++ leBytes 8 detail
    ++ leBytes 8 s.dev ++ leBytes 1 kind))

/-- A fault report that carries the present value of its status register. -/
def State.faultAt (s : State) (win unit off detail kind : Nat) : State :=
  s.fault win unit off (s.live (win * 0x10000 + off)).toNat detail kind

/-- An uncorrectable error that port `port` meets in the burst at `b`: counted, recorded and reported (R324). -/
def State.uncorrectable (s : State) (port b : Nat) : State :=
  (((s.count Fld.MEM_UE_CNT 0 1).setFld Fld.MEM_UE_ADDR_LO_LO 0 b).setFld Fld.MEM_UE_ADDR_HI_HI 0 (b / 2 ^ 32)).fault 9 port 0x204 b b 3

/-- How many beats of the burst at `b` a read corrects. -/
def State.ceBeats (s : State) (b : Nat) : Nat := ((List.range 8).filter (fun k => s.eccAt 0 (b + 8 * k) = 1)).length

/-- The write-back of the burst at `b`, if one waits, is done: its cells hold the corrected data (R323). -/
def State.backNow (s : State) (b : Nat) : State :=
  if s.memc.wback.contains b then { s.eccClear 0 b 64 with memc := { s.memc with wback := s.memc.wback.filter (· ≠ b) } } else s

/-- The corrected burst at `b` waits to be written back (R323). -/
def State.backDue (s : State) (b : Nat) : State :=
  if s.memc.wback.contains b then s else { s with memc := { s.memc with wback := s.memc.wback ++ [b] } }

/-- A read of the burst at `b` is delivered: its corrected beats are counted and, where no newer write has come, the burst is to be written back; one with an uncorrectable
beat is poisoned and not written back (R323, R324). -/
def State.burstMeets (s : State) (port b ce : Nat) (ue newer : Bool) : State × Bool :=
  let s1 := s.only (decide (0 < ce)) (fun s => s.count Fld.MEM_CE_CNT 0 ce)
  if ue then (s1.uncorrectable port b, true) else (s1.only (decide (0 < ce) && !newer) (fun s => s.backDue b), false)

/-- What a read of the burst at `b` meets in the cells, after a write-back that waits (R310, R323, R324). -/
def State.burstRead (s : State) (port b : Nat) : State × Bool :=
  let s1 := s.backNow b
  s1.burstMeets port b (s1.ceBeats b) (s1.eccRange 0 b 64 = 2) false

/-- Port `port` reads `n` bytes of DRAM, burst by burst; true for data that is poisoned (R308, R309, R323, R324). -/
def State.portRead (s : State) (port : Nat) (ap : Bool) (a n : Nat) : State × Bool :=
  let s1 := s.traffic port ap false a n
  if s.sys.eccBad.isEmpty then (s1, false)
  else (burstsOf a n).foldl (fun acc b => ((acc.1.burstRead port b).1, acc.2 || (acc.1.burstRead port b).2)) (s1, false)

/-- A read that asks for its rows to stay open. -/
def State.dramRead (s : State) (port a n : Nat) : State × Bool := s.portRead port false a n

/-- A write of `n` bytes reads the words that it covers in part, and meets there what a read meets (R311, R324). -/
def State.mergeRead (s : State) (port a n : Nat) : State :=
  let part (k : Nat) : Bool := (decide (8 * k < a) || decide (a + n < 8 * k + 8)) && decide (s.eccAt 0 (8 * k) = 2)
  if s.sys.eccBad.isEmpty || n = 0 then s
  else s.each (([a / 8, (a + n - 1) / 8].eraseDups).filter part) (fun k s => s.uncorrectable port (8 * k / 64 * 64))

/-- Port `port` writes DRAM (R308 to R311, R324). -/
def State.dramWrite (s : State) (port : Nat) (ap : Bool) (a : Nat) (bs : List Byte) : State := (s.mergeRead port a bs.length).portWrite port ap a bs

/-- The payload of a descriptor that the mirror carries: at most 64 KiB, with MIRPAY set, read on MP6 once MEM is READY. A payload with an uncorrectable error is not
mirrored (DESIGN CHOICE 36) (R320, R346). -/
def State.mirrorPayload (s : State) (q : Nat) (img : List Byte) : State :=
  let n := imgGet img 24 4
  let a := imgGet img 16 8
  if s.mirrors && s.flag Fld.MEM_STAT_READY 0 && s.flag Fld.QUE_Qq_CFG_MIRPAY q && !imgFlag img flInline && decide (n ≤ 65536) then
    let r := s.portRead 6 true a n
    if r.2 then r.1 else r.1.mirror a (r.1.readBytes a n)
  else s

/-- A submission of an engine or of the host that passes its checks: its image and the record that counts it go to the journal, and its payload to the mirror
(R338, R339, R342, R346). -/
def State.startAccept (s : State) (q : Nat) (p : Producer) (img : List Byte) : State := (s.enterRing q p img).mirrorPayload q img

/-- The payloads of the submissions that came before MEM was READY (R320, R346). -/
def State.payloadsDue (s : State) : State := s.each (List.range 64) (fun q s => (s.queue q).inflight.foldl (fun s f => s.mirrorPayload q f.img) s)

/-- The code of a source in a clamp record (R441). -/
def sourceCode : Source → Nat
  | .spi => 0
  | .mgmt => 1
  | .hearth => 2
  | .commit => 3
  | .twin => 4

/-- The reasons of R442. -/
def rsRange : Nat := 1
def rsEnum : Nat := 2
def rsCross : Nat := 3
def rsState : Nat := 4
def rsFused : Nat := 5
def rsExpert : Nat := 6
def rsPending : Nat := 7
def rsFrozen : Nat := 8
def rsQuota : Nat := 9
def rsStrap : Nat := 10
def rsMirror : Nat := 11
def rsLegacy : Nat := 12

/-- A clamp: the record of R441 on Q62, SYS_CLAMP_CNT and SYS_STAT.CLAMP (R439). -/
def State.clamp (s : State) (src : Source) (addr : Nat) (written applied : Word) (reason lo hi : Nat) : State :=
  ((s.count Fld.SYS_CLAMP_CNT 0 1).hwSet Fld.SYS_STAT_CLAMP 0).report 62
    (mkInline 5 1 (leBytes 4 addr ++ leBytes 4 written.toNat ++ leBytes 4 applied.toNat ++ leBytes 1 reason ++ leBytes 1 (sourceCode src)
      ++ leBytes 1 lo ++ leBytes 1 hi ++ leBytes 8 s.dev))

/-- A calibration report on Q60 (R352). -/
def State.calReport (s : State) (win ch kind count sec ns fails temp : Nat) : State :=
  s.report 60 (mkInline 3 1 (leBytes 1 win ++ leBytes 1 ch ++ leBytes 2 kind ++ leBytes 4 count ++ leBytes 4 sec ++ leBytes 4 ns
    ++ leBytes 1 fails ++ leBytes 1 temp))

/-- The completions that have become final: CMP_SEQ, HEAD and the occupancy move over the done run at the head together (R341). -/
def State.finishRun (s : State) (q : Nat) : State :=
  let run := (s.queue q).entries.takeWhile (fun e => e.done)
  match run.getLast? with
  | none => s
  | some e =>
    let s1 := s.onQueue q (fun x => { x with entries := x.entries.drop run.length })
    let s2 := (((s1.setFld Fld.QUE_Qq_CMP_SEQ_SEQ q e.seq).setFld Fld.QUE_Qq_HEAD_HEAD q
      ((s.fld Fld.QUE_Qq_HEAD_HEAD q + run.length) % s.fld Fld.QUE_Qq_SIZE_SIZE q)).setFld Fld.QUE_Qq_STAT_OCC q
      (s.fld Fld.QUE_Qq_STAT_OCC q - run.length)).setOverQuota q
    let s3 := if (s2.queue q).entries.all (fun e => !imgFlag e.img flUnmirrored) then s2.setFlag Fld.QUE_Qq_STAT_UNMIRRORED q false else s2
    s3.retryReports

/-- The words the host reads as QUE_Qq_RD0 to RD15: the oldest descriptor it has not marked done; nothing is presented before a warm reset's rebuild
(R340, R344). -/
def State.hostWord (s : State) (q k : Nat) : Word :=
  if s.cons q = consHost && s.flag Fld.QUE_CTRL_EN 0 && !s.inReset then
    match (s.queue q).oldest with
    | some e => BitVec.ofNat 32 (imgGet e.img (4 * k) 4)
    | none => 0
  else 0

/-! ### The rebuild from the journal (R344, R345, R347) -/

/-- A stream starts again with SYNC on frame 0, whose first record is `r` (R360, R505). -/
def Queue.restartAt (x : Queue) (r : Nat) : Queue := { x with stream := { x.stream with next := 0, nextRec := r, sync := true, frames := [], unread := none } }

/-- Restart of a stream with SYNC on frame 0 from the oldest uncompleted descriptor whose records are sent (R360). -/
def Queue.resync (x : Queue) : Queue :=
  x.restartAt (match x.entries.find? (fun e => !e.skip && decide (0 < e.nrec)) with
    | some e => e.rec0
    | none => x.rseqNext)

/-- The retention of a stream is full (R357). -/
def retainFull (x : Stream) : Bool := decide (4096 ≤ x.frames.length) || decide (67108864 ≤ (x.frames.map (fun f => f.bytes.length)).sum)

/-- RETAINFULL follows the retention. -/
def State.setRetain (s : State) (q : Nat) : State := s.setFlag Fld.QUE_Qq_STAT_RETAINFULL q (retainFull (s.queue q).stream)

/-- The stream of queue `q` starts again (R360). -/
def State.restream (s : State) (q : Nat) : State := (s.onQueue q Queue.resync).setRetain q

/-- QUE_Qq_STAT as the queue's contents give it after a rebuild, or after a loss (R362). -/
def State.showQueue (s : State) (q : Nat) : State :=
  ((s.setOverQuota q).setFlag Fld.QUE_Qq_STAT_UNMIRRORED q ((s.queue q).entries.any (fun e => imgFlag e.img flUnmirrored))).setRetain q

/-- How many sequences lie after `a` up to `b`. -/
def seqSpan (a b : Nat) : Nat := if a ≤ b then b - a else b + 0x7FFFFFFF - a

/-- A sequence lies at or before another, where sequences wrap from 0x7FFFFFFF to 1 (R338, R344). -/
def seqUpTo (a b : Nat) : Bool := decide (b ≠ 0) && decide (seqSpan a b < 2 ^ 30)

/-- The restored descriptors of a queue from the sequence after the last completion: none when an image's CRC fails. On a NET-consumed queue one whose payload was not mirrored,
or that has no record, is done (R344, R347, R358). -/
def State.restoreRun (s : State) (q : Nat) (takenSeq : Nat) (takeover : List (Nat × Nat)) (isTakeover : Bool) :
    Nat → Nat → Nat → Option (List (Entry × Bool))
  | 0, _, _ => some []
  | n + 1, seq, i =>
    let img := s.readBytes (s.imageAddr q i) 64
    if !crcOk img || s.eccRange 0 (s.imageAddr q i) 64 = 2 then none
    else
      let replay := seqUpTo seq takenSeq && (q < 8 || (24 ≤ q && q < 32) || q = 63)
      let img1 := if replay then imgSet img 14 2 (setBit (imgGet img 14 2) flReplay true) else img
      let lost := isTakeover && !imgFlag img flInline && decide (0 < imgGet img 24 4) && !takeover.contains (q, seq)
      let img2 := if lost then imgSet (imgSet img1 14 2 (setBit (imgGet img1 14 2) flNoPayload true)) 24 4 0 else img1
      let nrec := s.recNumbers q img
      let e : Entry := ⟨seq, imgSeal img2, false, decide (s.cons q = consNet) && (lost || decide (nrec = 0)), 0, nrec, s.dev, lost⟩
      match s.restoreRun q takenSeq takeover isTakeover n (nextSeq seq) ((i + 1) % s.fld Fld.QUE_Qq_SIZE_SIZE q) with
      | some es => some ((e, replay) :: es)
      | none => none

/-- Record numbers given back to restored descriptors: the last one's records end just below RSEQ_NEXT. -/
def numberRecs (next : Nat) : List Entry → List Entry
  | [] => []
  | e :: es =>
    let after := ((e :: es).map (·.nrec)).sum
    { e with rec0 := (next + 2 ^ 32 - after % 2 ^ 32) % 2 ^ 32 } :: numberRecs next es

/-- The duplicate history that the journal images hold, newest first (R337). -/
def State.journalHist (s : State) (q : Nat) : Nat → Nat → Nat → List (Nat × Nat)
  | 0, _, _ => []
  | n + 1, seq, i =>
    let img := s.readBytes (s.imageAddr q i) 64
    if crcOk img && s.eccRange 0 (s.imageAddr q i) 64 ≠ 2 && imgGet img 8 4 = seq then
      (imgGet img 0 8, seq) :: s.journalHist q n (if seq = 1 then 0x7FFFFFFF else seq - 1) ((i + s.fld Fld.QUE_Qq_SIZE_SIZE q - 1) % s.fld Fld.QUE_Qq_SIZE_SIZE q)
    else []

/-- A queue whose record or images fail restarts empty from its last valid ACC_SEQ, with a new record (R345). -/
def State.loseQueue (s : State) (q acc tail rnext : Nat) : State :=
  ((((((s.onQueue q (fun x => { x with inflight := [], entries := [], rseqNext := rnext }.resync)).setFld Fld.QUE_Qq_ACC_SEQ_SEQ q acc).setFld Fld.QUE_Qq_CMP_SEQ_SEQ q
    acc).setFld Fld.QUE_Qq_TAIL_TAIL q tail).setFld Fld.QUE_Qq_HEAD_HEAD q tail).setFld Fld.QUE_Qq_STAT_OCC q 0).showQueue q |>.writeRecord q

/-- One queue rebuilt from the journal, and the sequences of a queue that is lost: its last valid ACC_SEQ and how many of them. A record of zeros is one of a queue that was
never used, and one that counts more descriptors than the ring holds fails. At a takeover an unreadable record leaves no ACC_SEQ: both numbers are then free values (DESIGN CHOICE
36) (R344, R345). -/
def State.rebuildQueue (s : State) (payloads : List (Nat × Nat)) (takeover : Bool) (q : Nat) : State × Option (Nat × Nat) :=
  let st := s.readBytes (s.recordAddr q) 64
  let rd := s.portRead 6 true (s.recordAddr q) 64
  let s := rd.1
  let keep := (s.queue q).stream
  let stOk := crcOk st && !rd.2
  if s.fld Fld.QUE_Qq_ACC_SEQ_SEQ q = 0 && !rd.2 && st.all (· = 0) then
    ((s.onQueue q (fun x => { x with inflight := [], entries := [] })).setFld Fld.QUE_Qq_STAT_OCC q 0, none)
  else if !stOk && takeover then
    let acc := s.freeVal 0x80000000
    (s.drawn.drawn.loseQueue q acc (s.fld Fld.QUE_Qq_TAIL_TAIL q) (s.queue q).rseqNext, some (acc, s.drawn.freeVal (acc + 1)))
  else if !stOk then
    let acc := s.fld Fld.QUE_Qq_ACC_SEQ_SEQ q
    (s.loseQueue q acc (s.fld Fld.QUE_Qq_TAIL_TAIL q) (s.queue q).rseqNext, some (acc, seqSpan (s.fld Fld.QUE_Qq_CMP_SEQ_SEQ q) acc))
  else
    let acc := imgGet st 0 4
    let cmp := imgGet st 4 4
    let tak := imgGet st 8 4
    let rnext := imgGet st 12 4
    let tail := imgGet st 20 2
    let head := imgGet st 22 2
    let n := seqSpan cmp acc
    let size := s.fld Fld.QUE_Qq_SIZE_SIZE q
    if size < n then (s.loseQueue q acc tail rnext, some (acc, n))
    else
    let s := s.each (List.range size) (fun k s => (s.portRead 6 true (s.imageAddr q ((head + k) % size)) 64).1)
    match s.restoreRun q tak payloads takeover n (nextSeq cmp) head with
    | none => (s.loseQueue q acc tail rnext, some (acc, n))
    | some es =>
      let entries := numberRecs rnext (es.map (·.1))
      let ring := entries.zipIdx.foldl (fun (r : State × List Entry) e =>
        let w := r.1.slotWrite q ((head + e.2) % size) e.1.img
        (w.1, r.2 ++ [{ e.1 with img := w.2 }])) (s, [])
      let s1 := ring.1.onQueue q (fun x =>
        { x with
          inflight := []
          entries := ring.2
          rseqNext := rnext
          hist := s.journalHist q size acc ((tail + size - 1) % size)
          stream := keep })
      let s2 := s1.onQueue q Queue.resync
      let s3 := ((((((s2.setFld Fld.QUE_Qq_ACC_SEQ_SEQ q acc).setFld Fld.QUE_Qq_CMP_SEQ_SEQ q cmp).setFld Fld.QUE_Qq_TAKEN_SEQ_SEQ q cmp).setFld
        Fld.QUE_Qq_TAIL_TAIL q tail).setFld Fld.QUE_Qq_HEAD_HEAD q head).setFld Fld.QUE_Qq_STAT_OCC q n).count Fld.QUE_REPLAY_CNT 0
        ((es.filter (·.2)).length)
      let s4 := (s3.showQueue q).only (entries.head?.any (fun e => e.done)) (fun s => s.writeRecord q)
      (if q < 8 && 0 < n then s4.onEngine q (fun x => x.raise 2) else s4, none)

/-- The report of a lost queue: its last valid ACC_SEQ and how many sequences are lost (R345). -/
def State.lossReport (s : State) (q : Nat) (l : Nat × Nat) : State := s.fault 10 q (0x4018 + 0x100 * q) l.1 l.2 3

/-- Every ring rebuilt from the journal (R344); at a takeover, from the mirrored journal (R347). The reports of lost queues follow once every ring stands. -/
def State.rebuildQueues (s : State) (payloads : List (Nat × Nat)) (takeover : Bool) : State :=
  let s1 := (s.setFlag Fld.QUE_STAT_RECOVERING 0 true).each (List.range 64) (fun q s => s.setFlag Fld.QUE_Qq_STAT_SUBBUSY q false)
  let r := (List.range 64).foldl (fun (acc : State × List (Nat × Nat × Nat)) q =>
    let x := acc.1.rebuildQueue payloads takeover q
    (x.1, acc.2 ++ (x.2.map (fun l => (q, l))).toList)) (s1, [])
  (r.2.foldl (fun s e => s.lossReport e.1 e.2) (r.1.setFlag Fld.QUE_STAT_RECOVERING 0 false)).retryReports

/-! ### Commands of the queues -/

/-- The sixteen submission words of queue `q` as an image (R336). -/
def State.subImage (s : State) (q : Nat) : List Byte :=
  (List.range 16).flatMap (fun k => leBytes 4 (s.live (0xA4040 + 0x100 * q + 4 * k)).toNat)

/-- A host submission of an image (R336, R337). -/
def State.hostSubmit (s : State) (q : Nat) (img : List Byte) : State :=
  match s.checkTurn q .host img with
  | none => (s.setFlag Fld.QUE_Qq_STAT_SUBBUSY q true).startAccept q .host img
  | some r => s.hostRefused q r img

/-- A submission waits for the rebuild of a warm reset (R344). -/
def State.waitRebuild (s : State) (q : Nat) (p : Producer) (img : List Byte) : State :=
  { s with que := { s.que with waiting := s.que.waiting ++ [(q, p, img)] } }

/-- A write of DOORBELL.SUBMIT: discarded with a clamp report while SUBBUSY is set; during a warm reset it waits with SUBBUSY set (R336, R344). -/
def State.doorbell (s : State) (src : Source) (q : Nat) : State :=
  if s.flag Fld.QUE_Qq_STAT_SUBBUSY q then s.clamp src (Fld.QUE_Qq_DOORBELL_SUBMIT.at q) 1 0 rsState 0 0
  else if s.inReset then (s.setFlag Fld.QUE_Qq_STAT_SUBBUSY q true).waitRebuild q .host (s.subImage q)
  else s.hostSubmit q (s.subImage q)

/-- A host write of QUE_Qq_DONE; before a warm reset's rebuild no descriptor is presented (R340, R344). -/
def State.hostDone (s : State) (q seq : Nat) : State :=
  match (s.queue q).oldest with
  | some e =>
    if s.cons q = consHost && e.seq = seq && !s.inReset then (s.done q seq).setFlag Fld.QUE_Qq_STAT_DONEERR q false
    else s.setFlag Fld.QUE_Qq_STAT_DONEERR q true
  | none => s.setFlag Fld.QUE_Qq_STAT_DONEERR q true

/-- COMPLETION_FINAL (R341). -/
def execCompletionFinal (t : Nat) (q : Nat) (s : State) : Out :=
  clocked t s (fun s => s.only (q < 64 && s.mirrorReady) (fun s => s.finishRun q))

/-- Hearth ends the mailbox request it has in hand, completes its descriptor and takes the next one (R340). -/
def State.mailboxEnd (s : State) : State :=
  match (s.queue 63).entries.find? (fun e => e.taken && !e.done) with
  | some e => s.only s.sys.hearth (fun s => (s.done 63 e.seq).mailboxTake)
  | none => s

/-- MAILBOX_JOB_END (R340, R36). -/
def execMailboxJobEnd (t : Nat) (s : State) : Out := clocked t s State.mailboxEnd

end Sys2Proof.Machine
end

