-- ==== Sys2Proof/Machine/Regs.lean ====
section
/-!
DEFINITION. Register reads and writes that need no rule of their own: access codes, range checks, staging, fused-off units, clamp reports and the CRC hold (spec 17_register_model, R431 to R448; R3, R17, R19).
Points that the spec leaves open or that are read from it by inference: DEDUCED 38, 40, 41 of the assumption log.
-/

namespace Sys2Proof.Machine

/-! ### Range checks (R438, R439) -/

/-- The nearest power of two between two limits, the larger when midway (R330, R439). -/
def nearPow2 (lo hi v : Nat) : Nat :=
  if v ≤ lo then lo
  else if hi ≤ v then hi
  else
    let d := 2 ^ Nat.log2 v
    if 3 * d ≤ 2 * v then 2 * d else d

/-- The nearest multiple of a step between two limits, the larger when midway (R439). -/
def nearStep (lo hi st v : Nat) : Nat := max lo (min hi ((2 * v + st) / (2 * st) * st))

/-- A two's-complement value of `n` bits held between plus and minus `m`. -/
def nearMag (n m v : Nat) : Nat :=
  let x := signed n v
  if x < -(m : Int) then 2 ^ n - m else if (m : Int) < x then m else v

/-- A field's value after its check: what is applied, and the reason when the check changed it. -/
def checked (legacy ready : Bool) (lanes unit : Nat) (fd : FieldDef) (old v : Nat) : Nat × Option Nat :=
  let alter (x reason : Nat) : Nat × Option Nat := if x = v then (v, none) else (x, some reason)
  match fd.check with
  | .none => (v, none)
  | .range lo hi => alter (max lo (min hi v)) rsRange
  | .step lo hi st => alter (nearStep lo hi st v) rsRange
  | .pow2 lo hi => alter (nearPow2 lo hi v) rsRange
  | .enum vs => if vs.contains v then (v, none) else (old, some rsEnum)
  | .laneMask => alter (v % 2 ^ lanes) rsFused
  | .laneIdx => if v < lanes then (v, none) else (0, some rsFused)
  | .laneOwn => if v < lanes then (v, none) else (unit, some rsFused)
  | .memLocked => if ready && v ≠ old then (old, some rsState) else (v, none)
  | .legacyZero => if legacy then alter 0 rsLegacy else (v, none)
  | .signedMag m => alter (nearMag (fd.hi + 1 - fd.lo) m v) rsRange
  | .chapter => (v, none)

/-- The rules that chapters give single fields: SYS_CRC_CTRL.ACTION (R448), HSC_CTRL.TRIM_EN (R133), PHX_TCOEF (R190), PHX_Ln_COIL.COUNT (R192),
QUE_Qq_QUOTA (R348), QUE_Qq_CFG.CONS (R331) and QUE_Qq_CFG.STREAM (R353). -/
def State.chapterCheck (s : State) (a unit lo old v : Nat) : Nat × Option Nat :=
  if a = 0x14 then
    if v = 3 then (old, some rsEnum)
    else if v < old && !s.flag Fld.SYS_CTRL_EXPERT_EN 0 then (old, some rsState) else (v, none)
  else if a = 0x30000 then
    if s.fixed.variant = .mq850 && v ≠ 0 then (0, some rsFused) else (v, none)
  else if a = 0x50014 then
    let x := signed 24 v
    if 0 ≤ x ∧ x < 0x10000 then (0x10000, some rsRange)
    else if -0x10000 < x ∧ x < 0 then (0xFF0000, some rsRange) else (v, none)
  else if a / 0x10000 = 5 then
    if v < 4 then (if v = 0 then (v, none) else (0, some rsRange))
    else if v < 8 then (8, some rsRange) else if 4096 < v then (4096, some rsRange) else (v, none)
  else if a / 0x10000 = 10 then
    if a % 0x100 = 8 then
      let size := bitsOf 10 0 (s.staged (Fld.QUE_Qq_SIZE_SIZE.at unit))
      if v = 0 then (1, some rsRange) else if size < v then (size, some rsRange) else (v, none)
    else if lo = 0 then
      if (32 ≤ unit && unit < 48) || (60 ≤ unit && unit < 63) then
        if v < 2 then (v, none) else (old, some rsEnum)
      else if v = old then (v, none) else (old, some rsState)
    else if v = 0xFFFF then (old, some rsRange) else (v, none)
  else (v, none)

/-! ### Fused-off units (R3) -/

/-- How many units of a per-unit block the variant has: lanes, channels or engines; the other windows have all theirs (R2). -/
def unitLimit (fx : Fixed) (win off : Nat) : Nat :=
  if win = 1 || win = 5 || win = 6 || win = 14 then fx.variant.lanes
  else if win = 2 || win = 3 || win = 4 then 2 * fx.variant.lanes
  else if win = 7 && off < 0x6000 then fx.variant.lanes
  else 64

/-- A per-unit register of a unit that fuses have removed (R3). -/
def fusedOff (fx : Fixed) (a unit : Nat) : Bool :=
  let win := a / 0x10000
  let off := a % 0x10000
  decide ((0x4000 ≤ off ∧ off < 0x8000) ∨ (win = 3 ∧ 0x2000 ≤ off ∧ off < 0x2040)) && decide (unitLimit fx win off ≤ unit)

/-- The per-unit register blocks of a window, at offsets 0x4000 upward: how many, and the bytes of each (R477). -/
def blockShape (win : Nat) : Nat × Nat :=
  if win = 2 || win = 3 then (16, 0x200) else if win = 4 then (16, 0x400) else if win = 7 then (8, 0x400)
  else if win = 1 || win = 5 || win = 6 || win = 14 then (8, 0x200) else (0, 1)

/-- An address in the register block of a unit that fuses have removed, whether a register stands there or none (R3). -/
def fusedBlock (fx : Fixed) (a : Nat) : Bool :=
  let b := blockShape (a / 0x10000)
  let off := a % 0x10000
  decide (0x4000 ≤ off) && decide ((off - 0x4000) / b.2 < b.1) && decide (unitLimit fx (a / 0x10000) off ≤ (off - 0x4000) / b.2)

/-! ### The configuration CRC's coverage (R446) and hold (R448) -/

/-- The bits of a register that the configuration CRC covers (R446). -/
def coverMask (a : Nat) (r : RegDef) : Nat :=
  if a = 0x10014 || a = 0x4000C || a = 0x10 || a = 0x1C || 0xF0000 ≤ a then 0
  else if a / 0x10000 = 7 && 0x4000 ≤ a % 0x10000 && a % 0x10000 < 0x6000 && a % 0x400 < 8 then 0
  else if a / 0x10000 = 6 && 0x4000 ≤ a % 0x10000 && a % 0x200 = 8 then 0
  else
    r.fields.foldl (fun m fd =>
      let covered := fd.acc = .rw || fd.acc = .rws || fd.acc = .rwg
      let excepted := (a = 0x10000) || (a = 0x60000 && fd.lo = 0) || (a = 0x8000C && fd.lo = 8)
        || (a / 0x10000 = 6 && 0x4000 ≤ a % 0x10000 && a % 0x200 = 0xC && fd.lo = 4)
      if covered && !excepted then m + (2 ^ (fd.hi + 1) - 2 ^ fd.lo) else m) 0

/-- A hold of the CRC comparison begins or is renewed (R448). -/
def State.beginHold (s : State) : State :=
  { s with sys := { s.sys with hold := some s.now } }.setFlag Fld.SYS_STAT_HOLD 0 true

/-- A covered value in force has changed: the present pass is discarded and CRCVALID waits for a pass without a change (R447, R458). -/
def State.coverChanged (s : State) : State :=
  { s with sys := { s.sys with passDirty := true } }.setFlag Fld.SYS_STAT_CRCVALID 0 false

/-- The covered bits of the register whose value in force stands under a key. -/
def coverOf (k : Nat) : Nat :=
  let a := k % 0x100000
  match regAt a with
  | some (r, _) => coverMask a r
  | none => 0

/-- A value comes into force under a key; the CRC pass sees a change of covered bits (R447). -/
def State.takeLive (s : State) (k : Nat) (w : Word) : State :=
  let s1 := s.setLive k w
  if (s.live k).toNat &&& coverOf k = w.toNat &&& coverOf k then s1 else s1.coverChanged

/-! ### Generic writes -/

/-- One field's write: the applied value and the reason of a clamp. Values in force and staged copies are judged by access code. -/
def State.fieldWrite (s : State) (a unit : Nat) (fd : FieldDef) (old v : Nat) : Nat × Option Nat :=
  if fd.check = .chapter then s.chapterCheck a unit fd.lo old v
  else checked (s.flag Fld.SYS_CTRL_LEGACY 0) (s.flag Fld.MEM_STAT_READY 0) s.lanes unit fd old v

/-- The clamp records of a write, in field order. -/
def State.clampAll (s : State) (src : Source) (a : Nat) (written applied : Word) : List (FieldDef × Option Nat) → State
  | [] => s
  | (fd, some r) :: rest => (s.clamp src a written applied r fd.lo fd.hi).clampAll src a written applied rest
  | (_, none) :: rest => s.clampAll src a written applied rest

/-- The outcome of a write field by field for one access class: the new word and each field's reason. -/
def State.foldFields (s : State) (a unit : Nat) (val : Word) (pick : Access → Bool) :
    List FieldDef → Word → Word × List (FieldDef × Option Nat)
  | [], w => (w, [])
  | fd :: rest, w =>
    if pick fd.acc then
      let c := s.fieldWrite a unit fd (bitsOf fd.hi fd.lo w) (bitsOf fd.hi fd.lo val)
      let r := s.foldFields a unit val pick rest (withBits fd.hi fd.lo w c.1)
      (r.1, (fd, c.2) :: r.2)
    else s.foldFields a unit val pick rest w

/-- W1C fields: a written 1 clears (R17). -/
def w1cWord (val : Word) : List FieldDef → Word → Word
  | [], w => w
  | fd :: rest, w =>
    if fd.acc = .w1c then
      w1cWord val rest (withBits fd.hi fd.lo w (bitsOf fd.hi fd.lo w &&& (2 ^ (fd.hi + 1 - fd.lo) - 1 - bitsOf fd.hi fd.lo val)))
    else w1cWord val rest w

/-- The window's dirty bit (R434). -/
def State.markDirty (s : State) (win : Nat) : State := s.setFld Fld.SYS_DIRTY_DIRTY 0 (setBit (s.fld Fld.SYS_DIRTY_DIRTY 0) win true)

/-- A write to a register that has no effect beyond its fields: RWS fields to the staged copy, RW fields in force at once, W1C fields cleared,
every other field left; clamp records in field order. A bit that hardware sets on the same edge is not cleared (R17, R434, R438, R439, R479). -/
def State.plainWrite (s : State) (src : Source) (a : Nat) (val : Word) : State :=
  match regAt a with
  | none => s
  | some (r, u) =>
    if fusedOff s.fixed a u then s.clamp src a val 0 rsFused 0 31
    else
      let st := s.foldFields a u val (fun x => x = .rws) r.fields (s.staged a)
      let lv := s.foldFields a u val (fun x => x = .rw) r.fields (s.live a)
      let live1 := w1cWord (val &&& ~~~ BitVec.ofNat 32 (s.edgeSets a)) r.fields lv.1
      let s1 := if r.fields.any (fun fd => fd.acc = .rws) then (s.setStaged a st.1).markDirty (a / 0x10000) else s
      let changed := (live1.toNat &&& coverMask a r) ≠ ((s.live a).toNat &&& coverMask a r)
      let s2 := if live1 = s.live a then s1 else s1.setLive a live1
      let s3 := if changed then s2.coverChanged.beginHold else s2
      let shown := withBits 31 0 0 ((r.fields.foldl (fun w fd => withBits fd.hi fd.lo w
        (bitsOf fd.hi fd.lo (if fd.acc = .rws then st.1 else live1))) (0 : Word)).toNat)
      s3.clampAll src a val shown ((st.2 ++ lv.2).insertionSort (fun x y => x.1.lo ≤ y.1.lo))

/-! ### Writes that are turned away whole (R39, R420, R451, R453) -/

/-- Legacy mode is in force (R40, R41). -/
def State.legacy (s : State) : Bool := s.flag Fld.SYS_CTRL_LEGACY 0

/-- The point index under which native point `i` is reported: legacy point k is native point 2k, one to 2.09 m (R40, R452); an odd point counts with the one
before it (DEDUCED 40). -/
def State.reported (s : State) (i : Nat) : Nat := if s.legacy then i / 2 else i

/-- The windows that legacy mode locks: LAN, ORX, DDC, PHX, WCK, CRU and TWN (R453). -/
def legacyLocked (win : Nat) : Bool := [1, 2, 4, 5, 6, 11, 14].contains win

/-- An address whose register the twin mirrors: every window but SYS, PWR, TWN, TST, the ports' own addresses of NET and the queues' submission and completion words,
which a standby answers itself (R337), and the engines' instruction memories (R420). -/
def mirrored (a : Nat) : Bool :=
  if a < 0x100000 then
    let win := a / 0x10000
    let off := a % 0x10000
    if win = 10 && 0x4000 ≤ off then !([0x14, 0x2C].contains (off % 0x100) || (decide (0x40 ≤ off % 0x100) && decide (off % 0x100 < 0x80)))
    else if win = 12 then !(decide (0x4000 ≤ off) && [0x08, 0x0C, 0x18, 0x20, 0x24, 0x28, 0x2C].contains (off % 0x400)) else !([0, 13, 14, 15].contains win)
  else decide (a % 0x100000 < 0x10000)

/-- An expert address: offsets 0x2000 to 0x3FFF of any window, and the TST window (R39, R451). -/
def expertAt (a : Nat) : Bool := decide (a < 0x100000) && (decide (a / 0x10000 = 15) || (decide (0x2000 ≤ a % 0x10000) && decide (a % 0x10000 < 0x4000)))

/-- Bring-up has stopped with BOOTFAIL: the device answers SPI reads of SYS and NET and nothing else (R397). -/
def State.bootDead (s : State) : Bool := decide (s.fld Fld.SYS_BOOTSTAGE_STAGE 0 = 15) && s.flag Fld.SYS_STAT_BOOTFAIL 0

/-- The device does not listen to a source: after a boot failure, to the hosts outside (R397). -/
def State.deaf (s : State) (src : Source) : Bool := s.bootDead && (decide (src = .spi) || decide (src = .mgmt))

/-- A write reaches its register unless a boot failure has left the device deaf to it, legacy mode locks the window, the unit is a twin standby and mirrors the register, or expert space is
locked; then it is discarded with its clamp report. The mirror of a twin holder passes every lock. A write through the legacy window is not `native` and meets no lock of legacy mode. -/
def State.pastLocksAs (s : State) (native : Bool) (src : Source) (a : Nat) (val : Word) (f : State → State) : State :=
  let host := src = .spi || src = .mgmt
  let win := a / 0x10000
  let old := (match regAt a with
    | some (r, u) => if fusedOff s.fixed a u then 0 else if r.fields.any (fun fd => fd.acc = .rws) then s.staged a else s.live a
    | none => 0 : Word)
  if s.deaf src then s
  else if s.legacy && native && src ≠ .twin && a < 0x100000 && legacyLocked win then s.clamp src a val old rsLegacy 0 31
  else if s.fld Fld.TWN_STAT_ROLE 0 = 2 && host && mirrored a then s.clamp src a val old rsMirror 0 31
  else if expertAt a && src ≠ .twin && !s.flag Fld.SYS_CTRL_EXPERT_EN 0 then s.clamp src a val old rsExpert 0 31
  else f s

/-- A write at a native address. -/
def State.pastLocks (s : State) (src : Source) (a : Nat) (val : Word) (f : State → State) : State := s.pastLocksAs true src a val f

/-! ### Guarded pairs (R443, R444) -/

/-- The pair open in a window. -/
def State.guardOf (s : State) (win : Nat) : Option Guard := s.sys.guards.find? (fun g => g.addr / 0x10000 = win)

/-- A pair is over, completed or not. -/
def State.closePair (s : State) (win : Nat) : State :=
  { s with sys := { s.sys with guards := s.sys.guards.filter (fun g => g.addr / 0x10000 ≠ win) } }

/-- A broken pair or a write discarded as one: GUARD_FAULT and SYS_GUARD_CNT (R391, R444). -/
def State.guardFault (s : State) : State := (s.hwSet Fld.SYS_STAT_GUARD_FAULT 0).count Fld.SYS_GUARD_CNT 0 1

/-- A pair still open after SYS_GUARD_TMO is broken (R444). -/
def State.guardExpire (s : State) (win : Nat) : State :=
  match s.guardOf win with
  | some g => if g.openAt + pclk * s.fld Fld.SYS_GUARD_TMO_TMO 0 < s.now then (s.closePair win).guardFault else s
  | none => s

/-- A pair written whole by one source, taking effect by `f`: it breaks that source's open pair in the window; while another source's pair is open its
writes wait, so it has not completed (R391, R444). -/
def State.pairWhole (s : State) (src : Source) (a : Nat) (f : State → State) : State :=
  let s := s.guardExpire (a / 0x10000)
  match s.guardOf (a / 0x10000) with
  | none => f s
  | some g => if g.src = src then f (s.closePair (a / 0x10000)).guardFault else s

/-! ### Generic reads -/

/-- The value a read returns from a register without a rule of its own: RWS fields from the staged copy, write-only fields as zero (R17, R434). -/
def State.plainRead (s : State) (a : Nat) : Word :=
  match regAt a with
  | none => 0
  | some (r, u) =>
    if fusedOff s.fixed a u then 0
    else r.fields.foldl (fun w fd =>
      match fd.acc with
      | .rws => withBits fd.hi fd.lo w (bitsOf fd.hi fd.lo (s.staged a))
      | .wo | .wog => w
      | _ => withBits fd.hi fd.lo w (bitsOf fd.hi fd.lo (s.live a))) 0

end Sys2Proof.Machine
end

