-- ==== Sys2Proof/Machine/Convert.lean ====
section
/-!
DEFINITION. The sample path of the slice converters: positions, corrections and sample words (spec 05_converters, R116 to R122; the injection of R456).
Points that the spec leaves open or that are read from it by inference: DESIGN CHOICE 8 of the assumption log.
-/

namespace Sys2Proof.Machine

/-- HSC channel `c` beside its registers. -/
def State.hscCh (s : State) (c : Nat) : HscCh := s.hsc.ch.getD c HscCh.reset

/-- A change of HSC channel `c` alone. -/
def State.onHsc (s : State) (c : Nat) (f : HscCh → HscCh) : State :=
  { s with hsc := { s.hsc with ch := s.hsc.ch.setIfInBounds c (f (s.hscCh c)) } }

/-- The correction field of slice `k`: 0 OFF, 1 GDEV, 2 SKEW (R142). -/
def corFld (k kind : Nat) : Fld :=
  if kind = 0 then { Fld.HSC_Cn_CORA0_OFF with addr := Fld.HSC_Cn_CORA0_OFF.addr + 8 * k }
  else if kind = 1 then { Fld.HSC_Cn_CORA0_GDEV with addr := Fld.HSC_Cn_CORA0_GDEV.addr + 8 * k }
  else { Fld.HSC_Cn_CORB0_SKEW with addr := Fld.HSC_Cn_CORB0_SKEW.addr + 8 * k }

/-- A correction in force. -/
def State.cor (s : State) (c k kind : Nat) : Int := signed 16 (s.fld (corFld k kind) c)

/-! ### What samples are taken under (R98, R116, R119) -/

/-- What channel `c`'s samples are taken under by its registers, from device tick `at_` on. -/
def State.convNow (s : State) (c at_ : Nat) : Conv :=
  ⟨at_, s.fld Fld.HSC_Cn_SLICE_POS0 c, s.fld Fld.HSC_Cn_SLICE_POS1 c, (List.range 3).map (fun k => s.cor c k 0), (List.range 3).map (fun k => s.cor c k 1),
    s.fld Fld.HSC_Cn_SCALE_SCALE c, s.flag Fld.HSC_Cn_SLICE_DOWN c, s.fld Fld.ORX_Cn_STAT_RNG c⟩

/-- How far back channel `c`'s past is still needed at device tick `at_`: for outputs on their way, for the tone and for a capture of its samples. -/
def State.convSince (s : State) (c at_ : Nat) : Nat :=
  min (min (at_ - 64) (s.hscCh c).toneFrom) (match (s.wck.getD (c / 2) Wick.reset).capture with
    | some k => k.action
    | none => at_)

/-- A past that holds `v` from its tick on, and what lies before it as far back as `since`. -/
def notePast (since : Nat) (v : Conv) (past : List Conv) : List Conv :=
  let old := past.filter (fun e => e.at_ < v.at_)
  v :: (old.takeWhile (fun e => since < e.at_) ++ (old.dropWhile (fun e => since < e.at_)).take 1)

/-- What the channel's samples are taken under has changed at device tick `at_`. -/
def State.noteConv (s : State) (c at_ : Nat) : State :=
  s.onHsc c (fun h => { h with past := notePast (s.convSince c at_) (s.convNow c at_) h.past })

/-- What channel `c`'s sample of device tick `u` is taken under. -/
def State.convAt (s : State) (c u : Nat) : Conv := ((s.hscCh c).past.find? (fun e => e.at_ ≤ u)).getD Conv.reset

/-- The slice that takes the sample of device tick `u`: position 0 on even ticks, position 1 on odd ticks (R116). -/
def Conv.slice (v : Conv) (u : Nat) : Nat := if u % 2 = 0 then v.pos0 else v.pos1

/-- The sample corrected for OFF and GDEV of slice `k` and for SCALE, before saturation (R119). -/
def Conv.corrected (v : Conv) (k : Nat) (x : Int) : Int :=
  roundEven ((x - (v.off.getD k 0 : Rat) / 64) * (1 + (v.gdev.getD k 0 : Rat) / 2 ^ 20) * ((v.scale : Rat) / 2 ^ 15))

/-- A correction loaded: a skew within ±2,000, the others within 16 bits (R119, R142). -/
def State.setCor (s : State) (c k kind : Nat) (v : Int) : State :=
  (s.setFld (corFld k kind) c (wrapInt 16 (if kind = 2 then max (-2000) (min 2000 v) else satInt 16 v))).noteConv c s.dev

/-- TST_SLICE forces a fault of this kind on slice `k` of channel `c` (R456). -/
def State.sliceFault (s : State) (c k : Nat) : Nat :=
  if s.fld Fld.TST_SLICE_CH 0 = c && s.fld Fld.TST_SLICE_SLICE 0 = k then s.fld Fld.TST_SLICE_KIND 0 else 0

/-- A raw code under a forced slice fault (R456). -/
def State.faultCode (s : State) (c k : Nat) (x : Int) : Int :=
  let kind := s.sliceFault c k
  if kind = 1 then signed 14 (setBit (wrapInt 14 x) (s.fld Fld.TST_SLICE_BIT 0) true)
  else if kind = 2 then satInt 14 (roundEven (x * (105 / 100 : Rat)))
  else if kind = 3 then satInt 14 (x + 512)
  else x

/-- The sample of device tick `u`, taken under `v` as raw code `x`: the raw code and the corrected one before saturation; a down channel gives code 0 (R119, R139). -/
def State.sampleOf (s : State) (c : Nat) (v : Conv) (u : Nat) (x : Int) : Int × Int :=
  if v.down then (0, 0)
  else
    let k := v.slice u
    let y := s.faultCode c k x
    (y, v.corrected k y)

/-- A channel's sample: corrected, saturated and counted (R119, R139). -/
def State.hscSample (s : State) (c at_ : Nat) (code : Int) : State :=
  let v := s.convNow c at_
  let r := s.sampleOf c v at_ code
  let s1 := if satInt 14 r.2 = r.2 then s else s.count Fld.HSC_SAT_CNT c 1
  s1.onHsc c (fun h => { h with raw := r.1, cor := satInt 14 r.2, tag := v.tag })

/-- The eight corrected samples with their tags that a path takes up to device time `t`, oldest first. A sample reaches DDC 48 ticks after it was at the ORX input, and
its position's slice took it: `ks` holds the codes that slices 0, 1 and 2 convert at the eight ticks (R27, R98, R116, R119). -/
def State.eightSamples (s : State) (c t : Nat) (ks : List (List Int)) : List (Int × Nat) :=
  (List.range 8).map (fun i =>
    let u := t - 56 + i
    let v := s.convAt c u
    (satInt 14 (s.sampleOf c v u ((ks.getD (v.slice u) []).getD i 0)).2, v.tag))

/-- The four paths of a channel share their input: the first output of a device time brings it (R143). -/
def State.eightFor (s : State) (c t : Nat) (ks : List (List Int)) : List (Int × Nat) :=
  match (s.hscCh c).eight with
  | some (t0, xs) => if t0 = t then xs else s.eightSamples c t ks
  | none => s.eightSamples c t ks

/-- A sample word: data and range tag, right-aligned or left-aligned (R121). -/
def sampleWord (left : Bool) (tag : Nat) (x : Int) : Nat :=
  if left then wrapInt 14 x * 4 + tag % 4 else tag % 4 * 2 ^ 14 + wrapInt 14 x

/-- The word of a captured sample of device tick `u`: the raw code of the slice that took it, or its corrected value, with what it was taken under
(R98, R119, R121, R122, R139). -/
def State.captureWord (s : State) (c u : Nat) (left raw : Bool) (x : Int) : Nat :=
  let v := s.convAt c u
  let r := s.sampleOf c v u x
  sampleWord left v.tag (if raw then r.1 else satInt 14 r.2)

/-- HSC_Cn_SAMPLE as it reads (R122, R142). -/
def State.sampleReg (s : State) (c : Nat) : Nat :=
  sampleWord (s.flag Fld.HSC_FMT_ALIGN 0) (s.hscCh c).tag (if s.flag Fld.HSC_FMT_SRC 0 then (s.hscCh c).raw else (s.hscCh c).cor)

end Sys2Proof.Machine
end

