-- ==== Sys2Proof/Machine/Orx.lean ====
section
/-!
DEFINITION. Optical receive front end: ranges, schedules, blanking and the common-mode monitor (spec 04_optical_receive, R96 to R115).
Points that the spec leaves open or that are read from it by inference: DESIGN CHOICE 16, 8 of the assumption log.
-/

namespace Sys2Proof.Machine

/-- Receive channel `c` beside its registers. -/
def State.orxCh (s : State) (c : Nat) : OrxCh := s.orx.ch.getD c OrxCh.reset

/-- The lane `n` beside its registers. -/
def State.laneOf (s : State) (n : Nat) : Lane := s.lan.lane.getD n Lane.reset

/-- A change of lane `n` alone. -/
def State.onLane (s : State) (n : Nat) (f : Lane → Lane) : State :=
  { s with lan := { s.lan with lane := s.lan.lane.setIfInBounds n (f (s.laneOf n)) } }

/-- A change of receive channel `c` alone. -/
def State.onOrx (s : State) (c : Nat) (f : OrxCh → OrxCh) : State :=
  { s with orx := { s.orx with ch := s.orx.ch.setIfInBounds c (f (s.orxCh c)) } }

/-- The entries that a schedule applies, START and range, up to LAST, to an entry that does not start later, or to entry 63 (R115). -/
def schedEntries (tbl : List (Nat × Word)) (sch : Nat) : Nat → Nat → Nat → List (Nat × Nat)
  | 0, _, _ => []
  | n + 1, k, start =>
    let w := sget (0 : Word) tbl (sch * 64 + k)
    let rng := bitsOf 17 16 w
    if bitsOf 31 31 w = 1 then [(start, rng)]
    else
      let nxt := bitsOf 15 0 (sget (0 : Word) tbl (sch * 64 + k + 1))
      if n = 0 || nxt ≤ start then [(start, rng)] else (start, rng) :: schedEntries tbl sch n (k + 1) nxt

/-- The entries of schedule `sch` as lane `n` works from them. -/
def State.schedule (s : State) (n sch : Nat) : List (Nat × Nat) := schedEntries (s.orx.sched.getD n []) sch 64 0 0

/-- The schedule entry of a channel: START and range; the last one of a schedule that has become shorter (R104, R107). -/
def State.entryOf (s : State) (c : Nat) : Nat × Nat :=
  let es := s.schedule (c / 2) (s.fld Fld.ORX_Cn_STAT_ASCHED c)
  es.getD (min (s.orxCh c).entry (es.length - 1)) (0, 0)

/-- The range that applies to a channel (R99). -/
def State.rangeOf (s : State) (c : Nat) : Nat :=
  if (s.orxCh c).blanked then s.fld Fld.ORX_Cn_RANGE_BLANKR c
  else
    let mode := s.fld Fld.ORX_Cn_RANGE_MODE c
    if mode = 0 then s.fld Fld.ORX_Cn_RANGE_FIXR c
    else if mode = 1 then (s.orxCh c).loop
    else max (s.fld Fld.ORX_Cn_RANGE_MINR c) ((s.entryOf c).2 - (s.orxCh c).offset)

/-- The range in force follows from device tick `at_` on; each change counts (R98, R102). -/
def State.applyRange (s : State) (c at_ : Nat) : State :=
  if s.rangeOf c = s.fld Fld.ORX_Cn_STAT_RNG c then s
  else ((s.setFld Fld.ORX_Cn_STAT_RNG c (s.rangeOf c)).count Fld.ORX_RSW_CNT c 1).noteConv c at_

/-- The step-down threshold as a sample magnitude (R100). -/
def State.hiLevel (s : State) (c : Nat) : Nat := (s.fld Fld.ORX_Cn_HYST_HI_PCT c * 8192 + 99) / 100

/-- The step-up threshold as a sample magnitude (R100). -/
def State.loLevel (s : State) (c : Nat) : Nat := s.fld Fld.ORX_Cn_HYST_LO_PCT c * 8192 / 100

/-- One sample's effect on the counts: the new channel and whether the step-down and the step-up condition are met. -/
def rangeSample (hi lo hiCnt loCnt : Nat) (x : OrxCh) (code : Int) : OrxCh × Bool × Bool :=
  let mag := code.natAbs
  let h := if hi ≤ mag then x.hiRun + 1 else 0
  let l := if mag ≤ lo then x.loRun + 1 else 0
  let down := decide (hiCnt ≤ h)
  let up := decide (loCnt ≤ l)
  ({ x with hiRun := if down then 0 else h, loRun := if up then 0 else l }, down, up)

/-- A sample at full scale: code -8,192 or +8,191 (R97, R102). -/
def fullScale (code : Int) : Bool := code ≤ -8192 || 8191 ≤ code

/-- One converter sample in automatic mode, taken at device time `at_` (R100, R102). -/
def State.autoSample (s : State) (c at_ : Nat) (code : Int) : State :=
  let x := s.orxCh c
  let s0 := if fullScale code then s.count Fld.ORX_CLIP_CNT c 1 else s
  if s.fld Fld.ORX_Cn_RANGE_MODE c ≠ 1 || x.blanked || x.step.isSome then s0
  else
    let r := rangeSample (s.hiLevel c) (s.loLevel c) (s.fld Fld.ORX_Cn_HYST_HI_CNT c) (s.fld Fld.ORX_Cn_HYST_LO_CNT c) x code
    let target :=
      if r.2.1 then (if s.fld Fld.ORX_Cn_RANGE_MINR c < x.loop then some (x.loop - 1) else none)
      else if r.2.2 then (if x.loop < s.fld Fld.ORX_Cn_RANGE_MAXR c then some (x.loop + 1) else none)
      else none
    s0.onOrx c (fun _ => { r.1 with step := target.map (fun g => (g, at_ + 32)) })

/-- One converter sample in schedule mode: the overload guard (R106). -/
def State.overloadSample (s : State) (c at_ : Nat) (code : Int) : State :=
  let x := s.orxCh c
  let s0 := if fullScale code then s.count Fld.ORX_CLIP_CNT c 1 else s
  if x.blanked || x.rise.isSome || !s.flag Fld.ORX_Cn_RANGE_OVLD_DN c then s0
  else
    let r := rangeSample (s.hiLevel c) 0 (s.fld Fld.ORX_Cn_HYST_HI_CNT c) (2 ^ 32) x code
    if r.2.1 && x.offset < 3 then
      ((s0.onOrx c (fun _ => { r.1 with rise := some (at_ + 32) })).count Fld.ORX_OVLD_CNT c 1).setFlag Fld.ORX_Cn_STAT_OVLD c true
    else s0.onOrx c (fun _ => r.1)

/-- A decided step or overload rise whose tick has come at device time `at_`; both counts restart (R102, R106). -/
def OrxCh.stepPast (x : OrxCh) (at_ : Nat) : OrxCh :=
  match x.step with
  | some (g, due) => if due ≤ at_ && !x.blanked then { x with loop := g, step := none, hiRun := 0, loRun := 0 } else x
  | none =>
    match x.rise with
    | some due => if due ≤ at_ && !x.blanked then { x with offset := x.offset + 1, rise := none, hiRun := 0, loRun := 0 } else x
    | none => x

/-- A decided step or overload rise applies once its tick has come. -/
def State.stepAt (s : State) (c at_ : Nat) : State := (s.onOrx c (fun x => x.stepPast at_)).applyRange c at_

/-- The schedule entry in force at device time `at_`: the last one whose START × 8 ticks have passed since the stamp (R104). -/
def State.entryPast (s : State) (c at_ : Nat) (x : OrxCh) : OrxCh :=
  match x.from0 with
  | some t0 =>
    if s.fld Fld.ORX_Cn_RANGE_MODE c = 2 then
      { x with entry := ((s.schedule (c / 2) (s.fld Fld.ORX_Cn_STAT_ASCHED c)).tail.takeWhile (fun e => t0 + 8 * e.1 ≤ at_)).length }
    else x
  | none => x

/-- A channel out of its lane's blanking window at device time `at_`: its counts start afresh (R108). -/
def State.blankPast (s : State) (c at_ : Nat) (x : OrxCh) : OrxCh :=
  match (s.laneOf (c / 2)).blankEnd with
  | some e => if x.blanked && e ≤ at_ then { x with blanked := false, hiRun := 0, loRun := 0 } else x
  | none => x

/-- Everything scheduled for the channel up to the sample at device time `at_` takes effect at once: the end of blanking, the schedule entry, and a decided step
(R99, R102, R104, R108). -/
def State.reachAt (s : State) (c at_ : Nat) : State := (s.onOrx c (fun x => (s.entryPast c at_ (s.blankPast c at_ x)).stepPast at_)).applyRange c at_

/-- Consecutive samples, one an ACLK tick, the first at device time `at_`: each goes through the converter and the range logic, under the range of its own tick. -/
def State.samples (s : State) (c : Nat) (f : State → Nat → Int → State) (at_ : Nat) : List Int → State
  | [] => s
  | x :: xs => (f ((s.reachAt c at_).hscSample c at_ x) at_ x).samples c f (at_ + 1) xs

/-- RANGE_STEP_DECIDE: the converter codes of channel `c` at consecutive ticks, the first now (R100, R102). -/
def execRangeStepDecide (t : Nat) (c : Nat) (codes : List Int) (s : State) : Out :=
  ticking t s (fun s => s.only (c < 2 * s.lanes && s.fld Fld.ORX_Cn_RANGE_MODE c ≠ 2) (fun s => s.samples c (fun s a x => s.autoSample c a x) s.dev codes))

/-- OVERLOAD_RISE: the converter codes of channel `c` at consecutive ticks, the first now (R106). -/
def execOverloadRise (t : Nat) (c : Nat) (codes : List Int) (s : State) : Out :=
  ticking t s (fun s => s.only (c < 2 * s.lanes && s.fld Fld.ORX_Cn_RANGE_MODE c = 2) (fun s => s.samples c (fun s a x => s.overloadSample c a x) s.dev codes))

/-- A decided step or overload rise applies now (R102, R106). -/
def State.stepApply (s : State) (c : Nat) : State := s.stepAt c s.dev

/-- RANGE_STEP_APPLY (R102). -/
def execRangeStepApply (t : Nat) (c : Nat) (s : State) : Out :=
  ticking t s (fun s => s.only (c < 2 * s.lanes) (fun s => s.stepApply c))

/-- A schedule entry starts when its START × 8 ticks have passed since the stamp (R104). -/
def State.entryStart (s : State) (c : Nat) : State := (s.onOrx c (s.entryPast c s.dev)).applyRange c s.dev

/-- SCHEDULE_ENTRY_START (R104). -/
def execScheduleEntryStart (t : Nat) (c : Nat) (s : State) : Out :=
  ticking t s (fun s => s.only (c < 2 * s.lanes) (fun s => s.entryStart c))

/-- Blanking begins on a channel: a step or rise decided and not applied is discarded, and the counts restart (R107, R108). -/
def State.blankOn (s : State) (c : Nat) : State :=
  let s1 := if (s.orxCh c).rise.isSome && (s.orxCh c).offset = 0 then s.setFlag Fld.ORX_Cn_STAT_OVLD c false else s
  (s1.onOrx c (fun x => { x with blanked := true, step := none, rise := none, hiRun := 0, loRun := 0 })).applyRange c s.dev

/-- Blanking ends on a channel (R108). -/
def State.blankOff (s : State) (c : Nat) : State :=
  (s.onOrx c (fun x => if x.blanked then { x with blanked := false, hiRun := 0, loRun := 0 } else x)).applyRange c s.dev

/-- The lane's blanking window, set at the stamp, opens on both its channels (R108). -/
def State.blankStart (s : State) (n : Nat) : State :=
  match (s.laneOf n).blankEnd with
  | some e => s.only (s.dev < e) (fun s => (s.blankOn (2 * n)).blankOn (2 * n + 1))
  | none => s

/-- BLANK_WINDOW_START (R108). -/
def execBlankWindowStart (t : Nat) (n : Nat) (s : State) : Out :=
  ticking t s (fun s => s.only (n < s.lanes) (fun s => s.blankStart n))

/-- The lane's blanking window ends (R108). -/
def State.blankStop (s : State) (n : Nat) : State :=
  match (s.laneOf n).blankEnd with
  | some e => s.only (e ≤ s.dev) (fun s => ((s.onLane n (fun l => { l with blankEnd := none })).blankOff (2 * n)).blankOff (2 * n + 1))
  | none => s

/-- BLANK_WINDOW_END (R108). -/
def execBlankWindowEnd (t : Nat) (n : Nat) (s : State) : Out :=
  ticking t s (fun s => s.only (n < s.lanes) (fun s => s.blankStop n))

/-- At a stamp the channel's schedule index is the one issued last, a RANGE winning a tie, and schedule mode restarts at entry 0 with no overload
offset (R104 to R107). -/
def State.orxStamp (s : State) (c stamp : Nat) (range : Option (Nat × Nat)) : State :=
  let x := s.orxCh c
  let cand (cur : Nat × Nat) : Option (Nat × Nat) → Bool → Nat × Nat
    | some (i, at_), tie => if cur.2 < at_ || (tie && cur.2 = at_) then (i, at_) else cur
    | none, _ => cur
  let c0 := cand (s.fld Fld.ORX_Cn_STAT_ASCHED c, x.selAt) x.sel false
  let c1 := cand c0 range true
  let s1 := (s.setFld Fld.ORX_Cn_STAT_ASCHED c c1.1).setFlag Fld.ORX_Cn_STAT_OVLD c false
  s1.onOrx c (fun x => { x with selAt := c1.2, sel := none, entry := 0, from0 := some stamp, offset := 0, rise := none })

/-- The ranges of a lane's channels follow, after everything that falls on one sample (R99, R102). -/
def State.rangesFollow (s : State) (n : Nat) : State := (s.applyRange (2 * n) s.dev).applyRange (2 * n + 1) s.dev

/-- A channel takes its ORX configuration, whose mode was `was`: automatic mode that starts works from the range in force, held between MINR and MAXR; one that goes on
keeps its loop and its decided step within the new limits, but for a step that falls on this sample; an index that a commit has changed waits for the next stamp
(R103, R105, R107). -/
def State.orxTake (s : State) (c was : Nat) : State :=
  let held (r : Nat) : Nat := max (s.fld Fld.ORX_Cn_RANGE_MINR c) (min (s.fld Fld.ORX_Cn_RANGE_MAXR c) r)
  let mode := s.fld Fld.ORX_Cn_RANGE_MODE c
  let s1 :=
    if mode = was then
      s.onOrx c (fun x => { x with loop := held x.loop, step := (x.step.filter (fun e => s.dev < e.2)).map (fun e => (held e.1, e.2)) })
    else s.onOrx c (fun x => { x with loop := held (s.fld Fld.ORX_Cn_STAT_RNG c), step := none, rise := none, hiRun := 0, loRun := 0 })
  s1.onOrx c (fun x => { x with sel := if x.selCom.isSome then x.selCom else x.sel, selCom := none })

/-- A lane takes the committed schedule tables, and its channels stand at the entry that is in force by them now; SCHPEND clears once every lane has
(R104, R107, R113). -/
def State.schedTake (s : State) (n : Nat) : State :=
  if s.orx.schedWait.contains n then
    let w := s.orx.schedWait.filter (fun k => k ≠ n)
    let s1 := { s with orx := { s.orx with sched := s.orx.sched.setIfInBounds n s.orx.schedCom, schedWait := w } }.setFlag Fld.ORX_STAT_SCHPEND 0 (!w.isEmpty)
    s1.each [2 * n, 2 * n + 1] (fun c s => s.onOrx c (s.entryPast c s.dev))
  else s

/-- A write to the schedule tables: staged, or discarded while SCHPEND is set (R113, R115). -/
def State.scheduleWrite (s : State) (src : Source) (a : Nat) (val : Word) : State :=
  let i := (a - 0x28000) / 4
  if s.flag Fld.ORX_STAT_SCHPEND 0 then s.clamp src a val (sget 0 s.orx.schedStg i) rsPending 0 31
  else
    ({ s with orx := { s.orx with schedStg := sput 0 s.orx.schedStg i (val &&& 0x8003FFFF), changed := true } }).markDirty 2

/-- SCHEDULE_TABLE_WRITE (R113). -/
def execScheduleTableWrite (t : Nat) (src : Source) (addr val : Word) (s : State) : Out :=
  ticking t s (fun s => s.only (0x28000 ≤ addr.toNat && addr.toNat < 0x29000)
    (fun s => s.pastLocks src addr.toNat val (fun s => s.scheduleWrite src addr.toNat val)))

/-- A schedule that ends because an entry does not start later than the one before it, with neither marked LAST (R115). -/
def schedBroken (tbl : List (Nat × Word)) (sch : Nat) : Bool :=
  let es := schedEntries tbl sch 64 0 0
  let w := sget (0 : Word) tbl (sch * 64 + es.length - 1)
  bitsOf 31 31 w = 0 && es.length < 64

/-- The common-mode checks are active on a channel (R110). -/
def State.cmActive (s : State) (c : Nat) : Bool :=
  s.flag Fld.ORX_Cn_CMWIN_EN c && decide ((s.laneOf (c / 2)).st = .emitting)

/-- ORX_Cn_STAT.ACTIVE of a lane's channels follows (R110). -/
def State.cmShow (s : State) (n : Nat) : State := s.each [2 * n, 2 * n + 1] (fun c s => s.setFlag Fld.ORX_Cn_STAT_ACTIVE c (s.cmActive c))

/-- A common-mode window ends with the currents `ip0` and `im0` in microamperes, measured up to 4,095; a window without the checks breaks both runs (R96, R109, R110). -/
def State.cmWindow (s : State) (c ip0 im0 : Nat) : State :=
  let ip := min ip0 4095
  let im := min im0 4095
  let s1 := ((s.setFld Fld.ORX_Cn_CMVAL_IP_DC c ip).setFld Fld.ORX_Cn_CMVAL_IN_DC c im).setFlag Fld.ORX_Cn_STAT_SERVO_LIM c
    (decide (1000 < max ip0 im0 - min ip0 im0))
  if !s1.cmActive c then s1.onOrx c (fun x => { x with cmFail := 0, cmPass := 0 })
  else
    let lowF := decide (ip + im < 2 * 10 * s.fld Fld.ORX_Cn_CMWIN_CM_LO c)
    let highF := decide (2 * 10 * s.fld Fld.ORX_Cn_CMWIN_CM_HI c < ip + im)
    let imbF := decide (s.fld Fld.ORX_Cn_CMWIN_IMB c * (ip + im) < (max ip im - min ip im) * 100)
    let fails := lowF || highF || imbF
    let x := s1.orxCh c
    let nf := if fails then x.cmFail + 1 else 0
    let np := if fails then 0 else x.cmPass + 1
    let s2 := s1.onOrx c (fun x => { x with cmFail := nf, cmPass := np })
    let mark (s : State) : State :=
      let s := if lowF then s.setFlag Fld.ORX_Cn_STAT_CM_LOW c true else s
      let s := if highF then s.setFlag Fld.ORX_Cn_STAT_CM_HIGH c true else s
      if imbF then s.setFlag Fld.ORX_Cn_STAT_IMB_FLT c true else s
    if s.flag Fld.ORX_Cn_STAT_CMFLT c then
      if 16 ≤ np then
        let s3 := (((s2.setFlag Fld.ORX_Cn_STAT_CM_LOW c false).setFlag Fld.ORX_Cn_STAT_CM_HIGH c false).setFlag Fld.ORX_Cn_STAT_IMB_FLT c false).setFlag
          Fld.ORX_Cn_STAT_CMFLT c false
        (s3.count Fld.ORX_CMFLT_CNT 0 1).faultAt 2 c (0x4010 + 0x200 * c) 0 2
      else mark s2
    else if 4 ≤ nf then
      (((mark s2).setFlag Fld.ORX_Cn_STAT_CMFLT c true).count Fld.ORX_CMFLT_CNT 0 1).faultAt 2 c (0x4010 + 0x200 * c) 0 1
    else s2

/-- CM_WINDOW_END, at the end of each window of 1,024 PCLK; windows count from device time zero (DESIGN CHOICE 16) (R109, R110). -/
def execCmWindowEnd (t : Nat) (c ip im : Nat) (s : State) : Out :=
  ticking t s (fun s => s.only (c < 2 * s.lanes && decide (s.dev % (1024 * pclk) = 0)) (fun s => s.cmWindow c ip im))

end Sys2Proof.Machine
end

