-- ==== Sys2Proof/Machine/Hsc.lean ====
section
/-!
DEFINITION. Spare-slice calibration of the converters: self-calibration, background rotation, trim sweeps, the absolute scale, slice failure and
retirement (spec 05_converters, R123 to R142).
Points that the spec leaves open or that are read from it by inference: DESIGN CHOICE 18 of the assumption log.
-/

namespace Sys2Proof.Machine

/-! ### Channels, slices and phases -/

/-- How many receive channels the device has (R2). -/
def State.channels (s : State) : Nat := 2 * s.lanes

/-- The phase of a channel's rotation (R127). -/
def State.phase (s : State) (c : Nat) : Nat := s.fld Fld.HSC_Cn_SLICE_PHASE c

/-- A channel enters a phase that ends at device time `due`. -/
def State.setPhase (s : State) (c p due : Nat) : State := (s.setFld Fld.HSC_Cn_SLICE_PHASE c p).onHsc c (fun h => { h with due := due })

/-- The durations of R127 in ACLK ticks. -/
def trimTicks : Nat := 524288 * pclk
def shadow0Ticks : Nat := 262144 * pclk
def shadow1Ticks : Nat := (1024 + 262144) * pclk
def estimateTicks : Nat := 4096 * pclk

/-- The slice in position 0 or 1. -/
def State.sliceIn (s : State) (c p : Nat) : Nat := if p = 0 then s.fld Fld.HSC_Cn_SLICE_POS0 c else s.fld Fld.HSC_Cn_SLICE_POS1 c

/-- A slice takes a position. -/
def State.setSlice (s : State) (c p k : Nat) : State :=
  (if p = 0 then s.setFld Fld.HSC_Cn_SLICE_POS0 c k else s.setFld Fld.HSC_Cn_SLICE_POS1 c k).noteConv c s.dev

/-- SCALE of a channel takes a value. -/
def State.setScale (s : State) (c v : Nat) : State := (s.setFld Fld.HSC_Cn_SCALE_SCALE c v).noteConv c s.dev

/-- A channel goes down or comes up (R139). -/
def State.setDown (s : State) (c : Nat) (v : Bool) : State := (s.setFlag Fld.HSC_Cn_SLICE_DOWN c v).noteConv c s.dev

/-- The spare slice, 3 when there is none. -/
def State.spare (s : State) (c : Nat) : Nat := s.fld Fld.HSC_Cn_SLICE_SPARE c

/-- Manual selection is in force on a channel (R140). -/
def State.manual (s : State) (c : Nat) : Bool := s.flag Fld.HSC_MAN_Cn_EN c

/-- A channel can rotate (R127, R128, R139, R140). -/
def State.canRotate (s : State) (c : Nat) : Bool :=
  decide (c < s.channels) && s.flag Fld.HSC_CTRL_ROT_EN 0 && !s.manual c && !s.flag Fld.HSC_Cn_SLICE_NOSPARE c && !s.flag Fld.HSC_Cn_SLICE_DOWN c
    && !s.flag Fld.HSC_STAT_CALBUSY 0

/-- HSC_STAT.ROTDEFER follows the channels that wait (R128). -/
def State.setDefer (s : State) : State := s.setFlag Fld.HSC_STAT_ROTDEFER 0 ((List.range 16).any (fun c => (s.hscCh c).waiting))

/-- A rotation starts; during a trim sweep of the MQ-450 and MQ-250 every one begins with TRIM (R127, R133). -/
def State.startRotation (s : State) (c : Nat) : State :=
  let s1 := (s.onHsc c (fun h => { h with waiting := false, restart := false, ramping := false })).setDefer
  if s.flag Fld.HSC_STAT_SWEEP 0 && s.fixed.variant ≠ .mq850 then s1.setPhase c 1 (s.dev + trimTicks)
  else s1.setPhase c 2 (s.dev + shadow0Ticks)

/-- The sweep ends once every rotating channel has completed it (R133, R134). -/
def State.sweepCheck (s : State) : State :=
  if s.flag Fld.HSC_STAT_SWEEP 0 && (List.range s.channels).all (fun c => (s.hscCh c).swept || !s.canRotate c) then
    let s0 := s.each (List.range s.channels) (fun c s => s.setFlag Fld.HSC_Cn_STAT_TRIMSKIP c (!(s.hscCh c).swept))
    let s1 := (((s0.setFlag Fld.HSC_STAT_SWEEP 0 false).count Fld.HSC_CAL_COUNT 0 1).setFld Fld.HSC_CAL_TIME_S 0 s.ptpSec).setFld
      Fld.HSC_CAL_TIME_NS 0 s.ptpNs
    (s1.setFld Fld.HSC_STAT_TTRIM 0 s.hsc.sweepTemp).calReport 3 0xFF 2 (s1.fld Fld.HSC_CAL_COUNT 0) s.ptpSec s.ptpNs 0 s.hsc.sweepTemp
  else s

/-- A rotation that Hearth cannot start while it restarts keeps its place among the duties that fall due meanwhile (R36, R128). -/
def State.deferRotation (s : State) (c : Nat) : State :=
  if s.sys.deferred.contains (1, c) then s else { s with sys := { s.sys with deferred := s.sys.deferred ++ [(1, c)] } }

/-- A channel that can rotate no more, for want of a spare, by manual selection or by ROT_EN, waits for no rotation; a sweep completes without it (R128, R134, R140). -/
def State.dropWaits (s : State) : State :=
  let out := (List.range s.channels).filter (fun c => !s.canRotate c)
  let s1 := s.each out (fun c s => s.onHsc c (fun h => { h with waiting := false }))
  ({ s1 with sys := { s1.sys with deferred := s1.sys.deferred.filter (fun d => !(d.1 = 1 && out.contains d.2)) } }.setDefer).sweepCheck

/-- A rotation ends: a waiting one starts at once, or when Hearth is back (R36, R128, R133). -/
def State.endRotation (s : State) (c : Nat) : State :=
  let h := s.hscCh c
  let s1 := (s.setPhase c (if s.manual c then 7 else 0) 0).onHsc c (fun h =>
    { h with ramping := false, swap := false, per := s.fld Fld.HSC_ROT_ROT 0, swept := h.swept || decide (h.trimmed = 7) })
  let s2 := s1.sweepCheck
  if h.waiting && s2.canRotate c then (if s2.sys.hearth then s2.startRotation c else s2.deferRotation c) else s2

/-- A rotation in progress is cancelled: no swap is made, a ramp stops where it stands, and NEXT shows the SCALE in force (R123, R138, R142). -/
def State.cancelRotation (s : State) (c : Nat) : State :=
  ((s.setPhase c (if s.manual c then 7 else 0) 0).onHsc c (fun h =>
    { h with ramping := false, swap := false, restart := false, per := s.fld Fld.HSC_ROT_ROT 0 })).setFld Fld.HSC_Cn_SCALE_NEXT c (s.fld Fld.HSC_Cn_SCALE_SCALE c)

/-! ### Retirement (R137 to R139) -/

/-- The first device tick from `t` on at which position `p` takes a sample (R116). -/
def nextSample (p t : Nat) : Nat := if t % 2 = p % 2 then t else t + 1

/-- DEGRADED follows NOSPARE and DOWN (R139, R141). -/
def State.setDegraded (s : State) (c : Nat) : State :=
  s.setFld Fld.HSC_STAT_DEGRADED 0 (setBit (s.fld Fld.HSC_STAT_DEGRADED 0) c (s.flag Fld.HSC_Cn_SLICE_NOSPARE c || s.flag Fld.HSC_Cn_SLICE_DOWN c))

/-- The spare takes position `p` with the corrections measured for it while it was the spare; where the last shadow of the position was another slice's, it keeps its own
corrections (DESIGN CHOICE 18) (R138). -/
def State.spareTakes (s : State) (c p : Nat) : State :=
  let k := s.spare c
  let m := if (s.hscCh c).measBy = k then (s.hscCh c).meas else []
  let load (s : State) (kind : Nat) : State := match m.find? (fun e => e.1 = 3 * p + kind) with
    | some e => s.setCor c k kind e.2
    | none => s
  let s1 := load (load (load s 0) 1) 2
  ((s1.setSlice c p k).setFld Fld.HSC_Cn_SLICE_SPARE c 3).setFlag Fld.HSC_Cn_SLICE_NOSPARE c true

/-- A manual channel's register follows its positions (R140). -/
def State.updateManual (s : State) (c : Nat) : State :=
  if s.manual c then
    let w := withBits 4 3 (withBits 2 1 (s.live (Fld.HSC_MAN_Cn_EN.at c)) (s.sliceIn c 0)) (s.sliceIn c 1)
    ((s.takeLive (Fld.HSC_MAN_Cn_EN.at c) w).setStaged (Fld.HSC_MAN_Cn_EN.at c) w).setPend (Fld.HSC_MAN_Cn_EN.at c) w
  else s

/-- A planned swap on the sample of a retirement is not made: the retirement wins (R138). -/
def State.unswap (s : State) (c : Nat) : State :=
  match (s.hscCh c).swapped with
  | some (t, p) =>
    s.only (t = s.dev) (fun s =>
      let k := s.sliceIn c p
      (((s.setSlice c p (s.spare c)).setFld Fld.HSC_Cn_SLICE_SPARE c k).setFld Fld.HSC_ROT_CNT 0 (s.fld Fld.HSC_ROT_CNT 0 + 2 ^ 32 - 1)).onHsc c (fun h =>
        { h with swapped := none, last := some (1 - p) }))
  | none => s

/-- Slice `k` of channel `c` is retired; the failing window began at `since` (R138, R139). -/
def State.retire (s : State) (c k since : Nat) : State :=
  let s := s.unswap c
  if bit (s.fld Fld.HSC_Cn_SLICE_RETIRED c) k then s
  else
    let s1 := ((s.cancelRotation c).setFld Fld.HSC_Cn_SLICE_RETIRED c (setBit (s.fld Fld.HSC_Cn_SLICE_RETIRED c) k true)).count Fld.HSC_RETIRE_CNT 0 1
    let s2 :=
      if s.spare c = k then (s1.setFld Fld.HSC_Cn_SLICE_SPARE c 3).setFlag Fld.HSC_Cn_SLICE_NOSPARE c true
      else
        let p := if s.sliceIn c 0 = k then 0 else 1
        if s.spare c ≠ 3 then (s1.spareTakes c p).onHsc c (fun h => { h with excl := some (since, nextSample p s.dev) })
        else s1.setDown c true
    (((s2.setDegraded c).updateManual c).faultAt 3 c (0x4000 + 0x200 * c) 0 1).dropWaits

/-! ### Estimates (R129, R132, R136) -/

/-- A measured window under the faults that TST_SLICE forces on slice `k`, the slice of the sums K (R456). -/
def State.faultK (s : State) (c k : Nat) (w : Shadow) : Shadow :=
  if s.sliceFault c k = 2 then
    { w with sumK := w.sumK * 105 / 100, sqK := w.sqK * 11025 / 10000, cross := w.cross * 105 / 100 }
  else if s.sliceFault c k = 3 then
    { w with sumK := w.sumK + 512 * w.n, sqK := ((w.sqK : Int) + 1024 * w.sumK + 262144 * w.n).toNat, cross := w.cross + 512 * w.sumS }
  else w

/-- A window with its two slices exchanged. -/
def flipShadow (w : Shadow) : Shadow := { w with sumS := w.sumK, sumK := w.sumS, sqS := w.sqK, sqK := w.sqS }

/-- A window of slices `k1` (sums S) and `k2` (sums K) under forced faults. -/
def State.faulted (s : State) (c k1 k2 : Nat) (w : Shadow) : Shadow := flipShadow (s.faultK c k1 (flipShadow (s.faultK c k2 w)))

/-- A mean over a window, zero when it holds no sample. -/
def meanOf (n : Nat) (x : Int) : Rat := if n = 0 then 0 else (x : Rat) / n

/-- The gain of the spare relative to the slice beside it, offsets removed by the window means (R129). -/
def shadowRho (w : Shadow) : Rat :=
  let cov := (w.cross : Rat) - meanOf w.n w.sumS * w.sumK
  let var := (w.sqK : Rat) - meanOf w.n w.sumK * w.sumK
  if var = 0 then 1 else cov / var

/-- The nearest integer to 2^20 × √x (R129). -/
def rootGain (x : Rat) : Int :=
  if x ≤ 0 then 0 else (((Nat.sqrt (4 * x.num.toNat * 2 ^ 40 / x.den) + 1) / 2 : Nat) : Int)

/-- GDEV of a gain factor √x (R129). -/
def gdevOf (x : Rat) : Int := rootGain x - 2 ^ 20

/-- The estimate limits of R136: offset ±384 codes, gain ±3.0 % and skew ±20 ps. -/
def withinLimits (off gdev skew : Int) : Bool := off.natAbs ≤ 64 * 384 && 100 * gdev.natAbs ≤ 3 * 2 ^ 20 && skew.natAbs ≤ 2000

/-- The root-mean-square code of both slices of a window is at least 8 (R132). -/
def hasSignal (w : Shadow) : Bool := 64 * w.n ≤ w.sqS && 64 * w.n ≤ w.sqK && 0 < w.n

/-- The corrections that make the spare equal to the slice in a position: its own offset, that slice's gain over the measured ratio, and that
slice's skew with the measured delay. R138 names the corrections measured for the position and gives no formula (DESIGN CHOICE 18). -/
def State.measured (s : State) (c p : Nat) (w : Shadow) : List (Nat × Int) :=
  let k := s.sliceIn c p
  let g : Rat := (2 ^ 20 + (s.cor c k 1 : Rat)) / shadowRho w
  [(3 * p, roundNear (64 * meanOf w.n w.sumS)), (3 * p + 1, roundNear g - 2 ^ 20), (3 * p + 2, s.cor c k 2 + w.tau)]

/-- Mean and mean square of a slice's samples after correction (R136). -/
def State.afterCor (s : State) (c k n : Nat) (sum : Int) (sq : Nat) : Rat × Rat :=
  let o : Rat := (s.cor c k 0 : Rat) / 64
  let g : Rat := (1 + (s.cor c k 1 : Rat) / 2 ^ 20) * ((s.fld Fld.HSC_Cn_SCALE_SCALE c : Rat) / 2 ^ 15)
  let m := meanOf n sum
  ((m - o) * g, (meanOf n sq - 2 * o * m + o * o) * g * g)

/-- Two slices disagree: their means differ by more than 64 codes or their mean squares by more than a factor of 2, while both mean squares are
at least 64 (R136). -/
def pairBad (a b : Rat × Rat) : Bool :=
  decide (64 ≤ a.2 ∧ 64 ≤ b.2) && (decide (64 < a.1 - b.1) || decide (64 < b.1 - a.1) || decide (2 * a.2 < b.2) || decide (2 * b.2 < a.2))

/-- The spare agrees with the slice in position `p`: within the pair-mismatch limits, and both within the estimate limits (R136, R137). -/
def State.agrees (s : State) (c p : Nat) (w : Shadow) : Bool :=
  let a := s.afterCor c (s.spare c) w.n w.sumS w.sqS
  let b := s.afterCor c (s.sliceIn c p) w.n w.sumK w.sqK
  let m := s.measured c p w
  !pairBad a b && withinLimits (roundNear (64 * meanOf w.n w.sumK)) 0 0 && withinLimits ((m.getD 0 (0, 0)).2) ((m.getD 1 (0, 0)).2) ((m.getD 2 (0, 0)).2)

/-! ### Ramps (R130) -/

/-- Every ramped value at step `i` of the ramp: the target at the last step, and between the limits an equal share whose rounding is free. -/
def State.rampTo (s : State) (c i : Nat) : State :=
  let h := s.hscCh c
  let put (s : State) (e : Nat × Int) : State :=
    let o := (h.old.find? (fun x => x.1 = e.1)).elim e.2 (·.2)
    let x : Rat := if h.len ≤ i then e.2 else o + ((e.2 - o : Int) : Rat) * i / h.len
    let v := s.openRound x
    (if e.1 = 9 then s.setScale c (wrapInt 16 v) else s.setCor c (e.1 / 3) (e.1 % 3) v).drawn
  (h.tgt.foldl put s).onHsc c (fun h => { h with step := i })

/-- The ramp is complete: a swap follows at the next sample, or the rotation ends (R131, R132). -/
def State.rampDone (s : State) (c : Nat) : State :=
  let s1 := s.setFld Fld.HSC_Cn_SCALE_NEXT c (s.fld Fld.HSC_Cn_SCALE_SCALE c)
  let h := s1.hscCh c
  if h.swap then (s1.setPhase c 5 s.dev).onHsc c (fun h => { h with ramping := false }) else s1.endRotation c

/-- One step of a running ramp, at a launch stamp of the lane (R130). -/
def State.rampStep (s : State) (c : Nat) : State :=
  let h := s.hscCh c
  if s.phase c = 4 && h.ramping then
    let s1 := s.rampTo c (h.step + 1)
    if h.len ≤ h.step + 1 then s1.rampDone c else s1
  else s

/-- The remaining change applies at once: the lane is not emitting, or stops (R130). -/
def State.rampFinish (s : State) (c : Nat) : State :=
  if s.phase c = 4 && (s.hscCh c).ramping then (s.rampTo c (s.hscCh c).len).rampDone c else s

/-- The tone samples of a channel since the last update, those of a window under way among them (R135). -/
def State.toneSamples (s : State) (c : Nat) : Nat :=
  let w := s.wck.getD (c / 2) Wick.reset
  let h := s.hscCh c
  h.toneN + (if w.toneOn then (match w.tone with
    | (a, b) :: _ => min s.dev b - max a h.toneFrom
    | [] => 0) else 0)

/-- A square root to 2^-32, rounded down. -/
def sqrtQ (x : Rat) : Rat := if x ≤ 0 then 0 else (Nat.sqrt (x.num.toNat * 2 ^ 64 / x.den) : Rat) / 2 ^ 32

/-- A_meas: the amplitude that the correlation of the tone samples with the tone at 61/128 of the sampling rate gives, each sample corrected for the OFF and GDEV of
the slice that took it, as they stood then, and multiplied by the scale factor of its tag (R135). That it is twice the magnitude of the correlation over the number of samples is read from what an amplitude is (assumption 18). -/
def State.toneAmp (s : State) (c : Nat) (xs : List ToneSum) : Rat :=
  let code (x : ToneSum) : Rat :=
    let v := s.convAt c x.at_
    let i := v.slice x.moment
    let k := s.sliceFault c i
    let sum : Rat := if k = 2 then x.sum * 105 / 100 else if k = 3 then x.sum + 512 * x.n else x.sum
    (sum - x.n * (v.off.getD i 0 : Rat) / 64) * (1 + (v.gdev.getD i 0 : Rat) / 2 ^ 20) * normalised 1 v.tag
  let part (f : Int × Int → Int) : Rat := ((xs.map (fun x => code x * f (cosSin (61 * x.moment) 7))).sum) / 2 ^ 96
  let n := (xs.map (·.n)).sum
  let re := part (·.1)
  let im := part (·.2)
  if n = 0 then 0 else 2 * sqrtQ (re * re + im * im) / n

/-- The new SCALE that R135 gives: none keeps the old one. The flags of HSC_Cn_STAT follow; a tagged I_TONE reports as the hold begins, a value out of range each
time. -/
def State.newScale (s : State) (c : Nat) (amp : Rat) : State × Option Int :=
  let excluded : Bool := [2, 3, 4, 5, 6, 7].any (fun i => bit s.hsc.itoneTag i)
  let hold (s : State) (report : Bool) : State := (s.setFlag Fld.HSC_Cn_STAT_SCALEHOLD c true).only report (fun s => s.faultAt 3 c (0x4048 + 0x200 * c) 0 1)
  if !s.flag Fld.HSC_CTRL_SCALE_EN 0 then (s, none)
  else if s.toneSamples c < 65536 then (s.setFlag Fld.HSC_Cn_STAT_TONE_LOW c true, none)
  else
    let s0 := s.setFlag Fld.HSC_Cn_STAT_TONE_LOW c false
    if excluded then (hold s0 (!s.flag Fld.HSC_Cn_STAT_SCALEHOLD c), none)
    else if amp ≤ 0 then (hold s0 true, none)
    else
      let i : Rat := (s.fld Fld.AUX_ITONE_PA 0 : Rat) / 1000
      let v := roundNear (2 ^ 15 * (Config.toneRatio * i / (953674 / 1000000 : Rat)) / amp)
      if v < 26214 ∨ 40960 < v then (hold s0 true, none)
      else
        let s1 := (s0.setFlag Fld.HSC_Cn_STAT_SCALEHOLD c false).setFlag Fld.HSC_Cn_STAT_SCALE_SRC c true
        let s2 := ((s1.setFld Fld.HSC_Cn_TONEAMP_AMP c (min 65535 (s1.openRound (16 * amp)).toNat)).drawn)
        (((s2.setFld Fld.HSC_Cn_TONEAMP_ITONE c (min 65535 (s2.openRound i).toNat)).drawn).onHsc c (fun h => { h with toneN := 0, toneFrom := s.dev }), some v)

/-- The targets of R129 for slices a, b and the spare, as (3 × slice + kind, value). -/
def State.targets (s : State) (c : Nat) (half : Int) (signal : Bool) : List (Nat × Int) × List (Nat × Int) :=
  let h := s.hscCh c
  let a := s.sliceIn c 0
  let b := s.sliceIn c 1
  let p := s.spare c
  let off (n : Nat) (x : Int) : Int := roundNear (64 * meanOf n x)
  let offs := [(3 * a, off h.sh0.n h.sh0.sumK), (3 * b, off h.sh1.n h.sh1.sumK)]
  let offS := (3 * p, off (h.sh0.n + h.sh1.n) (h.sh0.sumS + h.sh1.sumS))
  if !signal then (offs, [offS])
  else
    let ra := shadowRho h.sh0
    let rb := shadowRho h.sh1
    let skA := s.cor c a 2 - half
    let skB := s.cor c b 2 + half
    let follow := if h.last = some 0 then skB else skA
    (offs ++ [(3 * a + 1, gdevOf (ra / rb)), (3 * b + 1, gdevOf (rb / ra)), (3 * a + 2, skA), (3 * b + 2, skB)],
     [offS, (3 * p + 1, gdevOf (1 / (ra * rb))), (3 * p + 2, follow)])

/-- The slices of the listed ones whose targets lie outside the limits of R136. -/
def State.badTargets (s : State) (c : Nat) (ts : List (Nat × Int)) (ks : List Nat) : List Nat :=
  let val (k kind : Nat) : Int := (ts.find? (fun e => e.1 = 3 * k + kind)).elim (s.cor c k kind) (·.2)
  ks.filter (fun k => !withinLimits (val k 0) (val k 1) (val k 2))

/-- Estimation fixes the targets: the spare's apply as a step, the others start a ramp. Every slice outside its limits is retired, the spare first, so that a failing
spare takes no position, with the interval from the start of the shadow that showed it (R129, R130, R132, R135, R136, R138). -/
def State.estimate (s : State) (c : Nat) (tone : List ToneSum) : State :=
  let h := s.hscCh c
  let amp := s.toneAmp c tone
  let signal := hasSignal h.sh0 && hasSignal h.sh1
  -- the position replaced in this rotation: the other one than last time, at first a free choice
  let pos := match h.last with
    | some p => 1 - p
    | none => s.freeVal 2
  let delta := h.sh0.tau - h.sh1.tau
  let s0 := s.drawn.onHsc c (fun h => { h with last := some (1 - pos) })
  let half := s0.openRound ((delta : Rat) / 2)
  let t := s0.targets c half signal
  match s0.badTargets c (t.1 ++ t.2) [s.spare c, s.sliceIn c 0, s.sliceIn c 1] with
  | k :: ks => s0.drawn.each (k :: ks) (fun k s1 =>
      s1.retire c k (h.due - estimateTicks - (if s.sliceIn c 1 = k then shadow0Ticks else shadow1Ticks + shadow0Ticks)))
  | [] =>
    let s1 := (s0.drawn.setFlag Fld.HSC_Cn_STAT_LOWSIG c (!signal))
    let s2 := t.2.foldl (fun s e => s.setCor c (e.1 / 3) (e.1 % 3) e.2) s1
    let sc := if signal then s2.newScale c amp else (s2, none)
    let tg := t.1 ++ (match sc.2 with
      | some v => [(9, v)]
      | none => [])
    let olds := tg.map (fun e => (e.1, if e.1 = 9 then (s.fld Fld.HSC_Cn_SCALE_SCALE c : Int) else s.cor c (e.1 / 3) (e.1 % 3)))
    let s3 := match sc.2 with
      | some v => sc.1.setFld Fld.HSC_Cn_SCALE_NEXT c v.toNat
      | none => sc.1
    let s4 := s3.onHsc c (fun h => { h with old := olds, tgt := tg, len := s.fld Fld.HSC_RAMP_RAMP 0, step := 0, ramping := true, swap := signal })
    if (s.laneOf (c / 2)).st = .emitting then s4 else s4.rampFinish c

/-! ### Self-calibration (R123 to R125) -/

/-- Every lane is OFF or QUENCHED (R123). -/
def State.lanesDark (s : State) : Bool := (List.range s.lanes).all (fun n => (s.laneOf n).st = .off || (s.laneOf n).st = .quenched)

/-- HSC_CALCMD.START. A rotation that was waiting is dropped with those that run: R123 says only that rotations resume on their normal schedule
(DESIGN CHOICE 18) (R123). -/
def State.calibrate (s : State) (src : Source) : State :=
  if s.flag Fld.HSC_STAT_CALBUSY 0 || !s.lanesDark then s.clamp src Fld.HSC_CALCMD_START.addr 1 0 rsState 0 0
  else
    let s1 := s.each (List.range s.channels) (fun c s => (((s.cancelRotation c).setPhase c 6 (s.dev + 1171875 * pclk)).setFlag Fld.HSC_Cn_STAT_DIAG c false).onHsc c
      (fun h => { h with waiting := false, diag := none, trimmed := 0, trimOld := false, swept := false }))
    let s2 := ({ s1 with hsc := { s1.hsc with calSince := some s.dev } }.setDefer).setFlag Fld.HSC_STAT_SWEEP 0 false
    ((s2.setFlag Fld.HSC_STAT_CALBUSY 0 true).setFlag Fld.HSC_STAT_READY 0 false).setFlag Fld.LAN_STAT_HSC_READY 0 false

/-- HSC_CALIBRATE (R123). -/
def execHscCalibrate (t : Nat) (src : Source) (s : State) : Out :=
  ticking t s (fun s => s.pastLocks src Fld.HSC_CALCMD_START.addr 1 (fun s => s.calibrate src))

/-- What the self-calibration measures on a slice with a forced gain or offset fault (R139, R456). -/
def State.faultCal (s : State) (c k : Nat) (x : Int × Int × Int) : Int × Int × Int :=
  if s.sliceFault c k = 2 then (x.1, roundNear (((2 ^ 20 + x.2.1 : Int) : Rat) * 100 / 105) - 2 ^ 20, x.2.2)
  else if s.sliceFault c k = 3 then (x.1 + 64 * 512, x.2.1, x.2.2)
  else x

/-- One channel at step 6: slices outside the limits are retired beside those already retired, positions assigned, corrections and the factory SCALE loaded
(R123, R124, R139). -/
def State.calChannel (s : State) (c : Nat) (m : List (Int × Int × Int)) : State :=
  let was := s.fld Fld.HSC_Cn_SLICE_RETIRED c
  let m := (List.range m.length).map (fun k => s.faultCal c k (m.getD k (0, 0, 0)))
  let ok (k : Nat) : Bool := !bit was k && match m[k]? with
    | some x => withinLimits x.1 x.2.1 x.2.2 && s.sliceFault c k ≠ 1
    | none => true
  let good := [0, 1, 2].filter ok
  let badMask := (if ok 0 then 0 else 1) + (if ok 1 then 0 else 2) + (if ok 2 then 0 else 4)
  let nBad := ([0, 1, 2].filter (fun k => !ok k && !bit was k)).length
  let load (s : State) (k : Nat) : State := match m[k]? with
    | some x => ((s.setCor c k 0 x.1).setCor c k 1 x.2.1).setCor c k 2 x.2.2
    | none => s
  let s1 := load (load (load s 0) 1) 2
  let pos := if s.manual c && good.contains (s.fld Fld.HSC_MAN_Cn_POS0 c) && good.contains (s.fld Fld.HSC_MAN_Cn_POS1 c)
    then (s.fld Fld.HSC_MAN_Cn_POS0 c, s.fld Fld.HSC_MAN_Cn_POS1 c) else (good.getD 0 0, good.getD 1 1)
  let spare := (good.find? (fun k => k ≠ pos.1 && k ≠ pos.2)).getD 3
  let down := decide (good.length < 2)
  let s2 := (((s1.setSlice c 0 pos.1).setSlice c 1 pos.2).setFld Fld.HSC_Cn_SLICE_SPARE c (if down then 3 else spare)).setFld
    Fld.HSC_Cn_SLICE_RETIRED c badMask
  let s3 := ((s2.setFlag Fld.HSC_Cn_SLICE_NOSPARE c (decide (good.length < 3))).setDown c down).setDegraded c
  let f := Config.factoryScale c % 65536
  let s4 := (((s3.setScale c f).setFld Fld.HSC_Cn_SCALE_NEXT c f).setFlag Fld.HSC_Cn_STAT_SCALE_SRC c false).setPhase c
    (if s.manual c then 7 else 0) 0
  let s5 := (s4.onHsc c (fun h => { h with meas := [], measBy := 3, swapped := none, last := none, excl := none })).setFlag Fld.HSC_Cn_STAT_MISMATCH c false
  let s6 := s5.count Fld.HSC_RETIRE_CNT 0 nBad
  (s6.updateManual c).each (List.range nBad) (fun _ s => s.faultAt 3 c (0x4000 + 0x200 * c) 0 1)

/-- The self-calibration completes, with the measured offset, gain deviation and skew of every slice (R123, R124). -/
def State.calDone (s : State) (ttrim : Nat) (slices : List (Int × Int × Int)) : State :=
  match s.hsc.calSince with
  | none => s
  | some t0 =>
    if s.dev < t0 + 1171875 * pclk then s
    else
      let s1 := s.each (List.range s.channels) (fun c s => s.calChannel c ((slices.drop (3 * c)).take 3))
      let fail := (List.range s.channels).any (fun c => s1.flag Fld.HSC_Cn_SLICE_DOWN c)
      let s2 := ({ s1 with hsc := { s1.hsc with calSince := none } }.setFlag Fld.HSC_STAT_CALBUSY 0 false).setFlag Fld.HSC_STAT_CALFAIL 0 fail
      let s3 := (((s2.setFlag Fld.HSC_STAT_READY 0 true).setFlag Fld.LAN_STAT_HSC_READY 0 true).setFld Fld.HSC_STAT_TTRIM 0 ttrim).count Fld.HSC_CAL_COUNT 0 1
      let s4 := (s3.setFld Fld.HSC_CAL_TIME_S 0 s.ptpSec).setFld Fld.HSC_CAL_TIME_NS 0 s.ptpNs
      s4.calReport 3 0xFF 1 (s4.fld Fld.HSC_CAL_COUNT 0) s.ptpSec s.ptpNs (b2n fail) ttrim

/-! ### Rotation (R127 to R131) -/

/-- ROTATE with a channel mask: a rotation starts at once on each channel named where none is running, beside a diagnostic too (DESIGN CHOICE 18); ignored while CALBUSY
is set (R123, R128). -/
def State.rotateNow (s : State) (mask : Nat) : State :=
  s.each (List.range s.channels) (fun c s => s.only (bit mask c && s.canRotate c && s.phase c = 0) (fun s => s.startRotation c))

/-- HSC_ROTATE (R128). -/
def execHscRotate (t : Nat) (src : Source) (mask : Nat) (s : State) : Out :=
  ticking t s (fun s => s.pastLocks src Fld.HSC_CALCMD_START.addr (BitVec.ofNat 32 (2 + mask % 65536 * 65536)) (fun s => s.rotateNow (mask % 65536)))

/-- A rotation falls due: it starts, or waits for the running one or for Hearth (R36, R128). -/
def State.rotationDue (s : State) (c : Nat) : State :=
  if !s.canRotate c then s
  else if !s.sys.hearth then
    ((s.deferRotation c).onHsc c (fun h => { h with waiting := true })).setDefer
  else if s.phase c = 0 && (s.hscCh c).diag.isNone then s.startRotation c
  else (s.onHsc c (fun h => { h with waiting := true })).setDefer

/-- A rotation of channel `c` falls due now: c × HSC_ROT / 16 into a period. That periods count from device time zero, and that the offset is a whole PCLK, is
DESIGN CHOICE 18 (R128). -/
def State.rotationNow (s : State) (c : Nat) : Bool :=
  let per := (s.hscCh c).per
  decide (s.dev % (pclk * per) = pclk * (c * per / 16))

/-- ROTATION_START (R128). -/
def execRotationStart (t : Nat) (c : Nat) (s : State) : Out :=
  ticking t s (fun s => s.only (c < s.channels && s.flag Fld.SYS_CTRL_RUN 0 && s.rotationNow c) (fun s => s.rotationDue c))

/-- A phase of channel `c` has run to its end and no diagnostic holds it. -/
def State.phaseOver (s : State) (c p : Nat) : Bool :=
  decide (c < s.channels) && decide (s.phase c = p) && decide ((s.hscCh c).due ≤ s.dev) && (s.hscCh c).diag.isNone

/-- TRIM_PHASE_END (R133). -/
def execTrimPhaseEnd (t : Nat) (c : Nat) (s : State) : Out :=
  ticking t s (fun s => s.only (s.phaseOver c 1) (fun s =>
    (s.setPhase c 2 (s.dev + shadow0Ticks)).onHsc c (fun h =>
      { h with trimmed := if h.trimOld then h.trimmed else setBit h.trimmed (s.spare c) true, trimOld := false })))

/-- SHADOW0_END (R127). -/
def execShadow0End (t : Nat) (c : Nat) (sh : Shadow) (s : State) : Out :=
  ticking t s (fun s => s.only (s.phaseOver c 2) (fun s =>
    let w := s.faulted c (s.spare c) (s.sliceIn c 0) sh
    (s.setPhase c 3 ((s.hscCh c).due + shadow1Ticks)).onHsc c (fun h => { h with sh0 := w, measBy := s.spare c, meas := s.measured c 0 w ++ h.meas.filter (fun e => 3 ≤ e.1) })))

/-- SHADOW1_END (R127, R129). -/
def execShadow1End (t : Nat) (c : Nat) (sh : Shadow) (s : State) : Out :=
  ticking t s (fun s => s.only (s.phaseOver c 3) (fun s =>
    let w := s.faulted c (s.spare c) (s.sliceIn c 1) sh
    (s.setPhase c 4 ((s.hscCh c).due + estimateTicks)).onHsc c (fun h => { h with sh1 := w, ramping := false, measBy := s.spare c, meas := s.measured c 1 w ++ h.meas.filter (fun e => e.1 < 3) })))

/-- ESTIMATION_DONE, with all the tone samples gathered since the last update (R129, R132, R135). -/
def execEstimationDone (t : Nat) (c : Nat) (tone : List ToneSum) (s : State) : Out :=
  ticking t s (fun s => s.only (s.phaseOver c 4 && !(s.hscCh c).ramping && (tone.map (·.n)).sum = s.toneSamples c) (fun s => s.estimate c tone))

/-- The spare takes over the position replaced in this rotation; the replaced slice becomes the spare (R131). -/
def State.swapSlice (s : State) (c : Nat) : State :=
  let p := 1 - (s.hscCh c).last.getD 1
  let k := s.sliceIn c p
  let s1 := ((s.setSlice c p (s.spare c)).setFld Fld.HSC_Cn_SLICE_SPARE c k).onHsc c (fun h => { h with last := some p, swapped := some (s.dev, p) })
  (s1.count Fld.HSC_ROT_CNT 0 1).endRotation c

/-- SLICE_SWAP (R131). -/
def execSliceSwap (t : Nat) (c : Nat) (s : State) : Out :=
  ticking t s (fun s => s.only (c < s.channels && s.phase c = 5) (fun s => s.swapSlice c))

/-! ### Failure checks (R136, R137) -/

/-- Ticks of a check window and of a diagnostic. -/
def windowTicks : Nat := 16384 * pclk
def diagTicks : Nat := 3072 * pclk

/-- A diagnostic starts at once; a running shadow restarts its rotation afterwards, and a ramp continues (R137). TRIM is no SHADOW phase: it goes on, and its end waits for
the diagnostic's (DESIGN CHOICE 18). -/
def State.startDiag (s : State) (c : Nat) : State :=
  if (s.hscCh c).diag.isSome then s
  else
    let shadow := decide (s.phase c = 2) || decide (s.phase c = 3)
    let s1 := if shadow then s.setPhase c 0 0 else s
    (s1.setFlag Fld.HSC_Cn_STAT_DIAG c true).onHsc c (fun h => { h with diag := some (s.dev + diagTicks), restart := h.restart || shadow })

/-- A bit of slice `k`'s codes held one value for a whole window: the window's codes are seen as the bits that all of them set and the bits that any of them
sets; a forced stuck bit is set in all (R136, R456). -/
def State.stuckBit (s : State) (c k : Nat) (seen : Nat × Nat) : Bool :=
  let forced := if s.sliceFault c k = 1 then 2 ^ s.fld Fld.TST_SLICE_BIT 0 else 0
  (seen.1 ||| forced) % 2 ^ 14 ≠ 0 || (seen.2 ||| forced) % 2 ^ 14 ≠ 2 ^ 14 - 1

/-- A window of 65,536 slice samples ends: `seen` tells the bits that every code and any code of slices 0, 1, 2 set, and `pair` holds position 0 as S and position 1
as K (R136). -/
def State.checkWindow (s : State) (c : Nat) (seen : List (Nat × Nat)) (pair : Shadow) : State :=
  let bad (k : Nat) : Bool := s.stuckBit c k (seen.getD k (0, 2 ^ 14 - 1)) && !bit (s.fld Fld.HSC_Cn_SLICE_RETIRED c) k
  let from_ := s.dev - windowTicks
  let named := [0, 1, 2].filter bad
  let s1 := s.each named (fun k s => s.only (!s.flag Fld.HSC_Cn_SLICE_DOWN c) (fun s => s.retire c k from_))
  if !named.isEmpty || s1.flag Fld.HSC_Cn_SLICE_DOWN c then s1
  else
    let a := s.sliceIn c 0
    let b := s.sliceIn c 1
    let w := s.faulted c a b pair
    let s2 := if s.flag Fld.HSC_Cn_SLICE_NOSPARE c then
        (s.setCor c a 0 (roundNear (64 * meanOf w.n w.sumS))).setCor c b 0 (roundNear (64 * meanOf w.n w.sumK)) else s
    let mism := pairBad (s.afterCor c a w.n w.sumS w.sqS) (s.afterCor c b w.n w.sumK w.sqK)
    if s.flag Fld.HSC_Cn_SLICE_NOSPARE c then s2.setFlag Fld.HSC_Cn_STAT_MISMATCH c mism
    else if mism then s2.startDiag c else s2

/-- SLICE_CHECK_WINDOW: the checks are continuous, so that a window of 16,384 PCLK may end at any tick (R136, R138). -/
def execSliceCheckWindow (t : Nat) (c : Nat) (seen : List (Nat × Nat)) (pair : Shadow) (s : State) : Out :=
  ticking t s (fun s => s.only (c < s.channels && decide (windowTicks ≤ s.dev) && !s.flag Fld.HSC_STAT_CALBUSY 0 && !s.flag Fld.HSC_Cn_SLICE_DOWN c)
    (fun s => s.checkWindow c seen pair))

/-- The diagnostic names the slice to retire (R137). -/
def State.diagEnd (s : State) (c due : Nat) (pos0 pos1 : Shadow) : State :=
  let w0 := s.faulted c (s.spare c) (s.sliceIn c 0) pos0
  let w1 := s.faulted c (s.spare c) (s.sliceIn c 1) pos1
  let restart := (s.hscCh c).restart
  let s1 := (s.setFlag Fld.HSC_Cn_STAT_DIAG c false).onHsc c (fun h =>
    { h with diag := none, restart := false, measBy := s.spare c, meas := s.measured c 0 w0 ++ s.measured c 1 w1 })
  let from_ := due - diagTicks - windowTicks
  match s.agrees c 0 w0, s.agrees c 1 w1 with
  | true, false => s1.retire c (s.sliceIn c 1) from_
  | false, true => s1.retire c (s.sliceIn c 0) from_
  | false, false => (s1.retire c (s.spare c) from_).setFlag Fld.HSC_Cn_STAT_MISMATCH c true
  | true, true =>
    if !s1.canRotate c then s1
    else if s1.phase c = 0 || restart then s1.startRotation c
    else (s1.onHsc c (fun h => { h with waiting := true })).setDefer

/-- SLICE_DIAG_END (R137). -/
def execSliceDiagEnd (t : Nat) (c : Nat) (pos0 pos1 : Shadow) (s : State) : Out :=
  ticking t s (fun s => match (s.hscCh c).diag with
    | some due => s.only (c < s.channels && due ≤ s.dev) (fun s => s.diagEnd c due pos0 pos1)
    | none => s)

/-! ### Trim sweeps and manual selection (R133, R134, R140) -/

/-- Two temperatures differ by more than `d`. -/
def apart (a b d : Nat) : Bool := decide (b + d < a) || decide (a + d < b)

/-- The die temperature beside the converters: while SYS_CTRL.RUN is set a change beyond HSC_CAL_DT starts a sweep, or restarts one; while Hearth restarts the duty is
deferred (R36, R133, R134, R474). -/
def State.sweepStart (s : State) (temp : Nat) : State :=
  let s0 := s.setFld Fld.SYS_TEMP_T1 0 temp
  let running := s.flag Fld.HSC_STAT_SWEEP 0
  let from_ := if running then s.hsc.sweepTemp else s.fld Fld.HSC_STAT_TTRIM 0
  if s.fixed.variant ≠ .mq850 && s.flag Fld.SYS_CTRL_RUN 0 && s.flag Fld.HSC_CTRL_TRIM_EN 0 && s.flag Fld.HSC_STAT_READY 0
      && apart temp from_ (s.fld Fld.HSC_CAL_DT_DT 0) then
    if !s.sys.hearth then
      if s.sys.deferred.any (fun d => d.1 = 3) then s0 else { s0 with sys := { s0.sys with deferred := s0.sys.deferred ++ [(3, 0)] } }
    else
    let s1 := { s0 with hsc := { s0.hsc with sweepTemp := temp } }.setFlag Fld.HSC_STAT_SWEEP 0 true
    (s1.each (List.range s.channels) (fun c s =>
      s.onHsc c (fun h => { h with trimmed := s.fld Fld.HSC_Cn_SLICE_RETIRED c, trimOld := decide (s.phase c = 1), swept := false }))).sweepCheck
  else s0

/-- TRIM_SWEEP_START: the sensor's reading is °C with offset 64 (R133). -/
def execTrimSweepStart (t : Nat) (temp : Nat) (s : State) : Out := ticking t s (fun s => s.sweepStart temp)

/-- A write of HSC_MAN_Cn: staged, or kept with a clamp report (R39, R140). -/
def State.manWrite (s : State) (src : Source) (c : Nat) (val : Word) : State :=
  let a := Fld.HSC_MAN_Cn_EN.at c
  let p0 := bitsOf 2 1 val
  let p1 := bitsOf 4 3 val
  let v := val &&& 0x1F
  let ret := s.fld Fld.HSC_Cn_SLICE_RETIRED c
  if src ≠ .twin && !s.flag Fld.SYS_CTRL_EXPERT_EN 0 then s.clamp src a val (s.staged a) rsExpert 0 31
  else if fusedOff s.fixed a c then s.clamp src a val 0 rsFused 0 31
  else if p0 = p1 || 3 ≤ p0 || 3 ≤ p1 || bit ret p0 || bit ret p1 then
    let w := withBits 0 0 (s.staged a) (bitsOf 0 0 val)
    ((s.setStaged a w).markDirty 3).clamp src a val w rsState 1 4
  else (s.setStaged a v).markDirty 3

/-- HSC_MAN_WRITE (R140). -/
def execHscManWrite (t : Nat) (src : Source) (c : Nat) (val : Word) (s : State) : Out :=
  ticking t s (fun s => s.only (c < 16) (fun s => s.pastLocks src (Fld.HSC_MAN_Cn_EN.at c) val (fun s => s.manWrite src c val)))

/-- A committed manual selection: the positions change as a step, and a rotation in progress ends without a swap (R140). -/
def State.manTake (s : State) (c : Nat) : State :=
  if s.flag Fld.HSC_Cn_SLICE_DOWN c || s.flag Fld.HSC_STAT_CALBUSY 0 then s
  else if s.manual c then
    let p0 := s.fld Fld.HSC_MAN_Cn_POS0 c
    let p1 := s.fld Fld.HSC_MAN_Cn_POS1 c
    let ret := s.fld Fld.HSC_Cn_SLICE_RETIRED c
    let s0 := if p0 = p1 || bit ret p0 || bit ret p1 then s.updateManual c
      else ((s.setSlice c 0 p0).setSlice c 1 p1).setFld Fld.HSC_Cn_SLICE_SPARE c (if ret = 0 then 3 - p0 - p1 else 3)
    (s0.cancelRotation c).setPhase c 7 0
  else if s.phase c = 7 then s.setPhase c 0 0 else s

/-- An HSC commit has taken effect: manual selections, channels that rotate no more, and the rotation period of channels that are not rotating (R22, R128, R140). -/
def State.hscTake (s : State) : State :=
  let idle (s : State) (c : Nat) : Bool := [0, 6, 7].contains (s.phase c)
  (s.each (List.range s.channels) (fun c s =>
    (s.manTake c).only (idle s c) (fun s => s.onHsc c (fun h => { h with per := s.fld Fld.HSC_ROT_ROT 0 })))).dropWaits

end Sys2Proof.Machine
end

