-- ==== Sys2Proof/Machine/Ddc.lean ====
section
/-!
DEFINITION. Downconversion: sub-band paths, their configuration and the outputs they deliver (spec 06_downconversion, R143 to R167).
Points that the spec leaves open or that are read from it by inference: DEDUCED 14; DESIGN CHOICE 17 of the assumption log.
-/

namespace Sys2Proof.Machine

/-! ### Paths (R143, R144) -/

/-- Path `b` of channel `c`. -/
def State.path (s : State) (c b : Nat) : DdcPath := s.ddc.path.getD (4 * c + b) DdcPath.reset

/-- A change of one path. -/
def State.onPath (s : State) (c b : Nat) (f : DdcPath → DdcPath) : State :=
  { s with ddc := { s.ddc with path := s.ddc.path.setIfInBounds (4 * c + b) (f (s.path c b)) } }

/-- The NCO word field of path `b` (R145, R166). -/
def ncoFld (b : Nat) : Fld := { Fld.DDC_Cn_NCO0_WORD with addr := Fld.DDC_Cn_NCO0_WORD.addr + 4 * b }

/-- The group delay field of path `b` (R157). -/
def gdlyFld (b : Nat) : Fld := { Fld.DDC_Cn_GDLY0_GDLY with addr := Fld.DDC_Cn_GDLY0_GDLY.addr + 4 * b }

/-- The phase reference field of path `b` (R146). -/
def phrefFld (b : Nat) : Fld := { Fld.DDC_Cn_PHREF0_PHREF with addr := Fld.DDC_Cn_PHREF0_PHREF.addr + 4 * b }

/-- The half tap count field of probe `b` (R153). -/
def tapsFld (b : Nat) : Fld := { Fld.DDC_MFTAPSn_HT0 with lo := 8 * b, hi := 8 * b + 7 }

/-- The NCO accumulator at device time `t`: it runs on from its latest value, and before that it advanced by the word it had then (R145, R146). -/
def State.ncoAt (s : State) (c b t : Nat) : Nat :=
  let p := s.path c b
  if p.phaseAt ≤ t then (p.phase + s.fld (ncoFld b) c * (t - p.phaseAt)) % 2 ^ 32
  else wrapInt 32 ((p.phase : Int) - p.wordWas * (p.phaseAt - t : Nat))

/-- Delay of the rank filter in samples (R155, R157). -/
def rankDelay (win : Nat) : Nat := if win = 0 then 0 else (win - 1) / 2

/-- The group delay of a path in Q16.8 samples (R157). -/
def pathDelay (p : DdcPath) : Nat :=
  (if p.set = 2 then p.xg else if p.set = 1 then 9 * 256 else 49 * 256) + p.taps / 2 * 256 + rankDelay p.win * 256

/-- A group delay rounded to the nearest whole sample, a half to even (R150). -/
def wholeDelay (g : Nat) : Nat := (roundEven ((g : Rat) / 256)).toNat

/-- The fill length F of R161. -/
def fillLen (p : DdcPath) : Nat := 98 + p.taps + rankDelay p.win

/-- DDC_Cn_STAT and DDC_STAT.SETTLING follow the paths (R161, R164, R166). SET shows path 0's set while the paths of a channel hold different ones, and
SETTLE a changed path from its boundary on, although its outputs carry the flag from the first one after it only (DESIGN CHOICE 17). -/
def State.pathStat (s : State) (c : Nat) : State :=
  let mask (f : DdcPath → Bool) : Nat := ((List.range 4).map (fun b => if f (s.path c b) then 2 ^ b else 0)).sum
  let set := mask (fun p => decide (0 < p.settle + p.next))
  let s1 := ((s.setFld Fld.DDC_Cn_STAT_SETTLE c set).setFld Fld.DDC_Cn_STAT_IDLE c (mask (fun p => !p.run))).setFld Fld.DDC_Cn_STAT_SET c (s.path c 0).set
  s1.setFld Fld.DDC_STAT_SETTLING 0 (setBit (s.fld Fld.DDC_STAT_SETTLING 0) c (decide (set ≠ 0)))

/-- A path restarts as at first use at device time `at_`: every stage starts at zero, and SETTLE counts the outputs from the restart (R160, R161). -/
def State.pathRestart (s : State) (c b at_ : Nat) : State :=
  ((s.onPath c b (fun p => { p.emptied with settle := fillLen p, settleFrom := at_ + 1, next := 0, sat := 0, rankWin := p.win, rankK := p.k, from_ := at_,
                                               out := if s.dev ≤ p.out then p.out else s.dev / 8 * 8 + 8 })).count
    Fld.DDC_RESTART_CNT 0 1).pathStat c

/-- Every running path of the device restarts: the end of a self-calibration (R160). -/
def State.allRestart (s : State) : State :=
  s.each (List.range s.channels) (fun c s => s.each [0, 1, 2, 3] (fun b s => s.only (s.path c b).run (fun s => s.pathRestart c b s.dev)))

/-! ### Taking configuration (R159 to R163) -/

/-- What one path takes from the committed copy; with `filter` and `coefs`, the converted filter and custom coefficients too, and with `restart`, a path that a change
affects restarts: a custom delay changes nothing without the custom set, nor K without the rank filter (R159). SETTLE of a change counts from the first output after it, one group delay later (R161, R163). -/
def State.pathTake (s : State) (c b : Nat) (at_ : Nat) (copy filter coefs restart : Bool) : State :=
  let n := c / 2
  let p := s.path c b
  let en := if copy then bit (s.pfld Fld.DDC_CTRL_EN 0) n else p.en
  let run := en && decide (b < s.fld Fld.WCK_Ln_PROBES_P n)
  let word := if copy then s.pfld (ncoFld b) c else s.fld (ncoFld b) c
  let newNco := word ≠ s.fld (ncoFld b) c
  let set := if copy then (if bit (s.pfld Fld.DDC_XSET_CUSTOM 0) n then 2 else if bit (s.pfld Fld.DDC_PHASEMODE_MINPH 0) n then 1 else 0) else p.set
  let xg := if copy then s.pfld Fld.DDC_XGDLY_GDLY 0 else p.xg
  let win := if copy then (if bit (s.pfld Fld.DDC_MEDIAN_EN 0) n then 2 * s.pfld Fld.DDC_MEDIAN_WIN 0 + 1 else 0) else p.win
  let k := if copy then s.pfld Fld.DDC_MEDIAN_K 0 else p.k
  let taps := if filter then 2 * s.pfld (tapsFld b) n else p.taps
  let newSet := set ≠ p.set || (coefs && set = 2)
  let newMf := filter
  let newWin := win ≠ p.win
  let p1 := { p with run := run, en := en, set := set, xg := xg, win := win, k := k, taps := taps, coef := if coefs then s.ddc.coefCom else p.coef, phase := s.ncoAt c b at_, phaseAt := at_,
                     wordWas := if p.phaseAt = at_ then p.wordWas else s.fld (ncoFld b) c, rankFrom := p.rankFrom }
  let f := fillLen p1
  let due := max (if newNco || newSet then f else 0) (max (if newMf then taps + rankDelay win else 0) (if newWin && win ≠ 0 then rankDelay win else 0))
  let p2 := { p1 with settle := if run then p.settle else 0, next := if run then max p.next due else 0,
                      nextFrom := if due = 0 then p.nextFrom else at_ + 8 * wholeDelay (pathDelay p1), sat := if run then p1.sat else 0,
                      rankFrom := if newWin || decide (k ≠ p.k) then at_ + 8 * wholeDelay (pathDelay p1) else p.rankFrom }
  let s1 := (s.onPath c b (fun _ => p2)).takeLive ((ncoFld b).at c) (BitVec.ofNat 32 word)
  let s2 := s1.setFld (gdlyFld b) c (pathDelay p2)
  let changed := newNco || newSet || newMf || newWin || (decide (k ≠ p.k) && decide (win ≠ 0)) || (decide (xg ≠ p.xg) && decide (set = 2))
  if run && (!p.run || (restart && changed)) then s2.pathRestart c b at_
  else if !run then (s2.onPath c b (fun p => { p.emptied with cur := none, prev := [] })).pathStat c
  else s2.pathStat c

/-- Both channels of a lane take probe `b`'s pending changes at device time `at_`; `gen` says how late the release was fixed (R159, R162). -/
def State.probeTake (s : State) (n b at_ gen : Nat) (restart : Bool) : State :=
  let i := 4 * n + b
  let copy := s.ddc.wait.contains i && decide (s.ddc.commitGen ≤ gen)
  let filter := s.ddc.filt.contains i && s.ddc.mfGen.any (fun e => e.1 = i && decide (e.2 ≤ gen))
  let coefs := s.ddc.cust.contains i && decide (s.ddc.custGen ≤ gen) && !s.ddc.conv.any (fun e => e.1 = 8)
  let s1 := (s.pathTake (2 * n) b at_ copy filter coefs restart).pathTake (2 * n + 1) b at_ copy filter coefs restart
  let ddc := s1.ddc
  let ddc1 := if copy then { ddc with wait := ddc.wait.filter (fun k => k ≠ i) } else ddc
  let mine (e : Nat × Word) : Bool := e.1 / 512 = i
  let ddc2 := if filter then { ddc1 with filt := ddc1.filt.filter (fun k => k ≠ i), mfGen := ddc1.mfGen.filter (fun e => e.1 ≠ i),
                                         spec := (ddc1.spec.filter (fun e => !mine e) ++ ddc1.specCom.filter mine).insertionSort (fun a b => a.1 ≤ b.1) } else ddc1
  let ddc3 := if coefs then { ddc2 with cust := ddc2.cust.filter (fun k => k ≠ i) } else ddc2
  { s1 with ddc := ddc3 }

/-- The window-wide DDC fields that no path holds for itself show the committed copy once no path waits (R435). -/
def State.ddcSettled (s : State) : State :=
  if s.ddc.wait.isEmpty then
    let copy (s : State) (a : Nat) : State := s.takeLive a (s.pend a)
    ([0x40000, 0x40004, 0x40008, 0x42000, 0x42004] ++ (List.range 8).map (fun n => 0x40040 + 4 * n)).foldl copy s
  else s

/-- Spectra and coefficients that a DDC commit changed go to conversion, 128 ticks for each spectrum and 512 for the custom set; one that had been converted and not yet
taken is ready no more (R162). -/
def State.startConversion (s : State) (tapsChanged : List Nat) : State :=
  let ch := s.ddc.specChanged ++ tapsChanged.filter (fun i => !s.ddc.specChanged.contains i)
  let lanes := (List.range s.lanes).filter (fun n => ch.any (fun i => i / 4 = n))
  let step (acc : Nat × List (Nat × Nat)) (n : Nat) : Nat × List (Nat × Nat) :=
    let e := acc.1 + 128 * (ch.filter (fun i => i / 4 = n)).length
    let old := ((s.ddc.conv.find? (fun x => x.1 = n)).map (·.2)).getD 0
    (e, acc.2 ++ [(n, max e old)])
  let r := lanes.foldl step (s.dev, [])
  let custom := if s.ddc.coefChanged then [(8, s.dev + 512)] else []
  let users := if s.ddc.coefChanged then List.range (4 * s.lanes) else []
  let keep := s.ddc.conv.filter (fun e => !lanes.contains e.1 && !(e.1 = 8 && s.ddc.coefChanged))
  let add := ch.filter (fun i => !s.ddc.filt.contains i)
  let more := users.filter (fun i => !s.ddc.cust.contains i)
  let s1 := { s with ddc := { s.ddc with conv := keep ++ r.2 ++ custom, filt := s.ddc.filt ++ add, cust := s.ddc.cust ++ more, specCom := s.ddc.specStg, specChanged := [],
                                         coefCom := s.ddc.coefStg, coefChanged := false, mfGen := s.ddc.mfGen.filter (fun e => !ch.contains e.1) } }
  let s2 := s1.each lanes (fun n s => s.setLaneBit Fld.DDC_STAT_MFPEND n true)
  if custom.isEmpty then s2 else s2.setFlag Fld.DDC_STAT_XPEND 0 true

/-- A conversion completes: its pending bit clears and the lane's new filters are ready for launches fixed from now on (R162). -/
def State.conversionDone (s : State) (unit : Nat) : State :=
  match s.ddc.conv.find? (fun e => e.1 = unit) with
  | none => s
  | some e =>
    if s.dev < e.2 then s
    else
      let g := s.ddc.gen + 1
      let ready := (s.ddc.filt.filter (fun i => i / 4 = unit && !s.ddc.mfGen.any (fun e => e.1 = i))).map (fun i => (i, g))
      let s1 := { s with ddc := { s.ddc with conv := s.ddc.conv.filter (fun e => e.1 ≠ unit), gen := g, mfGen := s.ddc.mfGen ++ ready,
                                                                 custGen := if unit = 8 then g else s.ddc.custGen } }
      if unit = 8 then s1.setFlag Fld.DDC_STAT_XPEND 0 false else s1.setLaneBit Fld.DDC_STAT_MFPEND unit false

/-! ### Table writes (R162, R167) -/

/-- The custom coefficient ranges of R167. -/
def customRange (off : Nat) : Bool :=
  (0xC000 ≤ off && off ≤ 0xC04B) || (0xC100 ≤ off && off ≤ 0xC20B) || (0xC400 ≤ off && off ≤ 0xC67B)

/-- A write to the spectra of the lane in DDC_TBLPAGE, or to the custom coefficients: a tap is stored as the sign extension of its low 18 bits, with no report where the
bits above them differ (DESIGN CHOICE 17) (R162, R167). -/
def State.spectrumWrite (s : State) (src : Source) (a : Nat) (val : Word) : State :=
  let off := a % 0x10000
  if off < 0xA000 then
    let n := s.fld Fld.DDC_TBLPAGE_LANE 0
    let i := n * 2048 + (off - 0x8000) / 4
    if s.laneBit Fld.DDC_STAT_MFPEND n then s.clamp src a val (sget 0 s.ddc.specStg i) rsPending 0 31
    else ({ s with ddc := { s.ddc with specStg := sput 0 s.ddc.specStg i val,
                                       specChanged := if s.ddc.specChanged.contains (i / 512) then s.ddc.specChanged else s.ddc.specChanged ++ [i / 512] } }).markDirty 4
  else if customRange off then
    let i := off / 4
    let old := sget (0 : Word) s.ddc.coefStg i
    if src ≠ .twin && !s.flag Fld.SYS_CTRL_EXPERT_EN 0 then s.clamp src a val old rsExpert 0 31
    else if s.flag Fld.DDC_STAT_XPEND 0 then s.clamp src a val old rsPending 0 31
    else ({ s with ddc := { s.ddc with coefStg := sput 0 s.ddc.coefStg i (BitVec.ofNat 32 (wrapInt 32 (signed 18 val.toNat))), coefChanged := true } }).markDirty 4
  else s

/-- SPECTRUM_WRITE (R162). -/
def execSpectrumWrite (t : Nat) (src : Source) (addr val : Word) (s : State) : Out :=
  ticking t s (fun s => s.only (0x48000 ≤ addr.toNat && addr.toNat < 0x4D000) 
    (fun s => s.pastLocks src addr.toNat val (fun s => s.spectrumWrite src addr.toNat val)))

/-! ### Outputs (R146, R155 to R158) -/

/-- When the first output of a frame emerges (R27). -/
def DdcFrame.start (f : DdcFrame) : Nat := f.stamp + 48 + 8 * f.gdly

/-- The frame, of those listed newest first, in which an output emerging at device time `t` is placed, with its point: a frame ends at N points, or as many as the
stamp after its own, `cut`, leaves it (R27, R50, R163). -/
def pointIn (t : Nat) : Option Nat → List DdcFrame → Option (DdcFrame × Nat)
  | _, [] => none
  | cut, f :: rest =>
    if f.start ≤ t then
      let i := (t - f.start) / 8
      if i < f.n && (match cut with
          | some u => decide (i < (u - f.stamp) / 8)
          | none => true) then some (f, i) else none
    else pointIn t (some f.stamp) rest

/-- A path's frames, newest first. -/
def DdcPath.frames (p : DdcPath) : List DdcFrame := p.cur.toList ++ p.prev

/-- The frame in which an output emerging at device time `t` is placed, with its point (R27, R50, R163). -/
def framePoint (p : DdcPath) (t : Nat) : Option (DdcFrame × Nat) := pointIn t none p.frames

/-- The frames that outputs from device time `t` on can still be placed in: the latest that has begun and those after it (R50). -/
def DdcPath.live (p : DdcPath) (t : Nat) : List DdcFrame :=
  p.frames.takeWhile (fun f => t < f.start) ++ (p.frames.dropWhile (fun f => t < f.start)).take 1

/-- The rotation by the conjugate of the NCO phase at the stamp, requantised (R146, R156). -/
def rotateBack (z : IQ) (phref : Nat) : IQ × Bool :=
  let c := cosSin phref 32
  quantIQ 28 96 (z.1 * c.1 + z.2 * c.2, z.2 * c.1 - z.1 * c.2)

/-- Eight times the magnitude estimate of R155. -/
def magEst8 (i q : Int) : Nat := 8 * max i.natAbs q.natAbs + 3 * min i.natAbs q.natAbs

/-- The window member of median rank, the earliest among equal estimates; the window is newest first (R155). -/
def medianOf (w : List RankIn) : Option RankIn :=
  let ord := w.reverse.insertionSort (fun a b => magEst8 a.i a.q ≤ magEst8 b.i b.q)
  match ord[w.length / 2]? with
  | some m => w.reverse.find? (fun x => magEst8 x.i x.q = magEst8 m.i m.q)
  | none => none

/-- The rank filter: the output in the middle of the window, and whether it was replaced; a replaced output is the median member whole, its own SAT flag included
(R155; DESIGN CHOICE 17). -/
def rankOut (p : DdcPath) (hist : List RankIn) : Option (RankIn × Bool) :=
  if p.rankWin = 0 then hist.head?.map (fun x => (x, false))
  else
    match hist[rankDelay p.rankWin]?, medianOf hist with
    | some c, some m => if p.rankK * magEst8 m.i m.q < 4 * magEst8 c.i c.q then some ({ m with frame := c.frame }, true) else some (c, false)
    | _, _ => none

/-- The output word of R158. -/
def outputWord (b : Nat) (x : Sample) : Nat :=
  wrapInt 28 x.i + b2n x.settle * 2 ^ 28 + b2n x.blank * 2 ^ 29 + b2n x.sat * 2 ^ 30 + b2n x.med * 2 ^ 31 + wrapInt 28 x.q * 2 ^ 32 + b % 4 * 2 ^ 60

/-- The path as the output due at device time `t` finds it: a change's SETTLE count opens with the change's first output, and the rank stage takes its new window
with the first sample of the frame that the change opened (R161, R163). -/
def DdcPath.reach (p : DdcPath) (t : Nat) : DdcPath :=
  let open_ := decide (0 < p.next) && decide (p.nextFrom ≤ t)
  let p1 := if open_ then { p with settle := max p.settle p.next, settleFrom := max p.settleFrom p.nextFrom, next := 0 } else p
  if p.rankFrom ≤ t + 8 * rankDelay p.win then { p1 with rankWin := p.win, rankK := p.k, hist := if p.rankWin = p.win then p.hist else [] } else p1

/-- The bins of the spectrum in force of probe `b` of lane `n` (R152, R162). -/
def State.binsOf (s : State) (n b : Nat) : List (Nat × Word) := s.ddc.spec.filter (fun e => e.1 / 512 = 4 * n + b)

/-- One output of a path at device time `t`, from the channel's eight samples up to one tick before it, none of them older than a restart: filtered, rotated, ranked
and flagged; what it is and where it is placed. An output that falls in no frame is not rotated, and passes through the rank window and into captures as it is
(DESIGN CHOICE 17) (R143, R146, R151, R155 to R158, R160). -/
def State.pathOutput (s : State) (c b t : Nat) (xs : List (Int × Nat)) : State × Option (Sample × DdcFrame × Nat) :=
  let since := (s.path c b).from_
  let ys := (List.range 8).map (fun k => if t + k < since + 8 then (0, 3) else xs.getD k (0, 3))
  let fed := ((s.path c b).reach t).feedAll ys (fun k => s.ncoAt c b (t + k - 8))
  let p := fed.1
  let mf := p.matched (s.binsOf (c / 2) b)
  let place := framePoint p (t + 8 * rankDelay p.rankWin)
  let rot := match place with
    | some (f, _) => rotateBack mf.1 f.phref
    | none => (mf.1, false)
  let x : RankIn := ⟨rot.1.1, rot.1.2, mf.2 || rot.2, place.map (·.1)⟩
  let hist := if p.hist.isEmpty then List.replicate (max 1 p.rankWin) x else (x :: p.hist).take (max 1 p.rankWin)
  let p1 := { p with hist := hist, sat := if 0 < fed.2 then 98 + p.taps else p.sat }
  let s1 := s.count Fld.DDC_SAT_CNT c (fed.2 + b2n mf.2 + b2n rot.2)
  match rankOut p1 hist with
  | none => (s1.onPath c b (fun _ => p1), none)
  | some (o, med) =>
    let here := framePoint p t
    let blank := match here with
      | some (f, k) => decide (k < f.blank)
      | none => false
    let y : Sample := ⟨o.i, o.q, decide (0 < p1.settle), blank, o.sat || decide (0 < p1.sat), med⟩
    let s2 := if med then s1.count Fld.DDC_MED_CNT c 1 else s1
    let s3 := (s2.onPath c b (fun _ => { p1 with settle := if p1.settleFrom ≤ t then p1.settle - 1 else p1.settle, sat := p1.sat - 1, word := outputWord b y })).pathStat c
    (s3, here.map (fun h => (y, h.1, h.2)))

end Sys2Proof.Machine
end

