-- ==== Sys2Proof/Machine/Engine.lean ====
section
/-!
DEFINITION. Anvil engines apart from their instructions: memories, states, control writes, DMA, binding, events and tachometers
(spec 08_anvil_engines, R193 to R225; the error injection of R456).
Points that the spec leaves open or that are read from it by inference: DESIGN CHOICE 13, 25; DEDUCED 51, 55 of the assumption log.
-/

namespace Sys2Proof.Machine

/-! ### Pending copies (R435, R436) -/

/-- PEND of a window clears; a CRC hold in force counts its time from here (R435, R448). -/
def State.pendClear (s : State) (win : Nat) : State :=
  if bit (s.fld Fld.SYS_COMMIT_PEND 0) win then
    let s1 := s.setFld Fld.SYS_COMMIT_PEND 0 (setBit (s.fld Fld.SYS_COMMIT_PEND 0) win false)
    if s.sys.hold.isSome then { s1 with sys := { s1.sys with hold := some s.now } } else s1
  else s

/-- A unit of a window has taken its pending copy; PEND clears once every unit has (R435). -/
def State.took (s : State) (win unit : Nat) : State :=
  let w := s.regs.wait.filter (fun e => e ≠ (win, unit))
  let s1 := { s with regs := { s.regs with wait := w } }
  if w.any (fun e => e.1 = win) || (win = 4 && !s.ddc.wait.isEmpty) then s1 else s1.pendClear win

/-- A unit of a window has a copy to take. -/
def State.waits (s : State) (win unit : Nat) : Bool := s.regs.wait.contains (win, unit)

/-! ### Memories (R194 to R196) -/

/-- `n` bytes of data memory. -/
def Engine.bytes (x : Engine) (a : Nat) : Nat → List Byte
  | 0 => []
  | n + 1 => sget 0 x.dmem a :: x.bytes (a + 1) n

/-- A little-endian number of `n` bytes in data memory. -/
def Engine.load (x : Engine) (a n : Nat) : Nat := leNat (x.bytes a n)

/-- Bytes stored in data memory. -/
def Engine.store (x : Engine) (a : Nat) : List Byte → Engine
  | [] => x
  | b :: bs => ({ x with dmem := sput 0 x.dmem a b }).store (a + 1) bs

/-- The engine of a memory address of the control bus and the offset in its block (R194). -/
def memUnit (a : Nat) : Nat × Nat := ((a - 0x01000000) / 0x100000, (a - 0x01000000) % 0x100000)

/-- The instruction word at an address of IMEM. -/
def Engine.word (x : Engine) (k : Nat) : Nat :=
  (sget (0 : Word) x.imem (2 * k)).toNat + 2 ^ 32 * (sget (0 : Word) x.imem (2 * k + 1)).toNat

/-! ### States (R198 to R203) -/

/-- The engine stops in ERROR at the instruction at its PC with a code, and posts a fault report (R203). -/
def State.engFault (s : State) (e code : Nat) : State :=
  let pc := (s.engine e).pc
  let s1 := s.onEngine e (fun x => { x with st := .error, run := false, haltReq := false, stepping := false, err := code, errPc := x.pc, wait := .none, rep := none, loop := (x.rep.map Rep.left).getD x.loop })
  s1.fault 7 e (0x401C + 0x400 * e) (3 + 16 * code) pc 1

/-- RUN from HALTED issues at the PC; in ERROR it stays 0 with a clamp report (R199). -/
def State.engRun (s : State) (src : Source) (e : Nat) : State :=
  let x := s.engine e
  match x.st with
  | .halted => s.onEngine e (fun x => { x with st := .running, run := true, haltReq := false, stepping := false })
  | .error => s.clamp src (Fld.ANV_En_CTRL_RUN.at e) 1 0 rsState 0 0
  | _ => s

/-- RUN cleared: a WAITING engine halts at once, a running one at its next boundary (R199, R200). -/
def State.engHaltReq (s : State) (e : Nat) : State :=
  s.onEngine e (fun x => match x.st with
    | .running => { x with haltReq := true }
    | .waiting => { x with st := .halted, run := false, haltReq := false, stepping := false, wait := .none }
    | _ => x)

/-- RESET from HALTED or ERROR clears registers, events and DMA channels; memories and the binding are kept (R224). -/
def State.engReset (s : State) (src : Source) (e : Nat) : State :=
  let x := s.engine e
  if x.st = .halted || x.st = .error then
    s.setEngine e { Engine.reset e with imem := x.imem, dmem := x.dmem, bound := x.bound, cken := x.cken, posSlot := x.posSlot, posBlk := x.posBlk }
  else s.clamp src (Fld.ANV_En_CTRL_RESET.at e) 4 0 rsState 2 2

/-- CLRERR from ERROR returns to HALTED (R203, R224). -/
def State.engClrErr (s : State) (e : Nat) : State :=
  s.onEngine e (fun x => if x.st = .error then { x with st := .halted, err := 0 } else x)

/-- STEP from HALTED issues one instruction (R224). -/
def State.engStep (s : State) (e : Nat) : State :=
  s.onEngine e (fun x => if x.st = .halted then { x with st := .running, run := false, stepping := true } else x)

/-- An engine of this variant; a write to a fused-off one is discarded with a clamp report (R3). -/
def State.withEngine (s : State) (src : Source) (addr : Nat) (e : Nat) (val : Word) (f : State → State) : State :=
  if e < s.lanes then f s else s.clamp src addr val 0 rsFused 0 31

/-- A write of ANV_En_CTRL: CLRERR, RESET, RUN, then STEP if RUN stays 0 (R224). -/
def State.engCtrl (s : State) (src : Source) (e : Nat) (val : Word) : State :=
  let v := val.toNat
  let s1 := if bit v 3 then s.engClrErr e else s
  let s2 := if bit v 2 then s1.engReset src e else s1
  let s3 := if bit v 0 then s2.engRun src e else s2.engHaltReq e
  if bit v 1 && !bit v 0 then s3.engStep e else s3

/-- A command on engine `e` < 8 that is a write of `val` to its control register. -/
def onCtrl (t : Nat) (src : Source) (e val : Nat) (s : State) : Out :=
  clocked t s (fun s => s.only (e < 8) (fun s =>
    let w := BitVec.ofNat 32 val
    s.pastLocks src (Fld.ANV_En_CTRL_RUN.at e) w (fun s => s.withEngine src (Fld.ANV_En_CTRL_RUN.at e) e w (fun s => s.engCtrl src e w))))

/-- ENGINE_RUN (R199). -/
def execEngineRun (t : Nat) (src : Source) (e : Nat) (s : State) : Out := onCtrl t src e 1 s

/-- ENGINE_HALT_REQUEST (R199). -/
def execEngineHaltRequest (t : Nat) (src : Source) (e : Nat) (s : State) : Out := onCtrl t src e 0 s

/-- The engine stands at an instruction boundary: not inside a REP or a POST (R200). -/
def Engine.atBoundary (x : Engine) : Bool := decide (x.rep = none) && decide (x.wait = .none)

/-- ENGINE_HALT: the requested halt takes effect at the boundary (R200). -/
def execEngineHalt (t : Nat) (e : Nat) (s : State) : Out :=
  clocked t s (fun s => s.only (e < 8 && (s.engine e).st = .running && (s.engine e).haltReq && (s.engine e).atBoundary)
    (fun s => s.onEngine e (fun x => { x with st := .halted, run := false, haltReq := false, stepping := false })))

/-- ENGINE_STEP: a write with STEP alone, whose RUN = 0 requests a halt too (R224). -/
def execEngineStep (t : Nat) (src : Source) (e : Nat) (s : State) : Out := onCtrl t src e 2 s

/-- ENGINE_RESET: a write with RESET alone (R224). -/
def execEngineReset (t : Nat) (src : Source) (e : Nat) (s : State) : Out := onCtrl t src e 4 s

/-- ENGINE_CLRERR: a write with CLRERR alone (R224). -/
def execEngineClrerr (t : Nat) (src : Source) (e : Nat) (s : State) : Out := onCtrl t src e 8 s

/-- A write of ANV_En_PC: discarded with a clamp report while the engine runs or waits (R199). -/
def State.engPcWrite (s : State) (src : Source) (e : Nat) (val : Word) : State :=
  let x := s.engine e
  if x.st = .halted || x.st = .error then s.onEngine e (fun x => { x with pc := val.toNat % 8192 })
  else s.clamp src (Fld.ANV_En_PC_PC.at e) val (BitVec.ofNat 32 x.pc) rsState 0 12

/-! ### Host accesses to the memories (R194 to R197) -/

/-- A host write of IMEM at an offset of engine `e` (R195). -/
def State.imemWrite (s : State) (src : Source) (a : Nat) (val : Word) : State :=
  let u := memUnit a
  s.withEngine src a u.1 val (fun s =>
    let x := s.engine u.1
    if x.st = .halted || x.st = .error then
      (s.setEngine u.1 { x with imem := sput 0 x.imem (u.2 / 4) val }).eccWrite 2 (engBase u.1) (u.2 / 4 * 4) 4
    else s.clamp src a val (sget 0 x.imem (u.2 / 4)) rsState 0 31)

/-- IMEM_WRITE (R195). -/
def execImemWrite (t : Nat) (src : Source) (addr val : Word) (s : State) : Out :=
  ticking t s (fun s => s.only (0x01000000 ≤ addr.toNat && addr.toNat < 0x01800000 && addr.toNat % 0x100000 < 0x10000)
    (fun s => s.pastLocks src addr.toNat val (fun s => s.imemWrite src addr.toNat val)))

/-- A host access to the data memory of a running engine, whichever way it comes, may take a tick from it, once it has waited 64: a free value (R196, R223). -/
def State.hostStall (s : State) (e : Nat) : State :=
  s.only (decide (e < s.lanes) && (s.engine e).st = .running) (fun s => s.drawn.count Fld.ANV_STALL_CNT e (s.freeVal 2))

/-- A host write of a DMEM word (R195, R196). -/
def State.dmemWrite (s : State) (src : Source) (a : Nat) (val : Word) : State :=
  let u := memUnit a
  let o := (u.2 - 0x80000) / 4 * 4
  s.withEngine src a u.1 val (fun s => ((s.hostStall u.1).onEngine u.1 (fun x => x.store o (leBytes 4 val.toNat))).eccWrite 1 (engBase u.1) o 4)

/-- A host read of a word of IMEM or DMEM, with the effect of a memory error (R194, R197). -/
def State.memRead (s : State) (a : Nat) : State × Word :=
  let u := memUnit a
  let imem := decide (u.2 < 0x10000)
  let o := if imem then u.2 / 4 * 4 else (u.2 - 0x80000) / 4 * 4
  let tg := if imem then 2 else 1
  if s.lanes ≤ u.1 || (0x10000 ≤ u.2 && u.2 < 0x80000) then (s, 0)
  else
    let s := s.only (!imem) (fun s => s.hostStall u.1)
    let x := s.engine u.1
    let w := if imem then sget (0 : Word) x.imem (u.2 / 4) else BitVec.ofNat 32 (x.load o 4)
    match s.eccAt tg (engBase u.1 + o) with
    | 0 => (s, w)
    | 1 => (s.eccCorrect tg (engBase u.1 + o) 4, w)
    | _ => (((s.drawn.drawn).count Fld.ANV_ECC_CNT 0 1).faultAt 7 u.1 (0x401C + 0x400 * u.1) 0 3, s.asStored w)

/-- DMEM_HOST_ACCESS: a read answers its word (R195 to R197). -/
def execDmemHostAccess (t : Nat) (src : Source) (addr val : Word) (write : Bool) (s : State) : Out :=
  ticking t s (fun s => s.only (0x01000000 ≤ addr.toNat && addr.toNat < 0x01800000 && 0x80000 ≤ addr.toNat % 0x100000) (fun s =>
    if write then s.pastLocks src addr.toNat val (fun s => s.dmemWrite src addr.toNat val)
    else
      let r := s.memRead addr.toNat
      { r.1 with resp := leBytes 4 r.2.toNat }))

/-! ### DMA (R209 to R212) -/

/-- A change of DMA channel `c`. -/
def Engine.onDma (x : Engine) (c : Nat) (f : Dma → Dma) : Engine :=
  { x with dma := x.dma.setIfInBounds c (f (x.dma.getD c Dma.reset)) }

/-- The channel `c`. -/
def Engine.chan (x : Engine) (c : Nat) : Dma := x.dma.getD c Dma.reset

/-- The DRAM address of row `r` of a transfer. -/
def Dma.dramRow (d : Dma) (r : Nat) : Nat := ((d.daddr : Int) + r * d.dstride).toNat

/-- The DMEM address of row `r`, which wraps within DMEM (R209). -/
def Dma.dmemRow (d : Dma) (r : Nat) : Nat := (((d.maddr : Int) + r * d.mstride) % 0x80000).toNat

/-- The tile region as lane `n` works from it: base and size (R29). -/
def State.tileRegion (s : State) (n : Nat) : Nat × Nat :=
  (s.laneFld n Fld.PHX_TILEBASE_BASE * 2 ^ 20, 2 * s.lanes * 98304 * s.laneFld n Fld.PHX_BLOCK_BLOCK)

/-- Some of `len` bytes from an address lie in a tile region. -/
def State.inTiles (s : State) (a len : Nat) : Bool :=
  (List.range s.lanes).any (fun n => decide (a < (s.tileRegion n).1 + (s.tileRegion n).2) && decide ((s.tileRegion n).1 < a + len))

/-- The memory port of a beat at a DRAM address: reads inside the tile region travel on MP1, all else on MP2 or MP3 by the engine (R30, R211, R308). -/
def State.dmaPort (s : State) (e : Nat) (out : Bool) (a : Nat) : Nat := if !out && s.inTiles a 64 then 1 else if e < 4 then 2 else 3

/-- The page hint of a transfer: auto-precharge on rows shorter than 256 bytes (R309). -/
def Dma.short (d : Dma) : Bool := decide (d.len < 256)

/-- One 64-byte beat from DRAM to DMEM or back; a single-bit error of DMEM that it reads is corrected and counted (R197, R211). -/
def State.dmaBeat (s : State) (e : Nat) (d : Dma) (r k : Nat) : State :=
  let da := d.dramRow r + 64 * k
  let ma := (d.dmemRow r + 64 * k) % 0x80000
  if d.out then (s.eccCorrect 1 (engBase e + ma) 64).dramWrite (s.dmaPort e true da) d.short da ((s.engine e).bytes ma 64)
  else (s.onEngine e (fun x => x.store ma (s.readBytes da 64))).eccWrite 1 (engBase e) ma 64

/-- The beats of a row are read from DRAM, each on its port; true when one of them is poisoned. -/
def State.dmaFetch (s : State) (e : Nat) (d : Dma) (r : Nat) : State × Bool :=
  (List.range (d.len / 64)).foldl (fun acc k =>
    let a := d.dramRow r + 64 * k
    let m := acc.1.portRead (acc.1.dmaPort e false a) d.short a 64
    (m.1, acc.2 || m.2)) (s, false)

/-- The rows of a transfer from row `r` on; an uncorrectable error of DMEM or DRAM ends it at the failing row (R197, R210, R324). -/
def State.dmaRows (s : State) (e : Nat) (d : Dma) : Nat → Nat → State × Nat
  | 0, _ => (s, 0)
  | n + 1, r =>
    if d.out then
      if (List.range (d.len / 64)).any (fun k => s.eccRange 1 (engBase e + (d.dmemRow r + 64 * k) % 0x80000) 64 = 2) then (s, n + 1)
      else ((List.range (d.len / 64)).foldl (fun s k => s.dmaBeat e d r k) s).dmaRows e d n (r + 1)
    else
      let m := s.dmaFetch e d r
      if m.2 then (m.1, n + 1) else ((List.range (d.len / 64)).foldl (fun s k => s.dmaBeat e d r k) m.1).dmaRows e d n (r + 1)

/-- The low 16 bits of a lane's open block (R176, R212). -/
def State.openBlock (s : State) (n : Nat) : Nat := s.fld Fld.PHX_Ln_BLKPOS_BLK n

/-- A transfer completes; a tile read judges whether its buffer was reclaimed; the channel's event is raised. One that ends with ERRCODE 5 sets ASTAT.DMAERR as one with
ERRCODE 6 does (DESIGN CHOICE 25) (R197, R210 to R212, R214, R324). -/
def State.dmaComplete (s : State) (e c : Nat) : State :=
  let d := (s.engine e).chan c
  if !d.busy then s
  else
    let r := s.dmaRows e d d.rows 0
    let diff := (s.openBlock d.lane + 65536 - d.block % 65536) % 65536
    let recl := d.tile && decide (2 ≤ diff ∧ diff < 32768)
    let bad := decide (0 < r.2)
    let s1 := r.1.onEngine e (fun x => { x.onDma c (fun d => { d with busy := false, done := !bad, reclaimed := recl, err := bad, code := if bad then (if d.out then 5 else 6) else 0, rows := r.2 }) with
      recl := x.recl || recl, dmaErr := x.dmaErr || bad }.markSet s.dev (8 * b2n recl + 4 * b2n bad))
    let s2 := if recl then s1.count Fld.ANV_RECL_CNT e 1 else s1
    s2.onEngine e (fun x => x.raise (4 + c))

/-- DMA_COMPLETE; its requests wait at their ports until READY sets (R211, R320). -/
def execDmaComplete (t : Nat) (e c : Nat) (s : State) : Out :=
  clocked t s (fun s => s.only (e < 8 && c < 4 && s.flag Fld.MEM_STAT_READY 0) (fun s => s.dmaComplete e c))

/-! ### Binding and tile events (R213, R214, R223) -/

/-- The engines bound to lane `n`. -/
def State.boundTo (s : State) (n : Nat) : List Nat := (List.range s.lanes).filter (fun e => (s.engine e).bound = some n)

/-- Engine `e` takes its pending ANV copy (R213, R223). -/
def State.engTake (s : State) (e : Nat) : State :=
  if s.waits 7 e then
    let a := Fld.ANV_En_BIND_LANE.at e
    let en := s.pfld Fld.ANV_En_BIND_EN e = 1
    let s1 := (s.takeLive a (s.pend a)).takeLive (engKey e Fld.ANV_CKBASE_BASE.addr) (s.pend Fld.ANV_CKBASE_BASE.addr)
    (s1.onEngine e (fun x => { x with bound := if en then some (s.pfld Fld.ANV_En_BIND_LANE e) else none, cken := s.pfld Fld.ANV_En_BIND_CKEN e = 1 })).took 7 e
  else s

/-- Tachometer input `k` beside its registers. -/
def State.tachOf (s : State) (k : Nat) : Tach := s.tach.getD k Tach.reset

/-- A change of tachometer input `k`. -/
def State.onTach (s : State) (k : Nat) (f : Tach → Tach) : State := { s with tach := s.tach.setIfInBounds k (f (s.tachOf k)) }

/-- The tachometer fields take their pending copies (R219): a change of PPR or EDGE sets STALE, and enabling starts the ring index at zero. -/
def State.tachTake (s : State) : State :=
  if s.waits 7 100 then
    let one (k : Nat) (s : State) : State :=
      let a := Fld.ANV_Tt_CFG_FILT.at k
      let b := Fld.ANV_Tt_TMO_TMO.at k
      let stale := s.pfld Fld.ANV_Tt_CFG_PPR k ≠ s.fld Fld.ANV_Tt_CFG_PPR k || s.pfld Fld.ANV_Tt_CFG_EDGE k ≠ s.fld Fld.ANV_Tt_CFG_EDGE k
      let enable := bit (s.pfld Fld.ANV_CTRL_TACH_EN 0) k && !s.laneBit Fld.ANV_CTRL_TACH_EN k
      let s1 := (s.takeLive a (s.pend a)).takeLive b (s.pend b)
      let s2 := if stale then (s1.setFlag Fld.ANV_Tt_STAT_STALE k true).onTach k (fun x => { x with edges := [], fresh := 0 }) else s1
      if enable then ((s2.setFld Fld.ANV_Tt_WIDX_WIDX k 0).setFlag Fld.ANV_Tt_STAT_GAP k false).onTach k (fun x => { x with lost := false }) else s2
    let s1 := s.each (List.range 8) one
    ((s1.takeLive 0x70000 (s.pend 0x70000)).takeLive 0x70004 (s.pend 0x70004)).took 7 100
  else s

/-- A ROW event for the engines bound to lane `n` (R214). -/
def State.rowEvent (s : State) (n : Nat) : State := s.each (s.boundTo n) (fun e s => s.onEngine e (fun x => x.raise 0))

/-- A block of lane `n` closes: bound engines take their copies, then the BLK event is raised for those bound after them (R214, R219, R223). -/
def State.engBlockClose (s : State) (n : Nat) : State :=
  let s1 := (s.each (s.boundTo n) (fun e s => s.engTake e)).tachTake
  s1.each (s1.boundTo n) (fun e s => s.onEngine e (fun x => x.raise 1))

/-! ### Tachometers (R216 to R218) -/

/-- A qualified edge of input `k`, whose level has held `held` ticks: stamped at the first tick of the new level (R216 to R218). -/
def State.tachEdge (s : State) (k : Nat) (level : Bool) (held : Nat) (lost : Bool) : State :=
  let s0 := s.setFlag Fld.ANV_Tt_STAT_LEVEL k level
  if s.flag Fld.ANV_Tt_STAT_LEVEL k = level || level = s.flag Fld.ANV_Tt_CFG_EDGE k then s0
  else
    let stamp := s.dev - held
    let ppr := s.fld Fld.ANV_Tt_CFG_PPR k
    let x := s.tachOf k
    let edges := (stamp :: x.edges).take (ppr + 1)
    let s1 := (((s0.count Fld.ANV_TEDGE_CNT k 1).setFld Fld.ANV_Tt_LAST_LO_LO k stamp).setFld Fld.ANV_Tt_LAST_HI_HI k (stamp / 2 ^ 32)).onTach k
      (fun x => { x with edges := edges, fresh := x.fresh + 1, last := s.dev })
    let s2 := if s.laneBit Fld.ANV_CTRL_TACH_EN k then
        let w := s.fld Fld.ANV_Tt_WIDX_WIDX k
        let a := s.mib Fld.ANV_TACHBASE_BASE + k * 0x8000 + 8 * (w % 4096)
        let s3 := if lost then s1.setFlag Fld.ANV_Tt_STAT_GAP k true else s1.dramWrite 2 true a (leBytes 8 (stamp % 2 ^ 56 + b2n x.lost * 2 ^ 63))
        (s3.setFld Fld.ANV_Tt_WIDX_WIDX k (w + 1)).onTach k (fun x => { x with lost := lost })
      else s1
    match edges[ppr]? with
    | some old =>
      let span := stamp - old
      let v := if span = 0 then 2 ^ 32 - 1 else (s2.openNear (781250000 * 65536 / (span : Rat))).toNat
      ((s2.setFld Fld.ANV_Tt_SPEED_SPEED k (min v (2 ^ 32 - 1))).drawn).setFlag Fld.ANV_Tt_STAT_STALE k (decide ((s2.tachOf k).fresh ≤ ppr))
    | none => s2

/-- TACH_EDGE: input `k` shows `level`, which qualifies once it has held FILT × 8 ticks; `lost` says that MEM back-pressure lost the ring write
(R216, R217). -/
def execTachEdge (t : Nat) (k : Nat) (level : TachLevel) (lost : Bool) (s : State) : Out :=
  ticking t s (fun s => s.only (k < 8 && decide (8 * s.fld Fld.ANV_Tt_CFG_FILT k ≤ level.held)) (fun s => s.tachEdge k level.high level.held lost))

/-- TACH_TIMEOUT (R218). -/
def execTachTimeout (t : Nat) (k : Nat) (s : State) : Out :=
  ticking t s (fun s => s.only (k < 8 && (s.tachOf k).last + s.fld Fld.ANV_Tt_TMO_TMO k * 65536 * pclk ≤ s.dev) (fun s =>
    ((s.setFld Fld.ANV_Tt_SPEED_SPEED k 0).setFlag Fld.ANV_Tt_STAT_STALE k true).onTach k (fun x => { x with edges := [], fresh := 0 })))

end Sys2Proof.Machine
end

