-- ==== Sys2Proof/Machine/Operands.lean ====
section
/-!
DEFINITION. The instruction words of an Anvil engine and their operand forms: fields, the opcode table with the bits each instruction may use, and the addresses that
pointers present (spec 09_anvil_instruction_set, R226 to R229, R235; spec 08_anvil_engines, R204 and R205).
Points that the spec leaves open or that are read from it by inference: DEDUCED 24 of the assumption log.
-/

namespace Sys2Proof.Machine

/-! ### Fields of a word (R226) -/

/-- Bits [hi:lo] of an instruction word. -/
def wordBits (w hi lo : Nat) : Nat := w / 2 ^ lo % 2 ^ (hi + 1 - lo)

/-- OP and FN. -/
def wOp (w : Nat) : Nat := wordBits w 63 58
def wFn (w : Nat) : Nat := wordBits w 55 50
/-- SAT and BX. -/
def wSat (w : Nat) : Bool := bit w 57
def wBx (w : Nat) : Bool := bit w 56
/-- D, A, B and C of formats R and I; A of formats C and L stands where D does. -/
def wD (w : Nat) : Nat := wordBits w 49 45
def wA (w : Nat) : Nat := wordBits w 44 40
def wB (w : Nat) : Nat := wordBits w 39 35
def wC (w : Nat) : Nat := wordBits w 30 26
/-- K and KEN. -/
def wK (w : Nat) : Nat := wordBits w 34 32
def wKen (w : Nat) : Bool := bit w 31
/-- IMM, TARGET and CNT. -/
def wImm (w : Nat) : Nat := wordBits w 31 0
def wTarget (w : Nat) : Nat := wordBits w 12 0
def wCnt (w : Nat) : Nat := wordBits w 15 0
/-- P, U, Q, UQ, V, SA and SB of format M. -/
def wP (w : Nat) : Nat := wordBits w 44 42
def wU (w : Nat) : Bool := bit w 41
def wQ (w : Nat) : Nat := wordBits w 40 38
def wUq (w : Nat) : Bool := bit w 37
def wV (w : Nat) : Bool := bit w 36
def wSa (w : Nat) : Nat := wordBits w 30 26
def wSb (w : Nat) : Nat := wordBits w 25 21

/-! ### The opcode table (R227 to R229) -/

/-- Bits an instruction may set, by field. -/
def mSat : Nat := 2 ^ 57
def mBx : Nat := 2 ^ 56
def mD : Nat := 31 * 2 ^ 45
def mA : Nat := 31 * 2 ^ 40
def mB : Nat := 31 * 2 ^ 35
def mC : Nat := 31 * 2 ^ 26
def mPred : Nat := 15 * 2 ^ 31
def mSel : Nat := 7 * 2 ^ 32
def mImm : Nat := 2 ^ 32 - 1
/-- An accumulator, an even accumulator, a predicate or a pointer in D; the same in A and B. -/
def mDacc : Nat := 3 * 2 ^ 45
def mDpair : Nat := 2 * 2 ^ 45
def mD3 : Nat := 7 * 2 ^ 45
def mAacc : Nat := 3 * 2 ^ 40
def mA3 : Nat := 7 * 2 ^ 40
def mBacc : Nat := 3 * 2 ^ 35
def mB3 : Nat := 7 * 2 ^ 35
/-- A lane index and a DMA channel in C. -/
def mC4 : Nat := 15 * 2 ^ 26
def mC2 : Nat := 3 * 2 ^ 26
/-- Pointer P with U, pointer Q with UQ, V, SA and SB. -/
def mP : Nat := 15 * 2 ^ 41
def mQ : Nat := 15 * 2 ^ 37
def mV : Nat := 2 ^ 36
def mSs : Nat := 1023 * 2 ^ 21
def mTarget : Nat := 2 ^ 13 - 1
def mCnt : Nat := 2 ^ 16 - 1

/-- The defined instructions: OP, the first and the last FN of a run, and the bits they may set. -/
def anvTable : List (Nat × Nat × Nat × Nat) :=
  [ (0x01, 0x00, 0x0F, mD + mA + mB), (0x01, 0x10, 0x11, mD + mA),
    (0x02, 0x00, 0x0F, mD + mA + mImm), (0x02, 0x10, 0x11, mD + mA),
    (0x03, 0x00, 0x03, mD + mP),
    (0x08, 0x00, 0x04, mD3 + mA), (0x09, 0x00, 0x04, mD3 + mImm), (0x0A, 0x00, 0x04, mD + mA3),
    (0x0B, 0x00, 0x00, mD3), (0x0B, 0x01, 0x01, mD3 + mImm),
    (0x10, 0x00, 0x01, mSat + mD + mA + mB + mPred), (0x10, 0x02, 0x03, mSat + mBx + mD + mA + mB + mPred),
    (0x10, 0x04, 0x0A, mD + mA + mB + mPred), (0x10, 0x0B, 0x0B, mSat + mD + mA + mPred), (0x10, 0x0C, 0x0C, mSat + mBx + mD + mA + mPred),
    (0x10, 0x0D, 0x0D, mSat + mD + mA + mC + mPred), (0x10, 0x0E, 0x0E, mD + mA + mC + mPred), (0x10, 0x0F, 0x0F, mBx + mD + mA + mC + mPred),
    (0x10, 0x10, 0x12, mD + mA + mPred), (0x10, 0x13, 0x13, mD + mA + mB + mSel), (0x10, 0x14, 0x14, mD + mA + mPred),
    (0x10, 0x15, 0x15, mD + mA + mC4) ] ++
  [ (0x11, 0x00, 0x01, mSat + mBx + mD + mA + mB + mPred), (0x11, 0x02, 0x02, mSat + mD + mA + mB + mPred), (0x11, 0x03, 0x03, mD + mA + mB + mPred),
    (0x12, 0x00, 0x01, mSat + mDacc + mA + mB + mPred), (0x12, 0x02, 0x02, mDacc + mA + mB + mPred),
    (0x12, 0x03, 0x04, mSat + mDpair + mA + mB + mPred), (0x12, 0x05, 0x05, mDpair + mA + mB + mPred),
    (0x13, 0x00, 0x01, mSat + mDacc + mP + mQ + mV + mPred), (0x13, 0x02, 0x02, mDacc + mP + mQ + mV + mPred),
    (0x13, 0x03, 0x04, mSat + mDpair + mP + mQ + mV + mPred), (0x13, 0x05, 0x05, mDpair + mP + mQ + mV + mPred),
    (0x14, 0x00, 0x00, mDacc + mPred), (0x14, 0x01, 0x01, mDacc + mA + mPred), (0x14, 0x02, 0x02, mSat + mDacc + mAacc + mPred),
    (0x14, 0x03, 0x03, mSat + mBx + mD + mAacc + mBacc + mC + mPred), (0x14, 0x04, 0x04, mSat + mD + mAacc + mC + mPred),
    (0x14, 0x05, 0x05, mSat + mD + mAacc + mC),
    (0x15, 0x00, 0x01, mSat + mBx + mD + mA + mB + mPred), (0x15, 0x02, 0x03, mSat + mDpair + mA + mB + mPred),
    (0x15, 0x04, 0x04, mSat + mD + mA + mPred), (0x15, 0x05, 0x05, mSat + mDacc + mA + mPred), (0x15, 0x06, 0x06, mSat + mBx + mD + mA + mPred),
    (0x16, 0x00, 0x01, mSat + mBx + mP + mQ + mSs) ] ++
  [ (0x18, 0x00, 0x05, mD3 + mA + mB + mPred), (0x18, 0x06, 0x06, mD3 + mA + mPred),
    (0x19, 0x00, 0x03, mD3 + mA3 + mB3), (0x19, 0x04, 0x04, mD3 + mA3), (0x19, 0x05, 0x05, mD3 + mA), (0x19, 0x06, 0x07, mD + mA3),
    (0x20, 0x00, 0x00, mD + mP + mPred), (0x21, 0x00, 0x00, mD + mP + mPred), (0x22, 0x00, 0x01, mD + mP + mV),
    (0x24, 0x00, 0x00, mA + mC2), (0x24, 0x01, 0x02, mD + mC2),
    (0x25, 0x00, 0x00, mD + mA + mB), (0x25, 0x01, 0x02, mD + mA),
    (0x30, 0x00, 0x01, mTarget), (0x30, 0x02, 0x02, mD), (0x30, 0x03, 0x07, mD + mTarget),
    (0x31, 0x00, 0x00, mCnt), (0x31, 0x01, 0x01, mD),
    (0x32, 0x00, 0x00, mD + mImm), (0x33, 0x00, 0x01, 0),
    (0x38, 0x00, 0x01, mD + mA), (0x38, 0x02, 0x02, 0) ]

/-- A special register that SRD reads (R252). -/
def srdOk (n : Nat) : Bool := n < 10 || 16 ≤ n

/-- What a word must hold beside its zero bits: K only with KEN but for VSEL, V of VLDB, different pointers of CBFLYM, WAIT's mask, and the special register
of SRD and SWR (R227, R235, R238, R244, R247, R251, R252). -/
def wordOk (w : Nat) : Bool :=
  let op := wOp w
  let fn := wFn w
  if op = 0x16 then wP w ≠ wQ w
  else if op = 0x22 then wV w
  else if op = 0x32 then 0 < wImm w && wImm w < 256 && !bit (wImm w) 3
  else if op = 0x38 && fn = 0 then srdOk (wA w)
  else if op = 0x38 && fn = 1 then wD w = 0 || wD w = 1 || wD w = 4
  else if (op = 0x10 && fn ≠ 0x13 && fn ≠ 0x15) || op = 0x11 || op = 0x12 || op = 0x13 || (op = 0x14 && fn ≠ 5) || op = 0x15 || op = 0x18 || op = 0x20 || op = 0x21 then
    wKen w || wK w = 0
  else true

/-- OP and FN of a legal instruction word; an illegal word has none (R227). -/
def anvDecode (w : Nat) : Option (Nat × Nat) :=
  match anvTable.find? (fun r => r.1 = wOp w && r.2.1 ≤ wFn w && wFn w ≤ r.2.2.1) with
  | some r => if (w % 2 ^ 50 + w / 2 ^ 56 % 4 * 2 ^ 56) &&& r.2.2.2 = w % 2 ^ 50 + w / 2 ^ 56 % 4 * 2 ^ 56 && wordOk w then some (wOp w, wFn w) else none
  | none => none

/-- An instruction that may not follow REP: a branch, WAIT, POST, TAKE, a DMA wait, REP, or a write of a cb or cl register (R202, R248). -/
def repBanned (w : Nat) : Bool :=
  match anvDecode w with
  | some (op, fn) => op = 0x30 || op = 0x31 || op = 0x32 || (op = 0x25 && fn < 2) || (op = 0x24 && fn < 2) || ((op = 8 || op = 9) && (fn = 2 || fn = 3))
  | none => false

/-! ### Pointers (R204, R205) -/

/-- The low `n` bits of a number in reverse order. -/
def revBits : Nat → Nat → Nat
  | 0, _ => 0
  | n + 1, v => v % 2 * 2 ^ n + revBits n (v / 2)

/-- MODE, W and ES of a mode register, with the values that stand for undefined ones (R204). -/
def pmMode (pm : Word) : Nat := if bitsOf 1 0 pm = 3 then 0 else bitsOf 1 0 pm
def pmW (pm : Word) : Nat := if bitsOf 7 4 pm = 0 then 1 else bitsOf 7 4 pm
def pmEs (pm : Word) : Nat := min (bitsOf 10 8 pm) 6

/-- The low 2 bits of cb and cl are ignored. -/
def align4 (w : Word) : Nat := w.toNat / 4 * 4

/-- The effective address that pointer `k` presents; in bit-reversed mode it is formed with the cb of the latest update (R204, R205). -/
def Engine.ea (x : Engine) (k : Nat) : Nat :=
  let p := (x.p.getD k 0).toNat
  let pm := x.pm.getD k 0
  if pmMode pm = 2 then
    let cb := align4 (x.cbUsed.getD k 0)
    let i := (p + 2 ^ 32 - cb) % 2 ^ 32 / 2 ^ pmEs pm % 2 ^ pmW pm
    (cb + revBits (pmW pm) i * 2 ^ pmEs pm) % 2 ^ 32
  else p

/-- Pointer `k` updated by a step, by its mode (R204, R205, R237). -/
def Engine.bump (x : Engine) (k : Nat) (step : Word) : Engine :=
  let p := (x.p.getD k 0).toNat
  let pm := x.pm.getD k 0
  let cb := align4 (x.cb.getD k 0)
  let cl := align4 (x.cl.getD k 0)
  let m := signed 32 step.toNat
  let o := (p + 2 ^ 32 - cb) % 2 ^ 32
  let p' : Int :=
    if pmMode pm = 1 ∧ cl ≠ 0 then (cb : Int) + ((if cl ≤ o then o % cl else o : Nat) + m) % (cl : Int)
    else if pmMode pm = 2 then (cb : Int) + ((o : Int) + m) % ((2 ^ (pmW pm + pmEs pm) : Nat) : Int)
    else (p : Int) + m
  { x with p := x.p.setIfInBounds k (BitVec.ofNat 32 (wrapInt 32 p')), cbUsed := x.cbUsed.setIfInBounds k (x.cb.getD k 0) }

/-- A post-modification when the word asks for it. -/
def Engine.postMod (x : Engine) (u : Bool) (k : Nat) : Engine := if u then x.bump k (x.m.getD k 0) else x

/-- The kinds of the pointer file: p, m, cb, cl, pm (R228). -/
def Engine.ptrReg (x : Engine) (kind k : Nat) : Word :=
  match kind with
  | 0 => x.p.getD k 0
  | 1 => x.m.getD k 0
  | 2 => x.cb.getD k 0
  | 3 => x.cl.getD k 0
  | _ => x.pm.getD k 0

/-- A write of the pointer file; pm keeps bits [10:0] (R237). -/
def Engine.setPtr (x : Engine) (kind k : Nat) (w : Word) : Engine :=
  match kind with
  | 0 => { x with p := x.p.setIfInBounds k w }
  | 1 => { x with m := x.m.setIfInBounds k w }
  | 2 => { x with cb := x.cb.setIfInBounds k w }
  | 3 => { x with cl := x.cl.setIfInBounds k w }
  | _ => { x with pm := x.pm.setIfInBounds k (w &&& 0x7FF) }

/-! ### Registers as operands (R228) -/

/-- A vector register. -/
def Engine.vec (x : Engine) (i : Nat) : Vec := x.v.getD i Vec.zero

/-- A 32-bit lane of a vector register. -/
def Vec.lane (v : Vec) (j : Nat) : Word := v.getD j 0

/-- The signed value of a lane, and of its low and high halves. -/
def Vec.int (v : Vec) (j : Nat) : Int := (v.lane j).toInt
def Vec.lo (v : Vec) (j : Nat) : Int := signed 16 (v.lane j).toNat
def Vec.hi (v : Vec) (j : Nat) : Int := signed 16 ((v.lane j).toNat / 2 ^ 16)

/-- An accumulator. -/
def Engine.acc (x : Engine) (i : Nat) : Acc := x.a.getD i Acc.zero

/-- An element of an accumulator as a signed value. -/
def Acc.int (a : Acc) (j : Nat) : Int := (a.getD j 0).toInt

/-- A predicate. -/
def Engine.pred (x : Engine) (i : Nat) : BitVec 16 := x.k.getD i 0

/-- A predicate written. -/
def Engine.setK (x : Engine) (i : Nat) (b : BitVec 16) : Engine := { x with k := x.k.setIfInBounds i b }

/-- Lane `j` takes effect: every lane without KEN, else those of predicate K (R235). -/
def Engine.active (x : Engine) (w j : Nat) : Bool := !wKen w || (x.pred (wK w)).getLsbD j

/-- The sixteen lanes. -/
def lanes16 : List Nat := List.range 16

/-- A vector of what a function gives each lane. -/
def vecOf (f : Nat → Word) : Vec := Vector.ofFn (fun i : Fin 16 => f i.val)

/-- An accumulator of what a function gives each lane. -/
def accOf (f : Nat → BitVec 40) : Acc := Vector.ofFn (fun i : Fin 16 => f i.val)

/-- A lane of two halves. -/
def joinHalves (lo hi : Nat) : Word := BitVec.ofNat 32 (lo % 2 ^ 16 + hi % 2 ^ 16 * 2 ^ 16)

end Sys2Proof.Machine
end

