-- ==== Sys2Proof/Machine/Flags.lean ====
section
/-!
DEFINITION. Rounding, narrowing and the flags of an Anvil engine: VOV, AOV with AOVIDX, and the headroom of BEXP (R206 to R208, R234, R235, R242).
Points that the spec leaves open or that are read from it by inference: DEDUCED 24 of the assumption log.
-/

namespace Sys2Proof.Machine

/-! ### Rounding and narrowing (R234) -/

/-- A value narrowed to `n` bits: one outside the format is clamped to plus or minus the largest value under SAT, and keeps its low bits without. -/
def narrow (sat : Bool) (n : Nat) (x : Int) : Nat :=
  if fits n x || !sat then wrapInt n x
  else if x < 0 then wrapInt n (1 - ((2 ^ (n - 1) : Nat) : Int)) else 2 ^ (n - 1) - 1

/-- Redundant sign bits of an `n`-bit value. -/
def signBits (n : Nat) (x : Int) : Nat :=
  let m := if x < 0 then (-x - 1).toNat else x.toNat
  n - 1 - (if m = 0 then 0 else Nat.log2 m + 1)

/-! ### Lane results -/

/-- What one lane of a vector instruction gives: its value, whether it overflowed, and the least headroom of the 16-bit components written. -/
structure LaneOut where
  val : Word
  ov : Bool
  head : Nat
deriving DecidableEq, Repr

/-- A lane without a narrowing. -/
def plainLane (w : Word) : LaneOut := ⟨w, false, 15⟩

/-- A lane of one 32-bit result. -/
def wideLane (sat : Bool) (x : Int) : LaneOut := ⟨BitVec.ofNat 32 (narrow sat 32 x), !fits 32 x, 15⟩

/-- A lane of two 16-bit results. -/
def halfLane (sat : Bool) (lo hi : Int) : LaneOut :=
  let l := narrow sat 16 lo
  let h := narrow sat 16 hi
  ⟨joinHalves l h, !fits 16 lo || !fits 16 hi, min (signBits 16 (signed 16 l)) (signBits 16 (signed 16 h))⟩

/-- SCALE when the word has BX set, else 0 (R208). -/
def Engine.scale (x : Engine) (w : Nat) : Nat := if wBx w then x.bexp.scale else 0

/-- HEAD lowered to a smaller headroom (R208). -/
def Engine.lowerHead (x : Engine) (h : Nat) : Engine := { x with bexp := { x.bexp with head := min x.bexp.head h } }

/-- A vector result: active lanes are written, an active overflow sets VOV, and with BX the written components lower HEAD (R206, R208, R235). -/
def Engine.setLanes (x : Engine) (w : Nat) (f : Nat → LaneOut) : Engine :=
  let old := x.vec (wD w)
  let on := lanes16.filter (x.active w)
  let x1 := { x with
    v := x.v.setIfInBounds (wD w) (vecOf (fun j => if x.active w j then (f j).val else old.lane j))
    vov := x.vov || on.any (fun j => (f j).ov), vovNow := x.vovNow || on.any (fun j => (f j).ov) }
  if wBx w then x1.lowerHead (on.foldl (fun m j => min m (f j).head) 15) else x1

/-! ### Accumulators (R206, R207, R242) -/

/-- The accumulator flags after a list of overflows (lane, accumulator) in the order of R207: AOV is set and AOVIDX names the first since it was clear. -/
def Engine.accFlags (x : Engine) : List (Nat × Nat) → Engine
  | [] => x
  | (l, a) :: _ =>
    let i : AovIdx := ⟨(x.rep.map Rep.idx).getD 0, l, a, x.rep.isSome, true⟩
    if x.aov then { x with ovNow := some i } else { x with aov := true, aovIdx := i, ovNow := some i }

/-- Accumulators written with exact values; `accs` names them in order and `f` gives the exact value for an accumulator and a lane. -/
def Engine.setAccs (x : Engine) (w : Nat) (accs : List Nat) (f : Nat → Nat → Int) : Engine :=
  let on := lanes16.filter (x.active w)
  let x1 := accs.foldl (fun y a => { y with
    a := y.a.setIfInBounds a (accOf (fun j => if x.active w j then BitVec.ofNat 40 (narrow (wSat w) 40 (f a j)) else (x.acc a).getD j 0)) }) x
  x1.accFlags (on.flatMap (fun j => (accs.filter (fun a => !fits 40 (f a j))).map (fun a => (j, a))))

/-- ASTAT.AOV cleared clears AOVIDX (R207). -/
def Engine.clearAov (x : Engine) : Engine := { x with aov := false, aovIdx := ⟨0, 0, 0, false, false⟩ }

/-- The word of ANV_En_ASTAT (R224). -/
def Engine.astat (x : Engine) : Word :=
  BitVec.ofNat 32 (b2n x.aov + 2 * b2n x.vov + 4 * b2n x.dmaErr + 8 * b2n x.recl + 256 * b2n x.rep.isSome)

/-- A write of ASTAT: a 1 in bits [3:0] clears (R224, R252). -/
def Engine.clearAstat (x : Engine) (w : Word) : Engine :=
  let x1 := if bit w.toNat 0 then x.clearAov else x
  { x1 with vov := x1.vov && !bit w.toNat 1, dmaErr := x1.dmaErr && !bit w.toNat 2, recl := x1.recl && !bit w.toNat 3 }

/-- A VOV that has just been set was set at device time `d` (R479). -/
def Engine.stored (x : Engine) (d : Nat) : Engine := if x.vovNow then { x.markSet d 2 with vovNow := false } else x

/-- What the instruction has set, if anything, was set at device time `d` (R207, R479). -/
def Engine.stamped (x : Engine) (d : Nat) : Engine :=
  { x.stored d with ovNow := none, overAt := match x.ovNow with
    | some i => some (d, i)
    | none => x.overAt }

/-- A host write of ASTAT at device time `d`: AOV that the engine sets on the same tick ends set, with that overflow recorded, and so do the other bits that are set on the
same edge (R207, R479). -/
def Engine.hostAstat (x : Engine) (d : Nat) (w : Word) : Engine :=
  let on := if x.setOn.1 = d / pclk then x.setOn.2 else 0
  let y := x.clearAstat (w &&& ~~~ BitVec.ofNat 32 (on &&& 14))
  match x.overAt with
  | some (o, i) => if o = d && bit w.toNat 0 then { y with aov := true, aovIdx := i } else y
  | none => y

/-- The word of ANV_En_AOVIDX (R224). -/
def Engine.aovWord (x : Engine) : Word :=
  BitVec.ofNat 32 (x.aovIdx.iter % 65536 + 2 ^ 16 * x.aovIdx.lane + 2 ^ 20 * x.aovIdx.acc + 2 ^ 23 * b2n x.aovIdx.inRep + 2 ^ 31 * b2n x.aovIdx.valid)

/-- The word of ANV_En_BEXP (R208). -/
def Engine.bexpWord (x : Engine) : Word :=
  BitVec.ofNat 32 (x.bexp.head + 2 ^ 4 * x.bexp.need + 2 ^ 8 * x.bexp.scale + 2 ^ 16 * x.bexp.exp)

/-- The word of ANV_En_DMAc (R224). -/
def Dma.word (d : Dma) : Word :=
  BitVec.ofNat 32 (b2n d.busy + 2 * b2n d.done + 4 * b2n d.reclaimed + 8 * b2n d.err + 16 * d.code + 2 ^ 16 * d.rows)

/-- The word of ANV_En_POS (R224). -/
def Engine.posWord (x : Engine) : Word := BitVec.ofNat 32 (x.posSlot % 16384 + 2 ^ 16 * (x.posBlk % 65536))

end Sys2Proof.Machine
end

