-- ==== Sys2Proof/Machine/AnvilScalar.lean ====
section
/-!
DEFINITION. Issue and retirement of an Anvil engine's instructions, loads and stores of data memory, and the scalar, pointer and predicate instructions
(spec 09_anvil_instruction_set, R226 to R237, R246, R250; spec 08_anvil_engines, R195 to R207).
Points that the spec leaves open or that are read from it by inference: DESIGN CHOICE 11; DEDUCED 24 of the assumption log.
-/

namespace Sys2Proof.Machine

/-! ### Issue and retirement (R200, R223, R230, R249, R250) -/

/-- The engine is RUNNING and stands at an instruction, which may be waiting for a DMA channel. -/
def Engine.issuing (x : Engine) : Bool :=
  decide (x.st = .running) && (match x.wait with
    | .none | .chan _ => true
    | _ => false)

/-- The instruction word at the engine's PC. -/
def State.anvWord (s : State) (e : Nat) : Nat := (s.engine e).word (s.engine e).pc

/-- Bytes stored by the engine in its data memory. -/
def State.dstore (s : State) (e a : Nat) (bs : List Byte) : State := (s.onEngine e (fun x => x.store a bs)).eccWrite 1 (engBase e) a bs.length

/-- The oldest butterfly results reach data memory, the bottom row, then the top row, and set their flags (R232, R245). -/
def State.flyStore (s : State) (e : Nat) : State :=
  match (s.engine e).fly with
  | [] => s
  | r :: rest =>
    ((s.onEngine e (fun x =>
      let y := { x with fly := rest, vov := x.vov || r.ov, vovNow := x.vovNow || r.ov }.stored s.dev
      (r.head.map y.lowerHead).getD y)).dstore e r.bot r.botRow).dstore e r.top r.topRow

/-- Every butterfly result reaches data memory: at most two wait. -/
def State.flyFlush (s : State) (e : Nat) : State := (s.flyStore e).flyStore e

/-- Butterfly results that are left at the end of a REP or of a single CBFLYM are stored within four ticks of its end: the rows they go to (R245). -/
def State.flyLate (s : State) (e : Nat) : State :=
  s.only (!(s.engine e).fly.isEmpty) (fun s => s.onEngine e (fun x => { x with late := (s.dev + 6, x.fly.flatMap (fun r => [r.bot, r.top])) }))

/-- A fault of the engine at its PC, after the results of earlier iterations are stored (R203, R250). -/
def State.anvFault (s : State) (e code : Nat) : State := (s.flyFlush e).engFault e code

/-- An instruction, or one iteration of a REP, is done: the last iteration and a single instruction end at a boundary (R200, R250). -/
def Engine.retire (x : Engine) : Engine :=
  match x.rep with
  | none => x.boundary (x.pc + 1)
  | some r =>
    if r.left ≤ 1 then { x with rep := none, loop := 0 }.boundary (x.pc + 1)
    else { x with rep := some ⟨r.left - 1, r.idx + 1⟩, loop := r.left - 1 }

/-- The instruction retires with an effect on the engine alone and counts in ANV_BUSY_CNT (R223). -/
def State.finish (s : State) (e : Nat) (f : Engine → Engine) : State :=
  let last := match (s.engine e).rep with
    | none => true
    | some r => decide (r.left ≤ 1)
  let s1 := s.onEngine e (fun x => (f x).stamped s.dev)
  ((if last then (s1.flyLate e).flyFlush e else s1).onEngine e Engine.retire).count Fld.ANV_BUSY_CNT e 1

/-- The instruction retires at a branch target (R249). -/
def State.jumpTo (s : State) (e pc : Nat) (f : Engine → Engine) : State :=
  (s.onEngine e (fun x => (f x).boundary pc)).count Fld.ANV_BUSY_CNT e 1

/-! ### Ticks lost to a bank (R196, R223, R230) -/

/-- The bank of an address (R196). -/
def bankOf (a : Nat) : Nat := a / 64 % 8

/-- The rows an iteration loads and the results of the iteration two before it lie in one bank on one tick, so that the instruction loses a tick (R196, R245). -/
def flyContends (x : Engine) (ta ba : Nat) : Bool :=
  match x.fly with
  | r :: _ :: _ => bankOf ta = bankOf r.bot || bankOf ba = bankOf r.top
  | _ => false

/-- The instruction's own accesses meet in one bank: the two loads of a memory form of VMAC, or a butterfly's loads and stores. -/
def Engine.ownContention (x : Engine) (w : Nat) : Bool :=
  if wOp w = 0x13 then bankOf (x.ea (wP w)) = bankOf (x.ea (wQ w))
  else wOp w = 0x16 && flyContends x (x.ea (wP w)) (x.ea (wQ w))

/-- The data memory addresses that an instruction accesses: those its pointers present, or that of a descriptor. -/
def Engine.accesses (x : Engine) (w : Nat) : List Nat :=
  if [0x13, 0x16].contains (wOp w) then [x.ea (wP w), x.ea (wQ w)]
  else if [0x03, 0x20, 0x21, 0x22].contains (wOp w) then [x.ea (wP w)]
  else if (wOp w = 0x24 && wFn w = 0) || (wOp w = 0x25 && wFn w < 2) then [(x.sreg (wA w)).toNat]
  else []

/-- An access of the instruction lies in the bank of a butterfly result that may still be due: which of the four ticks stores it, the instruction's or another, is open
(R196, R245). -/
def Engine.meetsLate (x : Engine) (w dev : Nat) : Bool :=
  decide (dev < x.late.1) && (x.accesses w).any (fun a => x.late.2.any (fun b => bankOf a = bankOf b))

/-- A tick that an access of the instruction may lose, at most one with the instruction's own contention: to a DMA access that has waited 8 ticks while a transfer runs,
or beside a butterfly result still due. Whether it does is a free value (R196, R201, R223, R230). -/
def State.dmaStall (s : State) (e w : Nat) : State :=
  let x := s.engine e
  s.only (!(x.accesses w).isEmpty && (x.dma.toList.any (fun d => d.busy) || x.meetsLate w s.dev) && decide (x.wait = .none) && !x.ownContention w)
    (fun s => s.drawn.count Fld.ANV_STALL_CNT e (s.freeVal 2))

/-- Engine `e` issues the instruction at its PC, when that is the instruction `op`.`fn` of this command; a double-bit error of IMEM is an ECC fault
(R197, R203). -/
def anv (op : Nat) (fn : Nat → Bool) (t e : Nat) (s : State) (f : Nat → State → State) : Out :=
  clocked t s (fun s =>
    let k := engBase e + 8 * (s.engine e).pc
    s.only (decide (e < s.lanes) && (s.engine e).issuing) (fun s =>
      match anvDecode (s.anvWord e) with
      | some (o, n) =>
        if o = op && fn n then (if s.eccAt 2 k = 2 then s.anvFault e 5 else f (s.anvWord e) ((s.eccCorrect 2 k 8).dmaStall e (s.anvWord e))) else s
      | none => s))

/-- An instruction whose effect is on the engine alone. -/
def anvEng (op fn t e : Nat) (s : State) (f : Nat → Engine → Engine) : Out :=
  anv op (fun n => n = fn) t e s (fun w s => s.finish e (f w))

/-- ILLEGAL_INSTRUCTION: the word at the PC, a single-bit error corrected, is not a defined instruction (R197, R203, R227). -/
def execIllegalInstruction (t e : Nat) (s : State) : Out :=
  clocked t s (fun s =>
    s.only (decide (e < s.lanes) && (s.engine e).issuing && (anvDecode (s.anvWord e)).isNone) (fun s =>
      let k := engBase e + 8 * (s.engine e).pc
      if s.eccAt 2 k = 2 then s.anvFault e 5 else (s.eccCorrect 2 k 8).anvFault e 1))

/-! ### Loads and stores (R195 to R197, R203, R204) -/

/-- A load of `n` bytes at an address: an unaligned address or one beyond DMEM is an ADDR fault, a double-bit error an ECC fault. -/
def State.loading (s : State) (e a n align : Nat) (f : Nat → State → State) : State :=
  if 0x80000 ≤ a || a % align ≠ 0 then s.anvFault e 2
  else if s.eccRange 1 (engBase e + a) n = 2 then s.anvFault e 5
  else f ((s.engine e).load a n) (s.eccCorrect 1 (engBase e + a) n)

/-- A store to an address that its instruction may use. -/
def State.storing (s : State) (e a align : Nat) (f : State → State) : State :=
  if 0x80000 ≤ a || a % align ≠ 0 then s.anvFault e 2 else f s

/-! ### Scalar instructions (R236) -/

/-- The operations of SALU and SALUI on 32-bit values. -/
def aluOp (fn : Nat) (a b : Word) : Word :=
  let sh := b.toNat % 32
  match fn with
  | 0x00 => a + b
  | 0x01 => a - b
  | 0x02 => a &&& b
  | 0x03 => a ||| b
  | 0x04 => a ^^^ b
  | 0x05 => a <<< sh
  | 0x06 => a >>> sh
  | 0x07 => a.sshiftRight sh
  | 0x08 => if a.toInt ≤ b.toInt then a else b
  | 0x09 => if a.toInt ≤ b.toInt then b else a
  | 0x0A => if a.toNat ≤ b.toNat then a else b
  | 0x0B => if a.toNat ≤ b.toNat then b else a
  | 0x0C => a * b
  | 0x0D => BitVec.ofNat 32 (wrapInt 32 (a.toInt * b.toInt / 2 ^ 32))
  | 0x0E => if a.toInt < b.toInt then 1 else 0
  | 0x0F => if a.toNat < b.toNat then 1 else 0
  | 0x10 => BitVec.ofNat 32 (signBits 32 a.toInt)
  | _ => BitVec.ofNat 32 (if a = 0 then 32 else 31 - Nat.log2 a.toNat)

/-- SALU: sD becomes sA op sB. -/
def salu (fn t e : Nat) (s : State) : Out := anvEng 0x01 fn t e s (fun w x => x.setS (wD w) (aluOp fn (x.sreg (wA w)) (x.sreg (wB w))))

/-- SALUI: sD becomes sA op IMM. -/
def salui (fn t e : Nat) (s : State) : Out := anvEng 0x02 fn t e s (fun w x => x.setS (wD w) (aluOp fn (x.sreg (wA w)) (BitVec.ofNat 32 (wImm w))))

/-- ADD (R236). -/
def execAdd (t e : Nat) (s : State) : Out := salu 0x00 t e s

/-- SUB (R236). -/
def execSub (t e : Nat) (s : State) : Out := salu 0x01 t e s

/-- AND (R236). -/
def execAnd (t e : Nat) (s : State) : Out := salu 0x02 t e s

/-- OR (R236). -/
def execOr (t e : Nat) (s : State) : Out := salu 0x03 t e s

/-- XOR (R236). -/
def execXor (t e : Nat) (s : State) : Out := salu 0x04 t e s

/-- SHL (R236). -/
def execShl (t e : Nat) (s : State) : Out := salu 0x05 t e s

/-- SHR (R236). -/
def execShr (t e : Nat) (s : State) : Out := salu 0x06 t e s

/-- SAR (R236). -/
def execSar (t e : Nat) (s : State) : Out := salu 0x07 t e s

/-- MIN (R236). -/
def execMin (t e : Nat) (s : State) : Out := salu 0x08 t e s

/-- MAX (R236). -/
def execMax (t e : Nat) (s : State) : Out := salu 0x09 t e s

/-- MINU (R236). -/
def execMinu (t e : Nat) (s : State) : Out := salu 0x0A t e s

/-- MAXU (R236). -/
def execMaxu (t e : Nat) (s : State) : Out := salu 0x0B t e s

/-- MUL (R236). -/
def execMul (t e : Nat) (s : State) : Out := salu 0x0C t e s

/-- MULH (R236). -/
def execMulh (t e : Nat) (s : State) : Out := salu 0x0D t e s

/-- SLT (R236). -/
def execSlt (t e : Nat) (s : State) : Out := salu 0x0E t e s

/-- SLTU (R236). -/
def execSltu (t e : Nat) (s : State) : Out := salu 0x0F t e s

/-- CLS (R236). -/
def execCls (t e : Nat) (s : State) : Out := salu 0x10 t e s

/-- CLZ (R236). -/
def execClz (t e : Nat) (s : State) : Out := salu 0x11 t e s

/-- ADDI (R236). -/
def execAddi (t e : Nat) (s : State) : Out := salui 0x00 t e s

/-- SUBI (R236). -/
def execSubi (t e : Nat) (s : State) : Out := salui 0x01 t e s

/-- ANDI (R236). -/
def execAndi (t e : Nat) (s : State) : Out := salui 0x02 t e s

/-- ORI (R236). -/
def execOri (t e : Nat) (s : State) : Out := salui 0x03 t e s

/-- XORI (R236). -/
def execXori (t e : Nat) (s : State) : Out := salui 0x04 t e s

/-- SHLI (R236). -/
def execShli (t e : Nat) (s : State) : Out := salui 0x05 t e s

/-- SHRI (R236). -/
def execShri (t e : Nat) (s : State) : Out := salui 0x06 t e s

/-- SARI (R236). -/
def execSari (t e : Nat) (s : State) : Out := salui 0x07 t e s

/-- MINI (R236). -/
def execMini (t e : Nat) (s : State) : Out := salui 0x08 t e s

/-- MAXI (R236). -/
def execMaxi (t e : Nat) (s : State) : Out := salui 0x09 t e s

/-- MINUI (R236). -/
def execMinui (t e : Nat) (s : State) : Out := salui 0x0A t e s

/-- MAXUI (R236). -/
def execMaxui (t e : Nat) (s : State) : Out := salui 0x0B t e s

/-- MULI (R236). -/
def execMuli (t e : Nat) (s : State) : Out := salui 0x0C t e s

/-- MULHI (R236). -/
def execMulhi (t e : Nat) (s : State) : Out := salui 0x0D t e s

/-- SLTI (R236). -/
def execSlti (t e : Nat) (s : State) : Out := salui 0x0E t e s

/-- SLTUI (R236). -/
def execSltui (t e : Nat) (s : State) : Out := salui 0x0F t e s

/-- CLSI (R236). -/
def execClsi (t e : Nat) (s : State) : Out := salui 0x10 t e s

/-- CLZI (R236). -/
def execClzi (t e : Nat) (s : State) : Out := salui 0x11 t e s

/-- An instruction of SMEM at the address that pointer P presents, which is updated afterwards when U is set (R236, R238). -/
def smem (fn t e : Nat) (s : State) (f : Nat → Nat → State → State) : Out :=
  anv 0x03 (fun n => n = fn) t e s (fun w s => f w ((s.engine e).ea (wP w)) s)

/-- SLD (R236). -/
def execSld (t e : Nat) (s : State) : Out :=
  smem 0 t e s (fun w a s => s.loading e a 4 4 (fun v s =>
    s.finish e (fun x => (x.setS (wD w) (BitVec.ofNat 32 v)).postMod (wU w) (wP w))))

/-- SLDH (R236). -/
def execSldh (t e : Nat) (s : State) : Out :=
  smem 1 t e s (fun w a s => s.loading e a 2 2 (fun v s =>
    s.finish e (fun x => (x.setS (wD w) (BitVec.ofNat 32 (wrapInt 32 (signed 16 v)))).postMod (wU w) (wP w))))

/-- SST (R236). -/
def execSst (t e : Nat) (s : State) : Out :=
  smem 2 t e s (fun w a s => s.storing e a 4 (fun s =>
    (s.dstore e a (leBytes 4 ((s.engine e).sreg (wD w)).toNat)).finish e (fun x => x.postMod (wU w) (wP w))))

/-- SSTH (R236). -/
def execSsth (t e : Nat) (s : State) : Out :=
  smem 3 t e s (fun w a s => s.storing e a 2 (fun s =>
    (s.dstore e a (leBytes 2 ((s.engine e).sreg (wD w)).toNat)).finish e (fun x => x.postMod (wU w) (wP w))))

/-! ### Pointer instructions (R237) -/

/-- An instruction of the pointer file; FN is the kind of register. -/
def ptrFile (op t e : Nat) (s : State) (f : Nat → Engine → Engine) : Out := anv op (fun _ => true) t e s (fun w s => s.finish e (f w))

/-- PSET (R237). -/
def execPset (t e : Nat) (s : State) : Out := ptrFile 0x08 t e s (fun w x => x.setPtr (wFn w) (wD w) (x.sreg (wA w)))

/-- PSETI (R237). -/
def execPseti (t e : Nat) (s : State) : Out := ptrFile 0x09 t e s (fun w x => x.setPtr (wFn w) (wD w) (BitVec.ofNat 32 (wImm w)))

/-- PGET (R237). -/
def execPget (t e : Nat) (s : State) : Out := ptrFile 0x0A t e s (fun w x => x.setS (wD w) (x.ptrReg (wFn w) (wA w)))

/-- PMOD (R237). -/
def execPmod (t e : Nat) (s : State) : Out := anvEng 0x0B 0 t e s (fun w x => x.postMod true (wD w))

/-- PSTEP (R237). -/
def execPstep (t e : Nat) (s : State) : Out := anvEng 0x0B 1 t e s (fun w x => x.bump (wD w) (BitVec.ofNat 32 (wImm w)))

/-! ### Predicates (R246) -/

/-- A predicate formed from predicates A and B. -/
def kop (fn t e : Nat) (s : State) (f : BitVec 16 → BitVec 16 → BitVec 16) : Out :=
  anvEng 0x19 fn t e s (fun w x => x.setK (wD w) (f (x.pred (wA w)) (x.pred (wB w))))

/-- KAND (R246). -/
def execKand (t e : Nat) (s : State) : Out := kop 0 t e s (fun a b => a &&& b)

/-- KOR (R246). -/
def execKor (t e : Nat) (s : State) : Out := kop 1 t e s (fun a b => a ||| b)

/-- KXOR (R246). -/
def execKxor (t e : Nat) (s : State) : Out := kop 2 t e s (fun a b => a ^^^ b)

/-- KANDN (R246). -/
def execKandn (t e : Nat) (s : State) : Out := kop 3 t e s (fun a b => a &&& ~~~ b)

/-- KNOT (R246). -/
def execKnot (t e : Nat) (s : State) : Out := kop 4 t e s (fun a _ => ~~~ a)

/-- KFROM (R246). -/
def execKfrom (t e : Nat) (s : State) : Out := anvEng 0x19 5 t e s (fun w x => x.setK (wD w) ((x.sreg (wA w)).setWidth 16))

/-- KTO (R246). -/
def execKto (t e : Nat) (s : State) : Out := anvEng 0x19 6 t e s (fun w x => x.setS (wD w) ((x.pred (wA w)).setWidth 32))

/-- KPOP (R246). -/
def execKpop (t e : Nat) (s : State) : Out :=
  anvEng 0x19 7 t e s (fun w x => x.setS (wD w) (BitVec.ofNat 32 (lanes16.filter (fun j => (x.pred (wA w)).getLsbD j)).length))

end Sys2Proof.Machine
end

