-- ==== Sys2Proof/Machine/AnvilVector.lean ====
section
/-!
DEFINITION. The vector, multiply-accumulate, accumulator, complex and compare instructions of an Anvil engine (spec 09_anvil_instruction_set, R239 to R243, R246).
Points that the spec leaves open or that are read from it by inference: DEDUCED 24 of the assumption log.
-/

namespace Sys2Proof.Machine

/-- A vector instruction of registers: `f` gives a lane from vA, vB, the lane's number and the shift C + SCALE of the word. -/
def vop (op fn t e : Nat) (s : State) (f : Nat → Vec → Vec → Nat → Nat → LaneOut) : Out :=
  anvEng op fn t e s (fun w x =>
    let a := x.vec (wA w)
    let b := x.vec (wB w)
    let sh := wC w + x.scale w
    x.setLanes w (f w a b sh))

/-! ### VALU (R239) -/

/-- VADD (R239). -/
def execVadd (t e : Nat) (s : State) : Out :=
  vop 0x10 0x00 t e s (fun w a b _ j => wideLane (wSat w) (a.int j + b.int j))

/-- VSUB (R239). -/
def execVsub (t e : Nat) (s : State) : Out :=
  vop 0x10 0x01 t e s (fun w a b _ j => wideLane (wSat w) (a.int j - b.int j))

/-- VADDH (R239). -/
def execVaddh (t e : Nat) (s : State) : Out :=
  vop 0x10 0x02 t e s (fun w a b sh j => halfLane (wSat w) (shrEven (a.lo j + b.lo j) sh) (shrEven (a.hi j + b.hi j) sh))

/-- VSUBH (R239). -/
def execVsubh (t e : Nat) (s : State) : Out :=
  vop 0x10 0x03 t e s (fun w a b sh j => halfLane (wSat w) (shrEven (a.lo j - b.lo j) sh) (shrEven (a.hi j - b.hi j) sh))

/-- VAND (R239). -/
def execVand (t e : Nat) (s : State) : Out :=
  vop 0x10 0x04 t e s (fun _ a b _ j => plainLane (a.lane j &&& b.lane j))

/-- VOR (R239). -/
def execVor (t e : Nat) (s : State) : Out :=
  vop 0x10 0x05 t e s (fun _ a b _ j => plainLane (a.lane j ||| b.lane j))

/-- VXOR (R239). -/
def execVxor (t e : Nat) (s : State) : Out :=
  vop 0x10 0x06 t e s (fun _ a b _ j => plainLane (a.lane j ^^^ b.lane j))

/-- VMIN (R239). -/
def execVmin (t e : Nat) (s : State) : Out :=
  vop 0x10 0x07 t e s (fun _ a b _ j => plainLane (BitVec.ofInt 32 (min (a.int j) (b.int j))))

/-- VMAX (R239). -/
def execVmax (t e : Nat) (s : State) : Out :=
  vop 0x10 0x08 t e s (fun _ a b _ j => plainLane (BitVec.ofInt 32 (max (a.int j) (b.int j))))

/-- VMINH (R239). -/
def execVminh (t e : Nat) (s : State) : Out :=
  vop 0x10 0x09 t e s (fun _ a b _ j => halfLane false (min (a.lo j) (b.lo j)) (min (a.hi j) (b.hi j)))

/-- VMAXH (R239). -/
def execVmaxh (t e : Nat) (s : State) : Out :=
  vop 0x10 0x0A t e s (fun _ a b _ j => halfLane false (max (a.lo j) (b.lo j)) (max (a.hi j) (b.hi j)))

/-- VABS (R239). -/
def execVabs (t e : Nat) (s : State) : Out :=
  vop 0x10 0x0B t e s (fun w a _ _ j => wideLane (wSat w) (a.int j).natAbs)

/-- VABSH (R239). -/
def execVabsh (t e : Nat) (s : State) : Out :=
  vop 0x10 0x0C t e s (fun w a _ sh j => halfLane (wSat w) (shrEven (a.lo j).natAbs sh) (shrEven (a.hi j).natAbs sh))

/-- VSHL (R239). -/
def execVshl (t e : Nat) (s : State) : Out :=
  vop 0x10 0x0D t e s (fun w a _ sh j => wideLane (wSat w) (a.int j * 2 ^ sh))

/-- VSAR (R239). -/
def execVsar (t e : Nat) (s : State) : Out :=
  vop 0x10 0x0E t e s (fun _ a _ sh j => wideLane false (shrEven (a.int j) sh))

/-- VSARH (R239). -/
def execVsarh (t e : Nat) (s : State) : Out :=
  vop 0x10 0x0F t e s (fun _ a _ sh j => halfLane false (shrEven (a.lo j) sh) (shrEven (a.hi j) sh))

/-- VMOV (R239). -/
def execVmov (t e : Nat) (s : State) : Out :=
  vop 0x10 0x10 t e s (fun _ a _ _ j => plainLane (a.lane j))

/-- VBCST (R239). -/
def execVbcst (t e : Nat) (s : State) : Out :=
  anvEng 0x10 0x11 t e s (fun w x => x.setLanes w (fun _ => plainLane (x.sreg (wA w))))

/-- VBCSTH (R239). -/
def execVbcsth (t e : Nat) (s : State) : Out :=
  anvEng 0x10 0x12 t e s (fun w x => x.setLanes w (fun _ => plainLane (joinHalves (x.sreg (wA w)).toNat (x.sreg (wA w)).toNat)))

/-- VSEL (R239). -/
def execVsel (t e : Nat) (s : State) : Out :=
  anvEng 0x10 0x13 t e s (fun w x =>
    x.setLanes w (fun j => plainLane (if (x.pred (wK w)).getLsbD j then (x.vec (wA w)).lane j else (x.vec (wB w)).lane j)))

/-- VSWAPH (R239). -/
def execVswaph (t e : Nat) (s : State) : Out :=
  vop 0x10 0x14 t e s (fun _ a _ _ j => plainLane (joinHalves ((a.lane j).toNat / 2 ^ 16) (a.lane j).toNat))

/-- VEXT (R239). -/
def execVext (t e : Nat) (s : State) : Out :=
  anvEng 0x10 0x15 t e s (fun w x => x.setS (wD w) ((x.vec (wA w)).lane (wC w)))

/-! ### VMUL (R239) -/

/-- VMULH (R239). -/
def execVmulh (t e : Nat) (s : State) : Out :=
  vop 0x11 0x00 t e s (fun w a b sh j => halfLane (wSat w) (shrEven (a.lo j * b.lo j) (15 + sh)) (shrEven (a.hi j * b.hi j) (15 + sh)))

/-- VMULHB (R239). -/
def execVmulhb (t e : Nat) (s : State) : Out :=
  anvEng 0x11 0x01 t e s (fun w x =>
    let a := x.vec (wA w)
    let b := signed 16 (x.sreg (wB w)).toNat
    let sh := 15 + x.scale w
    x.setLanes w (fun j => halfLane (wSat w) (shrEven (a.lo j * b) sh) (shrEven (a.hi j * b) sh)))

/-- VMULW (R239). -/
def execVmulw (t e : Nat) (s : State) : Out :=
  vop 0x11 0x02 t e s (fun w a b _ j => wideLane (wSat w) (shrEven (a.int j * b.int j) 31))

/-- VMULI (R239). -/
def execVmuli (t e : Nat) (s : State) : Out :=
  vop 0x11 0x03 t e s (fun _ a b _ j => wideLane false (a.lo j * b.lo j))

/-! ### Multiply-accumulate (R240) -/

/-- The exact sum of the two products of a lane. -/
def dot (a b : Vec) (j : Nat) : Int := a.lo j * b.lo j + a.hi j * b.hi j

/-- The product of the low halves for the even accumulator of a pair, of the high halves for the odd one. -/
def pairMul (a b : Vec) (odd : Bool) (j : Nat) : Int := if odd then a.hi j * b.hi j else a.lo j * b.lo j

/-- A dot form: one accumulator; `keep` 0 replaces it, 1 adds and -1 subtracts. -/
def Engine.dotMac (x : Engine) (w : Nat) (keep : Int) (a b : Vec) : Engine :=
  let d := wD w
  x.setAccs w [d] (fun _ j => if keep = 0 then dot a b j else (x.acc d).int j + keep * dot a b j)

/-- A pair form: two accumulators. -/
def Engine.pairMac (x : Engine) (w : Nat) (keep : Int) (a b : Vec) : Engine :=
  let d := wD w
  x.setAccs w [d, d + 1] (fun k j => if keep = 0 then pairMul a b (k ≠ d) j else (x.acc k).int j + keep * pairMul a b (k ≠ d) j)

/-- A register form of VMAC. -/
def vmac (fn t e : Nat) (s : State) (f : Engine → Nat → Vec → Vec → Engine) : Out :=
  anvEng 0x12 fn t e s (fun w x => f x w (x.vec (wA w)) (x.vec (wB w)))

/-- A row of 64 bytes as a vector. -/
def rowVec (v : Nat) : Vec := vecOf (fun j => BitVec.ofNat 32 (v / 2 ^ (32 * j)))

/-- A memory form of VMAC: the row at [P], and the row or the replicated element at [Q]; both addresses stand before any update, P is updated first (R238,
R240); accesses of one bank lose a tick (R196, R230). -/
def vmacm (fn t e : Nat) (s : State) (f : Engine → Nat → Vec → Vec → Engine) : Out :=
  anv 0x13 (fun n => n = fn) t e s (fun w s =>
    let x := s.engine e
    let a := x.ea (wP w)
    let b := x.ea (wQ w)
    s.loading e a 64 64 (fun ra s =>
      s.loading e b (if wV w then 2 else 64) (if wV w then 2 else 64) (fun rb s =>
        let vb := if wV w then vecOf (fun _ => joinHalves rb rb) else rowVec rb
        (s.only (bankOf a = bankOf b) (fun s => s.count Fld.ANV_STALL_CNT e 1)).finish e (fun x =>
          ((f x w (rowVec ra) vb).postMod (wU w) (wP w)).postMod (wUq w) (wQ w)))))

/-- VMAC2 (R240). -/
def execVmac2 (t e : Nat) (s : State) : Out :=
  vmac 0 t e s (fun x w a b => x.dotMac w 1 a b)

/-- VMSU2 (R240). -/
def execVmsu2 (t e : Nat) (s : State) : Out :=
  vmac 1 t e s (fun x w a b => x.dotMac w (-1) a b)

/-- VMUL2 (R240). -/
def execVmul2 (t e : Nat) (s : State) : Out :=
  vmac 2 t e s (fun x w a b => x.dotMac w 0 a b)

/-- VMACP (R240). -/
def execVmacp (t e : Nat) (s : State) : Out :=
  vmac 3 t e s (fun x w a b => x.pairMac w 1 a b)

/-- VMSUP (R240). -/
def execVmsup (t e : Nat) (s : State) : Out :=
  vmac 4 t e s (fun x w a b => x.pairMac w (-1) a b)

/-- VMULP (R240). -/
def execVmulp (t e : Nat) (s : State) : Out :=
  vmac 5 t e s (fun x w a b => x.pairMac w 0 a b)

/-- VMAC2_MEM (R240). -/
def execVmac2Mem (t e : Nat) (s : State) : Out :=
  vmacm 0 t e s (fun x w a b => x.dotMac w 1 a b)

/-- VMSU2_MEM (R240). -/
def execVmsu2Mem (t e : Nat) (s : State) : Out :=
  vmacm 1 t e s (fun x w a b => x.dotMac w (-1) a b)

/-- VMUL2_MEM (R240). -/
def execVmul2Mem (t e : Nat) (s : State) : Out :=
  vmacm 2 t e s (fun x w a b => x.dotMac w 0 a b)

/-- VMACP_MEM (R240). -/
def execVmacpMem (t e : Nat) (s : State) : Out :=
  vmacm 3 t e s (fun x w a b => x.pairMac w 1 a b)

/-- VMSUP_MEM (R240). -/
def execVmsupMem (t e : Nat) (s : State) : Out :=
  vmacm 4 t e s (fun x w a b => x.pairMac w (-1) a b)

/-- VMULP_MEM (R240). -/
def execVmulpMem (t e : Nat) (s : State) : Out :=
  vmacm 5 t e s (fun x w a b => x.pairMac w 0 a b)

/-! ### Accumulator moves and narrowing (R241) -/

/-- ACLR (R241). -/
def execAclr (t e : Nat) (s : State) : Out :=
  anvEng 0x14 0 t e s (fun w x => x.setAccs w [wD w] (fun _ _ => 0))

/-- AMOV (R241). -/
def execAmov (t e : Nat) (s : State) : Out :=
  anvEng 0x14 1 t e s (fun w x => x.setAccs w [wD w] (fun _ j => (x.vec (wA w)).int j))

/-- AADD (R241). -/
def execAadd (t e : Nat) (s : State) : Out :=
  anvEng 0x14 2 t e s (fun w x => x.setAccs w [wD w] (fun _ j => (x.acc (wD w)).int j + (x.acc (wA w)).int j))

/-- VPACK (R241). -/
def execVpack (t e : Nat) (s : State) : Out :=
  anvEng 0x14 3 t e s (fun w x =>
    let sh := wC w + x.scale w
    x.setLanes w (fun j => halfLane (wSat w) (shrEven ((x.acc (wA w)).int j) sh) (shrEven ((x.acc (wB w)).int j) sh)))

/-- VNARW (R241). -/
def execVnarw (t e : Nat) (s : State) : Out :=
  anvEng 0x14 4 t e s (fun w x => x.setLanes w (fun j => wideLane (wSat w) (shrEven ((x.acc (wA w)).int j) (wC w))))

/-- ARED (R241). -/
def execAred (t e : Nat) (s : State) : Out :=
  anvEng 0x14 5 t e s (fun w x =>
    let v := shrEven (lanes16.foldl (fun m j => m + (x.acc (wA w)).int j) 0) (wC w)
    { x with vov := x.vov || !fits 32 v, vovNow := x.vovNow || !fits 32 v }.setS (wD w) (BitVec.ofNat 32 (narrow (wSat w) 32 v)))

/-! ### Complex arithmetic (R243) -/

/-- The real and the imaginary part of the exact product of lane `j`, with the conjugate of vB when `c` is set. -/
def cmulRe (c : Bool) (a b : Vec) (j : Nat) : Int := if c then a.lo j * b.lo j + a.hi j * b.hi j else a.lo j * b.lo j - a.hi j * b.hi j
def cmulIm (c : Bool) (a b : Vec) (j : Nat) : Int := if c then a.hi j * b.lo j - a.lo j * b.hi j else a.lo j * b.hi j + a.hi j * b.lo j

/-- A complex product rounded once to Q1.15. -/
def cmul (c : Bool) (fn t e : Nat) (s : State) : Out :=
  vop 0x15 fn t e s (fun w a b sh j => halfLane (wSat w) (shrEven (cmulRe c a b j) (15 + sh)) (shrEven (cmulIm c a b j) (15 + sh)))

/-- A complex product added to a pair of accumulators. -/
def cmac (c : Bool) (fn t e : Nat) (s : State) : Out :=
  anvEng 0x15 fn t e s (fun w x =>
    let d := wD w
    let a := x.vec (wA w)
    let b := x.vec (wB w)
    x.setAccs w [d, d + 1] (fun k j => (x.acc k).int j + (if k = d then cmulRe c a b j else cmulIm c a b j)))

/-- CMUL (R243). -/
def execCmul (t e : Nat) (s : State) : Out :=
  cmul false 0 t e s

/-- CMULC (R243). -/
def execCmulc (t e : Nat) (s : State) : Out :=
  cmul true 1 t e s

/-- CMAC (R243). -/
def execCmac (t e : Nat) (s : State) : Out :=
  cmac false 2 t e s

/-- CMACC (R243). -/
def execCmacc (t e : Nat) (s : State) : Out :=
  cmac true 3 t e s

/-- CMAG2 (R243). -/
def execCmag2 (t e : Nat) (s : State) : Out :=
  vop 0x15 4 t e s (fun w a _ _ j => wideLane (wSat w) (dot a a j))

/-- CMAG2A (R243). -/
def execCmag2a (t e : Nat) (s : State) : Out :=
  anvEng 0x15 5 t e s (fun w x => x.dotMac w 1 (x.vec (wA w)) (x.vec (wA w)))

/-- CCONJ (R243). -/
def execCconj (t e : Nat) (s : State) : Out :=
  vop 0x15 6 t e s (fun w a _ sh j => halfLane (wSat w) (shrEven (a.lo j) sh) (shrEven (-(a.hi j)) sh))

/-! ### Compare (R246) -/

/-- A comparison writes the active bits of predicate D. -/
def vcmp (fn t e : Nat) (s : State) (f : Vec → Vec → Nat → Bool) : Out :=
  anvEng 0x18 fn t e s (fun w x =>
    let a := x.vec (wA w)
    let b := x.vec (wB w)
    x.setK (wD w) (BitVec.ofNat 16 (lanes16.foldl (fun m j => m + 2 ^ j * b2n (if x.active w j then f a b j else (x.pred (wD w)).getLsbD j)) 0)))

/-- VCMPEQ (R246). -/
def execVcmpeq (t e : Nat) (s : State) : Out :=
  vcmp 0 t e s (fun a b j => decide (a.int j = b.int j))

/-- VCMPNE (R246). -/
def execVcmpne (t e : Nat) (s : State) : Out :=
  vcmp 1 t e s (fun a b j => decide (a.int j ≠ b.int j))

/-- VCMPLT (R246). -/
def execVcmplt (t e : Nat) (s : State) : Out :=
  vcmp 2 t e s (fun a b j => decide (a.int j < b.int j))

/-- VCMPLE (R246). -/
def execVcmple (t e : Nat) (s : State) : Out :=
  vcmp 3 t e s (fun a b j => decide (a.int j ≤ b.int j))

/-- VCMPGT (R246). -/
def execVcmpgt (t e : Nat) (s : State) : Out :=
  vcmp 4 t e s (fun a b j => decide (a.int j > b.int j))

/-- VCMPGE (R246). -/
def execVcmpge (t e : Nat) (s : State) : Out :=
  vcmp 5 t e s (fun a b j => decide (a.int j ≥ b.int j))

/-- VTINV (R246). -/
def execVtinv (t e : Nat) (s : State) : Out :=
  vcmp 6 t e s (fun a _ j => decide (a.lo j = -0x8000) || decide (a.hi j = -0x8000))

end Sys2Proof.Machine
end

