-- ==== Sys2Proof/Machine/AnvilMemory.lean ====
section
/-!
DEFINITION. The vector loads and stores, the complex butterfly, and the DMA and queue instructions of an Anvil engine
(spec 09_anvil_instruction_set, R244, R245, R247, R248; spec 08_anvil_engines, R209, R210, R220, R221).
Points that the spec leaves open or that are read from it by inference: DEDUCED 24; DESIGN CHOICE 25 of the assumption log.
-/

namespace Sys2Proof.Machine

/-! ### Vector loads and stores (R247) -/

/-- An instruction at the address that pointer P presents. -/
def vmem (op fn t e : Nat) (s : State) (f : Nat → Nat → State → State) : Out :=
  anv op (fun n => n = fn) t e s (fun w s => f w ((s.engine e).ea (wP w)) s)

/-- VLD (R247). -/
def execVld (t e : Nat) (s : State) : Out :=
  vmem 0x20 0 t e s (fun w a s => s.loading e a 64 64 (fun r s =>
    s.finish e (fun x => (x.setLanes w (fun j => plainLane ((rowVec r).lane j))).postMod (wU w) (wP w))))

/-- VST: predicated lanes keep their bytes (R235, R247). -/
def execVst (t e : Nat) (s : State) : Out :=
  vmem 0x21 0 t e s (fun w a s => s.storing e a 64 (fun s =>
    let x := s.engine e
    (s.each (lanes16.filter (x.active w)) (fun j s => s.dstore e (a + 4 * j) (leBytes 4 ((x.vec (wD w)).lane j).toNat))).finish e
      (fun x => x.postMod (wU w) (wP w))))

/-- VLDB_H (R247). -/
def execVldbH (t e : Nat) (s : State) : Out :=
  vmem 0x22 0 t e s (fun w a s => s.loading e a 2 2 (fun r s =>
    s.finish e (fun x => (x.setLanes w (fun _ => plainLane (joinHalves r r))).postMod (wU w) (wP w))))

/-- VLDB_W (R247). -/
def execVldbW (t e : Nat) (s : State) : Out :=
  vmem 0x22 1 t e s (fun w a s => s.loading e a 4 4 (fun r s =>
    s.finish e (fun x => (x.setLanes w (fun _ => plainLane (BitVec.ofNat 32 r))).postMod (wU w) (wP w))))

/-! ### The complex butterfly (R244, R245) -/

/-- TW(φ): the twiddle factor of a phase, real and imaginary part (R244). -/
def twiddle (phi : Nat) : Int × Int :=
  let c := cosSin phi 16
  (shrEven (32767 * c.1) 96, shrEven (-32767 * c.2) 96)

/-- The bytes of a row of lane words. -/
def rowBytes (f : Nat → Word) : List Byte := lanes16.flatMap (fun j => leBytes 4 (f j).toNat)

/-- The top and bottom results of lane `j`: (a × 2^15 ± b × w) / 2^(15 + SCALE), rounded once (R244). -/
def flyLane (sat : Bool) (tw : Int × Int) (sh : Nat) (a b : Vec) (j : Nat) : LaneOut × LaneOut :=
  let re := b.lo j * tw.1 - b.hi j * tw.2
  let im := b.lo j * tw.2 + b.hi j * tw.1
  (halfLane sat (shrEven (a.lo j * 2 ^ 15 + re) (15 + sh)) (shrEven (a.hi j * 2 ^ 15 + im) (15 + sh)),
   halfLane sat (shrEven (a.lo j * 2 ^ 15 - re) (15 + sh)) (shrEven (a.hi j * 2 ^ 15 - im) (15 + sh)))

/-- The butterfly's results, which set their flags when they are written, and its effect on phase and pointers (R208, R232, R244). -/
def Engine.butterfly (x : Engine) (w : Nat) (conj : Bool) (ta ba : Nat) (a b : Vec) : Engine :=
  let c := twiddle (x.sreg (wSa w)).toNat
  let tw := if conj then (c.1, -c.2) else c
  let out := lanes16.map (fun j => flyLane (wSat w) tw (x.scale w) a b j)
  let at_ (j : Nat) : LaneOut × LaneOut := out.getD j (plainLane 0, plainLane 0)
  let head := out.foldl (fun m o => min m (min o.1.head o.2.head)) 15
  let row : FlyRow := ⟨ba, rowBytes (fun j => (at_ j).2.val), ta, rowBytes (fun j => (at_ j).1.val), out.any (fun o => o.1.ov || o.2.ov),
    if wBx w then some head else none⟩
  let x2 := { x with fly := x.fly ++ [row] }
  ((x2.postMod (wU w) (wP w)).postMod (wUq w) (wQ w)).setS (wSa w) (x.sreg (wSa w) + x.sreg (wSb w))

/-- CBFLYM and CBFLYMC: both rows are loaded before the results of the iteration two before this one are stored (R244, R245). -/
def cbflym (fn : Nat) (conj : Bool) (t e : Nat) (s : State) : Out :=
  anv 0x16 (fun n => n = fn) t e s (fun w s =>
    let x := s.engine e
    let ta := x.ea (wP w)
    let ba := x.ea (wQ w)
    s.loading e ta 64 64 (fun rt s => s.loading e ba 64 64 (fun rb s =>
      let s1 := s.only (flyContends x ta ba) (fun s => s.count Fld.ANV_STALL_CNT e 1)
      let s2 := s1.only (decide (2 ≤ x.fly.length)) (fun s => s.flyStore e)
      s2.finish e (fun x => x.butterfly w conj ta ba (rowVec rt) (rowVec rb)))))

/-- CBFLYM (R244). -/
def execCbflym (t e : Nat) (s : State) : Out := cbflym 0 false t e s

/-- CBFLYMC (R244). -/
def execCbflymc (t e : Nat) (s : State) : Out := cbflym 1 true t e s

/-! ### DMA (R209, R210, R248) -/

/-- The channel that a descriptor of 32 bytes asks for (R209). -/
def dmaOf (img : List Byte) : Dma where
  busy := true
  done := false
  reclaimed := false
  err := false
  code := 0
  rows := imgGet img 16 2
  daddr := imgGet img 0 8 % 2 ^ 35
  maddr := imgGet img 8 4
  len := imgGet img 12 4
  out := bit (imgGet img 18 2) 0
  tile := bit (imgGet img 18 2) 1
  dstride := signed 32 (imgGet img 20 4)
  mstride := signed 32 (imgGet img 24 4)
  lane := imgGet img 28 1
  block := imgGet img 30 2

/-- The ERRCODE with which a transfer is refused, or 0: the conditions in the order 3, 4, 1, 2 (R210). -/
def State.dmaRefusal (s : State) (d : Dma) : Nat :=
  if d.daddr % 64 ≠ 0 || d.maddr % 64 ≠ 0 || d.len % 64 ≠ 0 || d.dstride % 64 ≠ 0 || d.mstride % 64 ≠ 0
      || d.len < 64 || 524288 < d.len || d.rows = 0 then 3
  else if 0x80000 ≤ d.maddr then 4
  else
    let last : Int := (d.daddr : Int) + (d.rows - 1 : Nat) * d.dstride
    if last < 0 || (s.dramEnd : Int) < last + d.len || s.dramEnd < d.daddr + d.len then 1
    else if d.out && (List.range d.rows).any (fun r => s.inTiles (d.dramRow r) d.len) then 2 else 0

/-- A transfer starts on a channel, or is refused: the refusal sets ERR and DMAERR, leaves ROWS 0 (DESIGN CHOICE 25) and raises the channel's event (R210, R214, R224). -/
def State.dmaStart (s : State) (e c : Nat) (d : Dma) : State :=
  match s.dmaRefusal d with
  | 0 => s.onEngine e (fun x => x.onDma c (fun _ => d))
  | code => s.onEngine e (fun x =>
      ({ x.onDma c (fun _ => { d with busy := false, err := true, code := code, rows := 0 }) with dmaErr := true }.markSet s.dev 4).raise (4 + c))

/-- The instruction waits for a DMA channel. -/
def State.chanWait (s : State) (e : Nat) : State :=
  s.onEngine e (fun x => match x.wait with
    | .none => { x with wait := .chan s.dev }
    | _ => x)

/-- How long the instruction has waited for its channel. -/
def State.chanWaited (s : State) (e : Nat) : Nat :=
  match (s.engine e).wait with
  | .chan since => s.dev - since
  | _ => 0

/-- DMAST: waits while the channel is BUSY; the wait counts in ANV_STALL_CNT (R209, R223, R248). -/
def execDmast (t e : Nat) (s : State) : Out :=
  anv 0x24 (fun n => n = 0) t e s (fun w s =>
    let a := ((s.engine e).sreg (wA w)).toNat
    if 0x80000 ≤ a || a % 32 ≠ 0 then s.anvFault e 4
    else if ((s.engine e).chan (wC w)).busy then s.chanWait e
    else s.loading e a 32 32 (fun _ s =>
      ((s.dmaStart e (wC w) (dmaOf ((s.engine e).bytes a 32))).count Fld.ANV_STALL_CNT e (s.chanWaited e)).finish e id))

/-- The channel's status goes to sD (R248). -/
def State.dmaStatus (s : State) (e w : Nat) : State := s.finish e (fun x => x.setS (wD w) (x.chan (wC w)).word)

/-- DMAWT: waits until the channel is not BUSY (R248). -/
def execDmawt (t e : Nat) (s : State) : Out :=
  anv 0x24 (fun n => n = 1) t e s (fun w s => if ((s.engine e).chan (wC w)).busy then s.chanWait e else s.dmaStatus e w)

/-- DMARD (R248). -/
def execDmard (t e : Nat) (s : State) : Out := anv 0x24 (fun n => n = 2) t e s (fun w s => s.dmaStatus e w)

/-! ### Queue work (R220, R221, R248) -/

/-- A descriptor is handed over in its turn on the PCLK edge: it is refused at once, or waits for its acceptance (R220, R337, R338). -/
def State.post (s : State) (e q rd : Nat) (img : List Byte) : State :=
  match s.checkTurn q (.engine e) img with
  | some r => (s.countRefusal r).finish e (fun x => x.setS rd ((s.setAside q (.engine e)).postWord q r img))
  | none => ((s.startAccept q (.engine e) img).onEngine e (fun x => { x with wait := .post q rd })).count Fld.ANV_BUSY_CNT e 1

/-- POST: waits for every DMEM-to-DRAM transfer of the engine (R220). -/
def execPost (t e : Nat) (s : State) : Out :=
  anv 0x25 (fun n => n = 0) t e s (fun w s =>
    let a := ((s.engine e).sreg (wA w)).toNat
    let q := ((s.engine e).sreg (wB w)).toNat % 64
    if (s.engine e).dma.toList.any (fun d => d.busy && d.out) && a < 0x80000 && a % 64 = 0 then s.chanWait e
    else s.loading e a 64 64 (fun _ s => s.post e q (wD w) ((s.engine e).bytes a 64)))

/-- TAKE: the next untaken descriptor of the engine's own queue goes to data memory (R221, R340). -/
def execTake (t e : Nat) (s : State) : Out :=
  anv 0x25 (fun n => n = 1) t e s (fun w s =>
    let a := ((s.engine e).sreg (wA w)).toNat
    s.storing e a 64 (fun s =>
      match if s.flag Fld.QUE_CTRL_EN 0 then (s.queue e).untaken else none with
      | some d => ((s.take e d.seq).dstore e a d.img).finish e (fun x => x.setS (wD w) (BitVec.ofNat 32 d.seq))
      | none => s.finish e (fun x => x.setS (wD w) 0x80000000)))

/-- DONE: a taken and uncompleted command of the engine's own queue is done (R221, R248, R341). -/
def execDone (t e : Nat) (s : State) : Out :=
  anv 0x25 (fun n => n = 2) t e s (fun w s =>
    let seq := ((s.engine e).sreg (wA w)).toNat
    if (s.queue e).entries.any (fun d => d.seq = seq && d.taken && !d.done) then (s.done e seq).finish e (fun x => x.setS (wD w) 0)
    else s.finish e (fun x => x.setS (wD w) 0x80000004))

end Sys2Proof.Machine
end

