-- ==== Sys2Proof/Machine/Phx.lean ====
section
/-!
DEFINITION. Phase and temperature extraction: placing outputs on the fibre, polarisation combining, unwrap, tiles, blocks, temperatures, trace end
and breaks (spec 07_phase_and_temperature, R168 to R192; R27 to R29, R50). Averages and angles are exact here, since no width is given for them
(assumption 15).
Points that the spec leaves open or that are read from it by inference: DESIGN CHOICE 15, 37; DEDUCED 51, 56 of the assumption log.
-/

namespace Sys2Proof.Machine

/-! ### A lane's geometry and state -/

/-- The phase side of lane `n`. -/
def State.phxOf (s : State) (n : Nat) : PhxLane := s.phx.getD n PhxLane.reset

/-- A change of lane `n`'s phase side. -/
def State.onPhx (s : State) (n : Nat) (f : PhxLane → PhxLane) : State := { s with phx := s.phx.setIfInBounds n (f (s.phxOf n)) }

/-- Frame length N, probes P and block length as lane `n` works from them. -/
def State.lenN (s : State) (n : Nat) : Nat := s.fld Fld.WCK_Ln_FRAME_N n
def State.lenP (s : State) (n : Nat) : Nat := s.fld Fld.WCK_Ln_PROBES_P n
def State.lenB (s : State) (n : Nat) : Nat := s.laneFld n Fld.PHX_BLOCK_BLOCK

/-- The nominal launch interval 8I in ACLK ticks (R47). -/
def State.interval (s : State) (n : Nat) : Nat := 8 * s.lenN n / s.lenP n

/-- The number of grid block `j`: blocks are numbered by the lane's count of closed blocks (R176). -/
def State.blockNo (s : State) (n j : Nat) : Nat := s.fld Fld.PHX_BLK_CNT n + (j - (s.phxOf n).block)

/-- π as a rational, to 96 bits. -/
def piQ : Rat := (pi96 : Rat) / 2 ^ 96

/-- The spatial sample Δz in metres (R15, R43). -/
def State.deltaZ (s : State) (n : Nat) : Rat :=
  299792458 * (1024 / 100000000000 : Rat) / (2 * (s.laneFld n Fld.PHX_GIDX_GIDX : Rat) / 1000000)

/-- K in LSB per kelvin: PHX_TCOEF × g × Δz, with 8,192 LSB to the turn (R183). -/
def State.lsbPerK (s : State) (n : Nat) : Rat :=
  (signed 24 (s.laneFld n Fld.PHX_TCOEF_TCOEF) : Rat) / 65536 * s.laneFld n Fld.PHX_GAUGE_G * s.deltaZ n * 8192 / (2 * piQ)

/-- A point's state. -/
def PhxLane.pt (l : PhxLane) (i : Nat) : Pt := sget Pt.reset l.pts i

/-- A point's state changed. -/
def PhxLane.setPt (l : PhxLane) (i : Nat) (p : Pt) : PhxLane := { l with pts := sput Pt.reset l.pts i p }

/-- The address of row `k` of point group `g` of block number `no` (R179). -/
def State.rowAddr (s : State) (n no k g : Nat) : Nat :=
  s.laneFld n Fld.PHX_TILEBASE_BASE * 2 ^ 20 + ((no % 2) * s.lanes + n) * 98304 * s.lenB n + g * 64 * s.lenB n + 64 * k

/-- A row of 32 words written to its tile (R28, R179). -/
def State.writeRow (s : State) (n no k g : Nat) (ws : List Nat) : State :=
  s.portWrite 0 true (s.rowAddr n no k g) (ws.flatMap (fun w => leBytes 2 w))

/-- A row of INVALID words (R174). -/
def invalidRow : List Nat := List.replicate 32 0x8000

/-- The word of a formed sample (R174). -/
def phaseWord (phi : Int) : Nat := if wrapInt 16 phi = 0x8000 then 0x8001 else wrapInt 16 phi

/-! ### Combining (R169 to R171) -/

/-- HSC excludes a channel of the lane: it is down, its pair mismatches, or a retirement's interval overlaps the frame (R138, R139). -/
def State.hscOut (s : State) (c : Nat) (f : PhxFrame) : Bool :=
  s.flag Fld.HSC_Cn_SLICE_DOWN c || s.flag Fld.HSC_Cn_STAT_MISMATCH c
    || (match (s.hscCh c).excl with
      | some (a, z) => decide (a < f.stamp + 8 * f.n) && decide (f.stamp ≤ z)
      | none => false)

/-- A channel takes no part in any launch: excluded by HSC, or its path is stopped (R138, R139, R144). -/
def State.chanOut (s : State) (c b : Nat) (f : PhxFrame) : Bool := !(s.path c b).run || s.hscOut c f

/-- The class of one channel's output at a point, as excluded 0, void 1, missing 2, weak 3 or good 4 (R169). -/
def chanClass (stopped out : Bool) (th : Nat) (x : Option Sample) : Nat :=
  match x with
  | none => if stopped then 0 else 2
  | some v => if stopped then 0 else if v.settle || v.blank then 1 else if out then 0 else if v.sat || decide (magEst8 v.i v.q < 128 * th) then 3 else 4

/-- The point's class from the classes of its two channels (R169). -/
def ptClass (cx cy : Nat) : PtClass :=
  let live := [cx, cy].filter (fun c => c ≠ 0)
  if live.isEmpty then .excluded
  else if live.all (fun c => c = 1) then .void
  else
    let used := live.filter (fun c => c ≠ 1)
    if used.any (fun c => c = 2) then .missing
    else if used.all (fun c => c = 3) then .faded
    else .good

/-- The averages of a point and probe after a launch in which both channels are good (R170), and the reference after the first seeding (R171). -/
def polUpdate (p : Pol) (ptc : Nat) (x y : Sample) : Pol :=
  let sq (a b : Int) : Rat := ((a * a + b * b : Int) : Rat)
  let cr : Rat := ((y.i * x.i + y.q * x.q : Int) : Rat)
  let ci : Rat := ((y.q * x.i - y.i * x.q : Int) : Rat)
  if p.seeded then
    let mv (o v : Rat) : Rat := o + (v - o) / 2 ^ ptc
    { p with ax := mv p.ax (sq x.i x.q), ay := mv p.ay (sq y.i y.q), cre := mv p.cre cr, cim := mv p.cim ci }
  else { p with ax := sq x.i x.q, ay := sq y.i y.q, cre := cr, cim := ci, seeded := true, refY := decide (sq x.i x.q < sq y.i y.q), rotRe := 1, rotIm := 0 }

/-- The reference switches between the channels (R171): γ rises by arg C at a switch to Y and falls by it at a switch to X; a C of zero turns nothing
(DESIGN CHOICE 37). -/
def polSwitch (p : Pol) (useX useY : Bool) : Pol :=
  let c : Rat × Rat := if p.cre = 0 ∧ p.cim = 0 then (1, 0) else (p.cre, p.cim)
  if !p.seeded then p
  else if p.refY then
    if useX && (!useY || decide (p.ay < p.ax / 64)) then
      -- e^(-jγ) gains the factor C
      { p with refY := false, rotRe := p.rotRe * c.1 - p.rotIm * c.2, rotIm := p.rotRe * c.2 + p.rotIm * c.1 }
    else p
  else if useY && (!useX || decide (p.ax < p.ay / 64)) then
    -- e^(-jγ) gains the factor conj C
    { p with refY := true, rotRe := p.rotRe * c.1 + p.rotIm * c.2, rotIm := p.rotIm * c.1 - p.rotRe * c.2 }
  else p

/-- The combined output up to a positive factor, and the square of that factor's inverse for its magnitude (R171). -/
def polCombine (p : Pol) (cx cy : Nat) (x y : Option Sample) : Rat × Rat × Rat :=
  let v (o : Option Sample) : Rat × Rat := match o with
    | some a => ((a.i : Rat), (a.q : Rat))
    | none => (0, 0)
  let useX := decide (cx = 3) || decide (cx = 4)
  let useY := decide (cy = 3) || decide (cy = 4)
  let zx := v x
  let zy := v y
  if !p.seeded then
    let pickX := if decide (cx = 4) && !decide (cy = 4) then true else if decide (cy = 4) && !decide (cx = 4) then false else useX
    let z := if pickX then zx else zy
    (z.1, z.2, 1)
  else
    let c2 := p.cre * p.cre + p.cim * p.cim
    let z : Rat × Rat × Rat :=
      if useX && useY then
        if p.refY then (p.cre * zx.1 - p.cim * zx.2 + p.ay * zy.1, p.cre * zx.2 + p.cim * zx.1 + p.ay * zy.2, p.ay * p.ay + c2)
        else (p.ax * zx.1 + p.cre * zy.1 + p.cim * zy.2, p.ax * zx.2 + p.cre * zy.2 - p.cim * zy.1, p.ax * p.ax + c2)
      else if useX then (zx.1, zx.2, 1) else (zy.1, zy.2, 1)
    let r2 := p.rotRe * p.rotRe + p.rotIm * p.rotIm
    (z.1 * p.rotRe - z.2.1 * p.rotIm, z.1 * p.rotIm + z.2.1 * p.rotRe, if r2 = 0 then z.2.2 else z.2.2 * r2)

/-- The square root of a rational in 1/65,536 units, rounded down. -/
def sqrt16 (x : Rat) : Nat := if x ≤ 0 then 0 else Nat.sqrt (x.num.toNat * 2 ^ 32 / x.den)

/-! ### Errors of the point state (R178, R456) -/

/-- The place of a point's state among the errors: 64 bytes a point, a place of 3 MiB for each lane (DEDUCED 51). -/
def ptKey (n i : Nat) : Nat := n * 0x300000 + 64 * i

/-- A double-bit error clears a point's state as at first use (R178). -/
def State.pointLost (s : State) (n i : Nat) : State :=
  ((s.onPhx n (fun l => l.setPt i { Pt.reset with lastT := (l.pt i).lastT })).count Fld.PHX_ECC_CNT 0 1).faultAt 5 n (0x4010 + 0x200 * n) i 3

/-- A point's state is read: a single-bit error is corrected, a double-bit error clears it (R178, R456). -/
def State.ptRead (s : State) (n i : Nat) : State :=
  match s.eccRange 4 (ptKey n i) 64 with
  | 0 => s
  | 1 => s.eccClear 4 (ptKey n i) 64
  | _ => (s.eccClear 4 (ptKey n i) 64).pointLost n i

/-- A point's state is written: an armed injection may strike (R456). -/
def State.ptWrite (s : State) (n i : Nat) (p : Pt) : State := (s.onPhx n (fun l => l.setPt i p)).eccStrike 4 0 (ptKey n i) 64

/-- One point of a launch combined: the averages move, the reference may switch, and the magnitude enters the trace average (R170, R171, R181). -/
def State.combinePoint (s : State) (n : Nat) (f : PhxFrame) (i : Nat) : State × Comb :=
  let s := s.ptRead n i
  let th := s.laneFld n Fld.PHX_FADE_TH_TH
  let get (l : List (Nat × Sample)) : Option Sample := (l.find? (fun e => e.1 = i)).map (·.2)
  let x := get f.x
  let y := get f.y
  let cx := chanClass (f.stX || (x.isNone && !(s.path (2 * n) f.probe).run)) (f.exX || s.hscOut (2 * n) f) th x
  let cy := chanClass (f.stY || (y.isNone && !(s.path (2 * n + 1) f.probe).run)) (f.exY || s.hscOut (2 * n + 1) f) th y
  let l := s.phxOf n
  let pt := l.pt i
  let p := pt.pol.getD f.probe Pol.reset
  let p1 := match x, y with
    | some a, some b => if cx = 4 && cy = 4 then polUpdate p (s.laneFld n Fld.PHX_CTRL_PTC) a b else p
    | _, _ => p
  let p2 := polSwitch p1 (decide (2 ≤ cx)) (decide (2 ≤ cy))
  let z := polCombine p2 cx cy x y
  let cls := ptClass cx cy
  let counts := f.probe = 0 && (decide (3 ≤ cx) || decide (3 ≤ cy))
  let m := if z.2.2 = 0 then 0 else sqrt16 ((z.1 * z.1 + z.2.1 * z.2.1) / (z.2.2 * 256))
  let pt1 := { pt with pol := pt.pol.setIfInBounds f.probe p2, mag := if counts then pt.mag + m else pt.mag, magN := if counts then pt.magN + 1 else pt.magN }
  (s.ptWrite n i pt1, ⟨z.1, z.2.1, cls⟩)

/-- Points combined up to index `upto`. -/
def State.combineTo (s : State) (n : Nat) (f : PhxFrame) (upto : Nat) : State × PhxFrame :=
  (List.range (upto + 1 - f.combined)).foldl
    (fun (acc : State × PhxFrame) _ =>
      let i := acc.2.combined
      let r := acc.1.combinePoint n acc.2 i
      (r.1, { acc.2 with combined := i + 1, z := acc.2.z ++ [(i, r.2)] }))
    (s, f)

/-! ### Phase (R169, R172, R173) -/

/-- What a sample situation asks for (R169). -/
inductive PhaseAct where
  | measure | fill | skip
deriving DecidableEq, Repr

/-- The action of a sample spanning two points, and whether it is a faded one measured with P = 1 (R169). -/
def phaseAct (a b : PtClass) (p : Nat) : PhaseAct × Bool :=
  if a = .void ∨ b = .void then (.skip, false)
  else if a = .excluded ∨ b = .excluded then (.skip, false)
  else if a = .missing ∨ b = .missing then (if 2 ≤ p then .fill else .skip, false)
  else if a = .faded ∨ b = .faded then (if 2 ≤ p then .fill else .measure, decide (p < 2))
  else (.measure, false)

/-- The nearest whole LSB of an offset with eight fraction bits, a half to even (R172). -/
def wholeOff (o : Int) : Int := roundEven ((o : Rat) / 256)

/-- The map to -4,096 to +4,095 (R172). -/
def wrapLsb (x : Int) : Int := signed 13 (wrapInt 13 x)

/-- A phase in its 48-bit format, and an offset in its 16 bits with 8 more of fraction; a sum beyond them wraps (R172, DEDUCED 56). -/
def phi48 (x : Int) : Int := signed 48 (wrapInt 48 x)
def off24 (x : Int) : Int := signed 24 (wrapInt 24 x)

/-- What one launch does to a point: the new state, the sample's value (none is INVALID) and which counters move: fill, invalid, re-reference (R172). -/
def unwrapStep (pt : Pt) (act : PhaseAct) (b p : Nat) (psi : Int) (pred1 : Bool) (otc : Nat) : Pt × Option Int × Bool × Bool × Bool :=
  if !pt.ref0 then
    if b = 0 ∧ act = .measure then ({ pt with phi := psi, prev := psi, ref0 := true }, some psi, false, false, false)
    else (pt, none, false, false, false)
  else
    let pred := if pred1 then 2 * pt.phi - pt.prev else pt.phi
    let first := decide (act = .measure) && decide (b ≠ 0) && !bit pt.refb b
    let pt1 := if first then { pt with off := pt.off.setIfInBounds b (256 * wrapLsb (psi - pred)), refb := setBit pt.refb b true } else pt
    let act1 := if first then PhaseAct.fill else act
    if act1 = .measure then
      let o := pt1.off.getD b 0
      let r := wrapLsb (psi - (if b = 0 then 0 else wholeOff o) - pred)
      let o1 := off24 (o + roundEven ((256 * r : Int) / (2 ^ otc : Rat)))
      let pt2 := if b = 0 then pt1 else { pt1 with off := pt1.off.setIfInBounds b o1 }
      let nw := phi48 (pred + r)
      ({ pt2 with prev := pt.phi, phi := nw, fills := 0, gap := 0 }, some nw, false, false, decide (64 < pt.gap))
    else if act1 = .fill ∧ pt1.fills + 1 < p then
      let nw := phi48 pred
      ({ pt1 with prev := pt.phi, phi := nw, fills := pt1.fills + 1, gap := pt1.gap + 1 }, some nw, true, false, false)
    else ({ pt1 with gap := pt1.gap + 1 }, none, false, true, false)

/-- The phase of point i + g against point i (R172). -/
def psiOf (a b : Comb) : Int := phaseOf (b.re * a.re + b.im * a.im) (b.im * a.re - b.re * a.im)

/-- A sample enters the sums of its block: the next one to close, or the one after it (R176, R183). -/
def Pt.add (p : Pt) (later : Bool) (phi : Int) (k : Rat) : Pt :=
  if later then { p with laterPK := p.laterPK + phi / k, laterK := p.laterK + 1 / k, laterCnt := p.laterCnt + 1 }
  else { p with sumPK := p.sumPK + phi / k, sumK := p.sumK + 1 / k, cnt := p.cnt + 1 }

/-- Slot `slot` lies in a block after the next one to close (R175, R176). -/
def State.laterSlot (s : State) (n slot : Nat) : Bool := decide (s.lenP n + ((s.phxOf n).block + 1) * s.lenB n ≤ slot)

/-- The account of a block of the lane changed. -/
def PhxLane.onAcc (l : PhxLane) (later : Bool) (f : BlockAcc → BlockAcc) : PhxLane :=
  if later then { l with later := f l.later } else { l with acc := f l.acc }

/-- The sample of point `i` of a frame formed: the point's state, the counters and the word (R169, R172, R174, R183). -/
def State.formSample (s : State) (n : Nat) (f : PhxFrame) (i : Nat) : State × PhxFrame × Nat :=
  if f.n ≤ i + f.g then (s, f, 0x8000)
  else
    let r0 := s.combineTo n f (i + f.g)
    let r := (r0.1.ptRead n i, r0.2)
    let find (j : Nat) : Comb := ((r.2.z.find? (fun e => e.1 = j)).map (·.2)).getD ⟨0, 0, .missing⟩
    let a := find i
    let b := find (i + f.g)
    let act := phaseAct a.cls b.cls f.p
    let l := r.1.phxOf n
    let u := unwrapStep (l.pt i) act.1 f.probe f.p (psiOf a b) (r.1.laneFld n Fld.PHX_CTRL_PRED = 1) (r.1.laneFld n Fld.PHX_CTRL_OTC)
    let pt := match u.2.1 with
      | some phi => u.1.add (s.laterSlot n f.slot) phi f.k
      | none => u.1
    let s1 := (r.1.ptWrite n i pt).onPhx n (fun l => l.onAcc (s.laterSlot n f.slot) (fun a => { a with formed := a.formed + b2n u.2.1.isSome }))
    let s2 := ((s1.count Fld.PHX_FILL_CNT n (b2n u.2.2.1 + b2n (act.2 && u.2.1.isSome))).count Fld.PHX_INV_CNT n (b2n u.2.2.2.1)).count
      Fld.PHX_REREF_CNT n (b2n u.2.2.2.2)
    (s2, { r.2 with z := r.2.z.filter (fun e => i < e.1) }, match u.2.1 with
      | some phi => phaseWord phi
      | none => 0x8000)

/-- Slots of the open block with every row written, and its groups of 32 slots that are complete (R176, R214). -/
def State.slotsDone (s : State) (n : Nat) : Nat × Nat :=
  let l := s.phxOf n
  let b0 := s.lenP n + l.block * s.lenB n
  let done := l.rows.filter (fun k => b0 ≤ k && k < b0 + s.lenB n)
  let full := (List.range (s.lenB n / 32)).filter (fun g => (List.range 32).all (fun k => done.contains (b0 + 32 * g + k)))
  (done.length, full.length)

/-- The position registers follow the lane (R176, R224). -/
def State.setPos (s : State) (n : Nat) : State :=
  let d := s.slotsDone n
  let s1 := (s.setFld Fld.PHX_Ln_BLKPOS_SLOT n d.1).setFld Fld.PHX_Ln_BLKPOS_BLK n (s.fld Fld.PHX_BLK_CNT n)
  s1.each (s.boundTo n) (fun e s => s.onEngine e (fun x => { x with posSlot := 32 * d.2, posBlk := s.fld Fld.PHX_BLK_CNT n % 65536 }))

/-- The position registers of every lane, and of every engine by the lane it is bound to (R224). -/
def State.posAll (s : State) : State := s.each (List.range s.lanes) (fun n s => s.setPos n)

/-- PHX begins a block in a buffer that an engine still reads: a tile overrun (R32). An engine still reads block b where an inbound TILE transfer that names it is in
progress as block b + 2 begins (DESIGN CHOICE 37). -/
def State.beginBlock (s : State) (n no : Nat) : State :=
  let l := s.phxOf n
  if (match l.begun with
    | some b => decide (no ≤ b)
    | none => false) then s
  else
    let s1 := s.onPhx n (fun l => { l with begun := some no })
    let reading := (List.range s.lanes).any (fun e => (List.range 4).any (fun c =>
      let d := (s.engine e).chan c
      d.busy && d.tile && !d.out && d.lane = n && (d.block + 2) % 65536 = no % 65536))
    if reading then (s1.count Fld.PHX_OVR_CNT n 1).setFld Fld.PHX_Ln_STAT_OVR n (min 255 (s.fld Fld.PHX_Ln_STAT_OVR n + 1)) else s1

/-- A complete row of a frame is written; a slot whose rows are all written counts, and a further 32 of them raise ROW (R28, R214). -/
def State.rowDone (s : State) (n : Nat) (f : PhxFrame) : State :=
  let j := (f.slot - f.p) / s.lenB n
  let no := s.blockNo n j
  let k := (f.slot - f.p) % s.lenB n
  let before := (s.slotsDone n).2
  let s1 := (s.beginBlock n no).writeRow n no k ((f.next - 1) / 32) f.row.reverse
  if f.next = f.n then
    let s2 := (s1.onPhx n (fun l => { l with rows := l.rows ++ [f.slot] })).setPos n
    if before < (s2.slotsDone n).2 then s2.rowEvent n else s2
  else s1

/-- Channels of a launch that take no part in it count as excluded: in the account of its block, and in XEXCL and YEXCL while it is the last launch. A path that
stops at the launch's boundary and a retirement whose interval overlaps its frame join those known at the stamp (R138, R144, R189, R192). -/
def State.noteOut (s : State) (n : Nat) (f : PhxFrame) : State :=
  let x := f.exX || f.stX || s.chanOut (2 * n) f.probe f
  let y := f.exY || f.stY || s.chanOut (2 * n + 1) f.probe f
  if !x && !y then s
  else
    let s1 := s.onPhx n (fun l => l.onAcc (s.laterSlot n f.slot) (fun a => { a with exMask := a.exMask ||| (b2n x + 2 * b2n y) }))
    s1.only ((s.phxOf n).lastStamp = some f.stamp) (fun s =>
      (s.only x (fun s => s.setFlag Fld.PHX_Ln_STAT_XEXCL n true)).only y (fun s => s.setFlag Fld.PHX_Ln_STAT_YEXCL n true))

/-- The frame of probe `b` whose samples are being formed: the oldest one of the lane. -/
def PhxLane.frameOf (l : PhxLane) (b : Nat) : Option PhxFrame := l.frames.find? (fun f => f.probe = b)

/-- A frame replaced by its later self, or dropped once complete. -/
def PhxLane.putFrame (l : PhxLane) (f : PhxFrame) : PhxLane :=
  if f.next = f.n then { l with frames := l.frames.filter (fun g => g.stamp ≠ f.stamp) }
  else { l with frames := l.frames.map (fun g => if g.stamp = f.stamp then f else g) }

/-- The next phase sample of probe `b`'s frame, 96 ticks after the pair for point i + g is due (R168). -/
def State.phaseSample (s : State) (n b : Nat) : State :=
  match (s.phxOf n).frameOf b with
  | none => s
  | some f =>
    let i := f.next
    if s.dev < f.stamp + 48 + 8 * f.gdly + 8 * (i + f.g) + 96 then s
    else
      let r := (s.noteOut n f).formSample n f i
      let f1 := { r.2.1 with next := i + 1, row := r.2.2 :: r.2.1.row, x := r.2.1.x.filter (fun e => i ≤ e.1), y := r.2.1.y.filter (fun e => i ≤ e.1) }
      if (i + 1) % 32 = 0 then (r.1.rowDone n f1).onPhx n (fun l => l.putFrame { f1 with row := [] })
      else r.1.onPhx n (fun l => l.putFrame f1)

/-- PHASE_SAMPLE (R172). -/
def execPhaseSample (t : Nat) (n b : Nat) (s : State) : Out :=
  clocked t s (fun s => s.only (n < s.lanes && b < 4) (fun s => s.phaseSample n b))

/-- An output placed at point `i` of the frame with a stamp (R27, R168). -/
def State.placeSample (s : State) (c stamp i : Nat) (x : Sample) : State :=
  let n := c / 2
  s.onPhx n (fun l => { l with frames := l.frames.map (fun f =>
    if f.stamp = stamp && f.next ≤ i + f.g && i < f.limit then
      (if c % 2 = 0 then { f with x := f.x ++ [(i, x)] } else { f with y := f.y ++ [(i, x)] }) else f) })

/-- A capture of path `b` of channel `c` takes the output that has just emerged, from 48 ticks after its action time on (R264). -/
def State.captureOutput (s : State) (c b : Nat) : State :=
  let w := s.wck.getD (c / 2) Wick.reset
  match w.capture with
  | some k =>
    if k.src = 2 + 4 * (c % 2) + b && k.action + 48 ≤ s.dev && k.words.length < 512 * k.len then
      { s with wck := s.wck.setIfInBounds (c / 2) { w with capture := some { k with words := (s.path c b).word :: k.words } } }
    else s
  | none => s

/-- DDC_OUTPUT: path `b` of channel `c` delivers the output that emerges now, one every eight ticks, from the channel's samples of the eight ticks before it, which its
four paths share. `k0`, `k1` and `k2` hold the codes that slices 0, 1 and 2 convert at those ticks, oldest first; what the samples are taken under is the channel's own
(R98, R116, R119, R143, R151, R158). -/
def execDdcOutput (t : Nat) (c b : Nat) (k0 k1 k2 : List Int) (s : State) : Out :=
  ticking t s (fun s => s.only (c < s.channels && b < 4 && (s.path c b).run && s.dev = (s.path c b).out) (fun s =>
    let xs := s.eightFor c s.dev [k0, k1, k2]
    let s0 := (s.onHsc c (fun h => { h with eight := some (s.dev, xs) })).onPath c b (fun p => { p with out := s.dev + 8 })
    let r := s0.pathOutput c b s.dev xs
    let s1 := r.1.captureOutput c b
    match r.2 with
    | some (x, f, k) => s1.placeSample c f.stamp k x
    | none => s1))

/-! ### Blocks (R176, R177, R183 to R189) -/

/-- A point's block mean θ̄ against a baseline, in kelvin (R183). -/
def Pt.theta (p : Pt) (base : Rat) : Rat := if p.cnt = 0 then 0 else (p.sumPK - base * p.sumK) / p.cnt

/-- The baseline that makes θ̄ zero for this block (R186). -/
def Pt.zeroBase (p : Pt) : Rat := if p.sumK = 0 then 0 else p.sumPK / p.sumK

/-- What a close decides for the whole lane: anchored, rebase, the drift δ, whether a kept anchor or drift was used, and whether every coil point lies beyond the
samples (R183 to R186). ANCH_STALE stays clear on a lane that is still relative (DESIGN CHOICE 37). An anchored lane whose coil count has become 0 keeps its drift and counts as stale: R185 gives no coil mean there (DESIGN CHOICE 37). -/
def State.closeMode (s : State) (n : Nat) : Bool × Bool × Rat × Bool × Bool :=
  let l := s.phxOf n
  let conf := s.flag Fld.PHX_Ln_REFCH_EN n && decide (s.fld Fld.PHX_Ln_COIL_COUNT n ≠ 0)
  let anchored := l.anchored
  let rebase := l.fresh || l.rebaseNext
  let cnt := s.fld Fld.PHX_Ln_COIL_COUNT n
  let from_ := s.fld Fld.PHX_Ln_COIL_FIRST n
  let coil := (List.range cnt).map (fun k => l.pt (from_ + k))
  let with_ := coil.filter (fun p => 0 < p.cnt)
  let few := decide (2 * with_.length < cnt) || decide (cnt = 0)
  let mean : Rat := if with_.isEmpty then 0 else (with_.map (fun p => p.theta (p.base.getD p.zeroBase))).sum / with_.length
  let rtd : Rat := ((l.tRtd.getD 0 - l.tRtdBase : Int) : Rat) / 1024
  let drift := if !anchored then 0 else if few then l.drift else if rebase then 0 else mean - rtd
  let allOut := decide (cnt ≠ 0) && decide (s.lenN n ≤ from_ + s.laneFld n Fld.PHX_GAUGE_G)
  (anchored, rebase, drift, anchored && (l.kept || few), (conf || anchored) && allOut)

/-- One point at a close: its state for the next block and its temperature in kelvin, none without a sample (R183, R186, R187). A point without a sample in a
rebasing block has its baselines cleared and takes them at its next close with one; R186 does not say (DESIGN CHOICE 37). -/
def closePoint (p : Pt) (anchored rebase : Bool) (rtd drift : Rat) : Pt × Option Rat :=
  let clear (q : Pt) : Pt := { q with sumPK := q.laterPK, sumK := q.laterK, cnt := q.laterCnt, laterPK := 0, laterK := 0, laterCnt := 0 }
  if p.cnt = 0 then (clear (if rebase then { p with base := none, tbase := none } else p), none)
  else if !anchored then
    let b := if rebase then p.zeroBase else p.base.getD p.zeroBase
    (clear { p with base := some b }, some (p.theta b))
  else if rebase || p.base.isNone then
    let t := p.lastT.getD rtd
    let out := if rebase then t else t - drift
    (clear { p with base := some p.zeroBase, tbase := some t, lastT := some out }, some out)
  else
    let t := p.tbase.getD rtd + p.theta (p.base.getD 0) - drift
    (clear { p with lastT := some t }, some t)

/-- A temperature word (R183). -/
def tempWord (t : Option Rat) : Nat :=
  match t with
  | some x => wrapInt 32 (satInt 32 (roundEven (1024 * x)))
  | none => 0x80000000

/-- The block record of R189. -/
def State.blockRecord (s : State) (n no stamped : Nat) (first partial_ reissue : Bool) (t0 : Nat) (drift : Rat) (stale : Bool) (temps : List Nat) :
    List Byte :=
  let l := s.phxOf n
  let flags := b2n first + 2 * b2n (s.flag Fld.PHX_Ln_STAT_RELATIVE n) + 4 * b2n stale + 8 * b2n partial_ + 16 * b2n l.acc.rebase
    + 32 * b2n (s.flag Fld.PHX_Ln_BREAK_NONE n) + 64 * b2n (s.flag Fld.PHX_Ln_STAT_BREAK n) + 128 * b2n (s.flag Fld.PHX_Ln_STAT_IDLE n)
  let k := s.lsbPerK n * (2 * piQ) / 8192
  let head := leBytes 4 no ++ leBytes 1 n ++ leBytes 1 flags ++ leBytes 1 (s.laneFld n Fld.PHX_GAUGE_G) ++ leBytes 1 (s.lenP n)
    ++ leBytes 2 (s.lenB n) ++ leBytes 2 (s.lenN n) ++ leBytes 2 stamped ++ leBytes 1 l.acc.exMask ++ leBytes 1 (b2n reissue)
    ++ leBytes 8 t0 ++ leBytes 8 s.dev ++ leBytes 2 (s.fld Fld.PHX_Ln_BREAK_END n) ++ leBytes 2 0 ++ leBytes 4 (wrapInt 32 (l.tRtd.getD 0))
    ++ leBytes 4 (wrapInt 32 (roundEven (1024 * drift))) ++ leBytes 4 (wrapInt 32 (s.openRound (65536 * k))) ++ leBytes 4 l.acc.formed ++ leBytes 8 0
  let pts := temps.flatMap (fun w => leBytes 4 w)
  head ++ leBytes 4 (crc32c (head ++ pts)) ++ pts

/-- The address of lane `n`'s record of block number `no` (R189). -/
def State.blockRecAddr (s : State) (n no : Nat) : Nat :=
  s.laneFld n Fld.PHX_TEMPBASE_BASE * 2 ^ 20 + ((no % 2) * s.lanes + n) * 0x40000

/-- INVALID rows for what a closing block has not had written: stamp-less slots, and the rest of frames still being formed; every slot of a
reissued block; the groups of 32 slots that this completes raise ROW (R176, R177, R214, R423). -/
def State.fillRows (s : State) (n j : Nat) (all : Bool) : State :=
  let l := s.phxOf n
  let p := s.lenP n
  let b := s.lenB n
  let no := s.blockNo n j
  let mine (k : Nat) : Bool := p + j * b ≤ k && k < p + (j + 1) * b
  if !all && !(l.stamped.any mine) then s
  else
    let s0 := s.beginBlock n no
    let one (s : State) (k : Nat) : State :=
      let slot := p + j * b + k
      if l.rows.contains slot then s
      else
        let from_ := match l.frames.find? (fun f => f.slot = slot) with
          | some f => f.next / 32
          | none => 0
        (List.range (s.lenN n / 32 - from_)).foldl (fun s g => s.writeRow n no k (from_ + g) invalidRow) s
    let before := (s0.slotsDone n).2
    let s1 := ((List.range b).foldl one s0).onPhx n (fun l =>
      { l with rows := l.rows ++ ((List.range b).map (p + j * b + ·)).filter (fun k => !l.rows.contains k) })
    let s2 := s1.setPos n
    if before < (s2.slotsDone n).2 then s2.rowEvent n else s2

/-! ### Checkpoints (R222, R421) -/

/-- The PHX share of lane `n`'s checkpoint of block `no`. -/
def State.phxShareAddr (s : State) (n no : Nat) : Nat := s.mib Fld.TWN_PXBASE_BASE + ((no % 2) * s.lanes + n) * 0x300000

/-- The engines with CKEN bound to lane `n` (R222). -/
def State.ckptEngines (s : State) (n : Nat) : List Nat := (s.boundTo n).filter (fun e => (s.engine e).cken)

/-- The engine share of lane `n`'s checkpoint of block `no`, by the base that its first engine works from (R222). -/
def State.engShareAddr (s : State) (n no : Nat) : Nat :=
  let base := match s.ckptEngines n with
    | e :: _ => bitsOf 19 0 (s.live (engKey e Fld.ANV_CKBASE_BASE.addr))
    | [] => s.fld Fld.ANV_CKBASE_BASE 0
  base * 2 ^ 20 + ((no % 2) * s.lanes + n) * 0x600000

/-- A point's state in 64 bytes, in a layout of the model's own: phi and its previous value in s48, the offsets in s24, the flags, the fills, the
baselines and last temperature with sixteen fraction bits, and free bytes for the polarisation averages (DESIGN CHOICE 37) (R172, R177, R421). -/
def ckptBytes (p : Pt) (avg : List Byte) : List Byte :=
  let fx (n : Nat) (x : Option Rat) : List Byte := leBytes n (wrapInt (8 * n) (roundEven (65536 * x.getD 0)))
  let flags := b2n p.ref0 + p.refb % 16 / 2 * 2 + ((List.range 4).map (fun b => 2 ^ (4 + b) * b2n (p.pol.getD b Pol.reset).seeded)).sum
  let more := ((List.range 4).map (fun b => 2 ^ b * b2n (p.pol.getD b Pol.reset).refY)).sum + 16 * b2n p.base.isSome + 32 * b2n p.tbase.isSome + 64 * b2n p.lastT.isSome
  leBytes 6 (wrapInt 48 p.phi) ++ leBytes 6 (wrapInt 48 p.prev) ++ leBytes 3 (wrapInt 24 (p.off.getD 1 0)) ++ leBytes 3 (wrapInt 24 (p.off.getD 2 0))
    ++ leBytes 3 (wrapInt 24 (p.off.getD 3 0)) ++ leBytes 1 flags ++ leBytes 1 more ++ leBytes 1 p.fills ++ fx 8 p.base ++ fx 4 p.tbase ++ fx 4 p.lastT ++ avg

/-- What stands of the lane in the place of its last point, which forms no sample: the slot grid, the place of the next block in it, and the anchor (DESIGN CHOICE 37)
(R54, R421, R422). -/
def PhxLane.ckptHead (l : PhxLane) : List Byte :=
  leBytes 8 (l.grid.getD 0) ++ leBytes 4 l.block ++ leBytes 1 (b2n l.tRtd.isSome) ++ leBytes 1 (b2n l.fresh) ++ leBytes 2 (b2n l.anchored)
    ++ leBytes 4 (wrapInt 32 (l.tRtd.getD 0)) ++ leBytes 4 (wrapInt 32 l.tRtdBase) ++ leBytes 8 (wrapInt 64 (roundEven (65536 * l.drift))) ++ List.replicate 32 0

/-- PHX writes each point's 64-byte state to the checkpoint region, while the twin is enabled (R421). -/
def State.ckptShare (s : State) (n no : Nat) : State :=
  if !s.flag Fld.TWN_CTRL_EN 0 then s
  else
    let l := s.phxOf n
    let avg (i : Nat) : List Byte := (List.range 24).map (fun k => BitVec.ofNat 8 (Config.freeValue (s.free + 24 * i + k)))
    { s with free := s.free + 24 * s.lenN n }.portWrite 8 false (s.phxShareAddr n no)
      ((List.range (s.lenN n - 1)).flatMap (fun i => ckptBytes (l.pt i) (avg i)) ++ l.ckptHead)

/-- A share of lane `n`'s checkpoint of block `no` leaves on the link, unless its memory cannot be read: lane, block, share, offset and data. Its reads wait until MEM is READY
(R320, R324, R418, R421). -/
def State.sendShare (s : State) (n no : Nat) (eng : Bool) (a len : Nat) : State :=
  if !s.flag Fld.MEM_STAT_READY 0 then { s with twn := { s.twn with heldShares := s.twn.heldShares ++ [(n, no, eng, a, len)] } }
  else
  let r := s.dramRead 8 a len
  if r.2 then r.1
  else (segments 4086 len 0 (r.1.readBytes a len)).foldl (fun s x =>
    s.belSend 5 (leBytes 1 n ++ leBytes 1 (b2n eng) ++ leBytes 4 no ++ leBytes 4 x.1 ++ x.2)) r.1

/-- The shares whose reads waited leave, now that MEM is READY (R320). -/
def State.sendHeld (s : State) : State :=
  s.twn.heldShares.foldl (fun s x => s.sendShare x.1 x.2.1 x.2.2.1 x.2.2.2.1 x.2.2.2.2) { s with twn := { s.twn with heldShares := [] } }

/-- TWN_STAT.CKSTALE follows the lanes with a stale or overdue checkpoint (R421). -/
def State.setStale (s : State) (l : List (Nat × Nat)) : State :=
  { s with twn := { s.twn with stale := l } }.setFlag Fld.TWN_STAT_CKSTALE 0 (!l.isEmpty)

/-- Engine shares that their engines have completed leave: every engine with CKEN bound to the lane shows the block or a later one (R222, R421). -/
def State.shareReady (s : State) (n : Nat) : State :=
  match s.twn.shareWait.find? (fun w => w.1 = n) with
  | some (_, no) =>
    let ok := (s.ckptEngines n).all (fun e => (s.engine e).ckblk ≠ 0xFFFFFFFF && decide (no ≤ (s.engine e).ckblk.toNat))
    if ok && s.role = 1 && s.sys.hearth then
      { s with twn := { s.twn with shareWait := s.twn.shareWait.filter (fun w => w.1 ≠ n) } }.sendShare n no true (s.engShareAddr n no) (128 * s.lenN n)
    else s
  | none => s

/-- CHECKPOINT_SEND: block `no` of lane `n` has closed on the holder. The PHX share leaves at once; the engine share when its engines are done, or the earlier one in
its place a block later, marked stale; an overdue checkpoint is marked too. While Hearth restarts the checkpoint is skipped (R36, R222, R421). -/
def State.ckptSend (s : State) (n no : Nat) : State :=
  if s.role ≠ 1 || !s.sys.hearth then s
  else
    let s1 := s.sendShare n no false (s.phxShareAddr n no) (64 * s.lenN n)
    let s2 := match s1.twn.shareWait.find? (fun w => w.1 = n) with
      | some (_, b) =>
        ({ s1 with twn := { s1.twn with shareWait := s1.twn.shareWait.filter (fun w => w.1 ≠ n) } }.sendShare n b true (s1.engShareAddr n (b + 1))
          (128 * s1.lenN n)).setStale ((n, b) :: s1.twn.stale)
      | none => s1
    let s3 := if (s2.ckptEngines n).isEmpty then s2
      else { s2 with twn := { s2.twn with shareWait := s2.twn.shareWait ++ [(n, no)] } }.shareReady n
    let ck := s3.fld Fld.TWN_Ln_CKBLK_BLK n
    if ck ≠ 0xFFFFFFFF && decide (ck + 2 ≤ no) then s3.setStale ((n, no) :: s3.twn.stale) else s3

/-- Block `j` of lane `n` closes: rows, temperatures, record, position, events and checkpoint; a reissued block carries no data (R176 to R189, R223, R421,
R423). -/
def State.closeBlock (s : State) (n j : Nat) (early reissue : Bool) : State :=
  let l := s.phxOf n
  let p := s.lenP n
  let b := s.lenB n
  let no := s.blockNo n j
  let mine (k : Nat) : Bool := p + j * b ≤ k && k < p + (j + 1) * b
  let stamped := (l.stamped.filter mine).length
  let s1 := s.fillRows n j reissue
  let m := s1.closeMode n
  let rtd : Rat := ((s1.phxOf n).tRtd.getD 0 : Rat) / 1024
  let lim := s.lenN n - s.laneFld n Fld.PHX_GAUGE_G
  let res := (List.range (s.lenN n)).map (fun i => (i, closePoint (l.pt i) m.1 m.2.1 rtd m.2.2.1))
  let temps := res.map (fun e => if lim ≤ e.1 then 0x80000000 else tempWord e.2.2)
  let s2 := s1.setFlag Fld.PHX_Ln_STAT_ANCH_STALE n m.2.2.2.1
  let s3 := (s2.setFld Fld.PHX_Ln_DRIFT_D n (wrapInt 32 (roundEven (1024 * m.2.2.1))))
  let t0 := (l.grid.getD 0) + s.interval n * (p + j * b)
  let rec_ := s3.blockRecord n no stamped (j = 0) (early || decide (stamped < b)) reissue t0 m.2.2.1 m.2.2.2.1 temps
  let s4 := (s3.portWrite 10 false (s3.blockRecAddr n no) rec_).drawn
  let s5 := s4.onPhx n (fun l =>
    { l with
      block := l.block + 1
      stamped := l.stamped.filter (fun k => !mine k)
      rows := l.rows.filter (fun k => !mine k)
      frames := l.frames.filter (fun f => !mine f.slot)
      pts := res.foldl (fun acc e => sput Pt.reset acc e.1 e.2.1) l.pts
      acc := l.later
      later := ⟨false, 0, 0⟩
      rebaseNext := l.acc.rebase
      fresh := false
      tRtdBase := if m.2.1 then l.tRtd.getD 0 else l.tRtdBase
      drift := m.2.2.1
      coilOut := m.2.2.2.2 })
  let s6 := if m.2.2.2.2 && !l.coilOut then s5.faultAt 5 n (0x4010 + 0x200 * n) 0 1 else s5
  let s7 := (s6.count Fld.PHX_BLK_CNT n 1).setPos n
  let s8 := (s7.setFlag Fld.PHX_Ln_STAT_STARTING n false).setLaneBit Fld.PHX_STAT_STARTING n false
  ((s8.engBlockClose n).posAll.ckptShare n no).ckptSend n no

/-- A restart as at first use: every block begun and not closed closes at once in block order, and the grid ends (R177). -/
def State.phxRestart (s : State) (n : Nat) : State :=
  let l := s.phxOf n
  match l.grid with
  | none => s
  | some g =>
    let slot := (s.dev - g) / s.interval n
    let upto := if s.lenP n ≤ slot then (slot - s.lenP n) / s.lenB n + 1 else 0
    let s1 := (List.range (upto - l.block)).foldl (fun s _ => s.closeBlock n (s.phxOf n).block true false) s
    let s2 := s1.onPhx n (fun l => { PhxLane.reset with clearGen := l.clearGen, begun := l.begun, asked := l.asked, evalN := l.evalN, below := l.below, above := l.above })
    let s3 := (((s2.setFlag Fld.PHX_Ln_STAT_IDLE n true).setFlag Fld.PHX_Ln_STAT_STARTING n false).setLaneBit Fld.PHX_STAT_STARTING n false).setFlag
      Fld.PHX_Ln_STAT_SLOTCOLL n false
    (((s3.setFlag Fld.PHX_Ln_STAT_RELATIVE n true).setFlag Fld.PHX_Ln_STAT_ANCH_STALE n false).setLaneBit Fld.PHX_STAT_ANCHORED n false).setPos n

/-- The open block's close time has come (R176). -/
def State.closeDue (s : State) (n : Nat) : Bool :=
  let l := s.phxOf n
  match l.grid with
  | some g => decide (g + s.interval n * (s.lenP n + (l.block + 1) * s.lenB n - 1) + s.interval n + 8 * s.lenN n + 4096 ≤ s.dev)
  | none => false

/-! ### Stamps (R175, R177, R184) -/

/-- Every reference of the lane's points is cleared, once for a change of gauge or NCO, and the block of the launch's slot takes a rebasing change; the first
frames lie in no block (R177). They clear at the launch's stamp, so that a point of an earlier launch of probe 0 that is formed later takes its reference from the phase
under the old gauge (DESIGN CHOICE 37). A slot of a block already closed marks the open one (DEDUCED 56). -/
def State.clearRefs (s : State) (n stamp : Nat) : State :=
  let slot := (stamp - (s.phxOf n).grid.getD stamp) / s.interval n
  s.onPhx n (fun l => { l.onAcc (s.laterSlot n slot) (fun a => { a with rebase := a.rebase || decide (s.lenP n ≤ slot) }) with
    pts := l.pts.map (fun e => (e.1, { e.2 with ref0 := false, refb := 0 }))
    clearRefs := false })

/-- Block number `no` of the lane has its first slot: whether an anchor is asked for, decided once for each block. Every 2^ANDIV-th block is one whose number is
divisible by 2^ANDIV; R184 gives no phase (DESIGN CHOICE 37). -/
def State.askAnchor (s : State) (n no : Nat) : State × Bool :=
  if (match (s.phxOf n).asked with
    | some k => decide (no ≤ k)
    | none => false) then (s, false)
  else (s.onPhx n (fun l => { l with asked := some no }),
    decide (no % 2 ^ s.laneFld n Fld.PHX_CTRL_ANDIV = 0) && s.flag Fld.PHX_Ln_REFCH_EN n && decide (s.fld Fld.PHX_Ln_COIL_COUNT n ≠ 0))

/-- A stamp of lane `n`, probe `b`: its slot is taken, or it is discarded as a collision; true when an anchor is asked for (R111, R175, R184). -/
def State.phxStamp (s : State) (n b stamp : Nat) : State × Bool :=
  let l0 := s.phxOf n
  let silent := match l0.lastStamp with
    | some a => decide (a + 6250000 ≤ stamp)
    | none => false
  let s1 := if l0.grid.isSome && silent then s.phxRestart n else s
  let s2 := if (s1.phxOf n).grid.isSome then s1
    else ((s1.onPhx n (fun l => { l with grid := some stamp })).setFlag Fld.PHX_Ln_STAT_STARTING n true).setLaneBit Fld.PHX_STAT_STARTING n true
  let s3 := (s2.setFlag Fld.PHX_Ln_STAT_IDLE n false).only (s2.phxOf n).clearRefs (fun s => s.clearRefs n stamp)
  let l := s3.phxOf n
  let p := s3.lenP n
  let blk := s3.lenB n
  let slot := (stamp - l.grid.getD stamp) / s3.interval n
  let closed := decide (p ≤ slot) && decide ((slot - p) / blk < l.block)
  let cut (f : PhxFrame) : PhxFrame := if f.probe = b then { f with limit := min f.limit ((stamp - f.stamp) / 8) } else f
  if l.stamped.contains slot || closed then
    ((s3.onPhx n (fun l => { l with lastStamp := some stamp, frames := l.frames.map cut })).setFlag Fld.PHX_Ln_STAT_SLOTCOLL n true, false)
  else
    let exX := s3.flag Fld.ORX_Cn_STAT_CMFLT (2 * n)
    let exY := s3.flag Fld.ORX_Cn_STAT_CMFLT (2 * n + 1)
    let f : PhxFrame := ⟨stamp, b, slot, s3.lenN n, p, s3.laneFld n Fld.PHX_GAUGE_G, s3.lsbPerK n, wholeDelay (s3.fld (gdlyFld b) (2 * n)), s3.lenN n,
      exX, exY, !(s3.path (2 * n) b).run, !(s3.path (2 * n + 1) b).run, [], [], [], 0, 0, []⟩
    let outX := exX || s3.chanOut (2 * n) b f
    let outY := exY || s3.chanOut (2 * n + 1) b f
    let acc (l : PhxLane) : PhxLane := l.onAcc (s3.laterSlot n slot) (fun a =>
      { a with exMask := if slot < p then a.exMask else a.exMask ||| (b2n outX + 2 * b2n outY) })
    let s4 := s3.onPhx n (fun l =>
      { acc l with
        lastStamp := some stamp
        stamped := l.stamped ++ [slot]
        frames := l.frames.map cut ++ (if slot < p then [] else [f])
        evalN := if b = 0 then l.evalN + 1 else l.evalN })
    let s5 := (s4.setFlag Fld.PHX_Ln_STAT_XEXCL n outX).setFlag Fld.PHX_Ln_STAT_YEXCL n outY
    if p ≤ slot then s5.askAnchor n (s5.blockNo n ((slot - p) / blk)) else (s5, false)

/-- LANE_IDLE: the last stamp is older than 8N ticks (R178). -/
def execLaneIdle (t : Nat) (n : Nat) (s : State) : Out :=
  clocked t s (fun s => s.only (n < s.lanes && (match (s.phxOf n).lastStamp with
    | some a => decide (a + 8 * s.lenN n < s.dev)
    | none => true)) (fun s => s.setFlag Fld.PHX_Ln_STAT_IDLE n true))

/-- POINT_STATE_ECC: a double-bit error clears the point's state (R178). -/
def execPointStateEcc (t : Nat) (n i : Nat) (s : State) : Out :=
  clocked t s (fun s => s.only (n < s.lanes && i < s.lenN n) (fun s =>
    s.pointLost n i))

/-! ### Path boundaries (R159, R160) -/

/-- The boundary of the oldest due launch of lane `n`: the probe's paths record PHREF and take their changes, which a geometry change under way holds back; that of its
first launch brings them to every path of the lane, which restarted at the stamp (R58, R60, R146, R159, R163). -/
def State.pathBoundary (s : State) (n : Nat) : State :=
  match s.ddc.due.find? (fun d => d.lane = n) with
  | none => s
  | some d =>
    if s.dev < d.stamp + 48 then s
    else
      let b := d.probe
      let at_ := d.stamp + 48
      let s0 := { s with ddc := { s.ddc with due := s.ddc.due.filter (fun e => e ≠ d) } }
      let hold := (s0.laneOf n).geo.isSome
      let nco := !hold && !d.all_ && s0.ddc.wait.contains (4 * n + b) && decide (s0.ddc.commitGen ≤ d.gen)
        && [2 * n, 2 * n + 1].any (fun c => s0.pfld (ncoFld b) c ≠ s0.fld (ncoFld b) c)
      let r0 := s0.fld Fld.DDC_RESTART_CNT 0
      let s1 := if hold then s0 else (s0.each (if d.all_ then [0, 1, 2, 3] else [b]) (fun b s => s.probeTake n b at_ d.gen false)).ddcSettled.took 4 64
      let s2 := if d.all_ || r0 = s1.fld Fld.DDC_RESTART_CNT 0 then s1 else s1.phxRestart n
      let s3 := if nco && decide ((s2.phxOf n).clearGen < s2.ddc.commitGen) then
          (s2.clearRefs n d.stamp).onPhx n (fun l => { l with clearGen := s2.ddc.commitGen }) else s2
      let one (s : State) (c : Nat) : State :=
        if (s.path c b).run then
          let ph := s.ncoAt c b at_
          let g := wholeDelay (pathDelay (s.path c b))
          (s.setFld (phrefFld b) c ph).onPath c b (fun p => { p with cur := some ⟨d.stamp, g, (d.blank + 7) / 8, ph, s.lenN n⟩, prev := p.live at_ })
        else s
      let s4 := one (one s3 (2 * n)) (2 * n + 1)
      s4.onPhx n (fun l => { l with frames := l.frames.map (fun f =>
        if f.stamp = d.stamp then
          { f with gdly := wholeDelay (pathDelay (s4.path (2 * n) b)), stX := !(s4.path (2 * n) b).run, stY := !(s4.path (2 * n + 1) b).run } else f) })
        |>.each (((s4.phxOf n).frames.filter (fun f => f.stamp = d.stamp)).map (·.slot)) (fun k s =>
          match (s.phxOf n).frames.find? (fun f => f.slot = k) with
          | some f => s.noteOut n f
          | none => s)

/-- PATH_BOUNDARY (R159). -/
def execPathBoundary (t : Nat) (n : Nat) (s : State) : Out :=
  ticking t s (fun s => s.only (n < s.lanes) (fun s => s.pathBoundary n))

/-- HSC_CAL_DONE: the calibration completes, and every sub-band path restarts as at first use (R123, R125, R160, R177). -/
def execHscCalDone (t : Nat) (ttrim : Nat) (slices : List (Int × Int × Int)) (s : State) : Out :=
  ticking t s (fun s =>
    let s1 := s.calDone ttrim slices
    if s.flag Fld.HSC_STAT_CALBUSY 0 && !s1.flag Fld.HSC_STAT_CALBUSY 0 then
      s1.allRestart.each (List.range s.lanes) (fun n s => s.phxRestart n)
    else s1)

/-! ### Trace end and breaks (R181, R182) -/

/-- A break declared or cleared (R182). -/
def State.setBreak (s : State) (n : Nat) (on : Bool) : State :=
  let s1 := ((s.setFlag Fld.PHX_Ln_STAT_BREAK n on).setFlag Fld.PHX_Ln_BREAK_BRK n on).setLaneBit Fld.PHX_STAT_BREAK n on
  s1.faultAt 5 n (0x4004 + 0x200 * n) (s1.reported (s1.fld Fld.PHX_Ln_BREAK_END n) + 2 ^ 32 * s1.fld Fld.PHX_Ln_BRKDIST_DIST n) (if on then 1 else 2)

/-- PHX_Ln_BRKDIST shows END × Δz by the current PHX_GIDX in 0.01 m (R15, R181). -/
def State.showDist (s : State) (n : Nat) : State :=
  (s.setFld Fld.PHX_Ln_BRKDIST_DIST n (s.openRound (s.fld Fld.PHX_Ln_BREAK_END n * s.deltaZ n * 100)).toNat).drawn

/-- The trace end of lane `n` from the averages of its points (R181), then the break conditions (R182). The end is searched among the points that can form a
sample, i below N - g; R181 names no bound (DESIGN CHOICE 37). -/
def State.traceEval (s : State) (n : Nat) : State :=
  let l := s.phxOf n
  let g := s.laneFld n Fld.PHX_GAUGE_G
  let len := s.lenN n
  let th := s.laneFld n Fld.PHX_FADE_TH_TH
  let avg (i : Nat) : Rat := let p := l.pt i; if p.magN = 0 then 0 else (p.mag : Rat) / p.magN / 65536
  let mean8 (i : Nat) : Rat := ((List.range 8).map (fun k => avg (i - k))).sum / 8
  let ok (i : Nat) : Bool := decide (2 * (th : Rat) ≤ mean8 i)
  let last := len - g - 1
  let found := ((List.range (len - g)).filter (fun i => 7 ≤ i && ok i)).getLast?
  let atEnd := decide (7 ≤ last) && ok last
  let end_ := if atEnd then len - 1 else found.getD 0
  let dark := found.isNone
  let tail := (List.range (len - g)).filter (fun i => end_ + 9 ≤ i)
  let floor_ : Rat := if dark || tail.length < 8 then 0 else (tail.map avg).sum / tail.length
  let s1 := ((((s.setFld Fld.PHX_Ln_BREAK_END n (if dark then 0 else end_)).setFlag Fld.PHX_Ln_BREAK_VALID n (!dark)).setFlag Fld.PHX_Ln_BREAK_NONE n
    (atEnd && !dark)).setFlag Fld.PHX_Ln_BREAK_DARK n dark).setFlag Fld.PHX_Ln_STAT_NOEND n (atEnd && !dark)
  let s1 := s1.showDist n
  let s2 := (s1.setFld Fld.PHX_Ln_FLOOR_FLOOR n (s1.openRound floor_).toNat).drawn
  let reset (l : PhxLane) : PhxLane := { l with evalN := l.evalN - 256, pts := l.pts.map (fun e => (e.1, { e.2 with mag := 0, magN := 0 })) }
  let s3 := s2.onPhx n reset
  if !s.flag Fld.PHX_Ln_ENDREF_EN n then s3
  else
    let bad := dark || decide ((if dark then 0 else end_) + 16 < s.fld Fld.PHX_Ln_ENDREF_END n)
    let s4 := s3.onPhx n (fun l => { l with below := if bad then l.below + 1 else 0, above := if bad then 0 else l.above + 1 })
    let brk := s.flag Fld.PHX_Ln_STAT_BREAK n
    if bad && !brk && decide (2 ≤ (s4.phxOf n).below) then s4.setBreak n true
    else if !bad && brk && decide (2 ≤ (s4.phxOf n).above) then s4.setBreak n false
    else s4

/-- TRACE_END_EVAL: after 256 launches of probe 0, while the lane is EMITTING (R181). -/
def execTraceEndEval (t : Nat) (n : Nat) (s : State) : Out :=
  clocked t s (fun s => s.only (n < s.lanes && 256 ≤ (s.phxOf n).evalN && (s.laneOf n).st = .emitting) (fun s => s.traceEval n))

/-- An evaluation period in which a Quench stopped the lane is discarded (R181). -/
def State.evalDiscard (s : State) (n : Nat) : State :=
  s.onPhx n (fun l => { l with evalN := 0, pts := l.pts.map (fun e => (e.1, { e.2 with mag := 0, magN := 0 })) })

/-- Break detection ends: a declared break clears with its report and the counts restart (R182). -/
def State.breakOff (s : State) (n : Nat) : State :=
  let s1 := s.onPhx n (fun l => { l with below := 0, above := 0 })
  if s.flag Fld.PHX_Ln_STAT_BREAK n then s1.setBreak n false else s1

/-! ### Anchors (R184, R185) -/

/-- The resistance ratio at a temperature of k / 1,024 °C (R184). -/
def rtdRatio (k : Int) : Rat :=
  let t : Rat := (k : Rat) / 1024
  let a : Rat := 39083 / 10000000
  let b : Rat := -5775 / 10000000000
  let c : Rat := -4183 / 1000000000000000
  if 0 ≤ t then 1 + a * t + b * t * t else 1 + a * t + b * t * t + c * (t - 100) * t * t * t

/-- The largest k from -204,800 (-200 °C) on, at most 2^n above it, whose ratio does not exceed `r`, by halving. -/
def rtdSearch (r : Rat) : Nat → Int → Int
  | 0, k => k
  | n + 1, k => rtdSearch r n (if rtdRatio (k + 2 ^ n) ≤ r then k + 2 ^ n else k)

/-- An anchor result for lane `n`: the resistance in ohms and the tag; a tagged one keeps the last valid temperature; the first valid
one ends the lane's relative time (R184 to R186). -/
def State.anchorResult (s : State) (n tag : Nat) (ohms : Rat) : State :=
  let bad := [2, 3, 4, 5, 6, 7].any (fun i => bit tag i)
  let first := !(s.phxOf n).anchored
  if bad then s.onPhx n (fun l => { l with kept := true })
  else
    let r := ohms / (if s.flag Fld.PHX_Ln_REFCH_PT n then 1000 else 100)
    let k := rtdSearch r 21 (-204800)
    let v := if rtdRatio k = r then k else k + s.freeVal 2
    ((((s.onPhx n (fun l => { l with tRtd := some v, kept := false, anchored := true, fresh := l.fresh || first })).setFld Fld.PHX_Ln_TANCH_T n
      (wrapInt 32 v)).setFlag Fld.PHX_Ln_STAT_RELATIVE n false).setLaneBit Fld.PHX_STAT_ANCHORED n true).drawn

end Sys2Proof.Machine
end

