-- ==== Sys2Proof/Machine/AnvilFlow.lean ====
section
/-!
DEFINITION. The branches, repeat, wait and special-register instructions of an Anvil engine (spec 09_anvil_instruction_set, R249 to R253;
spec 08_anvil_engines, R198 to R203).
Points that the spec leaves open or that are read from it by inference: DEDUCED 24 of the assumption log.
-/

namespace Sys2Proof.Machine

/-! ### Branches (R249) -/

/-- A branch of format C whose A field names a scalar: to TARGET when the condition holds, else to the next instruction. -/
def branch (fn t e : Nat) (s : State) (cond : Word → Bool) : Out :=
  anv 0x30 (fun n => n = fn) t e s (fun w s =>
    if cond ((s.engine e).sreg (wD w)) then s.jumpTo e (wTarget w) id else s.jumpTo e ((s.engine e).pc + 1) id)

/-- JMP (R249). -/
def execJmp (t e : Nat) (s : State) : Out := anv 0x30 (fun n => n = 0) t e s (fun w s => s.jumpTo e (wTarget w) id)

/-- CALL: s31 takes the address of the next instruction (R249). -/
def execCall (t e : Nat) (s : State) : Out :=
  anv 0x30 (fun n => n = 1) t e s (fun w s => s.jumpTo e (wTarget w) (fun x => x.setS 31 (BitVec.ofNat 32 ((x.pc + 1) % 8192))))

/-- JR: to bits [12:0] of sA (R249). -/
def execJr (t e : Nat) (s : State) : Out :=
  anv 0x30 (fun n => n = 2) t e s (fun w s => s.jumpTo e (((s.engine e).sreg (wD w)).toNat % 8192) id)

/-- BEQZ (R249). -/
def execBeqz (t e : Nat) (s : State) : Out := branch 3 t e s (fun a => a = 0)

/-- BNEZ (R249). -/
def execBnez (t e : Nat) (s : State) : Out := branch 4 t e s (fun a => a ≠ 0)

/-- BLTZ (R249). -/
def execBltz (t e : Nat) (s : State) : Out := branch 5 t e s (fun a => a.toInt < 0)

/-- BGEZ (R249). -/
def execBgez (t e : Nat) (s : State) : Out := branch 6 t e s (fun a => 0 ≤ a.toInt)

/-- DBNZ: sA decremented, then a branch while the new value is not zero (R249). -/
def execDbnz (t e : Nat) (s : State) : Out :=
  anv 0x30 (fun n => n = 7) t e s (fun w s =>
    let v := (s.engine e).sreg (wD w) - 1
    s.jumpTo e (if v ≠ 0 then wTarget w else (s.engine e).pc + 1) (fun x => x.setS (wD w) v))

/-! ### Repeat, wait, no-operation and halt (R249 to R251) -/

/-- A REP of `n` iterations: the next instruction must be one that may be repeated (R202, R250). -/
def State.repeat (s : State) (e n : Nat) : State :=
  let x := s.engine e
  let pc := (x.pc + 1) % 8192
  if repBanned (x.word pc) then s.anvFault e 3
  else (s.onEngine e (fun x => { x with pc := pc, rep := some ⟨n, 0⟩, loop := n })).count Fld.ANV_BUSY_CNT e 1

/-- REP: CNT + 1 iterations (R249, R250). -/
def execRep (t e : Nat) (s : State) : Out := anv 0x31 (fun n => n = 0) t e s (fun w s => s.repeat e (wCnt w + 1))

/-- REP_REG: sA iterations; 0 or more than 65,536 is ILLEGAL (R250). -/
def execRepReg (t e : Nat) (s : State) : Out :=
  anv 0x31 (fun n => n = 1) t e s (fun w s =>
    let n := ((s.engine e).sreg (wD w)).toNat
    if n = 0 || 65536 < n then s.anvFault e 1 else s.repeat e n)

/-- WAIT: a masked event that is pending is reported and cleared; otherwise the engine waits, or halts at once under a halt request (R199, R214, R251). -/
def execWait (t e : Nat) (s : State) : Out :=
  anv 0x32 (fun n => n = 0) t e s (fun w s =>
    (s.onEngine e (fun x =>
      let y := { x with st := .waiting, wait := .event (wImm w) (wD w) }.tryWait
      if y.st = .waiting && y.haltReq then { y with st := .halted, run := false, haltReq := false, stepping := false, wait := .none } else y)).count
      Fld.ANV_BUSY_CNT e 1)

/-- NOP (R249). -/
def execNop (t e : Nat) (s : State) : Out := anvEng 0x33 0 t e s (fun _ x => x)

/-- HALT: HALTED at this boundary, in a REP after the last iteration (R202, R249). -/
def execHalt (t e : Nat) (s : State) : Out :=
  anvEng 0x33 1 t e s (fun _ x =>
    match x.rep with
    | none => { x with haltReq := true }
    | some r => if r.left ≤ 1 then { x with haltReq := true } else x)

/-! ### Special registers (R252) -/

/-- The special register `n` as SRD reads it; LOOPCNT counts the iteration that issues (R202, R252). -/
def State.special (s : State) (e n : Nat) : Word :=
  let x := s.engine e
  match n with
  | 0 => x.bexpWord
  | 1 => x.astat
  | 2 => x.aovWord
  | 3 => BitVec.ofNat 32 x.loop
  | 4 => x.ckblk
  | 5 => BitVec.ofNat 32 s.dev
  | 6 => x.timeHi
  | 7 => x.evt.setWidth 32
  | 8 => x.posWord
  | 9 => BitVec.ofNat 32 (e + 16 * s.fld Fld.ANV_En_BIND_LANE e + 128 * b2n x.bound.isSome)
  | n => if n < 24 then s.live (Fld.ANV_Tt_SPEED_SPEED.at (n - 16)) else s.live (Fld.ANV_Tt_STAT_STALE.at (n - 24))

/-- SRD: reading TIME_LO latches the high half (R252). -/
def execSrd (t e : Nat) (s : State) : Out :=
  anv 0x38 (fun n => n = 0) t e s (fun w s =>
    let v := s.special e (wA w)
    s.finish e (fun x => ({ x with timeHi := if wA w = 5 then BitVec.ofNat 32 (s.dev / 2 ^ 32) else x.timeHi }).setS (wD w) v))

/-- SWR: BEXP, ASTAT or CKBLK; a CKBLK may complete the lane's engine share (R207, R222, R252). -/
def execSwr (t e : Nat) (s : State) : Out :=
  anv 0x38 (fun n => n = 1) t e s (fun w s =>
    let s1 := s.finish e (fun x =>
      let v := x.sreg (wA w)
      match wD w with
      | 0 => { x with bexp := ⟨bitsOf 3 0 v, bitsOf 5 4 v, bitsOf 9 8 v, bitsOf 23 16 v⟩ }
      | 1 => x.clearAstat v
      | _ => { x with ckblk := v })
    match (s1.engine e).bound with
    | some n => s1.shareReady n
    | none => s1)

/-- BXADV: SCALE becomes max(0, NEED − HEAD), EXP grows by it and HEAD becomes 15 (R208, R252). -/
def execBxadv (t e : Nat) (s : State) : Out :=
  anvEng 0x38 2 t e s (fun _ x =>
    let sc := x.bexp.need - x.bexp.head
    { x with bexp := ⟨15, x.bexp.need, sc, min 255 (x.bexp.exp + sc)⟩ })

end Sys2Proof.Machine
end

