-- ==== Sys2Proof/Machine/Launch.lean ====
section
/-!
DEFINITION. The launch side that every lane shares: pending copies at the launch boundary, the launch matrix, geometry changes and the Wick LAUNCH that posts a request
(spec 02_sensing_geometry R49 to R60, 03_lantern_launch R74 to R79 and R84, 10_wick_sequencer R258 and R259, 17_register_model R436 and R437).
Points that the spec leaves open or that are read from it by inference: DEDUCED 19 of the assumption log.
-/

namespace Sys2Proof.Machine

/-! ### Wick sequencers as the matrix sees them -/

/-- The sequencer of lane `n` beside its registers. -/
def State.wick (s : State) (n : Nat) : Wick := s.wck.getD n Wick.reset

/-- A change of lane `n`'s sequencer alone. -/
def State.onWick (s : State) (n : Nat) (f : Wick → Wick) : State := { s with wck := s.wck.setIfInBounds n (f (s.wick n)) }

/-- The states of WCK_Ln_STAT.STATE (R270). -/
def wsStopped : Nat := 0
def wsRunning : Nat := 1
def wsWaiting : Nat := 2
def wsError : Nat := 3

/-- A sequencer's state; WCK_STAT follows (R269, R270). -/
def State.setWick (s : State) (n st : Nat) : State :=
  ((s.setFld Fld.WCK_Ln_STAT_STATE n st).setLaneBit Fld.WCK_STAT_RUNNING n (st = wsRunning || st = wsWaiting)).setLaneBit Fld.WCK_STAT_ERROR n
    (st = wsError)

/-- The sequencer is RUNNING or WAITING. -/
def State.wickOn (s : State) (n : Nat) : Bool :=
  s.fld Fld.WCK_Ln_STAT_STATE n = wsRunning || s.fld Fld.WCK_Ln_STAT_STATE n = wsWaiting

/-! ### Pending copies of the launch-boundary windows (R436, R437) -/

/-- The bits of a register's staged fields. -/
def rwsMask (r : RegDef) : Nat := r.fields.foldl (fun m fd => if fd.acc = .rws then m + (2 ^ (fd.hi + 1) - 2 ^ fd.lo) else m) 0

/-- A word with the bits of a mask taken from another. -/
def mergeBits (m : Nat) (old new : Word) : Word := (old &&& ~~~ BitVec.ofNat 32 m) ||| (new &&& BitVec.ofNat 32 m)

/-- One register of a launch-boundary window as lane `n` takes it: a window-wide one to the lane's own copy, a per-unit one in the lane's units. -/
def State.takeReg (s : State) (win n : Nat) (held : List Nat) (r : RegDef) : State :=
  let m := rwsMask r
  let a := win * 0x10000 + r.off
  if m = 0 || a = Fld.LAN_BLANK_BLANK.addr then s
  else if r.count = 1 then s.takeLive (laneKey n a) (s.pend a)
  else
    s.each (if r.count = 16 then [2 * n, 2 * n + 1] else [n]) (fun u s =>
      let k := a + r.stride * u
      if held.contains k then s else s.takeLive k (mergeBits m (s.live k) (s.pend k)))

/-- Lane `n` takes the newest copy of a window, but for the registers held back (R436, R437). -/
def State.takeWindow (s : State) (win n : Nat) (held : List Nat) : State :=
  ((regsOf win).foldl (fun s r => s.takeReg win n held r) s).took win n

/-- The length field of probe `b` (R95). -/
def clenFld (b : Nat) : Fld := { Fld.LAN_Ln_CLEN0_LEN with addr := Fld.LAN_Ln_CLEN0_LEN.addr + 4 * b }

/-- The registers that wait for a chirp table's switch: CLENb of every pending table, and PULSE (R75). -/
def State.tableHeld (s : State) (n : Nat) : List Nat :=
  let m := (s.laneOf n).tblPend
  if m = 0 then [] else Fld.LAN_Ln_PULSE_WIDTH.at n :: ([0, 1, 2, 3].filter (bit m)).map (fun b => (clenFld b).at n)

/-- LAN_STAT.TBLPEND follows the lane's tables (R75). -/
def State.tblStat (s : State) (n : Nat) : State :=
  s.setLaneBit Fld.LAN_STAT_TBLPEND n (decide ((s.laneOf n).tblPend ≠ 0) || !(s.laneOf n).tblCopy.isEmpty)

/-- The staged table of probe `b` becomes active, with the new length and pulse; the copy back takes 256 ticks (R75). -/
def State.tableSwitch (s : State) (n b : Nat) : State :=
  let mine (e : Nat × BitVec 12) : Bool := e.1 / 4096 = b
  let s1 := s.onLane n (fun l =>
    { l with
      chirp := (l.chirp.filter (fun e => !mine e) ++ l.chirpStg.filter mine).insertionSort (fun x y => x.1 ≤ y.1)
      tblPend := setBit l.tblPend b false
      tblCopy := l.tblCopy ++ [(b, s.dev + 256)] })
  let put (s : State) (f : Fld) : State := s.takeLive (f.at n) (s.pend (f.at n))
  (put (put s1 (clenFld b)) Fld.LAN_Ln_PULSE_WIDTH).tblStat n

/-- The applied peak of string B follows the setpoint and the trim (R72). -/
def State.setIapp (s : State) (n : Nat) : State :=
  let x : Rat := min 800 ((s.fld Fld.LAN_Ln_STRB_ISET n : Rat) * (s.laneOf n).trim)
  (s.setFld Fld.LAN_Ln_MON_IAPP n (s.openRound x).toNat).drawn

/-- A lane takes its LAN copy (R84); with the power loop off the trim is 1 (R72). -/
def State.lanTake (s : State) (n : Nat) : State :=
  if s.waits 1 n then
    let s1 := s.takeWindow 1 n (s.tableHeld n)
    (if s1.flag Fld.LAN_Ln_APC_EN n then s1 else s1.onLane n (fun l => { l with trim := 1 })).setIapp n
  else s

/-- A lane takes its ORX copy and the schedule tables; the ranges follow with whatever else falls on the sample (R103, R105, R107, R110). -/
def State.orxLaneTake (s : State) (n : Nat) : State :=
  let s1 := if s.waits 2 n then ((s.takeWindow 2 n []).each [2 * n, 2 * n + 1] (fun c s1 => s1.orxTake c (s.fld Fld.ORX_Cn_RANGE_MODE c))).cmShow n else s
  s1.schedTake n

/-- A lane takes its PHX copy: new tile or record places, or a new block length, restart a lane with a grid; a new gauge clears the references once;
a new group index shows in BRKDIST, which R181 forms with the current one; clearing ENDREF.EN ends break detection (R177, R182). -/
def State.phxTake (s : State) (n : Nat) : State :=
  if s.waits 5 n then
    let differs (f : Fld) : Bool := s.laneFld n f ≠ s.pfld f 0
    let moved := differs Fld.PHX_BLOCK_BLOCK || differs Fld.PHX_TILEBASE_BASE || differs Fld.PHX_TEMPBASE_BASE
    let s0 := if moved then s.phxRestart n else s
    let s1 := s0.takeWindow 5 n []
    let s2 := (if differs Fld.PHX_GAUGE_G then s1.onPhx n (fun l => { l with clearRefs := l.grid.isSome }) else s1).only (differs Fld.PHX_GIDX_GIDX)
      (fun s => s.showDist n)
    if s.flag Fld.PHX_Ln_ENDREF_EN n && !s2.flag Fld.PHX_Ln_ENDREF_EN n then s2.breakOff n else s2
  else s

/-- Every path of a lane takes its DDC changes at device time `at_`; a restarted path restarts the lane (R159, R160, R177). -/
def State.ddcTake (s : State) (n at_ : Nat) (restart : Bool) : State :=
  let r0 := s.fld Fld.DDC_RESTART_CNT 0
  let s1 := ((s.each [0, 1, 2, 3] (fun b s => s.probeTake n b at_ s.ddc.gen restart)).ddcSettled).took 4 64
  if r0 = s1.fld Fld.DDC_RESTART_CNT 0 then s1 else s1.phxRestart n

/-- The pending copies that a launch boundary brings, but for DDC and the chirp tables (R436). -/
def State.boundaryTake (s : State) (n : Nat) : State :=
  let s1 := ((s.lanTake n).orxLaneTake n).phxTake n
  if s1.waits 6 n then s1.takeWindow 6 n [] else s1

/-- A commit names another frame length or probe count than the lane works with (R58). -/
def State.geoDiffers (s : State) (n : Nat) : Bool :=
  s.waits 6 n && (s.pfld Fld.WCK_Ln_FRAME_N n ≠ s.lenN n || s.pfld Fld.WCK_Ln_PROBES_P n ≠ s.lenP n)

/-- Every table committed and not yet switched becomes active (R436). -/
def State.tablesNow (s : State) (n : Nat) : State :=
  s.each ([0, 1, 2, 3].filter (bit (s.laneOf n).tblPend)) (fun b s => s.tableSwitch n b)

/-- The first launch under a new geometry: the lane restarts under the old values, then takes every pending copy together, chirp tables among them; its paths take
theirs at the launch's boundary sample (R58, R60, R159, R177). -/
def State.geoSwitch (s : State) (n : Nat) : State :=
  let s1 := (s.phxRestart n).onLane n (fun l => { l with geo := none })
  (s1.tablesNow n).boundaryTake n

/-! ### Lanes that can have no launch boundary (R436) -/

/-- A launch boundary can come: the lane is EMITTING, and its sequencer runs or a release is fixed (R436). -/
def State.canBoundary (s : State) (n : Nat) : Bool :=
  decide ((s.laneOf n).st = .emitting) && (s.wickOn n || !(s.laneOf n).cells.isEmpty)

/-- A lane that can have no launch boundary takes every pending copy at once; any other waits for its boundary (R107, R159, R268, R436). -/
def State.settleLane (s : State) (n : Nat) : State :=
  if s.canBoundary n then s
  else
    let s1 := if s.geoDiffers n then s.phxRestart n else s
    let geo := s.geoDiffers n
    let s2 := (((s1.onLane n (fun l => { l with geo := none })).tablesNow n).boundaryTake n).only (s.waits 2 n || s.orx.schedWait.contains n)
      (fun s => s.rangesFollow n)
    if geo || s2.ddc.wait.any (fun i => i / 4 = n) || s2.ddc.filt.any (fun i => i / 4 = n) || s2.ddc.cust.any (fun i => i / 4 = n) then s2.ddcTake n s2.dev true else s2

/-- A conversion completes, unit 0 to 7 a lane's spectra and 8 the custom set; a lane that can have no launch boundary takes the filter at once (R159, R162). -/
def State.conversionTake (s : State) (unit : Nat) : State :=
  (s.conversionDone unit).each (List.range s.lanes) (fun n s => s.only (n = unit || unit = 8) (fun s => s.settleLane n))

/-- MF_CONVERSION_DONE (R162). -/
def execMfConversionDone (t : Nat) (unit : Nat) (s : State) : Out := ticking t s (fun s => s.conversionTake unit)

/-! ### The launch matrix (R77 to R79, R259) -/

/-- A request ends suppressed (R79, R259). -/
def State.suppressed (s : State) (n b : Nat) : State :=
  ((s.setFlag Fld.WCK_Ln_LASTDLY_SUPP n true).setFld Fld.WCK_Ln_LASTDLY_PROBE n b).count Fld.WCK_SUPP_CNT n 1

/-- A request's release is fixed with a delay (R78, R259). -/
def State.delayed (s : State) (n b d : Nat) : State :=
  let s1 := ((s.setFlag Fld.WCK_Ln_LASTDLY_SUPP n false).setFld Fld.WCK_Ln_LASTDLY_PROBE n b).setFld Fld.WCK_Ln_LASTDLY_DLY n d
  (s1.count Fld.LAN_DLY_CNT n d).setFld Fld.LAN_DLY_MAX n (max d (s1.fld Fld.LAN_DLY_MAX n))

/-- A field of LAN as it will stand at the launch in cell `c`: the pending copy, unless a geometry change holds every copy back until its first launch, or a chirp
table that no launch up to this one switches holds the field back (R60, R75). -/
def State.lanAt (s : State) (n : Nat) (c : Cell) (f : Fld) : Nat :=
  let l := s.laneOf n
  let upTo := l.cells.filter (fun d => d.rel < c.rel) ++ [c]
  let pends (b : Nat) : Bool := bit l.tblPend b
  let switched (b : Nat) : Bool := upTo.any (fun d => d.probe = b && decide (l.tblGen ≤ d.lanGen))
  let probes := [0, 1, 2, 3].filter pends
  let pulse := decide (f.addr = Fld.LAN_Ln_PULSE_WIDTH.addr)
  let mine := probes.filter (fun b => pulse || decide (f.addr = (clenFld b).addr))
  if let some g := l.geo then (if upTo.any (fun d => d.newGeo = g.num) then s.pfld f n else s.fld f n)
  else if mine.isEmpty then (if s.waits 1 n then s.pfld f n else s.fld f n)
  else if mine.any switched then s.pfld f n else s.fld f n

/-- How long the chirp of the launch in cell `c` keeps the lane's DAC busy, in ticks (R74). -/
def State.dacBusy (s : State) (n : Nat) (c : Cell) : Nat := (s.lanAt n c (clenFld c.probe) + 1) / 2

/-- The lane's DAC is idle from this tick: its previous stamp, fixed or made, and the chirp of that launch (R77). -/
def State.dacIdle (s : State) (n : Nat) : Nat :=
  let l := s.laneOf n
  match l.cells.getLast? with
  | some c => c.rel + s.dacBusy n c
  | none => match l.lastStamp with
    | some t => t + l.lastDac
    | none => 0

/-- The first multiple of 8 at or after a tick. -/
def up8 (t : Nat) : Nat := (t + 7) / 8 * 8

/-- The release tick of a request that arrives at tick `at_` (R77). -/
def State.releaseTick (s : State) (n at_ req : Nat) : Nat :=
  let spaced : Nat := match s.lan.lastRel with
    | some r => r + s.fld Fld.LAN_BLANK_BLANK 0
    | none => 0
  let notice := if req < at_ + 1024 then at_ + 1024 else 0
  up8 (max (max req notice) (max spaced (s.dacIdle n)))

/-- The probes fixed in the cycle once probe `b` of `p` is: a probe that the cycle already holds begins the next cycle, and a full cycle leaves it empty (R58). -/
def cycleWith (p m b : Nat) : Nat :=
  let m1 := if bit m b then 2 ^ b else m + 2 ^ b
  if (List.range p).all (bit m1) then 0 else m1

/-- RELEASE_FIX: the matrix fixes a request and reports its delay; `newGeo` is the geometry change whose new geometry it is under, 0 none (R58, R77, R78). -/
def State.fixRelease (s : State) (n b at_ req newGeo : Nat) : State :=
  let rel := s.releaseTick n at_ req
  let w := s.wick n
  let c : Cell := ⟨b, rel, w.blank, w.range, s.lan.gen, s.ddc.gen, newGeo⟩
  let p := if newGeo ≠ 0 then s.pfld Fld.WCK_Ln_PROBES_P n else s.lenP n
  let s1 := s.onLane n (fun l => { l with cells := l.cells ++ [c], lastRel := some rel, cycle := cycleWith p l.cycle b })
  ({ s1 with lan := { s1.lan with lastRel := some rel } }).delayed n b (rel - req)

/-- The old cycle is complete: the pause runs to the end of the last old frame (R58). -/
def State.cycleEnd (s : State) (n : Nat) (g : GeoChange) : GeoChange :=
  { g with cycleDone := true, pauseEnd := match (s.laneOf n).lastRel with
      | some r => r + 8 * s.lenN n
      | none => 0 }

/-- A request of probe `b` for tick `req` reaches the matrix at tick `at_`: fixed, or suppressed because the lane does not emit, the probe is not in use, or the
geometry is changing (R58, R79, R259). A probe that the old cycle has already launched shows that the program has left that cycle (DEDUCED 19). -/
def State.request (s : State) (n b at_ req : Nat) : State :=
  let l := s.laneOf n
  if l.st ≠ .emitting then s.suppressed n b
  else
    match l.geo with
    | none => if s.lenP n ≤ b then s.suppressed n b else s.fixRelease n b at_ req 0
    | some g =>
      if g.started then (if s.pfld Fld.WCK_Ln_PROBES_P n ≤ b then s.suppressed n b else s.fixRelease n b at_ req g.num)
      else if !g.cycleDone && s.lenP n ≤ b then s.suppressed n b
      else if !g.cycleDone && !bit l.cycle b then
        let s1 := s.fixRelease n b at_ req 0
        if (s1.laneOf n).cycle = 0 then s1.onLane n (fun l => { l with geo := some (s1.cycleEnd n g) }) else s1
      else
        let g1 := if g.cycleDone then g else s.cycleEnd n g
        if b = 0 && g1.pauseEnd ≤ req then
          (s.onLane n (fun l => { l with geo := some { g1 with started := true }, cycle := 0 })).fixRelease n b at_ req g.num
        else (s.onLane n (fun l => { l with geo := some g1 })).suppressed n b

/-- A geometry change begins at its commit: the old cycle still has launches to make unless it is complete. Launches fixed under the geometry of an earlier change are old
ones to it (R58, R60). -/
def State.geoBegin (s : State) (n : Nat) : State :=
  if s.geoDiffers n && s.canBoundary n && (s.laneOf n).geo.isNone then
    let g : GeoChange := ⟨0, false, false, (s.laneOf n).geoNum + 1⟩
    s.onLane n (fun l => { l with geoNum := g.num, geo := some (if l.cycle = 0 then s.cycleEnd n g else g) })
  else s

/-! ### Wick LAUNCH (R254, R258) -/

/-- The instruction at the PC is done; the next one, at `pc`, issues at `next`. -/
def State.wickGo (s : State) (n pc next : Nat) : State :=
  ((s.setFld Fld.WCK_Ln_PC_PC n (pc % 1024)).setWick n wsRunning).onWick n (fun w => { w with next := next, wait := .none })

/-- The probe that the LAUNCH at the PC names. -/
def State.launchProbe (s : State) (n : Nat) : Nat := bitsOf 1 0 (sget 0 (s.wick n).prog (s.fld Fld.WCK_Ln_PC_PC n))

/-- LAUNCH issues at tick `at_`: it posts its request for 1,024 ticks later (R254). -/
def State.launchIssue (s : State) (n at_ : Nat) : State :=
  (s.request n (s.launchProbe n) at_ (at_ + 1024)).wickGo n (s.fld Fld.WCK_Ln_PC_PC n + 1) (at_ + 1)

/-! ### Instructions of a sequencer (R254 to R258) -/

/-- The program word at the PC of lane `n`'s sequencer. -/
def State.wickWord (s : State) (n : Nat) : Word := sget 0 (s.wick n).prog (s.fld Fld.WCK_Ln_PC_PC n)

/-- The instruction at the PC issues now and is operation `op`. -/
def State.wickAt (s : State) (n op : Nat) : Bool :=
  decide (n < s.lanes) && decide (s.fld Fld.WCK_Ln_STAT_STATE n = wsRunning) && decide ((s.wick n).next ≤ s.dev)
    && decide (bitsOf 31 26 (s.wickWord n) = op)

/-- WICK_FAULT: ERROR before any effect, the PC at the faulting address, and a fault report (R257). -/
def State.wickFault (s : State) (n code : Nat) : State :=
  let s1 := (s.setWick n wsError).setFld Fld.WCK_Ln_STAT_ERR n code
  ((s1.setLaneBit Fld.WCK_CTRL_RUN n false).settleLane n).faultAt 6 n (0x4010 + 0x200 * n) 0 1

/-- An instruction with the operand bits `hi:0`; any other operand bit set is ILLEGAL (R256, R257). -/
def State.wickDo (s : State) (n op hi : Nat) (f : State → Nat → State) : State :=
  if s.wickAt n op then
    let arg := bitsOf 25 0 (s.wickWord n)
    if arg < 2 ^ (hi + 1) then f s arg else s.wickFault n 1
  else s

/-- The next address. -/
def State.wickNextPc (s : State) (n : Nat) : Nat := s.fld Fld.WCK_Ln_PC_PC n + 1

/-- A wait of the given kind is over: the next instruction issues at its tick. -/
def State.wickWake (s : State) (n : Nat) (w : WckWait) : State :=
  if n < s.lanes && s.fld Fld.WCK_Ln_STAT_STATE n = wsWaiting && (s.wick n).wait = w && (s.wick n).next ≤ s.dev then
    (s.setWick n wsRunning).onWick n (fun x => { x with wait := .none })
  else s

/-- The open loops change; DEPTH follows (R257, R270). -/
def State.setLoops (s : State) (n : Nat) (ls : List (Nat × Nat)) : State :=
  (s.onWick n (fun x => { x with loops := ls })).setFld Fld.WCK_Ln_STAT_DEPTH n ls.length

/-- ENDL with no loop open, or directly after its own LOOP, is a fault; else it continues its loop or ends it, in no tick (R257). -/
def State.endLoop (s : State) (n : Nat) : State :=
  match (s.wick n).loops with
  | [] => s.wickFault n 2
  | (body, left) :: rest =>
    if body = s.fld Fld.WCK_Ln_PC_PC n then s.wickFault n 2
    else if 0 < left then (s.setLoops n ((body, left - 1) :: rest)).setFld Fld.WCK_Ln_PC_PC n body
    else (s.setLoops n rest).setFld Fld.WCK_Ln_PC_PC n (s.wickNextPc n % 1024)

/-- LOOP: the passes left stand beside the address after it; a fifth nested LOOP is a fault (R257). -/
def State.beginLoop (s : State) (n k : Nat) : State :=
  let ls := (s.wick n).loops
  if 4 ≤ ls.length then s.wickFault n 2
  else (s.setLoops n ((s.wickNextPc n % 1024, k) :: ls)).setFld Fld.WCK_Ln_PC_PC n (s.wickNextPc n % 1024)

/-! ### The order of requests (R77) -/

/-- Waits of lane `n` whose tick has come end, and LOOP and ENDL, which take no tick, execute up to the next instruction (R256, R257, R261). -/
def State.wickReady (s : State) (n : Nat) : Nat → State
  | 0 => (s.wickWake n .wait).wickWake n .align
  | k + 1 =>
    let s1 := s.wickReady n k
    if s1.wickAt n 7 then s1.wickDo n 7 15 (fun s p => s.beginLoop n p) else if s1.wickAt n 8 then s1.wickDo n 8 25 (fun s z => if z = 0 then s.endLoop n else s.wickFault n 1) else s1

/-- The LAUNCH at the PC is posted, or stalls while the probe's cell is occupied (R254, R258). -/
def State.launchNow (s : State) (n : Nat) : State :=
  s.wickDo n 2 1 (fun s b =>
    if (s.laneOf n).cells.any (fun c => c.probe = b) then
      ((s.setWick n wsWaiting).setFlag Fld.WCK_Ln_STAT_CELLSTALL n true).onWick n (fun x => { x with wait := .cell })
    else s.launchIssue n (s.wick n).next)

/-- The lanes whose LAUNCH issues before one of lane `n` at tick `at_`: at an earlier tick, or at the same one from a lower lane, in that order (R77). -/
def State.launchesBefore (s : State) (n at_ : Nat) : List Nat :=
  let before (x y : Nat × Nat) : Bool := decide (x.1 < y.1) || (decide (x.1 = y.1) && decide (x.2 ≤ y.2))
  let due (m : Nat) : Bool :=
    let r := s.wickReady m 8
    decide (m ≠ n) && r.wickAt m 2 && before ((r.wick m).next, m) (at_, n)
  (((List.range s.lanes).filter due).map (fun m => ((s.wick m).next, m))).insertionSort (fun x y => before x y) |>.map (·.2)

/-- Those LAUNCHes post their requests first (R49, R77). -/
def State.launchesFirst (s : State) (n at_ : Nat) : State := s.each (s.launchesBefore n at_) (fun m s => (s.wickReady m 8).launchNow m)

/-- CELL_STALL_END: the earlier request has left the cell of probe `b`; the stalled LAUNCH proceeds, and its stalled ticks count (R258). -/
def State.stallEnd (s : State) (n b : Nat) : State :=
  if (s.wick n).wait = .cell && s.launchProbe n = b then
    ((s.count Fld.WCK_STALL_CNT n (s.dev - (s.wick n).next)).setFlag Fld.WCK_Ln_STAT_CELLSTALL n false).launchIssue n s.dev
  else s

/-- A LAUNCH stalled on the cell of probe `b` proceeds in its turn among the lanes (R77, R258). -/
def State.stallTurn (s : State) (n b : Nat) : State :=
  if (s.wick n).wait = .cell && s.launchProbe n = b then (s.launchesFirst n s.dev).stallEnd n b else s

/-- Releases fixed but not reached are discarded; each is reported a second time, as suppressed (R81, R87, R259). -/
def State.discardCells (s : State) (n : Nat) : State :=
  let cells := (s.laneOf n).cells
  let s1 := s.onLane n (fun l => { l with cells := [], led := false, pulse := none, boost := .keep, cycle := 0, divTo := some (l.divTo.getD s.dev), playing := none })
  cells.foldl (fun s c => (s.suppressed n c.probe).stallEnd n c.probe) s1

end Sys2Proof.Machine
end

