-- ==== Sys2Proof/Machine/Lantern.lean ====
section
/-!
DEFINITION. Emitter drive, string checks, the monitor loop, enabling of emission and Quench (spec 03_lantern_launch, R62 to R95; the dummy load of R457 and the release of
the twin lease by a Quench, R91 and R424).
Points that the spec leaves open or that are read from it by inference: DESIGN CHOICE 22; DEDUCED 53 of the assumption log.
-/

namespace Sys2Proof.Machine

/-! ### Lane states (R80) -/

/-- A lane enters a state; LAN_STAT and ORX_Cn_STAT.ACTIVE follow (R80, R94, R110). -/
def State.enterLane (s : State) (n : Nat) (st : LaneSt) : State :=
  let s1 := s.onLane n (fun l => { l with st := st, since := s.dev })
  let s2 := (s1.setLaneBit Fld.LAN_STAT_EMITTING n (decide (st = .emitting))).setLaneBit Fld.LAN_STAT_QUENCHED n (decide (st = .quenched))
  s2.cmShow n

/-- A lane stops launching: its fixed releases are discarded, ramps of its channels end at their targets, and it takes every pending copy
(R81, R87, R130, R436). -/
def State.stopLane (s : State) (n : Nat) (st : LaneSt) : State :=
  let s1 := (s.enterLane n st).discardCells n
  ((s1.rampFinish (2 * n)).rampFinish (2 * n + 1)).settleLane n

/-- A lane becomes EMITTING; its monitor period starts (R72, R83). The trim it had when it last emitted stays: R72 does not say that it restarts (DESIGN CHOICE 22). -/
def State.startEmitting (s : State) (n : Nat) : State :=
  (s.enterLane n .emitting).onLane n (fun l => { l with monSum := 0, monCnt := 0 })

/-- The unit fences itself: TWN_OSW goes low, LEASE_OUT idles and lanes on the way to EMITTING return to ARMED (R405, R416). -/
def State.fence (s : State) : State :=
  let s1 := { s with twn := { s.twn with osw := false, oswAt := none, heardAt := s.now, pulseOn := none } }.setFld Fld.TWN_STAT_ROLE 0 3
  s1.each (List.range s.lanes) (fun n s =>
    let st := (s.laneOf n).st
    s.only (st = .emitting || st = .ramp || st = .ramped) (fun s => s.stopLane n .armed))

/-- The holder fences and releases the lease for a reason, 0 Quench or 1 switch-back; RELEASE leaves when TWN_OSW has read back low (R418, R424, R426). -/
def State.releaseLease (s : State) (reason : Nat) : State :=
  if s.role = 1 then
    let s1 := s.fence
    { s1 with twn := { s1.twn with released := true, sbWait := [], releaseDue := some (s.fld Fld.TWN_EPOCH_EPOCH 0, reason) } }.setFlag Fld.TWN_STAT_SBPEND 0 false
  else s

/-! ### Setpoints and the dummy load (R64 to R67, R457) -/

/-- The keep-alive current of lane `n` in mA. -/
def State.keepAlive (s : State) (n : Nat) : Nat := s.laneFld n Fld.LAN_KEEPALIVE_KA

/-- The lane is in dummy-load mode. -/
def State.dummy (s : State) (n : Nat) : Bool := s.laneBit Fld.TST_DUMMY_LANES n

/-- TST_EMITFLT drives the model of a dummy lane's string into a fault of this kind (R456, R457). -/
def State.dummyFault (s : State) (n : Nat) (b : Bool) (kind : Nat) : Bool :=
  s.dummy n && decide (s.fld Fld.TST_EMITFLT_LANE 0 = n) && (s.flag Fld.TST_EMITFLT_STRING 0 == b) && decide (s.fld Fld.TST_EMITFLT_KIND 0 = kind)

/-- This is the declaring edge of the latest Quench (R89). -/
def State.declaring (s : State) : Bool := match s.lan.latch with
  | some (d, _) => decide (s.dev / pclk = d / pclk)
  | none => false

/-- Lane `n` as this PCLK edge finds it: on the declaring edge of a Quench, a lane that it takes is still driven as before (R87, R89). -/
def State.driven (s : State) (n : Nat) : Lane :=
  let l := s.laneOf n
  match l.found with
  | some (st, since_, boost, from_, to_) =>
    if s.declaring && decide (l.st = .quenched) then { l with st := st, since := since_, boost := boost, divFrom := from_, divTo := to_ } else l
  | none => l

/-- The setpoint of string A in µA: its DC setpoint when emitting, on the ramp toward it, or keep-alive (R64, R80, R83). -/
def State.setA (s : State) (n : Nat) : Nat :=
  let ka := 1000 * s.keepAlive n
  let full := max ka (1000 * s.fld Fld.LAN_Ln_STRA_ISET n)
  match (s.driven n).st with
  | .emitting | .ramped => full
  | .ramp => ka + (full - ka) * min (s.dev - (s.driven n).since) (2048 * pclk) / (2048 * pclk)
  | _ => ka

/-- The setpoint of string B in µA: the peak from the start of a lead to the end of its tail, keep-alive at other times (R70). -/
def State.setB (s : State) (n : Nat) : Nat :=
  match (s.driven n).boost with
  | .keep => 1000 * s.keepAlive n
  | _ => 1000 * (s.laneOf n).peak

/-- A clear check runs on lane `n`; one that trips while it runs on others is not under check (R93). -/
def State.underCheck (s : State) (n : Nat) : Bool := s.lan.clearAt.isSome && s.lan.clearLanes.contains n && decide ((s.laneOf n).st = .quenched)

/-- The test port holds the LAN outputs safe: EXTEST, CLAMP and HIGHZ (R399). -/
def State.tapSafe (s : State) : Bool := decide (s.sys.tap = .extest) || decide (s.sys.tap = .clamp) || decide (s.sys.tap = .highz)

/-- The clocked part has no power, and its pins drive nothing (R490). -/
def State.unpowered (s : State) : Bool := decide (s.sys.power = .off) || decide (s.sys.power = .hib) || decide (s.sys.power = .feedWait)

/-- A lane's outputs stand as in reset: RESET_N or a detector holds the device, the PLL is unlocked, or fuses have removed the lane (R3, R490). -/
def State.laneHeld (s : State) (n : Nat) : Bool :=
  decide (s.sys.power = .cold) || decide (s.sys.power = .pll) || decide (s.sys.power = .clkFail) || decide (s.lanes ≤ n)

/-- Both gates of a lane's strings are low: in reset, under the test port, OFF, QUENCHED and not under check, or in dummy-load mode (R80, R87, R93, R399, R457,
R490). -/
def State.gatesLow (s : State) (n : Nat) : Bool :=
  s.laneHeld n || s.tapSafe || decide ((s.laneOf n).st = .off) || (decide ((s.laneOf n).st = .quenched) && !s.underCheck n) || s.dummy n

/-- String B is diverted through the lead and the tail of a booster cycle (R65). -/
def Lane.diverted (l : Lane) : Bool := decide (l.boost = .lead) || decide (l.boost = .tail)

/-- LAN_STEERn diverts: in reset, under the test port, through the lead and the tail of a booster cycle, from a Quench on, and in dummy-load mode (R65, R87, R399, R457,
R490). -/
def State.steers (s : State) (n : Nat) : Bool :=
  s.laneHeld n || s.tapSafe || (s.laneOf n).diverted || (decide ((s.laneOf n).st = .quenched) && !s.underCheck n) || s.dummy n

/-- What lane `n`'s probe DAC puts out in half `h` of this tick: two entries of the active table a tick from the stamp on, and code 0 when none is playing or in
dummy-load mode or in reset (R74, R76, R87, R457, R490). -/
def State.dacCode (s : State) (n h : Nat) : BitVec 12 :=
  match (s.laneOf n).playing with
  | some (b, t0) =>
    let k := 2 * (s.dev - t0) + h % 2
    if !s.dummy n && !s.laneHeld n && t0 ≤ s.dev && k < s.fld (clenFld b) n then sget 0 (s.laneOf n).chirp (4096 * b + k) else 0
  | none => 0

/-- The setpoint of a string. -/
def State.setpoint (s : State) (n : Nat) (b : Bool) : Nat := if b then s.setB n else s.setA n

/-! ### Quench (R85 to R92) -/

/-- The causes of R85. -/
def qOpen : Nat := 0
def qShort : Nat := 1
def qOvercur : Nat := 2
def qMonitor : Nat := 3
def qIntlk : Nat := 4
def qWdog : Nat := 5
def qCrc : Nat := 6
def qForce : Nat := 7

/-- A declared cause: its bit, and lane and string for one of lane scope. -/
abbrev Cause := Nat × Option (Nat × Bool)

/-- The causes as a mask. -/
def causeMask (cs : List Cause) : Nat := (List.range 8).foldl (fun m i => if cs.any (fun c => c.1 = i) then m + 2 ^ i else m) 0

/-- A lane is in a cause's scope (R86). -/
def State.inScope (s : State) (c : Cause) (n : Nat) : Bool :=
  match c.2 with
  | some (k, _) => !s.flag Fld.LAN_QCFG_SCOPE 0 || decide (k = n)
  | none => true

/-- Quench takes one lane (R87, R88). -/
def State.quenchLane (s0 : State) (n : Nat) : State :=
  let s := s0.onLane n (fun l => { l with found := some (l.st, l.since, l.boost, l.divFrom, l.divTo) })
  let s1 := (s.setLaneBit Fld.LAN_CTRL_EMIT_EN n false).stopLane n .quenched
  (s1.evalDiscard n).onLane n (fun l => { l with decayAt := some (s.dev + 1563) })

/-- The first cause in order of lane, string A before B (R89). -/
def lowestCause (cs : List Cause) : Option (Nat × Bool) :=
  let named := cs.filterMap (·.2)
  [0, 1, 2, 3, 4, 5, 6, 7].findSome? (fun n =>
    if named.contains (n, false) then some (n, false) else if named.contains (n, true) then some (n, true) else none)

/-- Any lane is QUENCHED. -/
def State.anyQuenched (s : State) : Bool := (List.range s.lanes).any (fun n => (s.laneOf n).st = .quenched)

/-- LAN_QCAUSE.ALL gathers causes. -/
def State.addCauses (s : State) (m : Nat) : State := s.setFld Fld.LAN_QCAUSE_ALL 0 (s.fld Fld.LAN_QCAUSE_ALL 0 ||| m)

/-- LANE, STRING and LANEVALID name the lowest of the lane-scope causes (R89). -/
def State.nameCause (s : State) (cs : List Cause) : State :=
  let c := lowestCause cs
  ((s.setFld Fld.LAN_QCAUSE_LANE 0 (c.getD (0, false)).1).setFlag Fld.LAN_QCAUSE_STRING 0 (c.getD (0, false)).2).setFlag Fld.LAN_QCAUSE_LANEVALID 0 c.isSome

/-- The cause that LANE and STRING name. -/
def State.namedCause (s : State) : List Cause :=
  if s.flag Fld.LAN_QCAUSE_LANEVALID 0 then [(qOpen, some (s.fld Fld.LAN_QCAUSE_LANE 0, s.flag Fld.LAN_QCAUSE_STRING 0))] else []

/-- The latch edge of the latest Quench has not passed (R89). -/
def State.latching (s : State) : Bool := match s.lan.latch with
  | some (_, e) => decide (s.dev ≤ e)
  | none => false

/-- QUENCH_TRIP: causes declared together. A fresh latch records them with its time, the latch edge lying 0 to 2 PCLK after the declaration; a
cause declared by another command on the same declaring edge joins FIRST; later ones only ALL. Lanes in scope that are not yet QUENCHED trip. During a clear check they
make it fail; a FORCE that finds every lane QUENCHED does not, since it changes nothing but ALL and is no condition of the check (DESIGN CHOICE 22) (R85 to R91, R93). -/
def State.quenchTrip (s : State) (cs : List Cause) : State :=
  if cs.isEmpty then s
  else
    let m := causeMask cs
    let hit := (List.range s.lanes).filter (fun n => cs.any (fun c => s.inScope c n) && decide ((s.laneOf n).st ≠ .quenched))
    let s1 := if s.anyQuenched then
        (s.addCauses m).only s.declaring (fun s => (s.setFld Fld.LAN_QCAUSE_FIRST 0 (s.fld Fld.LAN_QCAUSE_FIRST 0 ||| m)).nameCause (s.namedCause ++ cs))
      else
        let at_ := s.dev + pclk * s.freeVal 3
        let s0 := (((s.drawn.setFld Fld.LAN_QCAUSE_FIRST 0 m).setFld Fld.LAN_QCAUSE_ALL 0 m).setFld Fld.LAN_QTIME_LO_LO 0 at_).setFld
          Fld.LAN_QTIME_HI_HI 0 (at_ / 2 ^ 32)
        { s0 with lan := { s0.lan with latch := some (s.dev, at_) } }.nameCause cs
    let failed := causeMask (cs.filter (fun c => !hit.isEmpty || c.1 ≠ qForce))
    let s2 := if s.lan.clearAt.isSome then { s1 with lan := { s1.lan with clearBad := s1.lan.clearBad ||| failed } } else s1
    if hit.isEmpty then s2
    else ((s2.each hit (fun n s => s.quenchLane n)).only (!(s.anyQuenched && s.latching)) (fun s => s.count Fld.LAN_QUENCH_CNT 0 1)).releaseLease 0

/-- The level at QUENCH_N: low while a lane is QUENCHED, through reset and PLL lock, after a boot failure, and under a test-port instruction
(R92, R397, R399); an unpowered device drives nothing (R490). -/
def State.quenchN (s : State) : Bool := s.unpowered || !(s.anyQuenched || s.sys.quenchPin || s.tapSafe)

/-- QFORCE (R85). -/
def execQforce (t : Nat) (src : Source) (s : State) : Out :=
  ticking t s (fun s => s.pairWhole src Fld.LAN_CTRL_QFORCE.addr (fun s => s.pastLocks src Fld.LAN_CTRL_QFORCE.addr 0x100 (fun s => s.quenchTrip [(qForce, none)])))

/-! ### Enabling emission (R81 to R83) -/

/-- LAN_Ln_FAULT without what a successful clear or a new enable clears (R95). -/
def State.clearFault (s : State) (n : Nat) : State :=
  (((((s.setFld Fld.LAN_Ln_FAULT_A_FLT n 0).setFld Fld.LAN_Ln_FAULT_B_FLT n 0).setFlag Fld.LAN_Ln_FAULT_MON_HIGH n false).setFlag
    Fld.LAN_Ln_FAULT_MON_LOW n false).setFlag Fld.LAN_Ln_FAULT_DECAY_SLOW n false).setFld Fld.LAN_Ln_FAULT_LATE n 0

/-- Sampling of a lane's strings starts afresh. -/
def State.startSampling (s : State) (n : Nat) : State :=
  ((s.onLane n (fun l => { l with passA := 0, passB := 0, kindA := 0, kindB := 0, monHi := 0 })).setFld Fld.LAN_Ln_FAULT_FAILCNT_A n 0).setFld
    Fld.LAN_Ln_FAULT_FAILCNT_B n 0

/-- One EMIT_EN bit becomes set: OFF to CHECK (R81). -/
def State.enableLane (s : State) (n : Nat) : State :=
  let s1 := (s.setLaneBit Fld.LAN_CTRL_EMIT_EN n true).clearFault n
  if (s.laneOf n).st = .off then (s1.enterLane n .check).startSampling n else s1

/-- One EMIT_EN bit becomes clear: OFF at once (R81). -/
def State.disableLane (s : State) (n : Nat) : State :=
  let s1 := s.setLaneBit Fld.LAN_CTRL_EMIT_EN n false
  if (s.laneOf n).st = .quenched then s1 else s1.stopLane n .off

/-- A write of EMIT_EN: each bit that may be set is, and one record names what was not (R82). -/
def State.emitWrite (s : State) (src : Source) (val : Word) : State :=
  let old := s.fld Fld.LAN_CTRL_EMIT_EN 0
  let v := bitsOf 7 0 val
  let ls := List.range s.lanes
  let set := ls.filter (fun n => bit v n && !bit old n)
  let ok (n : Nat) : Bool := s.flag Fld.LAN_STAT_HSC_READY 0 && decide ((s.laneOf n).st ≠ .quenched)
  let s1 := s.each (ls.filter (fun n => !bit v n && bit old n)) (fun n s => s.disableLane n)
  let s2 := s1.each (set.filter ok) (fun n s => s.enableLane n)
  let applied := s2.live Fld.LAN_CTRL_EMIT_EN.addr
  if 2 ^ s.lanes ≤ v then s2.clamp src Fld.LAN_CTRL_EMIT_EN.addr val applied rsFused 0 7
  else if !set.all ok then s2.clamp src Fld.LAN_CTRL_EMIT_EN.addr val applied rsState 0 7
  else s2

/-- A completed guarded pair of LAN_CTRL (R81, R85). -/
def State.lanCtrl (s : State) (src : Source) (val : Word) : State :=
  let s1 := s.emitWrite src val
  if bitsOf 8 8 val = 1 then s1.quenchTrip [(qForce, none)] else s1

/-- EMIT_ENABLE: the pair sets the bits of `mask` beside those already set (R81, R82). -/
def execEmitEnable (t : Nat) (src : Source) (mask : Nat) (s : State) : Out :=
  ticking t s (fun s =>
    let v := BitVec.ofNat 32 ((s.fld Fld.LAN_CTRL_EMIT_EN 0 ||| mask) % 256)
    s.pairWhole src Fld.LAN_CTRL_EMIT_EN.addr (fun s => s.pastLocks src Fld.LAN_CTRL_EMIT_EN.addr v (fun s => s.emitWrite src v)))

/-- EMIT_DISABLE: the pair clears the bits of `mask` (R81). -/
def execEmitDisable (t : Nat) (src : Source) (mask : Nat) (s : State) : Out :=
  ticking t s (fun s =>
    let v := BitVec.ofNat 32 (s.fld Fld.LAN_CTRL_EMIT_EN 0 &&& (255 - mask % 256))
    s.pairWhole src Fld.LAN_CTRL_EMIT_EN.addr (fun s => s.pastLocks src Fld.LAN_CTRL_EMIT_EN.addr v (fun s => s.emitWrite src v)))

/-- A guarded write of LAN_QCFG: SCOPE stays 0 while SAFE_ALL is high (R86). -/
def State.qcfgWrite (s : State) (src : Source) (val : Word) : State :=
  let safe := s.flag Fld.LAN_STAT_SAFE_ALL 0
  let s1 := (s.setFld Fld.LAN_QCFG_INTLK_FILT 0 (bitsOf 2 1 val)).setFld Fld.LAN_QCFG_SCOPE 0 (if safe then 0 else bitsOf 0 0 val)
  if safe && bitsOf 0 0 val = 1 then s1.clamp src Fld.LAN_QCFG_SCOPE.addr val (s1.live Fld.LAN_QCFG_SCOPE.addr) rsStrap 0 0 else s1

/-! ### String samples (R68, R69, R83) -/

/-- The lane's strings carry current and are sampled; those of a lane that Quench has just taken still do up to the latch edge (R67, R68, R71, R89, R93). -/
def State.sampled (s : State) (n : Nat) : Bool :=
  match (s.laneOf n).st with
  | .off => false
  | .quenched => s.underCheck n || s.latching
  | _ => true

/-- What a sample shows: none when it passes, or the kind of its failure, 1 open and 2 short (R68). -/
def State.sampleKind (s : State) (x : StringSample) : Option Nat :=
  let n := x.lane
  let vshort := 10 * s.fld (if x.b then Fld.LAN_Ln_DIAG_VSHORT_B else Fld.LAN_Ln_DIAG_VSHORT_A) n
  let vopen := 20 * s.fld (if x.b then Fld.LAN_Ln_DIAG_VOPEN_B else Fld.LAN_Ln_DIAG_VOPEN_A) n
  if s.dummy n then (if s.dummyFault n x.b 1 then some 1 else if s.dummyFault n x.b 2 then some 2 else none)
  else if vopen < x.mv then some 1
  else if x.mv < vshort then some 2
  else if 2 * x.ua < s.setpoint n x.b then some 1
  else none

/-- The grid period of string samples in ticks (R68). -/
def sampleGrid : Nat := 1000 * pclk

/-- String B's sample falls here, as the edge finds the lane: at the grid tick while it conducts through the booster; else at the first PCLK at which the stretch ends that was
diverted at the grid tick (R68). -/
def State.boosterDue (s : State) (n : Nat) : Bool :=
  let l := s.driven n
  let g := s.dev - s.dev % sampleGrid
  !(l.diverted || (decide (l.st = .quenched) && !s.underCheck n)) && (decide (s.dev = g) || match l.divTo with
    | some e => decide (l.divFrom ≤ g) && decide (g < e) && decide (s.dev = (e + pclk - 1) / pclk * pclk)
    | none => false)

/-- The sample is the one the grid takes of that string in this window; in a check only from 256 PCLK on (R68, R83). -/
def State.sampleDue (s : State) (x : StringSample) : Bool :=
  let l := s.driven x.lane
  let settled := match l.st with
    | .check => decide (l.since + 256 * pclk ≤ s.dev)
    | .quenched => s.latching || (s.underCheck x.lane && decide (s.lan.clearAt.getD 0 + 256 * pclk ≤ s.dev))
    | _ => true
  let first := decide ((if x.b then l.tookB else l.tookA) ≠ s.dev / sampleGrid + 1)
  decide (x.lane < s.lanes) && s.sampled x.lane && settled && first && (if x.b then s.boosterDue x.lane else decide (s.dev % sampleGrid = 0))

/-- One sample counts: the state, and the cause when it declares a fault (R69, R83, R93). -/
def State.stringSample (s : State) (x : StringSample) : State × List Cause :=
  if !s.sampleDue x then (s, [])
  else
    let n := x.lane
    let w := s.dev / sampleGrid + 1
    let cnt := if x.b then Fld.LAN_Ln_FAULT_FAILCNT_B else Fld.LAN_Ln_FAULT_FAILCNT_A
    let flt := if x.b then Fld.LAN_Ln_FAULT_B_FLT else Fld.LAN_Ln_FAULT_A_FLT
    let take (pass kind : Nat) (l : Lane) : Lane :=
      if x.b then { l with passB := pass, kindB := kind, tookB := w } else { l with passA := pass, kindA := kind, tookA := w }
    match s.sampleKind x with
    | none => ((s.onLane n (fun l => take (min 4 ((if x.b then l.passB else l.passA) + 1)) (if x.b then l.kindB else l.kindA) l)).setFld cnt n 0, [])
    | some k =>
      let c := min 4 (s.fld cnt n + 1)
      let s1 := (s.onLane n (take 0 k)).setFld cnt n c
      if c = 4 && !s.underCheck n then
        (s1.setFld flt n (setBit (s1.fld flt n) (k - 1) true), [(if k = 1 then qOpen else qShort, some (n, x.b))])
      else (s1, [])

/-- CHECK_PASS: four passing samples of both strings move a lane to ARMED on a standby or a fenced unit, and start the ramp otherwise (R83, R416). -/
def State.checkPass (s : State) (n : Nat) : State :=
  let l := s.laneOf n
  if l.st = .check && 4 ≤ l.passA && 4 ≤ l.passB then s.enterLane n (if 2 ≤ s.role then .armed else .ramp) else s

/-- STRING_SAMPLE (R68). -/
def State.stringSamples (s : State) (xs : List StringSample) : State :=
  let r := xs.foldl (fun (acc : State × List Cause) x => let o := acc.1.stringSample x; (o.1, acc.2 ++ o.2)) (s, [])
  (r.1.quenchTrip r.2).each (List.range s.lanes) (fun n s => s.checkPass n)

/-- STRING_SAMPLE: the samples taken now (R68). -/
def execStringSample (t : Nat) (samples : List StringSample) (s : State) : Out := ticking t s (fun s => s.stringSamples samples)

/-- String A's ramp has taken 2,048 PCLK: EMITTING, unless the optical switch still settles after a takeover (R83, R422). -/
def State.rampADone (s : State) (n : Nat) : State :=
  let l := s.laneOf n
  if l.st = .ramp && l.since + 2048 * pclk ≤ s.dev then
    match s.twn.oswAt with
    | some t0 => if s.dev < t0 + pclk * s.fld Fld.TWN_OSWSET_SET 0 then s.enterLane n .ramped else s.startEmitting n
    | none => s.startEmitting n
  else s

/-- STRING_A_RAMP_DONE (R83). -/
def execStringARampDone (t : Nat) (n : Nat) (s : State) : Out := ticking t s (fun s => s.only (n < s.lanes) (fun s => s.rampADone n))

/-! ### Overcurrent, monitor and decay (R70, R72, R73, R88) -/

/-- A clear check ends in failure with causes (R93). -/
def State.clearFails (s : State) (m : Nat) : State :=
  ({ s with lan := { s.lan with clearAt := none, clearLanes := [], clearBad := 0 } }.setFlag Fld.LAN_STAT_QCLR_BUSY 0 false).setFlag Fld.LAN_STAT_QCLR_FAIL 0 true
    |>.addCauses m

/-- The currents of a string in µA on two consecutive PCLK edges (R70); during a clear check an overcurrent stops the check (R93). -/
def State.overcurrent (s : State) (n : Nat) (b : Bool) (i1 i2 : Nat) : State :=
  let lim := 5 * s.setpoint n b / 4 + 10000
  let tooHigh := if s.dummy n then s.dummyFault n b 3 else decide (lim < i1) && decide (lim < i2)
  if !s.sampled n || !tooHigh then s
  else
    let flt := if b then Fld.LAN_Ln_FAULT_B_FLT else Fld.LAN_Ln_FAULT_A_FLT
    let s1 := s.setFld flt n (setBit (s.fld flt n) 2 true)
    if s.underCheck n then s1.clearFails (s.lan.clearBad ||| 2 ^ qOvercur) else s1.quenchTrip [(qOvercur, some (n, b))]

/-- OVERCURRENT (R70). -/
def execOvercurrent (t : Nat) (n : Nat) (b : Bool) (i1 i2 : Nat) (s : State) : Out :=
  ticking t s (fun s => s.only (n < s.lanes) (fun s => s.overcurrent n b i1 i2))

/-- A lane's window average in 10 nA; a dummy lane's monitor follows its model (R73, R457). -/
def State.monitorAvg (s : State) (n avg : Nat) : Nat :=
  if s.dummy n then
    if s.dummyFault n false 4 || s.dummyFault n true 4 then s.fld Fld.LAN_Ln_CEIL_CEIL n + 1
    else if s.dummyFault n false 5 || s.dummyFault n true 5 then 0
    else s.fld Fld.LAN_Ln_APC_TARGET n
  else min 65535 avg

/-- One lane's monitor window (R72, R73, R93). -/
def State.monitorWindow (s : State) (n avg0 : Nat) : State × List Cause :=
  let avg := s.monitorAvg n avg0
  let ceil := s.fld Fld.LAN_Ln_CEIL_CEIL n
  let l := s.laneOf n
  if !s.sampled n then (s, [])
  else if s.underCheck n then
    (if ceil ≤ avg then { s with lan := { s.lan with clearBad := s.lan.clearBad ||| 2 ^ qMonitor } } else s, [])
  else
    let hi := if ceil < avg then l.monHi + 1 else 0
    let add := decide (l.st = .emitting) && decide (l.monCnt < 64)
    let s1 := s.onLane n (fun l => { l with monHi := hi, monSum := if add then l.monSum + avg else l.monSum, monCnt := if add then l.monCnt + 1 else l.monCnt })
    if hi = 4 then (s1.setFlag Fld.LAN_Ln_FAULT_MON_HIGH n true, [(qMonitor, some (n, true))]) else (s1, [])

/-- MONITOR_WINDOW_END: the window averages of lanes 0, 1, … in 10 nA, at a grid tick (R73). -/
def execMonitorWindowEnd (t : Nat) (averages : List Nat) (s : State) : Out :=
  ticking t s (fun s => s.only (s.dev % (1000 * pclk) = 0) (fun s =>
    let r := (List.range s.lanes).foldl (fun (acc : State × List Cause) n =>
      let o := acc.1.monitorWindow n (averages.getD n 0); (o.1, acc.2 ++ o.2)) (s, [])
    r.1.quenchTrip r.2))

/-- The power loop's update over 64 windows, and the dead-monitor check (R72, R73). The trim is kept as an exact rational: R72 gives it no width (DESIGN CHOICE 22). -/
def State.apcUpdate (s : State) (n : Nat) : State :=
  let l := s.laneOf n
  if l.monCnt < 64 then s
  else
    let avg : Rat := (l.monSum : Rat) / 64
    let target := s.fld Fld.LAN_Ln_APC_TARGET n
    let en := s.flag Fld.LAN_Ln_APC_EN n
    let t1 : Rat := l.trim + (target - avg) / (8 * target)
    let trim : Rat := if !en then 1 else if target = 0 then l.trim else max (3 / 4) (min (5 / 4) t1)
    let s1 := (s.setFld Fld.LAN_Ln_MON_AVG n (s.openRound avg).toNat).drawn
    let s2 := (s1.onLane n (fun l => { l with trim := trim, monSum := 0, monCnt := 0 })).setIapp n
    if en && s.fld Fld.LAN_Ln_STRB_ISET n ≠ 0 && decide (4 * avg < target) then
      (s2.setFlag Fld.LAN_Ln_FAULT_MON_LOW n true).quenchTrip [(qMonitor, some (n, true))]
    else s2

/-- APC_UPDATE (R72). -/
def execApcUpdate (t : Nat) (n : Nat) (s : State) : Out := ticking t s (fun s => s.only (n < s.lanes) (fun s => s.apcUpdate n))

/-- DECAY_CHECK: the currents of both strings in µA, 2 µs after the gates went low (R88). -/
def execDecayCheck (t : Nat) (n ia ib : Nat) (s : State) : Out :=
  ticking t s (fun s => match (s.laneOf n).decayAt with
    | some due => s.only (n < s.lanes && due ≤ s.dev) (fun s =>
        let s1 := s.onLane n (fun l => { l with decayAt := none })
        if !s.dummy n && (5000 ≤ ia || 5000 ≤ ib) then s1.setFlag Fld.LAN_Ln_FAULT_DECAY_SLOW n true else s1)
    | none => s)

/-- How long INTLK_N must stay at a new level, in PCLK (R94). -/
def State.intlkFilter (s : State) : Nat := [1, 8, 16, 32].getD (s.fld Fld.LAN_QCFG_INTLK_FILT 0) 1

/-- INTERLOCK_CHANGE: INTLK_N has been at a new level for `held` PCLK; the filtered state follows, and low trips Quench (R85, R92, R94). -/
def execInterlockChange (t : Nat) (high : Bool) (held : Nat) (s : State) : Out :=
  ticking t s (fun s => s.only (s.intlkFilter ≤ held && s.sys.intlkOk ≠ high) (fun s =>
    let s1 := { s with sys := { s.sys with intlkOk := high } }.setFlag Fld.LAN_STAT_INTLK_OPEN 0 (!high)
    if high then s1 else s1.quenchTrip [(qIntlk, none)]))

/-! ### Clearing Quench (R93) -/

/-- Watchdog period: 16 ms in ACLK ticks (R38). -/
def wdogTicks : Nat := 12500000

/-- The device-wide conditions of a clear check that do not hold now: the interlock, a watchdog refreshed in time, and the configuration CRC (R93). -/
def State.clearConditions (s : State) : Nat :=
  (if s.sys.intlkOk then 0 else 2 ^ qIntlk)
    + (match s.sys.wdog with
      | some t0 => if t0 + wdogTicks ≤ s.now then 2 ^ qWdog else 0
      | none => 0)
    + (if s.fld Fld.SYS_CRC_CTRL_ACTION 0 = 2 && s.fld Fld.SYS_CRC_LIVE_CRC 0 ≠ s.fld Fld.SYS_CRC_REF_REF 0 then 2 ^ qCrc else 0)

/-- A device-wide condition is judged throughout a clear check: one that fails now counts at its end (R93). -/
def State.clearWatch (s : State) : State :=
  if s.lan.clearAt.isSome then { s with lan := { s.lan with clearBad := s.lan.clearBad ||| s.clearConditions } } else s

/-- The QUENCHED lanes. -/
def State.quenchedLanes (s : State) : List Nat := (List.range s.lanes).filter (fun n => (s.laneOf n).st = .quenched)

/-- LAN_QCLR.CLR: a clear check starts, or the write is turned away (R93). -/
def State.quenchClear (s : State) (src : Source) : State :=
  if s.lan.clearAt.isSome || !s.anyQuenched then s.clamp src Fld.LAN_QCLR_CLR.addr 1 0 rsState 0 0
  else
    let s1 := (s.setFlag Fld.LAN_STAT_QCLR_BUSY 0 true).setFlag Fld.LAN_STAT_QCLR_FAIL 0 false
    let s2 := { s1 with lan := { s1.lan with clearAt := some s.dev, clearLanes := s.quenchedLanes, clearBad := s.clearConditions } }
    s2.each s.quenchedLanes (fun n s => s.startSampling n)

/-- QUENCH_CLEAR (R93). -/
def execQuenchClear (t : Nat) (src : Source) (s : State) : Out :=
  ticking t s (fun s => s.pairWhole src Fld.LAN_QCLR_CLR.addr (fun s => s.pastLocks src Fld.LAN_QCLR_CLR.addr 1 (fun s => s.quenchClear src)))

/-- The causes of strings that have not passed four samples in a row (R93). -/
def State.clearStrings (s : State) : Nat × Bool :=
  let bad := s.lan.clearLanes.filter (fun n => (s.laneOf n).passA < 4 || (s.laneOf n).passB < 4)
  let has (k : Nat) : Bool := bad.any (fun n =>
    let l := s.laneOf n
    (l.passA < 4 && l.kindA = k) || (l.passB < 4 && l.kindB = k))
  ((if has 1 then 2 ^ qOpen else 0) + (if has 2 then 2 ^ qShort else 0), bad.isEmpty)

/-- The clear check has run its 4,256 PCLK (R93). -/
def State.quenchClearEnd (s : State) : State :=
  let m := s.lan.clearBad ||| s.clearConditions ||| s.clearStrings.1
  if m = 0 && s.clearStrings.2 then
    let s1 := s.each s.quenchedLanes (fun n s => s.enterLane n .off)
    let s2 := s1.each (List.range s.lanes) (fun n s => s.clearFault n)
    ((({ s2 with lan := { s2.lan with clearAt := none, clearLanes := [], clearBad := 0, latch := none } }.setFlag Fld.LAN_STAT_QCLR_BUSY 0 false).setLive Fld.LAN_QCAUSE_FIRST.addr
      0).setFld Fld.LAN_QTIME_LO_LO 0 0).setFld Fld.LAN_QTIME_HI_HI 0 0
  else s.clearFails m

/-- QCLR_CHECK_END (R93). -/
def execQclrCheckEnd (t : Nat) (s : State) : Out :=
  ticking t s (fun s => match s.lan.clearAt with
    | some t0 => s.only (t0 + 4256 * pclk ≤ s.dev) State.quenchClearEnd
    | none => s)

/-! ### Booster cycles (R65, R66) -/

/-- LEAD of string B in ticks. -/
def State.leadTicks (s : State) (n : Nat) : Nat := pclk * s.fld Fld.LAN_Ln_STRB_LEAD n

/-- A lead begins toward a pulse edge; its peak is the applied one now (R72, R84). -/
def State.leadStart (s : State) (n edge : Nat) (fromCell : Bool) : State :=
  s.onLane n (fun l =>
    { l with
      boost := .lead, edge := edge, divFrom := if l.boost = .keep then s.dev else l.divFrom, divTo := none, peak := s.fld Fld.LAN_Ln_MON_IAPP n, led := l.led || fromCell, pulse := if fromCell then l.pulse else none })

/-- The lead of the next pulse falls due: of a launch already stamped, or of the next fixed one (R65). -/
def State.boosterLead (s : State) (n : Nat) : State :=
  let l := s.laneOf n
  if l.st ≠ .emitting || !(l.boost = .keep || l.boost = .tail) then s
  else
    match l.pulse with
    | some e => if e ≤ s.dev + s.leadTicks n then s.leadStart n e false else s
    | none =>
      match l.cells.head? with
      | some c =>
        let e := c.rel + s.lanAt n c Fld.LAN_Ln_PULSE_OFFSET
        if !l.led && e ≤ s.dev + s.leadTicks n then s.leadStart n e true else s
      | none => s

/-- BOOSTER_LEAD (R65). -/
def execBoosterLead (t : Nat) (n : Nat) (s : State) : Out := ticking t s (fun s => s.only (n < s.lanes) (fun s => s.boosterLead n))

/-- BOOSTER_PULSE_START: the pulse edge, with the current of string B in µA there; below 90 % of the peak the pulse is late (R65, R66). -/
def execBoosterPulseStart (t : Nat) (n ua : Nat) (s : State) : Out :=
  ticking t s (fun s =>
    let l := s.laneOf n
    s.only (n < s.lanes && l.boost = .lead && l.edge ≤ s.dev) (fun s =>
      let late := !s.dummy n && decide (10 * ua < 9 * 1000 * l.peak)
      let s1 := if late then s.setFld Fld.LAN_Ln_FAULT_LATE n (min 15 (s.fld Fld.LAN_Ln_FAULT_LATE n + 1)) else s
      s1.onLane n (fun l => { l with boost := .pulse, divTo := some l.edge, edge := l.edge + s.fld Fld.LAN_Ln_PULSE_WIDTH n })))

/-- BOOSTER_PULSE_END (R65). -/
def execBoosterPulseEnd (t : Nat) (n : Nat) (s : State) : Out :=
  ticking t s (fun s =>
    let l := s.laneOf n
    s.only (n < s.lanes && l.boost = .pulse && l.edge ≤ s.dev) (fun s =>
      s.onLane n (fun l => { l with boost := .tail, divFrom := l.edge, divTo := none, edge := l.edge + s.leadTicks n })))

/-- BOOSTER_TAIL_END (R65). -/
def execBoosterTailEnd (t : Nat) (n : Nat) (s : State) : Out :=
  ticking t s (fun s =>
    let l := s.laneOf n
    s.only (n < s.lanes && l.boost = .tail && l.edge ≤ s.dev) (fun s => s.onLane n (fun l => { l with boost := .keep, divTo := some l.edge })))

/-! ### Chirp tables (R74 to R76) -/

/-- The word at an address of the chirp window: two entries of the staged bank of the lane in LAN_TBLPAGE (R74, R75). -/
def State.chirpWord (s : State) (a : Nat) : Word :=
  let l := s.laneOf (s.fld Fld.LAN_TBLPAGE_LANE 0)
  let k := (a - 0x18000) / 4 * 2
  BitVec.ofNat 32 ((sget (0 : BitVec 12) l.chirpStg k).toNat * 16 + (sget (0 : BitVec 12) l.chirpStg (k + 1)).toNat * 2 ^ 20)

/-- A write of two entries to lane `n`'s staged bank, or its discard while TBLPEND is set (R74 to R76). -/
def State.chirpPut (s : State) (src : Source) (n a k : Nat) (val : Word) (old : Word) : State :=
  if s.laneBit Fld.LAN_STAT_TBLPEND n then s.clamp src a val old rsPending 0 31
  else
    let put (t : List (Nat × BitVec 12)) : List (Nat × BitVec 12) :=
      sput 0 (sput 0 t k (BitVec.ofNat 12 (bitsOf 15 4 val))) (k + 1) (BitVec.ofNat 12 (bitsOf 31 20 val))
    (s.onLane n (fun l => { l with chirpStg := put l.chirpStg, tblChanged := setBit l.tblChanged (k / 4096) true })).markDirty 1

/-- A write of a word of the window at LAN offsets 0x8000 to 0xFFFF, for the lane that LAN_TBLPAGE names (R75). -/
def State.chirpWrite (s : State) (src : Source) (a : Nat) (val : Word) : State :=
  s.chirpPut src (s.fld Fld.LAN_TBLPAGE_LANE 0) a ((a - 0x18000) / 4 * 2) val (s.chirpWord a)

/-- TABLE_COPYBACK_DONE: copies back that are complete; TBLPEND clears when none is left (R75). -/
def execTableCopybackDone (t : Nat) (n : Nat) (s : State) : Out :=
  ticking t s (fun s => s.only (n < s.lanes) (fun s =>
    (s.onLane n (fun l => { l with tblCopy := l.tblCopy.filter (fun c => s.dev < c.2) })).tblStat n))

/-- A LAN commit names the changed tables of each lane; LAN_BLANK applies at once (R75, R84). -/
def State.lanCommit (s : State) : State :=
  let s1 := { s with lan := { s.lan with gen := s.lan.gen + 1 } }
  let s2 := s1.each (List.range s.lanes) (fun n s =>
    s.only ((s.laneOf n).tblChanged ≠ 0) (fun s =>
      (s.onLane n (fun l => { l with tblPend := l.tblPend ||| l.tblChanged, tblChanged := 0, tblGen := s.lan.gen })).tblStat n))
  s2.takeLive Fld.LAN_BLANK_BLANK.addr (s2.pend Fld.LAN_BLANK_BLANK.addr)

end Sys2Proof.Machine
end

