-- ==== Sys2Proof/Machine/Wick.lean ====
section
/-!
DEFINITION. The Wick lane sequencers: their instructions, running and stopping, triggers, captures and tone windows (spec 10_wick_sequencer, R254 to R270).
Points that the spec leaves open or that are read from it by inference: DESIGN CHOICE 11, 23 of the assumption log.
-/

namespace Sys2Proof.Machine

/-! ### Running and stopping (R257, R265 to R267) -/

/-- The sequencer stops; a wait or stall in progress ends, and the lane may be left without a launch boundary (R265, R436). -/
def State.wickStop (s : State) (n : Nat) : State :=
  let w := s.wick n
  let s1 := if w.wait = .cell then (s.count Fld.WCK_STALL_CNT n (s.dev - w.next)).setFlag Fld.WCK_Ln_STAT_CELLSTALL n false else s
  (((s1.setWick n wsStopped).setLaneBit Fld.WCK_CTRL_RUN n false).onWick n (fun w => { w with wait := .none })).settleLane n

/-- RUN from STOPPED: the first instruction issues within 8 ticks, at a moment that is free, with no loop open (R265). -/
def State.wickStart (s : State) (n : Nat) : State :=
  let s1 := (((s.setWick n wsRunning).setLaneBit Fld.WCK_CTRL_RUN n true).setFld Fld.WCK_Ln_STAT_DEPTH n 0).onWick n (fun w =>
    { w with next := s.dev + s.freeVal 9, wait := .none, loops := [] })
  s1.drawn

/-- A write of WCK_CTRL: CLRERR first, then RUN; RUN in ERROR clamps to 0 (R265, R269). -/
def State.wckCtrl (s : State) (src : Source) (val : Word) : State :=
  let a := Fld.WCK_CTRL_RUN.addr
  let ls := List.range s.lanes
  let run := bitsOf 7 0 val
  let clr := bitsOf 15 8 val
  let old := s.fld Fld.WCK_CTRL_RUN 0
  let st (s : State) (n : Nat) : Nat := s.fld Fld.WCK_Ln_STAT_STATE n
  let s1 := s.each (ls.filter (fun n => bit clr n && st s n = wsError)) (fun n s => (s.setWick n wsStopped).setFld Fld.WCK_Ln_STAT_ERR n 0)
  let bad := ls.filter (fun n => bit run n && st s1 n = wsError)
  let s2 := s1.each (ls.filter (fun n => bit run n && st s1 n = wsStopped)) (fun n s => s.wickStart n)
  let s3 := s2.each (ls.filter (fun n => !bit run n && bit old n)) (fun n s => s.only (s.wickOn n) (fun s => s.wickStop n))
  let shown := s3.live a
  let s4 := if 2 ^ s.lanes ≤ run then s3.clamp src a val shown rsFused 0 7 else if !bad.isEmpty then s3.clamp src a val shown rsState 0 7 else s3
  if 2 ^ s.lanes ≤ clr then s4.clamp src a val shown rsFused 8 15 else s4

/-- A write of WCK_CTRL with bit `n` of RUN set or cleared, or CLRERR[n] set. -/
def State.wckCtrlBit (s : State) (src : Source) (run : Nat) (clr : Nat) : State :=
  let v := BitVec.ofNat 32 (run % 256 + clr % 256 * 256)
  s.pastLocks src Fld.WCK_CTRL_RUN.addr v (fun s => s.wckCtrl src v)

/-- WCK_RUN (R265). -/
def execWckRun (t : Nat) (src : Source) (n : Nat) (s : State) : Out :=
  clocked t s (fun s => s.wckCtrlBit src (setBit (s.fld Fld.WCK_CTRL_RUN 0) n true) 0)

/-- WCK_STOP (R265). -/
def execWckStop (t : Nat) (src : Source) (n : Nat) (s : State) : Out :=
  clocked t s (fun s => s.wckCtrlBit src (setBit (s.fld Fld.WCK_CTRL_RUN 0) n false) 0)

/-- WCK_CLRERR (R265). -/
def execWckClrerr (t : Nat) (src : Source) (n : Nat) (s : State) : Out :=
  clocked t s (fun s => s.wckCtrlBit src (s.fld Fld.WCK_CTRL_RUN 0) (2 ^ n))

/-- A write of program memory, lane and instruction by its address (R267). -/
def State.wickProgWrite (s : State) (src : Source) (a : Nat) (val : Word) : State :=
  let n := (a - 0x68000) / 0x1000
  let k := (a - 0x68000) % 0x1000 / 4
  if s.lanes ≤ n then s.clamp src a val 0 rsFused 0 31
  else if s.wickOn n then s.clamp src a val (sget 0 (s.wick n).prog k) rsState 0 31
  else s.onWick n (fun w => { w with prog := sput 0 w.prog k val })

/-- A write of WCK_Ln_PC (R267). -/
def State.wickPcWrite (s : State) (src : Source) (n : Nat) (val : Word) : State :=
  let a := Fld.WCK_Ln_PC_PC.at n
  if s.lanes ≤ n then s.clamp src a val 0 rsFused 0 31
  else if s.wickOn n then s.clamp src a val (s.live a) rsState 0 9
  else s.setFld Fld.WCK_Ln_PC_PC n (bitsOf 9 0 val)

/-- An address of WCK_Ln_PC. -/
def isWickPc (a : Nat) : Bool := decide (0x64000 ≤ a) && decide (a < 0x65000) && decide (a % 0x200 = 8)

/-- WICK_PROGRAM_WRITE: a word of program memory or of WCK_Ln_PC (R267). -/
def execWickProgramWrite (t : Nat) (src : Source) (addr val : Word) (s : State) : Out :=
  ticking t s (fun s =>
    let a := addr.toNat
    if 0x68000 ≤ a ∧ a < 0x70000 then s.pastLocks src a val (fun s => s.wickProgWrite src a val)
    else if isWickPc a then s.pastLocks src a val (fun s => s.wickPcWrite src ((a - 0x64000) / 0x200) val)
    else s)

/-! ### Instructions (R256 to R263) -/

/-- An instruction of one tick whose effect is `f`. -/
def State.wickTick (s : State) (n pc : Nat) (f : State → State) : State := (f s).wickGo n pc ((s.wick n).next + 1)

/-- The sequencer waits; its next instruction is at the next address (R265). -/
def State.wickPark (s : State) (n : Nat) (w : WckWait) (next : Nat) : State :=
  ((s.setFld Fld.WCK_Ln_PC_PC n (s.wickNextPc n % 1024)).setWick n wsWaiting).onWick n (fun x => { x with wait := w, next := next })

/-- WCK_HALT (R266). -/
def execWckHalt (t : Nat) (n : Nat) (s : State) : Out :=
  clocked t s (fun s =>
    if s.wickAt n 0 then
      if bitsOf 25 0 (s.wickWord n) = 0 then (s.setFld Fld.WCK_Ln_PC_PC n (s.wickNextPc n % 1024)).wickStop n else s.wickFault n 1
    else s)

/-- WCK_WAIT: N = 0 is ILLEGAL (R256, R257). -/
def execWckWait (t : Nat) (n : Nat) (s : State) : Out :=
  clocked t s (fun s => s.wickDo n 1 25 (fun s k => if k = 0 then s.wickFault n 1 else s.wickPark n .wait ((s.wick n).next + k)))

/-- WAIT_EXPIRY (R256). -/
def execWaitExpiry (t : Nat) (n : Nat) (s : State) : Out := clocked t s (fun s => s.wickWake n .wait)

/-- WCK_LAUNCH: posted, or stalled while the probe's cell is occupied; LAUNCHes of other lanes that come before it in the matrix's order go first (R77, R254, R258). -/
def execWckLaunch (t : Nat) (n : Nat) (s : State) : Out :=
  clocked t s (fun s => s.only (s.wickAt n 2) (fun s => (s.launchesFirst n (s.wick n).next).launchNow n))

/-- WCK_BLANK (R255). -/
def execWckBlank (t : Nat) (n : Nat) (s : State) : Out :=
  clocked t s (fun s => s.wickDo n 3 12 (fun s w => s.wickTick n (s.wickNextPc n) (fun s => s.onWick n (fun x => { x with blank := w }))))

/-- WCK_RANGE (R105, R255). -/
def execWckRange (t : Nat) (n : Nat) (s : State) : Out :=
  clocked t s (fun s => s.wickDo n 4 3 (fun s i =>
    s.wickTick n (s.wickNextPc n) (fun s => s.onWick n (fun x => { x with range := some (i, x.next) }))))

/-- The first grid tick at least one tick after `at_` with the given offset (R261). -/
def gridTick (at_ period off : Nat) : Nat :=
  let g := period * 8
  let t0 := at_ + 1
  t0 + (off * 8 + g - t0 % g) % g

/-- WCK_ALIGN (R261). -/
def execWckAlign (t : Nat) (n : Nat) (s : State) : Out :=
  clocked t s (fun s => s.wickDo n 5 23 (fun s off => s.wickPark n .align (gridTick (s.wick n).next (s.fld Fld.WCK_SYNC_PERIOD 0) off)))

/-- ALIGN_GRID_TICK (R261). -/
def execAlignGridTick (t : Nat) (n : Nat) (s : State) : Out := clocked t s (fun s => s.wickWake n .align)

/-- Ticks after which a PPS wait ends without an edge (R262). -/
def ppsTimeout : Nat := 1171875000

/-- WCK_PPS (R262). -/
def execWckPps (t : Nat) (n : Nat) (s : State) : Out :=
  clocked t s (fun s =>
    if s.wickAt n 6 then
      if bitsOf 25 0 (s.wickWord n) = 0 then
        (s.wickPark n .pps ((s.wick n).next + ppsTimeout)).onWick n (fun x => { x with ppsFrom := (s.wick n).next })
      else s.wickFault n 1
    else s)

/-- A selected PPS edge ends the waits of PPS instructions: the next instruction issues on the first multiple of 8 at least 8 ticks later (R262). -/
def State.wickPps (s : State) (stamp : Nat) : State :=
  s.each (List.range s.lanes) (fun n s =>
    s.only ((s.wick n).wait = .pps && s.fld Fld.WCK_Ln_STAT_STATE n = wsWaiting) (fun s =>
      ((s.setWick n wsRunning).setFlag Fld.WCK_Ln_STAT_PPSMISS n false).onWick n (fun x => { x with wait := .none, next := up8 (stamp + 8) })))

/-- PPS_TIMEOUT (R262). -/
def execPpsTimeout (t : Nat) (n : Nat) (s : State) : Out :=
  clocked t s (fun s => s.only (n < s.lanes && (s.wick n).wait = .pps && (s.wick n).ppsFrom + ppsTimeout ≤ s.dev) (fun s =>
    ((s.wickWake n .pps).setFlag Fld.WCK_Ln_STAT_PPSMISS n true).faultAt 6 n (0x4010 + 0x200 * n) 0 3))

/-- WCK_LOOP: it takes no tick; a fifth nested LOOP is a fault (R257). -/
def execWckLoop (t : Nat) (n : Nat) (s : State) : Out :=
  clocked t s (fun s => s.wickDo n 7 15 (fun s k => s.beginLoop n k))

/-- WCK_ENDL (R257). -/
def execWckEndl (t : Nat) (n : Nat) (s : State) : Out :=
  clocked t s (fun s =>
    if s.wickAt n 8 then (if bitsOf 25 0 (s.wickWord n) = 0 then s.endLoop n else s.wickFault n 1) else s)

/-- WCK_JMP (R257). -/
def execWckJmp (t : Nat) (n : Nat) (s : State) : Out :=
  clocked t s (fun s => s.wickDo n 9 9 (fun s k => s.wickTick n k (fun s => s)))

/-- WCK_TRIG (R254, R263). -/
def execWckTrig (t : Nat) (n : Nat) (s : State) : Out :=
  clocked t s (fun s => s.wickDo n 10 2 (fun s k =>
    s.wickTick n (s.wickNextPc n) (fun s => s.onWick n (fun x => { x with trigs := x.trigs ++ [(x.next + 1024, k)] }))))

/-- A tone window from `start` on joins the last one ordered if it begins before that one's end (R260). -/
def addTone (ws : List (Nat × Nat)) (start len : Nat) : List (Nat × Nat) :=
  match ws.getLast? with
  | some (a, b) => if start < b then ws.dropLast ++ [(a, max b (start + len))] else ws ++ [(start, start + len)]
  | none => [(start, start + len)]

/-- WCK_TONE: LEN = 0 is ILLEGAL (R254, R256, R260). -/
def execWckTone (t : Nat) (n : Nat) (s : State) : Out :=
  clocked t s (fun s => s.wickDo n 11 15 (fun s k =>
    if k = 0 then s.wickFault n 1
    else s.wickTick n (s.wickNextPc n) (fun s => s.onWick n (fun x => { x with tone := addTone x.tone (x.next + 1024) k }))))

/-- WICK_UNDEFINED_OPERATION (R257). -/
def execWickUndefinedOperation (t : Nat) (n : Nat) (s : State) : Out :=
  clocked t s (fun s => s.only (n < s.lanes && s.fld Fld.WCK_Ln_STAT_STATE n = wsRunning && (s.wick n).next ≤ s.dev
    && 12 ≤ bitsOf 31 26 (s.wickWord n)) (fun s => s.wickFault n 1))

/-! ### Tones (R260) -/

/-- TONE_ON: the first window's action time has come. -/
def execToneOn (t : Nat) (n : Nat) (s : State) : Out :=
  ticking t s (fun s => match (s.wick n).tone with
    | (a, _) :: _ => s.only (n < s.lanes && a ≤ s.dev) (fun s => s.onWick n (fun x => { x with toneOn := true }))
    | [] => s)

/-- TONE_OFF: the window ends; its samples count toward the scale of both channels (R135, R260). -/
def execToneOff (t : Nat) (n : Nat) (s : State) : Out :=
  ticking t s (fun s => match (s.wick n).tone with
    | (a, b) :: rest => s.only (n < s.lanes && (s.wick n).toneOn && b ≤ s.dev) (fun s =>
        (s.onWick n (fun x => { x with tone := rest, toneOn := false })).each [2 * n, 2 * n + 1] (fun c s =>
          s.onHsc c (fun h => { h with toneN := h.toneN + (b - max a h.toneFrom) })))
    | [] => s)

/-! ### Triggers and captures (R263, R264, R351) -/

/-- The event descriptor of a trigger on Q(16 + n); one that is refused is dropped and counted (R349, R351). -/
def State.trigEvent (s : State) (n code outcome src action len base : Nat) (trunc : Bool) : State :=
  let img := mkInline 2 (1 + (if trunc then 2 ^ flTrunc else 0)) (leBytes 1 n ++ leBytes 1 code ++ leBytes 1 outcome ++ leBytes 1 src
    ++ leBytes 8 action ++ leBytes 4 len ++ leBytes 8 base)
  let r := s.devicePost (16 + n) (.wick n) img
  if r.2 then r.1 else r.1.count Fld.QUE_DROP_CNT 0 1

/-- A trigger's action time arrives (R263). -/
def State.triggerAction (s : State) (n action code : Nat) : State :=
  let src := s.fld Fld.WCK_Ln_CAP_SRC n
  let s1 := s.count Fld.WCK_TRIG_CNT n 1
  if (s.wick n).capture.isSome then s1.trigEvent n code 2 src action 0 0 false
  else if s.flag Fld.WCK_Ln_CAP_ARM n then
    let base := s.laneFld n Fld.WCK_CAPBASE_BASE * 2 ^ 20 + n * 2 ^ 26
    ((s1.setFlag Fld.WCK_Ln_CAP_ARM n false).setFlag Fld.WCK_Ln_STAT_CAPBUSY n true).onWick n (fun x =>
      { x with capture := some ⟨src, s.fld Fld.WCK_Ln_CAP_LEN n, code, action, base, s.flag Fld.HSC_FMT_ALIGN 0, s.flag Fld.HSC_FMT_SRC 0, []⟩ })
  else s1.trigEvent n code 0 src action 0 0 false

/-- TRIGGER_ACTION: the earliest trigger ordered (R254, R263). -/
def execTriggerAction (t : Nat) (n : Nat) (s : State) : Out :=
  clocked t s (fun s => match (s.wick n).trigs with
    | (a, c) :: rest => s.only (n < s.lanes && a ≤ s.dev) (fun s => (s.onWick n (fun x => { x with trigs := rest })).triggerAction n a c)
    | [] => s)

/-- A capture of a channel's samples, rather than of a path's outputs. -/
def Capture.ofSamples (c : Capture) : Bool := decide (c.src < 2)

/-- When a capture has its last word: two bytes a tick from the action time, or eight bytes every eight ticks from 48 ticks after it (R264). -/
def Capture.endsAt (c : Capture) : Nat := if c.ofSamples then c.action + 2048 * c.len else c.action + 48 + 4096 * c.len

/-- How many bytes the source of a capture has delivered by now (R264). -/
def State.captured (s : State) (c : Capture) : Nat := if c.ofSamples then min (4096 * c.len) (2 * (s.dev - c.action)) else 8 * c.words.length

/-- The bytes of a capture of lane `n` in the order of its buffer: the sample words of R121 from the raw codes of the slices that took them, in time order from the action time;
or the output words of the path (R122, R158, R264). -/
def State.captureBytes (s : State) (n : Nat) (c : Capture) (samples : List Int) : List Byte :=
  if c.ofSamples then
    ((List.range samples.length).zip samples).flatMap (fun e => leBytes 2 (s.captureWord (2 * n + c.src) (c.action + e.1) c.left c.raw e.2))
  else c.words.reverse.flatMap (fun w => leBytes 8 w)

/-- A capture ends with `len` units of 4 KiB written (R264, R351). -/
def State.captureEnd (s : State) (n : Nat) (c : Capture) (len : Nat) (samples : List Int) (trunc : Bool) : State :=
  let s1 := (s.dramWrite 4 false c.base ((s.captureBytes n c samples).take (4096 * len))).setFlag Fld.WCK_Ln_STAT_CAPBUSY n false
  (s1.onWick n (fun x => { x with capture := none })).trigEvent n c.code 1 c.src c.action len c.base trunc

/-- The samples given fill `len` units, or the source is a path, whose outputs are already there. -/
def Capture.fed (c : Capture) (len : Nat) (samples : List Int) : Bool := if c.ofSamples then decide (samples.length = 2048 * len) else true

/-- CAPTURE_END: the source has delivered LEN × 4 KiB; `samples` are the raw codes of the channel's samples (R264). -/
def execCaptureEnd (t : Nat) (n : Nat) (samples : List Int) (s : State) : Out :=
  clocked t s (fun s => match (s.wick n).capture with
    | some c => s.only (n < s.lanes && c.endsAt ≤ s.dev && s.captured c = 4096 * c.len && c.fed c.len samples) (fun s => s.captureEnd n c c.len samples false)
    | none => s)

/-- CAPTURE_TRUNCATE: after `len` units of 4 KiB the writes are more than 64 KiB behind the source (R264). -/
def execCaptureTruncate (t : Nat) (n len : Nat) (samples : List Int) (s : State) : Out :=
  clocked t s (fun s => match (s.wick n).capture with
    | some c => s.only (n < s.lanes && 4096 * len + 65536 < s.captured c && c.fed len samples) (fun s => s.captureEnd n c len samples true)
    | none => s)

end Sys2Proof.Machine
end

