-- ==== Sys2Proof/Machine/AuxMeasure.lean ====
section
/-!
DEFINITION. Auxiliary measurement: connecting a source, conversion windows, results and tags, the regular sequence and injections, lead checks, LINESYNC and the
self-calibration (spec 11_auxiliary_measurement, R271 to R300; the anchors of R184 and the mains frequency of R413).
Points that the spec leaves open or that are read from it by inference: DESIGN CHOICE 32, 33 of the assumption log.
-/

namespace Sys2Proof.Machine

/-- A change of what AUX remembers beside its registers. -/
def State.onAux (s : State) (f : Aux → Aux) : State := { s with aux := f s.aux }

/-- The device time `k` PCLK from a moment. -/
def afterPclk (t k : Nat) : Nat := t + pclk * k

/-! ### Channels (R271 to R277) -/

/-- Source 16, the tone current (R281). -/
def auxItone : Nat := 16

/-- The mode of a source; ITONE is measured as VDIFF (R271, R281). -/
def State.auxMode (s : State) (src : Nat) : Nat := if src = auxItone then 1 else s.fld Fld.AUX_Cn_CFG_MODE src

/-- The range of a source's conversions (R281, R299). -/
def State.auxRange (s : State) (src : Nat) : Nat := if src = auxItone then 3 else s.fld Fld.AUX_Cn_CFG_RANGE src

/-- A source's period in PCLK (R272, R281). -/
def State.auxPeriod (s : State) (src : Nat) : Nat :=
  if src ≠ auxItone ∧ 3 ≤ s.auxMode src then 32768 * 2 ^ s.fld Fld.AUX_Cn_CFG_EXCDIV src else 65536

/-- The discharge D of a source in PCLK (R275, R281). -/
def State.auxDischarge (s : State) (src : Nat) : Nat :=
  ((if src = auxItone then 50 else s.fld Fld.AUX_Cn_MUX_DISCH src) * 3125 + 31) / 32

/-- The settle time S of a source in PCLK (R275, R281). -/
def State.auxSettle (s : State) (src : Nat) : Nat :=
  (if src = auxItone then 4 else s.fld Fld.AUX_Cn_CFG_SETTLE src) * s.auxPeriod src

/-- The mains period of the fallback, in PCLK (R277). -/
def mainsPclk (is60 : Bool) : Nat := if is60 then 1627604 else 1953125

/-- T for a window that opens now, in PCLK (R276, R277). -/
def State.auxT (s : State) : Nat :=
  match s.fld Fld.AUX_MAINS_MODE 0 with
  | 0 => mainsPclk false
  | 1 => mainsPclk true
  | _ => if s.flag Fld.AUX_STAT_LSLOST 0 || s.fld Fld.AUX_LINEPER_PER 0 = 0 then mainsPclk (s.flag Fld.AUX_MAINS_FALLBACK 0) else s.fld Fld.AUX_LINEPER_PER 0

/-- A word of AUX_CALF by offset / 4; words that no calibration and no expert write has changed are the factory ones (R295, R300). -/
def State.calfWord (s : State) (k : Nat) : Word := sget (Config.auxFactory k) s.aux.calf k

/-- A word of AUX_CALF changed. -/
def State.setCalf (s : State) (k : Nat) (w : Word) : State :=
  s.onAux (fun x => { x with calf := sinsert k w (x.calf.filter (fun e => e.1 ≠ k)) })

/-- The index of a factor: converter `c`, range `r`, word `k` (R300). -/
def calfIdx (c r k : Nat) : Nat := 16 * c + 4 * r + k

/-! ### Windows (R276, R283, R284) -/

/-- AUX may convert: enabled, and the reference buffer is ready or COLD_OK is set (R283, R297). -/
def State.auxReady (s : State) : Bool := s.flag Fld.AUX_STAT_REFREADY 0 || s.flag Fld.AUX_XREF_COLD_OK 0

/-- Windows whose opening time has come open, each with the T and the factors in force; none opens while AUX may not convert. -/
def State.auxOpen (s : State) : Nat → State
  | 0 => s
  | fuel + 1 =>
    match s.aux.nextOpen with
    | none => s
    | some t0 =>
      if s.dev < t0 || !s.auxReady then s
      else
        let cal := decide (s.aux.stage = .cal)
        let len := pclk * s.auxT
        let src := (s.aux.job.map (·.src)).getD auxItone
        let conv := s.aux.opened % 2
        let r := s.auxRange src
        let w : AuxWin := ⟨t0, len, !s.flag Fld.AUX_STAT_REFREADY 0, s.calfWord (calfIdx conv r 0), s.calfWord (calfIdx conv r 1)⟩
        let n := s.aux.opened + 1
        let more := !cal && decide (n < (s.aux.job.map (·.nwin)).getD 1)
        let flt := if src < 16 then
            (if s.flag Fld.AUX_Cn_FAULT_OPEN src || s.flag Fld.AUX_Cn_FAULT_ILIM src then 16 else 0)
              ||| (if s.flag Fld.AUX_Cn_FAULT_CM_SNS src || s.flag Fld.AUX_Cn_FAULT_CM_IN src then 32 else 0) else 0
        (s.onAux (fun x => { x with wins := x.wins ++ [w], opened := n, faults := x.faults ||| flt, cold := x.cold || w.cold,
                                    vref := s.fld Fld.AUX_VREFX_UV_UV 0, rref := s.fld Fld.AUX_RREFX_MOHM_MOHM 0,
                                    nextOpen := if more then some (t0 + pclk * ((len / pclk + 1) / 2)) else none })).auxOpen fuel

/-- Every window due by now opens (at most 16 in a conversion). -/
def State.auxAdvance (s : State) : State := s.auxOpen 16

/-- A window that had to wait for REFREADY opens now (R283; assumption 32). -/
def State.auxLate (s : State) (old : State) : State :=
  if !old.auxReady && s.auxReady then (s.onAux (fun x => { x with nextOpen := x.nextOpen.map (max s.dev) })).auxAdvance else s

/-- Windows, codes and gathered tags of an attempt are discarded. -/
def Aux.noWindows (x : Aux) : Aux := { x with nextOpen := none, opened := 0, wins := [], codes := [], faults := 0, cold := false }

/-- The tag of the injected value shown gains bits where the value is of source `src` (R286). -/
def Aux.tagInj (x : Aux) (src bits : Nat) : Aux :=
  if x.injSince.isSome && decide (x.injTag / 2 ^ 16 = src) then { x with injTag := x.injTag ||| bits } else x

/-- A source's tag gains bits, and with it the tag of an injected value of that source; ITONE's tag is the one HSC judges (R135, R286). -/
def State.auxTag (s : State) (src bits : Nat) : State :=
  let v := (s.aux.src.getD src ⟨0, 0, 0, 0⟩)
  let s1 := s.onAux (fun x => { x with src := x.src.setIfInBounds src { v with tag := v.tag ||| bits } }.tagInj src bits)
  if src = auxItone then { s1 with hsc := { s1.hsc with itoneTag := s1.hsc.itoneTag ||| bits } } else s1

/-! ### What AUX does next (R278 to R283, R291, R294) -/

/-- The connected source shown by AUX_STAT.SRC; 31 is none. -/
def State.auxShow (s : State) (src : Nat) : State := s.setFld Fld.AUX_STAT_SRC 0 src

/-- The source is disconnected; nothing is connected and no excitation runs. -/
def State.auxOff (s : State) : State :=
  ((((s.onAux (fun x => { x.noWindows with stage := .idle, job := none, serving := none, spoiled := false })).auxShow 31).setFlag
    Fld.AUX_STAT_SEQRUN 0 false).setFlag Fld.AUX_STAT_INJBUSY 0 false).setFlag Fld.AUX_STAT_PROTECT 0 false

/-- A conversion's connection starts (R275, step 1). -/
def State.auxStart (s : State) (j : AuxJob) (t0 : Nat) : State :=
  ((((s.onAux (fun x => { x.noWindows with stage := .off, job := some j, due := afterPclk t0 196, spoiled := false })).auxShow 31).setFlag
    Fld.AUX_STAT_SEQRUN 0 (!j.inj)).setFlag Fld.AUX_STAT_INJBUSY 0 j.inj).setFlag Fld.AUX_STAT_PROTECT 0 (!j.inj && decide (3 ≤ s.aux.aborts))

/-- The entry's word: SRC, windows and SKIP (R300). -/
def State.seqEntry (s : State) (k : Nat) : Nat × Nat × Bool :=
  let w := sget (0 : Word) s.aux.seq k
  (bitsOf 4 0 w, bitsOf 11 8 w + 1, bitsOf 16 16 w = 1)

/-- The entry takes time: not skipped, and its channel is not OFF (R278). -/
def State.entryRuns (s : State) (k : Nat) : Bool := !(s.seqEntry k).2.2 && decide (s.auxMode (s.seqEntry k).1 ≠ 0)

/-- The sequence stops; RUN is cleared (R278). -/
def State.seqEnd (s : State) : State :=
  let a := Fld.AUX_SEQ_RUN.addr
  (s.onAux (fun x => { x with seqOn := false, aborts := 0 })).setLive a (withBits 8 8 (s.live a) 0) |>.setStaged a (withBits 8 8 (s.staged a) 0)

/-- The first entry from `k` on that takes time, within one pass of the list; the second value says that the pass went over the end (R278). -/
def State.findEntry (s : State) (len : Nat) : Nat → Nat → Bool → Option (Nat × Bool)
  | 0, _, _ => none
  | n + 1, k, over_ =>
    if len ≤ k then s.findEntry len n 0 true
    else if s.entryRuns k then some (k, over_) else s.findEntry len n (k + 1) over_

/-- The regular sequence goes on at entry `k` from time `t0`, or stops at its end (R278, R290). -/
def State.seqGo (s : State) (k t0 : Nat) : State :=
  let len := s.fld Fld.AUX_SEQ_LEN 0
  match s.findEntry len (len + 1) k false with
  | some (e, wrapped) =>
    if wrapped && !s.flag Fld.AUX_SEQ_CONT 0 then s.seqEnd
    else
      let x := s.seqEntry e
      ((s.onAux (fun a => { a with seqLen := len, over_ := false, aborts := if e = s.fld Fld.AUX_STAT_ENTRY 0 then a.aborts else 0 })).setFld Fld.AUX_STAT_ENTRY 0 e).auxStart ⟨x.1, false, x.2.1⟩ t0
  | none => if s.flag Fld.AUX_SEQ_CONT 0 then s else s.seqEnd

/-- An injected result reaches AUX_INJ_RESULT, AUX_INJ_TAG and every PHX lane it serves; the lanes see STALE unless it is an RTD result (R279, R282). -/
def State.injDeliver (s : State) (q : AuxReq) (val : Int) (tag : Nat) (ohms : Rat) : State :=
  let rtd := decide (s.auxMode q.src = 4) && !q.off
  let s1 := s.onAux (fun x => { x with injVal := val, injTag := tag % 2 ^ 16 + q.src * 2 ^ 16, injSince := some s.dev })
  s1.each (List.range 8) (fun n s => s.only (bit q.lanes n) (fun s => s.anchorResult n (if rtd then tag else tag ||| 4) ohms))

/-- A request for an OFF channel completes in its turn: the channel's last result, tagged STALE; nothing is connected (R282). -/
def State.injOff (s : State) (q : AuxReq) : State :=
  let v := s.aux.src.getD q.src ⟨0, 0, 0, 0⟩
  s.injDeliver { q with off := true } v.val (v.tag ||| 4) 0

/-- A calibration starts at `t0`: its first window opens after 2,048 PCLK (R291). -/
def State.calStart (s : State) (t0 : Nat) : State :=
  let s1 := s.auxOff.onAux (fun x => { x with stage := .cal, calWait := false, calCodes := [], nextOpen := some (afterPclk t0 2048), calTemp := s.fld Fld.SYS_TEMP_T3 0 })
  ((s1.setFlag Fld.AUX_STAT_CALBUSY 0 true).setFld Fld.AUX_CAL_STAT_STATE 0 2).setFld Fld.AUX_STAT_TCAL 0 (s.fld Fld.SYS_TEMP_T3 0)

/-- Work waits for REFREADY (R283). -/
def State.refWait (s : State) : State :=
  s.setFlag Fld.AUX_STAT_REFWAIT 0 (s.flag Fld.AUX_CTRL_EN 0 && !s.flag Fld.AUX_STAT_REFREADY 0
    && (s.aux.calWait || (!s.auxReady && (s.aux.seqOn || !s.aux.pend.isEmpty || decide (s.aux.stage ≠ .idle)))))

/-- With nothing in progress AUX takes up what waits: injections that a calibration waits for, the calibration, other injections, then the regular
sequence from entry `k` (R278 to R283, R294). -/
def State.auxNext (s : State) (k t0 : Nat) : Nat → State
  | 0 => s
  | fuel + 1 =>
    if s.aux.stage ≠ .idle ∨ !s.flag Fld.AUX_CTRL_EN 0 then s
    else
      let q := if s.aux.calWait then s.aux.pend.find? (·.precal) else s.aux.pend.head?
      match q with
      | some q =>
        if !s.auxReady then s
        else
          let s1 := s.onAux (fun x => { x with pend := x.pend.filter (fun p => p.src ≠ q.src) })
          if q.off || decide (s.auxMode q.src = 0) then (s1.injOff q).auxNext k t0 fuel
          else (s1.auxStart ⟨q.src, true, s.fld Fld.AUX_SEQ_INJNRES 0 + 1⟩ t0).onAux (fun x => { x with serving := some q })
      | none =>
        if s.aux.calWait then (if s.flag Fld.AUX_STAT_REFREADY 0 then s.calStart t0 else s)
        else if s.aux.seqOn && s.auxReady then s.seqGo k t0 else s

/-- The entry after the present one: past the end, 0 where CONT is set or LEN has become smaller meanwhile, else the end itself (R278, R290). -/
def State.seqAfter (s : State) : Nat :=
  let k := s.fld Fld.AUX_STAT_ENTRY 0 + 1
  let len := s.fld Fld.AUX_SEQ_LEN 0
  if k < len then k else if s.flag Fld.AUX_SEQ_CONT 0 || decide (len < s.aux.seqLen) then 0 else len

/-- The entry that the sequence goes on at: the one after a completed entry, else the present one, 0 where a smaller LEN has cut it off (R278, R290). -/
def State.seqHere (s : State) : Nat :=
  if s.aux.over_ then s.seqAfter else if s.fld Fld.AUX_STAT_ENTRY 0 < s.fld Fld.AUX_SEQ_LEN 0 then s.fld Fld.AUX_STAT_ENTRY 0 else 0

/-- AUX takes up its next work now. -/
def State.auxResume (s : State) : State := (s.auxNext s.seqHere s.dev 40).refWait

/-- The running regular entry is aborted; its channel's result is unchanged (R279, R294). -/
def State.entryAbort (s : State) : State :=
  (s.auxOff.onAux (fun x => { x with aborts := x.aborts + 1 })).count Fld.AUX_ABORT_CNT 0 1

/-- The conversion in progress is regular. -/
def State.regularRuns (s : State) : Bool := match s.aux.job with
  | some j => !j.inj
  | none => false

/-- An injected conversion is requested for a source, for the PHX lanes of a mask; it merges with a pending one, and aborts a regular entry that is not
protected. One for an OFF channel aborts nothing: beside such an entry with nothing pending its turn is now (R279, R280, R282). -/
def State.auxRequest (s : State) (src lanes : Nat) : State :=
  let s := s.auxAdvance
  let off := decide (s.auxMode src = 0)
  if s.aux.pend.any (fun p => p.src = src) then
    s.onAux (fun x => { x with pend := x.pend.map (fun p => if p.src = src then { p with lanes := p.lanes ||| lanes } else p) })
  else if off && s.regularRuns && s.aux.pend.isEmpty && decide (s.aux.aborts < 3) then s.injOff ⟨src, lanes, true, false⟩
  else
    let s1 := s.onAux (fun x => { x with pend := x.pend ++ [⟨src, lanes, off, false⟩] })
    let s2 := if s1.regularRuns && !off && decide (s1.aux.aborts < 3) then s1.entryAbort else s1
    s2.auxResume

/-! ### Starting and stopping (R278, R283) -/

/-- The regular sequence starts at entry 0 (R278). -/
def State.seqStart (s : State) : State :=
  if s.aux.seqOn then s
  else
    let s1 := (s.onAux (fun x => { x with seqOn := true, aborts := 0, over_ := false })).setFld Fld.AUX_STAT_ENTRY 0 0
    if s1.aux.stage = .idle then (s1.auxNext 0 s.dev 40).refWait else s1.refWait

/-- The running entry ends at once, its windows are discarded and the source is disconnected (R278). -/
def State.seqStop (s : State) : State :=
  let s1 := s.onAux (fun x => { x with seqOn := false, aborts := 0 })
  if s1.regularRuns then s1.auxOff.auxResume else s1.refWait

/-- AUX_SEQ.RUN, staged and in force. -/
def State.putSeqRun (s : State) (on : Bool) : State :=
  let a := Fld.AUX_SEQ_RUN.addr
  let w := withBits 8 8 (s.live a) (b2n on)
  ((s.setStaged a (withBits 8 8 (s.staged a) (b2n on))).setLive a w).setPend a w

/-- SEQ_START: RUN becomes set in force (R278). -/
def execSeqStart (t : Nat) (s : State) : Out := clocked t s (fun s => (s.putSeqRun true).seqStart)

/-- SEQ_STOP: RUN becomes clear in force (R278). -/
def execSeqStop (t : Nat) (s : State) : Out := clocked t s (fun s => (s.putSeqRun false).auxAdvance.seqStop)

/-- A write of AUX_INJ: REQ requests a conversion of SRC (R279). -/
def State.injWrite (s : State) (src : Source) (val : Word) : State :=
  let k := bitsOf 4 0 val
  if auxItone < k then s.clamp src Fld.AUX_INJ_SRC.addr val 0 rsEnum 0 4
  else if bitsOf 16 16 val = 1 then s.auxRequest k 0 else s

/-- INJECT_REQUEST (R279). -/
def execInjectRequest (t : Nat) (src : Source) (k : Nat) (s : State) : Out :=
  clocked t s (fun s =>
    let v := BitVec.ofNat 32 (k % 32 + 2 ^ 16)
    s.pastLocks src Fld.AUX_INJ_SRC.addr v (fun s => s.injWrite src v))

/-- The reference buffer is ready: waiting work proceeds (R283). -/
def State.refReady (s : State) : State :=
  match s.aux.refDue with
  | some d =>
    if s.dev < d then s
    else
      let s0 := s.auxAdvance
      let s1 := (s0.onAux (fun x => { x with refDue := none })).setFlag Fld.AUX_STAT_REFREADY 0 true
      (s1.auxLate s0).auxResume
  | none => s

/-- REF_READY (R283). -/
def execRefReady (t : Nat) (s : State) : Out := clocked t s State.refReady

/-- The conversion or calibration in progress ends because REFREADY clears: windows are discarded and the channel's result is STALE. An injection waits again,
and a calibration starts again from its first step (R283). -/
def State.auxBreak (s : State) : State :=
  match s.aux.stage with
  | .idle => s
  | .cal => ((s.auxOff.onAux (fun x => { x with calWait := true })).setFlag Fld.AUX_STAT_CALBUSY 0 false).setFld Fld.AUX_CAL_STAT_STATE 0 1
  | _ =>
    let back := match s.aux.serving with
      | some q => [q]
      | none => []
    let s1 := match s.aux.job with
      | some j => s.auxTag j.src (if s.aux.spoiled then 12 else 4)
      | none => s
    s1.auxOff.onAux (fun x => { x with pend := back ++ x.pend })

/-! ### Calibration command (R291, R294, R295) -/

/-- A calibration is commanded, with its cause: 1 command, 2 temperature (R291, R294). -/
def State.calCommand (s : State) (cause : Nat) : State :=
  if s.aux.stage = .cal ∨ s.aux.calWait then s
  else
    let s := s.auxAdvance
    let inj := match s.aux.job with
      | some j => j.inj
      | none => false
    let s1 := s.onAux (fun x =>
      { x with calWait := true, pend := x.pend.map (fun p => { p with precal := true }), serving := x.serving.map (fun p => { p with precal := true }) })
    let s2 := ((s1.setFld Fld.AUX_CAL_STAT_STATE 0 1).setFld Fld.AUX_CAL_STAT_CAUSE 0 cause)
    if inj then s2.refWait else (if s2.regularRuns then s2.entryAbort else s2).auxResume

/-- AUX_CALIBRATE: a write of 1 to AUX_CALCMD.START (R291). -/
def execAuxCalibrate (t : Nat) (src : Source) (s : State) : Out :=
  clocked t s (fun s => s.pastLocks src Fld.AUX_CALCMD_START.addr 1 (fun s => s.calCommand 1))

/-- The die temperature beside AUX, °C with offset 64, compared with TCAL by Hearth (R295); while Hearth restarts the duty is deferred (R36). -/
def State.auxTemp (s : State) (temp : Nat) : State :=
  let s1 := s.setFld Fld.SYS_TEMP_T3 0 temp
  if s1.flag Fld.AUX_CAL_DT_AUTO 0 && apart temp (s1.fld Fld.AUX_STAT_TCAL 0) (s1.fld Fld.AUX_CAL_DT_DT 0) then
    if s1.sys.hearth then s1.calCommand 2
    else if s1.sys.deferred.any (fun d => d.1 = 2) then s1
    else { s1 with sys := { s1.sys with deferred := s1.sys.deferred ++ [(2, 0)] } }
  else s1

/-- AUX_TEMP_CHECK (R295): every 100 ms while the calibration schedule runs. -/
def execAuxTempCheck (t : Nat) (temp : Nat) (s : State) : Out :=
  clocked t s (fun s => s.only (s.flag Fld.SYS_CTRL_RUN 0) (fun s => s.auxTemp temp))

/-! ### Steps of a connection (R275) -/

/-- A stage of the connection is over: the next one and its length in PCLK from the end of this one. -/
def State.auxStep (s : State) (st nxt : AuxStage) (len : State → AuxJob → Nat) (f : State → AuxJob → State) : State :=
  match s.aux.job with
  | some j =>
    if s.aux.stage = st ∧ s.aux.due ≤ s.dev then f (s.onAux (fun x => { x with stage := nxt, due := afterPclk x.due (len s j) })) j else s
  | none => s

/-- DISCHARGE_START (R275). -/
def execDischargeStart (t : Nat) (s : State) : Out :=
  clocked t s (fun s => s.auxStep .off .discharge (fun s j => s.auxDischarge j.src) (fun s _ => s))

/-- DISCHARGE_END (R275). -/
def execDischargeEnd (t : Nat) (s : State) : Out :=
  clocked t s (fun s => s.auxStep .discharge .gap (fun _ _ => 196) (fun s _ => s))

/-- SETTLE_END: the first window opens (R275, R276). -/
def execSettleEnd (t : Nat) (s : State) : Out :=
  clocked t s (fun s => s.auxStep .settle .convert (fun _ _ => 0) (fun s' _ => (s'.onAux (fun x => { x with nextOpen := some s.aux.due, opened := 0 })).auxAdvance))

/-! ### Window ends and results (R276, R284 to R286) -/

/-- The corrected code of a window (R284): the factors are OFFSET in Q24.8 and GAIN in Q2.30. -/
def auxCode (w : AuxWin) (raw : Int) : Rat :=
  ((raw : Rat) - (signed 32 w.off.toNat : Rat) / 256) * 2 ^ 30 / w.gain.toNat

/-- WINDOW_END: the oldest open window of a conversion ends with the raw code of its converter (R276, R284). A gain of zero, which only expert software can
store, gives a code that the spec does not state. -/
def State.windowEnd (s0 : State) (raw : Int) : State :=
  let s := s0.auxAdvance
  match s.aux.stage, s.aux.wins with
  | .convert, w :: rest =>
    if s.dev < w.start + w.len then s
    else
      let code := if w.gain = 0 then signed 24 (s.freeVal (2 ^ 24)) else roundEven (auxCode w raw)
      let n := (s.aux.job.map (·.nwin)).getD 1
      let last := decide (rest = []) && decide (s.aux.opened = n)
      ((s.onAux (fun x => { x with wins := rest, codes := x.codes ++ [code], stage := if last then .write else .convert,
                                   due := if last then afterPclk (w.start + w.len) 64 else x.due })).count Fld.AUX_WIN_CNT 0 1).drawn
  | _, _ => s

/-- WINDOW_END (R276). -/
def execWindowEnd (t : Nat) (raw : Int) (s : State) : Out := clocked t s (fun s => s.windowEnd raw)

/-- The mean of the corrected codes, rounded half to even, with whether it saturates (R284). -/
def auxMean (vse : Bool) (codes : List Int) : Int × Bool :=
  let m := roundEven ((codes.sum : Rat) / codes.length)
  let lo : Int := if vse then 0 else -8388607
  let hi : Int := if vse then 16777215 else 8388607
  (max lo (min hi m), decide (m < lo) || decide (hi < m))

/-- I_TONE in pA from a result: V / R_REFX with the declared values (R281, R284). -/
def State.tonePa (s : State) (v : Int) : Rat :=
  (v : Rat) * s.aux.vref * 10 ^ 9 / (512 * 2 ^ 23 * s.aux.rref)

/-- A resistance in ohms from a result (R284). -/
def State.rtdOhms (s : State) (src : Nat) (v : Int) : Rat :=
  (v : Rat) * s.aux.rref / (1000 * 8 ^ s.auxRange src * 2 ^ 23)

/-- The result and tag of the attempt are written and delivered (R276, R279, R281, R286). -/
def State.resultPut (s : State) (j : AuxJob) : State :=
  let m := auxMean (s.auxMode j.src = 2) s.aux.codes
  let pre := match s.aux.serving with
    | some q => q.precal
    | none => false
  let tag := s.auxRange j.src + s.aux.faults % 64 / 16 * 16 + 64 * b2n s.aux.cold + 128 * b2n pre + 256 * b2n m.2
    + 512 * s.fld Fld.AUX_CAL_STAT_FACTORY 0 + 4096 * (s.aux.codes.length % 16)
  let old := s.aux.src.getD j.src ⟨0, 0, 0, 0⟩
  let s1 := s.onAux (fun x => { x with src := x.src.setIfInBounds j.src ⟨m.1, tag, old.cnt + 1, s.dev⟩ })
  let s2 := if j.src = auxItone then
      ({ s1 with hsc := { s1.hsc with itoneTag := tag } }.setFld Fld.AUX_ITONE_PA 0 (wrapInt 24 (s1.openRound (s.tonePa m.1)))).drawn
    else s1
  match s.aux.serving with
  | some q => (s2.injDeliver q m.1 tag (s.rtdOhms j.src m.1)).count Fld.AUX_INJ_CNT 0 1
  | none => s2

/-- A conversion is over and its source is disconnected at `t0`; after a regular entry the sequence moves on, once the requests that waited for it are served
(R278 to R280). -/
def State.auxOver (s : State) (j : AuxJob) (t0 : Nat) : State :=
  let s1 := if j.inj then s.auxOff else s.auxOff.onAux (fun x => { x with aborts := 0, over_ := true })
  (s1.auxNext s1.seqHere t0 40).refWait

/-- An attempt at a channel that is OFF when it would be connected ends there, with nothing connected; an injection completes as one for an OFF channel
(R278, R282, R290). -/
def State.connectOff (s : State) (j : AuxJob) : State :=
  match s.aux.serving with
  | some q => (s.injOff q).auxOver j s.dev
  | none => s.auxOver j s.dev

/-- SOURCE_CONNECT: the source is connected, its excitation starts and the settle count starts (R275). -/
def execSourceConnect (t : Nat) (s : State) : Out :=
  clocked t s (fun s => s.auxStep .gap .settle (fun s j => s.auxSettle j.src) (fun s' j =>
    if s.auxMode j.src = 0 then s'.connectOff j else (s'.auxShow j.src).onAux (fun x => { x with conn := s.aux.due })))

/-- RESULT_WRITE (R276). -/
def execResultWrite (t : Nat) (s : State) : Out :=
  clocked t s (fun s => match s.aux.job with
    | some j => s.only (s.aux.stage = .write && s.aux.due ≤ s.dev) (fun s' => (s'.resultPut j).auxOver j s.aux.due)
    | none => s)

/-! ### Lead checks (R288, R289) -/

/-- One evaluation of one check, by fault bit 0 OPEN, 1 ILIM, 2 CM_SNS, 3 CM_IN: declared at the first failing one, cleared after 16 passing (R289). -/
def State.leadOne (s : State) (c : Nat) (b : Nat) (fails : Bool) : State :=
  let f : Fld := { Fld.AUX_Cn_FAULT_OPEN with hi := b, lo := b }
  let key := 4 * c + b
  let n := if fails then 0 else sget 0 s.aux.pass key + 1
  let s1 := s.onAux (fun x => { x with pass := sput 0 x.pass key (min n 16) })
  if fails && !s.flag f c then
    let s2 := ((s1.setFlag f c true).setFld Fld.AUX_Cn_FAULT_DECL c (min 255 (s.fld Fld.AUX_Cn_FAULT_DECL c + 1))).count Fld.AUX_LFLT_CNT 0 1
    let s3 := if s2.aux.wins.isEmpty then s2 else s2.onAux (fun x => { x with faults := x.faults ||| (if b < 2 then 16 else 32) })
    s3.faultAt 8 c (0x4014 + 0x200 * c) 0 1
  else if s.flag f c && decide (16 ≤ n) then ((s1.setFlag f c false).count Fld.AUX_LFLT_CNT 0 1).faultAt 8 c (0x4014 + 0x200 * c) 0 2
  else s1

/-- The checks of the connected channel: `amp` is the demodulated SNS or RREFX amplitude in µV, `limit` says that the current limit acts, and `sns` and `inp`
are the means of the SNS pins and of the used IN pins in µV (R288). -/
def State.leadCheck (s0 : State) (amp : Nat) (limit : Bool) (sns inp : List Nat) : State :=
  let s := s0.auxAdvance
  match s.aux.job with
  | none => s
  | some j =>
    let c := j.src
    let connected := decide (s.aux.stage = .settle) || decide (s.aux.stage = .convert) || decide (s.aux.stage = .write)
    let p := pclk * s.auxPeriod c
    if c = auxItone || !connected || decide (s.dev < s.aux.conn + p) || decide ((s.dev - s.aux.conn) % (p / 4) ≠ 0) then s
    else
      let mode := s.auxMode c
      let lo := 10000 * s.fld Fld.AUX_Cn_CMWIN_LO c
      let hi := 10000 * s.fld Fld.AUX_Cn_CMWIN_HI c
      let outside (vs : List Nat) : Bool := s.flag Fld.AUX_Cn_CFG_CMEN c && vs.any (fun v => decide (v < lo) || decide (hi < v))
      let weak := s.flag Fld.AUX_Cn_CFG_SXEN c && decide (100 * amp < s.fld Fld.AUX_Cn_CMWIN_SXLO c * 10000 * s.fld Fld.AUX_Cn_CFG_EXCAMP c)
      let s1 := if 3 ≤ mode then (s.leadOne c 0 weak).leadOne c 1 limit else s
      let s2 := if mode = 3 then s1.leadOne c 2 (outside sns) else s1
      s2.leadOne c 3 (outside inp)

/-- LEAD_CHECK (R288). -/
def execLeadCheck (t : Nat) (amp : Nat) (limit : Bool) (sns inp : List Nat) (s : State) : Out :=
  clocked t s (fun s => s.leadCheck amp limit sns inp)

/-! ### LINESYNC (R277, R413) -/

/-- The mains frequency of an accepted period, and FREQFLT after ten periods outside or inside the window (R413). -/
def State.mainsFreq (s : State) (per : Nat) : State :=
  let mhz := (roundNear (97656250000 / (per : Rat))).toNat
  let s1 := s.setFld Fld.PWR_MAINS_FREQ 0 mhz
  let nom := if s.flag Fld.AUX_MAINS_FALLBACK 0 then 60000 else 50000
  let bad := apart mhz nom (s.fld Fld.PWR_FREQWIN_WIN 0)
  let s2 := { s1 with pwr := { s1.pwr with freqBad := if bad then s.pwr.freqBad + 1 else 0, freqGood := if bad then 0 else s.pwr.freqGood + 1 } }
  if bad && decide (10 ≤ s2.pwr.freqBad) && !s.flag Fld.PWR_STAT_FREQFLT 0 then (s2.setFlag Fld.PWR_STAT_FREQFLT 0 true).faultAt 13 0xFF 0x200 0 1
  else if !bad && decide (10 ≤ s2.pwr.freqGood) && s.flag Fld.PWR_STAT_FREQFLT 0 then (s2.setFlag Fld.PWR_STAT_FREQFLT 0 false).faultAt 13 0xFF 0x200 0 2
  else s2

/-- An edge of LINESYNC: a period in range is accepted (R277). -/
def State.lineEdge (s0 : State) (rising : Bool) : State :=
  let s := s0.auxAdvance
  if s.fld Fld.AUX_MAINS_MODE 0 ≠ 2 || rising = s.flag Fld.AUX_MAINS_EDGE 0 then s
  else
    let s1 := s.onAux (fun x => { x with lineEdge := some s.dev })
    match s.aux.lineEdge with
    | none => s1
    | some e =>
      let per := (s.dev - e) / pclk
      if per < 1395089 ∨ 2441406 < per then s1.onAux (fun x => { x with lineGood := 0 })
      else
        let s2 := (s1.onAux (fun x => { x with lineGood := x.lineGood + 1, lineAt := s.dev })).setFld Fld.AUX_LINEPER_PER 0 per
        let s3 := if s2.flag Fld.AUX_STAT_LSLOST 0 && decide (2 ≤ s2.aux.lineGood) then (s2.setFlag Fld.AUX_STAT_LSLOST 0 false).faultAt 8 0xFF 0x200 0 2 else s2
        s3.mainsFreq per

/-- LINESYNC_EDGE (R277). -/
def execLinesyncEdge (t : Nat) (rising : Bool) (s : State) : Out := clocked t s (fun s => s.lineEdge rising)

/-- LINESYNC_LOST (R277). -/
def execLinesyncLost (t : Nat) (s : State) : Out :=
  clocked t s (fun s => s.only (s.fld Fld.AUX_MAINS_MODE 0 = 2 && !s.flag Fld.AUX_STAT_LSLOST 0 && s.aux.lineAt + 4882813 * pclk ≤ s.dev) (fun s =>
    ((s.auxAdvance.onAux (fun x => { x with lineGood := 0 })).setFlag Fld.AUX_STAT_LSLOST 0 true).faultAt 8 0xFF 0x200 0 1))

/-! ### Self-calibration (R291 to R294) -/

/-- The codes of one converter by step (R291). -/
def stepCode (codes : List (Int × Int)) (c i : Nat) : Rat :=
  let e := codes.getD i (0, 0)
  ((if c = 0 then e.1 else e.2 : Int) : Rat)

/-- The offset of a range (R292). -/
def calOff (codes : List (Int × Int)) (c r : Nat) : Rat :=
  if r = 3 then (stepCode codes c 12 + stepCode codes c 15) / 2 else stepCode codes c (4 * r)

/-- V_r in µV and the gain of range r, for r = 0 upward (R292). -/
def calChain (codes : List (Int × Int)) (c : Nat) (vref : Rat) : Nat → Rat × Rat
  | 0 => (vref, (stepCode codes c 1 - stepCode codes c 2) / 2 ^ 24)
  | r + 1 =>
    let p := calChain codes c vref r
    let v := vref / 8 ^ r * (stepCode codes c (4 * r + 3) - calOff codes c r) / (2 ^ 23 * p.2)
    (v, (stepCode codes c (4 * r + 5) - stepCode codes c (4 * r + 6)) * vref / 8 ^ (r + 1) / (2 ^ 24 * v))

/-- N_r (R292). -/
def calNon (codes : List (Int × Int)) (c r : Nat) : Rat := (stepCode codes c (4 * r + 1) + stepCode codes c (4 * r + 2)) / 2 - stepCode codes c (4 * r)

/-- A range is rejected on its own account for one converter (R293). -/
def calReject (codes : List (Int × Int)) (c : Nat) (vref : Rat) (r : Nat) : Bool :=
  let p := calChain codes c vref r
  let o := calOff codes c r
  let n := calNon codes c r
  let nom := 4 / 5 * vref / 8 ^ r
  decide (65536 < o ∨ o < -65536) || decide (p.2 < 98 / 100 ∨ 102 / 100 < p.2) || decide (64 < n ∨ n < -64)
    || (decide (1 ≤ r) && decide (p.1 * 100 < 98 * nom ∨ 102 * nom < p.1 * 100))

/-- The factors of one range of one converter are stored; where a factor needs rounding the spec gives no rule for, the nearer place is free (R292, R300). -/
def State.calStore (s : State) (codes : List (Int × Int)) (c : Nat) (vref : Rat) (r : Nat) : State :=
  let p := calChain codes c vref r
  let put (s : State) (k : Nat) (x : Rat) : State := (s.setCalf (calfIdx c r k) (BitVec.ofNat 32 (wrapInt 32 (s.openRound x)))).drawn
  put (put (put (put s 0 (256 * calOff codes c r)) 1 (2 ^ 30 * p.2)) 2 (256 * p.1)) 3 (calNon codes c r)

/-- The calibration is complete: factors, rejected ranges, count, time, report; then waiting work (R292 to R294, R475). -/
def State.auxCalDone (s : State) (codes : List (Int × Int)) : State :=
  let vref : Rat := s.fld Fld.AUX_VREFX_UV_UV 0
  let bad (r : Nat) : Bool := calReject codes 0 vref r || calReject codes 1 vref r
  let fail (r : Nat) : Bool := (List.range (r + 1)).any bad
  let mask := ([0, 1, 2, 3].map (fun r => if fail r then 2 ^ r else 0)).sum
  let s1 := s.each ([0, 1, 2, 3].filter (fun r => !fail r)) (fun r s => (s.calStore codes 0 vref r).calStore codes 1 vref r)
  let s2 := ((((s1.auxOff.onAux (fun x => { x with calCodes := [] })).setFlag Fld.AUX_STAT_CALBUSY 0 false).setFld Fld.AUX_CAL_STAT_STATE 0 0).setFld
    Fld.AUX_CAL_STAT_FAIL 0 mask).setFlag Fld.AUX_CAL_STAT_FACTORY 0 false
  let s3 := ((s2.count Fld.AUX_CAL_COUNT 0 1).setFld Fld.AUX_CAL_TIME_S 0 s.ptpSec).setFld Fld.AUX_CAL_TIME_NS 0 s.ptpNs
  let s4 := s3.each ([0, 1, 2, 3].filter fail) (fun _ s => s.faultAt 8 0xFF 0x204 0 3)
  (s4.calReport 8 0xFF 3 (s4.fld Fld.AUX_CAL_COUNT 0) s.ptpSec s.ptpNs mask s.aux.calTemp).auxResume

/-- AUX_CAL_STEP_END: a calibration window ends with the raw codes of converters A and B (R291). -/
def State.calStep (s0 : State) (a b : Int) : State :=
  let s := s0.auxAdvance
  match s.aux.stage, s.aux.wins with
  | .cal, w :: _ =>
    if s.dev < w.start + w.len then s
    else
      let codes := s.aux.calCodes ++ [(a, b)]
      if codes.length < 16 then
        s.onAux (fun x => { x with calCodes := codes, wins := [], nextOpen := some (afterPclk (w.start + w.len) 2048) })
      else s.auxCalDone codes
  | _, _ => s

/-- AUX_CAL_STEP_END (R291). -/
def execAuxCalStepEnd (t : Nat) (a b : Int) (s : State) : Out := clocked t s (fun s => s.calStep a b)

/-! ### Ages and reads (R285 to R287) -/

/-- RESULT_AGE_STALE: the source's result, or only the injected value of that source still shown, exceeds the age (R286). -/
def execResultAgeStale (t : Nat) (src : Nat) (s : State) : Out :=
  clocked t s (fun s =>
    let v := s.aux.src.getD src ⟨0, 0, 0, 0⟩
    let old (t0 : Nat) : Bool := decide (t0 + s.fld Fld.AUX_STALE_AGE 0 * 2 ^ 20 * pclk < s.dev)
    if src < 17 && 0 < v.cnt && old v.since then s.auxTag src 4 else s.only (s.aux.injSince.any old) (fun s => s.onAux (fun x => x.tagInj src 4)))

/-- A result in the format of R285. -/
def State.auxFormat (s : State) (v : Int) : Nat := if s.flag Fld.AUX_FMT_ALIGN 0 then wrapInt 24 v * 256 else wrapInt 32 v

/-- The tag word of a source (R286). -/
def AuxSrc.word (v : AuxSrc) : Nat := v.tag % 2 ^ 16 + v.cnt % 2 ^ 16 * 2 ^ 16

/-- The result registers whose read latches a tag: a channel's, the injected one and ITONE (R287). -/
def auxResultAt (a : Nat) : Bool :=
  decide (a = 0x80208) || decide (a = 0x80210) || (decide (0x84000 ≤ a) && decide (a < 0x86000) && decide (a % 0x200 = 0xC))

/-- A read of a result register: its value, with the tag latched (R285, R287). -/
def State.auxRead (s : State) (a : Nat) : State × Word :=
  if a = 0x80208 then (s.setLive Fld.AUX_INJ_TAG_TAG.addr (BitVec.ofNat 32 s.aux.injTag), BitVec.ofNat 32 (s.auxFormat s.aux.injVal))
  else if a = 0x80210 then
    (s.setLive Fld.AUX_ITONE_TAG_TAG.addr (BitVec.ofNat 32 (s.aux.src.getD 16 ⟨0, 0, 0, 0⟩).word), s.live a)
  else
    let c := (a - 0x84000) / 0x200
    let v := s.aux.src.getD c ⟨0, 0, 0, 0⟩
    (s.setLive (Fld.AUX_Cn_TAG_TAG.at c) (BitVec.ofNat 32 v.word), BitVec.ofNat 32 (s.auxFormat v.val))

/-- AUX_RESULT_READ (R287). -/
def execAuxResultRead (t : Nat) (addr : Word) (s : State) : Out :=
  ticking t s (fun s => s.only (auxResultAt addr.toNat) (fun s =>
    let r := s.auxRead addr.toNat
    { r.1 with resp := leBytes 4 r.2.toNat }))

/-! ### Tables (R294, R300) -/

/-- A write of AUX_CALF: expert only; it applies to windows that open after it (R294, R300). -/
def State.calfWrite (s : State) (src : Source) (a : Nat) (val : Word) : State :=
  let k := (a - 0x88000) / 4
  if src ≠ .twin && !s.flag Fld.SYS_CTRL_EXPERT_EN 0 then s.clamp src a val (s.calfWord k) rsExpert 0 31 else s.auxAdvance.setCalf k val

/-- A write of a sequence entry: staged; a source of 17 to 31 keeps the previous one (R300). -/
def State.seqWrite (s : State) (src : Source) (a : Nat) (val : Word) : State :=
  let k := (a - 0x89000) / 4
  let old := sget (0 : Word) s.aux.seqStg k
  let bad := decide (auxItone < bitsOf 4 0 val)
  let w := (withBits 4 0 (val &&& 0x10F1F) (if bad then bitsOf 4 0 old else bitsOf 4 0 val))
  let s1 := (s.onAux (fun x => { x with seqStg := sput 0 x.seqStg k w })).markDirty 8
  if bad then s1.clamp src a val w rsEnum 0 4 else s1

/-! ### Commits (R283, R290, R297) -/

/-- The settings whose change restarts a connected channel (R290). -/
def State.excitation (s : State) (c : Nat) : Nat × Nat × Nat × Nat :=
  (s.fld Fld.AUX_Cn_CFG_MODE c, s.fld Fld.AUX_Cn_CFG_RANGE c, s.fld Fld.AUX_Cn_CFG_EXCDIV c, s.fld Fld.AUX_Cn_CFG_EXCAMP c)

/-- The excitation of the connected channel switches: open windows are discarded as SETTLE, the result is STALE and the settle count restarts. A channel
switched OFF ends its conversion (R290). -/
def State.excSwitch (s : State) (j : AuxJob) : State :=
  let had := decide (0 < s.aux.opened)
  let s1 := s.auxTag j.src (if had then 12 else 4)
  if s.auxMode j.src = 0 then s1.connectOff j
  else s1.onAux (fun x => { x.noWindows with stage := .settle, due := afterPclk s.dev (s.auxSettle j.src), spoiled := x.spoiled || had })

/-- An AUX commit takes effect: `old` is the state before its copies were taken. Periods are measured between edges of one polarity (R277, R278, R283, R290). -/
def State.auxCommit (s : State) (old : State) : State :=
  let s1 := s.onAux (fun x => { x with seq := x.seqStg })
  let connected := decide (s1.aux.stage = .settle) || decide (s1.aux.stage = .convert) || decide (s1.aux.stage = .write)
  let s2 := match s1.aux.job with
    | some j => if connected && decide (j.src < 16) && decide (s1.excitation j.src ≠ old.excitation j.src) then s1.excSwitch j else s1
    | none => s1
  let s2 := if s2.flag Fld.AUX_MAINS_EDGE 0 = old.flag Fld.AUX_MAINS_EDGE 0 then s2 else s2.onAux (fun x => { x with lineEdge := none })
  let s3 := if s2.fld Fld.AUX_MAINS_MODE 0 = old.fld Fld.AUX_MAINS_MODE 0 then s2
    else
      let s := s2.onAux (fun x => { x with lineEdge := none, lineGood := 0, lineAt := s2.dev })
      if s2.fld Fld.AUX_MAINS_MODE 0 = 2 then s else s.setFld Fld.PWR_MAINS_FREQ 0 0
  let en := s3.flag Fld.AUX_REFBUF_EN 0
  let s4 :=
    if en && !old.flag Fld.AUX_REFBUF_EN 0 then s3.onAux (fun x => { x with refDue := some (afterPclk s3.dev 488282) })
    else if !en && old.flag Fld.AUX_REFBUF_EN 0 then
      ((s3.onAux (fun x => { x with refDue := none })).setFlag Fld.AUX_STAT_REFREADY 0 false).auxBreak
    else s3
  let s5 := if !s4.flag Fld.AUX_CTRL_EN 0 && old.flag Fld.AUX_CTRL_EN 0 then s4.auxBreak else s4
  let run := s5.flag Fld.AUX_SEQ_RUN 0
  let s5 := s5.auxLate old
  let s6 := if s5.inReset then s5 else if run && !old.flag Fld.AUX_SEQ_RUN 0 then s5.seqStart else if !run && old.flag Fld.AUX_SEQ_RUN 0 then s5.seqStop else s5
  s6.auxResume

/-! ### Launches (R49, R58, R75, R104, R130, R159, R175, R184, R258, R436) -/

/-- The cell whose release comes first among those whose tick has come. -/
def dueCell (dev : Nat) (cells : List Cell) : Option Cell :=
  let due := cells.filter (fun c => c.rel ≤ dev)
  due.foldl (fun best c => match best with
    | some b => if c.rel < b.rel then some c else some b
    | none => some c) none

/-- The launch in cell `c` is the first under the new geometry of the change under way (R58). -/
def State.opensGeo (s : State) (n : Nat) (c : Cell) : Bool := (s.laneOf n).geo.any (fun g => g.num = c.newGeo)

/-- The pending copies that a launch takes with it: all of them at the first launch of a new geometry; else the boundary windows, and the chirp table of its
probe (R58, R75, R436). -/
def State.launchTake (s : State) (n : Nat) (c : Cell) : State :=
  if (s.laneOf n).geo.isSome then s.only (s.opensGeo n c) (fun s => s.geoSwitch n)
  else
    let s1 := s.boundaryTake n
    if bit (s1.laneOf n).tblPend c.probe && decide ((s1.laneOf n).tblGen ≤ c.lanGen) then s1.tableSwitch n c.probe else s1

/-- The launch itself: stamp, counters, the chirp's end and the blanking window, beside one of an earlier launch that still runs (R49, R55, R77, R108). -/
def State.launchStamp (s : State) (n : Nat) (c : Cell) : State :=
  let dac := (s.fld (clenFld c.probe) n + 1) / 2
  let s1 := s.onLane n (fun l =>
    { l with
      stamp := l.stamp.setIfInBounds c.probe (some c.rel)
      lastStamp := some c.rel
      lastDac := dac
      playing := some (c.probe, c.rel)
      blankEnd := if 0 < c.blank then some (max (l.blankEnd.getD 0) (c.rel + c.blank)) else l.blankEnd
      pulse := if l.led then l.pulse else some (c.rel + s.fld Fld.LAN_Ln_PULSE_OFFSET n)
      led := false })
  s1.count Fld.WCK_LAUNCH_CNT n 1

/-- PHX stamps the launch, and asks AUX for the lane's anchor where one is due; a reset that holds PHX lets the stamp pass (R175, R184, R468). -/
def State.anchorStamp (s : State) (n b stamp : Nat) : State :=
  if s.inReset then s else
  let r := s.phxStamp n b stamp
  if r.2 then r.1.auxRequest (r.1.fld Fld.PHX_Ln_REFCH_CH n) (2 ^ n) else r.1

/-- A block closes; where the first slot of the next one has brought no stamp, the anchor of that block is asked for now (R176, R184). -/
def State.blockClose (s : State) (n : Nat) : State :=
  let s1 := s.closeBlock n (s.phxOf n).block false false
  let r := s1.askAnchor n (s1.fld Fld.PHX_BLK_CNT n)
  if r.2 then r.1.auxRequest (r.1.fld Fld.PHX_Ln_REFCH_CH n) (2 ^ n) else r.1

/-- BLOCK_CLOSE (R176). -/
def execBlockClose (t : Nat) (n : Nat) (s : State) : Out :=
  clocked t s (fun s => s.only (n < s.lanes && s.closeDue n) (fun s => s.blockClose n))

/-- The launch in cell `c` is released: it leaves its cell, takes what the boundary brings, and the stamp drives ORX, PHX, DDC and the rotation ramps; a LAUNCH
stalled on the cell proceeds. The range of the stamp's sample is the window's where one opens on it (BLANK_WINDOW_START). The first stamp after a takeover ends its gap (R49, R130, R258, R422, R436). -/
def State.launch (s : State) (n : Nat) (c : Cell) : State :=
  let s0 := s.onLane n (fun l => { l with cells := l.cells.filter (fun x => x ≠ c) })
  let s1 := (s0.launchTake n c).launchStamp n c
  let s2 := ((s1.orxStamp (2 * n) c.rel c.range).orxStamp (2 * n + 1) c.rel c.range).only (c.blank = 0) (fun s => s.rangesFollow n)
  let s3 := s2.anchorStamp n c.probe c.rel
  let first := s0.opensGeo n c
  let due : DdcDue := ⟨n, c.probe, c.rel, c.blank, if first then s3.ddc.gen else c.ddcGen, first⟩
  let s4 := { s3 with ddc := { s3.ddc with due := s3.ddc.due ++ [due] } }
  let s5 := ((s4.rampStep (2 * n)).rampStep (2 * n + 1)).stallTurn n c.probe
  let s6 := match s5.twn.gapFrom with
    | some t0 => { s5 with twn := { s5.twn with gapFrom := none } }.setFld Fld.TWN_LASTGAP 0 ((s5.dev - t0) / pclk)
    | none => s5
  s6.settleLane n

/-- LAUNCH_RELEASE: a fixed release tick of lane `n` has arrived (R49). -/
def execLaunchRelease (t : Nat) (n : Nat) (s : State) : Out :=
  ticking t s (fun s => match dueCell s.dev (s.laneOf n).cells with
    | some c => s.only (n < s.lanes) (fun s => s.launch n c)
    | none => s)

end Sys2Proof.Machine
end

