-- ==== Sys2Proof/Machine/Mem.lean ====
section
/-!
DEFINITION. The memory controller: ports, scheduling, refresh and self-refresh, maintenance, and scrub (spec 12_memory_controller, R301 to R329).
Times of the controller are in MCLK, two to the ACLK tick; of the DRAM timing only the parameters of R303 are kept (assumption 20).
Points that the spec leaves open or that are read from it by inference: DESIGN CHOICE 20; DEDUCED 21 of the assumption log.
-/

namespace Sys2Proof.Machine

/-! ### Ports (R308 to R316) -/

/-- Every request of a port that has not been served. -/
def State.portReqs (s : State) (p : Nat) : List MemReq :=
  ((s.memChan 0).reqs ++ (s.memChan 1).reqs ++ s.memc.waiting).filter (fun r => r.port = p)

/-- Urgency of a port by the age of its oldest pending request (R313). -/
def State.urgency (s : State) (p now : Nat) : Nat :=
  let age := (s.portReqs p).foldl (fun m r => max m (now - r.since)) 0
  let tg := s.fld Fld.MEM_Pp_TARGET_TARGET p
  if 10 * age < 5 * tg then 0 else if 4 * age < 3 * tg then 1 else if 10 * age < 9 * tg then 2 else 3

/-- The port is held for the rest of the window (R315). -/
def State.portHeld (s : State) (p : Nat) : Bool := bit s.memc.held p

/-- The word of MEM_Pp_STAT (R328). -/
def State.portStat (s : State) (p : Nat) : Word :=
  let now := s.mclk false
  let rs := s.portReqs p
  let old := rs.any (fun r => decide (s.fld Fld.MEM_AGE_LIMIT_AGE 0 < now - r.since))
  let promoted := old && !s.portHeld p
  BitVec.ofNat 32 ((if rs.isEmpty then 0 else s.urgency p now) + 4 * b2n (s.portHeld p) + 8 * b2n promoted + 2 ^ 8 * min 255 rs.length
    + 2 ^ 16 * min 65535 (s.memc.used.getD p 0))

/-- A channel is in self-refresh once SRE is issued, tRP after the precharge-all (R318). -/
def State.selfRef (s : State) (c : Nat) : Bool :=
  match (s.memChan c).sr with
  | some at_ => decide (at_ + tRP ≤ s.mclk false)
  | none => false

/-- A latency beyond TARGET is counted (R313). -/
def State.latency (s : State) (p l : Nat) : State := s.only (s.fld Fld.MEM_Pp_TARGET_TARGET p < l) (fun s => s.count Fld.MEM_MISS_CNT p 1)

/-- A write covers its bytes; a part of a word is merged into the word (R311). The request's data then stands in DRAM for every later read (R310). -/
def State.acceptWrite (s : State) (r : MemReq) (now : Nat) : State :=
  (((s.mergeRead r.port r.addr r.data.length).backOff r.addr r.data.length).writeBytes r.addr r.data).latency r.port (now - r.since)

/-- A request enters its channel's queue; a read takes what every earlier accepted write, and a write-back that waits, have left: the data, and the errors that the cells
hold (R310, R323, R324). -/
def State.enqueue (s : State) (r : MemReq) (now : Nat) : State :=
  let c := s.chanOf r.addr
  let b := r.addr / 64 * 64
  let s1 := if r.write then s.acceptWrite r now else s.backNow b
  let r1 := if r.write then r else { r with data := s1.readBytes b 64, ce := s1.ceBeats b, ue := s1.eccRange 0 b 64 = 2 }
  s1.onChan c (fun m => { m with reqs := m.reqs ++ [r1], used := now })

/-- A request can be accepted: READY is set, and for a write the write queue of 64 entries has room (R312, R320). -/
def State.canAccept (s : State) (r : MemReq) : Bool :=
  s.flag Fld.MEM_STAT_READY 0 && (!r.write || decide (((s.memChan (s.chanOf r.addr)).reqs.filter (fun x => x.write)).length < 64))

/-- Waiting requests are accepted in order of arrival; one that cannot be keeps back the later ones of its burst. -/
def State.acceptWaiting (s : State) (now : Nat) : State :=
  let r := s.memc.waiting.foldl (fun (acc : State × List MemReq) r =>
    if acc.1.canAccept r && !acc.2.any (fun k => k.addr / 64 = r.addr / 64) then (acc.1.enqueue r now, acc.2) else (acc.1, acc.2 ++ [r])) (s, [])
  { r.1 with memc := { r.1.memc with waiting := r.2 } }

/-! ### Self-refresh (R318, R319) -/

/-- A port's request arrives (R310, R318 to R320). -/
def State.memRequest (s : State) (r : MemReq) : State :=
  let s1 := { s with memc := { s.memc with waiting := s.memc.waiting ++ [r] } }
  if s.flag Fld.MEM_STAT_READY 0 then (s1.srArrival (s.chanOf r.addr) r.since).acceptWaiting r.since else s1

/-- MEM_REQUEST: port `port` asks in the given half of the tick for the burst at `addr`, to store data or, with none, to read; `ap` is the client's page hint (R309, R310). -/
def execMemRequest (t : Nat) (port addr : Nat) (half ap : Bool) (data : Option (List Byte)) (s : State) : Out :=
  ticking t s (fun s => s.only (port < 12 && addr < s.dramEnd) (fun s =>
    s.memRequest ⟨port, addr, data.isSome, ap, (data.getD []).take (64 - addr % 64), s.mclk half, 0, false⟩))

/-! ### Scheduling (R312) -/

/-- A request's key: class, urgency, direction, page hit and age, compared in this order. -/
def State.reqKey (s : State) (c now : Nat) (r : MemReq) : List Nat :=
  let m := s.memChan c
  let one (r : MemReq) : Nat × Nat :=
    if s.portHeld r.port then (3, 0)
    else
      let u := s.urgency r.port now
      let cl := s.fld Fld.MEM_Pp_CLASS_CLASS r.port
      let cl1 := if u = 3 then cl - 1 else cl
      (if s.fld Fld.MEM_AGE_LIMIT_AGE 0 < now - r.since then 0 else cl1, u)
  let writes := (m.reqs.filter (fun x => x.write)).length
  let dir := decide (48 ≤ writes) || m.dirWrite
  let cls := ((m.reqs.filter (fun x => x.addr / 64 = r.addr / 64)).map (fun x => (one x).1)).foldl min (one r).1
  [cls, 3 - (one r).2, b2n (r.write != dir), b2n ((m.bank (s.bankKey r.addr)).row ≠ some (s.rowOf r.addr)), 2 ^ 64 - (now - r.since)]

/-- One key is smaller than another of the same length. -/
def keyLt : List Nat → List Nat → Bool
  | a :: as, b :: bs => decide (a < b) || (decide (a = b) && keyLt as bs)
  | _, _ => false

/-- The timing of R303 lets the request's next command issue. -/
def State.timingOk (s : State) (c now : Nat) (r : MemReq) : Bool :=
  let b := (s.memChan c).bank (s.bankKey r.addr)
  match b.row with
  | some row => if row = s.rowOf r.addr then decide (b.act + tRCD ≤ now) else decide (b.mayClose ≤ now)
  | none => decide (b.pre + tRP ≤ now) && (decide (b.act = 0) || decide (b.act + tRC ≤ now))

/-- A request of a port that TST_DRAMLAT delays waits out the added latency, which counts in its age (R456). -/
def State.latGone (s : State) (now : Nat) (r : MemReq) : Bool :=
  !bit (s.fld Fld.TST_DRAMLAT_PORTS 0) r.port || decide (r.since + s.fld Fld.TST_DRAMLAT_EXTRA 0 ≤ now)

/-- The requests that may be chosen: no earlier one asks for the same burst (R310). -/
def headsOf : List MemReq → List Nat → List MemReq
  | [], _ => []
  | r :: rs, seen => if seen.contains (r.addr / 64) then headsOf rs seen else r :: headsOf rs (r.addr / 64 :: seen)

/-- The best request of a list; among equal keys the earliest. -/
def State.bestReq (s : State) (c now : Nat) : List MemReq → Option MemReq
  | [] => none
  | r :: rs =>
    match s.bestReq c now rs with
    | none => some r
    | some q => if keyLt (s.reqKey c now q) (s.reqKey c now r) then some q else some r

/-- The cells of the word at `a` hold an error that a read has found: 1 single-bit, 2 double-bit (R323). -/
def State.cellError (s : State) (err a : Nat) : State :=
  s.only (0 < err) (fun s => { s with sys := { s.sys with eccBad := s.sys.eccBad ++ [(0, decide (1 < err), a / 8)] } })

/-- A request is served: counted, its row closed under auto-precharge, and a read delivered with the errors that the cells held before any later write to its burst
(R309, R310, R313, R323, R324). -/
def State.serve (s : State) (c now err : Nat) (r : MemReq) : State :=
  let s1 := (s.onChan c (fun m =>
    ({ m with reqs := m.reqs.erase r, dirWrite := r.write, used := now }).setBank
      ((m.bank (s.bankKey r.addr)).transfer now (s.colOf r.addr) r.write (s.closes r.port r.ap)))).burst r.port
  if r.write then s1
  else
    let a := r.addr / 64 * 64
    let newer := (s1.memChan c).reqs.any (fun x => x.write && decide (x.addr / 64 = r.addr / 64))
    let d := (s1.only (!newer) (fun s => s.cellError err a)).burstMeets r.port a (r.ce + b2n (decide (err = 1))) (r.ue || decide (1 < err)) newer
    { d.1 with memc := { d.1.memc with out := some (r.port, a, r.data, d.2) } }.latency r.port (now + tCL + 4 - r.since)

/-- The command that a request needs next: PRE, ACT, or the transfer (R312). -/
def State.issueFor (s : State) (c now err : Nat) (r : MemReq) : State :=
  let b := (s.memChan c).bank (s.bankKey r.addr)
  match b.row with
  | some row => if row = s.rowOf r.addr then s.serve c now err r else s.onChan c (fun m => m.setBank { b with row := none, pre := now })
  | none => s.onChan c (fun m => m.setBank { b with row := some (s.rowOf r.addr), act := now })

/-- An all-bank refresh of all ranks: open rows are closed once tRAS allows, and the refresh follows tRP after the last precharge (R303, R312, R317). -/
def State.refreshAll (s : State) (c now : Nat) : State :=
  let m := s.memChan c
  let pre := m.banks.foldl (fun p b => if b.row.isSome then max p b.mayClose else p) now
  let ref := m.banks.foldl (fun r b => max r ((if b.row.isSome then pre else b.pre) + (if b.row.isSome || b.act ≠ 0 then tRP else 0))) now
  (s.onChan c (fun m => { (m.closeAll pre) with busy := ref + s.tRFC })).setFld Fld.MEM_CHc_STAT_OWED c (s.fld Fld.MEM_CHc_STAT_OWED c - 1)

/-- The first write-back that waits on channel `c`. -/
def State.nextBack (s : State) (c : Nat) : Option Nat := s.memc.wback.find? (fun b => s.chanOf b = c)

/-- No request of a better class than 3 waits on channel `c` (R312). -/
def State.onlyClass3 (s : State) (c now : Nat) : Bool := (s.memChan c).reqs.all (fun r => decide (3 ≤ (s.reqKey c now r).headD 3))

/-- A channel's command slot; a write-back has the class and the page hint of MP11, and stands before its requests (DEDUCED 21) (R312, R323). -/
def State.commandSlot (s : State) (c now err : Nat) : State :=
  let m := s.memChan c
  let owed := s.fld Fld.MEM_CHc_STAT_OWED c
  let class0 := m.reqs.any (fun r => s.fld Fld.MEM_Pp_CLASS_CLASS r.port = 0)
  if now < m.busy || m.sr.isSome then s
  else if owed = 8 || (0 < owed && !class0) then s.refreshAll c now
  else if (s.nextBack c).isSome && s.onlyClass3 c now then ((s.nextBack c).map (fun b => (s.access 11 true true b).backNow b)).getD s
  else
    match s.bestReq c now ((headsOf m.reqs []).filter (fun r => s.timingOk c now r && s.latGone now r)) with
    | none => s
    | some r => (s.issueFor c now err r).acceptWaiting now

/-- MEM_COMMAND_SLOT: channel `c` chooses its next command; `err` is the worst error that a read meets in the cells: 0 none, 1 corrected, 2 uncorrectable
(R312, R323, R324). -/
def execMemCommandSlot (t : Nat) (c : Nat) (half : Bool) (err : Nat) (s : State) : Out :=
  ticking t s (fun s => s.only (c < 2 && s.flag Fld.MEM_STAT_READY 0) (fun s => s.commandSlot c (s.mclk half) err))

/-! ### Refresh, self-refresh entry and the budget window (R315 to R318) -/

/-- The refresh rate in force (R317). -/
def State.refreshRate (s : State) : State :=
  let hot := [Fld.SYS_TEMP_T0, Fld.SYS_TEMP_T1, Fld.SYS_TEMP_T2, Fld.SYS_TEMP_T3].any (fun f => decide (s.fld Fld.MEM_CTRL_T2X 0 + 64 ≤ s.fld f 0))
  s.setFlag Fld.MEM_STAT_REF2X 0 (match s.fld Fld.MEM_CTRL_REFMODE 0 with
    | 0 => false
    | 1 => true
    | _ => hot)

/-- REFRESH_DUE: a refresh of channel `c` falls due; `temps` is what the die sensors read, the word of SYS_TEMP (R317). -/
def execRefreshDue (t : Nat) (c : Nat) (temps : Word) (s : State) : Out :=
  ticking t s (fun s => s.only (c < 2 && s.flag Fld.MEM_STAT_READY 0 && (s.memChan c).sr.isNone && decide ((s.memChan c).refAt ≤ s.mclk false)) (fun s =>
    let s1 := (s.setLive Fld.SYS_TEMP_T0.addr temps).refreshRate
    (s1.onChan c (fun m => { m with refAt := m.refAt + s1.tREFI })).setFld Fld.MEM_CHc_STAT_OWED c (min 8 (s.fld Fld.MEM_CHc_STAT_OWED c + 1))))

/-- One minute in ACLK ticks, and 128 ms in MCLK. -/
def minuteTicks : Nat := 46875000000
def zqPeriod : Nat := 200000000

/-- The temperature has moved beyond RT_DT since the last training (R322). -/
def State.retrainDue (s : State) (temp : Nat) : Bool :=
  let z := s.fld Fld.MEM_STAT_TTRAIN 0
  decide (z + s.fld Fld.MEM_MAINT_RT_DT 0 < temp) || decide (temp + s.fld Fld.MEM_MAINT_RT_DT 0 < z)

/-- A ZQ calibration falls due on channel `c` at a die temperature: on drift, or after 128 ms, while SYS_CTRL.RUN is set (R322, R474). -/
def State.zqDue (s : State) (c now temp : Nat) : Bool := s.flag Fld.SYS_CTRL_RUN 0 && (s.zqDrift c temp || decide ((s.memChan c).zqAt + zqPeriod ≤ now))

/-- A ZQ calibration or a retraining is due on channel `c`, or a retraining is under way (R318, R322). -/
def State.maintDue (s : State) (c now : Nat) : Bool :=
  let temp := s.fld Fld.SYS_TEMP_T2 0
  s.zqDue c now temp || (s.flag Fld.SYS_CTRL_RUN 0 && s.retrainDue temp) || s.flag Fld.MEM_STAT_RETRAIN 0

/-- SELF_REFRESH_ENTRY: no request for IDLE × 64 MCLK and no maintenance due (R318). -/
def execSelfRefreshEntry (t : Nat) (c : Nat) (s : State) : Out :=
  ticking t s (fun s =>
    let m := s.memChan c
    let now := s.mclk false
    s.only (c < 2 && s.flag Fld.MEM_STAT_READY 0 && s.flag Fld.MEM_SR_CTRL_EN 0 && m.sr.isNone && m.reqs.isEmpty && (s.nextBack c).isNone && decide (m.busy ≤ now)
        && decide (s.fld Fld.MEM_CHc_STAT_OWED c = 0) && decide (now < m.refAt) && !s.maintDue c now
        && decide (m.used + 64 * s.fld Fld.MEM_SR_CTRL_IDLE 0 ≤ now)) (fun s =>
      s.onChan c (fun m => { (m.closeAll now) with sr := some now })))

/-- BUDGET_WINDOW_END: held ports are released and new budgets and a new window length apply (R315, R316). -/
def execBudgetWindowEnd (t : Nat) (s : State) : Out :=
  ticking t s (fun s =>
    let due := s.memc.winAt + 256 * s.memc.bwin
    s.only (decide (due ≤ s.mclk false)) (fun s =>
      { s with memc := { s.memc with
          used := Vector.replicate 12 0
          held := 0
          budget := Vector.ofFn (fun p : Fin 12 => s.fld Fld.MEM_Pp_BUDGET_BUDGET p.val)
          bwin := s.fld Fld.MEM_BWIN_WIN 0
          winAt := due } }))

/-! ### Maintenance and scrub (R322, R325) -/

/-- Maintenance ends the self-refresh of its channel first (R318, R322). -/
def State.wakeFor (s : State) (c now : Nat) : State :=
  match (s.memChan c).sr with
  | some at_ => s.srExit c at_ now
  | none => s

/-- ZQCS: a ZQ calibration of each rank of channel `c` that is due; it needs no supervisor, and runs during a Hearth restart (R36, R322, R474). -/
def execZqcs (t : Nat) (c temp : Nat) (s : State) : Out :=
  ticking t s (fun s =>
    let now := s.mclk false
    s.only (c < 2 && s.flag Fld.MEM_STAT_READY 0 && s.zqDue c now temp) (fun s =>
      (s.wakeFor c now).onChan c (fun m => { m with busy := max m.busy now + tZQCS * (1 + s.fld Fld.MEM_GEOM_RANKS 0), zqAt := now, zqTemp := temp })))

/-- A retraining that falls due while Hearth restarts is deferred (R36, R322, R474). -/
def State.deferRetrain (s : State) : State :=
  if s.sys.deferred.any (fun d => d.1 = 4) then s else { s with sys := { s.sys with deferred := s.sys.deferred ++ [(4, 0)] } }

/-- RETRAIN_SLOT: a maintenance slot of channel `c`; the last one ends the retraining. One begins while SYS_CTRL.RUN is set, and while Hearth restarts it is deferred
(R36, R322, R329, R474). -/
def execRetrainSlot (t : Nat) (c temp : Nat) (work : SlotWork) (last : Bool) (s : State) : Out :=
  ticking t s (fun s =>
    let now := s.mclk false
    let far := match (s.memChan c).slotAt with
      | some at_ => decide (at_ + 65536 ≤ now)
      | none => true
    let due := s.flag Fld.SYS_CTRL_RUN 0 && s.retrainDue temp
    if !s.sys.hearth then s.only (s.flag Fld.MEM_STAT_READY 0 && due && !s.flag Fld.MEM_STAT_RETRAIN 0) State.deferRetrain
    else s.only (c < 2 && s.flag Fld.MEM_STAT_READY 0 && decide (work.hold ≤ 768) && far && (s.flag Fld.MEM_STAT_RETRAIN 0 || due)) (fun s =>
      let s1 := ((s.wakeFor c now).onChan c (fun m => { m with busy := max m.busy now + work.hold, slotAt := some now })).setFlag Fld.MEM_STAT_RETRAIN 0 (!last)
      let s2 := (work.vref.map (s1.setFld Fld.MEM_CHc_STAT_VREFDQ c)).getD s1
      s2.only last (fun s => (s.setFld Fld.MEM_STAT_TTRAIN 0 temp).count Fld.MEM_RETRAIN_CNT 0 1)))

/-- The pass is due at its next burst: MEM_SCRUB.PERIOD minutes are spread evenly over the bursts of external memory (R325). -/
def State.scrubDue (s : State) : Bool :=
  decide (s.memc.scrubFrom * (s.dramEnd / 64) + s.memc.scrub / 64 * (s.fld Fld.MEM_SCRUB_PERIOD 0 * minuteTicks) ≤ s.now * (s.dramEnd / 64))

/-- No request of a better class than 3 waits on the channel of an address (R312, R325). -/
def State.scrubTurn (s : State) (a : Nat) : Bool := s.onlyClass3 (s.chanOf a) (s.mclk false)

/-- SCRUB_READ: MP11 reads the next burst of the pass at class 3; `err` is the error it meets in the cells (R323 to R325). -/
def execScrubRead (t : Nat) (err : Nat) (s : State) : Out :=
  ticking t s (fun s => s.only (s.flag Fld.MEM_STAT_READY 0 && s.flag Fld.MEM_CTRL_SCRUB_EN 0 && s.scrubDue && s.scrubTurn s.memc.scrub) (fun s =>
    let a := s.memc.scrub
    let s1 := s.cellError err a
    let s2 := (s1.portRead 11 true a 64).1
    let next := a + 64
    if next < s.dramEnd then { s2 with memc := { s2.memc with scrub := next } }
    else { s2 with memc := { s2.memc with scrub := 0, scrubFrom := s.memc.scrubFrom + s.fld Fld.MEM_SCRUB_PERIOD 0 * minuteTicks } }.count Fld.MEM_SCRUB_PASS_CNT 0 1))

/-! ### Training (R320, R321) -/

/-- Channel `c` has passed its training, with the VrefDQ written to its parts (R320, R329). -/
def State.trained (s : State) (c : Nat) (vref : List Nat) : State :=
  (s.setFlag Fld.MEM_CHc_STAT_TRAINED c true).setFld Fld.MEM_CHc_STAT_VREFDQ c (vref.getD c 0)

/-- The parts fitted differ from MEM_GEOM in more than their density, so that no channel can pass its training (R302). -/
def State.misfit (s : State) : Bool := s.flag Fld.MEM_GEOM_WIDTH 0 != s.fixed.wide || s.flag Fld.MEM_GEOM_RANKS 0 != s.fixed.twoRanks

/-- The controller starts with training done: READY, the temperature, and the times of refresh, ZQ calibration and scrub (R320). -/
def State.memReady (s : State) (vref : List Nat) (temp : Nat) : State :=
  let now := s.mclk false
  let one (c : Nat) (s : State) : State :=
    (s.trained c vref).onChan c (fun m => { m with refAt := now + s.tREFI, zqAt := now, zqTemp := temp, used := now })
  let s := { s with memc := { s.memc with scrubFrom := s.now } }
  (((s.each [0, 1] one).setFlag Fld.MEM_STAT_READY 0 true).setFld Fld.MEM_STAT_TTRAIN 0 temp).acceptWaiting now

/-- Channel `c` has failed a training step after its repeats (R321). -/
def State.trainFail (s : State) (c step : Nat) : State :=
  ((s.setFld Fld.MEM_STAT_TRAINFAIL 0 (setBit (s.fld Fld.MEM_STAT_TRAINFAIL 0) c true)).setFld Fld.MEM_CHc_STAT_FAILSTEP c step).faultAt 9 c (0x6000 + 0x100 * c) 0 1

end Sys2Proof.Machine
end

