-- ==== Sys2Proof/Machine/Inflate.lean ====
section
/-!
DEFINITION. The data formats of Crucible: RFC 1951 and RFC 1950 streams, decoded symbol by symbol with the checks of R373, and the encodings of a block
(spec 14_crucible_compression, R363, R364, R369, R370, R373).
Points that the spec leaves open or that are read from it by inference: DESIGN CHOICE 30; DEDUCED 31 of the assumption log.
-/

namespace Sys2Proof.Machine

/-! ### Bits and checks -/

/-- The bits of bytes, least significant first, as RFC 1951 packs them. -/
def byteBits (bs : List Byte) : List Bool := bs.flatMap (fun b => (List.range 8).map (fun i => b.getLsbD i))

/-- The number that bits hold, least significant first. -/
def bitsNat : List Bool → Nat
  | [] => 0
  | b :: r => (if b then 1 else 0) + 2 * bitsNat r

/-- `n` bits of a number, least significant first. -/
def natBits : Nat → Nat → List Bool
  | 0, _ => []
  | n + 1, v => decide (v % 2 = 1) :: natBits n (v / 2)

/-- Bits as bytes; the last byte is filled with zeros. -/
def bitBytes : Nat → List Bool → List Byte
  | 0, _ => []
  | _, [] => []
  | n + 1, bs => BitVec.ofNat 8 (bitsNat (bs.take 8)) :: bitBytes n (bs.drop 8)

/-- One byte of Adler-32 as b × 65,536 + a (RFC 1950). -/
def adlerByte (v : Nat) (b : Byte) : Nat :=
  let a := (v % 65536 + b.toNat) % 65521
  (v / 65536 + a) % 65521 * 65536 + a

/-- Adler-32 of bytes from a running value, 1 at the start. -/
def adler (v : Nat) (bs : List Byte) : Nat := bs.foldl adlerByte v

/-! ### Huffman codes -/

/-- What decoding gives: a value and the bits behind it, too few bits, or bits that no code has. -/
inductive Dec (α : Type) where
  | ok (v : α) (rest : List Bool)
  | more
  | bad

/-- `n` bits as a number. -/
def takeBits (n : Nat) (bs : List Bool) : Dec Nat := if bs.length < n then .more else .ok (bitsNat (bs.take n)) (bs.drop n)

/-- How many symbols have codes of a length. -/
def lenCount (lens : List Nat) (l : Nat) : Nat := (lens.filter (fun x => x = l)).length

/-- The symbols with codes of a length, in order. -/
def lenSyms (lens : List Nat) (l : Nat) : List Nat := (List.range lens.length).filter (fun i => lens.getD i 0 = l)

/-- The next symbol of a canonical code: `code` and `first` are the bits read and the first code of the length before. -/
def huffStep (lens : List Nat) : Nat → Nat → Nat → Nat → List Bool → Dec Nat
  | 0, _, _, _, _ => .bad
  | _, _, _, _, [] => .more
  | f + 1, l, code, first, b :: bs =>
    let c := 2 * code + (if b then 1 else 0)
    let k := lenCount lens l
    if c < first + k then .ok ((lenSyms lens l).getD (c - first) 0) bs
    else if lens.all (fun x => x ≤ l) then .bad
    else huffStep lens f (l + 1) c (2 * (first + k)) bs

/-- The next symbol of the code that lengths define. -/
def huff (lens : List Nat) (bs : List Bool) : Dec Nat := huffStep lens 15 1 0 0 bs

/-- The lengths fill the code space exactly. -/
def complete (lens : List Nat) : Bool := (lens.map (fun l => if l = 0 then 0 else 2 ^ (15 - l))).sum = 2 ^ 15

/-- One code of one bit, which RFC 1951 allows a set of a single symbol. -/
def single (lens : List Nat) : Bool := lens.filter (fun l => l ≠ 0) = [1]

/-- A usable literal and length code. -/
def litOk (lens : List Nat) : Bool := (complete lens || single lens) && lens.getD 256 0 ≠ 0

/-- A usable distance code; a block of literals needs none. -/
def distOk (lens : List Nat) : Bool := complete lens || single lens || lens.all (fun l => l = 0)

/-- The fixed codes of RFC 1951. -/
def fixedLit : List Nat := List.replicate 144 8 ++ List.replicate 112 9 ++ List.replicate 24 7 ++ List.replicate 8 8
def fixedDist : List Nat := List.replicate 32 5

/-- Base and extra bits of length codes 257 to 285, and of distance codes 0 to 29. -/
def lenTable : List (Nat × Nat) :=
  [(3, 0), (4, 0), (5, 0), (6, 0), (7, 0), (8, 0), (9, 0), (10, 0), (11, 1), (13, 1), (15, 1), (17, 1), (19, 2), (23, 2), (27, 2), (31, 2),
   (35, 3), (43, 3), (51, 3), (59, 3), (67, 4), (83, 4), (99, 4), (115, 4), (131, 5), (163, 5), (195, 5), (227, 5), (258, 0)]
def distTable : List (Nat × Nat) :=
  [(1, 0), (2, 0), (3, 0), (4, 0), (5, 1), (7, 1), (9, 2), (13, 2), (17, 3), (25, 3), (33, 4), (49, 4), (65, 5), (97, 5), (129, 6), (193, 6),
   (257, 7), (385, 7), (513, 8), (769, 8), (1025, 9), (1537, 9), (2049, 10), (3073, 10), (4097, 11), (6145, 11), (8193, 12), (12289, 12),
   (16385, 13), (24577, 13)]

/-- A decoded symbol. -/
inductive Sym where
  | lit (b : Nat)
  | eob
  | copy (len dist : Nat)

/-- The next symbol of a compressed block. -/
def nextSym (lit dist : List Nat) (bs : List Bool) : Dec Sym :=
  match huff lit bs with
  | .more => .more
  | .bad => .bad
  | .ok v r =>
    if v < 256 then .ok (.lit v) r
    else if v = 256 then .ok .eob r
    else
      match lenTable[v - 257]? with
      | none => .bad
      | some le =>
        match takeBits le.2 r with
        | .ok x r1 =>
          match huff dist r1 with
          | .more => .more
          | .bad => .bad
          | .ok d r2 =>
            match distTable[d]? with
            | none => .bad
            | some de =>
              match takeBits de.2 r2 with
              | .ok y r3 => .ok (.copy (le.1 + x) (de.1 + y)) r3
              | _ => .more
        | _ => .more

/-! ### The header of a dynamic block -/

/-- The order of the code-length codes. -/
def clOrder : List Nat := [16, 17, 18, 0, 8, 7, 9, 6, 10, 5, 11, 4, 12, 3, 13, 2, 14, 1, 15]

/-- `n` lengths of three bits. -/
def readCl : Nat → List Bool → List Nat → Dec (List Nat)
  | 0, bs, acc => .ok acc.reverse bs
  | n + 1, bs, acc =>
    match takeBits 3 bs with
    | .ok v r => readCl n r (v :: acc)
    | _ => .more

/-- Code lengths coded by the code-length code until `total` are read, newest first. -/
def readLens (cl : List Nat) (total : Nat) : Nat → List Nat → List Bool → Dec (List Nat)
  | 0, _, _ => .bad
  | f + 1, acc, bs =>
    if acc.length = total then .ok acc.reverse bs
    else
      match huff cl bs with
      | .more => .more
      | .bad => .bad
      | .ok v r =>
        let rep (x base extra : Nat) : Dec (List Nat) :=
          match takeBits extra r with
          | .ok k r1 => if total < acc.length + base + k then .bad else readLens cl total f (List.replicate (base + k) x ++ acc) r1
          | _ => .more
        if v < 16 then readLens cl total f (v :: acc) r
        else if v = 16 then (match acc with
          | [] => .bad
          | x :: _ => rep x 3 2)
        else if v = 17 then rep 0 3 3 else rep 0 11 7

/-- The code lengths of a dynamic block: literal and length, then distance. -/
def readDynamic (bs : List Bool) : Dec (List Nat × List Nat) :=
  match takeBits 14 bs with
  | .ok h r =>
    let hlit := h % 32 + 257
    let hdist := h / 32 % 32 + 1
    match readCl (h / 1024 + 4) r [] with
    | .ok cs r1 =>
      let cl := (List.range 19).map (fun i => cs.getD (clOrder.idxOf i) 0)
      if 286 < hlit || !complete cl then .bad
      else
        match readLens cl (hlit + hdist) 321 [] r1 with
        | .ok ls r2 => if litOk (ls.take hlit) && distOk (ls.drop hlit) then .ok (ls.take hlit, ls.drop hlit) r2 else .bad
        | .more => .more
        | .bad => .bad
    | _ => .more
  | _ => .more

/-! ### The decompressor (R373 to R375) -/

/-- Where the decompressor stands; the first five are the positions of R372. -/
inductive InfMode where
  | block | stored | fixed | dynamic | adler | header | trailer | ended
deriving DecidableEq, Repr

/-- The decompressor: bits not consumed, the bit offset in the job's input, position, the stored block's bytes left, BFINAL of the present block, codes, the
stream's output newest first with its length, the job's output newest first, the output's length at the segment's start, whether no segment is under way, and the running Adler-32. -/
structure Inf where
  bits : List Bool
  pos : Int
  mode : InfMode
  left : Nat
  fin : Bool
  lit : List Nat
  dist : List Nat
  hist : List Byte
  out : List Byte
  segAt : Nat
  between : Bool
  sum : Nat

/-- How a run ends: the stream's end, the input's end, or a fault with its code. -/
inductive InfEnd where
  | ended
  | input
  | fault (code : Nat)
deriving DecidableEq, Repr

/-- Bits consumed. -/
def Inf.eat (x : Inf) (rest : List Bool) : Inf := { x with bits := rest, between := false, pos := x.pos + ((x.bits.length - rest.length : Nat) : Int) }

/-- The bits up to the next byte boundary of the input. -/
def Inf.pad (x : Inf) : List Bool := x.bits.drop ((-x.pos) % 8).toNat

/-- Bytes output. -/
def Inf.emit (x : Inf) (bs : List Byte) : Inf :=
  { x with hist := (bs.reverse ++ x.hist).take 32768, out := bs.reverse ++ x.out, sum := adler x.sum bs }

/-- The bytes of a copy from the history. -/
def copyBytes (hist : List Byte) (d : Nat) : Nat → List Byte → List Byte
  | 0, acc => acc.reverse
  | n + 1, acc => copyBytes hist d n ((acc ++ hist).getD (d - 1) 0 :: acc)

/-- The end of a block. -/
def Inf.blockEnd (zlib seg : Bool) (x : Inf) : Inf :=
  { x with mode := if x.fin then (if zlib then .adler else if seg then .trailer else .ended) else .block }

/-- The trailer of a segment agrees with the segment's output (R370, R373). -/
def trailerOk (x : Inf) (t : List Byte) : Bool :=
  let data := (x.out.take (x.out.length - x.segAt)).reverse
  decide (leNat (t.take 2) = 0x4352) && decide (leNat (t.drop 28) = crc32c (t.take 28)) && decide (leNat ((t.drop 12).take 4) = data.length)
    && decide (leNat ((t.drop 20).take 4) = crc32c data)

/-- A block header. -/
def Inf.blockStep (zlib seg : Bool) (x : Inf) : Inf ⊕ InfEnd :=
  match takeBits 3 x.bits with
  | .ok h r =>
    let fin := decide (h % 2 = 1)
    let y := x.eat r
    match h / 2 with
    | 0 =>
      match takeBits 32 y.pad with
      | .ok v r1 =>
        let len := v % 65536
        if v / 65536 ≠ 65535 - len then .inr (.fault 5)
        else
          let z := { y.eat r1 with fin := fin, left := len, mode := .stored }
          .inl (if len = 0 && seg && !fin then { z with mode := .trailer } else if len = 0 then z.blockEnd zlib seg else z)
      | _ => .inr .input
    | 1 => .inl { y with fin := fin, mode := .fixed, lit := fixedLit, dist := fixedDist }
    | 2 =>
      match readDynamic r with
      | .ok ls r1 => .inl { y.eat r1 with fin := fin, mode := .dynamic, lit := ls.1, dist := ls.2 }
      | .more => .inr .input
      | .bad => .inr (.fault 1)
    | _ => .inr (.fault 1)
  | _ => .inr .input

/-- One symbol: the next state of the decompressor, or how it ends at this symbol. -/
def Inf.step (zlib seg : Bool) (cap : Nat) (x : Inf) : Inf ⊕ InfEnd :=
  match x.mode with
  | .header =>
    match takeBits 16 x.bits with
    | .ok v r =>
      let cmf := v % 256
      let flg := v / 256
      if cmf % 16 = 8 && cmf / 16 ≤ 7 && (256 * cmf + flg) % 31 = 0 && flg / 32 % 2 = 0 then .inl { x.eat r with mode := .block } else .inr (.fault 1)
    | _ => .inr .input
  | .block => x.blockStep zlib seg
  | .stored =>
    match takeBits 8 x.bits with
    | .ok v r =>
      if cap ≤ x.out.length then .inr (.fault 3)
      else
        let y := ({ x.eat r with left := x.left - 1 }).emit [BitVec.ofNat 8 v]
        .inl (if x.left ≤ 1 then y.blockEnd zlib seg else y)
    | _ => .inr .input
  | .fixed | .dynamic =>
    match nextSym x.lit x.dist x.bits with
    | .more => .inr .input
    | .bad => .inr (.fault 1)
    | .ok .eob r => .inl ((x.eat r).blockEnd zlib seg)
    | .ok (.lit b) r => if cap ≤ x.out.length then .inr (.fault 3) else .inl ((x.eat r).emit [BitVec.ofNat 8 b])
    | .ok (.copy len d) r =>
      if x.hist.length < d then .inr (.fault 2)
      else if cap < x.out.length + len then .inr (.fault 3)
      else .inl ((x.eat r).emit (copyBytes x.hist d len []))
  | .adler =>
    match takeBits 32 x.pad with
    | .ok v r => if beNat (leBytes 4 v) = x.sum then .inl { x.eat r with mode := if seg then .trailer else .ended } else .inr (.fault 4)
    | _ => .inr .input
  | .trailer =>
    match takeBits 256 x.pad with
    | .ok v r => if trailerOk x (leBytes 32 v) then .inl { x.eat r with mode := if x.fin then .ended else .block, segAt := x.out.length, between := true } else .inr (.fault 4)
    | _ => .inr .input
  | .ended => .inr .ended

/-- The decompressor runs until it ends; every symbol takes at least one bit. -/
def Inf.run (zlib seg : Bool) (cap : Nat) : Nat → Inf → Inf × InfEnd
  | 0, x => (x, .input)
  | f + 1, x =>
    match x.step zlib seg cap with
    | .inl y => y.run zlib seg cap f
    | .inr e => (x, e)

/-! ### The encodings of a block (R363, R369) -/

/-- The bits of a symbol's canonical code, most significant first. -/
def codeBits (lens : List Nat) (sym : Nat) : List Bool :=
  let l := lens.getD sym 0
  let first := ((List.range l).map (fun k => if k = 0 then 0 else lenCount lens k * 2 ^ (l - k))).sum
  (natBits l (first + (lens.take sym |>.filter (fun x => x = l)).length)).reverse

/-- The code of a base table that holds a value, with its extra bits. -/
def baseCode (tab : List (Nat × Nat)) (v : Nat) : Nat × List Bool :=
  let i := (tab.takeWhile (fun e => e.1 ≤ v)).length - 1
  let e := tab.getD i (0, 0)
  (i, natBits e.2 (v - e.1))

/-- A token's bits. -/
def tokenBits (lit dist : List Nat) (t : Nat × Nat) : List Bool :=
  if t.1 = 0 then codeBits lit t.2
  else
    let l := baseCode lenTable t.1
    let d := baseCode distTable t.2
    codeBits lit (257 + l.1) ++ l.2 ++ codeBits dist d.1 ++ d.2

/-- A token has a code. -/
def tokenCoded (lit dist : List Nat) (t : Nat × Nat) : Bool :=
  if t.1 = 0 then lit.getD t.2 0 ≠ 0 else lit.getD (257 + (baseCode lenTable t.1).1) 0 ≠ 0 && dist.getD (baseCode distTable t.2).1 0 ≠ 0

/-- How many bytes at an input position match those at a distance before it, up to a limit. -/
def matchLen (d : Nat) : Nat → List Byte → List Byte → Nat
  | 0, _, _ => 0
  | _, _, [] => 0
  | n + 1, hist, b :: bs => if hist.getD (d - 1) 0 = b then matchLen d n (b :: hist) bs + 1 else 0

/-- The earlier positions that a level examines at each input position (R368). -/
def candidates (level : Nat) : Nat := 2 ^ (level - 1)

/-- The match search at an input position: of the candidates that the level examines within the window, the longest match of 3 to 258 bytes, the first of equal ones
(DESIGN CHOICE 30) (R363, R368). -/
def searchMatch (level : Nat) (hist data : List Byte) : Option (Nat × Nat) :=
  (List.range (candidates level)).foldl (fun best k =>
    let d := Config.matchCandidate k hist data
    let l := if d = 0 || 32768 < d || hist.length < d then 0 else matchLen d 258 hist data
    if 3 ≤ l && best.all (fun m => decide (m.1 < l)) then some (l, d) else best) none

/-- The tokens of a block: (length, distance) for a match, (0, byte) for a literal. With lazy matching, from level 4, a match gives way to a longer one a byte later (R368). -/
def blockTokens (level : Nat) : Nat → List Byte → List Byte → List (Nat × Nat)
  | 0, _, _ => []
  | _, _, [] => []
  | n + 1, hist, b :: bs =>
    match searchMatch level hist (b :: bs) with
    | none => (0, b.toNat) :: blockTokens level n (b :: hist) bs
    | some m =>
      if 4 ≤ level && (searchMatch level (b :: hist) bs).any (fun x => decide (m.1 < x.1)) then (0, b.toNat) :: blockTokens level n (b :: hist) bs
      else m :: blockTokens level n (((b :: bs).take m.1).reverse ++ hist) ((b :: bs).drop m.1)

/-- The stored encoding at a bit position. -/
def storedBits (fin : Bool) (at_ : Nat) (data : List Byte) : List Bool :=
  natBits 3 (if fin then 1 else 0) ++ List.replicate ((8 - (at_ + 3) % 8) % 8) false ++ natBits 16 data.length ++ natBits 16 (65535 - data.length) ++ byteBits data

/-- The fixed encoding. -/
def fixedBits (fin : Bool) (ts : List (Nat × Nat)) : List Bool :=
  natBits 3 (2 + if fin then 1 else 0) ++ ts.flatMap (tokenBits fixedLit fixedDist) ++ codeBits fixedLit 256

/-- The dynamic encoding, where the chosen lengths make one. -/
def dynamicBits (level : Nat) (fin : Bool) (hist data : List Byte) (ts : List (Nat × Nat)) : Option (List Bool) :=
  let h := Config.deflateLengths level hist data
  match readDynamic h with
  | .ok ls [] =>
    if ts.all (tokenCoded ls.1 ls.2) then
      some (natBits 3 (4 + if fin then 1 else 0) ++ h ++ ts.flatMap (tokenBits ls.1 ls.2) ++ codeBits ls.1 256)
    else none
  | _ => none

/-- The encoding of a block: the shortest, a tie going to stored, then to fixed (R369); level 0 has stored blocks only (R368). -/
def blockBits (level : Nat) (fin : Bool) (at_ : Nat) (hist data : List Byte) : List Bool :=
  let st := storedBits fin at_ data
  if level = 0 then st
  else
    let ts := blockTokens level data.length hist data
    let fx := fixedBits fin ts
    let best := if fx.length < st.length then fx else st
    match dynamicBits level fin hist data ts with
    | some dy => if dy.length < best.length then dy else best
    | none => best

/-- The blocks of a job's input, of 16,384 bytes each; with `fin` the last has BFINAL. Bits in order; `hist` holds what matches may reach before the input. -/
def deflate (level : Nat) (fin : Bool) : Nat → Nat → List Byte → List Byte → List Bool
  | 0, _, _, _ => []
  | f + 1, at_, hist, data =>
    let blk := data.take 16384
    let rest := data.drop 16384
    if blk.isEmpty && !fin then []
    else
      let bs := blockBits level (fin && rest.isEmpty) at_ hist blk
      if rest.isEmpty then bs
      else bs ++ deflate level fin f (at_ + bs.length) ((blk.reverse ++ hist).take 32768) rest

end Sys2Proof.Machine
end

