-- ==== Sys2Proof/Machine/Cru.lean ====
section
/-!
DEFINITION. Crucible's jobs: taking, validation, context records, segments, results and completion (spec 14_crucible_compression, R365 to R379; R324, R347).
A job's work is done when its unit takes it; the completion record follows at CRU_JOB_END.
Points that the spec leaves open or that are read from it by inference: DESIGN CHOICE 30; DEDUCED 31 of the assumption log.
-/

namespace Sys2Proof.Machine

/-! ### The job descriptor (R365, R366) -/

/-- Fields of a job. -/
def jobOp (img : List Byte) : Nat := imgGet img 12 2
def jobIn (img : List Byte) : Nat := imgGet img 16 8
def jobLen (img : List Byte) : Nat := imgGet img 24 4
def jobOut (img : List Byte) : Nat := imgGet img 32 8
def jobCap (img : List Byte) : Nat := imgGet img 40 4
def jobStat (img : List Byte) : Nat := imgGet img 44 8
def jobStream (img : List Byte) : Nat := imgGet img 52 2
def jobLevel (img : List Byte) : Nat := imgGet img 54 1
def jobFlags (img : List Byte) : Nat := imgGet img 55 1
def jobBlk (img : List Byte) : Nat := imgGet img 56 4
/-- JFLAGS. -/
def jobFinal (img : List Byte) : Bool := bit (jobFlags img) 0
def jobZlib (img : List Byte) : Bool := bit (jobFlags img) 1
def jobSeg (img : List Byte) : Bool := bit (jobFlags img) 2
def jobNohist (img : List Byte) : Bool := bit (jobFlags img) 3
def jobCtx (img : List Byte) : Bool := bit (jobFlags img) 4

/-- Opcodes of the two kinds. -/
def opCompress : Nat := 0x10
def opDecompress : Nat := 0x11

/-- The status values of R376 beside the codes of R373. -/
def stBadDesc : Nat := 16
def stCtxBad : Nat := 17
def stOutFull : Nat := 18
def stMemErr : Nat := 19
def stNoPayload : Nat := 20

/-- STATADDR itself lies beyond installed DRAM (R366). -/
def State.statBeyond (s : State) (img : List Byte) : Bool := decide (s.dramEnd ≤ jobStat img)

/-- Some byte of a buffer lies beyond installed DRAM (R366). -/
def State.beyond (s : State) (a n : Nat) : Bool := decide (0 < n) && decide (s.dramEnd < a + n)

/-- A job fails its validation (R366). -/
def State.badDesc (s : State) (img : List Byte) : Bool :=
  (jobOp img ≠ opCompress && jobOp img ≠ opDecompress) || imgFlag img flInline || (9 < jobLevel img && jobLevel img ≠ 255) || 32 ≤ jobFlags img
    || (jobCtx img && 255 < jobStream img) || 67108864 < jobLen img || jobStat img % 32 ≠ 0
    || s.beyond (jobIn img) (jobLen img) || s.beyond (jobOut img) (jobCap img) || s.beyond (jobStat img) 32

/-! ### Context records (R371, R372) -/

/-- A context record's fields. -/
structure CtxRec where
  dec : Bool
  zlib : Bool
  hdr : Bool
  stream : Nat
  hist : List Byte
  blk : Nat
  crc : Nat
  adler : Nat
  orig : Nat
  comp : Nat
  buf : Nat
  nbuf : Nat
  pos : Nat
  left : Nat
  lens : List Nat

/-- The record of a stream that starts. -/
def CtxRec.fresh (dec zlib : Bool) (stream : Nat) : CtxRec := ⟨dec, zlib, false, stream, [], 0, 0xFFFFFFFF, 1, 0, 0, 0, 0, 0, 0, []⟩

/-- The history ring: the byte before the write position is the newest (R372). -/
def histRing (hist : List Byte) (wp : Nat) : List Byte := (List.range 32768).map (fun i => hist.getD ((wp + 32767 - i) % 32768) 0)

/-- A context record's bytes (R372). -/
def CtxRec.bytes (c : CtxRec) : List Byte :=
  let wp := c.orig % 32768
  let head := leBytes 2 0x4358 ++ leBytes 1 1 ++ leBytes 1 (b2n c.dec + 2 * b2n c.zlib + 4 * b2n c.hdr) ++ leBytes 2 c.stream ++ leBytes 2 c.hist.length
    ++ leBytes 4 c.blk ++ leBytes 4 c.crc ++ leBytes 4 c.adler ++ leBytes 8 c.orig ++ leBytes 8 c.comp ++ leBytes 8 c.buf ++ leBytes 1 c.nbuf
    ++ leBytes 1 c.pos ++ leBytes 2 c.left ++ leBytes 4 wp ++ List.replicate 8 0
  let tail := (List.range 320).map (fun i => BitVec.ofNat 8 (c.lens.getD i 0)) ++ List.replicate 640 0 ++ histRing c.hist wp
  head ++ leBytes 4 (crc32c (head ++ tail)) ++ tail

/-- A context record read back, when it is the one a job may restore (R371). -/
def ctxRestore (img bs : List Byte) : Option CtxRec :=
  let f := imgGet bs 3 1
  let n := imgGet bs 6 2
  let wp := imgGet bs 48 4
  let ring := bs.drop 1024
  if imgGet bs 0 2 = 0x4358 && imgGet bs 2 1 = 1 && imgGet bs 60 4 = crc32c (bs.take 60 ++ bs.drop 64) && imgGet bs 4 2 = jobStream img
      && imgGet bs 8 4 = jobBlk img - 1 && bit f 0 = decide (jobOp img = opDecompress) && bit f 1 = jobZlib img then
    some {
      dec := bit f 0
      zlib := bit f 1
      hdr := bit f 2
      stream := imgGet bs 4 2
      hist := (List.range (min n 32768)).map (fun j => ring.getD ((wp + 65535 - j) % 32768) 0)
      blk := imgGet bs 8 4
      crc := imgGet bs 12 4
      adler := imgGet bs 16 4
      orig := imgGet bs 20 8
      comp := imgGet bs 28 8
      buf := imgGet bs 36 8
      nbuf := imgGet bs 44 1
      pos := imgGet bs 45 1
      left := imgGet bs 46 2
      lens := ((bs.drop 64).take 320).map BitVec.toNat }
  else none

/-- The address of slot `g` of a stream (R371). -/
def State.ctxSlot (s : State) (stream g : Nat) : Nat := s.mib Fld.CRU_CTXBASE_BASE + (2 * stream + g % 2) * 33792

/-- What a job works from: the stream's record, or the status with which it ends at once (R371, R375). -/
def State.ctxLoad (s : State) (img : List Byte) : State × (CtxRec ⊕ Nat) :=
  if !jobCtx img || jobBlk img = 0 then (s, .inl (CtxRec.fresh (jobOp img = opDecompress) (jobZlib img) (jobStream img)))
  else
    let a := s.ctxSlot (jobStream img) (jobBlk img - 1)
    let r := s.dramRead 5 a 33792
    if r.2 then (r.1, .inr stMemErr)
    else
      match ctxRestore img (s.readBytes a 33792) with
      | some c => (r.1, .inl c)
      | none => (r.1, .inr stCtxBad)

/-- What a decompressor goes on from when a job resumes: BFINAL of the open block and the bits not consumed. The record's layout has no place for BFINAL, nor for more than 63 bits;
both are taken as Crucible saved them with that record, and for a record of another origin BFINAL is a free value (DESIGN CHOICE 30) (R372, R374). -/
def State.ctxPartial (s : State) (img : List Byte) (c : CtxRec) : Bool × List Bool :=
  let a := s.ctxSlot (jobStream img) (jobBlk img - 1)
  match s.cru.kept.find? (fun k => k.1 = a && k.2.1 = imgGet (s.readBytes a 64) 60 4) with
  | some k => if jobCtx img && jobBlk img ≠ 0 then k.2.2 else (false, [])
  | none => (decide (Config.jobCount 2 [jobStream img, jobBlk img] c.hist [] % 2 = 1), natBits (min 63 c.nbuf) c.buf)

/-- A decompressor's partial state is kept with the record that the job saves (R374). -/
def State.keepPartial (s : State) (img : List Byte) (fin : Bool) (bits : List Bool) : State :=
  let a := s.ctxSlot (jobStream img) (jobBlk img)
  if jobCtx img && !jobFinal img then
    { s with cru := { s.cru with kept := (a, imgGet (s.readBytes a 64) 60 4, fin, bits) :: s.cru.kept.filter (fun k => k.1 ≠ a) } }
  else s

/-- The record saved at a job's end, unless it has FINAL (R371). -/
def State.ctxSave (s : State) (img : List Byte) (c : CtxRec) : State :=
  if jobCtx img && !jobFinal img then s.dramWrite 5 false (s.ctxSlot (jobStream img) (jobBlk img)) ({ c with blk := jobBlk img }).bytes else s

/-- How many bytes from an address lie before the first burst with an uncorrectable error, which is delivered poisoned as a whole (R324). -/
def State.goodBytes (s : State) (a n : Nat) : Nat :=
  s.sys.eccBad.foldl (fun m b =>
    let u := b.2.2 / 8 * 64
    if b.1 = 0 && b.2.1 && decide (a < u + 64) && decide (u < a + n) then min m (u - a) else m) n

/-- A write of `n` bytes covers a part of a word that holds an uncorrectable error, which its read-modify-write meets (R311, R324). -/
def State.mergeBad (s : State) (a n : Nat) : Bool :=
  decide (0 < n) && [a / 8, (a + n - 1) / 8].any (fun k => (decide (8 * k < a) || decide (a + n < 8 * k + 8)) && decide (s.eccAt 0 (8 * k) = 2))

/-- The operands of a job that R369 makes its output a function of, with its places. -/
def jobOps (img : List Byte) (level : Nat) : List Nat := [jobIn img, jobLen img, jobOut img, jobCap img, jobStream img, level, jobFlags img, jobBlk img]

/-! ### Compression (R363, R368 to R370) -/

/-- The zlib header of a level (R363). -/
def zlibHeader (level : Nat) : List Byte := [0x78, if level < 2 then 0x01 else if level < 6 then 0x5E else if level = 6 then 0x9C else 0xDA]

/-- A segment's trailer (R370). -/
def segTrailer (img : List Byte) (level : Nat) (hdr : Bool) (sum len clen crc : Nat) : List Byte :=
  let b := leBytes 2 0x4352 ++ leBytes 1 1 ++ leBytes 1 (b2n (jobFinal img) + 2 * b2n (jobZlib img) + 4 * b2n hdr + 8 * b2n (jobNohist img))
    ++ leBytes 2 (jobStream img) ++ leBytes 1 level ++ leBytes 1 0 ++ leBytes 4 (jobBlk img) ++ leBytes 4 len ++ leBytes 4 clen ++ leBytes 4 crc
    ++ leBytes 4 (if jobZlib img then sum else 0)
  b ++ leBytes 4 (crc32c b)

/-- The level a job runs at. -/
def State.jobLvl (s : State) (img : List Byte) : Nat := if jobLevel img = 255 then s.fld Fld.CRU_LEVEL_LEVEL 0 else jobLevel img

/-- The compressed bytes of a job's data, before the trailer (R363, R369). -/
def compressed (img : List Byte) (level : Nat) (c : CtxRec) (data : List Byte) : List Byte :=
  let hist := if jobNohist img then [] else c.hist
  let hdr := if jobZlib img && !c.hdr then zlibHeader level else []
  let bits := deflate level (jobFinal img) (data.length / 16384 + 2) 0 hist data
  let tail := if jobFinal img then [] else storedBits false bits.length []
  let body := bits ++ tail
  hdr ++ bitBytes (body.length / 8 + 1) body ++ (if jobFinal img && jobZlib img then beBytes 4 (adler c.adler data) else [])

/-- A job's end without any work. -/
def idleJob (q seq : Nat) (img : List Byte) (status : Nat) : CruJob :=
  ⟨q, seq, if jobCtx img then some (jobStream img) else none, img, status, 0, 0, 0, crc32c []⟩

/-- A compression job. How much of its input one that ends OUTFULL or MEMERR has consumed, and how much output the latter has written, no rule says: these counts are the same when
the job is replayed (R369 to R371, R375, R377). -/
def State.compressJob (s : State) (q seq : Nat) (img : List Byte) : State × CruJob :=
  match s.ctxLoad img with
  | (s1, .inr st) => (s1, idleJob q seq img st)
  | (s1, .inl c) =>
    let level := s.jobLvl img
    let good := s1.goodBytes (jobIn img) (jobLen img)
    let r := s1.dramRead 5 (jobIn img) (jobLen img)
    let data := s1.readBytes (jobIn img) good
    let z := compressed img level c data
    let job := idleJob q seq img 0
    let pick (k m : Nat) : Nat := Config.jobCount k (jobOps img level) c.hist data % m
    if r.2 then
      let n := pick 0 (min (jobCap img) z.length + 1)
      let m := pick 1 (good + 1)
      (r.1.dramWrite 5 false (jobOut img) (z.take n), { job with status := stMemErr, inBytes := m, outBytes := n, crc := crc32c (data.take m) })
    else
      let sum := adler c.adler data
      let t := segTrailer img level (jobZlib img && !c.hdr) sum data.length z.length (crc32c data)
      if jobCap img < z.length + 32 then
        let m := pick 1 (data.length + 1)
        let out := z.take (jobCap img)
        (r.1.dramWrite 5 false (jobOut img) out, { job with
          status := if r.1.mergeBad (jobOut img) out.length then stMemErr else stOutFull
          inBytes := m
          outBytes := out.length
          crc := crc32c (data.take m) })
      else
        let c1 := { c with
          hdr := c.hdr || jobZlib img
          hist := (data.reverse ++ c.hist).take 32768
          crc := data.foldl crc32cByte c.crc
          adler := sum
          orig := c.orig + data.length
          comp := c.comp + z.length }
        let bad := r.1.mergeBad (jobOut img) (z.length + t.length)
        ((r.1.dramWrite 5 false (jobOut img) (z ++ t)).only (!bad) (fun s => s.ctxSave img c1),
          { job with status := if bad then stMemErr else 0, inBytes := data.length, outBytes := z.length + 32, crc := crc32c data })

/-! ### Decompression (R373 to R375) -/

/-- The decompressor as a job starts it from its stream's record; `fin` is BFINAL of a block that the record resumes, and `held` the bits not consumed. -/
def infStart (img : List Byte) (c : CtxRec) (fin : Bool) (held : List Bool) (data : List Byte) : Inf where
  bits := held ++ byteBits data
  pos := -(held.length : Int)
  mode := match c.pos with
    | 0 => if jobZlib img && !c.hdr then .header else .block
    | 1 => .stored
    | 2 => .fixed
    | 3 => .dynamic
    | _ => .adler
  left := c.left
  fin := if c.pos = 4 then true else if c.pos = 0 then false else fin
  lit := if c.pos = 2 then fixedLit else c.lens.take 288
  dist := if c.pos = 2 then fixedDist else c.lens.drop 288
  hist := c.hist
  out := []
  segAt := 0
  between := decide (c.pos = 0) && held.isEmpty
  sum := c.adler

/-- The position that a record holds for the decompressor (R372). -/
def infPos : InfMode → Nat
  | .stored => 1
  | .fixed => 2
  | .dynamic => 3
  | .adler => 4
  | _ => 0

/-- The status with which a run ends (R373, R374). -/
def infStatus (img : List Byte) (x : Inf) : InfEnd → Nat
  | .fault c => c
  | .ended => 0
  | .input =>
    if jobFinal img then 6
    else if (x.mode = .block || x.mode = .header) && x.bits.isEmpty && (x.between || !jobSeg img) then 0
    else if jobSeg img || !jobCtx img then 6 else 0

/-- A decompression job (R371, R373 to R375). -/
def State.decompressJob (s : State) (q seq : Nat) (img : List Byte) : State × CruJob :=
  match s.ctxLoad img with
  | (s1, .inr st) => (s1, idleJob q seq img st)
  | (s1, .inl c) =>
    let good := s1.goodBytes (jobIn img) (jobLen img)
    let r := s1.dramRead 5 (jobIn img) (jobLen img)
    let data := s1.readBytes (jobIn img) good
    let part := s1.ctxPartial img c
    let x0 := infStart img c part.1 part.2 data
    let run := x0.run (jobZlib img) (jobSeg img) (jobCap img) (x0.bits.length + 1)
    let x := run.1
    let out := x.out.reverse
    let st := match run.2 with
      | .fault k => k
      | e => if r.2 || r.1.mergeBad (jobOut img) out.length then stMemErr else infStatus img x e
    let s3 := r.1.dramWrite 5 false (jobOut img) out
    let used := if st = 0 && run.2 = .input then data.length else ((x.pos + 7) / 8).toNat
    let c1 := { c with
      hdr := c.hdr || (jobZlib img && x.mode ≠ .header)
      hist := x.hist
      crc := out.foldl crc32cByte c.crc
      adler := x.sum
      orig := c.orig + out.length
      comp := c.comp + used
      buf := if run.2 = .ended then 0 else bitsNat (x.bits.take 63)
      nbuf := if run.2 = .ended then 0 else min 63 x.bits.length
      pos := infPos x.mode
      left := if x.mode = .stored then x.left else 0
      lens := if x.mode = .dynamic then (x.lit ++ List.replicate 288 0).take 288 ++ x.dist else [] }
    let job := { idleJob q seq img st with
      inBytes := used, outBytes := out.length, crc := crc32c out,
      bitPos := match run.2 with
        | .fault _ => x.pos.toNat
        | _ => if st = 6 then x.pos.toNat else 0 }
    if st = 0 then ((s3.ctxSave img c1).keepPartial img x.fin (if run.2 = .ended then [] else x.bits), job) else (s3, job)

/-! ### Taking and ending jobs (R366, R367, R376) -/

/-- A job of unit 0, the compressor, or of unit 1; an undefined opcode of the Crucible range goes to the compressor. -/
def jobUnit (img : List Byte) : Option Nat :=
  let o := jobOp img
  if o = opDecompress then some 1 else if 0x10 ≤ o && o ≤ 0xFF then some 0 else none

/-- The job that a unit takes next: its queues in rotation, a queue's oldest untaken job when it is of the unit's kind and no other job of the queue is in
progress (R367). -/
def State.cruNext (s : State) (unit : Nat) : Option (Nat × Entry) :=
  let last := if unit = 0 then s.cru.lastC else s.cru.lastD
  let qs := (List.range 8).map (fun i => 24 + (last + 1 + i) % 8)
  qs.findSome? (fun q =>
    if (s.queue q).entries.any (fun e => e.taken && !e.done) then none
    else
      match (s.queue q).untaken with
      | some e => if jobUnit e.img = some unit then some (q, e) else none
      | none => none)

/-- CRU_STAT follows the units (R378). -/
def State.cruStat (s : State) : State :=
  let q (j : Option CruJob) : Nat := (j.map (fun j => j.q - 24)).getD 0
  s.setLive Fld.CRU_STAT_CBUSY.addr (BitVec.ofNat 32 (b2n s.cru.comp.isSome + 2 * b2n s.cru.dec.isSome + 2 ^ 4 * q s.cru.comp + 2 ^ 8 * q s.cru.dec
    + 2 ^ 16 * b2n (s.cru.waitC.isSome || s.cru.waitD.isSome)))

/-- A unit runs a taken job (R366, R376). -/
def State.cruRun (s : State) (unit q seq : Nat) (img : List Byte) : State :=
  let r :=
    if s.badDesc img then (s, { idleJob q seq img stBadDesc with stream := none })
    else if imgFlag img flNoPayload then (s, idleJob q seq img stNoPayload)
    else if unit = 0 then s.compressJob q seq img else s.decompressJob q seq img
  (if unit = 0 then { r.1 with cru := { r.1.cru with comp := some r.2, waitC := none } }
    else { r.1 with cru := { r.1.cru with dec := some r.2, waitD := none } }).cruStat

/-- A job must wait for the other unit: both carry one stream (R367). -/
def State.cruClash (s : State) (unit : Nat) (img : List Byte) : Bool :=
  let other := if unit = 0 then s.cru.dec else s.cru.comp
  !s.badDesc img && jobCtx img && (match other with
    | some j => j.stream = some (jobStream img)
    | none => false)

/-- A unit that is free takes its next job; its reads need a MEM that is READY (R320, R340, R367, R465). -/
def State.cruTake (s : State) (unit : Nat) : State :=
  let busy := if unit = 0 then s.cru.comp.isSome || s.cru.waitC.isSome else s.cru.dec.isSome || s.cru.waitD.isSome
  if busy || !s.flag Fld.CRU_CTRL_EN 0 || !s.flag Fld.QUE_CTRL_EN 0 || !s.flag Fld.MEM_STAT_READY 0 then s
  else
    match s.cruNext unit with
    | none => s
    | some (q, e) =>
      let s1 := s.take q e.seq
      let s2 := if unit = 0 then { s1 with cru := { s1.cru with lastC := q - 24 } } else { s1 with cru := { s1.cru with lastD := q - 24 } }
      if s2.cruClash unit e.img then
        (if unit = 0 then { s2 with cru := { s2.cru with waitC := some (q, e.seq) } } else { s2 with cru := { s2.cru with waitD := some (q, e.seq) } }).cruStat
      else s2.cruRun unit q e.seq e.img

/-- COMPRESS (R365 to R371). -/
def execCompress (t : Nat) (s : State) : Out := clocked t s (fun s => s.cruTake 0)

/-- DECOMPRESS (R365 to R367, R371 to R375). -/
def execDecompress (t : Nat) (s : State) : Out := clocked t s (fun s => s.cruTake 1)

/-- The completion record of R376. -/
def completionRecord (j : CruJob) : List Byte :=
  leBytes 4 j.status ++ leBytes 4 j.seq ++ leBytes 8 (imgGet j.img 0 8) ++ leBytes 4 j.inBytes ++ leBytes 4 j.outBytes ++ leBytes 4 j.bitPos ++ leBytes 4 j.crc

/-- A counter of KiB moves by bytes; how a part of a KiB counts is not stated. -/
def State.kib (s : State) (f : Fld) (n : Nat) : State := (s.count f 0 (s.openRound ((n : Rat) / 1024)).toNat).drawn

/-- A waiting job of a unit runs now that its stream is free (R367). -/
def State.cruResume (s : State) (unit : Nat) : State :=
  match if unit = 0 then s.cru.waitC else s.cru.waitD with
  | none => s
  | some (q, seq) =>
    match (s.queue q).entries.find? (fun e => e.seq = seq) with
    | some e => s.only (!s.cruClash unit e.img) (fun s => s.cruRun unit q seq e.img)
    | none => s

/-- A unit's job ends: its completion record is written, counters and CRU_ERR follow, and the descriptor is done (R340, R366, R373, R376). -/
def State.cruEnd (s : State) (unit : Nat) : State :=
  match if unit = 0 then s.cru.comp else s.cru.dec with
  | none => s
  | some j =>
    let s1 := if s.statBeyond j.img then s.faultAt 11 0xFF 0x200 0 3 else s.dramWrite 5 false (jobStat j.img) (completionRecord j)
    let s2 := if unit = 0 then ((s1.count Fld.CRU_CJOB_CNT 0 1).kib Fld.CRU_CIN_KIB j.inBytes).kib Fld.CRU_COUT_KIB j.outBytes
      else (s1.count Fld.CRU_DJOB_CNT 0 1).kib Fld.CRU_DOUT_KIB j.outBytes
    let s3 := s2.only (j.status ≠ 0) (fun s => s.count Fld.CRU_FAULT_CNT 0 1)
    let s4 := s3.only (decide (unit = 1 ∧ 1 ≤ j.status ∧ j.status ≤ 6)) (fun s =>
      ((((s.setFld Fld.CRU_ERR_CODE 0 j.status).setFld Fld.CRU_ERR_QUEUE 0 (j.q - 24)).setFld Fld.CRU_ERR_SEQ_SEQ 0 j.seq).setFld Fld.CRU_ERR_POS_POS 0 j.bitPos).setOnEdge Fld.CRU_ERR_CODE.addr 0xFFFFFFFF)
    let s5 := s4.done j.q j.seq
    let s6 := if unit = 0 then { s5 with cru := { s5.cru with comp := none } } else { s5 with cru := { s5.cru with dec := none } }
    (s6.cruResume (1 - unit)).cruStat

/-- CRU_JOB_END: unit 0 is the compressor, 1 the decompressor (R340, R376). -/
def execCruJobEnd (t : Nat) (unit : Nat) (s : State) : Out := clocked t s (fun s => s.only (unit < 2) (fun s => s.cruEnd unit))

end Sys2Proof.Machine
end

