-- ==== Sys2Proof/Machine/Mst.lean ====
section
/-!
DEFINITION. Transmission on the Ethernet ports and Mirpa Stream Transport: frames, retention, acknowledgement, retransmission and withheld payloads
(spec 13_queues_and_delivery, R353 to R360 and R505; spec 15_network_and_host, R381 to R384; the framing of legacy mode, R453).
Points that the spec leaves open or that are read from it by inference: DESIGN CHOICE 26; DEDUCED 29 of the assumption log.
-/

namespace Sys2Proof.Machine

/-! ### The ports (R381, R383) -/

/-- A microsecond in quarters of an ACLK tick. -/
def usQuarter : Nat := 3125

/-- Port `n` is enabled and has a link. -/
def State.portUp (s : State) (n : Nat) : Bool := decide (n < 2) && bit (s.fld Fld.NET_CTRL_PORT_EN 0) n && s.flag Fld.NET_Pn_STAT_LINK n

/-- Port `n`'s own MAC address. -/
def State.portMac (s : State) (n : Nat) : Nat := s.fld Fld.NET_Pn_MAC_HI_MAC n * 2 ^ 32 + s.fld Fld.NET_Pn_MAC_LO_MAC n

/-- The IPv6 address in four words, the first most significant. -/
def State.ip6 (s : State) (f : Fld) (n : Nat) : Nat :=
  (List.range 4).foldl (fun v k => v * 2 ^ 32 + s.fld { f with addr := f.addr + 4 * k } n) 0

/-- The destination IP address of port `n`'s streams. -/
def State.portDip (s : State) (n : Nat) : Nat := if s.flag Fld.NET_Pn_MODE_IPV6 n then s.ip6 Fld.NET_Pn_DIP6_0_ADDR n else s.fld Fld.NET_Pn_DIP4_ADDR n

/-- A frame leaves on a port that is up, unless the device enters hibernate: counted in NET_TXFRM_CNT, with VID and PCP under VLAN_EN (R381, R470). -/
def State.send (s : State) (n cls dmac dip dport : Nat) (body : List Byte) : State :=
  if s.portUp n && s.sys.hibDue.isNone then
    let vlan := if s.flag Fld.NET_Pn_MODE_VLAN_EN n then some (s.fld Fld.NET_Pn_MODE_VID n, cls % 8) else none
    { s with tx := ⟨n, cls, dmac, dip, dport, vlan, body⟩ :: s.tx }.count Fld.NET_TXFRM_CNT n 1
  else s

/-- The ports that a stream's frames leave on (R383). -/
def State.streamPorts (s : State) : List Nat :=
  match s.fld Fld.NET_CTRL_STREAMPORT 0 with
  | 0 => [0]
  | 1 => [1]
  | 2 => [s.fld Fld.NET_STAT_ACTIVEPORT 0]
  | _ => [0, 1]

/-- The transmit class of queue `q` (R383). -/
def queueClass (q : Nat) : Nat :=
  if 60 ≤ q then 6 else if 48 ≤ q then q - 48 else if 16 ≤ q && q < 24 then 5 else 4

/-- A stream frame on the ports of the streams. -/
def State.sendStream (s : State) (q : Nat) (body : List Byte) : State :=
  s.each s.streamPorts (fun n s =>
    s.send n (queueClass q) (s.fld Fld.NET_Pn_DMAC_HI_DMAC n * 2 ^ 32 + s.fld Fld.NET_Pn_DMAC_LO_DMAC n) (s.portDip n) (s.fld Fld.NET_UDP_DEST 0) body)

/-- The bytes of records that a frame holds on port `n` (R355). -/
def frameCap (mtu : Nat) (ip6 : Bool) : Nat := mtu - (if ip6 then 40 else 20) - 44

/-- The frame capacity of the ports in use (R355). -/
def State.capacity (s : State) : Nat :=
  s.streamPorts.foldl (fun m n => min m (frameCap (s.fld Fld.NET_Pn_MTU_MTU n) (s.flag Fld.NET_Pn_MODE_IPV6 n))) 65536

/-! ### Frames (R354) -/

/-- An MST frame: header, payload and CRC. -/
def mstFrame (version flags stream epoch seq sec ns rseq recsz : Nat) (body : List Byte) : List Byte :=
  let h := leBytes 2 0x4D51 ++ leBytes 1 version ++ leBytes 1 flags ++ leBytes 2 stream ++ leBytes 2 body.length ++ leBytes 4 epoch ++ leBytes 4 seq
    ++ leBytes 6 sec ++ leBytes 4 ns ++ leBytes 4 rseq ++ leBytes 1 recsz ++ leBytes 1 0 ++ body
  h ++ leBytes 4 (crc32c h)

/-- A frame with RETX set, otherwise identical (R357). -/
def withRetx (bs : List Byte) : List Byte :=
  let h := imgSet (bs.take (bs.length - 4)) 3 1 (setBit (imgGet bs 3 1) 2 true)
  h ++ leBytes 4 (crc32c h)

/-- Record `k` of a descriptor: its image or a part of its payload, padded with zeros (R353). -/
def recordBytes (rsz : Nat) (img payload : List Byte) (k : Nat) : List Byte :=
  let b := if imgFlag img flInline then img.take 64 else (payload.drop (k * rsz)).take rsz
  (b ++ List.replicate rsz 0).take rsz

/-! ### Forming frames (R353, R355, R505) -/

/-- Records are counted modulo 2^32. -/
def recDist (a b : Nat) : Nat := (b + 2 ^ 32 - a % 2 ^ 32) % 2 ^ 32

/-- A record number lies among a descriptor's records. -/
def Entry.holds (e : Entry) (r : Nat) : Bool := decide (recDist e.rec0 r < e.nrec)

/-- A descriptor's payload cannot be read: a part lies beyond installed DRAM, or holds an uncorrectable error (R505). -/
def State.unreadable (s : State) (img : List Byte) : Bool :=
  !imgFlag img flInline && 0 < imgGet img 24 4
    && (s.dramEnd < imgGet img 16 8 + imgGet img 24 4 || s.eccRange 0 (imgGet img 16 8) (imgGet img 24 4) = 2)

/-- The records from `r` on that NET can place in frames: (descriptor, record), up to `n` of them and up to the first that must be withheld. -/
def State.readyRecs (s : State) (q : Nat) : Nat → Nat → List (Entry × Nat)
  | 0, _ => []
  | n + 1, r =>
    match (s.queue q).entries.find? (fun e => e.holds r) with
    | some e => if e.skip || s.unreadable e.img then [] else (e, recDist e.rec0 r) :: s.readyRecs q n ((r + 1) % 2 ^ 32)
    | none => []

/-- Queue `q` is consumed by NET and its stream may form frames: the device is no standby or fenced unit, nothing is being withheld, and the
report streams wait while Hearth restarts (R36, R320, R347, R384). -/
def State.streamOn (s : State) (q : Nat) : Bool :=
  decide (q < 64) && decide (s.cons q = consNet) && s.flag Fld.MEM_STAT_READY 0 && s.flag Fld.QUE_CTRL_EN 0 && decide (s.fld Fld.TWN_STAT_ROLE 0 < 2)
    && (s.queue q).stream.unread.isNone && (s.sys.hearth || !(decide (60 ≤ q) && decide (q < 63)))

/-- A frame is formed of records, whose payloads are read on MP7, transmitted and retained; in legacy mode it is neither retained nor acknowledged, and a descriptor is done when its last record
has left (R354, R355, R357, R360, R453). -/
def State.formFrame (s : State) (q : Nat) (recs : List (Entry × Nat)) : State :=
  let x := s.queue q
  let st := x.stream
  let rsz := s.recSize q
  let one (e : Entry × Nat) : List Byte := recordBytes rsz e.1.img (if imgFlag e.1.img flInline then [] else s.readBytes (imgGet e.1.img 16 8) (imgGet e.1.img 24 4)) e.2
  let first := decide (st.next = 0) && st.sync
  let flags := 2 * b2n first + 16 * b2n (first && st.cold)
  let body := recs.flatMap one
  let frame := mstFrame (if s.legacy then 1 else 2) flags (s.fld Fld.QUE_Qq_CFG_STREAM q) (if s.legacy then 0 else s.fld Fld.TWN_EPOCH_EPOCH 0) st.next
    (s.ptpSec % 2 ^ 48) s.ptpNs st.nextRec (s.fld Fld.QUE_Qq_CFG_RECSZ q) body
  let n := recs.length
  let kept : List MstFrame := if s.legacy then [] else [⟨st.next, frame, st.nextRec, n, s.dev, 0, false, false⟩]
  let read := recs.foldl (fun s e =>
    if imgFlag e.1.img flInline then s else (s.portRead 7 false (imgGet e.1.img 16 8 + rsz * e.2) (min rsz (imgGet e.1.img 24 4 - rsz * e.2))).1) s
  let s0 := read.each (recs.map (fun e => imgGet e.1.img 8 4)) (fun seq s => (s.onQueue q (fun x => x.mark seq (fun e => { e with taken := true }))).setFld Fld.QUE_Qq_TAKEN_SEQ_SEQ q seq)
  let s1 := s0.onQueue q (fun x => { x with stream := { x.stream with
    next := (st.next + 1) % 2 ^ 32, nextRec := (st.nextRec + n) % 2 ^ 32, sync := st.sync && !first, cold := st.cold && !first,
    frames := x.stream.frames ++ kept } })
  let s2 := (s1.sendStream q frame).setRetain q
  if s.legacy then s2.each ((recs.filter (fun e => e.2 + 1 = e.1.nrec)).map (fun e => e.1.seq)) (fun seq s => s.done q seq) else s2

/-- The oldest record that waits for a frame has waited QUE_MST_FLUSH (R355). -/
def State.flushDue (s : State) (recs : List (Entry × Nat)) : Bool :=
  match recs with
  | e :: _ => decide (4 * e.1.at_ + s.fld Fld.QUE_MST_FLUSH_FLUSH 0 * usQuarter ≤ 4 * s.dev)
  | [] => false

/-- How many records fill a frame. -/
def State.perFrame (s : State) (q : Nat) : Nat := s.capacity / s.recSize q

/-- The records of the next frame of a stream that may form one. -/
def State.nextRecs (s : State) (q : Nat) : List (Entry × Nat) :=
  if s.streamOn q && !retainFull (s.queue q).stream then s.readyRecs q (s.perFrame q) (s.queue q).stream.nextRec else []

/-- MST_FRAME_SEND: a frame is full (R355). -/
def execMstFrameSend (t : Nat) (q : Nat) (s : State) : Out :=
  clocked t s (fun s =>
    let recs := s.nextRecs q
    s.only (!recs.isEmpty && recs.length = s.perFrame q) (fun s => s.formFrame q recs))

/-- MST_FLUSH_TIMEOUT: QUE_MST_FLUSH µs after the first record of a frame (R355). -/
def execMstFlushTimeout (t : Nat) (q : Nat) (s : State) : Out :=
  clocked t s (fun s =>
    let recs := s.nextRecs q
    s.only (!recs.isEmpty && recs.length < s.perFrame q && s.flushDue recs) (fun s => s.formFrame q recs))

/-! ### Withheld records (R347, R360, R505) -/

/-- Every descriptor of queue `q` before `seq` is done. -/
def State.earlierDone (s : State) (q seq : Nat) : Bool := ((s.queue q).entries.takeWhile (fun e => e.seq ≠ seq)).all (fun e => e.done)

/-- The first record from `r` on that is sent. -/
def Queue.beyond (x : Queue) (r : Nat) : Nat :=
  match x.entries.find? (fun e => !e.skip && decide (0 < e.nrec) && decide (recDist r e.rec0 < 2 ^ 31)) with
  | some e => e.rec0
  | none => x.rseqNext

/-- The descriptor of withheld records completes without transmission, and the stream restarts beyond them. The report names the queue as unit, the sequence through
QUE_Qq_TAKEN_SEQ, and in its detail the first record, their number and the stream (DESIGN CHOICE 26) (R324, R352, R505). -/
def State.withhold (s : State) (q : Nat) (e : Entry) : State :=
  let s1 := (s.onQueue q (fun x => x.mark e.seq (fun e => { e with skip := true }))).setFld Fld.QUE_Qq_TAKEN_SEQ_SEQ q e.seq
  let s2 := s1.done q e.seq
  let s3 := (s2.onQueue q (fun x => x.restartAt (x.beyond ((e.rec0 + e.nrec) % 2 ^ 32)))).setRetain q
  s3.faultAt 10 q (0x4028 + 0x100 * q) (e.rec0 + 2 ^ 32 * min 65535 e.nrec + 2 ^ 48 * s.fld Fld.QUE_Qq_CFG_STREAM q) 3

/-- The stream restarts beyond withheld records once every earlier descriptor is done; a payload that could not be read completes then, with its report (R347, R360, R505). -/
def State.streamSettle (s : State) (q : Nat) : State :=
  let x := s.queue q
  match x.stream.unread with
  | some seq =>
    if s.earlierDone q seq then
      match x.entries.find? (fun e => e.seq = seq) with
      | some e => s.withhold q e
      | none => s.restream q
    else s
  | none =>
    if x.stream.frames.isEmpty && x.stream.nextRec ≠ x.rseqNext && !x.entries.any (fun e => !e.skip && e.holds x.stream.nextRec) then
      s.onQueue q (fun x => x.restartAt (x.beyond x.stream.nextRec))
    else s

/-- PAYLOAD_UNREADABLE: NET finds the next payload of queue `q` unreadable; `ue` says that its read meets an uncorrectable error (R324, R505). -/
def execPayloadUnreadable (t : Nat) (q : Nat) (ue : Bool) (s : State) : Out :=
  clocked t s (fun s =>
    let x := s.queue q
    s.only (s.streamOn q) (fun s =>
      match x.entries.find? (fun e => !e.skip && e.holds x.stream.nextRec) with
      | some e =>
        let a := imgGet e.img 16 8
        let n := imgGet e.img 24 4
        let beyond := decide (s.dramEnd < a + n)
        if (ue && !imgFlag e.img flInline && 0 < n) || s.unreadable e.img then
          let s1 := s.only (ue && !beyond && s.eccRange 0 a n ≠ 2) (fun s => { s with sys := { s.sys with eccBad := s.sys.eccBad ++ [(0, true, a / 8)] } })
          let s2 := if beyond then s1 else (s1.dramRead 7 a n).1
          (s2.onQueue q (fun x => { x with stream := { x.stream with unread := some e.seq } })).streamSettle q
        else s
      | none => s))

/-! ### Acknowledgement and retransmission (R356 to R358) -/

/-- A frame sequence lies at or before another, modulo 2^32. -/
def seqLe (a b : Nat) : Bool := decide (recDist a b < 2 ^ 31)

/-- A descriptor whose records have all left and lie in no retained frame is done (R358). -/
def ackedSeqs (x : Queue) : List Nat :=
  (x.entries.filter (fun e => !e.done && 0 < e.nrec && decide (recDist e.rec0 x.stream.nextRec ≥ e.nrec) && decide (recDist e.rec0 x.stream.nextRec < 2 ^ 31)
    && !x.stream.frames.any (fun f => decide (recDist f.rec0 e.rec0 < f.nrec) || decide (recDist e.rec0 f.rec0 < e.nrec)))).map (fun e => e.seq)

/-- An acknowledgement of queue `q`'s stream: cumulative and by bitmap; a frame reported missing is sent again once, by a unit that
transmits (R347, R356, R357). -/
def State.ackStream (s : State) (q seq bitmap : Nat) : State :=
  let st := (s.queue q).stream
  let acked (f : MstFrame) : Bool := seqLe f.seq seq || (recDist seq f.seq ≤ 64 && bit bitmap (recDist seq f.seq - 1))
  let last := if bitmap = 0 then seq else seq + 1 + Nat.log2 bitmap
  let keep := st.frames.filter (fun f => !acked f)
  let gaps := if s.role < 2 then keep.filter (fun f => !f.gapSent && seqLe f.seq last) else []
  let s1 := s.onQueue q (fun x => { x with stream := { x.stream with frames := keep.map (fun f => if gaps.contains f then { f with gapSent := true } else f) } })
  let s2 := gaps.foldl (fun s f => (s.sendStream q (withRetx f.bytes)).count Fld.QUE_RETX_CNT 0 1) s1
  let s3 := (ackedSeqs (s2.queue q)).foldl (fun s seq => s.done q seq) s2
  (((if keep.length < st.frames.length then s3.setFlag Fld.QUE_Qq_STAT_STALLED q false else s3).setRetain q)).streamSettle q

/-- A received frame is dropped (R381). -/
def State.rxDrop (s : State) : State := s.count Fld.NET_RXDROP_CNT 0 1

/-- A received frame reaches its handler on a port that is up and with the right VID; otherwise a frame with another VID is dropped and counted (R381). -/
def State.receive (s : State) (n : Nat) (vid : Option Nat) (f : State → State) : State :=
  if !s.portUp n then s
  else if s.flag Fld.NET_Pn_MODE_VLAN_EN n && vid ≠ some (s.fld Fld.NET_Pn_MODE_VID n) then s.rxDrop
  else f s

/-- An MST frame's CRC and magic hold (R354). -/
def mstOk (f : List Byte) : Bool := decide (36 ≤ f.length) && imgGet f 0 2 = 0x4D51 && leNat (f.drop (f.length - 4)) = crc32c (f.take (f.length - 4))

/-- An ACK frame (R354, R356). -/
def ackForm (f : List Byte) : Bool := mstOk f && imgGet f 2 1 = 2 && bit (imgGet f 3 1) 0 && f.length = 44

/-- A management frame: AUTH on stream 0xFFFF (R393). -/
def mgmtForm (f : List Byte) : Bool := mstOk f && bit (imgGet f 3 1) 3 && imgGet f 4 2 = 0xFFFF

/-- MST_ACK: an ACK frame arrives on port `n`; one of another epoch is ignored, and in legacy mode every one. UDP to that port that is no MST frame of a kind the port accepts is
dropped (R356, R381, R382, R453). -/
def execMstAck (t : Nat) (n : Nat) (vid : Option Nat) (frame : List Byte) (s : State) : Out :=
  clocked t s (fun s => s.receive n vid (fun s =>
    if !ackForm frame then s.only (!mgmtForm frame) State.rxDrop
    else if imgGet frame 8 4 = s.fld Fld.TWN_EPOCH_EPOCH 0 && !s.legacy then
      match (List.range 64).find? (fun q => s.cons q = consNet && s.fld Fld.QUE_Qq_CFG_STREAM q = imgGet frame 4 2) with
      | some q => s.ackStream q (imgGet frame 12 4) (imgGet frame 32 8)
      | none => s
    else s))

/-- A frame's retransmission timeout: RTO × 2^k, k at most 6 (R357). -/
def State.rtoDue (s : State) (f : MstFrame) : Bool :=
  decide (4 * f.sentAt + s.fld Fld.QUE_MST_RTO_RTO 0 * 2 ^ min f.timeouts 6 * usQuarter ≤ 4 * s.dev)

/-- MST_RTO: the frame `seq` of queue `q` is sent again; after 16 timeouts the stream is STALLED (R357). -/
def execMstRto (t : Nat) (q seq : Nat) (s : State) : Out :=
  clocked t s (fun s =>
    match (s.queue q).stream.frames.find? (fun f => f.seq = seq) with
    | some f =>
      s.only (q < 64 && s.rtoDue f && decide (s.fld Fld.TWN_STAT_ROLE 0 < 2)) (fun s =>
        let s1 := s.onQueue q (fun x => { x with stream := { x.stream with
          frames := x.stream.frames.map (fun g => if g.seq = seq then { g with sentAt := s.dev, timeouts := g.timeouts + 1 } else g) } })
        let s2 := (s1.sendStream q (withRetx f.bytes)).count Fld.QUE_RETX_CNT 0 1
        if f.timeouts = 15 then (s2.setFlag Fld.QUE_Qq_STAT_STALLED q true).faultAt 10 q (0x401C + 0x100 * q) 0 1 else s2)
    | none => s)

end Sys2Proof.Machine
end

