-- ==== Sys2Proof/Machine/Net.lean ====
section
/-!
DEFINITION. The Ethernet ports, ARP and neighbour discovery, PTP and the PPS pins (spec 15_network_and_host, R380 to R387).
The formats of ARP, ICMPv6 and PTP messages are those of the standards that the rules name (assumption 27).
Points that the spec leaves open or that are read from it by inference: PRESUMED 27; DESIGN CHOICE 28 of the assumption log.
-/

namespace Sys2Proof.Machine

/-! ### Links (R380, R383) -/

/-- 500 ms in ACLK ticks. -/
def speedTry : Nat := 390625000

/-- ACTIVEPORT in failover mode: port 1 while port 0 has no link (R383). -/
def State.setActive (s : State) : State :=
  s.setFlag Fld.NET_STAT_ACTIVEPORT 0 (s.fld Fld.NET_CTRL_STREAMPORT 0 = 2 && !s.portUp 0 && s.portUp 1)

/-- Link state of port `n`: speed 0 for none. -/
def State.setLink (s : State) (n speed : Nat) : State :=
  let up := decide (speed ≠ 0)
  let s1 := ((s.setFlag Fld.NET_Pn_STAT_LINK n up).setFld Fld.NET_Pn_STAT_SPEED n speed).setFlag Fld.NET_Pn_STAT_LOCK n up
  let s2 := s1.setFld Fld.NET_STAT_LINK 0 (setBit (s1.fld Fld.NET_STAT_LINK 0) n up)
  { s2 with net := { s2.net with speed := s2.net.speed.setIfInBounds n (if up then speed else 1, s2.dev) } }.setActive

/-- LINK_UP: at 10GBASE-R (1) or 1000BASE-X (2), as the mode allows (R380). -/
def execLinkUp (t : Nat) (n speed : Nat) (s : State) : Out :=
  ticking t s (fun s => s.only (n < 2 && bit (s.fld Fld.NET_CTRL_PORT_EN 0) n && !s.flag Fld.NET_Pn_STAT_LINK n
    && (if s.fld Fld.NET_Pn_MODE_SPEED n = 0 then speed = (s.net.speed.getD n (1, 0)).1 else speed = s.fld Fld.NET_Pn_MODE_SPEED n))
    (fun s => s.setLink n speed))

/-- LINK_DOWN (R380, R383). -/
def execLinkDown (t : Nat) (n : Nat) (s : State) : Out :=
  ticking t s (fun s => s.only (n < 2 && s.flag Fld.NET_Pn_STAT_LINK n) (fun s => s.setLink n 0))

/-- SPEED_TRY_TIMEOUT (R380). -/
def execSpeedTryTimeout (t : Nat) (n : Nat) (s : State) : Out :=
  ticking t s (fun s =>
    let x := s.net.speed.getD n (1, 0)
    s.only (n < 2 && s.fld Fld.NET_Pn_MODE_SPEED n = 0 && !s.flag Fld.NET_Pn_STAT_LINK n && bit (s.fld Fld.NET_CTRL_PORT_EN 0) n && decide (x.2 + speedTry ≤ s.dev))
      (fun s => { s with net := { s.net with speed := s.net.speed.setIfInBounds n (3 - x.1, s.dev) } }))

/-! ### Received frames, ARP and neighbour discovery (R381, R382) -/

/-- The multicast addresses of PTP. -/
def ptpMacs : List Nat := [0x011B19000000, 0x0180C200000E, 0x01005E000181, 0x01005E00006B]

/-- A port accepts a frame of this kind at this destination; UDP to NET_UDP.LOCAL holds an ACK or a management frame (R382). -/
def State.accepts (s : State) (n dst : Nat) : RxKind → Bool
  | .udp p b => if p = 319 || p = 320 then dst = s.portMac n || ptpMacs.contains dst
    else p = s.fld Fld.NET_UDP_LOCAL 0 && dst = s.portMac n && (ackForm b || mgmtForm b)
  | .ptp => dst = s.portMac n || ptpMacs.contains dst
  | .arp => dst = s.portMac n || dst = 0xFFFFFFFFFFFF
  | .neighbour => dst = s.portMac n
  | .other => false

/-- RX_FRAME_DROP: a frame of a kind or to a destination that the port does not accept, or with another VID (R381, R382). -/
def execRxFrameDrop (t : Nat) (n : Nat) (vid : Option Nat) (dst : Nat) (kind : RxKind) (s : State) : Out :=
  ticking t s (fun s => s.receive n vid (fun s => s.only (!s.accepts n dst kind) State.rxDrop))

/-- The next hop that software has set for port `n` (R381). -/
def State.portDmac (s : State) (n : Nat) : Nat := s.fld Fld.NET_Pn_DMAC_HI_DMAC n * 2 ^ 32 + s.fld Fld.NET_Pn_DMAC_LO_DMAC n

/-- A reply to a resolution request, like every frame to the port's next hop; its transmit class no rule names (R381). -/
def State.reply (s : State) (n dip : Nat) (body : List Byte) : State := (s.send n (s.freeVal 8) (s.portDmac n) dip 0 body).drawn

/-- The ARP reply of port `n`. -/
def State.arpReply (s : State) (n smac sip : Nat) : List Byte :=
  beBytes 2 1 ++ beBytes 2 0x0800 ++ beBytes 1 6 ++ beBytes 1 4 ++ beBytes 2 2 ++ beBytes 6 (s.portMac n) ++ beBytes 4 (s.fld Fld.NET_Pn_IP4_ADDR n)
    ++ beBytes 6 smac ++ beBytes 4 sip

/-- ARP_REQUEST for `target` from `smac` and `sip` (R381). -/
def execArpRequest (t : Nat) (n : Nat) (vid : Option Nat) (smac sip target : Nat) (s : State) : Out :=
  ticking t s (fun s => s.receive n vid (fun s =>
    s.only (!s.flag Fld.NET_Pn_MODE_IPV6 n && target = s.fld Fld.NET_Pn_IP4_ADDR n) (fun s => s.reply n sip (s.arpReply n smac sip))))

/-- The one's-complement sum of 16-bit big-endian words. -/
def onesSum : Nat → List Byte → Nat
  | 0, _ => 0
  | n + 1, bs => if bs.isEmpty then 0 else beNat (bs.take 2) + onesSum n (bs.drop 2)

/-- The Internet checksum of bytes. -/
def checksum (bs : List Byte) : Nat := let v := onesSum bs.length bs
  let w := v % 65536 + v / 65536
  65535 - (w % 65536 + w / 65536)

/-- The neighbour advertisement of port `n`. -/
def State.advert (s : State) (n smac sip : Nat) : List Byte :=
  let own := s.ip6 Fld.NET_Pn_IP6_0_ADDR n
  let body := beBytes 4 0x60000000 ++ beBytes 16 own ++ beBytes 2 0x0201 ++ beBytes 6 (s.portMac n)
  let sum := checksum (beBytes 16 own ++ beBytes 16 sip ++ beBytes 4 32 ++ beBytes 4 58 ++ beBytes 4 0x88000000 ++ body)
  let _ := smac
  beBytes 2 0x8800 ++ beBytes 2 sum ++ body

/-- NEIGHBOUR_SOLICITATION for `target` (R381). -/
def execNeighbourSolicitation (t : Nat) (n : Nat) (vid : Option Nat) (smac sip target : Nat) (s : State) : Out :=
  ticking t s (fun s => s.receive n vid (fun s =>
    s.only (s.flag Fld.NET_Pn_MODE_IPV6 n && target = s.ip6 Fld.NET_Pn_IP6_0_ADDR n) (fun s => s.reply n sip (s.advert n smac sip))))

/-! ### The PTP clock and servo (R385) -/

/-- The present PTP time in hundredths of a nanosecond. -/
def State.ptpHundredths (s : State) : Int :=
  let d : Int := 128 * ((s.now : Int) - s.ptp.since)
  s.ptp.base + d + d * s.ptp.rate / 2 ^ 32

/-- The PTP clock set to a time and a rate. Where it steps back, the boundaries of the seconds that it passes again come again (R386). -/
def State.setPtp (s : State) (base rate : Int) : State :=
  let s1 := { s with ptp := ⟨base, s.now, rate⟩ }
  { s1 with net := { s1.net with secEdge := min s1.net.secEdge s1.ptpSec, secOut := min s1.net.secOut s1.ptpSec } }

/-- 500 ppm in steps of 2^-32. -/
def maxRate : Nat := 2147483

/-- A hardware stamp: the present time to within 8 ns (R385). -/
def State.ptpStamp (s : State) : Int := (s.ptpTotal : Int) + s.freeVal 17 - 8

/-- The role in force: a standby whose mirrored role is master runs as slave (R384). -/
def State.ptpRole (s : State) : Nat :=
  if s.fld Fld.TWN_STAT_ROLE 0 = 2 && s.fld Fld.NET_PTP_ROLE 0 = 2 then 1 else s.fld Fld.NET_PTP_ROLE 0

/-- UDP transport is selected on a port in IPv6 mode (R385). -/
def State.ptpConf (s : State) : Bool := s.flag Fld.NET_PTP_TRANSPORT 0 && s.flag Fld.NET_Pn_MODE_IPV6 (s.fld Fld.NET_PTP_PORT 0)

/-- A PTP message of the profile arrives on the PTP port in a role (R385). -/
def State.ptpRx (s : State) (role port : Nat) (udp : Bool) (dom : Nat) : Bool :=
  s.ptpRole = role && port = s.fld Fld.NET_PTP_PORT 0 && s.portUp port && udp = s.flag Fld.NET_PTP_TRANSPORT 0 && dom = s.fld Fld.NET_PTP_DOMAIN 0 && !s.ptpConf

/-- A PTP header with its body. -/
def State.ptpMsg (s : State) (kind flags seq log : Nat) (body : List Byte) : List Byte :=
  let mac := s.portMac (s.fld Fld.NET_PTP_PORT 0)
  beBytes 1 kind ++ beBytes 1 0x12 ++ beBytes 2 (34 + body.length) ++ beBytes 1 (s.fld Fld.NET_PTP_DOMAIN 0) ++ beBytes 1 0 ++ beBytes 1 flags ++ beBytes 1 0
    ++ beBytes 8 0 ++ beBytes 4 0 ++ beBytes 3 (mac / 2 ^ 24) ++ beBytes 2 0xFFFE ++ beBytes 3 mac ++ beBytes 2 1 ++ beBytes 2 seq ++ beBytes 1 0 ++ beBytes 1 log ++ body

/-- A time as a PTP timestamp: seconds and nanoseconds. -/
def ptpTime (ns : Int) : List Byte := beBytes 6 (ns / 1000000000).toNat ++ beBytes 4 (ns % 1000000000).toNat

/-- A PTP message leaves: layer 2 or UDP to the PTP multicast address; event messages bypass the classes (R383, R385). -/
def State.sendPtp (s : State) (event : Bool) (body : List Byte) : State :=
  let n := s.fld Fld.NET_PTP_PORT 0
  let udp := s.flag Fld.NET_PTP_TRANSPORT 0
  (s.send n (if event then 8 else s.freeVal 8) (if udp then 0x01005E000181 else 0x011B19000000) (if udp then 0xE0000181 else 0)
    (if udp then (if event then 319 else 320) else 0) body).drawn

/-- The slave sends a Delay_Req once it knows a Sync's origin, and keeps its sequence and stamp for the answer (DESIGN CHOICE 28) (R385). -/
def State.delayReq (s : State) : State :=
  let seq := s.net.reqSeq
  let s1 := { s with net := { s.net with reqSeq := (seq + 1) % 65536, delayReq := some (seq, s.ptpStamp) } }.drawn
  s1.sendPtp true (s1.ptpMsg 1 0 seq 127 (ptpTime 0))

/-- PTP_SYNC_RX: `origin` is the message's origin time in nanoseconds; a two-step Sync waits for its Follow_Up (R385). -/
def execPtpSyncRx (t : Nat) (port : Nat) (udp : Bool) (dom seq origin : Nat) (twoStep : Bool) (s : State) : Out :=
  ticking t s (fun s => s.only (s.ptpRx 1 port udp dom) (fun s =>
    (({ s with net := { s.net with syncAt := s.dev, sync := some ⟨seq, s.ptpStamp, if twoStep then none else some origin⟩ } }).drawn).only (!twoStep) State.delayReq))

/-- PTP_FOLLOW_UP_RX (R385). -/
def execPtpFollowUpRx (t : Nat) (port : Nat) (udp : Bool) (dom seq origin : Nat) (s : State) : Out :=
  ticking t s (fun s => s.only (s.ptpRx 1 port udp dom) (fun s =>
    match s.net.sync with
    | some y => if y.seq = seq && y.origin.isNone then { s with net := { s.net with sync := some { y with origin := some origin } } }.delayReq else s
    | none => s))

/-- The servo acts on an offset: it is shown; beyond 1 µs the clock steps, else it is slewed at a rate that no rule fixes; PTPLOCK follows 16 consecutive offsets
(R385). -/
def State.servo (s : State) (off : Int) : State :=
  let s1 := s.setFld Fld.NET_PTP_OFFSET_OFFSET 0 (wrapInt 32 off)
  let s2 := if 1000 < off.natAbs then s1.setPtp (s.ptpHundredths - 100 * off) s.ptp.rate
    else (s1.setPtp s.ptpHundredths ((s1.freeVal (2 * maxRate + 1) : Int) - maxRate)).drawn
  let good := if off.natAbs ≤ 100 then s.net.good + 1 else 0
  let bad := if 1000 < off.natAbs then s.net.bad + 1 else 0
  let s3 := { s2 with net := { s2.net with good := good, bad := bad } }
  if 16 ≤ good then s3.setFlag Fld.NET_STAT_PTPLOCK 0 true else if 16 ≤ bad then s3.setFlag Fld.NET_STAT_PTPLOCK 0 false else s3

/-- PTP_DELAY_RESP_RX: the answer to the Delay_Req of sequence `seq`; `t4` is the master's stamp in nanoseconds. While Hearth restarts the servo rests (R36, R385). -/
def execPtpDelayRespRx (t : Nat) (port : Nat) (udp : Bool) (dom seq t4 : Nat) (s : State) : Out :=
  ticking t s (fun s => s.only (s.ptpRx 1 port udp dom && s.sys.hearth) (fun s =>
    match s.net.sync, s.net.delayReq with
    | some ⟨_, t2, some t1⟩, some (q, t3) =>
      if q = seq then
        let off := s.openRound ((((t2 - t1) - ((t4 : Int) - t3) : Int) : Rat) / 2)
        ({ s with net := { s.net with sync := none, delayReq := none } }).drawn.servo off
      else s
    | _, _ => s))

/-- A sixteenth of a second in ACLK ticks. -/
def syncPeriod : Nat := 48828125

/-- The device may act as PTP master. -/
def State.ptpMaster (s : State) : Bool := s.ptpRole = 2 && !s.ptpConf && s.portUp (s.fld Fld.NET_PTP_PORT 0)

/-- PTP_SYNC_TX: 16 per second; a two-step Sync has its Follow_Up (R385). -/
def execPtpSyncTx (t : Nat) (s : State) : Out :=
  ticking t s (fun s =>
    let due := match s.net.sentAt with
      | some at_ => decide (at_ + syncPeriod ≤ s.dev)
      | none => true
    s.only (s.ptpMaster && due) (fun s =>
      let one := s.flag Fld.NET_PTP_ONESTEP 0
      let seq := s.net.ptpSeq
      let stamp := s.ptpStamp
      let s1 := s.drawn.sendPtp true (s.ptpMsg 0 (if one then 0 else 2) seq 252 (ptpTime (if one then stamp else 0)))
      let s2 := if one then s1 else s1.sendPtp false (s1.ptpMsg 8 0 seq 252 (ptpTime stamp))
      { s2 with net := { s2.net with ptpSeq := (seq + 1) % 65536, sentAt := some s.dev } }))

/-- PTP_DELAY_REQ_RX from port identity `peer`: answered with the stamp of its reception (R385). -/
def execPtpDelayReqRx (t : Nat) (port : Nat) (udp : Bool) (dom seq peer : Nat) (s : State) : Out :=
  ticking t s (fun s => s.only (s.ptpRx 2 port udp dom) (fun s =>
    s.drawn.sendPtp false (s.ptpMsg 9 0 seq 0 (ptpTime s.ptpStamp ++ beBytes 10 peer))))

/-- PTP_SYNC_TIMEOUT: 3 s with no Sync (R385). -/
def execPtpSyncTimeout (t : Nat) (s : State) : Out :=
  ticking t s (fun s => s.only (decide (s.net.syncAt + 3 * 781250000 ≤ s.dev)) (fun s =>
    { s.setFlag Fld.NET_STAT_PTPLOCK 0 false with net := { s.net with good := 0, bad := 0 } }))

/-! ### PPS (R386, R387) -/

/-- ACLK ticks in a nominal second and in 1.5 s. -/
def ticksPerSec : Nat := 781250000
def ppsLoss : Nat := 1171875000

/-- A PPS edge latches device and PTP time, counts, and ends waiting PPS instructions (R262, R387). -/
def State.ppsLatch (s : State) : State :=
  (((((((s.setFld Fld.NET_PPS_DEV_LO_DEV 0 s.dev).setFld Fld.NET_PPS_DEV_HI_DEV 0 (s.dev / 2 ^ 32)).setFld Fld.NET_PPS_SEC_LO_SEC 0 s.ptpSec).setFld
    Fld.NET_PPS_SEC_HI_SEC 0 (s.ptpSec / 2 ^ 32)).setFld Fld.NET_PPS_NS_NS 0 s.ptpNs).count Fld.NET_PPS_CNT 0 1)).wickPps s.dev

/-- Hearth disciplines the free-running clock to PPS_IN: the edge is a whole second, and the rate follows from the last two edges (R386). -/
def State.discipline (s : State) : State :=
  if s.fld Fld.NET_PTP_ROLE 0 ≠ 0 || s.flag Fld.NET_PPS_SRC 0 || !s.sys.hearth then s
  else
    match s.net.ppsIn with
    | none => s.setPtp ((((s.ptpTotal + 999999999) / 1000000000 : Nat) : Int) * 100000000000) s.ptp.rate
    | some (d, sec) =>
      let ticks := s.dev - d
      let n := max 1 ((2 * ticks + ticksPerSec) / (2 * ticksPerSec))
      let rate := if ticks = 0 then 0 else roundNear (((n * ticksPerSec : Nat) : Rat) * 2 ^ 32 / ticks - 2 ^ 32)
      s.setPtp (((sec + n : Nat) : Int) * 100000000000) (max (-(maxRate : Int)) (min maxRate rate))

/-- An edge of PPS_IN at the selected polarity (R386). -/
def State.ppsInEdge (s : State) : State :=
  let s1 := s.discipline
  let s2 := { s1 with net := { s1.net with ppsIn := some (s1.dev, s1.ptpSec) } }.setFlag Fld.NET_STAT_PPSIN_OK 0 true
  if s.flag Fld.NET_PPS_SRC 0 then s2 else s2.ppsLatch

/-- PPS_EDGE: an edge of the PPS_IN pin, or with `pin` clear the PTP second boundary as the selected edge (R386, R387). -/
def execPpsEdge (t : Nat) (pin rising : Bool) (s : State) : Out :=
  ticking t s (fun s =>
    if pin then s.only (rising != s.flag Fld.NET_PPS_IN_EDGE 0) State.ppsInEdge
    else s.only (s.flag Fld.NET_PPS_SRC 0 && decide (s.net.secEdge < s.ptpSec)) (fun s => { s with net := { s.net with secEdge := s.ptpSec } }.ppsLatch))

/-- PPSIN_TIMEOUT (R386). -/
def execPpsinTimeout (t : Nat) (s : State) : Out :=
  ticking t s (fun s =>
    match s.net.ppsIn with
    | some (d, _) => s.only (decide (d + ppsLoss ≤ s.dev)) (fun s => s.setFlag Fld.NET_STAT_PPSIN_OK 0 false)
    | none => s)

/-- SECOND_BOUNDARY: PPS_OUT goes high while OUT_EN is set (R386). -/
def execSecondBoundary (t : Nat) (s : State) : Out :=
  ticking t s (fun s => s.only (decide (s.net.secOut < s.ptpSec)) (fun s =>
    { s with net := { s.net with secOut := s.ptpSec, ppsOut := if s.flag Fld.NET_PPS_OUT_EN 0 then some s.dev else s.net.ppsOut } }))

/-- PPS_OUT_END: OUT_WIDTH ms after the boundary (R386). -/
def execPpsOutEnd (t : Nat) (s : State) : Out :=
  ticking t s (fun s =>
    match s.net.ppsOut with
    | some d => s.only (decide (d + 781250 * s.fld Fld.NET_PPS_OUT_WIDTH 0 ≤ s.dev)) (fun s => { s with net := { s.net with ppsOut := none } })
    | none => s)

/-- What a NET commit does to port `n`'s link: one of a port no longer enabled, or at a speed that a fixed SPEED excludes, goes down; a port that is enabled anew, or set to automatic
without a link, starts its tries again with 10GBASE-R (R380). -/
def State.linkCommit (s old : State) (n : Nat) : State :=
  let on := bit (s.fld Fld.NET_CTRL_PORT_EN 0) n
  let mode := s.fld Fld.NET_Pn_MODE_SPEED n
  if s.flag Fld.NET_Pn_STAT_LINK n then s.only (!on || (mode ≠ 0 && s.fld Fld.NET_Pn_STAT_SPEED n ≠ mode)) (fun s => s.setLink n 0)
  else s.only (on && (!bit (old.fld Fld.NET_CTRL_PORT_EN 0) n || (mode = 0 && old.flag Fld.NET_Pn_MODE_SPEED n))) (fun s =>
    { s with net := { s.net with speed := s.net.speed.setIfInBounds n (1, s.dev) } })

/-- What follows a NET commit: links, PTPCONF and its report, the active port, and PPS_OUT; `old` is the state before it (R380, R383, R385, R386). -/
def State.netCommit (s old : State) : State :=
  let s1 := s.each [0, 1] (fun n s => s.linkCommit old n)
  let was := s1.flag Fld.NET_STAT_PTPCONF 0
  let s2 := (s1.setFlag Fld.NET_STAT_PTPCONF 0 s1.ptpConf).setActive
  let s3 := s2.only (s1.ptpConf && !was) (fun s => s.faultAt 12 (s.fld Fld.NET_PTP_PORT 0) 0x200 0 1)
  s3.only (!s3.flag Fld.NET_PPS_OUT_EN 0) (fun s => { s with net := { s.net with ppsOut := none } })

/-! ### Management responses (R393, R394) -/

/-- Where a management response goes, and what it answers. -/
structure Client where
  port : Nat
  mac : Nat
  ip : Nat
  udp : Nat
  ctr : Nat
deriving DecidableEq, Repr

/-- The response to an accepted frame: result code and data, with the request's counter, under the same key, in class 7 (R394). -/
def State.mgmtAnswer (s : State) (c : Client) (op result : Nat) (data : List Byte) : State :=
  let body := leBytes 4 result ++ data
  let fields := leBytes 8 c.ctr ++ leBytes 2 op ++ leBytes 2 body.length ++ body
  let epoch := if s.legacy then 0 else s.fld Fld.TWN_EPOCH_EPOCH 0
  let frame (tag : List Byte) := mstFrame (if s.legacy then 1 else 2) 8 0xFFFF epoch 0 (s.ptpSec % 2 ^ 48) s.ptpNs 0 0 (fields ++ tag)
  let open_ := frame (List.replicate 16 0)
  s.send c.port 7 c.mac c.ip c.udp (frame ((hmacSha256 s.fixed.key (open_.take (44 + body.length))).take 16))

/-- A client as the producer of a submission. -/
def Client.producer (c : Client) : Producer := .mgmt c.port c.mac c.ip c.udp c.ctr

/-- A submission of a management frame, as a host producer; an accepted one is answered at its acceptance, with its sequence (R393, R394). -/
def State.frameSubmit (s : State) (c : Client) (q : Nat) (img : List Byte) : State :=
  match s.checkTurn q c.producer img with
  | none => s.startAccept q c.producer img
  | some r => (s.countRefusal r).mgmtAnswer c 3 r (if r = resDup then leBytes 4 ((s.dupOf q img).getD 0) else [])

/-- The response that an accepted submission of a management frame gets. -/
def State.acceptAnswer (s : State) (seq : Nat) : Producer → State
  | .mgmt port mac ip udp ctr => s.mgmtAnswer ⟨port, mac, ip, udp, ctr⟩ 3 0 (leBytes 4 seq)
  | _ => s

/-- The submissions that waited for the rebuild are made, in their order (R344). -/
def State.resubmit (s : State) : State :=
  s.que.waiting.foldl (fun s x =>
    match x.2.1 with
    | .mgmt port mac ip udp ctr => s.frameSubmit ⟨port, mac, ip, udp, ctr⟩ x.1 x.2.2
    | _ => s.hostSubmit x.1 x.2.2) { s with que := { s.que with waiting := [] } }

end Sys2Proof.Machine
end

