-- ==== Sys2Proof/Machine/Pwr.lean ====
section
/-!
DEFINITION. The always-on domain and the feed instance of the Ember lease: feed samples, sags, dips, transfers between feeds
(spec 16_lease_feeds_and_twin, R403 to R414; the skew of R456; the always-on domain of R459 and R472).
Points that the spec leaves open or that are read from it by inference: DESIGN CHOICE 34 of the assumption log.
-/

namespace Sys2Proof.Machine

/-! ### Lease timers (R403, R456) -/

/-- The points of a lease of L PCLK (R403): renewal, stop and acquisition. -/
def leaseRenew (l : Nat) : Nat := l / 4
def leaseStop (l : Nat) : Nat := 7 * l / 8
def leaseAcquire (l : Nat) : Nat := (9 * l + 7) / 8

/-- The skew in ppm that TST_LEASESKEW applies to the timers of an instance: 0 feed, 1 twin (R456). -/
def State.skew (s : State) (twin : Bool) : Int :=
  if s.flag Fld.TST_LEASESKEW_INST 0 == twin then signed 16 (s.fld Fld.TST_LEASESKEW_PPM 0) else 0

/-- An instance's timer, started at `since`, has reached `p` PCLK. -/
def State.leaseDue (s : State) (twin : Bool) (since p : Nat) : Bool :=
  decide ((pclk * p * 1000000 : Int) ≤ ((s.now : Int) - since) * (1000000 + s.skew twin))

/-! ### Feeds (R408 to R410, R427) -/

/-- Feed `b`: true for B. -/
def State.feed (s : State) (b : Bool) : Feed := if b then s.pwr.b else s.pwr.a

/-- A change of one feed. -/
def State.onFeed (s : State) (b : Bool) (f : Feed → Feed) : State :=
  { s with pwr := if b then { s.pwr with b := f s.pwr.b } else { s.pwr with a := f s.pwr.a } }

/-- PWR_STAT[6:0] and the feeds' voltages follow the always-on domain (R427, R428). -/
def State.pwrShow (s : State) : State :=
  let p := s.pwr
  let s1 := (s.setFlag Fld.PWR_STAT_HOLDER 0 (p.holder.getD p.pref)).setFlag Fld.PWR_STAT_A_ON 0 p.a.ball
  let s2 := ((s1.setFlag Fld.PWR_STAT_B_ON 0 p.b.ball).setFlag Fld.PWR_STAT_A_OK 0 p.a.okSince.isSome).setFlag Fld.PWR_STAT_B_OK 0 p.b.okSince.isSome
  let s3 := ((s2.setFlag Fld.PWR_STAT_A_QUAL 0 p.a.qualified).setFlag Fld.PWR_STAT_B_QUAL 0 p.b.qualified).setFlag Fld.PWR_STAT_KEPT 0 p.sagKept
  (s3.setFld Fld.PWR_Ff_VOLT_MV 0 p.a.mv).setFld Fld.PWR_Ff_VOLT_MV 1 p.b.mv

/-- A feed is acquired: its gate goes high and its lease starts (R406, R407, R409). -/
def State.feedAcquire (s : State) (b : Bool) : State :=
  let s1 := s.onFeed b (fun f => { f with gate := true, ball := true, lowRun := 0, dipRun := 0 })
  { s1 with pwr := { s1.pwr with holder := some b, renewedAt := s.now, lease := s.fld Fld.PWR_LEASE_LEASE 0, release := none, sagKept := false } }.pwrShow

/-- A gate goes low, and its ball reads low unless the device has found that it does not (DESIGN CHOICE 34) (R411, R427). -/
def State.gateOff (s : State) (b : Bool) : State := (s.onFeed b (fun f => { f with gate := false, ball := false })).pwrShow

/-- The feed acquired at power-up and at wake: the preferred one above UV, else the other (R409). -/
def State.firstFeed (s : State) : Option Bool :=
  if s.pwr.uv < (s.feed s.pwr.pref).mv then some s.pwr.pref else if s.pwr.uv < (s.feed (!s.pwr.pref)).mv then some (!s.pwr.pref) else none

/-- FEED_ACQUIRE_AT_POWER: a feed is acquired and PWR_EN driven, or both gates stay low until a feed rises (R409, R459, R471). -/
def State.acquireAtPower (s : State) : State :=
  match s.firstFeed with
  | some b => { s.feedAcquire b with pwr := { (s.feedAcquire b).pwr with pwrEn := true }, sys := { s.sys with power := .cold, powerAt := s.now, railsAt := s.now } }
  | none => { s with sys := { s.sys with power := .feedWait, powerAt := s.now } }

/-- The holder's gate goes low and its renewal stops; the other feed acquires on confirmation or at expiry (R410, R411, R414). -/
def State.feedRelease (s : State) (b : Bool) : State :=
  let s1 := s.gateOff b
  { s1 with pwr := { s1.pwr with release := some ⟨b, s.now, false⟩, sagKept := false } }.pwrShow.count Fld.PWR_TRANSFER_CNT 0 1

/-- The voltage above which a feed is OK, and above which a dip ends (R410, R412). -/
def State.okLevel (s : State) : Nat := s.fld Fld.PWR_UV_UV 0 + 10 * s.fld Fld.PWR_UVCFG_HYST 0
def State.dipLevel (s : State) : Nat := s.fld Fld.PWR_UV_DIP 0 + 10 * s.fld Fld.PWR_UVCFG_HYST 0

/-- A sample of one feed: its voltage, and whether it has stayed above UV + HYST for 64 samples (R408, R410). -/
def State.sampleFeed (s : State) (b : Bool) (mv : Nat) : State :=
  s.onFeed b (fun f =>
    let run := if s.okLevel < mv then min 64 (f.okRun + 1) else 0
    let ok := decide (64 ≤ run)
    { f with mv := mv, okRun := run, okSince := if ok then (if f.okSince.isSome then f.okSince else some s.now) else none, qualified := f.qualified && ok })

/-- A dip of feed `b`: begun while it is the holder, tracked to its end, counted there with its lowest voltage and its length in samples (R412). -/
def State.dipSample (s : State) (b : Bool) : State :=
  let f := s.feed b
  let filt := s.fld Fld.PWR_UVCFG_FILT 0
  let unit := b2n b
  if f.inDip then
    let e := if s.dipLevel < f.mv then f.dipEnd + 1 else 0
    let low := min f.dipMin f.mv
    if filt ≤ e then
      (((s.onFeed b (fun f => { f with inDip := false, dipEnd := 0, dipRun := 0, dipMin := 0, dipLen := 0 })).count Fld.PWR_DIP_CNT 0 1).setFld
        Fld.PWR_Ff_DIPMIN_MV unit low).setFld Fld.PWR_Ff_DIPLEN_LEN unit (f.dipLen + 1)
    else s.onFeed b (fun f => { f with dipEnd := e, dipMin := low, dipLen := f.dipLen + 1 })
  else if s.pwr.holder = some b && decide (f.mv < s.fld Fld.PWR_UV_DIP 0) then
    let low := if f.dipRun = 0 then f.mv else min f.dipMin f.mv
    s.onFeed b (fun f => { f with dipRun := f.dipRun + 1, dipMin := low, dipLen := f.dipRun + 1, inDip := decide (filt ≤ f.dipRun + 1), dipEnd := 0 })
  else s.onFeed b (fun f => { f with dipRun := 0 })

/-- The other feed is OK while a sag with the holder kept lasts: the release follows (R410). -/
def State.keptCheck (s : State) : State :=
  match s.pwr.holder with
  | some b => if s.pwr.sagKept && s.pwr.release.isNone && (s.feed (!b)).okSince.isSome then s.feedRelease b else s
  | none => s

/-- FEED_SAG: the holder reads below UV on FILT consecutive samples: released when the other feed is OK, else kept (R410). -/
def State.sagSample (s : State) : State :=
  match s.pwr.holder with
  | none => s
  | some b =>
    if s.pwr.release.isSome then s
    else if s.fld Fld.PWR_UV_UV 0 ≤ (s.feed b).mv then
      let s1 := s.onFeed b (fun f => { f with lowRun := 0 })
      { s1 with pwr := { s1.pwr with sagKept := false } }
    else
      let s1 := s.onFeed b (fun f => { f with lowRun := f.lowRun + 1 })
      if s.pwr.sagKept then s1.keptCheck
      else if (s1.feed b).lowRun < s.fld Fld.PWR_UVCFG_FILT 0 then s1
      else
        let s2 := s1.count Fld.PWR_SAG_CNT 0 1
        if (s.feed (!b)).okSince.isSome then s2.feedRelease b
        else { s2 with pwr := { s2.pwr with sagKept := true } }.pwrShow.faultAt 13 (b2n b) 0x200 0 3

/-- A sample of both feeds, every 64 PCLK: while neither feed was above UV, the first to rise is acquired; in operation sags and dips are judged
(R408 to R412). -/
def State.feedSample (s : State) (mvA mvB : Nat) : State :=
  match s.sys.power with
  | .off | .hib => s
  | .feedWait => ((s.onFeed false (fun f => { f with mv := mvA })).onFeed true (fun f => { f with mv := mvB })).acquireAtPower
  | .run | .hold => ((((((s.sampleFeed false mvA).sampleFeed true mvB).dipSample false).dipSample true).sagSample).keptCheck).pwrShow
  | _ => (s.onFeed false (fun f => { f with mv := mvA })).onFeed true (fun f => { f with mv := mvB })

/-- The lease timers run: the clocks do, also under a warm or watchdog reset (R404, R469). -/
def State.leaseRuns (s : State) : Bool := decide (s.sys.power = .run) || decide (s.sys.power = .hold)

/-- FEED_QUALIFIED: the feed has been OK for 1 s (R410). -/
def execFeedQualified (t : Nat) (b : Bool) (s : State) : Out :=
  always t s (fun s =>
    match (s.feed b).okSince with
    | some t0 => s.only (s.leaseRuns && decide (t0 + 781250000 ≤ s.now)) (fun s => (s.onFeed b (fun f => { f with qualified := true })).pwrShow.keptCheck)
    | none => s)

/-! ### The feed lease (R404 to R407, R411, R414) -/

/-- The feed holder renews: its gate reads back high, the clocks are locked and it is not released; PWR_STAT shows the level read (R404, R407, R427). -/
def State.feedRenew (s : State) (readBack : Bool) : State :=
  match s.pwr.holder with
  | some b =>
    (s.only (s.feed b).gate (fun s => (s.onFeed b (fun f => { f with ball := readBack })).pwrShow)).only (readBack && (s.feed b).gate && s.pwr.release.isNone && s.leaseDue false s.pwr.renewedAt (leaseRenew s.pwr.lease))
      (fun s => { s with pwr := { s.pwr with renewedAt := s.now, lease := s.fld Fld.PWR_LEASE_LEASE 0 } })
  | none => s

/-- The feed holder reaches its stop point: its gate goes low (R405). -/
def State.feedStop (s : State) : State :=
  match s.pwr.holder with
  | some b => s.only ((s.feed b).gate && s.leaseDue false s.pwr.renewedAt (leaseStop s.pwr.lease)) (fun s => s.gateOff b)
  | none => s

/-- A feed acquires at expiry: after a release the other one; after a stop the former holder while it is OK, else the other (R406, R410, R411). -/
def State.feedExpiry (s : State) : State :=
  match s.pwr.holder with
  | some b =>
    s.only (!(s.feed b).gate && s.leaseDue false s.pwr.renewedAt (leaseAcquire s.pwr.lease)) (fun s =>
      match s.pwr.release with
      | some r => s.feedAcquire (!r.fromB)
      | none => s.feedAcquire (if (s.feed b).okSince.isSome then b else !b))
  | none => s

/-- RELEASE_CONFIRMED: the released gate's ball has read low since `lowAt`, within 512 PCLK of the release; 8 PCLK and OFFT later the other feed acquires
(R411). -/
def execReleaseConfirmed (t : Nat) (lowAt : Nat) (s : State) : Out :=
  always t s (fun s =>
    match s.pwr.release with
    | some r =>
      s.only (s.leaseRuns && !r.noConf && decide (r.releasedAt ≤ lowAt) && decide (lowAt ≤ r.releasedAt + 512 * pclk)
        && decide (lowAt + pclk * (8 + s.fld Fld.PWR_UVCFG_OFFT 0) ≤ s.now)) (fun s => (s.feedAcquire (!r.fromB)).setFlag Fld.PWR_STAT_NOCONF 0 false)
    | none => s)

/-- NOCONF_TIMEOUT: 512 PCLK after the release the ball has not read low (R411). -/
def execNoconfTimeout (t : Nat) (s : State) : Out :=
  always t s (fun s =>
    match s.pwr.release with
    | some r =>
      s.only (s.leaseRuns && !r.noConf && decide (r.releasedAt + 512 * pclk ≤ s.now)) (fun s =>
        (({ s.onFeed r.fromB (fun f => { f with ball := true }) with pwr := { (s.onFeed r.fromB (fun f => { f with ball := true })).pwr with release := some { r with noConf := true } } }.pwrShow.setFlag Fld.PWR_STAT_NOCONF 0 true).count Fld.PWR_NOCONF_CNT 0 1).faultAt
          13 (b2n r.fromB) 0x200 0 3)
    | none => s)

/-- A completed guarded write of PWR_SWITCHBACK (R414). -/
def State.switchback (s : State) (src : Source) (val : Word) : State :=
  if bitsOf 0 0 val = 0 then s
  else
    let toB := decide (bitsOf 1 1 val = 1)
    if s.pwr.holder = some (!toB) && (s.feed toB).qualified && s.pwr.release.isNone then s.feedRelease (!toB)
    else s.clamp src Fld.PWR_SWITCHBACK_GO.addr val (withBits 0 0 val 0) rsState 0 0

/-- FEED_SWITCHBACK to feed B or A (R414). -/
def execFeedSwitchback (t : Nat) (src : Source) (toB : Bool) (s : State) : Out :=
  ticking t s (fun s =>
    let v : Word := BitVec.ofNat 32 (1 + 2 * b2n toB)
    s.pairWhole src Fld.PWR_SWITCHBACK_GO.addr (fun s => s.pastLocks src Fld.PWR_SWITCHBACK_GO.addr v (fun s => s.switchback src v)))

/-- A completed guarded write of PWR_CTRL; the always-on domain keeps a copy of PREF (R472). -/
def State.pwrCtrl (s : State) (val : Word) : State :=
  let s1 := s.setFld Fld.PWR_CTRL_PREF 0 (bitsOf 0 0 val)
  { s1 with pwr := { s1.pwr with pref := decide (bitsOf 0 0 val = 1) } }

/-- A PWR commit takes effect; the always-on domain keeps a copy of UV (R472). -/
def State.pwrCommit (s : State) : State := { s with pwr := { s.pwr with uv := s.fld Fld.PWR_UV_UV 0 } }

end Sys2Proof.Machine
end

