-- ==== Sys2Proof/Machine/Twin.lean ====
section
/-!
DEFINITION. The twin instance of the Ember lease: roles, paths, pairing, mirroring, checkpoints, takeover and switch-back
(spec 16_lease_feeds_and_twin, R404 to R407 and R416 to R426; R34, R346 and R347; the delays and drops of R456).
CONFIG, which applies registers, stands with the control bus.
Points that the spec leaves open or that are read from it by inference: DEDUCED 35; DESIGN CHOICE 36, 37 of the assumption log.
-/

namespace Sys2Proof.Machine

/-! ### Own state (R404, R416, R420, R422) -/

/-- A change of the twin instance. -/
def State.onTwn (s : State) (f : Twin → Twin) : State := { s with twn := f s.twn }

/-- The TWIN_ROLE strap (R458, R462). -/
def State.twinStrap (s : State) : Bool := bit s.sys.straps 2

/-- The holder's health: clocks locked, watchdog not expired, no Quench latched, MEM READY, and no switch-back executing (R404). -/
def State.healthy (s : State) : Bool :=
  s.clocked && !s.anyQuenched && s.flag Fld.MEM_STAT_READY 0 && !s.twn.released

/-- A standby may acquire: SYNCED, no Quench latched, HSC_READY and MEM READY (R422). -/
def State.eligible (s : State) : Bool :=
  s.flag Fld.TWN_STAT_SYNCED 0 && !s.anyQuenched && s.flag Fld.LAN_STAT_HSC_READY 0 && s.flag Fld.MEM_STAT_READY 0

/-- TWN_STAT.ELIGIBLE of a standby follows its conditions; the holder's shows its peer's (R429). -/
def State.showEligible (s : State) : State := if s.role = 2 then s.setFlag Fld.TWN_STAT_ELIGIBLE 0 s.eligible else s

/-- Lanes that wait in ARMED start the ramp (R83, R416). -/
def State.rampArmed (s : State) : State :=
  s.each (List.range s.lanes) (fun n s => s.only ((s.laneOf n).st = .armed) (fun s => s.enterLane n .ramp))

/-- Lanes on the way to EMITTING return to ARMED (R83, R416). -/
def State.armLanes (s : State) : State :=
  s.each (List.range s.lanes) (fun n s =>
    let st := (s.laneOf n).st
    s.only (st = .emitting || st = .ramp || st = .ramped) (fun s => s.stopLane n .armed))

/-! ### Paths (R34, R418, R419) -/

/-- The Bellows link no longer carries frames: the holder's acceptance waits for it, and a standby that comes back may need its copies anew (DESIGN CHOICE 36) (R34, R419,
R420). -/
def State.linkDown (s : State) : State :=
  let s0 := s.onTwn (fun x => { x with copied := false })
  let s1 := if s.flag Fld.TWN_STAT_LINK_OK 0 then ((s0.setFlag Fld.TWN_STAT_LINK_OK 0 false).count Fld.TWN_LINKLOSS_CNT 0 1).faultAt 14 0xFF 0x200 0 1 else s0
  if s.role = 1 && s.que.linkLostAt.isNone then { s1 with que := { s1.que with linkLostAt := some s.now } } else s1

/-- The holder mirrors the journal of queue `q`, if it was ever used: every image of its ring, which the duplicate history reads, the payloads of uncompleted
descriptors, and the state record (R34, R337, R346, R420). -/
def State.mirrorQueue (s : State) (q : Nat) : State :=
  if s.lastSeq q = 0 then s
  else
    let x := s.queue q
    let size := s.fld Fld.QUE_Qq_SIZE_SIZE q
    let s1 := (x.entries.map (·.img) ++ x.inflight.map (·.img)).foldl (fun s img => s.mirrorPayload q img) s
    let s2 := if s.fld Fld.QUE_Qq_ACC_SEQ_SEQ q = 0 then s1
      else (segments 4080 (64 * size) 0 (s1.readBytes (s.imageAddr q 0) (64 * size))).foldl (fun s x =>
        let r := s.portRead 6 true (s.imageAddr q 0 + x.1) x.2.length
        if r.2 then r.1 else r.1.mirror (s.imageAddr q 0 + x.1) x.2) s1
    let s3 := (s2.queue q).inflight.zipIdx.foldl (fun s f => s.mirror (s.imageAddr q ((s.fld Fld.QUE_Qq_TAIL_TAIL q + f.2) % size)) f.1.img) s2
    s3.mirror (s.recordAddr q) (s3.stateRecord q)

/-- Acceptance is unmirrored, as TWN_STAT and QUE_STAT show it (R34, R346, R361). -/
def State.setUnmirrored (s : State) (on : Bool) : State := (s.setFlag Fld.TWN_STAT_UNMIRRORED 0 on).setFlag Fld.QUE_STAT_UNMIRRORED 0 on

/-- Mirrored acceptance resumes once the link carries frames and no lane's next checkpoint is owed (R34). -/
def State.mirrorAgain (s : State) : State :=
  if s.que.unmirrored && s.que.linkLostAt.isNone && s.twn.ckWait.isEmpty then { s with que := { s.que with unmirrored := false } }.setUnmirrored false else s

/-- Each EMITTING lane with the number of its open block. -/
def State.openLanes (s : State) : List (Nat × Nat) :=
  ((List.range s.lanes).filter (fun n => (s.laneOf n).st = .emitting)).map (fun n => (n, s.fld Fld.PHX_BLK_CNT n))

/-- The link carries frames again: the journal is mirrored, and acceptance that had turned unmirrored stays so until the next checkpoint of each EMITTING lane has been
mirrored too (R34, R346). -/
def State.linkBack (s : State) : State :=
  if s.que.linkLostAt.isSome then
    let s1 := { s with que := { s.que with linkLostAt := none } }
    ((s1.each (List.range 64) (fun q s => s.mirrorQueue q)).onTwn (fun x => { x with ckWait := if s.que.unmirrored then s.openLanes else [] })).mirrorAgain.retryReports
  else s

/-- A Bellows frame is heard and acknowledged (R418, R419). -/
def State.linkHeard (s : State) : State :=
  let s1 := (s.onTwn (fun x => { x with linkAt := s.now, acks := x.acks + 1 })).setFlag Fld.TWN_STAT_LINK_OK 0 true
  if s.twn.lane0 || s.twn.lane1 then s1.linkBack else s1

/-- Lock of Bellows lane `k`. -/
def State.belLane (s : State) (k : Nat) : Bool := if k = 0 then s.twn.lane0 else s.twn.lane1

/-- A Bellows lane gains or loses lock; HALFLINK shows that one of the two carries the link (R418). -/
def State.setBelLane (s : State) (k : Nat) (on : Bool) : State :=
  let s1 := s.onTwn (fun x => if k = 0 then { x with lane0 := on } else { x with lane1 := on })
  s1.setFlag Fld.TWN_STAT_HALFLINK 0 (s1.twn.lane0 != s1.twn.lane1)

/-- Loss of a lane; of both, of the link (R418). -/
def State.belLoss (s : State) (k : Nat) : State :=
  let s1 := s.setBelLane k false
  if s1.twn.lane0 || s1.twn.lane1 then s1 else s1.linkDown

/-- BELLOWS_LANE_LOSS (R418). -/
def execBellowsLaneLoss (t : Nat) (k : Nat) (s : State) : Out := ticking t s (fun s => s.only (k < 2 && s.belLane k) (fun s => s.belLoss k))

/-- BELLOWS_LANE_LOCK, unless TST_BLDROP keeps the lane down (R34, R418, R456). -/
def execBellowsLaneLock (t : Nat) (k : Nat) (s : State) : Out :=
  ticking t s (fun s => s.only (k < 2 && !s.belLane k && !bit (s.fld Fld.TST_BLDROP_LANES 0) k) (fun s => (s.setBelLane k true).linkBack))

/-- BELLOWS_RESEND: frame `seq` has had no acknowledgement for 20 µs; after 8 attempts the link is down (R418). -/
def execBellowsResend (t : Nat) (seq : Nat) (s : State) : Out :=
  clocked t s (fun s =>
    match s.twn.sent.find? (fun f => f.seq = seq) with
    | some f =>
      let n := ((s.twn.tries.find? (fun e => e.1 = seq)).map (·.2)).getD 1
      s.only (decide (2 * f.at_ + 31250 ≤ 2 * s.now)) (fun s =>
        if 8 ≤ n then s.linkDown
        else s.only (s.twn.lane0 || s.twn.lane1) (fun s =>
          s.onTwn (fun x => { x with sent := belQueue { f with at_ := s.now } x.sent, tries := (seq, n + 1) :: x.tries.filter (fun e => e.1 ≠ seq) })))
    | none => s)

/-- MIRROR_WAIT_TIMEOUT: the link has stayed down for the twin lease time; acceptance turns unmirrored (R34, R346). -/
def execMirrorWaitTimeout (t : Nat) (s : State) : Out :=
  clocked t s (fun s =>
    match s.que.linkLostAt with
    | some t0 =>
      s.only (s.role = 1 && !s.que.unmirrored && decide (t0 + pclk * s.fld Fld.TWN_LEASE_LEASE 0 ≤ s.now)) (fun s =>
        (({ s with que := { s.que with unmirrored := true } }.setUnmirrored true).faultAt 14 0xFF 0x200 0 1).retryReports)
    | none => s)

/-- PATH_SILENCE of the heartbeat line, or of the Bellows link, for 9L/8 (R419). -/
def execPathSilence (t : Nat) (line : Bool) (s : State) : Out :=
  ticking t s (fun s =>
    let l := leaseAcquire s.twn.lease
    if line then s.only (s.flag Fld.TWN_STAT_LINE_OK 0 && s.leaseDue true s.twn.lineAt l) (fun s =>
      ((s.setFlag Fld.TWN_STAT_LINE_OK 0 false).count Fld.TWN_LINELOSS_CNT 0 1).faultAt 14 0xFF 0x200 0 1)
    else s.only (s.flag Fld.TWN_STAT_LINK_OK 0 && s.leaseDue true s.twn.linkAt l) State.linkDown)

/-- LEASE_IN_PULSE of a width in nanoseconds: 5 to 20 µs counts; a standby, and a fenced unit that does not know its peer's state, hear a renewal
(R406, R419, R425, R497). -/
def execLeaseInPulse (t : Nat) (width : Nat) (s : State) : Out :=
  ticking t s (fun s =>
    s.only (s.flag Fld.TWN_CTRL_EN 0 && decide (5000 ≤ width) && decide (width ≤ 20000)) (fun s =>
      (s.onTwn (fun x => { x with lineAt := s.now, heardAt := if 2 ≤ s.role then s.now else x.heardAt })).setFlag Fld.TWN_STAT_LINE_OK 0 true))

/-- TWN_LEASE_OUT is high: 10 µs from the start of a pulse (R419, R497). -/
def State.leaseOutHigh (s : State) : Bool := match s.twn.pulseOn with
  | some t0 => decide (2 * s.now < 2 * t0 + 15625)
  | none => false

/-- The delay that TST_HBDELAY puts before HEARTBEAT frames (0) or pulses (1), in PCLK (R456). -/
def State.hbDelay (s : State) (path : Nat) : Nat := if bit (s.fld Fld.TST_HBDELAY_PATH 0) path then s.fld Fld.TST_HBDELAY_DELAY 0 else 0

/-- A renewal of the holder is confirmed (R404, R407). -/
def State.twinRenewed (s : State) : State := s.onTwn (fun x => { x with renewedAt := s.now, lease := s.fld Fld.TWN_LEASE_LEASE 0 })

/-- The lease time that a unit's pulses follow: the committed one on the holder, the one last heard on the standby (R419). -/
def State.pulseLease (s : State) : Nat := if s.role = 1 then s.fld Fld.TWN_LEASE_LEASE 0 else s.twn.lease

/-- LEASE_OUT_PULSE: one every L/2 from a unit in role 1 or 2; the holder's, read back at the ball, is a confirmed renewal (R404, R419). -/
def execLeaseOutPulse (t : Nat) (readBack : Bool) (s : State) : Out :=
  clocked t s (fun s =>
    let d := s.hbDelay 1
    s.only (s.leaseDue true s.twn.pulseAt (s.pulseLease / 2 + d) && (s.role = 2 || (s.role = 1 && s.healthy))) (fun s =>
      let s1 := s.onTwn (fun x => { x with pulseAt := s.now - pclk * d, pulseOn := some s.now })
      if s.role = 1 && readBack then s1.twinRenewed else s1))

/-! ### Frames of the roles (R404, R418) -/

/-- A HEARTBEAT's payload (R418). -/
def State.heartbeatBody (s : State) : List Byte :=
  leBytes 4 (s.fld Fld.TWN_EPOCH_EPOCH 0) ++ leBytes 4 (s.fld Fld.TWN_LEASE_LEASE 0) ++ leBytes 8 s.dev ++ leBytes 1 (b2n s.healthy) ++ leBytes 1 (b2n s.twinStrap)
    ++ leBytes 2 s.fixed.variant.part ++ leBytes 8 s.fixed.serial

/-- A STATUS frame (R418). -/
def State.statusBody (s : State) : List Byte :=
  leBytes 4 (s.fld Fld.TWN_EPOCH_EPOCH 0) ++ leBytes 1 (s.fld Fld.TWN_STAT_SYNCED 0) ++ leBytes 1 (b2n s.eligible)
    ++ (List.range s.lanes).flatMap (fun n => leBytes 4 (s.fld Fld.TWN_Ln_CKBLK_BLK n))

/-- A healthy twin holder that no reset holds sends a HEARTBEAT every L/4; it renews when the frame has left on a locked lane (R404). -/
def State.twinRenew (s : State) : State :=
  let d := s.hbDelay 0
  s.only (s.role = 1 && s.healthy && !s.inReset && s.leaseDue true s.twn.hbAt (leaseRenew s.twn.lease + d)) (fun s =>
    let s1 := (s.onTwn (fun x => { x with hbAt := s.now - pclk * d, unanswered := x.unanswered + 1 })).belSend 0 s.heartbeatBody
    if s.twn.lane0 || s.twn.lane1 then s1.twinRenewed else s1)

/-- TWN_OSW has read back low: the RELEASE that waited for it leaves (R418, R424). -/
def State.oswLow (s : State) : State :=
  match s.twn.releaseDue with
  | some (epoch, reason) => (s.onTwn (fun x => { x with releaseDue := none })).belSend 2 (leBytes 4 epoch ++ leBytes 4 reason)
  | none => s

/-- LEASE_RENEWAL of the twin or the feed instance; `readBack` is the level that the instance reads at its pin: the holder's gate, or TWN_OSW, which a RELEASE waits for
(DESIGN CHOICE 36) (R404, R418). -/
def execLeaseRenewal (t : Nat) (twin readBack : Bool) (s : State) : Out :=
  ticking t s (fun s => if twin then (s.only (!readBack) State.oswLow).twinRenew else s.feedRenew readBack)

/-- LEASE_STOP: the holder fences itself 7L/8 after its last confirmed renewal, also under a warm or watchdog reset (R405, R416, R469). -/
def execLeaseStop (t : Nat) (twin : Bool) (s : State) : Out :=
  always t s (fun s =>
    s.only s.leaseRuns (fun s =>
      if twin then s.only (s.role = 1 && s.leaseDue true s.twn.renewedAt (leaseStop s.twn.lease)) State.fence else s.feedStop))

/-! ### Becoming standby (R420) -/

/-- The producer of a submission that a unit drops on becoming standby learns that it is fenced (R220, R337, R425). -/
def State.answerFenced (q : Nat) (s : State) (f : Inflight) : State :=
  match f.prod with
  | .engine k => (s.countRefusal resFenced).onEngine k (fun x => x.postResult 0x80000003)
  | .host => ((s.countRefusal resFenced).setFld Fld.QUE_Qq_STAT_RESULT q resFenced).setFlag Fld.QUE_Qq_STAT_SUBBUSY q false
  | _ => s.countRefusal resFenced

/-- The unit discards its own journal; what it knows of its power-up stays: a stream that has sent its first frame 0 is not COLD again (R360, R420). -/
def State.dropJournal (s : State) : State :=
  (s.each (List.range 64) (fun q s =>
    let s1 := ((s.queue q).inflight.foldl (State.answerFenced q) s).onQueue q (fun x => { Queue.reset with stream := { Queue.reset.stream with cold := x.stream.cold } })
    ((((((s1.setFld Fld.QUE_Qq_ACC_SEQ_SEQ q 0).setFld Fld.QUE_Qq_CMP_SEQ_SEQ q 0).setFld Fld.QUE_Qq_TAKEN_SEQ_SEQ q 0).setFld Fld.QUE_Qq_TAIL_TAIL q 0).setFld
      Fld.QUE_Qq_HEAD_HEAD q 0).setFld Fld.QUE_Qq_STAT_OCC q 0).showQueue q)).portWrite 6 true (s.recordAddr 0) (List.replicate 4096 0)

/-- The unit becomes standby of the holder whose HEARTBEAT it heard: its lanes wait in ARMED, its device time follows, and it takes new copies (R416, R420). -/
def State.becomeStandby (s : State) (epoch dev : Nat) : State :=
  let s1 := ((s.armLanes.dropJournal).setFld Fld.TWN_STAT_ROLE 0 2).setFld Fld.TWN_EPOCH_EPOCH 0 epoch
  let s2 := s1.each (List.range s.lanes) (fun n s => s.setFld Fld.TWN_Ln_CKBLK_BLK n 0xFFFFFFFF)
  let s3 := s2.onTwn (fun x =>
    { x with osw := false, oswAt := none, listen := none, gotConfig := false, gotJournal := false, ckParts := [], payloads := [], sbWait := [], ckWait := [], released := false, releaseDue := none, pulseOn := none })
  let s4 := { s3 with sys := { s3.sys with timeBase := (s3.now : Int) - dev } }
  ((s4.setFlag Fld.TWN_STAT_SYNCED 0 false).setFlag Fld.TWN_STAT_SBPEND 0 false).showEligible

/-- The unit runs as single, with no mirror to wait for (R34, R420, R429). -/
def State.becomeSingle (s : State) : State :=
  let s1 := { s with que := { s.que with linkLostAt := none, unmirrored := false } }.setUnmirrored false
  (((s1.onTwn (fun x => { x with osw := false, oswAt := none, listen := none, sbWait := [], ckWait := [], released := false, pulseOn := none })).setFlag Fld.TWN_STAT_SBPEND 0 false).setFld
    Fld.TWN_STAT_ROLE 0 0).rampArmed

/-! ### Acquisition and takeover (R406, R422, R423) -/

/-- The lease is acquired: a new epoch, TWN_OSW rises, the peer's eligibility is not yet known, and streams restart in the new epoch; over a link that is down acceptance
starts to wait (R34, R360, R406, R416, R429). -/
def State.twinAcquire (s : State) : State :=
  let s1 := ((s.count Fld.TWN_EPOCH_EPOCH 0 1).setFld Fld.TWN_STAT_ROLE 0 1).setFlag Fld.TWN_STAT_ELIGIBLE 0 false
  let s2 := { s1 with que := { s1.que with linkLostAt := if s.flag Fld.TWN_STAT_LINK_OK 0 then none else some s.now } }
  (s2.onTwn (fun x => { x with osw := true, renewedAt := s.now, hbAt := s.now, pulseAt := s.now, listen := none, released := false, releaseDue := none, copied := false, unanswered := 0 })).each
    (List.range 64) (fun q s => s.only (s.cons q = consNet) (fun s => s.restream q))

/-- A point's state as its checkpoint bytes hold it, in the layout of `ckptBytes`; the gap counts as longer than 64 launches (R421, R422). -/
def ckptPoint (bs : List Byte) : Pt :=
  let u (o n : Nat) : Nat := imgGet bs o n
  let opt (k o n : Nat) : Option Rat := if bit (u 22 1) k then some ((signed (8 * n) (u o n) : Rat) / 65536) else none
  let avg (b k : Nat) : Rat := (Config.ckptField (6 * b + k) (bs.drop 40) : Rat)
  let pol (b : Nat) : Pol := ⟨avg b 0, avg b 1, avg b 2, avg b 3, bit (u 21 1) (4 + b), bit (u 22 1) b, avg b 4, avg b 5⟩
  { Pt.reset with
    ref0 := bit (u 21 1) 0, refb := u 21 1 % 16 / 2 * 2, phi := signed 48 (u 0 6), prev := signed 48 (u 6 6)
    off := #v[0, signed 24 (u 12 3), signed 24 (u 15 3), signed 24 (u 18 3)], fills := u 23 1, gap := 65
    pol := #v[pol 0, pol 1, pol 2, pol 3], base := opt 4 24 8, tbase := opt 5 32 4, lastT := opt 6 36 4 }

/-- PHX loads lane `n` from its newest complete checkpoint and goes on with its slot grid, block numbers and anchor, which the place of its last point carries (R422). -/
def State.loadLane (s : State) (n : Nat) : State :=
  let j := s.fld Fld.TWN_Ln_CKBLK_BLK n
  let s0 := s.setFld Fld.TWN_Ln_RESUME_BLK n j
  if j = 0xFFFFFFFF then s0
  else
    let a := s.phxShareAddr n j
    let rd := s.portRead 8 false a (64 * s.lenN n)
    if rd.2 then rd.1.setFld Fld.TWN_Ln_RESUME_BLK n 0xFFFFFFFF
    else
    let s0 := rd.1.setFld Fld.TWN_Ln_RESUME_BLK n j
    let head := s.readBytes (a + 64 * (s.lenN n - 1)) 64
    let on := decide (imgGet head 14 1 = 1)
    let pts := (List.range (s.lenN n - 1)).foldl (fun l i => sput Pt.reset l i (ckptPoint (s.readBytes (a + 64 * i) 64))) []
    let s1 := s0.onPhx n (fun l =>
      { PhxLane.reset with
        grid := some (imgGet head 0 8), block := imgGet head 8 4, pts := pts, clearGen := l.clearGen, evalN := l.evalN, below := l.below, above := l.above
        tRtd := if imgGet head 12 1 = 1 then some (signed 32 (imgGet head 16 4)) else none, tRtdBase := signed 32 (imgGet head 20 4), anchored := on
        fresh := decide (imgGet head 13 1 = 1), drift := (signed 64 (imgGet head 24 8) : Rat) / 65536 })
    ((((s1.setFld Fld.PHX_BLK_CNT n (j + 1)).setFlag Fld.PHX_Ln_STAT_IDLE n false).setFlag Fld.PHX_Ln_STAT_RELATIVE n (!on)).setLaneBit Fld.PHX_STAT_ANCHORED n on).setPos n

/-- BLOCK_REISSUE: the blocks of lane `n` that closed on the failed holder after the resumed checkpoint are reissued at once, in order; up to `k` (R423). -/
def State.reissue (s : State) (n : Nat) : Nat → State
  | 0 => s
  | k + 1 => if s.closeDue n then ((s.rowEvent n).closeBlock n (s.phxOf n).block true true).reissue n k else s

/-- How many blocks of lane `n` have closed since its grid began. -/
def State.blocksPast (s : State) (n : Nat) : Nat :=
  match (s.phxOf n).grid with
  | some g => if s.interval n * s.lenB n = 0 then 0 else (s.dev - g) / (s.interval n * s.lenB n) + 1
  | none => 0

/-- What a lane's part of the takeover report gives: the resumed block as value, and the open block with the number of reissued blocks above it (R422, R423). -/
def State.laneReport (s : State) (n before : Nat) : State :=
  s.fault 14 n (0x4004 + 0x200 * n) (s.fld Fld.TWN_Ln_RESUME_BLK n) (s.fld Fld.PHX_BLK_CNT n % 2 ^ 32 + 2 ^ 32 * (s.fld Fld.PHX_BLK_CNT n - before)) 3

/-- The failed holder may have accepted unmirrored: the link is down, and had been for the lease time when its last renewal was heard (R34, R345). -/
def State.mayHaveLost (s : State) : Bool := !s.flag Fld.TWN_STAT_LINK_OK 0 && decide (s.twn.linkAt + pclk * s.twn.lease ≤ s.twn.heardAt)

/-- TAKEOVER: a standby acquires, by expiry (0) or by release (1); its report counts the descriptors lost unmirrored, which is a free number where the holder may have accepted
any (R340, R345, R347, R422, R423). -/
def State.takeover (s : State) (cause : Nat) : State :=
  let gap := s.dev - (s.now - s.twn.heardAt)
  let s1 := (s.twinAcquire.onTwn (fun x => { x with oswAt := some s.dev, gapFrom := some gap })).setFlag Fld.TWN_STAT_SYNCED 0 false
  let s2 := (s1.count Fld.TWN_TAKEOVER_CNT 0 1).rampArmed.rebuildQueues s.twn.payloads true |>.mailboxTake
  let lanes := List.range s.lanes
  let s3 := s2.each lanes (fun n s => s.loadLane n)
  let lost := if s.mayHaveLost then s3.freeVal (2 ^ 32) else 0
  let s4 := s3.drawn.fault 14 0xFF 0x204 (s3.fld Fld.TWN_EPOCH_EPOCH 0) (cause + 2 ^ 32 * lost) 3
  s4.each lanes (fun n s => s.only (s.fld Fld.TWN_Ln_RESUME_BLK n ≠ 0xFFFFFFFF) (fun s =>
    let before := s.fld Fld.PHX_BLK_CNT n
    (s.reissue n (s.blocksPast n)).laneReport n before))

/-- A fenced unit acquires again and resumes: its own journal and grids stand (R406, R425). -/
def State.resume (s : State) : State :=
  s.twinAcquire.rampArmed.onTwn (fun x => { x with oswAt := some s.dev })

/-- No role change starts while Hearth restarts (R36). -/
def State.roleFree (s : State) : Bool := s.flag Fld.TWN_CTRL_EN 0 && s.sys.hearth

/-- A twin challenger acquires at expiry: an eligible standby takes over, a fenced unit in health resumes (R406, R422, R425). -/
def State.twinExpiry (s : State) : State :=
  s.only (s.roleFree && s.leaseDue true s.twn.heardAt (leaseAcquire s.twn.lease)) (fun s =>
    if s.role = 2 && s.eligible then s.takeover 0
    else if s.role = 3 && !s.anyQuenched && s.flag Fld.MEM_STAT_READY 0 then s.resume.count Fld.TWN_TAKEOVER_CNT 0 1
    else s)

/-- LEASE_EXPIRY_ACQUIRE of the twin or the feed instance (R406). -/
def execLeaseExpiryAcquire (t : Nat) (twin : Bool) (s : State) : Out :=
  if twin then clocked t s State.twinExpiry else always t s (fun s => s.only s.leaseRuns State.feedExpiry)

/-- OSW_SETTLED: TWN_OSWSET has elapsed after a takeover; lanes whose ramp is done are EMITTING (R422). -/
def execOswSettled (t : Nat) (s : State) : Out :=
  clocked t s (fun s =>
    match s.twn.oswAt with
    | some t0 =>
      s.only (decide (t0 + pclk * s.fld Fld.TWN_OSWSET_SET 0 ≤ s.dev)) (fun s =>
        (s.onTwn (fun x => { x with oswAt := none })).each (List.range s.lanes) (fun n s => s.only ((s.laneOf n).st = .ramped) (fun s => s.startEmitting n)))
    | none => s)

/-- RELEASE received: an eligible standby of that epoch takes over at once, and a fenced unit in health acquires as the challenger it is, above the epoch released
(R406, R424). -/
def execRelease (t : Nat) (epoch reason : Nat) (s : State) : Out :=
  clocked t s (fun s =>
    let _ := reason
    s.only (s.flag Fld.TWN_CTRL_EN 0) (fun s =>
      let s1 := s.linkHeard
      if s1.role = 2 && epoch = s1.fld Fld.TWN_EPOCH_EPOCH 0 && s1.roleFree && s1.eligible then s1.takeover 1
      else if s1.role = 3 && s1.fld Fld.TWN_EPOCH_EPOCH 0 ≤ epoch && s1.roleFree && !s1.anyQuenched && s1.flag Fld.MEM_STAT_READY 0 then
        (s1.setFld Fld.TWN_EPOCH_EPOCH 0 epoch).resume.count Fld.TWN_TAKEOVER_CNT 0 1
      else s1))

/-! ### Pairing and HEARTBEAT (R417, R420, R425) -/

/-- Twin operation ends: a holder releases the lease, and the unit runs as single (R429). -/
def State.twinOff (s : State) : State :=
  ((((s.releaseLease 1).becomeSingle.setFlag Fld.TWN_STAT_SYNCED 0 false).setFlag Fld.TWN_STAT_ELIGIBLE 0 false).setFlag Fld.TWN_STAT_LINE_OK 0 false).setFlag
    Fld.TWN_STAT_LINK_OK 0 false

/-- A completed guarded write of TWN_CTRL: setting EN starts to listen, clearing it ends twin operation, when Hearth is up (R36, R420,
R429). -/
def State.twinCtrl (s : State) (src : Source) (val : Word) : State :=
  let on := decide (bitsOf 0 0 val = 1)
  if on && s.legacy then s.clamp src Fld.TWN_CTRL_EN.addr val 0 rsLegacy 0 0
  else if on && !s.flag Fld.TWN_CTRL_EN 0 then
    let l := s.fld Fld.TWN_LEASE_LEASE 0
    let n := leaseAcquire l * (if s.twinStrap then 2 else 1)
    (s.setFlag Fld.TWN_CTRL_EN 0 true).onTwn (fun x => { x with lease := l, listen := some (s.now + pclk * n), heardAt := s.now, linkAt := s.now, lineAt := s.now })
  else if !on && s.flag Fld.TWN_CTRL_EN 0 then
    let s1 := s.setFlag Fld.TWN_CTRL_EN 0 false
    if s.sys.hearth then s1.twinOff else s1
  else s

/-- PAIRING_LISTEN_END: no HEARTBEAT was heard; the unit acquires (R420). -/
def execPairingListenEnd (t : Nat) (s : State) : Out :=
  clocked t s (fun s =>
    match s.twn.listen with
    | some t1 => s.only (s.roleFree && decide (t1 ≤ s.now)) State.twinAcquire
    | none => s)

/-- The present HEARTBEAT renews the lease for a standby: L, device time, and the STATUS reply (R406, R407, R417, R418). -/
def State.hbRenew (s : State) (epoch lease dev : Nat) : State :=
  let s1 := (s.onTwn (fun x => { x with heardAt := s.now, lease := lease })).setFld Fld.TWN_EPOCH_EPOCH 0 epoch
  let s2 := if dev + 4 < s.dev ∨ s.dev + 4 < dev then
      { s1 with sys := { s1.sys with timeBase := (s1.now : Int) - dev } }.setFlag Fld.TWN_STAT_SKEW 0 true
    else s1
  (s2.showEligible).belSend 1 s2.statusBody

/-- A HEARTBEAT reaches a unit that also holds: who keeps the lease (R420). -/
def State.hbConflict (s : State) (epoch dev : Nat) (strap : Bool) (serial : Nat) : State :=
  let own := s.fld Fld.TWN_EPOCH_EPOCH 0
  if own < epoch then s.becomeStandby epoch dev
  else if epoch < own then s
  else if strap != s.twinStrap then (if s.twinStrap then s.becomeStandby epoch dev else s)
  else
    let s1 := s.setFlag Fld.TWN_STAT_ROLECONF 0 true
    if serial < s.fixed.serial then s1.becomeStandby epoch dev else s1

/-- A HEARTBEAT heard while twin operation is enabled (R417, R420, R425). -/
def State.heartbeat (s : State) (epoch lease dev : Nat) (strap : Bool) (part serial : Nat) : State :=
  let s1 := s.linkHeard
  if part ≠ s.fixed.variant.part then
    (if s.sys.hearth then s1.becomeSingle else s1).setFlag Fld.TWN_STAT_ROLECONF 0 true
  else
    match s.role with
    | 0 => if s.twn.listen.isSome && s.roleFree then (s1.becomeStandby epoch dev).hbRenew epoch lease dev else s1
    | 1 =>
      let s2 := s1.hbConflict epoch dev strap serial
      if s.roleFree then (if s2.role = 2 then s2.hbRenew epoch lease dev else s2) else s1
    | 2 => s1.hbRenew epoch lease dev
    | _ =>
      let s2 := s1.onTwn (fun x => { x with heardAt := s.now })
      if s.fld Fld.TWN_EPOCH_EPOCH 0 < epoch && s.roleFree then
        let s3 := ((s2.becomeStandby epoch dev).hwSet Fld.TWN_STAT_SUPERSEDED 0).count Fld.TWN_SUPERSEDE_CNT 0 1
        (s3.faultAt 14 0xFF 0x200 0 3).hbRenew epoch lease dev
      else s2

/-- HEARTBEAT received (R418, R420, R425). -/
def execHeartbeat (t : Nat) (epoch lease dev : Nat) (strap : Bool) (part serial : Nat) (s : State) : Out :=
  clocked t s (fun s => s.only (s.flag Fld.TWN_CTRL_EN 0) (fun s => s.heartbeat epoch lease dev strap part serial))

/-! ### STATUS and switch-back (R421, R425, R426) -/

/-- A lane's newest complete checkpoint as the standby reports it (R421, R426). -/
def State.ckptReport (s : State) (n j : Nat) : State :=
  if j = 0xFFFFFFFF || j = s.fld Fld.TWN_Ln_CKBLK_BLK n then s
  else
    let s1 := ((s.setFld Fld.TWN_Ln_CKBLK_BLK n j).count Fld.TWN_CKPT_CNT 0 1).setStale (s.twn.stale.filter (fun e => e.1 ≠ n || decide (j ≤ e.2)))
    s1.onTwn (fun x => { x with
      sbWait := x.sbWait.filter (fun w => w.1 ≠ n || decide (j < w.2)), ckWait := x.ckWait.filter (fun w => w.1 ≠ n || decide (j < w.2)) })

/-- A STATUS frame heard by the holder, or by a fenced unit whose peer never acquired. A peer that was silent for two HEARTBEATs or has lost its checkpoints has become
standby anew, and is sent its copies again (DESIGN CHOICE 36) (R420, R421, R425, R426). -/
def State.status (s : State) (epoch : Nat) (eligible : Bool) (blocks : List Nat) : State :=
  let s0 := s.linkHeard
  let again := decide (2 ≤ s.twn.unanswered) || (List.range s.lanes).any (fun n => blocks.getD n 0xFFFFFFFF = 0xFFFFFFFF && s.fld Fld.TWN_Ln_CKBLK_BLK n ≠ 0xFFFFFFFF)
  let s1 := s0.onTwn (fun x => { x with unanswered := 0, copied := x.copied && !again })
  if s.role = 1 then
    let s2 := ((s1.setFlag Fld.TWN_STAT_ELIGIBLE 0 eligible).each (List.range s.lanes) (fun n s => s.ckptReport n (blocks.getD n 0xFFFFFFFF))).mirrorAgain
    if !s2.flag Fld.TWN_STAT_SBPEND 0 then s2
    else if !eligible then ((s2.onTwn (fun x => { x with sbWait := [] })).setFlag Fld.TWN_STAT_SBPEND 0 false).faultAt 14 0xFF 0x200 0 3
    else if s2.twn.sbWait.isEmpty && s2.sys.hearth then s2.releaseLease 1 else s2
  else if s.role = 3 && epoch = s.fld Fld.TWN_EPOCH_EPOCH 0 && s.roleFree && !s.anyQuenched then s1.resume
  else s1

/-- A completed guarded write of TWN_SWITCHBACK: it applies on the holder while the standby is ELIGIBLE and both paths are alive. The release itself waits
while Hearth restarts (R36, R426). -/
def State.twinSwitchback (s : State) (src : Source) (val : Word) : State :=
  if bitsOf 0 0 val = 0 then s
  else if s.role = 1 && s.flag Fld.TWN_STAT_ELIGIBLE 0 && s.flag Fld.TWN_STAT_LINK_OK 0 && s.flag Fld.TWN_STAT_LINE_OK 0 then
    let wait := s.openLanes
    let s1 := (s.onTwn (fun x => { x with sbWait := wait })).setFlag Fld.TWN_STAT_SBPEND 0 true
    if wait.isEmpty && s.sys.hearth then s1.releaseLease 1 else s1
  else s.clamp src Fld.TWN_SWITCHBACK_GO.addr val 0 rsState 0 0

/-- TWIN_SWITCHBACK (R426). -/
def execTwinSwitchback (t : Nat) (src : Source) (s : State) : Out :=
  ticking t s (fun s => s.pairWhole src Fld.TWN_SWITCHBACK_GO.addr (fun s => s.pastLocks src Fld.TWN_SWITCHBACK_GO.addr 1 (fun s => s.twinSwitchback src 1)))

/-! ### The standby's copies (R346, R420, R421) -/

/-- SYNCED sets when the configuration, the journal and the next checkpoint of every emitting lane have arrived (R420). -/
def State.syncCheck (s : State) : State :=
  let lanes := (List.range s.lanes).filter (fun n => s.laneBit Fld.LAN_CTRL_EMIT_EN n)
  if s.role = 2 && s.twn.gotConfig && s.twn.gotJournal && lanes.all (fun n => s.fld Fld.TWN_Ln_CKBLK_BLK n ≠ 0xFFFFFFFF) then
    (s.setFlag Fld.TWN_STAT_SYNCED 0 true).showEligible
  else s

/-- JOURNAL received: bytes of an image, a state record or a payload at the same address; `payload` names the descriptor whose payload is now whole, `last` ends the copy
of R420 (R346, R418). -/
def execJournal (t : Nat) (addr : Nat) (bytes : List Byte) (payload : Option (Nat × Nat)) (last : Bool) (s : State) : Out :=
  clocked t s (fun s => s.only (s.role = 2 && decide (bytes.length ≤ 4096)) (fun s =>
    ((s.linkHeard.dramWrite 6 true addr bytes).onTwn (fun x =>
      { x with gotJournal := x.gotJournal || last, payloads := (match payload with
        | some p => [p]
        | none => []) ++ x.payloads })).syncCheck))

/-- The bytes of a share of lane `n`'s checkpoint (R222, R421). -/
def State.shareSize (s : State) (n : Nat) (eng : Bool) : Nat :=
  if eng then (if (s.ckptEngines n).isEmpty then 0 else 128 * s.lenN n) else 64 * s.lenN n

/-- The bytes of a share received so far, in order. -/
def State.shareGot (s : State) (n : Nat) (eng : Bool) (blk : Nat) : Nat :=
  match s.twn.ckParts.find? (fun e => e.1 = 2 * n + b2n eng && e.2.1 = blk) with
  | some e => e.2.2
  | none => 0

/-- A part of a checkpoint share arrives: written at the same address; with both shares whole the lane's checkpoint is complete and is reported. A block that shares its
buffer with the newest complete one is not taken, so that the lane stays resumable from that (R421). -/
def State.checkpoint (s : State) (n blk off : Nat) (eng : Bool) (bytes : List Byte) : State :=
  let j := s.fld Fld.TWN_Ln_CKBLK_BLK n
  let keeps := decide (j ≠ 0xFFFFFFFF) && decide (j ≠ blk) && decide (j % 2 = blk % 2)
  if keeps || off ≠ s.shareGot n eng blk || s.shareSize n eng < off + bytes.length then s
  else
    let a := (if eng then s.engShareAddr n blk else s.phxShareAddr n blk) + off
    let key := 2 * n + b2n eng
    let s1 := (s.dramWrite 8 false a bytes).onTwn (fun x =>
      { x with ckParts := (key, blk, off + bytes.length) :: x.ckParts.filter (fun e => e.1 ≠ key || e.2.1 ≠ blk) })
    if s1.shareGot n false blk = s.shareSize n false && s1.shareGot n true blk = s.shareSize n true then
      ((s1.setFld Fld.TWN_Ln_CKBLK_BLK n blk).onTwn (fun x => { x with ckParts := x.ckParts.filter (fun e => e.1 / 2 ≠ n) })).syncCheck
    else s1

/-- CHECKPOINT received (R418, R421). -/
def execCheckpoint (t : Nat) (n blk off : Nat) (eng : Bool) (bytes : List Byte) (s : State) : Out :=
  clocked t s (fun s => s.only (s.role = 2 && decide (n < s.lanes)) (fun s => s.linkHeard.checkpoint n blk off eng bytes))

end Sys2Proof.Machine
end

