-- ==== Sys2Proof/Machine/Views.lean ====
section
/-!
DEFINITION. What a read of the control bus returns: registers whose value is computed, peek and complement mirrors, snapshots, tables, memories and the aperture, and the
reads that have an effect (spec 17_register_model R431, R433, R445, R449, R450, R452, R458; 19_register_map R477 to R481; R390, R392).
Points that the spec leaves open or that are read from it by inference: DEDUCED 42; DESIGN CHOICE 49 of the assumption log.
-/

namespace Sys2Proof.Machine

/-! ### Registers whose value is computed -/

/-- A lane mask of the engines that satisfy a condition. -/
def State.engMask (s : State) (f : EngState → Bool) : Nat := ((List.range s.lanes).map (fun e => if f (s.engine e).st then 2 ^ e else 0)).sum

/-- The number of an engine's state in ANV_En_STAT (R198, R224). -/
def engStateCode : EngState → Nat
  | .halted => 0
  | .running => 1
  | .waiting => 2
  | .error => 3

/-- A register of an engine's block, by its offset (R224); none for one that stands in the register store. -/
def State.engView (s : State) (e off : Nat) : Option Word :=
  let x := s.engine e
  match off with
  | 0x00 => some (BitVec.ofNat 32 (b2n x.run))
  | 0x04 => some (BitVec.ofNat 32 x.pc)
  | 0x08 => some x.astat
  | 0x0C => some x.aovWord
  | 0x10 => some x.bexpWord
  | 0x14 => some (BitVec.ofNat 32 x.loop)
  | 0x1C => some (BitVec.ofNat 32 (engStateCode x.st + 16 * x.err))
  | 0x20 => some (BitVec.ofNat 32 x.errPc)
  | 0x24 => some (BitVec.ofNat 32 x.evt.toNat)
  | 0x28 => some x.ckblk
  | 0x2C => some x.posWord
  | 0x40 => some (x.chan 0).word
  | 0x44 => some (x.chan 1).word
  | 0x48 => some (x.chan 2).word
  | 0x4C => some (x.chan 3).word
  | _ => none

/-- PCLK since PLL lock (R458). -/
def State.uptime (s : State) : Nat := if s.sys.power = .run || s.sys.power = .hold then (s.now - s.sys.lockAt) / pclk else 0

/-- A result register of AUX without the latching of its tag (R285). -/
def State.auxView (s : State) (a : Nat) : Word := (s.auxRead a).2

/-- The TST register at 4k holds an active injection (R455, R456). -/
def State.tstActive (s : State) (k : Nat) : Bool :=
  match k with
  | 0 => s.flag Fld.TST_DRAMLAT_PORTS 0 && s.flag Fld.TST_DRAMLAT_EXTRA 0
  | 1 => s.flag Fld.TST_QBP_EN 0
  | 2 => s.flag Fld.TST_LEASESKEW_PPM 0
  | 3 => s.flag Fld.TST_HBDELAY_PATH 0 && s.flag Fld.TST_HBDELAY_DELAY 0
  | 4 => s.flag Fld.TST_BLDROP_LANES 0 || s.flag Fld.TST_BLDROP_RATE 0
  | 5 => s.flag Fld.TST_SLICE_KIND 0
  | 6 => s.sys.eccArm.isSome
  | 8 => s.flag Fld.TST_DUMMY_LANES 0
  | 9 => s.flag Fld.TST_EMITFLT_KIND 0
  | _ => false

/-- A register of the windows as it reads, with no effect (R17, R431, R434). -/
def State.regView (s : State) (a : Nat) : Word :=
  let w := s.plainRead a
  match regAt a with
  | none => 0
  | some (_, u) =>
    if fusedOff s.fixed a u then 0
    else
      match a / 0x10000 with
      | 0 => if a = 0x608 then BitVec.ofNat 32 s.uptime else if a = 0x60C then s.sys.uptimeHi.getD (BitVec.ofNat 32 (s.uptime / 2 ^ 32)) else w
      | 3 => if 0x34000 ≤ a && a % 0x200 = 0x4C then BitVec.ofNat 32 (s.sampleReg u) else w
      | 6 =>
        -- a stall in progress has counted its ticks so far (R258)
        if 0x60640 ≤ a && a < 0x60660 && (s.wick u).wait = .cell then w + BitVec.ofNat 32 (s.dev - (s.wick u).next) else w
      | 7 =>
        if a = 0x70200 then
          BitVec.ofNat 32 (s.engMask (fun x => x = .running || x = .waiting) + 2 ^ 8 * s.engMask (fun x => x = .halted) + 2 ^ 16 * s.engMask (fun x => x = .error))
        else if 0x74000 ≤ a && a < 0x76000 then (s.engView u (a % 0x400)).getD w
        else w
      | 8 => if a = 0x80208 || (0x84000 ≤ a && a < 0x86000 && a % 0x200 = 0xC) then s.auxView a else w
      | 9 =>
        if a = 0x90200 then withBits 4 3 w (b2n (s.selfRef 0) + 2 * b2n (s.selfRef 1))
        else if 0x94000 ≤ a && a < 0x96000 && a % 0x100 = 0x10 then s.portStat u
        else if 0x96000 ≤ a then withBits 1 1 w (b2n (s.selfRef u))
        else w
      | 10 => if 0xA4000 ≤ a && 0x80 ≤ a % 0x100 && a % 0x100 < 0xC0 then s.hostWord u ((a % 0x100 - 0x80) / 4) else w
      | 14 => if a = 0xE0200 && s.role = 2 then withBits 5 5 w (b2n s.eligible) else w
      | 15 =>
        if a = 0xF0200 then
          BitVec.ofNat 32 (((List.range 10).map (fun k => if s.tstActive k then 2 ^ k else 0)).sum)
        else w
      | _ => w

/-! ### Mirrors, snapshots and tables -/

/-- The guarded registers of R481. -/
def guardedRegs : List Nat := [0x4, 0x10, 0x24, 0x10000, 0x10004, 0x10010, 0xD0000, 0xD000C, 0xE0000, 0xE0008]

/-- A word of the tables and program memories of the windows (R75, R115, R167, R267, R300, R398). -/
def State.tableView (s : State) (a : Nat) : Word :=
  let off := a % 0x10000
  match a / 0x10000 with
  | 1 => s.chirpWord a
  | 2 => if off < 0x9000 then sget 0 s.orx.schedStg ((off - 0x8000) / 4) else 0
  | 4 =>
    if off < 0xA000 then sget 0 s.ddc.specStg (s.fld Fld.DDC_TBLPAGE_LANE 0 * 2048 + (off - 0x8000) / 4)
    else if customRange off then sget 0 s.ddc.coefStg (off / 4)
    else if 0xD000 ≤ off && off < 0xD800 then minPhaseBin ((off - 0xD000) / 4)
    else 0
  | 6 => if (off - 0x8000) / 0x1000 < s.lanes then sget 0 (s.wick ((off - 0x8000) / 0x1000)).prog (off % 0x1000 / 4) else 0
  | 8 =>
    if off < 0x8080 then s.calfWord ((off - 0x8000) / 4)
    else if 0x9000 ≤ off && off < 0x9080 then sget 0 s.aux.seqStg ((off - 0x9000) / 4)
    else 0
  | 12 => if s.flag Fld.NET_STAT_BOOTWAIT 0 then sget 0 s.boot.stage ((off - 0x8000) / 4) else 0
  | _ => 0

/-- A word of the windows as a read returns it, apart from the read's effects (R431, R445, R450). -/
def State.winView (s : State) (a : Nat) : Word :=
  let off := a % 0x10000
  if 0x8000 ≤ off then s.tableView a
  else if 0x400 ≤ off && off < 0x600 then s.regView (a - 0x200)
  else if 0x800 ≤ off && off < 0x1000 then (if guardedRegs.contains (a - 0x800) then ~~~ s.regView (a - 0x800) else 0)
  else if 0x1600 ≤ off && off < 0x1800 then sget 0 s.regs.snap (a - 0x1000)
  else s.regView a

/-! ### The legacy window (R452, R480) -/

/-- The native registers of a block of the legacy window, in order. -/
def legacyBlock (natives : List Nat) (off : Nat) : Option Nat := if off % 4 = 0 then natives[off / 4]? else none

/-- How many lanes the legacy window presents (R452). -/
def State.legacyLanes (s : State) : Nat := min 4 s.lanes

/-- The native address behind an offset of the legacy window; the commit register has none (R452). -/
def State.legacyNative (s : State) (off : Nat) : Option Nat :=
  if off < 0x1000 then
    match off with
    | 0x0 => some 0x0
    | 0x4 => some 0x4
    | 0xC => some 0x200
    | _ => none
  else if off < 0x2000 then
    let n := (off - 0x1000) / 0x100
    if n < s.legacyLanes then legacyBlock ([0x4000, 0x4004, 0x4018, 0x4020, 0x400C, 0x4010].map (fun o => 0x10000 + o + 0x200 * n)) (off % 0x100) else none
  else if off < 0x3000 then
    let c := (off - 0x2000) / 0x100
    if c < 2 * s.legacyLanes then legacyBlock ([0x4000, 0x4004, 0x4008, 0x4010].map (fun o => 0x20000 + o + 0x200 * c)) (off % 0x100) else none
  else if off < 0x4000 then
    let n := (off - 0x3000) / 0x100
    if n < s.legacyLanes then
      legacyBlock [0x64000 + 0x200 * n, 0x64008 + 0x200 * n, 0x54000 + 0x200 * n, 0x54004 + 0x200 * n, 0x54010 + 0x200 * n] (off % 0x100)
    else none
  else if off < 0x5000 then legacyBlock [0x10000, 0x10004, 0x10010, 0x10200, 0x10204] (off - 0x4000)
  else if off < 0x6000 then
    let n := (off - 0x5000) / 0x400
    if n < s.legacyLanes then some (0x68000 + 0x1000 * n + off % 0x400) else none
  else none

/-- The guarded register behind a complement offset of the legacy window (R452, R481). -/
def State.legacyGuarded (s : State) (off : Nat) : Option Nat :=
  if 0x800 ≤ off then (s.legacyNative (off - 0x800)).filter guardedRegs.contains
  else none

/-- The entries of a legacy chirp table, two in each word (R74, R452). -/
def State.legacyChirp (s : State) (n k : Nat) : Word :=
  let l := s.laneOf n
  BitVec.ofNat 32 ((sget (0 : BitVec 12) l.chirpStg k).toNat * 16 + (sget (0 : BitVec 12) l.chirpStg (k + 1)).toNat * 2 ^ 20)

/-- What a read returns of a register that another source writes on the same edge: the value before the first such write (R434, R479). -/
def State.readBefore (s : State) (src : Source) (a : Nat) : Option Word :=
  match (s.edgeNow.wrote.filter (fun w => w.addr = a && w.src ≠ src)).getLast?, regAt a with
  | some w, some (r, _) =>
    some (r.fields.foldl (fun v fd => match fd.acc with
      | .rws => withBits fd.hi fd.lo v (bitsOf fd.hi fd.lo w.staged)
      | .rw | .rwg | .w1c => withBits fd.hi fd.lo v (bitsOf fd.hi fd.lo w.live)
      | _ => v) (s.winView a))
  | _, _ => none

/-- The value of a register that a read by a source finds. -/
def State.regSeen (s : State) (src : Source) (a : Nat) : Word := (s.readBefore src a).getD (s.winView a)

/-- The word of a window that a read by a source finds: at the complement of a guarded register, the complement of what a read of that register finds (R445, R479). -/
def State.seen (s : State) (src : Source) (a : Nat) : Word :=
  if 0x800 ≤ a % 0x10000 && a % 0x10000 < 0x1000 && guardedRegs.contains (a - 0x800) then ~~~ s.regSeen src (a - 0x800) else s.regSeen src a

/-- What the legacy window shows of a native register: SYS_ID with part code 0x0420, and of SYS_CTRL and LAN_CTRL only the fields named (R452). -/
def State.legacyWord (s : State) (src : Source) (a : Nat) : Word :=
  if a = 0 then withBits 31 16 (s.seen src 0) 0x0420
  else if a = 4 then s.seen src 4 &&& 3
  else if a = 0x10000 then s.seen src a &&& 0xF
  else s.seen src a

/-- A word of the legacy window: the same fields as the native register, and the complement of what it shows of a guarded one (R445, R452, R480). -/
def State.legacyView (s : State) (src : Source) (off : Nat) : Word :=
  if !s.legacy then 0
  else if 0x8000 ≤ off then
    let n := (off - 0x8000) / 0x2000
    if n < s.legacyLanes then s.legacyChirp n (off % 0x2000 / 4 * 2) else 0
  else
    match s.legacyNative off with
    | some a =>
      if 0x3000 ≤ off && off < 0x4000 && off % 0x100 = 0xC then withBits 15 0 (s.winView a) (s.reported (bitsOf 15 0 (s.winView a)))
      else s.legacyWord src a
    | none =>
      match s.legacyGuarded off with
      | some a => ~~~ s.legacyWord src a
      | none => 0

/-! ### Reads with their effects -/

/-- The bits of SYS_STAT whose condition is still present (R447 to R449). -/
def State.statHeld (s : State) : Nat :=
  2 * b2n s.sys.declared + 4 * b2n (s.sys.declared && s.sys.froze) + 8 * b2n (s.sys.power = .clkFail)
    + 16 * b2n (s.sys.straps / 8 % 4 = 3) + 32 * b2n (s.fld Fld.SYS_BOOTSTAGE_STAGE 0 = 15 && s.fld Fld.MEM_STAT_TRAINFAIL 0 = 0) + 256 * b2n s.sys.hold.isSome

/-- A clear-on-read register is read: its value, and what is left of it; a bit that hardware sets on the same edge stays (R449, R479). CRCVALID stands for the latest pass, which stays valid until a covered change. -/
def State.rcRead (s : State) (a : Nat) : State × Word :=
  let w := s.regView a
  (s.setLive a (w &&& BitVec.ofNat 32 ((if a = 0x200 then s.statHeld + 128 else 0) ||| s.edgeSets a)), w)

/-- The clear-on-read registers (R481). -/
def isRc (a : Nat) : Bool := a = 0x200 || a = 0xB0204

/-- A word read through the aperture; true when the access is refused, or delivers poisoned data with an error status (R320, R324, R392). -/
def State.apertureRead (s : State) (a : Nat) : State × Word × Bool :=
  let d := s.fld Fld.SYS_APBASE_BASE 0 * 2 ^ 26 + (a - 0x40000000)
  if !s.flag Fld.MEM_STAT_READY 0 || s.dramEnd ≤ d then (s, 0, true)
  else
    let r := s.dramRead 9 d 4
    let w : Word := BitVec.ofNat 32 (leNat (s.readBytes d 4))
    if r.2 then (r.1.drawn.drawn, s.asStored w, true) else (r.1, w, false)

/-- A word written through the aperture: a read-modify-write; true when it is refused (R311, R392). -/
def State.apertureWrite (s : State) (a : Nat) (val : Word) : State × Bool :=
  let d := s.fld Fld.SYS_APBASE_BASE 0 * 2 ^ 26 + (a - 0x40000000)
  if !s.flag Fld.MEM_STAT_READY 0 || s.dramEnd ≤ d then (s, true) else (s.dramWrite 9 true d (leBytes 4 val.toNat), false)

/-- An aperture address (R392, R477). -/
def isAperture (a : Nat) : Bool := decide (0x40000000 ≤ a) && decide (a < 0x44000000)

/-- An address that the boot failure of R397 leaves readable over SPI: SYS and NET. -/
def bootReadable (a : Nat) : Bool := decide (a < 0x10000) || (decide (0xC0000 ≤ a) && decide (a < 0xD0000))

/-- A word of the control bus as a read latches it, with the read's effects (R390, R392, R449, R458, R477). Reads through host ports copy a clear-on-read value to
NET_SPI_LASTRC. -/
def State.busRead (s : State) (src : Source) (a : Nat) : State × Word :=
  let host := src = .spi || src = .mgmt
  let rc (r : State × Word) : State × Word := if host then (r.1.setLive Fld.NET_SPI_LASTRC_VALUE.addr r.2, r.2) else r
  if a % 4 ≠ 0 then (s, 0)
  else if src = .spi && s.bootDead && !bootReadable a then (s, 0)
  else if a < 0x100000 then
    if isRc a then rc (s.rcRead a)
    else if a = 0x608 then ({ s with sys := { s.sys with uptimeHi := some (BitVec.ofNat 32 (s.uptime / 2 ^ 32)) } }, s.winView a)
    else if auxResultAt a then s.auxRead a
    else (s, s.seen src a)
  else if 0x200000 ≤ a && a < 0x210000 then
    if s.legacy && a = 0x20000C then rc (s.rcRead 0x200) else (s, s.legacyView src (a - 0x200000))
  else if 0x1000000 ≤ a && a < 0x1800000 then s.memRead a
  else if isAperture a then ((s.apertureRead a).1, (s.apertureRead a).2.1)
  else (s, 0)

/-- A read whose word is the answer. -/
def State.answer (s : State) (src : Source) (a : Nat) : State :=
  let r := s.busRead src a
  { r.1 with resp := leBytes 4 r.2.toNat }

/-- RC_READ: a read of SYS_STAT or CRU_ERR (R449). -/
def execRcRead (t : Nat) (src : Source) (addr : Word) (s : State) : Out :=
  ticking t s (fun s => s.only (isRc addr.toNat) (fun s => s.answer src addr.toNat))

/-- UPTIME_LO_READ (R458). -/
def execUptimeLoRead (t : Nat) (src : Source) (s : State) : Out := ticking t s (fun s => s.answer src 0x608)

/-! ### Snapshots (R450) -/

/-- The addresses of the live counters: offsets 0x600 to 0x7FF of every window. -/
def counterAddrs : List Nat := (List.range 15).flatMap (fun w => (List.range 128).map (fun k => w * 0x10000 + 0x600 + 4 * k))

/-- Every live counter is copied to its holding copy (R450). -/
def State.snapshot (s : State) : State :=
  let up := BitVec.ofNat 32 (s.uptime / 2 ^ 32)
  { s with regs := { s.regs with snap := counterAddrs.foldl (fun m a => sput 0 m a (if a = 0x60C then up else s.regView a)) s.regs.snap } }

end Sys2Proof.Machine
end

