-- ==== Sys2Proof/Machine/Commit.lean ====
section
/-!
DEFINITION. The commit of staged configuration: cross-field checks, pending copies, what each window's boundary brings, and the mirror of a commit on the standby
(spec 17_register_model R434 to R440, R446, R448, R452, R454; the checks that chapters attach to a commit; R418 and R420).
Points that the spec leaves open or that are read from it by inference: DESIGN CHOICE 13, 49, 50; DEDUCED 21, 38 of the assumption log.
-/

namespace Sys2Proof.Machine

/-! ### Checked fields of the staged copy (R440) -/

/-- A field of the staged copy. -/
def State.sfld (s : State) (f : Fld) (u : Nat) : Nat := bitsOf f.hi f.lo (s.staged (f.at u))

/-- The staged field differs from the copy committed before. -/
def State.sdiff (s : State) (f : Fld) (u : Nat) : Bool := s.sfld f u ≠ s.pfld f u

/-- A commit check sets a staged field; a change posts its record (R440). -/
def State.commitSet (s : State) (f : Fld) (u v reason : Nat) : State :=
  let w := s.staged (f.at u)
  let w1 := withBits f.hi f.lo w v
  if w1 = w then s else (s.setStaged (f.at u) w1).clamp .commit (f.at u) w w1 reason f.lo f.hi

/-- A field keeps its previous value where a condition forbids its change (R439). -/
def State.commitKeep (s : State) (f : Fld) (u : Nat) (forbidden : Bool) : State := if forbidden then s.commitSet f u (s.pfld f u) rsState else s

/-- A region base in MiB clamps to the highest one whose region fits installed DRAM. -/
def State.fitBase (s : State) (f : Fld) (size : Nat) : State :=
  s.commitSet f 0 (min (s.sfld f 0) ((s.dramEnd - size) / 2 ^ 20)) rsCross

/-! ### The checks of each window -/

/-- LAN: setpoints that the shunts cannot carry, and TARGET above CEIL (R63, R95). -/
def State.checkLan (s : State) : State :=
  let most (rsh : Nat) : Nat := [1000, 666, 500, 303].getD rsh 303
  s.each (List.range s.lanes) (fun n s =>
    let s1 := s.commitSet Fld.LAN_Ln_STRA_ISET n (min (s.sfld Fld.LAN_Ln_STRA_ISET n) (most (s.sfld Fld.LAN_Ln_STRA_RSH n))) rsCross
    let s2 := s1.commitSet Fld.LAN_Ln_STRB_ISET n (min (s1.sfld Fld.LAN_Ln_STRB_ISET n) (most (s1.sfld Fld.LAN_Ln_STRB_RSH n))) rsCross
    s2.commitSet Fld.LAN_Ln_APC_TARGET n (min (s2.sfld Fld.LAN_Ln_APC_TARGET n) (s2.sfld Fld.LAN_Ln_CEIL_CEIL n)) rsCross)

/-- A schedule has changed since the copy committed before. -/
def State.schedDiffers (s : State) (sch : Nat) : Bool :=
  (List.range 64).any (fun k => sget (0 : Word) s.orx.schedStg (sch * 64 + k) ≠ sget (0 : Word) s.orx.schedCom (sch * 64 + k))

/-- One report for a changed schedule that ends at an entry without LAST, at the entry that is ignored (R115). -/
def State.checkSchedule (s : State) (sch : Nat) : State :=
  if s.schedDiffers sch && schedBroken s.orx.schedStg sch then
    let k := sch * 64 + (schedEntries s.orx.schedStg sch 64 0 0).length
    let w := sget (0 : Word) s.orx.schedStg k
    s.clamp .commit (0x28000 + 4 * k) w w rsCross 0 15
  else s

/-- ORX: MINR and MAXR, LO_PCT, CM_HI, then the schedules (R101, R103, R113, R115). -/
def State.checkOrx (s : State) : State :=
  let one (c : Nat) (s : State) : State :=
    let s1 := s.commitSet Fld.ORX_Cn_RANGE_MAXR c (max (s.sfld Fld.ORX_Cn_RANGE_MAXR c) (s.sfld Fld.ORX_Cn_RANGE_MINR c)) rsCross
    let hi := s1.sfld Fld.ORX_Cn_HYST_HI_PCT c
    let s2 := s1.commitSet Fld.ORX_Cn_HYST_LO_PCT c (min (s1.sfld Fld.ORX_Cn_HYST_LO_PCT c) ((hi - 1) / 4)) rsCross
    s2.commitSet Fld.ORX_Cn_CMWIN_CM_HI c (max (s2.sfld Fld.ORX_Cn_CMWIN_CM_HI c) (s2.sfld Fld.ORX_Cn_CMWIN_CM_LO c + 1)) rsCross
  (s.each (List.range s.channels) one).each (List.range 16) (fun k s => s.checkSchedule k)

/-- The size of the tile region for one slot of a block, and of the record region (R29, R189). -/
def State.tileUnit (s : State) : Nat := 2 * s.lanes * 98304
def State.recSpace (s : State) : Nat := 2 * s.lanes * 0x40000

/-- TEMPBASE where the record region overlaps the tile region or lies beyond installed DRAM: above the tile region, else below it (R191). -/
def State.fitTemp (s : State) : State :=
  let t0 := s.sfld Fld.PHX_TILEBASE_BASE 0 * 2 ^ 20
  let t1 := t0 + s.tileUnit * s.sfld Fld.PHX_BLOCK_BLOCK 0
  let r0 := s.sfld Fld.PHX_TEMPBASE_BASE 0 * 2 ^ 20
  if r0 + s.recSpace ≤ s.dramEnd && (r0 + s.recSpace ≤ t0 || t1 ≤ r0) then s
  else
    let above := (t1 + 2 ^ 20 - 1) / 2 ^ 20
    s.commitSet Fld.PHX_TEMPBASE_BASE 0 (if above * 2 ^ 20 + s.recSpace ≤ s.dramEnd then above else (t0 - s.recSpace) / 2 ^ 20) rsCross

/-- A coil fits its lane's points, or has none (R192). -/
def State.fitCoil (s : State) (n : Nat) : State :=
  let room := s.lenN n - s.sfld Fld.PHX_GAUGE_G 0 - s.sfld Fld.PHX_Ln_COIL_FIRST n
  let c := min (s.sfld Fld.PHX_Ln_COIL_COUNT n) room
  s.commitSet Fld.PHX_Ln_COIL_COUNT n (if c < 8 then 0 else c) rsCross

/-- PHX: block and region places, kept while a lane emits, and the coils (R29, R191, R192). -/
def State.checkPhx (s old : State) : State :=
  let emits := old.fld Fld.LAN_STAT_EMITTING 0 ≠ 0
  let s1 := s.commitKeep Fld.PHX_BLOCK_BLOCK 0 emits
  let s2 := s1.commitSet Fld.PHX_BLOCK_BLOCK 0 (min (s1.sfld Fld.PHX_BLOCK_BLOCK 0) (s.dramEnd / s.tileUnit / 512 * 512)) rsCross
  let s3 := (s2.commitKeep Fld.PHX_TILEBASE_BASE 0 emits).fitBase Fld.PHX_TILEBASE_BASE (s.tileUnit * s2.sfld Fld.PHX_BLOCK_BLOCK 0)
  (s3.commitKeep Fld.PHX_TEMPBASE_BASE 0 emits).fitTemp.each (List.range s.lanes) (fun n s => s.fitCoil n)

/-- WCK: the capture region, and three probes where N is no multiple of 3,072 (R46, R264). -/
def State.checkWck (s : State) : State :=
  (s.fitBase Fld.WCK_CAPBASE_BASE (s.lanes * 2 ^ 26)).each (List.range s.lanes) (fun n s =>
    if s.sfld Fld.WCK_Ln_PROBES_P n = 3 && s.sfld Fld.WCK_Ln_FRAME_N n % 3072 ≠ 0 then s.commitSet Fld.WCK_Ln_PROBES_P n 2 rsCross else s)

/-- AUX: HI above LO (R299). -/
def State.checkAux (s : State) : State :=
  s.each (List.range 16) (fun c s => s.commitSet Fld.AUX_Cn_CMWIN_HI c (max (s.sfld Fld.AUX_Cn_CMWIN_HI c) (s.sfld Fld.AUX_Cn_CMWIN_LO c + 1)) rsCross)

/-- The mask registers in register order and their home bits (R305, R306). -/
def memMasks : List (Fld × Nat) :=
  [(Fld.MEM_XMAP_CH_MASK, 0), (Fld.MEM_XMAP_BG0_MASK, 1), (Fld.MEM_XMAP_BG1_MASK, 4), (Fld.MEM_XMAP_BA0_MASK, 2), (Fld.MEM_XMAP_BA1_MASK, 3)]

/-- A mask with its own home bit and none of the other fields' (R306). -/
def homeMask (homes : List Nat) (own m : Nat) : Nat := homes.foldl (fun m h => setBit m h (h = own)) m

/-- MEM: geometry and masks keep after READY; two ranks of ×8 16 Gb parts; the home bits. With ×16 parts bit 10 is a column bit and home of no field, so the
masks in use may hash it; the ignored BG1 mask is held to the rule like the others (R302, R304 to R306; DEDUCED 21). -/
def State.checkMem (s old : State) : State :=
  let ready := old.flag Fld.MEM_STAT_READY 0
  let s1 := ((s.commitKeep Fld.MEM_GEOM_WIDTH 0 ready).commitKeep Fld.MEM_GEOM_DENS 0 ready).commitKeep Fld.MEM_GEOM_RANKS 0 ready
  let s2 := if s1.sfld Fld.MEM_GEOM_WIDTH 0 = 0 && s1.sfld Fld.MEM_GEOM_DENS 0 = 1 then s1.commitSet Fld.MEM_GEOM_RANKS 0 0 rsCross else s1
  let x16 := decide (s2.sfld Fld.MEM_GEOM_WIDTH 0 = 1)
  memMasks.foldl (fun s m =>
    let s := s.commitKeep m.1 0 ready
    let homes := (memMasks.map (·.2)).filter (fun h => !(x16 && h = 4 && m.2 ≠ 4))
    s.commitSet m.1 0 (homeMask homes m.2 (s.sfld m.1 0)) rsCross) s2

/-! ### Queues (R330, R331, R342, R348, R353, R355) -/

/-- Frames of queue `q` await acknowledgement. -/
def State.unacked (s : State) (q : Nat) : Bool := (s.queue q).stream.frames.any (fun f => !f.acked)

/-- Queue `q` holds work that its consumer or its stream has not finished. -/
def State.queBusy (s : State) (q : Nat) : Bool := s.occupied q ≠ 0 || s.unacked q

/-- The staged ring of queue `q`. -/
def State.ring (s : State) (q : Nat) : Nat × Nat := (s.sfld Fld.QUE_Qq_BASE_BASE q, s.sfld Fld.QUE_Qq_BASE_BASE q + s.sfld Fld.QUE_Qq_SIZE_SIZE q)

/-- The staged ring of queue `q` has changed. -/
def State.ringMoved (s : State) (q : Nat) : Bool := s.sdiff Fld.QUE_Qq_BASE_BASE q || s.sdiff Fld.QUE_Qq_SIZE_SIZE q

/-- The staged ring of queue `q` lies beyond the slots or overlaps another. -/
def State.ringBad (s : State) (q : Nat) : Bool :=
  let r := s.ring q
  decide (32768 < r.2) || (List.range 64).any (fun k => k ≠ q && decide ((s.ring k).1 < r.2) && decide (r.1 < (s.ring k).2))

/-- BASE and SIZE of queue `q` keep their previous values, with one report (R330). -/
def State.ringKeep (s : State) (q reason : Nat) : State :=
  let f := if s.sdiff Fld.QUE_Qq_BASE_BASE q then Fld.QUE_Qq_BASE_BASE else Fld.QUE_Qq_SIZE_SIZE
  let g := Fld.QUE_Qq_SIZE_SIZE
  let s1 := s.setStaged (g.at q) (withBits g.hi g.lo (s.staged (g.at q)) (s.pfld g q))
  let s2 := s1.setStaged (Fld.QUE_Qq_BASE_BASE.at q) (s.pend (Fld.QUE_Qq_BASE_BASE.at q))
  s2.clamp .commit (f.at q) (s.staged (f.at q)) (s2.staged (f.at q)) reason f.lo f.hi

/-- The ring check of one queue. -/
def State.checkRing (s old : State) (q : Nat) : State :=
  if !s.ringMoved q then s
  else if old.occupied q ≠ 0 then s.ringKeep q rsState
  else if s.ringBad q then s.ringKeep q rsCross
  else s

/-- The quota check: at most SIZE, and a report where it is set at or below the occupancy (R348). -/
def State.checkQuota (s old : State) (q : Nat) : State :=
  let s1 := s.commitSet Fld.QUE_Qq_QUOTA_QUOTA q (min (s.sfld Fld.QUE_Qq_QUOTA_QUOTA q) (s.sfld Fld.QUE_Qq_SIZE_SIZE q)) rsCross
  if s1.sdiff Fld.QUE_Qq_QUOTA_QUOTA q && s1.sfld Fld.QUE_Qq_QUOTA_QUOTA q ≤ old.occupied q then
    let w := s1.staged (Fld.QUE_Qq_QUOTA_QUOTA.at q)
    (s1.clamp .commit (Fld.QUE_Qq_QUOTA_QUOTA.at q) w w rsQuota 0 10).setFlag Fld.QUE_Qq_STAT_OVERQUOTA q true
  else s1

/-- The ports that a stream can use (R355). -/
def portsUsed (streamPort : Nat) : List Nat := if streamPort < 2 then [streamPort] else [0, 1]

/-- The bytes of records that a frame of a stream can hold on every port it can use (R355). -/
def State.leastCap (s : State) : Nat :=
  (portsUsed (s.fld Fld.NET_CTRL_STREAMPORT 0)).foldl (fun m n => min m (frameCap (s.fld Fld.NET_Pn_MTU_MTU n) (s.flag Fld.NET_Pn_MODE_IPV6 n))) 65536

/-- CONS, RECSZ and STREAM of one queue (R331, R353, R355). -/
def State.checkCfg (s old : State) (q : Nat) : State :=
  let busy := old.queBusy q
  let net := decide (old.cons q = consNet)
  let s1 := s.commitKeep Fld.QUE_Qq_CFG_CONS q busy
  let s2 := s1.commitKeep Fld.QUE_Qq_CFG_RECSZ q (net && busy)
  let s3 := if s2.sfld Fld.QUE_Qq_CFG_CONS q = consNet then
      s2.commitSet Fld.QUE_Qq_CFG_RECSZ q (min (s2.sfld Fld.QUE_Qq_CFG_RECSZ q) (s2.leastCap / 16)) rsCross
    else s2
  s3.commitKeep Fld.QUE_Qq_CFG_STREAM q (net && busy)

/-- Rings of which one has kept its place are checked again until none overlaps. -/
def State.ringSettle (s old : State) : Nat → State
  | 0 => s
  | k + 1 =>
    match (List.range 64).find? (fun q => s.ringMoved q && s.ringBad q) with
    | some q => ((s.ringKeep q rsCross).checkQuota old q).ringSettle old k
    | none => s

/-- Queue `q` would hold the stream id of another NET-consumed queue. -/
def State.streamClash (s : State) (q : Nat) : Bool :=
  let net (k : Nat) : Bool := s.sfld Fld.QUE_Qq_CFG_CONS k = consNet
  net q && (List.range 64).any (fun k => k ≠ q && net k && s.sfld Fld.QUE_Qq_CFG_STREAM k = s.sfld Fld.QUE_Qq_CFG_STREAM q)

/-- STREAM and CONS of a clashing queue keep their previous values, with a record for each that changes. -/
def State.streamKeep (s : State) (q : Nat) : State :=
  (s.commitSet Fld.QUE_Qq_CFG_CONS q (s.pfld Fld.QUE_Qq_CFG_CONS q) rsCross).commitSet Fld.QUE_Qq_CFG_STREAM q (s.pfld Fld.QUE_Qq_CFG_STREAM q) rsCross

/-- While any clash remains, each queue in it that this commit changes keeps its previous stream (R353). -/
def State.streamSettleAll (s : State) : Nat → State
  | 0 => s
  | k + 1 =>
    let qs := (List.range 64).filter (fun q => s.streamClash q && (s.sdiff Fld.QUE_Qq_CFG_CONS q || s.sdiff Fld.QUE_Qq_CFG_STREAM q))
    if qs.isEmpty then s else (s.each qs (fun q s => s.streamKeep q)).streamSettleAll k

/-- QUE: the journal, then each queue, then what spans queues (R330, R331, R342, R348, R353). -/
def State.checkQue (s old : State) : State :=
  let s1 := (s.commitKeep Fld.QUE_JOURNAL_BASE_BASE 0 (old.flag Fld.QUE_CTRL_EN 0)).fitBase Fld.QUE_JOURNAL_BASE_BASE 0x401000
  let s2 := s1.each (List.range 64) (fun q s => ((s.checkRing old q).checkQuota old q).checkCfg old q)
  (s2.ringSettle old 64).streamSettleAll 64

/-- CRU: the context region, kept while a unit is busy (R379). -/
def State.checkCru (s old : State) : State :=
  (s.commitKeep Fld.CRU_CTXBASE_BASE 0 (old.cru.comp.isSome || old.cru.dec.isSome)).fitBase Fld.CRU_CTXBASE_BASE (512 * 33792)

/-- NET: a port that streams can use holds one record of every NET-consumed queue (R355). -/
def State.checkNet (s : State) : State :=
  let most := (List.range 64).foldl (fun m q => if s.cons q = consNet then max m (s.recSize q) else m) 0
  (portsUsed (s.sfld Fld.NET_CTRL_STREAMPORT 0)).foldl (fun s n =>
    s.commitSet Fld.NET_Pn_MTU_MTU n (max (s.sfld Fld.NET_Pn_MTU_MTU n) (most + 44 + (if s.sfld Fld.NET_Pn_MODE_IPV6 n = 1 then 40 else 20))) rsCross) s

/-- PWR: DIP above UV (R427). -/
def State.checkPwr (s : State) : State :=
  let uv := s.sfld Fld.PWR_UV_UV 0
  if s.sfld Fld.PWR_UV_DIP 0 ≤ uv then s.commitSet Fld.PWR_UV_DIP 0 (uv + 100) rsCross else s

/-- The checks of window `w`; the state checks among them judge `old`, the state before the commit write (R440). -/
def State.commitChecks (s old : State) (w : Nat) : State :=
  match w with
  | 1 => s.checkLan
  | 2 => s.checkOrx
  | 5 => s.checkPhx old
  | 6 => s.checkWck
  | 7 => s.fitBase Fld.ANV_CKBASE_BASE (2 * s.lanes * 0x600000)
  | 8 => s.checkAux
  | 9 => s.checkMem old
  | 10 => s.checkQue old
  | 11 => s.checkCru old
  | 12 => s.checkNet
  | 13 => s.checkPwr
  | 14 => s.fitBase Fld.TWN_PXBASE_BASE (2 * s.lanes * 0x300000)
  | _ => s

/-! ### Pending copies and boundaries (R435, R436) -/

/-- The staged copy of window `w` becomes its pending copy. -/
def State.toPending (s : State) (w : Nat) : State :=
  let here (e : Nat × Word) : Bool := e.1 / 0x10000 = w
  { s with regs := { s.regs with
      pending := s.regs.pending.filter (fun (e : Nat × Word) => e.1 / 0x10000 < w) ++ s.regs.staged.filter here
        ++ s.regs.pending.filter (fun (e : Nat × Word) => w < e.1 / 0x10000) } }

/-- The keys under which a register's committed fields are in force: each lane's or engine's own copy of a window-wide one (R213, R436). -/
def State.forceKeys (s : State) (w : Nat) (r : RegDef) (u : Nat) : List Nat :=
  let a := w * 0x10000 + r.off + r.stride * u
  if r.count = 1 && (w = 1 || w = 2 || w = 5 || w = 6) && a ≠ Fld.LAN_BLANK_BLANK.addr then (List.range s.lanes).map (fun n => laneKey n a)
  else if a = Fld.ANV_CKBASE_BASE.addr then (List.range s.lanes).map (fun e => engKey e a)
  else [a]

/-- The committed copy of window `w` differs from the values in force in a covered field (R448). -/
def State.forceDiffers (s : State) (w : Nat) : Bool :=
  (regsOf w).any (fun r =>
    let m := rwsMask r &&& coverMask (w * 0x10000 + r.off) r
    m ≠ 0 && (List.range r.count).any (fun u =>
      let a := w * 0x10000 + r.off + r.stride * u
      (s.forceKeys w r u).any (fun k => (s.pend a).toNat &&& m ≠ (s.live k).toNat &&& m)))

/-- Every register of window `w` takes its committed fields at once. -/
def State.applyWindow (s : State) (w : Nat) : State :=
  (regsOf w).foldl (fun s r =>
    let m := rwsMask r
    if m = 0 then s
    else s.each (List.range r.count) (fun u s =>
      let a := w * 0x10000 + r.off + r.stride * u
      let v := mergeBits m (s.live a) (s.pend a)
      if v = s.live a then s else s.takeLive a v)) s

/-- PEND is set and the named units have a copy to take. -/
def State.pendSet (s : State) (w : Nat) (units : List Nat) : State :=
  let s1 := { s with regs := { s.regs with wait := s.regs.wait.filter (fun (e : Nat × Nat) => e.1 ≠ w) ++ units.map (fun u => (w, u)) } }
  s1.setFld Fld.SYS_COMMIT_PEND 0 (setBit (s1.fld Fld.SYS_COMMIT_PEND 0) w true)

/-- An ORX commit: an index that it changes counts as issued now, and the schedule tables go with it when they have changed; `old` is the state before its copy was
made (R105, R107, R115). -/
def State.orxCommit (s old : State) : State :=
  let s1 := s.each (List.range s.channels) (fun c s =>
    let i := s.pfld Fld.ORX_Cn_RANGE_SCHED c
    if i = old.pfld Fld.ORX_Cn_RANGE_SCHED c then s else s.onOrx c (fun x => { x with selCom := some (i, s.dev) }))
  if s.orx.changed then
    ({ s1 with orx := { s1.orx with schedCom := s1.orx.schedStg, schedWait := List.range s.lanes, changed := false } }).setFlag Fld.ORX_STAT_SCHPEND 0 true
  else s1

/-- The tap counts that a DDC commit changes, as lane × 4 + probe; `old` is the state before its copy was made. -/
def State.tapsChanged (s old : State) : List Nat :=
  (List.range (4 * s.lanes)).filter (fun i => s.pfld (tapsFld (i % 4)) (i / 4) ≠ old.pfld (tapsFld (i % 4)) (i / 4))

/-- A DDC commit: every path has a copy to take, and changed spectra, taps and coefficients go to conversion (R159, R162). -/
def State.ddcCommit (s old : State) : State :=
  let g := s.ddc.gen + 1
  ({ s with ddc := { s.ddc with gen := g, commitGen := g, wait := List.range (4 * s.lanes) } }).startConversion (s.tapsChanged old)

/-- An ANV commit: unbound engines take it at once, and so do the tachometers while no lane has a grid (R213, R219). -/
def State.anvCommit (s : State) : State :=
  let s1 := (s.each ((List.range s.lanes).filter (fun e => (s.engine e).bound.isNone)) (fun e s => s.engTake e)).posAll
  if (List.range s.lanes).any (fun n => (s.phxOf n).grid.isSome) then s1 else s1.tachTake

/-- A QUE commit takes effect: ring indexes stay within the rings, quotas are judged, changed streams start again, and held reports find QUE enabled; `old` is the
state before (R330, R348, R349, R353). -/
def State.queCommit (s old : State) : State :=
  let one (q : Nat) (s : State) : State :=
    let size := s.fld Fld.QUE_Qq_SIZE_SIZE q
    let s1 := if size = old.fld Fld.QUE_Qq_SIZE_SIZE q then s
      else (s.setFld Fld.QUE_Qq_HEAD_HEAD q (s.fld Fld.QUE_Qq_HEAD_HEAD q % size)).setFld Fld.QUE_Qq_TAIL_TAIL q (s.fld Fld.QUE_Qq_TAIL_TAIL q % size)
    let s2 := if s1.occupied q < s1.fld Fld.QUE_Qq_QUOTA_QUOTA q then s1.setFlag Fld.QUE_Qq_STAT_OVERQUOTA q false else s1
    let moved := s2.fld Fld.QUE_Qq_CFG_RECSZ q ≠ old.fld Fld.QUE_Qq_CFG_RECSZ q || s2.fld Fld.QUE_Qq_CFG_STREAM q ≠ old.fld Fld.QUE_Qq_CFG_STREAM q
    if s2.cons q = consNet && old.cons q = consNet && moved then s2.restream q else s2
  let s1 := s.each (List.range 64) one
  if s1.flag Fld.QUE_CTRL_EN 0 then s1.retryReports.mailboxTake else s1

/-- A MEM commit takes effect: the address width and the refresh rate follow (R301, R317). -/
def State.memCommit (s : State) : State := (s.setFld Fld.MEM_GEOM_AWIDTH 0 (geomWidth (s.live Fld.MEM_GEOM_WIDTH.addr))).refreshRate

/-- What the commit of window `w` brings at the commit write; `old` is the state before its pending copy was made (R22, R435, R436). -/
def State.commitApply (s old : State) (w : Nat) : State :=
  let lanes := List.range s.lanes
  match w with
  | 1 => (s.pendSet 1 lanes).lanCommit
  | 2 => (s.pendSet 2 lanes).orxCommit old
  | 3 => (s.applyWindow 3).hscTake
  | 4 => (s.pendSet 4 [64]).ddcCommit old
  | 5 => s.pendSet 5 lanes
  | 6 => (s.pendSet 6 lanes).each lanes (fun n s => s.geoBegin n)
  | 7 => (s.pendSet 7 (lanes ++ [100])).anvCommit
  | 8 => let s0 := s.auxAdvance; (s0.applyWindow 8).auxCommit s0
  | 9 => (s.applyWindow 9).memCommit
  | 10 => (s.applyWindow 10).queCommit s
  | 12 => (s.applyWindow 12).netCommit s
  | 13 => (s.applyWindow 13).pwrCommit
  | _ => s.applyWindow w

/-- Window `w` is committed: checks, pending copy, the CRC hold, and the boundary where it is the commit write (R435, R440, R448); `old` is the state before the
commit write. -/
def State.commitWindow (s old : State) (w : Nat) : State :=
  let s1 := s.commitChecks old w
  let s2 := (s1.toPending w).setFld Fld.SYS_DIRTY_DIRTY 0 (setBit (s1.fld Fld.SYS_DIRTY_DIRTY 0) w false)
  let covered := w ≠ 15
  let s3 := if covered && s2.forceDiffers w then s2.beginHold else s2
  s3.commitApply s1 w

/-! ### The mirror of a commit (R418, R420) -/

/-- A paged table as writes: the page register, then every word. -/
def pagedWords (page : Nat) (n : Nat) (word : Nat → Nat × Nat) (len : Nat) : List (Nat × Nat) := (page, n) :: (List.range len).map word

/-- The tables and memories of window `w` as writes (R420). -/
def State.configTables (s : State) (w : Nat) : List (Nat × Nat) :=
  let lanes := List.range s.lanes
  match w with
  | 1 => lanes.flatMap (fun n => pagedWords 0x10014 n (fun k => (0x18000 + 4 * k, (s.legacyChirp n (2 * k)).toNat)) 8192) ++ [(0x10014, s.fld Fld.LAN_TBLPAGE_LANE 0)]
  | 2 => (List.range 1024).map (fun k => (0x28000 + 4 * k, (sget (0 : Word) s.orx.schedCom k).toNat))
  | 4 =>
    lanes.flatMap (fun n => pagedWords 0x4000C n (fun k => (0x48000 + 4 * k, (sget (0 : Word) s.ddc.specCom (2048 * n + k)).toNat)) 2048)
      ++ [(0x4000C, s.fld Fld.DDC_TBLPAGE_LANE 0)]
      ++ ((List.range 0x1A0).filter (fun k => customRange (0xC000 + 4 * k))).map (fun k => (0x4C000 + 4 * k, (sget (0 : Word) s.ddc.coefCom (0x3000 + k)).toNat))
  | 6 => lanes.flatMap (fun n => (List.range 1024).map (fun k => (0x68000 + 0x1000 * n + 4 * k, (sget (0 : Word) (s.wick n).prog k).toNat)))
  | 7 => lanes.flatMap (fun e => (List.range 16384).map (fun k => (0x1000000 + 0x100000 * e + 4 * k, (sget (0 : Word) (s.engine e).imem k).toNat)))
  | 8 => (List.range 32).map (fun k => (0x89000 + 4 * k, (sget (0 : Word) s.aux.seq k).toNat))
  | _ => []

/-- What the holder's configuration of a register is: committed staged fields, and the unstaged ones in force. -/
def State.configWord (s : State) (r : RegDef) (a : Nat) : Word :=
  r.fields.foldl (fun w fd =>
    match fd.acc with
    | .rws => withBits fd.hi fd.lo w (bitsOf fd.hi fd.lo (s.pend a))
    | .rw | .rwg => withBits fd.hi fd.lo w (bitsOf fd.hi fd.lo (s.regView a))
    | _ => w) 0

/-- A register that a CONFIG frame carries: it has a configuration field, and is no program counter or page selection. -/
def inConfig (a : Nat) (r : RegDef) : Bool :=
  mirrored a && r.fields.any (fun fd => fd.acc = .rw || fd.acc = .rwg || fd.acc = .rws) && a ≠ 0x10014 && a ≠ 0x4000C && !isWickPc a
    && !(decide (0x74000 ≤ a) && decide (a < 0x76000) && a % 0x400 = 4)

/-- The tables and memories of window `w` as writes, then its registers from the highest address down, so that programs are whole before RUN reaches them. -/
def State.configWords (s : State) (w : Nat) : List (Nat × Nat) :=
  let regs := (regsOf w).flatMap (fun r =>
    ((List.range r.count).map (fun u => w * 0x10000 + r.off + r.stride * u)).filterMap (fun a => if inConfig a r then some (a, (s.configWord r a).toNat) else none))
  s.configTables w ++ (regs.insertionSort (fun x y => y.1 ≤ x.1))

/-- The holder sends windows to its standby in CONFIG frames of at most 4,096 bytes (R418, R420). -/
def State.sendConfig (s : State) (ws : List Nat) : State :=
  let ps := (ws.filter (fun w => !([13, 14, 15].contains w))).flatMap s.configWords
  if s.role = 1 && (s.twn.lane0 || s.twn.lane1) then
    (segments 4096 (ps.length + 1) 0 (ps.flatMap (fun p => leBytes 4 p.1 ++ leBytes 4 p.2))).foldl (fun s x => s.belSend 4 x.2) s
  else s

/-! ### The commit write (R41, R435, R448) -/

/-- Commits are frozen: a mismatch was declared with ACTION 0b01 and has not cleared; a later write of ACTION changes nothing of that (R448). -/
def State.frozen (s : State) : Bool := s.sys.declared && s.sys.froze

/-- Windows committed together; lanes that can have no launch boundary take their copies (R436). -/
def State.commitAll (s : State) (ws : List Nat) : State :=
  let s1 := s.each ws (fun w r => r.commitWindow s w)
  (s1.each (List.range s1.lanes) (fun n s => s.settleLane n)).sendConfig ws

/-- The windows that a commit mask names: bit 0 commits nothing (R435). -/
def commitWins (mask : Nat) : List Nat := (List.range 16).filter (fun w => w ≠ 0 && bit mask w)

/-- A commit with the staged writes that another source makes on the same edge left out: they land in the staged copy after it, and wait for the next commit; of several
to one register the first saw what the commit takes (R437, R479). -/
def State.commitMeets (s : State) (src : Source) (ws : List Nat) (f : State → State) : State :=
  let late := s.edgeNow.wrote.filter (fun w => w.src ≠ src && ws.contains (w.addr / 0x10000) && w.staged ≠ s.staged w.addr)
  let s1 := f (late.foldl (fun s w => s.setStaged w.addr w.staged) s)
  late.foldl (fun r w => (r.setStaged w.addr (s.staged w.addr)).markDirty (w.addr / 0x10000)) s1

/-- A write of SYS_COMMIT (R435, R448). -/
def State.commitWrite (s : State) (src : Source) (val : Word) : State :=
  let mask := bitsOf 15 0 val
  if mask = 0 then s
  else
    let s1 := { s with sys := { s.sys with committed := true } }.count Fld.SYS_COMMIT_CNT 0 1
    if s.frozen then (commitWins mask).foldl (fun s w => s.clamp src 8 val (s.live 8) rsFrozen w w) s1
    else s1.commitMeets src (commitWins mask) (fun s => s.commitAll (commitWins mask))

/-! ### Legacy mode (R40, R41, R452, R454) -/

/-- A register holds a value in every copy. -/
def State.forceAll (s : State) (f : Fld) (u v : Nat) : State :=
  let a := f.at u
  let put (w : Word) : Word := withBits f.hi f.lo w v
  let s1 := ((s.setStaged a (put (s.staged a))).setPend a (put (s.pend a))).setLive a (put (s.live a))
  if f.stride = 0 then s1.each (List.range s.lanes) (fun n s => s.setLive (laneKey n a) (put (s.live (laneKey n a)))) else s1

/-- Lanes that legacy mode does not have are off: their emission ends and their sequencers stop (R40). -/
def State.legacyLanesOnly (s : State) : State :=
  s.each ((List.range s.lanes).filter (fun n => s.legacyLanes ≤ n)) (fun n s =>
    (s.only ((s.laneOf n).st ≠ .off) (fun s => s.disableLane n)).only (s.wickOn n) (fun s => s.wickStop n))

/-- The values that legacy mode fixes, or their reset values when it ends before the first commit (R41, R452). -/
def State.legacyFix (s : State) (on : Bool) : State :=
  let s1 := s.each (List.range s.lanes) (fun n s => s.forceAll Fld.WCK_Ln_PROBES_P n (if on then 1 else 4))
  let s2 := s1.forceAll Fld.PHX_GAUGE_G 0 2
  let s3 := s2.forceAll Fld.CRU_CTRL_EN 0 (b2n (!on))
  (if on then (s3.setFlag Fld.TWN_CTRL_EN 0 false).legacyLanesOnly else s3).setFlag Fld.SYS_CTRL_LEGACY 0 on

/-- The chirp table of probe 0 of lane `n` as the next commit will name it, in order of its entries. -/
def State.chirpList (s : State) (n : Nat) : List Nat := (List.range 4096).map (fun k => (sget (0 : BitVec 12) (s.laneOf n).chirpStg k).toNat)

/-- A part of a derived bin scaled so that the square `m` of the largest magnitude becomes that of 0x7FFF; the rounding of part `j` is free (DESIGN CHOICE 13) (R454). -/
def scaledPart (m : Nat) (j : Nat) (x : Int) : Int :=
  let y := x.natAbs * x.natAbs * 0x7FFF * 0x7FFF
  let q := if m = 0 then 0 else Nat.sqrt (y / m)
  let r := if q * q * m = y then q else min 0x7FFF (q + Config.legacyRound j % 2)
  if x < 0 then -(r : Int) else r

/-- Hearth derives the matched filter of lane `n`: its spectrum, zero beyond ±37.5 MHz and scaled so that the largest magnitude is 0x7FFF, and HT0 (R454). -/
def State.legacyFilter (s : State) (n : Nat) : State :=
  let len := s.pfld (clenFld 0) n
  let tbl := s.chirpList n
  let nco := (s.live (Fld.DDC_Cn_NCO0_WORD.at (2 * n))).toNat
  let inBand (k : Nat) : Bool := k ≤ 196 || 316 ≤ k
  let raw (k : Nat) : Int × Int := Config.legacyBin tbl nco len k
  let top := (List.range 512).foldl (fun m k => if inBand k then max m ((raw k).1.natAbs ^ 2 + (raw k).2.natAbs ^ 2) else m) 0
  let part (j : Nat) (x : Int) : Nat := wrapInt 16 (scaledPart top (s.free + j) x)
  let bin (k : Nat) : Word := if inBand k then BitVec.ofNat 32 (part (2 * k) (raw k).1 + 65536 * part (2 * k + 1) (raw k).2) else 0
  let put (m : List (Nat × Word)) (k : Nat) : List (Nat × Word) := sput 0 m (n * 2048 + k) (bin k)
  let taps := max 8 (min 128 ((len + 31) / 32))
  let i := 4 * n
  let changed := if s.ddc.specChanged.contains i then s.ddc.specChanged else s.ddc.specChanged ++ [i]
  let s1 := { s with free := s.free + 1024, ddc := { s.ddc with specStg := (List.range 512).foldl put s.ddc.specStg, specChanged := changed } }
  let a := Fld.DDC_MFTAPSn_HT0.at n
  (s1.setStaged a (withBits 7 0 (s1.staged a) taps)).setPend a (withBits 7 0 (s1.pend a) taps)

/-- A legacy commit names LAN, ORX, PHX and WCK together; Hearth derives the filters of presented lanes whose chirp table or length it changes, and of every presented
lane at the first one that is not refused (R452, R454). -/
def State.legacyCommit (s : State) (src : Source) (val : Word) : State :=
  let _ := val
  let s1 := { s with sys := { s.sys with committed := true } }.count Fld.SYS_COMMIT_CNT 0 1
  if s.frozen then [1, 2, 5, 6].foldl (fun s w => s.clamp src 8 val (s.live 8) rsFrozen w w) s1
  else
    let lanes := (List.range s.legacyLanes).filter (fun n =>
      !s.sys.derived || bit (s.laneOf n).tblChanged 0 || s.sfld (clenFld 0) n ≠ s.pfld (clenFld 0) n)
    let s2 := { s1 with sys := { s1.sys with derived := true } }.commitMeets src [1, 2, 5, 6] (fun s => s.commitAll [1, 2, 5, 6])
    if lanes.isEmpty then s2 else (s2.each lanes (fun n s => s.legacyFilter n)).startConversion []

/-! ### STATUS on the holder (R418, R420, R421, R426) -/

/-- A standby that is not SYNCED has its copies sent, once: the full configuration, then every journal image and state record (R420). -/
def State.sendCopies (s : State) (synced : Bool) : State :=
  if s.role ≠ 1 then s
  else if synced then s.onTwn (fun x => { x with copied := false })
  else if s.twn.copied then s
  else
    let s1 := (s.onTwn (fun x => { x with copied := true })).sendConfig (List.range 16)
    s1.each (List.range 64) (fun q s => s.mirrorQueue q)

/-- STATUS received: epoch, SYNCED, ELIGIBLE and each lane's newest complete checkpoint (R418). -/
def execStatus (t : Nat) (epoch : Nat) (synced eligible : Bool) (blocks : List Nat) (s : State) : Out :=
  clocked t s (fun s => s.only (s.flag Fld.TWN_CTRL_EN 0) (fun s => (s.status epoch (synced && eligible) blocks).sendCopies synced))

end Sys2Proof.Machine
end

