-- ==== Sys2Proof/Machine/Pins.lean ====
section
/-!
DEFINITION. The output pins and the levels they hold: at reset, before lock, in hibernate and in operation, and the boundary register that captures them
(spec 20_electrical_and_package R490, R497; R92, R386, R395, R399, R409, R416, R419).
Points that the spec leaves open or that are read from it by inference: DEDUCED 44 of the assumption log.
-/

namespace Sys2Proof.Machine

/-- The digital output pins (R490). -/
inductive Pin where
  /-- LAN_GH and LAN_GL of string A or B of a lane. -/
  | gateHigh (n : Nat) (b : Bool)
  | gateLow (n : Nat) (b : Bool)
  | steer (n : Nat)
  | quenchN
  | osw
  | leaseOut
  | ppsOut
  | spiMiso
  | qspiCsN
  | qspiSck
  | feedGate (b : Bool)
  | pwrEn
deriving DecidableEq, Repr

/-- The level of a driven pin. -/
def levelOf (on : Bool) : Level := if on then .high else .low

/-- A pin of the always-on domain, which keeps driving without the other rails (R490). -/
def Pin.alwaysOn : Pin → Bool
  | .feedGate _ | .pwrEn => true
  | _ => false

/-- Reset or an unlocked PLL holds the pins of the clocked part (R490). -/
def State.pinsHeld (s : State) : Bool := decide (s.sys.power = .cold) || decide (s.sys.power = .pll) || decide (s.sys.power = .clkFail)

/-- The flash port reads an image: BOOT_SRC names flash and the image is under way (R395, R463). -/
def State.flashReads (s : State) : Bool := decide (s.fld Fld.SYS_BOOTSTAGE_STAGE 0 = 2) && !s.boot.reads.isEmpty

/-- The level that the device's own logic gives a pin; none where it switches from moment to moment (R490). -/
def State.ownLevel (s : State) : Pin → Option Level
  | .gateHigh n _ | .gateLow n _ => if s.gatesLow n then some .low else none
  | .steer n => some (levelOf (s.steers n))
  | .quenchN => some (if s.quenchN then .highZ else .low)
  | .osw => some (levelOf (s.twn.osw && !s.pinsHeld))
  | .leaseOut => some (levelOf (s.leaseOutHigh && !s.pinsHeld))
  | .ppsOut => some (levelOf (s.net.ppsOut.isSome && !s.pinsHeld))
  | .spiMiso => some .highZ
  | .qspiCsN => if s.flashReads && !s.pinsHeld then none else some .high
  | .qspiSck => if s.flashReads && !s.pinsHeld then none else some .low
  | .feedGate b => some (levelOf (s.feed b).gate)
  | .pwrEn => some (levelOf s.pwr.pwrEn)

/-- The pins that the boundary register drives, in its order; the probe DACs and the receiver, SerDes, DDR4, AUX and clock pins are excluded (R399). -/
def State.boundaryPins (s : State) : List Pin :=
  (List.range s.lanes).flatMap (fun n => [.gateHigh n false, .gateLow n false, .gateHigh n true, .gateLow n true, .steer n])
    ++ [.quenchN, .osw, .leaseOut, .ppsOut, .spiMiso, .qspiCsN, .qspiSck, .feedGate false, .feedGate true, .pwrEn]

/-- What SAMPLE captures (R399). -/
def State.boundaryNow (s : State) : List (Option Level) := s.boundaryPins.map s.ownLevel

/-- The launch outputs and QUENCH_N, which no content of the boundary register drives (R399). -/
def Pin.launch : Pin → Bool
  | .gateHigh _ _ | .gateLow _ _ | .steer _ | .quenchN => true
  | _ => false

/-- The level at an output pin: high-impedance without its supply, what the test port drives under EXTEST, CLAMP and HIGHZ with the launch outputs safe, and what the
device's own logic gives otherwise (R399, R490). -/
def State.pin (s : State) (p : Pin) : Option Level :=
  if s.unpowered && !p.alwaysOn then some .highZ
  else if p.launch || !s.tapSafe then s.ownLevel p
  else if s.sys.tap = .highz then some .highZ
  else (s.boundaryPins.zip s.sys.boundary).find? (fun x => x.1 = p) |>.bind (·.2)

end Sys2Proof.Machine
end

