-- ==== Sys2Proof/Machine/Reset.lean ====
section
/-!
DEFINITION. Resets, power, hibernate, the watchdog and the supervisor's restarts (spec 18_bring_up_and_calibration R459 to R473; R24, R25, R37, R38, R91, R92, R126,
R267, R296, R326, R344, R399, R400, R404, R409, R455).
Points that the spec leaves open or that are read from it by inference: DESIGN CHOICE 43, 45, 52, 54; DEDUCED 44 of the assumption log.
-/

namespace Sys2Proof.Machine

/-- The supervisor shows a boot stage (R463). -/
def State.stage (s : State) (k : Nat) : State := s.setFld Fld.SYS_BOOTSTAGE_STAGE 0 k

/-- Every injection ends and the TST registers return to reset (R451, R455). -/
def State.tstReset (s : State) : State :=
  { s with regs := { s.regs with live := s.regs.live.filter (fun (e : Nat × Word) => e.1 / 0x10000 ≠ 15) }, sys := { s.sys with eccArm := none } }

/-! ### Cold reset (R21, R460, R466, R467) -/

/-- PWR_CTRL and PWR_UV.UV keep their values through every reset but that of VAON: the always-on domain holds them (R472, R483). -/
def State.pwrKept (s : State) : State :=
  let w := withBits 15 0 (s.live Fld.PWR_UV_UV.addr) s.pwr.uv
  ((s.setFld Fld.PWR_CTRL_PREF 0 (b2n s.pwr.pref)).setLive Fld.PWR_UV_UV.addr w).setStaged Fld.PWR_UV_UV.addr w

/-- A cold reset with its cause: everything but the always-on domain, fuses and pins is at reset (R467). -/
def State.coldReset (s : State) (cause : Nat) : State :=
  let r := State.reset
  let s1 := { r with
    now := s.now, pending := s.pending, fixed := s.fixed, pwr := s.pwr, free := s.free, tx := s.tx, ptp := ⟨0, s.now, 0⟩
    sys := { r.sys with powerAt := s.now, timeBase := s.now, intlkOk := s.sys.intlkOk, tap := s.sys.tap, boundary := s.sys.boundary, railsAt := s.sys.railsAt } }
  (((s1.pwrKept.setFld Fld.SYS_RSTCAUSE_CAUSE 0 cause).setFlag Fld.SYS_RSTCAUSE_CLKFAIL 0 (s.sys.power = .clkFail)).setFlag Fld.LAN_STAT_INTLK_OPEN 0 (!s.sys.intlkOk)).pwrShow

/-- The rails are up or coming up, so that a reset of the clocked part can take place. -/
def State.powered (s : State) : Bool := s.sys.power ≠ .off && s.sys.power ≠ .hib && s.sys.power ≠ .feedWait

/-- COLD_RESET: RESET_N is low, for longer than the glitches that its filter takes out; between those and the pulse of 1 µs that the board must give, the reset happens
(DESIGN CHOICE 45) (R466, R497). -/
def execColdReset (low : ResetLow) (s : State) : Out := always low.t s (fun s => s.only (s.powered && decide (100 ≤ low.ns)) (fun s => s.coldReset 2))

/-- The nominal voltage of a detected rail in microvolts, and its tolerance in percent (R485). -/
def railNominal : Rail → Nat × Nat
  | .vcore => (750000, 3)
  | .vdda09 => (900000, 2)
  | .vddq => (1200000, 3)
  | .vio33 => (3300000, 5)

/-- A voltage lies outside the tolerance of its rail (R485). -/
def railOutside (r : RailLevel) : Bool :=
  let n := railNominal r.rail
  decide (100 * r.uv < (100 - n.2) * n.1) || decide ((100 + n.2) * n.1 < 100 * r.uv)

/-- RAIL_OUT_OF_TOLERANCE: a rail has stood outside its tolerance for so long and is back within it; more than 10 µs is a cold reset, and the detectors' hold of 1 ms begins
anew (R460, R485). -/
def execRailOutOfTolerance (t : Nat) (rail : RailLevel) (ns : Nat) (s : State) : Out :=
  always t s (fun s => s.only (s.powered && railOutside rail) (fun s =>
    let s1 := { s with sys := { s.sys with railsAt := s.now } }
    s1.only (decide (10000 < ns)) (fun s => s.coldReset 2)))

/-- The detectors release the device: every rail has been within tolerance for 1 ms (R460). -/
def State.railsGood (s : State) : Bool := decide (s.sys.railsAt + 781250 ≤ s.now)

/-! ### Straps and PLL (R24, R41, R92, R395, R462) -/

/-- The BOOT_SRC straps (R395). -/
def State.bootSrc (s : State) : Nat := s.sys.straps / 8 % 4

/-- RESET_RELEASE: RESET_N rises, or the detector hold ends: the straps are sampled and the PLL starts (R462, R463). -/
def execResetRelease (t : Nat) (straps : Nat) (s : State) : Out :=
  always t s (fun s =>
    s.only (s.sys.power = .cold && s.railsGood) (fun s =>
      let s1 := { s with sys := { s.sys with power := .pll, powerAt := s.now, straps := straps % 32 } }
      let s2 := ((s1.setFld Fld.SYS_STRAPS_STRAPS 0 straps).setFlag Fld.LAN_STAT_SAFE_ALL 0 (bit straps 1)).setFlag Fld.SYS_STAT_STRAPWARN 0 (s1.bootSrc = 3)
      (if bit straps 0 then s2.legacyFix true else s2).stage 1))

/-- The image is read from the start, the primary first: the flash port streams it, or with BOOT_SRC = 0b10 the host is asked for its first chunk (R395, R398, R464,
R468). -/
def State.verifyStart (s : State) : State :=
  let reads := if s.bootSrc = 2 then [] else [(0x6C, 0), (0x03, 0)]
  let s1 := ({ s with boot := ⟨[], [], [], [], false, false, [], 0, reads⟩ }.setFlag Fld.SYS_BOOTSTAGE_SECONDARY 0 false).stage 2
  if s.bootSrc = 2 then (s1.setFld Fld.NET_BOOTREQ_OFFSET 0 0).setFlag Fld.NET_STAT_BOOTWAIT 0 true else s1

/-- PLL_LOCK: the divided clocks start, device time counts from zero and QUENCH_N is released (R24, R26, R92). -/
def execPllLock (t : Nat) (s : State) : Out :=
  always t s (fun s =>
    s.only (s.sys.power = .pll) (fun s =>
      let s1 := { s with
        sys := { s.sys with power := .run, powerAt := s.now, lockAt := s.now, timeBase := s.now, quenchPin := false }
        ptp := ⟨0, s.now, 0⟩
        pwr := { s.pwr with renewedAt := s.now } }
      let s2 := s1.verifyStart
      if s2.sys.intlkOk then s2 else s2.quenchTrip [(qIntlk, none)]))

/-! ### Clock failure (R25) -/

/-- REFCLK has departed or lock is lost: Quench with the watchdog cause, then the divided clocks are held. No decay check follows, and only the holder's feed gate stays
high (R25). -/
def State.clockFail (s : State) : State :=
  let s1 := ((s.quenchTrip [(qWdog, none)]).setFlag Fld.SYS_STAT_CLKFAIL 0 true).each (List.range 8) (fun n s => s.onLane n (fun l => { l with decayAt := none }))
  let s2 := { s1 with sys := { s1.sys with power := .clkFail, powerAt := s1.now }, net := { s1.net with ppsOut := none } }
  match s2.pwr.holder with
  | some b => s2.gateOff (!b)
  | none => s2

/-- CLOCK_MONITOR_CHECK: the departure of REFCLK in ppm and the PLL's lock (R24, R25). -/
def execClockMonitorCheck (t : Nat) (ppm : Int) (lossOfLock : Bool) (s : State) : Out :=
  ticking t s (fun s => s.only (decide (1000 < ppm) || decide (ppm < -1000) || lossOfLock) State.clockFail)

/-! ### Warm and watchdog resets (R466 to R469) -/

/-- AUX at a warm reset: conversions are discarded and requests dropped, calibration results kept (R296). -/
def State.auxWarm (s : State) : State :=
  let s1 := s.auxAdvance.auxOff.onAux (fun x => { x with pend := [], calWait := false, calCodes := [], seqOn := false, aborts := 0 })
  ((s1.setFlag Fld.AUX_STAT_CALBUSY 0 false).setFlag Fld.AUX_STAT_REFWAIT 0 false).setFld Fld.AUX_CAL_STAT_STATE 0 0

/-- A sequencer at a warm reset: it stops with its program kept and no loop open. As at any stop, releases already fixed are still released, and a tone window or a capture
already started runs to its end (R77, R265, R267). -/
def State.wickWarm (s : State) (n : Nat) : State :=
  (((s.wickStop n).setFld Fld.WCK_Ln_STAT_ERR n 0).setFld Fld.WCK_Ln_STAT_DEPTH n 0).onWick n (fun w => { w with loops := [] })

/-- An engine at a warm reset: HALTED with registers and DMA cleared; memories, binding and position stay (R467). -/
def State.engWarm (s : State) (e : Nat) : State :=
  s.onEngine e (fun x => { Engine.reset e with imem := x.imem, dmem := x.dmem, bound := x.bound, cken := x.cken, posSlot := x.posSlot, posBlk := x.posBlk })

/-- A warm (4) or watchdog (5) reset begins: the reset domain is held (R467, R468). -/
def State.warmBegin (s : State) (cause : Nat) : State :=
  let lanes := List.range s.lanes
  let s1 := ((s.setFld Fld.SYS_RSTCAUSE_CAUSE 0 cause).setFlag Fld.SYS_RSTCAUSE_CLKFAIL 0 false).count Fld.SYS_WARM_CNT 0 1
  let s2 := (if cause = 5 then s1.count Fld.SYS_WDOG_CNT 0 1 else s1).tstReset
  let s3 := if s2.flag Fld.SYS_CTRL_EXPERT_EN 0 then (s2.setFlag Fld.SYS_CTRL_EXPERT_EN 0 false).coverChanged else s2
  let s4 := ((s3.each lanes (fun n s => s.wickWarm n)).each lanes (fun n s => s.phxRestart n)).each lanes (fun e s => s.engWarm e)
  let s5 := { s4.auxWarm with cru := { State.reset.cru with kept := s4.cru.kept } }
  let s6 := ((((s5.setFlag Fld.CRU_STAT_CBUSY 0 false).setFlag Fld.CRU_STAT_DBUSY 0 false).setFld Fld.CRU_STAT_CQ 0 0).setFld Fld.CRU_STAT_DQ 0 0).setFlag
    Fld.CRU_STAT_WAITSTREAM 0 false
  let s7 := (s6.each lanes (fun n s => s.settleLane n)).setFlag Fld.QUE_STAT_RECOVERING 0 true
  { s7 with sys := { s7.sys with power := .hold, powerAt := s7.now, hearth := false, wdog := none, guards := [], held := [] } }

/-- Submissions in progress at the reset: up to which of them the record that counts them had been written is free (R344). -/
def State.cutSubmit (s : State) (q : Nat) : State :=
  let fs := (s.queue q).inflight
  if fs.isEmpty then s
  else
    let s1 := s.drawn.onQueue q (fun x => { x with inflight := fs.take (s.freeVal (fs.length + 1)) })
    s1.portWrite 6 true (s.recordAddr q) (s1.stateRecord q)

/-- The queues after a warm reset: rebuilt from the journal, streams restarting with SYNC; a standby keeps its mirrored journal for a takeover
(R344, R347, R360). -/
def State.queWarm (s : State) : State :=
  let s1 := if s.role = 2 then s.each (List.range 64) (fun q s => s.onQueue q (fun x => { x with inflight := [] }))
    else (s.each (List.range 64) (fun q s => s.cutSubmit q)).rebuildQueues [] false
  s1.each (List.range 64) (fun q s => (s.setFlag Fld.QUE_Qq_STAT_SUBBUSY q false).only (s.cons q = consNet) (fun s => s.restream q))

/-- A deferred duty runs: 1 a rotation of a channel, 2 an AUX calibration, 3 a trim sweep, 4 a retraining, whose slots then follow (R36, R474). -/
def State.runDuty (s : State) (d : Nat × Nat) : State :=
  match d.1 with
  | 1 => s.rotationDue d.2
  | 2 => s.calCommand 2
  | 3 => s.sweepStart (s.fld Fld.SYS_TEMP_T1 0)
  | _ => s.only (s.flag Fld.SYS_CTRL_RUN 0) (fun s => s.setFlag Fld.MEM_STAT_RETRAIN 0 true)

/-- Duties run in the order in which they fell due (R36). -/
def State.runDuties (s : State) (ds : List (Nat × Nat)) : State := ds.foldl State.runDuty s

/-- Hearth takes up the duties that waited for it: a role change, the mailbox, and the calibrations that fell due meanwhile (R36, R340, R474). -/
def State.hearthServes (s : State) : State :=
  let s1 := { s with sys := { s.sys with hearth := true, deferred := [] } }.only (!s.flag Fld.TWN_CTRL_EN 0 && decide (s.role ≠ 0)) State.twinOff
  s1.mailboxTake.runDuties s.sys.deferred

/-- Hearth runs from its SRAM image: READY or RUN, the watchdog armed with RUN, and its duties (R36, R38, R468). -/
def State.hearthUp (s : State) : State :=
  let run := s.flag Fld.SYS_CTRL_RUN 0
  { s with sys := { s.sys with wdog := if run then some s.now else none } }.stage (if run then 6 else 5) |>.hearthServes

/-- The hold of a warm reset ends: queues are rebuilt and the submissions that waited are made, the AUX sequence starts again, a twin holder listens as fenced, and Hearth restarts (R296, R344, R425, R468, R469). -/
def State.warmEnd (s : State) (imageOk : Bool) : State :=
  let s1 := { s with sys := { s.sys with power := .run, powerAt := s.now } }.queWarm.setFlag Fld.QUE_STAT_RECOVERING 0 false |>.resubmit
  let s2 := if s1.flag Fld.AUX_SEQ_RUN 0 then s1.seqStart else s1
  let s3 := if s2.role = 1 then s2.fence else s2
  if imageOk && s3.boot.loaded then s3.retryReports.hearthUp else s3.verifyStart

/-- WARM_RESET_HOLD_END: 1,024 PCLK have passed; `imageOk` is Hearth's check of its SRAM image (R468). -/
def execWarmResetHoldEnd (t : Nat) (imageOk : Bool) (s : State) : Out :=
  always t s (fun s => s.only (s.sys.power = .hold && decide (s.sys.powerAt + 1024 * pclk ≤ s.now)) (fun s => s.warmEnd imageOk))

/-! ### Watchdog and supervisor (R36 to R38) -/

/-- WATCHDOG_REFRESH (R38). -/
def execWatchdogRefresh (t : Nat) (s : State) : Out :=
  clocked t s (fun s => s.only (s.sys.hearth && s.sys.wdog.isSome) (fun s => { s with sys := { s.sys with wdog := some s.now } }))

/-- WATCHDOG_EXPIRY: Quench with the watchdog cause, then the reset (R38, R466). -/
def execWatchdogExpiry (t : Nat) (s : State) : Out :=
  clocked t s (fun s =>
    match s.sys.wdog with
    | some t0 => s.only (decide (t0 + wdogTicks ≤ s.now)) (fun s => (s.quenchTrip [(qWdog, none)]).warmBegin 5)
    | none => s)

/-- LOCKSTEP_MISMATCH: the supervisor domain resets; the rest of the device keeps running. The restart is counted and posted (R37). -/
def execLockstepMismatch (t : Nat) (s : State) : Out :=
  clocked t s (fun s => s.only s.sys.hearth (fun s =>
    let n := s.sys.hearthRestarts + 1
    let s1 := { s with sys := { s.sys with hearth := false, hearthRestarts := n } }.setFld Fld.SYS_RSTCAUSE_CAUSE 0 6
    (s1.setFlag Fld.SYS_RSTCAUSE_CLKFAIL 0 false).faultAt 0 0xFF 0x210 0 3))

/-- HEARTH_RESTART_DONE: a RUN that was set at READY meanwhile starts the periodic duties now (R36, R37, R463). -/
def execHearthRestartDone (t : Nat) (s : State) : Out :=
  clocked t s (fun s =>
    let st := s.fld Fld.SYS_BOOTSTAGE_STAGE 0
    s.only (!s.sys.hearth && decide (3 ≤ st) && decide (st < 15)) (fun s =>
      if st = 5 && s.flag Fld.SYS_CTRL_RUN 0 then s.hearthUp else s.hearthServes))

/-! ### Hibernate and VAON (R409, R459, R470 to R472) -/

/-- The clocked part loses power: what is left is the always-on domain (R470, R472). -/
def State.powerLost (s : State) (p : Power) (cause : Nat) : State :=
  let s1 := s.coldReset cause
  { s1 with sys := { s1.sys with power := p, tap := .idcode, boundary := [] } }

/-- Hibernate applies: every lane is OFF or QUENCHED and the unit is no twin holder (R470). -/
def State.mayHibernate (s : State) : Bool :=
  s.role ≠ 1 && (List.range s.lanes).all (fun n => (s.laneOf n).st = .off || (s.laneOf n).st = .quenched)

/-- A completed guarded write of SYS_HIBCTRL: sequencers, engines and Crucible stop, QUE refuses every submission and NET sends nothing more; the second step follows at a
moment of its own within 2 ms (R470). -/
def State.hibernate (s : State) (src : Source) (val : Word) (wakeHigh : Bool) : State :=
  if bitsOf 0 0 val = 0 then s
  else if !s.mayHibernate then s.clamp src Fld.SYS_HIBCTRL_GO.addr val 0 rsState 0 0
  else if s.sys.hibDue.isSome then s
  else
    let s1 := (s.each (List.range s.lanes) (fun n s => s.wickStop n)).each (List.range s.lanes) (fun e s => s.onEngine e (fun x => { x with run := false, st := .halted }))
    let s2 := { s1 with cru := { State.reset.cru with kept := s1.cru.kept } }.drawn
    { s2 with sys := { s2.sys with hibDue := some (s2.now + s1.freeVal 1562000, wakeHigh) } }

/-- The second step of the entry: with WAKE high the device takes a cold reset with cause WAKE and keeps its rails; otherwise PWR_EN falls, and the gates 10 ms later
(R470). -/
def State.hibEnter (s : State) (wakeHigh : Bool) : State :=
  if wakeHigh then s.coldReset 3
  else { s with pwr := { s.pwr with pwrEn := false, gatesOff := some (s.now + 7812500) } }.powerLost .hib (s.fld Fld.SYS_RSTCAUSE_CAUSE 0)

/-- The third step: both gates go low, and no feed holds (R409, R470). -/
def State.hibGates (s : State) : State :=
  let p := s.pwr
  { s with pwr := { p with
    a := { p.a with gate := false, ball := false }, b := { p.b with gate := false, ball := false }, holder := none, release := none, sagKept := false, gatesOff := none } }

/-- The steps of hibernate that are due happen at the always-on domain's samples (DESIGN CHOICE 45) (R470). -/
def State.hibTick (s : State) : State :=
  match s.sys.hibDue with
  | some (due, wake) => s.only (decide (due ≤ s.now)) (fun s => s.hibEnter wake)
  | none =>
    match s.pwr.gatesOff with
    | some due => s.only (decide (due ≤ s.now)) State.hibGates
    | none => s

/-- FEED_SAMPLE: the feeds' voltages in millivolts (R408, R470). -/
def execFeedSample (t : Nat) (mvA mvB : Nat) (s : State) : Out := always t s (fun s => (s.feedSample mvA mvB).hibTick)

/-- HIBERNATE (R470). -/
def execHibernate (t : Nat) (src : Source) (wakeHigh : Bool) (s : State) : Out :=
  ticking t s (fun s =>
    let a := Fld.SYS_HIBCTRL_GO.addr
    s.pairWhole src a (fun s => s.pastLocks src a 1 (fun s => s.hibernate src 1 wakeHigh)))

/-- The feeds as the always-on domain first sees them. -/
def State.feedsSeen (s : State) (mvA mvB : Nat) : State :=
  { s with pwr := { s.pwr with a := { Feed.reset with mv := mvA }, b := { Feed.reset with mv := mvB }, gatesOff := none } }

/-- WAKE: a high level of some microseconds; 100 µs wake the device, which acquires a feed and starts as at a cold power-up (R409, R471). -/
def execWake (t : Nat) (highUs mvA mvB : Nat) (s : State) : Out :=
  always t s (fun s => s.only (s.sys.power = .hib && decide (100 ≤ highUs)) (fun s => ((s.coldReset 3).feedsSeen mvA mvB).acquireAtPower))

/-- VAON_APPLY: the always-on domain starts at its reset values and acquires a feed (R409, R459, R472). -/
def execVaonApply (t : Nat) (mvA mvB : Nat) (s : State) : Out :=
  always t s (fun s => s.only (s.sys.power = .off) (fun s =>
    let p := State.reset.pwr
    let s1 := { s with pwr := { p with a := Feed.reset, holder := none, pwrEn := false } }
    ((s1.coldReset 1).feedsSeen mvA mvB).acquireAtPower))

/-- VAON_REMOVED: the always-on domain loses its state (R472). -/
def execVaonRemoved (t : Nat) (s : State) : Out :=
  always t s (fun s =>
    let p := State.reset.pwr
    { s with pwr := { p with a := Feed.reset, holder := none, pwrEn := false } }.powerLost .off 1)

/-! ### Test port (R399, R400) -/

/-- The IDCODE: die revision, part code, the manufacturer code of the BSDL description and 1 (R399). -/
def State.idcode (s : State) : Nat := s.fixed.rev % 16 * 2 ^ 28 + s.fixed.variant.part * 2 ^ 12 + Config.bsdlCode % 2048 * 2 + 1

/-- The instruction that acts: a private one under DBGLOCK is BYPASS (R400). -/
def State.tapActs (s : State) (i : TapInstr) : TapInstr := if i = .priv && s.fixed.dbgLock then .bypass else i

/-- TAP_INSTRUCTION: EXTEST, CLAMP and HIGHZ hold the launch outputs safe, SAMPLE and EXTEST capture the pins into the boundary register, and IDCODE answers its word
(R399, R400). -/
def execTapInstruction (t : Nat) (instr : TapInstr) (s : State) : Out :=
  always t s (fun s =>
    let i := s.tapActs instr
    let s1 := if i = .sample || i = .extest then { s with sys := { s.sys with boundary := s.boundaryNow } } else s
    let s2 := if i = .idcode then { s1 with resp := leBytes 4 s.idcode } else s1
    { s2 with sys := { s2.sys with tap := i } })

end Sys2Proof.Machine
end

