-- ==== Sys2Proof/Machine/Tst.lean ====
section
/-!
DEFINITION. Writes of the test window (spec 17_register_model R455 to R457).
Points that the spec leaves open or that are read from it by inference: DEDUCED 51 of the assumption log.
-/

namespace Sys2Proof.Machine

/-- Applied bits of a lane mask whose bits change only on lanes that `ok` allows. -/
def maskedChange (lanes old new : Nat) (ok : Nat → Bool) : Nat :=
  (List.range lanes).foldl (fun m n => if bit new n ≠ bit old n && ok n then setBit m n (bit new n) else m) old

/-- A write of TST_DUMMY: a lane's bit changes only while the lane is OFF; a fault model of a lane that leaves the mode ends (R457). -/
def State.dummyWrite (s : State) (src : Source) (val : Word) : State :=
  let a := Fld.TST_DUMMY_LANES.addr
  let old := s.fld Fld.TST_DUMMY_LANES 0
  let v := bitsOf 7 0 val
  let new := maskedChange s.lanes old v (fun n => (s.laneOf n).st = .off)
  let s1 := s.setFld Fld.TST_DUMMY_LANES 0 new
  let k := s.fld Fld.TST_EMITFLT_LANE 0
  let s2 := if bit old k && !bit new k then s1.setFld Fld.TST_EMITFLT_KIND 0 0 else s1
  if new = v then s2 else s2.clamp src a val (s2.live a) (if 2 ^ s.lanes ≤ v then rsFused else rsState) 0 7

/-- The lane that a write of TST_EMITFLT leaves named: a lane not in dummy-load mode keeps the previous one (R457). -/
def State.emitLane (s : State) (val : Word) : Nat :=
  let n := bitsOf 2 0 val
  if s.dummy n then n else s.fld Fld.TST_EMITFLT_LANE 0

/-- A write of TST_EMITFLT, its fields judged from the lowest bit upward (R438, R457). -/
def State.emitFaultWrite (s : State) (src : Source) (val : Word) : State :=
  let a := Fld.TST_EMITFLT_LANE.addr
  let n := s.emitLane val
  let k := bitsOf 6 4 val
  let old := s.fld Fld.TST_EMITFLT_KIND 0
  let bad : Option Nat := if 5 < k then some rsEnum else if k ≠ 0 && !s.dummy n then some rsState else none
  let s1 := ((s.setFld Fld.TST_EMITFLT_LANE 0 n).setFld Fld.TST_EMITFLT_STRING 0 (bitsOf 3 3 val)).setFld Fld.TST_EMITFLT_KIND 0 (if bad.isSome then old else k)
  let s2 := if n = bitsOf 2 0 val then s1 else s1.clamp src a val (s1.live a) rsState 0 2
  match bad with
  | some r => if k = old then s2 else s2.clamp src a val (s1.live a) r 4 6
  | none => s2

/-- The byte address that TST_ECCADDR names in its target; for DRAM it holds address bits [34:3] (R456). -/
def State.eccAddr (s : State) : Nat :=
  let a := s.fld Fld.TST_ECCADDR_ADDR 0
  if s.fld Fld.TST_ECC_TARGET 0 = 0 then 8 * a else a

/-- A write of TST_ECC: with GO the bits of the next write to that address of the target flip (R456). -/
def State.eccWriteReg (s : State) (src : Source) (a : Nat) (val : Word) : State :=
  let s1 := s.plainWrite src a val
  if bitsOf 4 4 val = 1 then
    { s1 with sys := { s1.sys with eccArm := some (s1.fld Fld.TST_ECC_TARGET 0, s1.flag Fld.TST_ECC_DOUBLE 0, s1.eccAddr) } }
  else s1

/-- A write of TST_BLDROP: a lane named loses lock (R418, R456). -/
def State.dropWrite (s : State) (src : Source) (a : Nat) (val : Word) : State :=
  let s1 := s.plainWrite src a val
  s1.each [0, 1] (fun k s => s.only (bit (s.fld Fld.TST_BLDROP_LANES 0) k && s.belLane k) (fun s => s.belLoss k))

/-- A write in the test window (R456). -/
def State.tstWrite (s : State) (src : Source) (a : Nat) (val : Word) : State :=
  match a % 0x10000 with
  | 0x10 => s.dropWrite src a val
  | 0x18 => s.eccWriteReg src a val
  | 0x20 => s.dummyWrite src val
  | 0x24 => s.emitFaultWrite src val
  | _ => s.plainWrite src a val

end Sys2Proof.Machine
end

