-- ==== Sys2Proof/Machine/Bus.lean ====
section
/-!
DEFINITION. Writes on the control bus: what each address takes, guarded pairs and the writes that wait for them, the legacy window, and the mirror of a twin holder
(spec 17_register_model R431 to R458; 19_register_map R477 to R481; R391, R392, R418, R420).
Points that the spec leaves open or that are read from it by inference: DEDUCED 38, 39, 40; DESIGN CHOICE 49, 50 of the assumption log.
-/

namespace Sys2Proof.Machine

/-! ### Which addresses take a write -/

/-- A word of the tables that a write can reach (R75, R115, R162, R167, R267, R300, R398). -/
def State.tableTakes (s : State) (a : Nat) : Bool :=
  let off := a % 0x10000
  match a / 0x10000 with
  | 1 => true
  | 2 => decide (off < 0x9000)
  | 4 => decide (off < 0xA000) || customRange off
  | 6 => true
  | 8 => decide (off < 0x8080) || (decide (0x9000 ≤ off) && decide (off < 0x9080))
  | 12 => s.flag Fld.NET_STAT_BOOTWAIT 0
  | _ => false

/-- A register with a field that a write can change (R433). -/
def regTakes (a : Nat) : Bool :=
  match regAt a with
  | some (r, _) => r.fields.any (fun fd => fd.acc ≠ .ro && fd.acc ≠ .rc)
  | none => false

/-- A write to an address of the windows has something to reach, or the block of a fused-off unit to be turned away from; any other is ignored without a
report (R3, R431). -/
def State.takes (s : State) (a : Nat) : Bool := fusedBlock s.fixed a || (if 0x8000 ≤ a % 0x10000 then s.tableTakes a else regTakes a)

/-! ### Writes that apply at once, window by window -/

/-- SYS: commit, snapshot and plain registers. -/
def State.sysWrite (s : State) (src : Source) (a : Nat) (val : Word) : State :=
  if a = 8 then s.commitWrite src val
  else if a = 0xC then s.only (bitsOf 0 0 val = 1) State.snapshot
  else if a = Fld.SYS_CRC_CTRL_ACTION.addr then (s.plainWrite src a val).clearWatch
  else s.plainWrite src a val

/-- HSC: commands and manual selection beside plain registers (R123, R128, R140). -/
def State.hscWrite (s : State) (src : Source) (a : Nat) (val : Word) : State :=
  if a = 0x30008 then
    let s1 := if bitsOf 0 0 val = 1 then s.calibrate src else s
    if bitsOf 1 1 val = 1 then s1.rotateNow (bitsOf 31 16 val) else s1
  else if 0x32000 ≤ a && a < 0x32040 then s.manWrite src ((a - 0x32000) / 4) val
  else s.plainWrite src a val

/-- WCK: control, program counters and programs; a reset holds the sequencers (R265, R267, R468). -/
def State.wckWrite (s : State) (src : Source) (a : Nat) (val : Word) : State :=
  if a = 0x60000 then s.only (!s.inReset) (fun s => s.wckCtrl src val)
  else if isWickPc a then s.wickPcWrite src ((a - 0x64000) / 0x200) val
  else if 0x68000 ≤ a then s.wickProgWrite src a val
  else s.plainWrite src a val

/-- ANV: an engine's control, PC and ASTAT; a reset holds the engines (R199, R224, R468). -/
def State.anvWrite (s : State) (src : Source) (a : Nat) (val : Word) : State :=
  let e := (a - 0x74000) / 0x400
  if 0x74000 ≤ a && a < 0x76000 && a % 0x400 < 0xC then
    s.withEngine src a e val (fun s =>
      if s.inReset then s
      else if a % 0x400 = 0 then s.engCtrl src e val
      else if a % 0x400 = 4 then s.engPcWrite src e val
      else s.onEngine e (fun x => x.hostAstat s.dev val))
  else s.plainWrite src a val

/-- AUX: requests, calibration, its factors and the sequence; a reset holds requests and calibration (R279, R291, R296, R300, R468). -/
def State.auxWrite (s : State) (src : Source) (a : Nat) (val : Word) : State :=
  if a = 0x80010 then s.only (!s.inReset) (fun s => s.injWrite src val)
  else if a = 0x80014 then s.only (bitsOf 0 0 val = 1 && !s.inReset) (fun s => s.calCommand 1)
  else if 0x89000 ≤ a then s.seqWrite src a val
  else if 0x88000 ≤ a then s.calfWrite src a val
  else s.plainWrite src a val

/-- QUE: the doorbell, completions and submission words (R336, R340). -/
def State.queWrite (s : State) (src : Source) (a : Nat) (val : Word) : State :=
  let q := (a - 0xA4000) / 0x100
  let off := a % 0x100
  if a < 0xA4000 then s.plainWrite src a val
  else if off = 0x14 then
    if s.flag Fld.QUE_Qq_STAT_SUBBUSY q then s.clamp src a val 0 rsState 0 31 else s.only (bitsOf 0 0 val = 1) (fun s => s.doorbell src q)
  else if off = 0x2C then s.hostDone q (bitsOf 30 0 val)
  else if 0x40 ≤ off && off < 0x80 then
    if s.flag Fld.QUE_Qq_STAT_SUBBUSY q then s.clamp src a val 0 rsState 0 31 else s.setLive a val
  else s.plainWrite src a val

/-- NET: the staging window of a boot over SPI and BOOTCTL, which has a meaning while a chunk is awaited (R398). -/
def State.netWrite (s : State) (src : Source) (a : Nat) (val : Word) : State :=
  if a = Fld.NET_BOOTCTL_READY.addr then s.only (bitsOf 0 0 val = 1 && s.flag Fld.NET_STAT_BOOTWAIT 0) (fun s => { s with boot := { s.boot with ready := true } })
  else if 0xC8000 ≤ a then { s with boot := { s.boot with stage := sput 0 s.boot.stage ((a - 0xC8000) / 4) val } }
  else s.plainWrite src a val

/-- A write to an address of the windows that no guarded pair protects; the block of a fused-off unit turns every write away (R3). -/
def State.winWrite (s : State) (src : Source) (a : Nat) (val : Word) : State :=
  if fusedBlock s.fixed a then s.clamp src a val 0 rsFused 0 31 else
  match a / 0x10000 with
  | 0 => s.sysWrite src a val
  | 1 => if 0x18000 ≤ a then s.chirpWrite src a val else s.plainWrite src a val
  | 2 => if 0x28000 ≤ a then s.scheduleWrite src a val else s.plainWrite src a val
  | 3 => s.hscWrite src a val
  | 4 => if 0x48000 ≤ a then s.spectrumWrite src a val else s.plainWrite src a val
  | 6 => s.wckWrite src a val
  | 7 => s.anvWrite src a val
  | 8 => s.auxWrite src a val
  | 10 => s.queWrite src a val
  | 12 => s.netWrite src a val
  | 15 => s.tstWrite src a val
  | _ => s.plainWrite src a val

/-- A register's write recorded with the others of its PCLK edge. One that another source of a later place in the order has already written keeps that source's value
(R479). -/
def State.meets (s : State) (src : Source) (a : Nat) (f : State → State) : State :=
  let s1 := f s
  match regAt a with
  | some (r, _) =>
    let later := s.edgeNow.wrote.any (fun w => w.addr = a && srcRank src < srcRank w.src)
    let keep (acc : Access) (old new : Word) : Word :=
      r.fields.foldl (fun w fd => if fd.acc = acc then withBits fd.hi fd.lo w (bitsOf fd.hi fd.lo old) else w) new
    let s2 := if later then (s1.setLive a (keep .rw (s.live a) (s1.live a))).setStaged a (keep .rws (s.staged a) (s1.staged a)) else s1
    { s2 with regs := { s2.regs with edge := { s2.edgeNow with wrote := ⟨src, a, s.live a, s.staged a⟩ :: s2.edgeNow.wrote } } }
  | none => s1

/-- The write of one word at a native address: windows, engine memories and the aperture (R194, R392, R431, R477, R479). -/
def State.apply (s : State) (native : Bool) (src : Source) (a : Nat) (val : Word) : State :=
  if a < 0x100000 then (if s.takes a then s.pastLocksAs native src a val (fun s => s.meets src a (fun s => s.winWrite src a val)) else s)
  else if 0x1000000 ≤ a && a < 0x1800000 then
    if a % 0x100000 < 0x10000 then s.pastLocksAs native src a val (fun s => s.imemWrite src a val)
    else if 0x80000 ≤ a % 0x100000 then s.pastLocksAs native src a val (fun s => s.dmemWrite src a val) else s
  else if isAperture a then (s.apertureWrite a val).1
  else s

/-! ### Guarded registers (R443, R481) -/

/-- A change of a covered register in force by `f` at address `a`: the CRC's hold begins (R448). -/
def State.covering (s : State) (a : Nat) (f : State → State) : State :=
  let s1 := f s
  match regAt a with
  | some (r, _) => if (s1.live a).toNat &&& coverMask a r ≠ (s.live a).toNat &&& coverMask a r then s1.coverChanged.beginHold else s1
  | none => s1

/-- RUN becomes set: at READY bring-up ends, the periodic duties start and the watchdog is armed; while Hearth restarts, that waits for it, and after a failure it does
not come (R36, R38, R321, R458, R463). -/
def State.sysRun (s : State) : State :=
  let s1 := s.setFlag Fld.SYS_CTRL_RUN 0 true
  if s1.sys.hearth && s1.fld Fld.SYS_BOOTSTAGE_STAGE 0 = 5 then s1.hearthUp else s1

/-- EXPERT_EN set or cleared: clearing ends every injection (R451). -/
def State.setExpert (s : State) (on : Bool) : State := if on then s.setFlag Fld.SYS_CTRL_EXPERT_EN 0 true else (s.setFlag Fld.SYS_CTRL_EXPERT_EN 0 false).tstReset

/-- LEGACY takes another value before the first commit (R41, R452). -/
def State.setLegacy (s : State) (src : Source) (on : Bool) : State := (if on then s.twinCtrl src 0 else s).legacyFix on

/-- A completed pair of SYS_CTRL, its fields from the lowest bit upward, the warm reset last; WARM has no effect while a reset runs (R41, R451, R458, R468). -/
def State.sysCtrl (s : State) (src : Source) (val : Word) : State :=
  let run := s.flag Fld.SYS_CTRL_RUN 0
  let leg := decide (bitsOf 2 2 val = 1)
  let moved := leg ≠ s.legacy
  let s1 := if bitsOf 0 0 val = 1 && !run then s.sysRun else s
  let s2 := if moved && !s.sys.committed then s1.setLegacy src leg else s1
  let s3 := if decide (bitsOf 3 3 val = 1) ≠ s2.flag Fld.SYS_CTRL_EXPERT_EN 0 then s2.setExpert (bitsOf 3 3 val = 1) else s2
  let s4 := if bitsOf 0 0 val = 0 && run then s3.clamp src 4 val (s3.live 4) rsState 0 0 else s3
  let s5 := if moved && s.sys.committed then s4.clamp src 4 val (s4.live 4) rsStrap 2 2 else s4
  if bitsOf 1 1 val = 1 && !s.inReset then s5.warmBegin 4 else s5

/-- A completed pair of SYS_CRC_REF: the reference changes and a hold ends (R447, R448). -/
def State.crcRef (s : State) (val : Word) : State :=
  ({ s with sys := { s.sys with hold := none } }.setLive Fld.SYS_CRC_REF_REF.addr val |>.setFlag Fld.SYS_STAT_HOLD 0 false).clearWatch

/-- A guarded register takes its value (R443, R481). -/
def State.guardApply (s : State) (src : Source) (a : Nat) (val : Word) : State :=
  s.covering a (fun s =>
    match a with
    | 0x4 => s.sysCtrl src val
    | 0x10 => s.crcRef val
    | 0x24 => s.drawn.hibernate src val (s.freeVal 2 = 1)
    | 0x10000 => s.lanCtrl src val
    | 0x10004 => s.qcfgWrite src val
    | 0x10010 => s.only (bitsOf 0 0 val = 1) (fun s => s.quenchClear src)
    | 0xD0000 => s.pwrCtrl val
    | 0xD000C => s.switchback src val
    | 0xE0000 => s.twinCtrl src val
    | 0xE0008 => s.twinSwitchback src val
    | _ => s)

/-- A guarded pair is whole: it takes effect unless the register is locked. -/
def State.pairDone (s : State) (native : Bool) (src : Source) (a : Nat) (val : Word) : State :=
  s.pastLocksAs native src a val (fun s => s.meets src a (fun s => s.guardApply src a val))

/-! ### The legacy window (R452) -/

/-- Where a write on the control bus goes. -/
inductive Target where
  /-- A native address, reached directly or through the legacy window, with the value it takes. -/
  | word (native : Bool) (a : Nat) (val : Word)
  /-- The legacy commit register. -/
  | legCommit
  /-- Two entries of lane `n`'s legacy chirp table, from entry `k`. -/
  | legChirp (n k : Nat)
  /-- Nothing stands there. -/
  | nowhere
deriving DecidableEq, Repr

/-- The value that a native register takes from a legacy write: SYS_CTRL gives RUN and WARM, LAN_CTRL the four presented lanes; every other bit is as it stands (R452). -/
def State.legacyVal (s : State) (a : Nat) (val : Word) : Word :=
  if a = 4 then withBits 1 0 (s.live 4) (bitsOf 1 0 val)
  else if a = 0x10000 then withBits 3 0 (s.live 0x10000) (bitsOf 3 0 val)
  else val

/-- Where a write to an address goes. -/
def State.target (s : State) (a : Nat) (val : Word) : Target :=
  if a < 0x200000 || 0x210000 ≤ a then .word true a val
  else if !s.legacy then .nowhere
  else
    let off := a - 0x200000
    if off = 8 then .legCommit
    else if 0x8000 ≤ off then (if (off - 0x8000) / 0x2000 < s.legacyLanes then .legChirp ((off - 0x8000) / 0x2000) (off % 0x2000 / 4 * 2) else .nowhere)
    else
      match s.legacyNative off with
      | some n => .word false n val
      | none =>
        match s.legacyGuarded off with
        | some n => .word false (n + 0x800) val
        | none => .nowhere

/-- The window in which a write counts for guarded pairs. -/
def Target.win : Target → Option Nat
  | .word _ a _ => if a < 0x100000 then some (a / 0x10000) else none
  | .legCommit => some 0
  | .legChirp _ _ => some 1
  | .nowhere => none

/-- A write that no pair concerns takes effect. -/
def State.applyTarget (s : State) (src : Source) (addr : Nat) (val : Word) : Target → State
  | .word native a v => s.apply native src a v
  | .legCommit => s.legacyCommit src val
  | .legChirp n k => s.chirpPut src n addr k val (s.legacyChirp n k)
  | .nowhere => s

/-! ### Pairs and the writes that wait for them (R391, R443, R444) -/

/-- The register whose complement stands at an address. -/
def complementOf (a : Nat) : Option Nat := if a % 0x10000 < 0x800 then none else if guardedRegs.contains (a - 0x800) then some (a - 0x800) else none

/-- A write with no pair open in its window: a first half opens one, a complement alone is discarded, any other write applies. -/
def State.freshWrite (s : State) (src : Source) (addr : Nat) (val : Word) (tg : Target) : State :=
  match tg with
  | .word _ a v =>
    if guardedRegs.contains a then { s with sys := { s.sys with guards := s.sys.guards ++ [⟨src, a, v, s.now⟩] } }
    else if (complementOf a).isSome then s.guardFault
    else s.applyTarget src addr val tg
  | _ => s.applyTarget src addr val tg

/-- A write of the source whose pair is open: its complement completes the pair, everything else breaks it (R444). -/
def State.secondWrite (s : State) (g : Guard) (src : Source) (addr : Nat) (val : Word) (tg : Target) : State :=
  let s1 := s.closePair (g.addr / 0x10000)
  match tg with
  | .word native a v =>
    if a = g.addr + 0x800 then (if v = ~~~ g.val then s1.pairDone native src g.addr (if native then g.val else s1.legacyVal g.addr g.val) else s1.guardFault)
    else s1.guardFault.freshWrite src addr val tg
  | _ => s1.guardFault.freshWrite src addr val tg

/-- Another source's pair is open in the window that a write goes to (R391). -/
def State.blocked (s : State) (src : Source) (w : Nat × Word) : Bool :=
  match (s.target w.1 w.2).win with
  | none => false
  | some n => match s.guardOf n with
    | none => false
    | some g => g.src ≠ src

/-- One write on the control bus that nothing holds back. -/
def State.busStep (s : State) (src : Source) (a : Nat) (val : Word) : State :=
  let tg := s.target a val
  match tg.win.bind s.guardOf with
  | none => s.freshWrite src a val tg
  | some g => s.secondWrite g src a val tg

/-- Writes that go together, in their order (R391, R393). -/
def State.busSteps (s : State) (src : Source) (ws : List (Nat × Word)) : State := ws.foldl (fun s w => s.busStep src w.1 w.2) s

/-- Held writes wait no longer: none of their windows has a pair of another source. -/
def State.mayGo (s : State) (h : HeldWrite) : Bool := !h.words.any (s.blocked h.src)

/-- Held writes have waited longer than SYS_GUARD_TMO. -/
def State.heldOver (s : State) (h : HeldWrite) : Bool := decide (h.since + pclk * s.fld Fld.SYS_GUARD_TMO_TMO 0 < s.now)

/-- The first held writes that can go or have waited too long. -/
def State.nextHeld (s : State) : Option HeldWrite := s.sys.held.find? (fun h => s.heldOver h || s.mayGo h)

/-- Held writes go in their order; those that have waited too long are discarded as a broken pair (R391). -/
def State.drain (s : State) : Nat → State
  | 0 => s
  | k + 1 =>
    match s.nextHeld with
    | some h =>
      let s1 := { s with sys := { s.sys with held := s.sys.held.erase h } }
      (if s.heldOver h then s1.guardFault else s1.busSteps h.src h.words).drain k
    | none => s

/-- Expired pairs are broken and the writes that waited go (R391, R444). -/
def State.guardTick (s : State) : State :=
  let s1 := s.each (List.range 15) (fun w s => s.guardExpire w)
  s1.drain s1.sys.held.length

/-- Writes on the control bus by a source, as one unit: they wait together while another source's pair is open in a window of theirs. After a boot
failure the hosts' have no effect (R391, R393, R397). -/
def State.busUnit (s : State) (src : Source) (ws : List (Nat × Word)) : State :=
  if s.deaf src then s
  else
  let s1 := s.guardTick
  let s2 := if ws.any (s1.blocked src) then { s1 with sys := { s1.sys with held := s1.sys.held ++ [⟨src, ws, s1.now⟩] } } else s1.busSteps src ws
  s2.drain s2.sys.held.length

/-- A write of one word on the control bus by a source. -/
def State.busWrite (s : State) (src : Source) (a : Nat) (val : Word) : State := if a % 4 ≠ 0 then s else s.busUnit src [(a, val)]

/-! ### Commands that are writes -/

/-- GUARDED_FIRST_WRITE: the value of a guarded register (R443). -/
def execGuardedFirstWrite (t : Nat) (src : Source) (addr val : Word) (s : State) : Out :=
  ticking t s (fun s =>
    match s.target addr.toNat val with
    | .word _ a _ => s.only (guardedRegs.contains a) (fun s => s.busWrite src addr.toNat val)
    | _ => s)

/-- GUARDED_COMPLEMENT_WRITE: a write at a guarded register's offset + 0x800 (R443, R444). -/
def execGuardedComplementWrite (t : Nat) (src : Source) (addr val : Word) (s : State) : Out :=
  ticking t s (fun s =>
    match s.target addr.toNat val with
    | .word _ a _ => s.only (complementOf a).isSome (fun s => s.busWrite src addr.toNat val)
    | _ => s)

/-- GUARD_TIMEOUT: SYS_GUARD_TMO has expired with the pair of a window open (R444). -/
def execGuardTimeout (t : Nat) (win : Nat) (s : State) : Out :=
  ticking t s (fun s =>
    match s.guardOf win with
    | some g => s.only (decide (g.openAt + pclk * s.fld Fld.SYS_GUARD_TMO_TMO 0 ≤ s.now)) (fun s => ((s.closePair win).guardFault).guardTick)
    | none => s)

/-- COMMIT: a write of SYS_COMMIT (R435). -/
def execCommit (t : Nat) (src : Source) (mask : Word) (s : State) : Out := ticking t s (fun s => s.busWrite src 8 mask)

/-- SNAPSHOT: a write of 1 to SYS_SNAP.TAKE (R450). -/
def execSnapshot (t : Nat) (src : Source) (s : State) : Out := ticking t s (fun s => s.busWrite src 0xC 1)

/-- A guarded pair written whole at a native address. -/
def State.pairWrite (s : State) (src : Source) (a : Nat) (val : Word) : State := s.pairWhole src a (fun s => s.pairDone true src a val)

/-- SYS_RUN (R458). -/
def execSysRun (t : Nat) (src : Source) (s : State) : Out := ticking t s (fun s => s.pairWrite src 4 (withBits 0 0 (s.live 4) 1))

/-- WARM_RESET (R468). -/
def execWarmReset (t : Nat) (src : Source) (s : State) : Out := ticking t s (fun s => s.pairWrite src 4 (withBits 1 1 (s.live 4) 1))

/-- LEGACY_SELECT (R41). -/
def execLegacySelect (t : Nat) (src : Source) (on : Bool) (s : State) : Out := ticking t s (fun s => s.pairWrite src 4 (withBits 2 2 (s.live 4) (b2n on)))

/-- EXPERT_ENABLE (R451). -/
def execExpertEnable (t : Nat) (src : Source) (s : State) : Out := ticking t s (fun s => s.pairWrite src 4 (withBits 3 3 (s.live 4) 1))

/-- EXPERT_DISABLE (R451, R456). -/
def execExpertDisable (t : Nat) (src : Source) (s : State) : Out := ticking t s (fun s => s.pairWrite src 4 (withBits 3 3 (s.live 4) 0))

/-- CRC_REF_WRITE (R447, R448). -/
def execCrcRefWrite (t : Nat) (src : Source) (ref : Word) (s : State) : Out := ticking t s (fun s => s.pairWrite src 0x10 ref)

/-- TWIN_ENABLE (R420). -/
def execTwinEnable (t : Nat) (src : Source) (s : State) : Out := ticking t s (fun s => s.pairWrite src 0xE0000 1)

/-- TWIN_DISABLE (R429). -/
def execTwinDisable (t : Nat) (src : Source) (s : State) : Out := ticking t s (fun s => s.pairWrite src 0xE0000 0)

/-- CHIRP_TABLE_WRITE: a word of the window at LAN offsets 0x8000 to 0xFFFF (R75). -/
def execChirpTableWrite (t : Nat) (src : Source) (addr val : Word) (s : State) : Out :=
  ticking t s (fun s => s.only (0x18000 ≤ addr.toNat && addr.toNat < 0x20000) (fun s => s.busWrite src addr.toNat val))

/-- QUEUE_DOORBELL (R336, R337). -/
def execQueueDoorbell (t : Nat) (src : Source) (q : Nat) (s : State) : Out :=
  ticking t s (fun s => s.only (q < 64) (fun s => s.pastLocks src (Fld.QUE_Qq_DOORBELL_SUBMIT.at q) 1 (fun s => s.doorbell src q)))

/-- HOST_DONE (R340). -/
def execHostDone (t : Nat) (src : Source) (q seq : Nat) (s : State) : Out :=
  ticking t s (fun s => s.only (q < 64) (fun s => s.pastLocks src (0xA402C + 0x100 * q) (BitVec.ofNat 32 seq) (fun s => s.hostDone q (seq % 2 ^ 31))))

/-- ECC_INJECT: a write of TST_ECC with GO (R456). -/
def execEccInject (t : Nat) (src : Source) (target : Nat) (double : Bool) (s : State) : Out :=
  ticking t s (fun s => s.busWrite src 0xF0018 (BitVec.ofNat 32 (target % 8 + 8 * b2n double + 16)))

/-- SLICE_FAULT_INJECT: a write of TST_SLICE (R456). -/
def execSliceFaultInject (t : Nat) (src : Source) (val : Word) (s : State) : Out := ticking t s (fun s => s.busWrite src 0xF0014 val)

/-- DUMMY_LOAD_SELECT: a write of TST_DUMMY (R457). -/
def execDummyLoadSelect (t : Nat) (src : Source) (val : Word) (s : State) : Out := ticking t s (fun s => s.busWrite src 0xF0020 val)

/-- EMIT_FAULT_INJECT: a write of TST_EMITFLT (R457). -/
def execEmitFaultInject (t : Nat) (src : Source) (val : Word) (s : State) : Out := ticking t s (fun s => s.busWrite src 0xF0024 val)

/-! ### The mirror on the standby (R418, R420) -/

/-- One word of the holder's configuration is applied: a guarded register takes its value whole. -/
def State.mirrorWord (s : State) (a : Nat) (val : Word) : State :=
  if !mirrored a || isAperture a then s
  else if guardedRegs.contains a then s.guardApply .twin a val
  else s.apply true .twin a val

/-- The windows that a list of words touches. -/
def touchedWins (ps : List (Word × Word)) : List Nat := (List.range 16).filter (fun w => ps.any (fun p => p.1.toNat / 0x10000 = w))

/-- CONFIG received: committed configuration, applied at once; `last` ends the full copy of R420 (R418, R420). -/
def State.config (s : State) (ps : List (Word × Word)) (last : Bool) : State :=
  let s1 := ps.foldl (fun s p => s.mirrorWord p.1.toNat p.2) s.linkHeard
  ((s1.commitAll (touchedWins ps)).onTwn (fun x => { x with gotConfig := x.gotConfig || last })).syncCheck

/-- CONFIG (R420). -/
def execConfig (t : Nat) (pairs : List (Word × Word)) (last : Bool) (s : State) : Out :=
  clocked t s (fun s => s.only (s.role = 2) (fun s => s.config pairs last))

end Sys2Proof.Machine
end

