-- ==== Sys2Proof/Machine/ConfigCrc.lean ====
section
/-!
DEFINITION. The configuration CRC: what it covers, its passes and the end of a hold (spec 17_register_model R446 to R448).
Points that the spec leaves open or that are read from it by inference: DEDUCED 41 of the assumption log.
-/

namespace Sys2Proof.Machine

/-- One pass in ACLK ticks (R447). -/
def passTicks : Nat := 65536 * pclk

/-- The covered registers, with their windows and units, in ascending address order (R446). -/
def coveredRegs : List (Nat × Nat × Nat × RegDef) :=
  ((List.range 15).flatMap (fun w => (regsOf w).flatMap (fun r => (List.range r.count).map (fun u => (w * 0x10000 + r.off + r.stride * u, w, u, r))))).filter
      (fun e => coverMask e.1 e.2.2.2 ≠ 0) |>.insertionSort (fun x y => x.1 ≤ y.1)

/-- A covered register's word: its covered fields with the values in force, every other bit zero, and zero for a fused-off unit (R3, R446). -/
def State.coverWord (s : State) (w u : Nat) (r : RegDef) (a : Nat) : Word :=
  if fusedOff s.fixed a u then 0
  else
    let k := (s.forceKeys w r u).headD a
    r.fields.foldl (fun v fd => withBits fd.hi fd.lo v (bitsOf fd.hi fd.lo (if fd.acc = .rws then s.live k else s.regView a))) 0 &&& BitVec.ofNat 32 (coverMask a r)

/-- A window-wide register is in force with different values on different units, so that its word has no one value (R436). -/
def State.forceSplit (s : State) (w u : Nat) (r : RegDef) : Bool :=
  let a := w * 0x10000 + r.off + r.stride * u
  let word (k : Nat) : Nat := (s.live k).toNat &&& coverMask a r
  (s.forceKeys w r u).any (fun k => word k ≠ word ((s.forceKeys w r u).headD a))
    || (decide (w = 4 ∧ r.off < 0x4000) && !s.ddc.wait.isEmpty && decide (s.ddc.wait.length < 4 * s.lanes)
      && (s.pend a).toNat &&& coverMask a r ≠ (s.live a).toNat &&& coverMask a r)

/-- The configuration CRC over the values in force (R335, R446). -/
def State.configCrc (s : State) : Nat := crc32c (coveredRegs.flatMap (fun e => leBytes 4 (s.coverWord e.2.1 e.2.2.1 e.2.2.2 e.1).toNat))

/-- A mismatch is declared: reported, and the response that ACTION selects (R447, R448). -/
def State.crcDeclare (s : State) : State :=
  let s1 := ({ s with sys := { s.sys with declared := true } }.setFlag Fld.SYS_STAT_CRC_MISMATCH 0 true).count Fld.SYS_CRCFAIL_CNT 0 1
  let s2 := s1.faultAt 0 0xFF 0x200 0 1
  match s.fld Fld.SYS_CRC_CTRL_ACTION 0 with
  | 1 => { s2 with sys := { s2.sys with froze := true } }.setFlag Fld.SYS_STAT_FROZEN 0 true
  | 2 => s2.quenchTrip [(qCrc, none)]
  | _ => s2

/-- A pass is compared with the reference (R447). -/
def State.crcCompare (s : State) (crc : Nat) : State :=
  if crc = s.fld Fld.SYS_CRC_REF_REF 0 then
    ({ s with sys := { s.sys with mismatches := 0, declared := false, froze := false } }.setFlag Fld.SYS_STAT_CRC_MISMATCH 0 false).setFlag Fld.SYS_STAT_FROZEN 0 false
  else
    let s1 := { s with sys := { s.sys with mismatches := s.sys.mismatches + 1 } }
    if 1 ≤ s.sys.mismatches && !s.sys.declared then s1.crcDeclare else s1

/-- A pass ends without a change: its result, and the comparison outside a hold (R447). While units hold different values of a window-wide register, which of
them the CRC takes is not stated. -/
def State.crcPass (s : State) : State :=
  let split := coveredRegs.any (fun e => s.forceSplit e.2.1 e.2.2.1 e.2.2.2)
  let crc := if split then s.freeVal (2 ^ 32) else s.configCrc
  let s1 := ((s.drawn.setFld Fld.SYS_CRC_LIVE_CRC 0 crc).setFlag Fld.SYS_STAT_CRCVALID 0 true).clearWatch
  if s.flag Fld.SYS_CRC_CTRL_EN 0 && s.sys.hold.isNone then s1.crcCompare crc else { s1 with sys := { s1.sys with mismatches := 0 } }

/-- CRC_PASS_END: one with a change is discarded (R447). -/
def execCrcPassEnd (t : Nat) (s : State) : Out :=
  ticking t s (fun s => s.only (s.dev % passTicks = 0) (fun s =>
    if s.sys.passDirty then { s with sys := { s.sys with passDirty := false } } else s.crcPass))

/-- CRC_HOLD_END: 2^24 PCLK after the last event that began or renewed the hold, with no commit still on its way (R448). -/
def execCrcHoldEnd (t : Nat) (s : State) : Out :=
  ticking t s (fun s =>
    match s.sys.hold with
    | some t0 => s.only (decide (t0 + 2 ^ 24 * pclk ≤ s.now) && s.fld Fld.SYS_COMMIT_PEND 0 = 0)
        (fun s => { s with sys := { s.sys with hold := none } }.setFlag Fld.SYS_STAT_HOLD 0 false)
    | none => s)

end Sys2Proof.Machine
end

