-- ==== Sys2Proof/Machine/Boot.lean ====
section
/-!
DEFINITION. The boot image and its stages (spec 15_network_and_host R395 to R398, 18_bring_up_and_calibration R463 to R465; R320, R321).
Points that the spec leaves open or that are read from it by inference: DEDUCED 46; DESIGN CHOICE 7 of the assumption log.
-/

namespace Sys2Proof.Machine

/-! ### The image (R396, R397, R464) -/

/-- A little-endian field of an image. -/
def imageGet (img : List Byte) (o n : Nat) : Nat := leNat ((img.drop o).take n)

/-- A section: its type, destination, data and stored CRC; an entry that reaches beyond the image has none. -/
structure Section where
  kind : Nat
  dest : Nat
  data : List Byte
  crc : Nat
deriving DecidableEq, Repr

/-- Section `k` of an image that begins at flash offset `base`: the entry gives the section's offset in flash (R396). -/
def imageSection (base : Nat) (img : List Byte) (k : Nat) : Option Section :=
  let e := 16 + 8 * k
  let o := imageGet img (e + 4) 4 - base
  let n := imageGet img o 4
  if imageGet img (e + 4) 4 < base || img.length < o + 12 + n then none else some ⟨imageGet img e 2, imageGet img (o + 4) 4, (img.drop (o + 12)).take n, imageGet img (o + 8) 4⟩

/-- The sections in image order. -/
def imageSections (base : Nat) (img : List Byte) : List (Option Section) := (List.range (min 24 (imageGet img 6 2))).map (imageSection base img)

/-- The header holds: magic and CRC (R396, R397). -/
def headerOk (img : List Byte) : Bool :=
  decide (256 ≤ img.length) && imageGet img 0 4 = 0x4D514248 && imageGet img 252 4 = crc32c (img.take 252)

/-- Every section's CRC holds. -/
def sectionsOk (base : Nat) (img : List Byte) : Bool :=
  (imageSections base img).all (fun x => match x with
    | some sec => crc32c sec.data = sec.crc
    | none => false)

/-- The configuration lists stay within 64 KiB in all (R464). -/
def listsFit (base : Nat) (img : List Byte) : Bool :=
  decide (((imageSections base img).filterMap id |>.filter (fun x => x.kind = 2) |>.map (fun x => x.data.length)).sum ≤ 65536)

/-- The image's HMAC-SHA-256 holds over the whole image with its field zeroed (R396). -/
def hmacOk (key img : List Byte) : Bool :=
  decide ((img.drop 208).take 32 = hmacSha256 key (img.take 208 ++ List.replicate 32 0 ++ img.drop 240))

/-- An image that begins at flash offset `base` passes (R397, R464). -/
def Fixed.imageOk (fx : Fixed) (base : Nat) (img : List Byte) : Bool :=
  let im := img.take (imageGet img 8 4)
  headerOk img && headerOk im && sectionsOk base im && listsFit base im && decide (imageGet im 12 4 ≤ fx.rev) && (!fx.bootAuth || hmacOk fx.key im)

/-- Little-endian words of bytes; a last part of a word is padded with zeros. -/
def wordsOf : Nat → List Byte → List Word
  | 0, _ => []
  | n + 1, bs => if bs.isEmpty then [] else BitVec.ofNat 32 (leNat (bs.take 4)) :: wordsOf n (bs.drop 4)

/-- The words of a section's data. -/
def Section.words (x : Section) : List Word := wordsOf (x.data.length / 4 + 1) x.data

/-- Words written one after another by Hearth, each at its control-bus address (R396). -/
def State.loadWords (s : State) (a : Nat) : List Word → State
  | [] => s
  | w :: ws => (s.busWrite .hearth a w).loadWords (a + 4) ws

/-- A register that selects the page of a table. -/
def pageReg (a : Nat) : Bool := decide (a = 0x10014) || decide (a = 0x4000C)

/-- The words of a load cleared to zero where it wrote them: its page selections are made again, so that each page is cleared, and are cleared at the end (R464). -/
def State.clearWords (s : State) (a : Nat) : List Word → State
  | [] => s
  | w :: ws => (s.busWrite .hearth a (if pageReg a then w else 0)).clearWords (a + 4) ws

/-- The type-3 sections of an image, on-chip or with DRAM destinations (R396, R464). -/
def loadSections (base : Nat) (img : List Byte) (dram : Bool) : List Section :=
  ((imageSections base img).filterMap id).filter (fun x => x.kind = 3 && isAperture x.dest == dram)

/-- The entries of the configuration lists in image order (R396). -/
def listEntries (x : Section) : List (Nat × Nat) :=
  let ws := x.words
  (List.range (ws.length / 2)).map (fun k => ((ws.getD (2 * k) 0).toNat, (ws.getD (2 * k + 1) 0).toNat))

/-- The Hearth code of an image: destination and bytes of each type-1 section (R396, R464). -/
def imageCode (base : Nat) (img : List Byte) : List (Nat × List Byte) :=
  (((imageSections base img).filterMap id).filter (fun x => x.kind = 1)).map (fun (x : Section) => (x.dest, x.data))

/-- The configuration lists of an image. -/
def imageLists (base : Nat) (img : List Byte) : List (List (Nat × Nat)) := (((imageSections base img).filterMap id).filter (fun x => x.kind = 2)).map listEntries

/-! ### The read pass (R397, R398, R463, R464) -/

/-- Bring-up stops with BOOTFAIL: QUENCH_N is held low (R397). -/
def State.bootFail (s : State) : State :=
  ({ s with sys := { s.sys with quenchPin := true } }.setFlag Fld.SYS_STAT_BOOTFAIL 0 true).stage 15

/-- IMAGE_FAIL: the on-chip destinations that the pass wrote are cleared, and the secondary image at flash offset 0x0100_0000 is tried or the boot fails
(R395, R397, R464). -/
def State.imageFail (s : State) (img : List Byte) : State :=
  let wrote := if headerOk img then loadSections s.boot.flashAt img false else []
  let s1 := wrote.foldl (fun s x => s.clearWords x.dest x.words) s
  let pages := [0x10014, 0x4000C].filter (fun a => wrote.any (fun x => x.dest ≤ a && a < x.dest + 4 * x.words.length))
  let s2 := pages.foldl (fun s a => s.busWrite .hearth a 0) { s1 with boot := { s1.boot with code := [] } }
  if (s.bootSrc = 1 || s.bootSrc = 3) && !s.flag Fld.SYS_BOOTSTAGE_SECONDARY 0 then
    { s2 with boot := { s2.boot with flashAt := 0x1000000, reads := [(0x6C, 0x1000000), (0x03, 0x1000000)] ++ s2.boot.reads } }.setFlag Fld.SYS_BOOTSTAGE_SECONDARY 0 true
  else s2.bootFail

/-- MEM_GEOM is written from the first configuration list before training (R463). -/
def State.geomFirst (s : State) (lists : List (List (Nat × Nat))) : State :=
  match (lists.headD []).find? (fun e => e.1 = 0x90004) with
  | some e => (s.plainWrite .hearth 0x90004 (BitVec.ofNat 32 e.2)).commitAll [9]
  | none => s

/-- An image has passed: its on-chip loads stand, its lists and DRAM loads wait for APPLY, and Hearth starts (R463, R464). -/
def State.imagePass (s : State) (img : List Byte) : State :=
  let base := s.boot.flashAt
  let s1 := (loadSections base img false).foldl (fun s x => s.loadWords x.dest x.words) s
  let lists := imageLists base img
  let s2 := { s1 with
    boot := ⟨lists.flatten, (loadSections base img true).map (fun (x : Section) => (x.dest, x.data)), [], [], true, false, imageCode base img, base, s1.boot.reads⟩
    sys := { s1.sys with hearth := true } }
  (s2.stage 3).geomFirst lists

/-- The pass over an image ends (R464). -/
def State.verify (s : State) (img : List Byte) : State :=
  let im := img.take (imageGet img 8 4)
  if s.fixed.imageOk s.boot.flashAt img then s.imagePass im else s.imageFail im

/-- BOOT_VERIFY_DONE: the image that the flash held (R464). -/
def execBootVerifyDone (t : Nat) (image : List Byte) (s : State) : Out :=
  clocked t s (fun s => s.only (s.fld Fld.SYS_BOOTSTAGE_STAGE 0 = 2 && s.bootSrc ≠ 2) (fun s => s.verify image))

/-- The staging window's bytes (R398). -/
def State.stageBytes (s : State) : List Byte := (List.range 8192).flatMap (fun k => leBytes 4 (sget (0 : Word) s.boot.stage k).toNat)

/-- NET_BOOTCTL.READY: the chunk at the offset asked for is taken; the next one is asked for, or the whole image is checked (R398). -/
def State.chunkReady (s : State) : State :=
  let img := s.boot.stream ++ s.stageBytes
  if headerOk img && decide (img.length < imageGet img 8 4) then
    { s with boot := { s.boot with stream := img } }.setFld Fld.NET_BOOTREQ_OFFSET 0 img.length
  else ({ s with boot := { s.boot with stage := [], stream := [] } }.setFlag Fld.NET_STAT_BOOTWAIT 0 false).verify img

/-- A chunk that has been declared ready is taken. -/
def State.takeChunk (s : State) : State := s.only s.boot.ready (fun s => ({ s with boot := { s.boot with ready := false } }).chunkReady)

/-- A write of one word on the control bus (R391, R398). -/
def State.write (s : State) (src : Source) (a : Nat) (val : Word) : State := (s.busWrite src a val).takeChunk

/-- BOOT_CHUNK_READY (R398). -/
def execBootChunkReady (t : Nat) (src : Source) (s : State) : Out := ticking t s (fun s => s.write src Fld.NET_BOOTCTL_READY.addr 1)

/-- REGISTER_WRITE: a write of one word at any address of the control bus, with the effect that the address's rule gives it (R431 to R439). -/
def execRegisterWrite (t : Nat) (src : Source) (addr val : Word) (s : State) : Out := ticking t s (fun s => s.write src addr.toNat val)

/-! ### Training and APPLY (R320, R321, R463) -/

/-- TRAINING_DONE: the step that each channel has failed after its repeats, if any, the VrefDQ settings reached and the die temperature. READY sets, or bring-up stops
(R302, R320, R321, R329, R463). -/
def execTrainingDone (t : Nat) (fail0 fail1 : Option Nat) (vrefdq : List Nat) (temp : Nat) (s : State) : Out :=
  clocked t s (fun s => s.only (s.sys.hearth && s.fld Fld.SYS_BOOTSTAGE_STAGE 0 = 3 && (!s.misfit || (fail0.isSome && fail1.isSome))) (fun s =>
    let bad (c : Nat) (f : Option Nat) (s : State) : State := match f with
      | some k => s.trainFail c k
      | none => s.trained c vrefdq
    if fail0.isNone && fail1.isNone then ((s.memReady vrefdq temp).payloadsDue.sendHeld).stage 4 else (bad 1 fail1 (bad 0 fail0 s)).stage 15))

/-- One entry of a configuration list: with address bit 0 set, a guarded pair (R396). -/
def State.listEntry (s : State) (e : Nat × Nat) : State :=
  let v := BitVec.ofNat 32 e.2
  if e.1 % 2 = 1 then (s.busWrite .hearth (e.1 - 1) v).busWrite .hearth (e.1 - 1 + 0x800) (~~~ v) else s.busWrite .hearth e.1 v

/-- BOOT_APPLY_DONE: the lists are applied in image order and the DRAM loads written; READY (R463, R464). -/
def execBootApplyDone (t : Nat) (s : State) : Out :=
  clocked t s (fun s => s.only (s.sys.hearth && s.fld Fld.SYS_BOOTSTAGE_STAGE 0 = 4) (fun s =>
    let s1 := s.boot.lists.foldl State.listEntry s
    let s2 := s.boot.loads.foldl (fun s x => s.loadWords x.1 (wordsOf (x.2.length / 4 + 1) x.2)) s1
    { s2 with boot := { s2.boot with lists := [], loads := [] } }.hearthUp))

end Sys2Proof.Machine
end

