-- ==== Sys2Proof/Machine/HostPort.lean ====
section
/-!
DEFINITION. The host's ports: SPI frames, management frames, and the acceptance that a management SUBMIT waits for
(spec 15_network_and_host R388 to R394; 13_queues_and_delivery R339).
Points that the spec leaves open or that are read from it by inference: DEDUCED 47, 48, 40 of the assumption log.
-/

namespace Sys2Proof.Machine

/-! ### SPI frames (R388 to R390) -/

/-- The 12 bits of NET_SPI_STATUS. -/
def State.spiStatus (s : State) : Nat := s.fld Fld.NET_SPI_STATUS_STATUS 0

/-- NET_SPI_STATUS takes its fields: bits [5:0] of the last read, OK and CRCERR of the last write, ABORT, BADCMD of the last write (R389). -/
def State.setSpi (s : State) (read write : Nat) (abort badWrite : Bool) : State :=
  s.setFld Fld.NET_SPI_STATUS_STATUS 0 (read % 64 + 256 * (write % 4) + 1024 * b2n abort + 2048 * b2n badWrite)

/-- An SPI frame with a fault counts (R389). -/
def State.spiErr (s : State) (c : Bool) : State := s.only c (fun s => s.count Fld.NET_SPI_ERR_CNT 0 1)

/-- The address of a frame: the four bytes after the command. -/
def spiAddr (f : List Byte) : Nat := beNat ((f.drop 1).take 4)

/-- The LEN byte of a frame. -/
def spiLen (f : List Byte) : Nat := beNat ((f.drop 5).take 1)

/-- A frame whose address is not a multiple of 4 or whose LEN exceeds 63 is refused whole (R388). -/
def spiBad (f : List Byte) : Bool := decide (6 ≤ f.length) && (decide (spiAddr f % 4 ≠ 0) || decide (63 < spiLen f))

/-- The words of a burst that stay within the 64 KiB window of its address (R388). -/
def burstWords (a len : Nat) : Nat := min (len + 1) ((0x10000 - a % 0x10000) / 4)

/-- Big-endian words of a frame. -/
def beWords : Nat → List Byte → List Word
  | 0, _ => []
  | n + 1, bs => BitVec.ofNat 32 (beNat (bs.take 4)) :: beWords n (bs.drop 4)

/-- A burst's writes, one word after another; true when an aperture access of it is refused (R388, R392). -/
def State.spiBurst (s : State) (a : Nat) : List Word → State × Bool
  | [] => (s, false)
  | w :: ws =>
    let no := isAperture a && (s.apertureWrite a w).2
    let r := (s.write .spi a w).spiBurst (a + 4) ws
    (r.1, no || r.2)

/-- A 0x02 frame: applied when its length, its address and its CRC are right; every fault sets its bit and the frame counts once (R388, R389). -/
def State.spiWrite (s : State) (f : List Byte) : State :=
  let n := f.length
  let bad := spiBad f
  let abort := decide (n < 6) || decide (n ≠ 7 + 4 * (spiLen f + 1))
  if bad || abort then (s.setSpi s.spiStatus 0 abort bad).spiErr true
  else if crc8 (f.take (n - 1)) ≠ beNat (f.drop (n - 1)) then (s.setSpi s.spiStatus 2 false false).spiErr true
  else
    let r := (s.setSpi s.spiStatus 1 false false).spiBurst (spiAddr f) (beWords (burstWords (spiAddr f) (spiLen f)) (f.drop 6))
    if r.2 then r.1.setFld Fld.NET_SPI_STATUS_STATUS 0 (setBit r.1.spiStatus 3 true) else r.1

/-- SPI_WRITE (R389). -/
def execSpiWrite (t : Nat) (bytes : List Byte) (s : State) : Out := ticking t s (fun s => s.only (beNat (bytes.take 1) = 2) (fun s => s.spiWrite bytes))

/-- The words of a host's read, latched one after another; true when an aperture access of it is refused or delivers poisoned data (R320, R324, R390, R392). After a boot
failure nothing but SYS and NET is read (R397). -/
def State.latch (s : State) (src : Source) (a : Nat) : Nat → State × List Word × Bool
  | 0 => (s, [], false)
  | n + 1 =>
    let r := if isAperture a && !s.bootDead then s.apertureRead a else ((s.busRead src a).1, (s.busRead src a).2, false)
    let rs := r.1.latch src (a + 4) n
    (rs.1, r.2.1 :: rs.2.1, r.2.2 || rs.2.2)

/-- The dummy bytes of a read (R388). -/
def State.spiDummy (s : State) (a : Nat) : Nat := if isAperture a then s.fld Fld.NET_SPI_CFG_APDUMMY 0 + 1 else 1

/-- A read at its last dummy byte: the status byte and the words. A refused read, one whose CRC fails, and an aperture read whose data is late read nothing
(R389, R390). -/
def State.spiFetch (s : State) (f : List Byte) (late : Bool) : State × Nat × List Word :=
  let a := spiAddr f
  if spiBad f then (s, 32, [])
  else if crc8 (f.take 6) ≠ beNat ((f.drop 6).take 1) then (s, 2, [])
  else
    let k := burstWords a (spiLen f)
    let cut := 16 * b2n (decide (k < spiLen f + 1))
    if isAperture a && late && s.flag Fld.MEM_STAT_READY 0 then (s, 4 + cut, [])
    else
      let r := s.latch .spi a k
      (r.1, (if r.2.2 then 8 else 1) + cut, r.2.1)

/-- Bytes padded with zeros to a length. -/
def padTo (n : Nat) (bs : List Byte) : List Byte := (bs ++ List.replicate n 0).take n

/-- The bytes that a read sends after its dummy bytes: status, data, CRC-8 (R388). -/
def spiAnswer (status len : Nat) (ws : List Word) : List Byte :=
  let b := beBytes 1 status ++ padTo (4 * (len + 1)) (ws.flatMap (fun w => beBytes 4 w.toNat))
  b ++ beBytes 1 (crc8 b)

/-- A 0x0B frame of `n` bytes: latched when its dummy bytes are over; a frame that ends at another length than LEN's sets ABORT (R388 to R390). -/
def State.spiRead (s : State) (f : List Byte) (late : Bool) : State :=
  let n := f.length
  let head := 7 + s.spiDummy (spiAddr f)
  let abort := decide (n < 7) || decide (n ≠ head + 2 + 4 * (spiLen f + 1))
  if n < head then
    let write := s.spiStatus / 256
    { (s.setSpi s.spiStatus write true (bit s.spiStatus 11)).spiErr true with resp := [] }
  else
    let r := s.spiFetch f late
    let st := r.1.spiStatus
    { (r.1.setSpi r.2.1 (st / 256) abort (bit st 11)).spiErr (abort || bit r.2.1 1 || bit r.2.1 5) with
      resp := (spiAnswer r.2.1 (spiLen f) r.2.2).take (n - head) }

/-- SPI_READ: `late` says whether an aperture read's data reaches the port after the first data byte (R390). -/
def execSpiRead (t : Nat) (bytes : List Byte) (late : Bool) (s : State) : Out :=
  ticking t s (fun s => s.only (beNat (bytes.take 1) = 11) (fun s => s.spiRead bytes late))

/-- SPI_STATUS: NET_SPI_STATUS and its CRC; the frame has its right length, so ABORT clears (R388, R389). -/
def execSpiStatus (t : Nat) (s : State) : Out :=
  ticking t s (fun s =>
    let b := beBytes 2 s.spiStatus
    { s.setFld Fld.NET_SPI_STATUS_STATUS 0 (setBit s.spiStatus 10 false) with resp := b ++ beBytes 1 (crc8 b) })

/-- SPI_UNKNOWN_COMMAND: ignored to the end of the frame (R389). -/
def execSpiUnknownCommand (t : Nat) (_bytes : List Byte) (s : State) : Out := ticking t s (fun s => s)

/-! ### Management frames (R393, R394) -/

/-- The body of a management frame. -/
def mgmtBody (f : List Byte) : List Byte := (f.drop 44).take (imgGet f 42 2)

/-- The counter's seconds lie within NET_MGMT.WINDOW s of the PTP clock, where PTPLOCK is set (R394). -/
def State.mgmtTimely (s : State) (ctr : Nat) : Bool :=
  !s.flag Fld.NET_STAT_PTPLOCK 0
    || decide (((ctr / 2 ^ 32 : Nat) : Int) - s.ptpSec ≤ s.fld Fld.NET_MGMT_WINDOW 0 ∧ (s.ptpSec : Int) - (ctr / 2 ^ 32 : Nat) ≤ s.fld Fld.NET_MGMT_WINDOW 0)

/-- A management frame is accepted (R394). -/
def State.mgmtOk (s : State) (f : List Byte) : Bool :=
  s.flag Fld.NET_MGMT_EN 0 && decide (44 + imgGet f 42 2 + 20 = f.length)
    && decide ((f.drop (f.length - 20)).take 16 = (hmacSha256 s.fixed.key (f.take (f.length - 20))).take 16)
    && decide (s.pwr.mgmtCtr < imgGet f 32 8) && s.mgmtTimely (imgGet f 32 8)

/-- READ: address and count 1 to 64. The words follow; an aperture word that is refused or poisoned gives them an error status, for which the only failing result of a READ
stands (DEDUCED 48) (R324, R393, R394). -/
def State.mgmtRead (s : State) (c : Client) (b : List Byte) : State :=
  let a := leNat (b.take 4)
  let k := leNat (b.drop 4)
  if 5 ≤ b.length && b.length ≤ 8 && 1 ≤ k && k ≤ 64 && a % 4 = 0 then
    let r := s.latch .mgmt a k
    r.1.mgmtAnswer c 1 (if r.2.2 then 7 else 0) (r.2.1.flatMap (fun w => leBytes 4 w.toNat))
  else s.mgmtAnswer c 1 7 []

/-- The pairs of a WRITE. -/
def mgmtPairs : Nat → List Byte → List (Nat × Word)
  | 0, _ => []
  | n + 1, bs => (leNat (bs.take 4), BitVec.ofNat 32 (leNat ((bs.drop 4).take 4))) :: mgmtPairs n (bs.drop 8)

/-- WRITE: 1 to 32 pairs of address and value, in order as one unit (R391, R393). -/
def State.mgmtWrite (s : State) (c : Client) (b : List Byte) : State :=
  let ps := mgmtPairs (b.length / 8) b
  if b.length % 8 = 0 && 1 ≤ ps.length && ps.length ≤ 32 && ps.all (fun p => p.1 % 4 = 0) then
    ((s.busUnit .mgmt ps).takeChunk).mgmtAnswer c 2 0 []
  else s.mgmtAnswer c 2 7 []

/-- SUBMIT: queue, three zero bytes and a descriptor, as a host producer; during a warm reset it waits for the rebuild (R344, R393). -/
def State.mgmtSubmit (s : State) (c : Client) (b : List Byte) : State :=
  let q := leNat (b.take 1)
  let img := (b.drop 4).take 64
  if b.length = 68 && q < 64 && leNat ((b.drop 1).take 3) = 0 then
    if s.inReset then s.waitRebuild q c.producer img else s.frameSubmit c q img
  else s.mgmtAnswer c 3 7 []

/-- What an accepted frame asks for, by its opcode; an opcode that R393 does not list has a bad body (R393, R394). -/
def State.mgmtRun (s : State) (c : Client) (op : Nat) (b : List Byte) : State :=
  match op with
  | 1 => s.mgmtRead c b
  | 2 => s.mgmtWrite c b
  | 3 => s.mgmtSubmit c b
  | _ => s.mgmtAnswer c op 7 []

/-- A management frame arrives: a frame that R394 rejects gets no response and counts; an accepted one moves the counter kept in the always-on domain. UDP to the device that is
neither such a frame nor an ACK is dropped, and after a boot failure none is answered (R381, R382, R394, R397). -/
def State.mgmt (s : State) (n : Nat) (vid : Option Nat) (smac sip sport : Nat) (f : List Byte) : State :=
  s.only (!s.bootDead) (fun s => s.receive n vid (fun s =>
    if !mgmtForm f then s.only (!ackForm f) State.rxDrop
    else if s.mgmtOk f then
      let s1 := { s with pwr := { s.pwr with mgmtCtr := imgGet f 32 8 } }.count Fld.NET_MGMT_OK_CNT 0 1
      s1.mgmtRun ⟨n, smac, sip, sport, imgGet f 32 8⟩ (imgGet f 40 2) (mgmtBody f)
    else s.count Fld.NET_MGMT_REJ_CNT 0 1))

/-- MGMT_READ: the frame's own opcode says what it asks for (R393, R394). -/
def execMgmtRead (t : Nat) (n : Nat) (vid : Option Nat) (smac sip sport : Nat) (frame : List Byte) (s : State) : Out :=
  ticking t s (fun s => s.mgmt n vid smac sip sport frame)

/-- MGMT_WRITE: the frame's own opcode says what it asks for (R393, R394). -/
def execMgmtWrite (t : Nat) (n : Nat) (vid : Option Nat) (smac sip sport : Nat) (frame : List Byte) (s : State) : Out :=
  ticking t s (fun s => s.mgmt n vid smac sip sport frame)

/-- MGMT_SUBMIT: the frame's own opcode says what it asks for (R393, R394). -/
def execMgmtSubmit (t : Nat) (n : Nat) (vid : Option Nat) (smac sip sport : Nat) (frame : List Byte) (s : State) : Out :=
  ticking t s (fun s => s.mgmt n vid smac sip sport frame)

/-- The oldest submission of a queue is accepted and answered. -/
def State.acceptHead (s : State) (q : Nat) : State :=
  match (s.queue q).inflight with
  | f :: _ => (s.accept q).acceptAnswer f.seq f.prod
  | [] => s

/-- Management submissions that lost their turn are answered (R338, R394). -/
def State.answerTurned (s : State) : State :=
  s.que.turned.foldl (fun s x =>
    match x.1 with
    | .mgmt port mac ip udp ctr => s.mgmtAnswer ⟨port, mac, ip, udp, ctr⟩ 3 x.2.1 (if x.2.1 = resDup then leBytes 4 x.2.2 else [])
    | _ => s) { s with que := { s.que with turned := [] } }

/-- No journal write waits at MP6 (R320, R339). -/
def State.journalIn (s : State) : Bool := !s.memc.waiting.any (fun r => r.write && decide (r.port = 6))

/-- QUEUE_ACCEPT: the journal writes of the oldest submission, and the mirror's confirmation where one is due, are complete; submissions that lost their turn are answered
(R338, R339). -/
def execQueueAccept (t : Nat) (q : Nat) (s : State) : Out :=
  clocked t s (fun s => (s.only (q < 64 && s.mirrorReady && s.journalIn) (fun s => s.acceptHead q)).answerTurned)

end Sys2Proof.Machine
end

