-- ==== Sys2Proof/Machine/Dispatch.lean ====
section
/-!
DEFINITION. Dispatch: one arm for each command.
-/

namespace Sys2Proof.Machine

def exec (i : Instr) (s : State) : Host.Outcome State Fault Refusal :=
  match i with
  | .registerWrite t src addr val => Sys2Proof.Machine.execRegisterWrite t src addr val s
  | .guardedFirstWrite t src addr val => Sys2Proof.Machine.execGuardedFirstWrite t src addr val s
  | .guardedComplementWrite t src addr val => Sys2Proof.Machine.execGuardedComplementWrite t src addr val s
  | .guardTimeout t win => Sys2Proof.Machine.execGuardTimeout t win s
  | .commit t src mask => Sys2Proof.Machine.execCommit t src mask s
  | .snapshot t src => Sys2Proof.Machine.execSnapshot t src s
  | .rcRead t src addr => Sys2Proof.Machine.execRcRead t src addr s
  | .uptimeLoRead t src => Sys2Proof.Machine.execUptimeLoRead t src s
  | .sysRun t src => Sys2Proof.Machine.execSysRun t src s
  | .warmReset t src => Sys2Proof.Machine.execWarmReset t src s
  | .legacySelect t src on => Sys2Proof.Machine.execLegacySelect t src on s
  | .expertEnable t src => Sys2Proof.Machine.execExpertEnable t src s
  | .expertDisable t src => Sys2Proof.Machine.execExpertDisable t src s
  | .crcRefWrite t src ref => Sys2Proof.Machine.execCrcRefWrite t src ref s
  | .crcPassEnd t => Sys2Proof.Machine.execCrcPassEnd t s
  | .crcHoldEnd t => Sys2Proof.Machine.execCrcHoldEnd t s
  | .hibernate t src wakeHigh => Sys2Proof.Machine.execHibernate t src wakeHigh s
  | .wake t highUs mvA mvB => Sys2Proof.Machine.execWake t highUs mvA mvB s
  | .vaonApply t mvA mvB => Sys2Proof.Machine.execVaonApply t mvA mvB s
  | .coldReset t => Sys2Proof.Machine.execColdReset t s
  | .resetRelease t straps => Sys2Proof.Machine.execResetRelease t straps s
  | .railOutOfTolerance t rail ns => Sys2Proof.Machine.execRailOutOfTolerance t rail ns s
  | .pllLock t => Sys2Proof.Machine.execPllLock t s
  | .clockMonitorCheck t ppm lossOfLock => Sys2Proof.Machine.execClockMonitorCheck t ppm lossOfLock s
  | .watchdogRefresh t => Sys2Proof.Machine.execWatchdogRefresh t s
  | .watchdogExpiry t => Sys2Proof.Machine.execWatchdogExpiry t s
  | .lockstepMismatch t => Sys2Proof.Machine.execLockstepMismatch t s
  | .hearthRestartDone t => Sys2Proof.Machine.execHearthRestartDone t s
  | .warmResetHoldEnd t imageOk => Sys2Proof.Machine.execWarmResetHoldEnd t imageOk s
  | .bootVerifyDone t image => Sys2Proof.Machine.execBootVerifyDone t image s
  | .trainingDone t fail0 fail1 vrefdq temp => Sys2Proof.Machine.execTrainingDone t fail0 fail1 vrefdq temp s
  | .bootApplyDone t => Sys2Proof.Machine.execBootApplyDone t s
  | .bootChunkReady t src => Sys2Proof.Machine.execBootChunkReady t src s
  | .emitEnable t src mask => Sys2Proof.Machine.execEmitEnable t src mask s
  | .emitDisable t src mask => Sys2Proof.Machine.execEmitDisable t src mask s
  | .qforce t src => Sys2Proof.Machine.execQforce t src s
  | .quenchClear t src => Sys2Proof.Machine.execQuenchClear t src s
  | .qclrCheckEnd t => Sys2Proof.Machine.execQclrCheckEnd t s
  | .stringSample t samples => Sys2Proof.Machine.execStringSample t samples s
  | .overcurrent t n b i1 i2 => Sys2Proof.Machine.execOvercurrent t n b i1 i2 s
  | .monitorWindowEnd t averages => Sys2Proof.Machine.execMonitorWindowEnd t averages s
  | .apcUpdate t n => Sys2Proof.Machine.execApcUpdate t n s
  | .decayCheck t n ia ib => Sys2Proof.Machine.execDecayCheck t n ia ib s
  | .interlockChange t high held => Sys2Proof.Machine.execInterlockChange t high held s
  | .stringARampDone t n => Sys2Proof.Machine.execStringARampDone t n s
  | .chirpTableWrite t src addr val => Sys2Proof.Machine.execChirpTableWrite t src addr val s
  | .tableCopybackDone t n => Sys2Proof.Machine.execTableCopybackDone t n s
  | .launchRelease t n => Sys2Proof.Machine.execLaunchRelease t n s
  | .boosterLead t n => Sys2Proof.Machine.execBoosterLead t n s
  | .boosterPulseStart t n ua => Sys2Proof.Machine.execBoosterPulseStart t n ua s
  | .boosterPulseEnd t n => Sys2Proof.Machine.execBoosterPulseEnd t n s
  | .boosterTailEnd t n => Sys2Proof.Machine.execBoosterTailEnd t n s
  | .rangeStepDecide t c codes => Sys2Proof.Machine.execRangeStepDecide t c codes s
  | .overloadRise t c codes => Sys2Proof.Machine.execOverloadRise t c codes s
  | .rangeStepApply t c => Sys2Proof.Machine.execRangeStepApply t c s
  | .scheduleEntryStart t c => Sys2Proof.Machine.execScheduleEntryStart t c s
  | .blankWindowStart t n => Sys2Proof.Machine.execBlankWindowStart t n s
  | .blankWindowEnd t n => Sys2Proof.Machine.execBlankWindowEnd t n s
  | .cmWindowEnd t c ip im => Sys2Proof.Machine.execCmWindowEnd t c ip im s
  | .scheduleTableWrite t src addr val => Sys2Proof.Machine.execScheduleTableWrite t src addr val s
  | .hscCalibrate t src => Sys2Proof.Machine.execHscCalibrate t src s
  | .hscCalDone t ttrim slices => Sys2Proof.Machine.execHscCalDone t ttrim slices s
  | .hscRotate t src mask => Sys2Proof.Machine.execHscRotate t src mask s
  | .rotationStart t c => Sys2Proof.Machine.execRotationStart t c s
  | .trimPhaseEnd t c => Sys2Proof.Machine.execTrimPhaseEnd t c s
  | .shadow0End t c sh => Sys2Proof.Machine.execShadow0End t c sh s
  | .shadow1End t c sh => Sys2Proof.Machine.execShadow1End t c sh s
  | .estimationDone t c tone => Sys2Proof.Machine.execEstimationDone t c tone s
  | .sliceSwap t c => Sys2Proof.Machine.execSliceSwap t c s
  | .sliceCheckWindow t c seen pair => Sys2Proof.Machine.execSliceCheckWindow t c seen pair s
  | .sliceDiagEnd t c pos0 pos1 => Sys2Proof.Machine.execSliceDiagEnd t c pos0 pos1 s
  | .trimSweepStart t temp => Sys2Proof.Machine.execTrimSweepStart t temp s
  | .hscManWrite t src c val => Sys2Proof.Machine.execHscManWrite t src c val s
  | .spectrumWrite t src addr val => Sys2Proof.Machine.execSpectrumWrite t src addr val s
  | .mfConversionDone t unit => Sys2Proof.Machine.execMfConversionDone t unit s
  | .pathBoundary t n => Sys2Proof.Machine.execPathBoundary t n s
  | .ddcOutput t c b k0 k1 k2 => Sys2Proof.Machine.execDdcOutput t c b k0 k1 k2 s
  | .phaseSample t n b => Sys2Proof.Machine.execPhaseSample t n b s
  | .blockClose t n => Sys2Proof.Machine.execBlockClose t n s
  | .traceEndEval t n => Sys2Proof.Machine.execTraceEndEval t n s
  | .pointStateEcc t n pt => Sys2Proof.Machine.execPointStateEcc t n pt s
  | .engineRun t src e => Sys2Proof.Machine.execEngineRun t src e s
  | .engineHaltRequest t src e => Sys2Proof.Machine.execEngineHaltRequest t src e s
  | .engineHalt t e => Sys2Proof.Machine.execEngineHalt t e s
  | .engineStep t src e => Sys2Proof.Machine.execEngineStep t src e s
  | .engineReset t src e => Sys2Proof.Machine.execEngineReset t src e s
  | .engineClrerr t src e => Sys2Proof.Machine.execEngineClrerr t src e s
  | .imemWrite t src addr val => Sys2Proof.Machine.execImemWrite t src addr val s
  | .dmemHostAccess t src addr val write => Sys2Proof.Machine.execDmemHostAccess t src addr val write s
  | .dmaComplete t e c => Sys2Proof.Machine.execDmaComplete t e c s
  | .tachEdge t k level lost => Sys2Proof.Machine.execTachEdge t k level lost s
  | .tachTimeout t k => Sys2Proof.Machine.execTachTimeout t k s
  | .add t e => Sys2Proof.Machine.execAdd t e s
  | .sub t e => Sys2Proof.Machine.execSub t e s
  | .and t e => Sys2Proof.Machine.execAnd t e s
  | .or t e => Sys2Proof.Machine.execOr t e s
  | .xor t e => Sys2Proof.Machine.execXor t e s
  | .shl t e => Sys2Proof.Machine.execShl t e s
  | .shr t e => Sys2Proof.Machine.execShr t e s
  | .sar t e => Sys2Proof.Machine.execSar t e s
  | .min t e => Sys2Proof.Machine.execMin t e s
  | .max t e => Sys2Proof.Machine.execMax t e s
  | .minu t e => Sys2Proof.Machine.execMinu t e s
  | .maxu t e => Sys2Proof.Machine.execMaxu t e s
  | .mul t e => Sys2Proof.Machine.execMul t e s
  | .mulh t e => Sys2Proof.Machine.execMulh t e s
  | .slt t e => Sys2Proof.Machine.execSlt t e s
  | .sltu t e => Sys2Proof.Machine.execSltu t e s
  | .cls t e => Sys2Proof.Machine.execCls t e s
  | .clz t e => Sys2Proof.Machine.execClz t e s
  | .addi t e => Sys2Proof.Machine.execAddi t e s
  | .subi t e => Sys2Proof.Machine.execSubi t e s
  | .andi t e => Sys2Proof.Machine.execAndi t e s
  | .ori t e => Sys2Proof.Machine.execOri t e s
  | .xori t e => Sys2Proof.Machine.execXori t e s
  | .shli t e => Sys2Proof.Machine.execShli t e s
  | .shri t e => Sys2Proof.Machine.execShri t e s
  | .sari t e => Sys2Proof.Machine.execSari t e s
  | .mini t e => Sys2Proof.Machine.execMini t e s
  | .maxi t e => Sys2Proof.Machine.execMaxi t e s
  | .minui t e => Sys2Proof.Machine.execMinui t e s
  | .maxui t e => Sys2Proof.Machine.execMaxui t e s
  | .muli t e => Sys2Proof.Machine.execMuli t e s
  | .mulhi t e => Sys2Proof.Machine.execMulhi t e s
  | .slti t e => Sys2Proof.Machine.execSlti t e s
  | .sltui t e => Sys2Proof.Machine.execSltui t e s
  | .clsi t e => Sys2Proof.Machine.execClsi t e s
  | .clzi t e => Sys2Proof.Machine.execClzi t e s
  | .sld t e => Sys2Proof.Machine.execSld t e s
  | .sldh t e => Sys2Proof.Machine.execSldh t e s
  | .sst t e => Sys2Proof.Machine.execSst t e s
  | .ssth t e => Sys2Proof.Machine.execSsth t e s
  | .pset t e => Sys2Proof.Machine.execPset t e s
  | .pseti t e => Sys2Proof.Machine.execPseti t e s
  | .pget t e => Sys2Proof.Machine.execPget t e s
  | .pmod t e => Sys2Proof.Machine.execPmod t e s
  | .pstep t e => Sys2Proof.Machine.execPstep t e s
  | .vadd t e => Sys2Proof.Machine.execVadd t e s
  | .vsub t e => Sys2Proof.Machine.execVsub t e s
  | .vaddh t e => Sys2Proof.Machine.execVaddh t e s
  | .vsubh t e => Sys2Proof.Machine.execVsubh t e s
  | .vand t e => Sys2Proof.Machine.execVand t e s
  | .vor t e => Sys2Proof.Machine.execVor t e s
  | .vxor t e => Sys2Proof.Machine.execVxor t e s
  | .vmin t e => Sys2Proof.Machine.execVmin t e s
  | .vmax t e => Sys2Proof.Machine.execVmax t e s
  | .vminh t e => Sys2Proof.Machine.execVminh t e s
  | .vmaxh t e => Sys2Proof.Machine.execVmaxh t e s
  | .vabs t e => Sys2Proof.Machine.execVabs t e s
  | .vabsh t e => Sys2Proof.Machine.execVabsh t e s
  | .vshl t e => Sys2Proof.Machine.execVshl t e s
  | .vsar t e => Sys2Proof.Machine.execVsar t e s
  | .vsarh t e => Sys2Proof.Machine.execVsarh t e s
  | .vmov t e => Sys2Proof.Machine.execVmov t e s
  | .vbcst t e => Sys2Proof.Machine.execVbcst t e s
  | .vbcsth t e => Sys2Proof.Machine.execVbcsth t e s
  | .vsel t e => Sys2Proof.Machine.execVsel t e s
  | .vswaph t e => Sys2Proof.Machine.execVswaph t e s
  | .vext t e => Sys2Proof.Machine.execVext t e s
  | .vmulh t e => Sys2Proof.Machine.execVmulh t e s
  | .vmulhb t e => Sys2Proof.Machine.execVmulhb t e s
  | .vmulw t e => Sys2Proof.Machine.execVmulw t e s
  | .vmuli t e => Sys2Proof.Machine.execVmuli t e s
  | .vmac2 t e => Sys2Proof.Machine.execVmac2 t e s
  | .vmsu2 t e => Sys2Proof.Machine.execVmsu2 t e s
  | .vmul2 t e => Sys2Proof.Machine.execVmul2 t e s
  | .vmacp t e => Sys2Proof.Machine.execVmacp t e s
  | .vmsup t e => Sys2Proof.Machine.execVmsup t e s
  | .vmulp t e => Sys2Proof.Machine.execVmulp t e s
  | .vmac2Mem t e => Sys2Proof.Machine.execVmac2Mem t e s
  | .vmsu2Mem t e => Sys2Proof.Machine.execVmsu2Mem t e s
  | .vmul2Mem t e => Sys2Proof.Machine.execVmul2Mem t e s
  | .vmacpMem t e => Sys2Proof.Machine.execVmacpMem t e s
  | .vmsupMem t e => Sys2Proof.Machine.execVmsupMem t e s
  | .vmulpMem t e => Sys2Proof.Machine.execVmulpMem t e s
  | .aclr t e => Sys2Proof.Machine.execAclr t e s
  | .amov t e => Sys2Proof.Machine.execAmov t e s
  | .aadd t e => Sys2Proof.Machine.execAadd t e s
  | .vpack t e => Sys2Proof.Machine.execVpack t e s
  | .vnarw t e => Sys2Proof.Machine.execVnarw t e s
  | .ared t e => Sys2Proof.Machine.execAred t e s
  | .cmul t e => Sys2Proof.Machine.execCmul t e s
  | .cmulc t e => Sys2Proof.Machine.execCmulc t e s
  | .cmac t e => Sys2Proof.Machine.execCmac t e s
  | .cmacc t e => Sys2Proof.Machine.execCmacc t e s
  | .cmag2 t e => Sys2Proof.Machine.execCmag2 t e s
  | .cmag2a t e => Sys2Proof.Machine.execCmag2a t e s
  | .cconj t e => Sys2Proof.Machine.execCconj t e s
  | .cbflym t e => Sys2Proof.Machine.execCbflym t e s
  | .cbflymc t e => Sys2Proof.Machine.execCbflymc t e s
  | .vcmpeq t e => Sys2Proof.Machine.execVcmpeq t e s
  | .vcmpne t e => Sys2Proof.Machine.execVcmpne t e s
  | .vcmplt t e => Sys2Proof.Machine.execVcmplt t e s
  | .vcmple t e => Sys2Proof.Machine.execVcmple t e s
  | .vcmpgt t e => Sys2Proof.Machine.execVcmpgt t e s
  | .vcmpge t e => Sys2Proof.Machine.execVcmpge t e s
  | .vtinv t e => Sys2Proof.Machine.execVtinv t e s
  | .kand t e => Sys2Proof.Machine.execKand t e s
  | .kor t e => Sys2Proof.Machine.execKor t e s
  | .kxor t e => Sys2Proof.Machine.execKxor t e s
  | .kandn t e => Sys2Proof.Machine.execKandn t e s
  | .knot t e => Sys2Proof.Machine.execKnot t e s
  | .kfrom t e => Sys2Proof.Machine.execKfrom t e s
  | .kto t e => Sys2Proof.Machine.execKto t e s
  | .kpop t e => Sys2Proof.Machine.execKpop t e s
  | .vld t e => Sys2Proof.Machine.execVld t e s
  | .vst t e => Sys2Proof.Machine.execVst t e s
  | .vldbH t e => Sys2Proof.Machine.execVldbH t e s
  | .vldbW t e => Sys2Proof.Machine.execVldbW t e s
  | .dmast t e => Sys2Proof.Machine.execDmast t e s
  | .dmawt t e => Sys2Proof.Machine.execDmawt t e s
  | .dmard t e => Sys2Proof.Machine.execDmard t e s
  | .post t e => Sys2Proof.Machine.execPost t e s
  | .take t e => Sys2Proof.Machine.execTake t e s
  | .done t e => Sys2Proof.Machine.execDone t e s
  | .jmp t e => Sys2Proof.Machine.execJmp t e s
  | .call t e => Sys2Proof.Machine.execCall t e s
  | .jr t e => Sys2Proof.Machine.execJr t e s
  | .beqz t e => Sys2Proof.Machine.execBeqz t e s
  | .bnez t e => Sys2Proof.Machine.execBnez t e s
  | .bltz t e => Sys2Proof.Machine.execBltz t e s
  | .bgez t e => Sys2Proof.Machine.execBgez t e s
  | .dbnz t e => Sys2Proof.Machine.execDbnz t e s
  | .rep t e => Sys2Proof.Machine.execRep t e s
  | .repReg t e => Sys2Proof.Machine.execRepReg t e s
  | .wait t e => Sys2Proof.Machine.execWait t e s
  | .nop t e => Sys2Proof.Machine.execNop t e s
  | .halt t e => Sys2Proof.Machine.execHalt t e s
  | .srd t e => Sys2Proof.Machine.execSrd t e s
  | .swr t e => Sys2Proof.Machine.execSwr t e s
  | .bxadv t e => Sys2Proof.Machine.execBxadv t e s
  | .wckRun t src n => Sys2Proof.Machine.execWckRun t src n s
  | .wckStop t src n => Sys2Proof.Machine.execWckStop t src n s
  | .wckClrerr t src n => Sys2Proof.Machine.execWckClrerr t src n s
  | .wickProgramWrite t src addr val => Sys2Proof.Machine.execWickProgramWrite t src addr val s
  | .wckHalt t n => Sys2Proof.Machine.execWckHalt t n s
  | .wckWait t n => Sys2Proof.Machine.execWckWait t n s
  | .waitExpiry t n => Sys2Proof.Machine.execWaitExpiry t n s
  | .wckLaunch t n => Sys2Proof.Machine.execWckLaunch t n s
  | .wckBlank t n => Sys2Proof.Machine.execWckBlank t n s
  | .wckRange t n => Sys2Proof.Machine.execWckRange t n s
  | .wckAlign t n => Sys2Proof.Machine.execWckAlign t n s
  | .alignGridTick t n => Sys2Proof.Machine.execAlignGridTick t n s
  | .wckPps t n => Sys2Proof.Machine.execWckPps t n s
  | .ppsTimeout t n => Sys2Proof.Machine.execPpsTimeout t n s
  | .wckLoop t n => Sys2Proof.Machine.execWckLoop t n s
  | .wckEndl t n => Sys2Proof.Machine.execWckEndl t n s
  | .wckJmp t n => Sys2Proof.Machine.execWckJmp t n s
  | .wckTrig t n => Sys2Proof.Machine.execWckTrig t n s
  | .wckTone t n => Sys2Proof.Machine.execWckTone t n s
  | .triggerAction t n => Sys2Proof.Machine.execTriggerAction t n s
  | .captureEnd t n samples => Sys2Proof.Machine.execCaptureEnd t n samples s
  | .captureTruncate t n len samples => Sys2Proof.Machine.execCaptureTruncate t n len samples s
  | .toneOn t n => Sys2Proof.Machine.execToneOn t n s
  | .toneOff t n => Sys2Proof.Machine.execToneOff t n s
  | .refReady t => Sys2Proof.Machine.execRefReady t s
  | .seqStart t => Sys2Proof.Machine.execSeqStart t s
  | .seqStop t => Sys2Proof.Machine.execSeqStop t s
  | .injectRequest t src k => Sys2Proof.Machine.execInjectRequest t src k s
  | .auxCalibrate t src => Sys2Proof.Machine.execAuxCalibrate t src s
  | .auxCalStepEnd t a b => Sys2Proof.Machine.execAuxCalStepEnd t a b s
  | .auxTempCheck t temp => Sys2Proof.Machine.execAuxTempCheck t temp s
  | .dischargeStart t => Sys2Proof.Machine.execDischargeStart t s
  | .dischargeEnd t => Sys2Proof.Machine.execDischargeEnd t s
  | .sourceConnect t => Sys2Proof.Machine.execSourceConnect t s
  | .settleEnd t => Sys2Proof.Machine.execSettleEnd t s
  | .windowEnd t raw => Sys2Proof.Machine.execWindowEnd t raw s
  | .resultWrite t => Sys2Proof.Machine.execResultWrite t s
  | .linesyncEdge t rising => Sys2Proof.Machine.execLinesyncEdge t rising s
  | .linesyncLost t => Sys2Proof.Machine.execLinesyncLost t s
  | .leadCheck t amp limit sns inp => Sys2Proof.Machine.execLeadCheck t amp limit sns inp s
  | .resultAgeStale t src => Sys2Proof.Machine.execResultAgeStale t src s
  | .auxResultRead t addr => Sys2Proof.Machine.execAuxResultRead t addr s
  | .memRequest t port addr half ap data => Sys2Proof.Machine.execMemRequest t port addr half ap data s
  | .memCommandSlot t c half err => Sys2Proof.Machine.execMemCommandSlot t c half err s
  | .refreshDue t c temps => Sys2Proof.Machine.execRefreshDue t c temps s
  | .selfRefreshEntry t c => Sys2Proof.Machine.execSelfRefreshEntry t c s
  | .budgetWindowEnd t => Sys2Proof.Machine.execBudgetWindowEnd t s
  | .zqcs t c temp => Sys2Proof.Machine.execZqcs t c temp s
  | .retrainSlot t c temp work last => Sys2Proof.Machine.execRetrainSlot t c temp work last s
  | .scrubRead t err => Sys2Proof.Machine.execScrubRead t err s
  | .queueDoorbell t src q => Sys2Proof.Machine.execQueueDoorbell t src q s
  | .queueAccept t q => Sys2Proof.Machine.execQueueAccept t q s
  | .hostDone t src q seq => Sys2Proof.Machine.execHostDone t src q seq s
  | .completionFinal t q => Sys2Proof.Machine.execCompletionFinal t q s
  | .mirrorWaitTimeout t => Sys2Proof.Machine.execMirrorWaitTimeout t s
  | .mstFrameSend t q => Sys2Proof.Machine.execMstFrameSend t q s
  | .mstFlushTimeout t q => Sys2Proof.Machine.execMstFlushTimeout t q s
  | .mstAck t n vid frame => Sys2Proof.Machine.execMstAck t n vid frame s
  | .mstRto t q seq => Sys2Proof.Machine.execMstRto t q seq s
  | .payloadUnreadable t q ue => Sys2Proof.Machine.execPayloadUnreadable t q ue s
  | .compress t => Sys2Proof.Machine.execCompress t s
  | .decompress t => Sys2Proof.Machine.execDecompress t s
  | .cruJobEnd t unit => Sys2Proof.Machine.execCruJobEnd t unit s
  | .linkUp t n speed => Sys2Proof.Machine.execLinkUp t n speed s
  | .linkDown t n => Sys2Proof.Machine.execLinkDown t n s
  | .speedTryTimeout t n => Sys2Proof.Machine.execSpeedTryTimeout t n s
  | .rxFrameDrop t n vid dst kind => Sys2Proof.Machine.execRxFrameDrop t n vid dst kind s
  | .arpRequest t n vid smac sip target => Sys2Proof.Machine.execArpRequest t n vid smac sip target s
  | .neighbourSolicitation t n vid smac sip target => Sys2Proof.Machine.execNeighbourSolicitation t n vid smac sip target s
  | .mgmtRead t n vid smac sip sport frame => Sys2Proof.Machine.execMgmtRead t n vid smac sip sport frame s
  | .mgmtWrite t n vid smac sip sport frame => Sys2Proof.Machine.execMgmtWrite t n vid smac sip sport frame s
  | .mgmtSubmit t n vid smac sip sport frame => Sys2Proof.Machine.execMgmtSubmit t n vid smac sip sport frame s
  | .ptpSyncRx t port udp dom seq origin twoStep => Sys2Proof.Machine.execPtpSyncRx t port udp dom seq origin twoStep s
  | .ptpFollowUpRx t port udp dom seq origin => Sys2Proof.Machine.execPtpFollowUpRx t port udp dom seq origin s
  | .ptpDelayRespRx t port udp dom seq t4 => Sys2Proof.Machine.execPtpDelayRespRx t port udp dom seq t4 s
  | .ptpDelayReqRx t port udp dom seq peer => Sys2Proof.Machine.execPtpDelayReqRx t port udp dom seq peer s
  | .ptpSyncTx t => Sys2Proof.Machine.execPtpSyncTx t s
  | .ptpSyncTimeout t => Sys2Proof.Machine.execPtpSyncTimeout t s
  | .ppsEdge t pin rising => Sys2Proof.Machine.execPpsEdge t pin rising s
  | .ppsinTimeout t => Sys2Proof.Machine.execPpsinTimeout t s
  | .secondBoundary t => Sys2Proof.Machine.execSecondBoundary t s
  | .ppsOutEnd t => Sys2Proof.Machine.execPpsOutEnd t s
  | .spiWrite t bytes => Sys2Proof.Machine.execSpiWrite t bytes s
  | .spiRead t bytes late => Sys2Proof.Machine.execSpiRead t bytes late s
  | .spiStatus t => Sys2Proof.Machine.execSpiStatus t s
  | .spiUnknownCommand t bytes => Sys2Proof.Machine.execSpiUnknownCommand t bytes s
  | .feedSample t mvA mvB => Sys2Proof.Machine.execFeedSample t mvA mvB s
  | .feedQualified t b => Sys2Proof.Machine.execFeedQualified t b s
  | .leaseRenewal t twin readBack => Sys2Proof.Machine.execLeaseRenewal t twin readBack s
  | .leaseStop t twin => Sys2Proof.Machine.execLeaseStop t twin s
  | .leaseExpiryAcquire t twin => Sys2Proof.Machine.execLeaseExpiryAcquire t twin s
  | .releaseConfirmed t lowAt => Sys2Proof.Machine.execReleaseConfirmed t lowAt s
  | .noconfTimeout t => Sys2Proof.Machine.execNoconfTimeout t s
  | .feedSwitchback t src toB => Sys2Proof.Machine.execFeedSwitchback t src toB s
  | .twinEnable t src => Sys2Proof.Machine.execTwinEnable t src s
  | .twinDisable t src => Sys2Proof.Machine.execTwinDisable t src s
  | .pairingListenEnd t => Sys2Proof.Machine.execPairingListenEnd t s
  | .heartbeat t epoch lease dev strap part serial => Sys2Proof.Machine.execHeartbeat t epoch lease dev strap part serial s
  | .status t epoch synced eligible blocks => Sys2Proof.Machine.execStatus t epoch synced eligible blocks s
  | .release t epoch reason => Sys2Proof.Machine.execRelease t epoch reason s
  | .journal t addr bytes payload last => Sys2Proof.Machine.execJournal t addr bytes payload last s
  | .config t pairs last => Sys2Proof.Machine.execConfig t pairs last s
  | .checkpoint t n blk off eng bytes => Sys2Proof.Machine.execCheckpoint t n blk off eng bytes s
  | .bellowsResend t seq => Sys2Proof.Machine.execBellowsResend t seq s
  | .bellowsLaneLoss t k => Sys2Proof.Machine.execBellowsLaneLoss t k s
  | .leaseInPulse t width => Sys2Proof.Machine.execLeaseInPulse t width s
  | .leaseOutPulse t readBack => Sys2Proof.Machine.execLeaseOutPulse t readBack s
  | .pathSilence t line => Sys2Proof.Machine.execPathSilence t line s
  | .oswSettled t => Sys2Proof.Machine.execOswSettled t s
  | .twinSwitchback t src => Sys2Proof.Machine.execTwinSwitchback t src s
  | .eccInject t src target double => Sys2Proof.Machine.execEccInject t src target double s
  | .sliceFaultInject t src val => Sys2Proof.Machine.execSliceFaultInject t src val s
  | .dummyLoadSelect t src val => Sys2Proof.Machine.execDummyLoadSelect t src val s
  | .emitFaultInject t src val => Sys2Proof.Machine.execEmitFaultInject t src val s
  | .illegalInstruction t e => Sys2Proof.Machine.execIllegalInstruction t e s
  | .wickUndefinedOperation t n => Sys2Proof.Machine.execWickUndefinedOperation t n s
  | .bellowsLaneLock t k => Sys2Proof.Machine.execBellowsLaneLock t k s
  | .tapInstruction t instr => Sys2Proof.Machine.execTapInstruction t instr s
  | .vaonRemoved t => Sys2Proof.Machine.execVaonRemoved t s
  | .laneIdle t n => Sys2Proof.Machine.execLaneIdle t n s
  | .mailboxJobEnd t => Sys2Proof.Machine.execMailboxJobEnd t s

end Sys2Proof.Machine
end

