-- ==== Sys2Proof/WellFormed.lean ====
section
/-!
DEFINITION. Well-formed commands: every unit number, queue, port and source a command names exists on the largest variant, and a register address is a multiple of 4
(spec 00_scope R2; 19_register_map R477). A command that is not well formed has no sender in the spec; the machine leaves its units alone.
Points that the spec leaves open or that are read from it by inference: DESIGN CHOICE 57 of the assumption log.
-/

namespace Sys2Proof

/-- The sources that send writes and reads on the control bus; the cross-field checks and the mirror only appear in clamp records (R391, R441). -/
def Source.onBus : Source → Bool
  | .spi | .mgmt | .hearth => true
  | .commit | .twin => false

/-- A raw code of a slice: s14 (R119, R121). -/
def sampleFits (x : Int) : Bool := decide (-8192 ≤ x) && decide (x ≤ 8191)

/-- A command's operands name units that exist. -/
def Instr.wf : Instr → Bool
  | .registerWrite _ src addr _ | .guardedFirstWrite _ src addr _ | .guardedComplementWrite _ src addr _ | .rcRead _ src addr
  | .chirpTableWrite _ src addr _ | .scheduleTableWrite _ src addr _ | .spectrumWrite _ src addr _ | .imemWrite _ src addr _
  | .dmemHostAccess _ src addr _ _ | .wickProgramWrite _ src addr _ => src.onBus && decide (addr.toNat % 4 = 0)
  | .guardTimeout _ win => decide (win < 15)
  | .commit _ src _ | .snapshot _ src | .uptimeLoRead _ src | .sysRun _ src | .warmReset _ src | .legacySelect _ src _ | .expertEnable _ src
  | .expertDisable _ src | .crcRefWrite _ src _ | .hibernate _ src _ | .bootChunkReady _ src | .emitEnable _ src _ | .emitDisable _ src _
  | .qforce _ src | .quenchClear _ src | .hscCalibrate _ src | .hscRotate _ src _ | .auxCalibrate _ src | .feedSwitchback _ src _ | .twinEnable _ src
  | .twinDisable _ src | .twinSwitchback _ src | .eccInject _ src _ _ | .sliceFaultInject _ src _ | .dummyLoadSelect _ src _
  | .emitFaultInject _ src _ => src.onBus
  | .crcPassEnd _ | .crcHoldEnd _ | .wake _ _ _ _ | .vaonApply _ _ _ | .coldReset _ | .resetRelease _ _ | .railOutOfTolerance _ _ _ | .pllLock _
  | .clockMonitorCheck _ _ _ | .watchdogRefresh _ | .watchdogExpiry _ | .lockstepMismatch _ | .hearthRestartDone _ | .warmResetHoldEnd _ _
  | .bootVerifyDone _ _ | .trainingDone _ _ _ _ _ | .bootApplyDone _ | .qclrCheckEnd _ | .stringSample _ _ | .monitorWindowEnd _ _
  | .interlockChange _ _ _ | .hscCalDone _ _ _ | .trimSweepStart _ _ | .refReady _ | .seqStart _ | .seqStop _ | .auxCalStepEnd _ _ _
  | .auxTempCheck _ _ | .dischargeStart _ | .dischargeEnd _ | .sourceConnect _ | .settleEnd _ | .windowEnd _ _ | .resultWrite _ | .linesyncEdge _ _
  | .linesyncLost _ | .leadCheck _ _ _ _ _ | .resultAgeStale _ _ | .budgetWindowEnd _ | .scrubRead _ _ | .mirrorWaitTimeout _ | .compress _
  | .decompress _ | .ptpSyncTx _ | .ptpSyncTimeout _ | .ppsEdge _ _ _ | .ppsinTimeout _ | .secondBoundary _ | .ppsOutEnd _ | .spiWrite _ _
  | .spiRead _ _ _ | .spiStatus _ | .spiUnknownCommand _ _ | .feedSample _ _ _ | .feedQualified _ _ | .leaseRenewal _ _ _ | .leaseStop _ _
  | .leaseExpiryAcquire _ _ | .releaseConfirmed _ _ | .noconfTimeout _ | .pairingListenEnd _ | .heartbeat _ _ _ _ _ _ _ | .status _ _ _ _ _
  | .release _ _ _ | .journal _ _ _ _ _ | .config _ _ _ | .bellowsResend _ _ | .leaseInPulse _ _ | .leaseOutPulse _ _ | .pathSilence _ _
  | .oswSettled _ | .tapInstruction _ _ | .vaonRemoved _ | .mailboxJobEnd _ => true
  | .overcurrent _ n _ _ _ | .apcUpdate _ n | .decayCheck _ n _ _ | .stringARampDone _ n | .tableCopybackDone _ n | .launchRelease _ n
  | .boosterLead _ n | .boosterPulseStart _ n _ | .boosterPulseEnd _ n | .boosterTailEnd _ n | .blankWindowStart _ n | .blankWindowEnd _ n
  | .pathBoundary _ n | .blockClose _ n | .traceEndEval _ n | .pointStateEcc _ n _ | .wckHalt _ n | .wckWait _ n | .waitExpiry _ n | .wckLaunch _ n
  | .wckBlank _ n | .wckRange _ n | .wckAlign _ n | .alignGridTick _ n | .wckPps _ n | .ppsTimeout _ n | .wckLoop _ n | .wckEndl _ n | .wckJmp _ n
  | .wckTrig _ n | .wckTone _ n | .triggerAction _ n | .toneOn _ n | .toneOff _ n
  | .checkpoint _ n _ _ _ _ | .wickUndefinedOperation _ n | .laneIdle _ n => decide (n < 8)
  | .captureEnd _ n xs | .captureTruncate _ n _ xs => decide (n < 8) && xs.all sampleFits
  | .rangeStepDecide _ c _ | .overloadRise _ c _ | .rangeStepApply _ c | .scheduleEntryStart _ c | .cmWindowEnd _ c _ _ | .rotationStart _ c
  | .trimPhaseEnd _ c | .shadow0End _ c _ | .shadow1End _ c _ | .estimationDone _ c _ | .sliceSwap _ c | .sliceCheckWindow _ c _ _
  | .sliceDiagEnd _ c _ _ => decide (c < 16)
  | .hscManWrite _ src c _ => src.onBus && decide (c < 16)
  | .mfConversionDone _ unit => decide (unit < 16)
  | .ddcOutput _ c b k0 k1 k2 =>
    decide (c < 16) && decide (b < 4) && [k0, k1, k2].all (fun xs => decide (xs.length = 8) && xs.all sampleFits)
  | .phaseSample _ n b => decide (n < 8) && decide (b < 4)
  | .engineRun _ src e | .engineHaltRequest _ src e | .engineStep _ src e | .engineReset _ src e | .engineClrerr _ src e => src.onBus && decide (e < 8)
  | .engineHalt _ e | .add _ e | .sub _ e | .and _ e | .or _ e | .xor _ e | .shl _ e | .shr _ e | .sar _ e | .min _ e | .max _ e | .minu _ e
  | .maxu _ e | .mul _ e | .mulh _ e | .slt _ e | .sltu _ e | .cls _ e | .clz _ e | .addi _ e | .subi _ e | .andi _ e | .ori _ e | .xori _ e
  | .shli _ e | .shri _ e | .sari _ e | .mini _ e | .maxi _ e | .minui _ e | .maxui _ e | .muli _ e | .mulhi _ e | .slti _ e | .sltui _ e | .clsi _ e
  | .clzi _ e | .sld _ e | .sldh _ e | .sst _ e | .ssth _ e | .pset _ e | .pseti _ e | .pget _ e | .pmod _ e | .pstep _ e | .vadd _ e | .vsub _ e
  | .vaddh _ e | .vsubh _ e | .vand _ e | .vor _ e | .vxor _ e | .vmin _ e | .vmax _ e | .vminh _ e | .vmaxh _ e | .vabs _ e | .vabsh _ e | .vshl _ e
  | .vsar _ e | .vsarh _ e | .vmov _ e | .vbcst _ e | .vbcsth _ e | .vsel _ e | .vswaph _ e | .vext _ e | .vmulh _ e | .vmulhb _ e | .vmulw _ e
  | .vmuli _ e | .vmac2 _ e | .vmsu2 _ e | .vmul2 _ e | .vmacp _ e | .vmsup _ e | .vmulp _ e | .vmac2Mem _ e | .vmsu2Mem _ e | .vmul2Mem _ e
  | .vmacpMem _ e | .vmsupMem _ e | .vmulpMem _ e | .aclr _ e | .amov _ e | .aadd _ e | .vpack _ e | .vnarw _ e | .ared _ e | .cmul _ e | .cmulc _ e
  | .cmac _ e | .cmacc _ e | .cmag2 _ e | .cmag2a _ e | .cconj _ e | .cbflym _ e | .cbflymc _ e | .vcmpeq _ e | .vcmpne _ e | .vcmplt _ e
  | .vcmple _ e | .vcmpgt _ e | .vcmpge _ e | .vtinv _ e | .kand _ e | .kor _ e | .kxor _ e | .kandn _ e | .knot _ e | .kfrom _ e | .kto _ e
  | .kpop _ e | .vld _ e | .vst _ e | .vldbH _ e | .vldbW _ e | .dmast _ e | .dmawt _ e | .dmard _ e | .post _ e | .take _ e | .done _ e | .jmp _ e
  | .call _ e | .jr _ e | .beqz _ e | .bnez _ e | .bltz _ e | .bgez _ e | .dbnz _ e | .rep _ e | .repReg _ e | .wait _ e | .nop _ e | .halt _ e
  | .srd _ e | .swr _ e | .bxadv _ e | .illegalInstruction _ e => decide (e < 8)
  | .dmaComplete _ e c => decide (e < 8) && decide (c < 4)
  | .tachEdge _ k _ _ | .tachTimeout _ k => decide (k < 8)
  | .wckRun _ src n | .wckStop _ src n | .wckClrerr _ src n => src.onBus && decide (n < 8)
  | .injectRequest _ src k => src.onBus && decide (k < 17)
  | .auxResultRead _ addr => decide (addr.toNat % 4 = 0)
  | .memRequest _ port _ _ _ _ => decide (port < 12)
  | .memCommandSlot _ c _ _ | .refreshDue _ c _ | .selfRefreshEntry _ c | .zqcs _ c _ | .retrainSlot _ c _ _ _ => decide (c < 2)
  | .queueDoorbell _ src q => src.onBus && decide (q < 64)
  | .queueAccept _ q | .completionFinal _ q | .mstFrameSend _ q | .mstFlushTimeout _ q | .mstRto _ q _ | .payloadUnreadable _ q _ => decide (q < 64)
  | .hostDone _ src q seq => src.onBus && decide (q < 64) && decide (seq < 2 ^ 31)
  | .mstAck _ n _ _ | .linkUp _ n _ | .linkDown _ n | .speedTryTimeout _ n | .rxFrameDrop _ n _ _ _ | .arpRequest _ n _ _ _ _
  | .neighbourSolicitation _ n _ _ _ _ | .mgmtRead _ n _ _ _ _ _ | .mgmtWrite _ n _ _ _ _ _ | .mgmtSubmit _ n _ _ _ _ _ => decide (n < 2)
  | .cruJobEnd _ unit => decide (unit < 2)
  | .ptpSyncRx _ port _ _ _ _ _ | .ptpFollowUpRx _ port _ _ _ _ | .ptpDelayRespRx _ port _ _ _ _ | .ptpDelayReqRx _ port _ _ _ _ => decide (port < 2)
  | .bellowsLaneLoss _ k | .bellowsLaneLock _ k => decide (k < 2)

end Sys2Proof
end

