-- ==== Sys2Proof/Safety.lean ====
section
/-!
DEFINITION. The terms that the statements use: a command carried out at its moment, the canonical forms, an engine or a sequencer that stands at an instruction, and a
run of several commands.
-/

namespace Sys2Proof

/-! ### Kinds of commands -/

/-- The moment and the engine of a command that is an instruction of an engine (R229). -/
def Instr.anvil : Instr → Option (Nat × Nat)
  | .add t e | .sub t e | .and t e | .or t e | .xor t e | .shl t e | .shr t e | .sar t e | .min t e | .max t e | .minu t e | .maxu t e | .mul t e
  | .mulh t e | .slt t e | .sltu t e | .cls t e | .clz t e | .addi t e | .subi t e | .andi t e | .ori t e | .xori t e | .shli t e | .shri t e | .sari t e
  | .mini t e | .maxi t e | .minui t e | .maxui t e | .muli t e | .mulhi t e | .slti t e | .sltui t e | .clsi t e | .clzi t e | .sld t e | .sldh t e
  | .sst t e | .ssth t e | .pset t e | .pseti t e | .pget t e | .pmod t e | .pstep t e | .vadd t e | .vsub t e | .vaddh t e | .vsubh t e | .vand t e
  | .vor t e | .vxor t e | .vmin t e | .vmax t e | .vminh t e | .vmaxh t e | .vabs t e | .vabsh t e | .vshl t e | .vsar t e | .vsarh t e | .vmov t e
  | .vbcst t e | .vbcsth t e | .vsel t e | .vswaph t e | .vext t e | .vmulh t e | .vmulhb t e | .vmulw t e | .vmuli t e | .vmac2 t e | .vmsu2 t e
  | .vmul2 t e | .vmacp t e | .vmsup t e | .vmulp t e | .vmac2Mem t e | .vmsu2Mem t e | .vmul2Mem t e | .vmacpMem t e | .vmsupMem t e | .vmulpMem t e
  | .aclr t e | .amov t e | .aadd t e | .vpack t e | .vnarw t e | .ared t e | .cmul t e | .cmulc t e | .cmac t e | .cmacc t e | .cmag2 t e | .cmag2a t e
  | .cconj t e | .cbflym t e | .cbflymc t e | .vcmpeq t e | .vcmpne t e | .vcmplt t e | .vcmple t e | .vcmpgt t e | .vcmpge t e | .vtinv t e | .kand t e
  | .kor t e | .kxor t e | .kandn t e | .knot t e | .kfrom t e | .kto t e | .kpop t e | .vld t e | .vst t e | .vldbH t e | .vldbW t e | .dmast t e
  | .dmawt t e | .dmard t e | .post t e | .take t e | .done t e | .jmp t e | .call t e | .jr t e | .beqz t e | .bnez t e | .bltz t e | .bgez t e
  | .dbnz t e | .rep t e | .repReg t e | .wait t e | .nop t e | .halt t e | .srd t e | .swr t e | .bxadv t e | .illegalInstruction t e => some (t, e)
  | _ => none

/-- The moment and the lane of a command that is an instruction of a sequencer (R256). -/
def Instr.wick : Instr → Option (Nat × Nat)
  | .wckHalt t n | .wckWait t n | .wckLaunch t n | .wckBlank t n | .wckRange t n | .wckAlign t n | .wckPps t n | .wckLoop t n | .wckEndl t n | .wckJmp t n
  | .wckTrig t n | .wckTone t n | .wickUndefinedOperation t n => some (t, n)
  | _ => none

/-- A command of the always-on domain or of the reset and clock logic, which does not wait for the divided clocks (R24, R459, R466, R472). -/
def Instr.alwaysOn : Instr → Bool
  | .coldReset _ | .railOutOfTolerance _ _ _ | .resetRelease _ _ | .pllLock _ | .warmResetHoldEnd _ _ | .wake _ _ _ _ | .vaonApply _ _ _ | .vaonRemoved _
  | .tapInstruction _ _ | .leaseStop _ _ | .leaseExpiryAcquire _ _ | .feedSample _ _ _ | .feedQualified _ _ | .releaseConfirmed _ _ | .noconfTimeout _ => true
  | _ => false

/-- A command of the domain that a warm or watchdog reset holds: sequencers, engines, PHX lanes, AUX, queues, Crucible, MST streams, Hearth and the twin roles
(R467, R468). -/
def Instr.resetDomain (c : Instr) : Bool :=
  c.anvil.isSome || c.wick.isSome ||
  match c with
  | .watchdogRefresh _ | .watchdogExpiry _ | .lockstepMismatch _ | .hearthRestartDone _ | .bootVerifyDone _ _ | .trainingDone _ _ _ _ _ | .bootApplyDone _
  | .phaseSample _ _ _ | .blockClose _ _ | .traceEndEval _ _ | .pointStateEcc _ _ _ | .laneIdle _ _ | .engineHalt _ _ | .engineRun _ _ _
  | .engineHaltRequest _ _ _ | .engineStep _ _ _ | .engineReset _ _ _ | .engineClrerr _ _ _ | .dmaComplete _ _ _ | .wckRun _ _ _ | .wckStop _ _ _
  | .wckClrerr _ _ _ | .waitExpiry _ _ | .alignGridTick _ _ | .ppsTimeout _ _ | .triggerAction _ _ | .captureEnd _ _ _ | .captureTruncate _ _ _ _ | .refReady _
  | .seqStart _ | .seqStop _ | .injectRequest _ _ _ | .auxCalibrate _ _ | .auxCalStepEnd _ _ _ | .auxTempCheck _ _ | .dischargeStart _ | .dischargeEnd _
  | .sourceConnect _ | .settleEnd _ | .windowEnd _ _ | .resultWrite _ | .linesyncEdge _ _ | .linesyncLost _ | .leadCheck _ _ _ _ _ | .resultAgeStale _ _
  | .queueAccept _ _ | .completionFinal _ _ | .mailboxJobEnd _ | .mstFrameSend _ _ | .mstFlushTimeout _ _ | .mstAck _ _ _ _ | .mstRto _ _ _
  | .payloadUnreadable _ _ _ | .compress _ | .decompress _ | .cruJobEnd _ _ | .mirrorWaitTimeout _ | .pairingListenEnd _ | .heartbeat _ _ _ _ _ _ _
  | .status _ _ _ _ _ | .release _ _ _ | .journal _ _ _ _ _ | .config _ _ _ | .checkpoint _ _ _ _ _ _ | .bellowsResend _ _ | .leaseOutPulse _ _
  | .oswSettled _ => true
  | _ => false

namespace Machine

/-! ### Outcomes -/

/-- The state that the effect `f` of a command leaves when the command happens at `t`: the time moves to `t`, `f` changes the device, and the queue and the fuses are
carried through. -/
def State.after (s : State) (t : Nat) (f : State → State) : State := (s.begin t).carry (f (s.begin t))

/-- The divided clocks run and no reset holds the reset domain (R24, R25, R468). -/
abbrev State.Runs (s : State) : Prop := s.clocked = true

/-- Commands carried out one after another, each on what the one before it left; a stop ends the run. -/
def execAll : List Instr → State → Out
  | [], s => .next s
  | c :: cs, s =>
    match exec c s with
    | .next u => execAll cs u
    | .fault r => .fault r
    | .refused r => .refused r

/-! ### Writes that no lock turns away (R39, R420, R453) -/

/-- A write of source `src` at native address `a` meets no lock: legacy mode does not lock its window, the unit is no standby that mirrors the register, expert space
is open, and no boot failure has left the device deaf to the source. -/
structure State.Admits (s : State) (src : Source) (a : Nat) : Prop where
  legacy : s.legacy = true → src ≠ .twin → legacyLocked (a / 0x10000) = false
  mirror : s.role = 2 → src = .spi ∨ src = .mgmt → mirrored a = false
  expert : expertAt a = true → src ≠ .twin → s.flag Fld.SYS_CTRL_EXPERT_EN 0 = true
  heard : s.deaf src = false

/-- Nothing meets a write of source `src` at register `a` on its PCLK edge: no source of a later place in the order has written there, and no hardware has set a bit (R479). -/
structure State.AloneAt (s : State) (src : Source) (a : Nat) : Prop where
  writes : s.edgeNow.wrote.any (fun w => w.addr = a && srcRank src < srcRank w.src) = false
  sets : s.edgeSets a = 0

/-- No guarded pair of another source is open in window `win`, so that a pair written whole there takes effect (R391, R443). -/
def State.PairFree (s : State) (win : Nat) : Prop := s.guardOf win = none

/-- No guarded pair is open in any window, and no write waits for one. -/
structure State.Quiet (s : State) : Prop where
  pairs : s.sys.guards = []
  held : s.sys.held = []

/-- After a write, those that waited for a pair go. -/
def State.settled (s : State) : State := s.drain s.sys.held.length

/-- A register of the windows whose write is a command with a rule of its own, and no mere change of its fields: SYS_COMMIT, SYS_SNAP and SYS_CRC_CTRL; the converters'
commands and manual selections; WCK_CTRL and program counters; an engine's control, PC and ASTAT; requests and calibration of AUX; a queue's doorbell, completions
and submission words; BOOTCTL; and the test registers that act (R123, R128, R140, R224, R265, R279, R336, R340, R398, R435, R448, R450, R456). -/
def commandAt (a : Nat) : Bool :=
  [8, 0xC, Fld.SYS_CRC_CTRL_ACTION.addr, 0x30008, 0x60000, 0x80010, 0x80014, Fld.NET_BOOTCTL_READY.addr, 0xF0010, 0xF0018, 0xF0020, 0xF0024].contains a
    || (decide (0x32000 ≤ a) && decide (a < 0x32040)) || isWickPc a || (decide (0x74000 ≤ a) && decide (a < 0x76000) && decide (a % 0x400 < 0xC))
    || (decide (0xA4000 ≤ a) && decide (a < 0xA8000)
      && ([0x14, 0x2C].contains (a % 0x100) || (decide (0x40 ≤ a % 0x100) && decide (a % 0x100 < 0x80))))

/-- The value that a write of `val` brings to field `fd` of the register at `a` passes the field's check, so that the field takes it as written (R438, R439). -/
abbrev State.Passes (s : State) (a unit : Nat) (val : Word) (fd : FieldDef) : Prop :=
  s.fieldWrite a unit fd (bitsOf fd.hi fd.lo (if fd.acc = .rws then s.staged a else s.live a)) (bitsOf fd.hi fd.lo val) = (bitsOf fd.hi fd.lo val, none)

/-- A word of the windows, and the register there, that a write of one word reaches by the general rules: no guarded register and no complement, no command, no table,
and no unit that fuses have removed. -/
structure State.PlainAt (s : State) (a : Nat) (r : RegDef) (unit : Nat) : Prop where
  inside : a < 0x100000 ∧ a % 4 = 0 ∧ a % 0x10000 < 0x8000
  register : regAt a = some (r, unit)
  unguarded : guardedRegs.contains a = false ∧ complementOf a = none
  plain : commandAt a = false
  fitted : fusedBlock s.fixed a = false ∧ fusedOff s.fixed a unit = false

/-! ### Canonical forms -/

/-- Every sparse table that the device's memories are kept in is in its canonical form: external memory, the engines' memories and the sequencers' programs. -/
def State.wf (s : State) : Bool :=
  Memory.wf s.mem && s.eng.all (fun x => swf 0 x.imem && swf 0 x.dmem) && s.wck.all (fun w => swf 0 w.prog)

/-- Fields that the device's own timers, rings and stream work from, with the number of their units and their limits (R330, R348, R357, R410, R427, R429, R443). -/
def paramLimits : List (Fld × Nat × Nat × Nat) :=
  [(Fld.SYS_GUARD_TMO_TMO, 1, 64, 65535), (Fld.QUE_MST_RTO_RTO, 1, 100, 1000000), (Fld.QUE_MST_FLUSH_FLUSH, 1, 1, 65535), (Fld.QUE_Qq_SIZE_SIZE, 64, 16, 1024),
    (Fld.QUE_Qq_QUOTA_QUOTA, 64, 1, 1024), (Fld.PWR_LEASE_LEASE, 1, 9766, 976563), (Fld.PWR_UV_UV, 1, 8000, 12000), (Fld.PWR_UVCFG_FILT, 1, 1, 64),
    (Fld.PWR_UVCFG_HYST, 1, 1, 100), (Fld.PWR_UVCFG_OFFT, 1, 0, 2441), (Fld.TWN_LEASE_LEASE, 1, 48828, 976563), (Fld.TWN_OSWSET_SET, 1, 0, 48828)]

/-- A register word holds a field within limits. -/
def fieldWithin (f : Fld) (lo hi : Nat) (w : Word) : Prop := lo ≤ bitsOf f.hi f.lo w ∧ bitsOf f.hi f.lo w ≤ hi

/-- Those fields hold values within their limits in force, staged and pending, and so do the staged copies that the writes of the present edge have met (R438, R479). -/
def State.InLimits (s : State) : Prop :=
  ∀ p, p ∈ paramLimits → ∀ u, u < p.2.1 →
    fieldWithin p.1 p.2.2.1 p.2.2.2 (s.live (p.1.at u)) ∧ fieldWithin p.1 p.2.2.1 p.2.2.2 (s.staged (p.1.at u)) ∧ fieldWithin p.1 p.2.2.1 p.2.2.2 (s.pend (p.1.at u))
      ∧ ∀ x, x ∈ s.regs.edge.wrote → x.addr = p.1.at u → fieldWithin p.1 p.2.2.1 p.2.2.2 x.staged

/-- What every step keeps whatever is commanded: the waiting commands are well-formed; the part is one of the three variants' parts with its lanes and part code (R2); every
memory is in its canonical form; a queue's occupancy is the number of its descriptors, which with those on the way fill at most the largest ring (R330, R341, R362); only the
holder's feed gate is high, so that at most one is, and a released feed's is low (R404, R409, R411); and the parameters lie within their limits (R438). -/
structure State.Inv (s : State) : Prop where
  queue : ∀ c, c ∈ s.pending → c.wf = true
  part : (s.lanes = 8 ∧ s.fixed.variant.part = 0x0850) ∨ (s.lanes = 4 ∧ s.fixed.variant.part = 0x0450) ∨ (s.lanes = 2 ∧ s.fixed.variant.part = 0x0250)
  dram : s.fixed.dram ≤ 2 ^ 36
  form : s.wf = true
  occupancy : ∀ q, q < 64 → s.fld Fld.QUE_Qq_STAT_OCC q = (s.queue q).entries.length ∧ s.occupied q ≤ 1024
  gates : ∀ b, (s.feed b).gate = true → s.pwr.holder = some b
  released : ∀ r, s.pwr.release = some r → (s.feed r.fromB).gate = false
  unfed : s.sys.power = .feedWait → (s.feed false).gate = false ∧ (s.feed true).gate = false
  limits : s.InLimits
  kept : 8000 ≤ s.pwr.uv ∧ s.pwr.uv ≤ 12000

/-! ### An engine at an instruction (R197, R200, R227) -/

/-- The state after the word at engine `e`'s PC has been fetched: an error of one bit has been corrected, and a tick lost to a running transfer has been counted
(R196, R197). -/
def State.fetched (s : State) (e : Nat) : State := (s.eccCorrect 2 (engBase e + 8 * (s.engine e).pc) 8).dmaStall e (s.anvWord e)

/-- The clocks run, and engine `e` of this variant is RUNNING at the legal instruction word `w` with operation code `op` and function `fn`, whose fetch meets no
error of two bits. -/
structure State.EngineAt (s : State) (e w op fn : Nat) : Prop where
  runs : s.Runs
  unit : e < s.lanes
  issuing : (s.engine e).issuing = true
  word : s.anvWord e = w
  legal : anvDecode w = some (op, fn)
  sound : s.eccAt 2 (engBase e + 8 * (s.engine e).pc) ≠ 2

/-- An instruction whose whole effect is on its engine: it retires with the effect `f`. -/
def Retires (c : Nat → Nat → Instr) (op fn : Nat) (f : Nat → Engine → Engine) : Prop :=
  ∀ (s : State) (t e w : Nat), s.EngineAt e w op fn → exec (c t e) s = .next (s.after t (fun r => (r.fetched e).finish e (f w)))

/-- Engine `e` may access `n` bytes of its data memory at `a`, and meets no error of two bits there (R196, R197, R203). -/
structure State.DataAt (s : State) (e a n align : Nat) : Prop where
  inside : a < 0x80000
  aligned : a % align = 0
  sound : s.eccRange 1 (engBase e + a) n ≠ 2

/-- The state after `n` bytes at `a` have been read: an error of one bit has been corrected (R197). -/
def State.dataRead (s : State) (e a n : Nat) : State := s.eccCorrect 1 (engBase e + a) n

/-! ### A sequencer at an instruction (R263 to R271) -/

/-- Lane `n`'s sequencer is RUNNING with the clocks, its next instruction is due, and the word at its PC has operation `op` and operand `arg`. -/
structure State.WickAt (s : State) (t n op arg : Nat) : Prop where
  runs : s.Runs
  due : (s.begin t).wickAt n op = true
  arg : bitsOf 25 0 (s.wickWord n) = arg

end Machine

end Sys2Proof
end

