-- ==== Sys2Proof/Certificates/Slice0/Obligations.lean ====
section
/-!
DEFINITION. The statements for the provers.
-/

open Sys2Proof Sys2Proof.Machine

/-! ### The control bus (R431 to R458) -/

/-- Writes of one word, with no pair open and no lock in the way. A register without a rule of its own: RWS fields go to the staged copy and set the window's DIRTY
bit, RW fields are in force at once, a 1 clears a W1C field, and nothing else changes; a value outside its range clamps to the nearest limit; a write to the block of a
fused-off unit is reported and has no effect. SYS_COMMIT counts each commit write, sets PEND and makes the pending copy, or brings an immediate window in force, and a
freeze refuses it window by window. SYS_SNAP copies every live counter. Chirp entries go to the staged bank. The test registers take their fields, TST_ECC with GO
arms an error, and masks of dummy lanes change only while OFF. A doorbell is accepted, refused with its RESULT, or discarded while SUBBUSY is set; a completion by
the host is right or wrong; a chunk of a boot over SPI is taken. A write is recorded with the others of its PCLK edge, and one that another source of a later place in
the order has made before it keeps that source's value. (R3, R75, R336, R340, R398, R434, R435, R439, R448, R450, R457, R479.) -/
def Obligations.BusWrites : Prop :=
  (∀ (s : State) (t : Nat) (src : Source) (addr val : Word) (r : RegDef) (k : Nat), s.Runs → s.Quiet → s.boot.ready = false → s.PlainAt addr.toNat r k →
    (s.begin t).Admits src addr.toNat → (s.begin t).AloneAt src addr.toNat → (∀ fd, fd ∈ r.fields → fd.acc = .rws ∨ fd.acc = .rw → s.Passes addr.toNat k val fd) →
    ∃ regs hold dirty, exec (.registerWrite t src addr val) s
        = .next { s.begin t with regs := regs, sys := { s.sys with hold := hold, passDirty := dirty } }
      ∧ let u := { s.begin t with regs := regs }
        let a := addr.toNat
        (∀ fd, fd ∈ r.fields →
          (fd.acc = .rws → bitsOf fd.hi fd.lo (u.staged a) = bitsOf fd.hi fd.lo val)
          ∧ (fd.acc = .rw → bitsOf fd.hi fd.lo (u.live a) = bitsOf fd.hi fd.lo val)
          ∧ (fd.acc = .w1c → bitsOf fd.hi fd.lo (u.live a)
              = bitsOf fd.hi fd.lo (s.live a) &&& (2 ^ (fd.hi + 1 - fd.lo) - 1 - bitsOf fd.hi fd.lo val))
          ∧ (fd.acc = .ro ∨ fd.acc = .rc → bitsOf fd.hi fd.lo (u.live a) = bitsOf fd.hi fd.lo (s.live a)))
        ∧ ((∃ fd, fd ∈ r.fields ∧ fd.acc = .rws) → bit (u.fld Fld.SYS_DIRTY_DIRTY 0) (a / 0x10000) = true)
        ∧ (∀ b, b ≠ a → u.staged b = s.staged b)
        ∧ (∀ b, b ≠ a → b ≠ Fld.SYS_DIRTY_DIRTY.addr → b ≠ Fld.SYS_STAT_HOLD.addr → u.live b = s.live b))
  ∧ (∀ (s : State) (t : Nat) (src : Source) (addr val : Word) (r : RegDef) (k lo hi : Nat) (fd : FieldDef), s.Runs → s.Quiet → s.boot.ready = false →
      s.PlainAt addr.toNat r k → (s.begin t).Admits src addr.toNat → (s.begin t).AloneAt src addr.toNat → fd ∈ r.fields → fd.acc = .rws → fd.check = .range lo hi →
      ∃ u, exec (.registerWrite t src addr val) s = .next u ∧ bitsOf fd.hi fd.lo (u.staged addr.toNat) = max lo (min hi (bitsOf fd.hi fd.lo val)))
  ∧ (∀ (s : State) (t : Nat) (src : Source) (addr val : Word), s.Runs → s.Quiet → s.boot.ready = false → addr.toNat < 0x100000 → addr.toNat % 4 = 0 →
      guardedRegs.contains addr.toNat = false → complementOf addr.toNat = none → fusedBlock s.fixed addr.toNat = true → (s.begin t).Admits src addr.toNat →
      exec (.registerWrite t src addr val) s
        = .next (s.after t (fun r => (r.meets src addr.toNat (fun r => r.clamp src addr.toNat val 0 rsFused 0 31)).settled.takeChunk)))
  ∧ (∀ (s : State) (t : Nat) (src : Source) (addr val : Word), s.Runs → s.Quiet → addr.toNat < 0x100000 → addr.toNat % 4 = 0 →
      guardedRegs.contains addr.toNat = false → complementOf addr.toNat = none → (s.begin t).Admits src addr.toNat →
      (s.takes addr.toNat = true → exec (.registerWrite t src addr val) s 
          = .next (s.after t (fun r => (r.meets src addr.toNat (fun r => r.winWrite src addr.toNat val)).settled.takeChunk)))
      ∧ (s.takes addr.toNat = false → s.boot.ready = false → exec (.registerWrite t src addr val) s = .next (s.begin t)))
  ∧ (∀ (s : State) (t : Nat) (src : Source) (addr val : Word) (n k : Nat), s.Runs → s.Quiet → 0x18000 ≤ addr.toNat → addr.toNat < 0x20000 → addr.toNat % 4 = 0 →
      (s.begin t).Admits src addr.toNat → n = s.fld Fld.LAN_TBLPAGE_LANE 0 → k = (addr.toNat - 0x18000) / 4 * 2 →
      (s.laneBit Fld.LAN_STAT_TBLPEND n = true →
        exec (.chirpTableWrite t src addr val) s = .next (s.after t (fun r => (r.clamp src addr.toNat val (r.chirpWord addr.toNat) rsPending 0 31).settled)))
      ∧ (s.laneBit Fld.LAN_STAT_TBLPEND n = false →
        ∃ u, exec (.chirpTableWrite t src addr val) s = .next u
          ∧ (∀ j, sget 0 (u.laneOf n).chirpStg j
              = if j = k then BitVec.ofNat 12 (bitsOf 15 4 val) else if j = k + 1 then BitVec.ofNat 12 (bitsOf 31 20 val) else sget 0 (s.laneOf n).chirpStg j)
          ∧ bit (u.laneOf n).tblChanged (k / 4096) = true ∧ bit (u.fld Fld.SYS_DIRTY_DIRTY 0) 1 = true
          ∧ (u.laneOf n).chirp = (s.laneOf n).chirp ∧ (∀ m, m ≠ n → u.laneOf m = s.laneOf m) ∧ u.eng = s.eng ∧ u.mem = s.mem ∧ u.que = s.que))
  ∧ (∀ (s : State) (t : Nat) (src : Source) (mask : Word), s.Runs → s.Quiet → (s.begin t).Admits src 8 →
      (bitsOf 15 0 mask = 0 → exec (.commit t src mask) s = .next (s.after t (fun r => r.meets src 8 (fun r => r))))
      ∧ (bitsOf 15 0 mask ≠ 0 →
        let counted (r : State) : State := { r with sys := { r.sys with committed := true } }.count Fld.SYS_COMMIT_CNT 0 1
        (s.frozen = true → exec (.commit t src mask) s = .next (s.after t (fun r =>
          (r.meets src 8 (fun r => (commitWins (bitsOf 15 0 mask)).foldl (fun r w => r.clamp src 8 mask (r.live 8) rsFrozen w w) (counted r))).settled)))
        ∧ (s.frozen = false → exec (.commit t src mask) s = .next (s.after t (fun r =>
          (r.meets src 8 (fun r => (counted r).commitMeets src (commitWins (bitsOf 15 0 mask)) (fun r => r.commitAll (commitWins (bitsOf 15 0 mask))))).settled))))
      ∧ (s.frozen = false → (s.begin t).edgeNow.wrote = [] → s.role ≠ 1 → (∀ n, n < s.lanes → s.canBoundary n = true) →
        (bitsOf 15 0 mask = 2 ^ 5 →
          ∃ u, exec (.commit t src mask) s = .next u ∧ u.fld Fld.SYS_COMMIT_CNT 0 = (s.fld Fld.SYS_COMMIT_CNT 0 + 1) % 2 ^ 32 ∧ u.sys.committed = true
            ∧ bit (u.fld Fld.SYS_COMMIT_PEND 0) 5 = true ∧ bit (u.fld Fld.SYS_DIRTY_DIRTY 0) 5 = false
            ∧ (∀ a, a / 0x10000 = 5 → u.pend a = u.staged a) ∧ ∀ k, k % 0x100000 / 0x10000 = 5 → u.live k = s.live k)
        ∧ (bitsOf 15 0 mask = 2 ^ 14 →
          ∃ u, exec (.commit t src mask) s = .next u ∧ u.fld Fld.SYS_COMMIT_CNT 0 = (s.fld Fld.SYS_COMMIT_CNT 0 + 1) % 2 ^ 32 ∧ u.sys.committed = true
            ∧ bit (u.fld Fld.SYS_DIRTY_DIRTY 0) 14 = false
            ∧ ∀ r k fd, r ∈ regsTWN → k < r.count → fd ∈ r.fields → fd.acc = .rws →
                bitsOf fd.hi fd.lo (u.live (0xE0000 + r.off + r.stride * k)) = bitsOf fd.hi fd.lo (u.staged (0xE0000 + r.off + r.stride * k)))))
  ∧ (∀ (s : State) (t : Nat) (src : Source), s.Runs → s.Quiet → (s.begin t).Admits src 0xC → (s.begin t).AloneAt src 0xC →
      ∃ snap edge, exec (.snapshot t src) s = .next { s.begin t with regs := { s.regs with snap := snap, edge := edge } }
        ∧ ∀ a, a ∈ counterAddrs → sget 0 snap a = if a = 0x60C then BitVec.ofNat 32 ((s.begin t).uptime / 2 ^ 32) else (s.begin t).regView a)
  ∧ (∀ (s : State) (t : Nat) (src : Source) (val : Word), s.Runs → s.Quiet →
      ((s.begin t).Admits src 0xF0014 → (s.begin t).AloneAt src 0xF0014 →
        ∃ u, exec (.sliceFaultInject t src val) s = .next u ∧ u.fld Fld.TST_SLICE_CH 0 = bitsOf 3 0 val ∧ u.fld Fld.TST_SLICE_KIND 0 = bitsOf 7 6 val
          ∧ u.fld Fld.TST_SLICE_SLICE 0 = (if bitsOf 5 4 val = 3 then s.fld Fld.TST_SLICE_SLICE 0 else bitsOf 5 4 val)
          ∧ u.fld Fld.TST_SLICE_BIT 0 = min 13 (bitsOf 11 8 val))
      ∧ ((s.begin t).Admits src 0xF0020 → (s.begin t).AloneAt src 0xF0020 →
        ∃ u, exec (.dummyLoadSelect t src val) s = .next u
          ∧ (∀ n, n < s.lanes → bit (u.fld Fld.TST_DUMMY_LANES 0) n = if (s.laneOf n).st = .off then bit (bitsOf 7 0 val) n else s.dummy n))
      ∧ ((s.begin t).Admits src 0xF0024 → (s.begin t).AloneAt src 0xF0024 → s.dummy (bitsOf 2 0 val) = true → bitsOf 6 4 val ≤ 5 →
        ∃ u, exec (.emitFaultInject t src val) s = .next u ∧ u.fld Fld.TST_EMITFLT_LANE 0 = bitsOf 2 0 val
          ∧ u.fld Fld.TST_EMITFLT_STRING 0 = bitsOf 3 3 val ∧ u.fld Fld.TST_EMITFLT_KIND 0 = bitsOf 6 4 val)
      ∧ ((s.begin t).Admits src 0xF0024 → (s.begin t).AloneAt src 0xF0024 → s.dummy (bitsOf 2 0 val) = false →
        ∃ u, exec (.emitFaultInject t src val) s = .next u ∧ u.fld Fld.TST_EMITFLT_LANE 0 = s.fld Fld.TST_EMITFLT_LANE 0
          ∧ (bitsOf 6 4 val = 0 → u.fld Fld.TST_EMITFLT_KIND 0 = 0)))
  ∧ (∀ (s : State) (t : Nat) (src : Source) (target : Nat) (double : Bool), s.Runs → s.Quiet → (s.begin t).Admits src 0xF0018 →
      (s.begin t).AloneAt src 0xF0018 → target ≤ 4 →
      ∃ u, exec (.eccInject t src target double) s = .next u ∧ u.fld Fld.TST_ECC_TARGET 0 = target ∧ u.flag Fld.TST_ECC_DOUBLE 0 = double
        ∧ u.sys.eccArm = some (target, double, if target = 0 then 8 * s.fld Fld.TST_ECCADDR_ADDR 0 else s.fld Fld.TST_ECCADDR_ADDR 0)
        ∧ u.mem = s.mem ∧ u.eng = s.eng)
  ∧ (∀ (s : State) (t : Nat) (src : Source) (q : Nat), s.Runs → q < 64 → (s.begin t).Admits src (Fld.QUE_Qq_DOORBELL_SUBMIT.at q) →
      (s.flag Fld.QUE_Qq_STAT_SUBBUSY q = true →
        exec (.queueDoorbell t src q) s = .next (s.after t (fun r => r.clamp src (Fld.QUE_Qq_DOORBELL_SUBMIT.at q) 1 0 rsState 0 0)))
      ∧ (s.flag Fld.QUE_Qq_STAT_SUBBUSY q = false →
        (s.checkSubmit q .host (s.subImage q) = none →
          ∃ u f, exec (.queueDoorbell t src q) s = .next u ∧ u.flag Fld.QUE_Qq_STAT_SUBBUSY q = true ∧ (u.queue q).entries = (s.queue q).entries
            ∧ (u.queue q).inflight = (s.queue q).inflight ++ [f] ∧ f.prod = .host ∧ f.seq = nextSeq (s.lastSeq q)
            ∧ u.fld Fld.QUE_Qq_ACC_SEQ_SEQ q = s.fld Fld.QUE_Qq_ACC_SEQ_SEQ q)
        ∧ ∀ res, s.checkSubmit q .host (s.subImage q) = some res →
            ∃ u, exec (.queueDoorbell t src q) s = .next u ∧ u.fld Fld.QUE_Qq_STAT_RESULT q = res ∧ u.que = s.que ∧ u.mem = s.mem
              ∧ (res = resDup → u.fld Fld.QUE_Qq_DUPSEQ_SEQ q = ((s.dupOf q (s.subImage q)).getD 0) % 2 ^ 31)
              ∧ (res = resQfull → u.fld Fld.QUE_QFULL_CNT 0 = (s.fld Fld.QUE_QFULL_CNT 0 + 1) % 2 ^ 32)
              ∧ (res = resCrc → u.fld Fld.QUE_CRC_CNT 0 = (s.fld Fld.QUE_CRC_CNT 0 + 1) % 2 ^ 32)))
  ∧ (∀ (s : State) (t : Nat) (src : Source) (q seq : Nat), s.Runs → q < 64 → (s.begin t).Admits src (0xA402C + 0x100 * q) → seq < 2 ^ 31 →
      (∀ d, (s.queue q).oldest = some d → d.seq = seq → s.cons q = consHost →
        ∃ u, exec (.hostDone t src q seq) s = .next u ∧ u.flag Fld.QUE_Qq_STAT_DONEERR q = false
          ∧ (u.queue q).entries = (s.queue q).entries.map (fun e => if e.seq = seq then { e with done := true } else e))
      ∧ ((∀ d, (s.queue q).oldest = some d → d.seq ≠ seq ∨ s.cons q ≠ consHost) →
        exec (.hostDone t src q seq) s = .next (s.after t (fun r => r.setFlag Fld.QUE_Qq_STAT_DONEERR q true))))
  ∧ (∀ (s : State) (src : Source) (a : Nat) (f : State → State) (r : RegDef) (k : Nat), regAt a = some (r, k) →
      (s.AloneAt src a → ∃ e, s.meets src a f = { f s with regs := { (f s).regs with edge := e } } ∧ e.wrote.head? = some ⟨src, a, s.live a, s.staged a⟩)
      ∧ ∀ w fd, w ∈ s.edgeNow.wrote → w.addr = a → srcRank src < srcRank w.src → fd ∈ r.fields →
          (fd.acc = .rw → bitsOf fd.hi fd.lo ((s.meets src a f).live a) = bitsOf fd.hi fd.lo (s.live a))
          ∧ (fd.acc = .rws → bitsOf fd.hi fd.lo ((s.meets src a f).staged a) = bitsOf fd.hi fd.lo (s.staged a)))
  ∧ ∀ (s : State) (t : Nat) (src : Source) (img : List Byte), s.Runs → s.Quiet → (s.begin t).Admits src Fld.NET_BOOTCTL_READY.addr →
      (s.begin t).AloneAt src Fld.NET_BOOTCTL_READY.addr →
      s.flag Fld.NET_STAT_BOOTWAIT 0 = true → s.boot.ready = false → img = s.boot.stream ++ s.stageBytes →
      (headerOk img = true → img.length < imageGet img 8 4 →
        ∃ u, exec (.bootChunkReady t src) s = .next u ∧ u.boot.stream = img ∧ u.boot.stage = s.boot.stage
          ∧ u.fld Fld.NET_BOOTREQ_OFFSET 0 = img.length % 2 ^ 32 ∧ u.flag Fld.NET_STAT_BOOTWAIT 0 = true)
      ∧ (headerOk img = false ∨ imageGet img 8 4 ≤ img.length →
        exec (.bootChunkReady t src) s = .next (s.after t (fun r =>
          ({ r.meets src Fld.NET_BOOTCTL_READY.addr (fun r => r) with boot := { r.boot with stage := [], stream := [] } }.setFlag Fld.NET_STAT_BOOTWAIT 0 false).verify
            img)))

/-- A guarded pair opens with its value, takes effect when its complement follows from the same source in time, and is discarded with GUARD_FAULT set and SYS_GUARD_CNT
counted when the complement does not match, when its time is over, or when a complement comes with no pair open (R443, R444). -/
def Obligations.GuardedPairs : Prop :=
  (∀ (s : State) (t : Nat) (src : Source) (addr val : Word), s.Runs → s.Quiet → s.deaf src = false → guardedRegs.contains addr.toNat = true →
    exec (.guardedFirstWrite t src addr val) s
      = .next (s.after t (fun r => { r with sys := { r.sys with guards := [⟨src, addr.toNat, val, r.now⟩] } })))
  ∧ (∀ (s : State) (t : Nat) (src : Source) (addr val : Word) (g : Guard), s.Runs → s.sys.guards = [g] → s.sys.held = [] → guardedRegs.contains g.addr = true →
      s.deaf src = false → addr.toNat = g.addr + 0x800 → g.src = src → (s.begin t).now ≤ g.openAt + 8 * s.fld Fld.SYS_GUARD_TMO_TMO 0 →
      (val = ~~~ g.val →
        exec (.guardedComplementWrite t src addr val) s
          = .next (s.after t (fun r => (({ r with sys := { r.sys with guards := [] } }).pairDone true src g.addr g.val).settled)))
      ∧ (val ≠ ~~~ g.val →
        exec (.guardedComplementWrite t src addr val) s
          = .next (s.after t (fun r => ({ r with sys := { r.sys with guards := [] } }).guardFault))))
  ∧ (∀ (s : State) (t : Nat) (src : Source) (addr val : Word), s.Runs → s.Quiet → s.deaf src = false → (∃ a, a ∈ guardedRegs ∧ addr.toNat = a + 0x800) →
      exec (.guardedComplementWrite t src addr val) s = .next (s.after t (fun r => r.guardFault)))
  ∧ (∀ (s : State) (t win : Nat) (g : Guard), s.Runs → s.sys.guards = [g] → s.sys.held = [] → g.addr / 0x10000 = win →
      g.openAt + 8 * s.fld Fld.SYS_GUARD_TMO_TMO 0 ≤ (s.begin t).now →
      exec (.guardTimeout t win) s = .next (s.after t (fun r => ({ r with sys := { r.sys with guards := [] } }).guardFault)))
  ∧ ∀ (r : State), r.guardFault.flag Fld.SYS_STAT_GUARD_FAULT 0 = true
      ∧ r.guardFault.fld Fld.SYS_GUARD_CNT 0 = (r.fld Fld.SYS_GUARD_CNT 0 + 1) % 2 ^ 32

/-- Commands that write a guarded register as a whole pair, with no pair open in its window and no lock in the way: SYS_CTRL, SYS_CRC_REF and TWN_CTRL take the
value with one field changed (R41, R420, R429, R447, R448, R451, R458, R468). EXPERT_EN is set through its pair and stays; a write of SYS_CRC_REF sets the
reference and ends a hold; with EXPERT_EN clear, a write to expert space is discarded with reason EXPERT (R39, R447, R448, R451). -/
def Obligations.GuardedCommandsAndExpert : Prop :=
  (
    (∀ (s : State) (t : Nat) (src : Source), s.Runs → s.PairFree 0 →
      ((s.begin t).Admits src 4 →
        exec (.sysRun t src) s = .next (s.after t (fun r => r.meets src 4 (fun r => r.guardApply src 4 (withBits 0 0 (s.live 4) 1))))
        ∧ exec (.warmReset t src) s = .next (s.after t (fun r => r.meets src 4 (fun r => r.guardApply src 4 (withBits 1 1 (s.live 4) 1))))
        ∧ (∀ on, exec (.legacySelect t src on) s = .next (s.after t (fun r => r.meets src 4 (fun r => r.guardApply src 4 (withBits 2 2 (s.live 4) (b2n on))))))
        ∧ exec (.expertEnable t src) s = .next (s.after t (fun r => r.meets src 4 (fun r => r.guardApply src 4 (withBits 3 3 (s.live 4) 1))))
        ∧ exec (.expertDisable t src) s = .next (s.after t (fun r => r.meets src 4 (fun r => r.guardApply src 4 (withBits 3 3 (s.live 4) 0)))))
      ∧ ∀ ref, (s.begin t).Admits src 0x10 →
          exec (.crcRefWrite t src ref) s = .next (s.after t (fun r => r.meets src 0x10 (fun r => r.guardApply src 0x10 ref))))
    ∧ ∀ (s : State) (t : Nat) (src : Source), s.Runs → s.PairFree 14 → (s.begin t).Admits src 0xE0000 →
        exec (.twinEnable t src) s = .next (s.after t (fun r => r.meets src 0xE0000 (fun r => r.guardApply src 0xE0000 1)))
        ∧ exec (.twinDisable t src) s = .next (s.after t (fun r => r.meets src 0xE0000 (fun r => r.guardApply src 0xE0000 0))))
  ∧ (
    (∀ (s : State) (t : Nat) (src : Source), s.Runs → s.PairFree 0 → (s.begin t).Admits src 4 → s.flag Fld.SYS_CTRL_WARM 0 = false →
      ∃ u, exec (.expertEnable t src) s = .next u ∧ u.flag Fld.SYS_CTRL_EXPERT_EN 0 = true ∧ u.flag Fld.SYS_CTRL_RUN 0 = s.flag Fld.SYS_CTRL_RUN 0
        ∧ u.lan = s.lan ∧ u.eng = s.eng ∧ u.mem = s.mem)
    ∧ (∀ (s : State) (t : Nat) (src : Source) (ref : Word), s.Runs → s.PairFree 0 → (s.begin t).Admits src 0x10 →
        ∃ u, exec (.crcRefWrite t src ref) s = .next u ∧ u.live 0x10 = ref ∧ u.sys.hold = none ∧ u.flag Fld.SYS_STAT_HOLD 0 = false)
    ∧ ∀ (s : State) (src : Source) (a : Nat) (val : Word) (f : State → State), a < 0x100000 → expertAt a = true → src ≠ .twin →
        s.flag Fld.SYS_CTRL_EXPERT_EN 0 = false → s.deaf src = false → s.legacy = false → (s.role = 2 → mirrored a = true → src ≠ .spi ∧ src ≠ .mgmt) →
        ∃ old, s.pastLocks src a val f = s.clamp src a val old rsExpert 0 31)

/-- A read of offset + 0x800 returns the bitwise complement of the guarded register's present value; an entry of a configuration list with address bit 0 set is written as
a pair; a management WRITE of both words applies the pair as one unit (R445). -/
def Obligations.ComplementMirror : Prop :=
  (∀ (s : State) (src : Source) (a : Nat), a ∈ guardedRegs → (src = .spi → s.fld Fld.SYS_BOOTSTAGE_STAGE 0 ≠ 15) →
    (s.busRead src (a + 0x800)).2 = ~~~ (s.busRead src a).2 ∧ (s.edgeNow.wrote = [] → (s.busRead src a).2 = s.regView a))
  ∧ (∀ (s : State) (a v : Nat), a % 2 = 0 →
      s.listEntry (a + 1, v) = (s.busWrite .hearth a (BitVec.ofNat 32 v)).busWrite .hearth (a + 0x800) (~~~ BitVec.ofNat 32 v))
  ∧ ∀ (s : State) (a : Nat) (v : Word), s.Quiet → s.deaf .mgmt = false → a ∈ guardedRegs →
      s.busUnit .mgmt [(a, v), (a + 0x800, ~~~ v)] = (s.pairDone true .mgmt a v).settled

/-- Reads with effects and the configuration CRC. A clear-on-read register answers its value, host ports copy it to NET_SPI_LASTRC, and it clears but for what is still
present; SYS_UPTIME_LO latches the high half. A CRC pass that saw a change is discarded; any other shows its result, a match ends a mismatch, and the second mismatch
in a row is declared, counted and shown; a hold ends 2^24 PCLK after it began or was renewed (R447 to R449, R458). A bit of a clear-on-read register that hardware sets
on the edge of the read stays as it was read (R479). A register all of whose fields are read-only takes
no write and posts no report, in a unit that is fitted, and a read of a write-only field returns zero (R17, R433). -/
def Obligations.ReadsAndReadOnlyFields : Prop :=
  (∀ (s : State) (t : Nat) (src : Source) (addr : Word), s.Runs →
    let shut : Prop := s.fld Fld.SYS_BOOTSTAGE_STAGE 0 = 15 ∧ src = .spi ∧ s.flag Fld.SYS_STAT_BOOTFAIL 0 = true ∧ addr.toNat = 0xB0204
    (addr.toNat = 0x200 ∨ addr.toNat = 0xB0204 → ¬ shut → (s.begin t).edgeSets addr.toNat = 0 →
      ∃ regs, exec (.rcRead t src addr) s = .next { s.begin t with regs := regs, resp := leBytes 4 (s.regView addr.toNat).toNat }
        ∧ let u := { s.begin t with regs := regs }
          ((src = .spi ∨ src = .mgmt) → u.live Fld.NET_SPI_LASTRC_VALUE.addr = s.regView addr.toNat)
          ∧ (addr.toNat = 0xB0204 → u.live 0xB0204 = 0)
          ∧ (addr.toNat = 0x200 → u.flag Fld.SYS_STAT_CLAMP 0 = false ∧ u.flag Fld.SYS_STAT_GUARD_FAULT 0 = false
              ∧ u.flag Fld.SYS_STAT_HOLD 0 = (s.flag Fld.SYS_STAT_HOLD 0 && s.sys.hold.isSome)
              ∧ u.flag Fld.SYS_STAT_CRC_MISMATCH 0 = (s.flag Fld.SYS_STAT_CRC_MISMATCH 0 && s.sys.declared)
              ∧ u.flag Fld.SYS_STAT_CRCVALID 0 = s.flag Fld.SYS_STAT_CRCVALID 0)
          ∧ (∀ k, k ≠ addr.toNat → k ≠ Fld.NET_SPI_LASTRC_VALUE.addr → u.live k = s.live k) ∧ u.regs.staged = s.regs.staged)
    ∧ (addr.toNat = 0x200 ∨ addr.toNat = 0xB0204 → ¬ shut →
      ∃ u, exec (.rcRead t src addr) s = .next u ∧ u.resp = leBytes 4 (s.regView addr.toNat).toNat
        ∧ ∀ i, i < 32 → bit ((s.begin t).edgeSets addr.toNat) i = true → bit (u.live addr.toNat).toNat i = bit (s.regView addr.toNat).toNat i)
    ∧ (shut → exec (.rcRead t src addr) s = .next { s.begin t with resp := leBytes 4 0 }))
  ∧ (∀ (s : State) (t : Nat) (src : Source), s.Runs →
      ∃ u, exec (.uptimeLoRead t src) s = .next u ∧ u.resp = leBytes 4 ((s.begin t).uptime % 2 ^ 32)
        ∧ (∀ t2, (u.begin t2).regView 0x60C = BitVec.ofNat 32 ((s.begin t).uptime / 2 ^ 32))
        ∧ u.regs = s.regs ∧ u.lan = s.lan ∧ u.eng = s.eng ∧ u.que = s.que ∧ u.mem = s.mem)
  ∧ (∀ (s : State) (t : Nat), s.Runs →
      ((s.begin t).dev % (65536 * 8) ≠ 0 → exec (.crcPassEnd t) s = .next (s.begin t))
      ∧ ((s.begin t).dev % (65536 * 8) = 0 →
        (s.sys.passDirty = true → exec (.crcPassEnd t) s = .next { s.begin t with sys := { s.sys with passDirty := false } })
        ∧ (s.sys.passDirty = false → (∀ e, e ∈ coveredRegs → (s.begin t).forceSplit e.2.1 e.2.2.1 e.2.2.2 = false) →
          let crc := (s.begin t).configCrc
          let compares : Prop := s.flag Fld.SYS_CRC_CTRL_EN 0 = true ∧ s.sys.hold = none
          (¬ compares →
            ∃ u, exec (.crcPassEnd t) s = .next u ∧ u.fld Fld.SYS_CRC_LIVE_CRC 0 = crc % 2 ^ 32 ∧ u.flag Fld.SYS_STAT_CRCVALID 0 = true
              ∧ u.sys.mismatches = 0 ∧ u.sys.declared = s.sys.declared ∧ u.que = s.que)
          ∧ (compares → s.fld Fld.SYS_CRC_CTRL_ACTION 0 ≠ 2 →
            ∃ u, exec (.crcPassEnd t) s = .next u ∧ u.fld Fld.SYS_CRC_LIVE_CRC 0 = crc % 2 ^ 32 ∧ u.flag Fld.SYS_STAT_CRCVALID 0 = true
              ∧ (crc = s.fld Fld.SYS_CRC_REF_REF 0 →
                u.flag Fld.SYS_STAT_CRC_MISMATCH 0 = false ∧ u.sys.declared = false ∧ u.sys.mismatches = 0 ∧ u.frozen = false ∧ u.que = s.que)
              ∧ (crc ≠ s.fld Fld.SYS_CRC_REF_REF 0 → s.sys.mismatches = 0 →
                u.sys.mismatches = 1 ∧ u.sys.declared = s.sys.declared ∧ u.fld Fld.SYS_CRCFAIL_CNT 0 = s.fld Fld.SYS_CRCFAIL_CNT 0 ∧ u.que = s.que)
              ∧ (crc ≠ s.fld Fld.SYS_CRC_REF_REF 0 → 1 ≤ s.sys.mismatches → s.sys.declared = false →
                u.sys.declared = true ∧ u.flag Fld.SYS_STAT_CRC_MISMATCH 0 = true
                ∧ u.fld Fld.SYS_CRCFAIL_CNT 0 = (s.fld Fld.SYS_CRCFAIL_CNT 0 + 1) % 2 ^ 32
                ∧ (s.fld Fld.SYS_CRC_CTRL_ACTION 0 = 1 → u.flag Fld.SYS_STAT_FROZEN 0 = true ∧ u.frozen = true))))))
  ∧ (∀ (s : State) (t t0 : Nat), s.Runs → s.sys.hold = some t0 →
      (t0 + 2 ^ 24 * 8 ≤ (s.begin t).now → s.fld Fld.SYS_COMMIT_PEND 0 = 0 →
        ∃ regs, exec (.crcHoldEnd t) s = .next { s.begin t with regs := regs, sys := { s.sys with hold := none } }
          ∧ ({ s.begin t with regs := regs } : State).flag Fld.SYS_STAT_HOLD 0 = false)
      ∧ ((s.begin t).now < t0 + 2 ^ 24 * 8 → exec (.crcHoldEnd t) s = .next (s.begin t)))
  ∧ (∀ (s : State) (t : Nat) (src : Source) (addr val : Word) (r : RegDef) (u : Nat), s.Runs → s.Quiet → s.boot.ready = false → s.PlainAt addr.toNat r u →
      (∀ fd, fd ∈ r.fields → fd.acc = .ro ∨ fd.acc = .rc) → exec (.registerWrite t src addr val) s = .next (s.begin t))
  ∧ ∀ (s : State) (a : Nat) (r : RegDef) (u : Nat) (fd : FieldDef), regAt a = some (r, u) → fd ∈ r.fields → fd.acc = .wo ∨ fd.acc = .wog →
      bitsOf fd.hi fd.lo (s.plainRead a) = 0

/-! ### Power, resets, the supervisor and boot (R18 to R38, R395 to R400, R459 to R473) -/

/-- Reset and power: a low level of RESET_N that its filter passes, or a rail out of its tolerance for more than 10 µs, takes everything but the always-on domain to cold
reset; the detectors release the device when every rail has been good for 1 ms, the straps are sampled and the PLL starts; with lock the clocks run and device time counts
from zero; VAON and WAKE start the always-on domain and acquire a feed; the loss of VAON is the loss of everything; and the test port takes its instruction (R24, R26, R92,
R399, R460, R462, R466, R467, R471, R472, R485, R497). -/
def Obligations.PowerAndReset : Prop :=
  (∀ (s : State) (low : ResetLow), s.powered = true →
    (1000 ≤ low.ns → exec (.coldReset low) s = .next (s.after low.t (fun r => r.coldReset 2))) ∧ (low.ns < 100 → exec (.coldReset low) s = .next (s.begin low.t)))
  ∧ (∀ (s : State) (t ns : Nat) (r : RailLevel), s.powered = true →
      let outside : Prop := match r.rail with
        | .vcore => r.uv < 727500 ∨ 772500 < r.uv
        | .vdda09 => r.uv < 882000 ∨ 918000 < r.uv
        | .vddq => r.uv < 1164000 ∨ 1236000 < r.uv
        | .vio33 => r.uv < 3135000 ∨ 3465000 < r.uv
      (outside → 10000 < ns → exec (.railOutOfTolerance t r ns) s
          = .next (s.after t (fun r => ({ r with sys := { r.sys with railsAt := r.now } }).coldReset 2)))
      ∧ (outside → ns ≤ 10000 → exec (.railOutOfTolerance t r ns) s = .next { s.begin t with sys := { s.sys with railsAt := (s.begin t).now } })
      ∧ (¬ outside → exec (.railOutOfTolerance t r ns) s = .next (s.begin t)))
  ∧ (∀ (s : State) (t straps : Nat), s.sys.power = .cold →
      (s.sys.railsAt + 781250 ≤ (s.begin t).now →
        (bit straps 0 = true → ∀ n, n < s.lanes → (s.laneOf n).st = .off ∧ s.wickOn n = false) →
        ∃ u, exec (.resetRelease t straps) s = .next u ∧ u.sys.power = .pll ∧ u.sys.straps = straps % 32 ∧ u.fld Fld.SYS_BOOTSTAGE_STAGE 0 = 1
          ∧ (bit straps 0 = true → u.legacy = true) ∧ u.eng = s.eng ∧ u.mem = s.mem ∧ u.pwr = s.pwr ∧ u.lan = s.lan)
      ∧ ((s.begin t).now < s.sys.railsAt + 781250 → exec (.resetRelease t straps) s = .next (s.begin t)))
  ∧ (∀ (s : State) (t : Nat), s.sys.power = .pll → s.sys.intlkOk = true →
      ∃ u, exec (.pllLock t) s = .next u ∧ u.clocked = true ∧ u.dev = 0 ∧ u.sys.quenchPin = false ∧ u.fld Fld.SYS_BOOTSTAGE_STAGE 0 = 2
        ∧ u.pwr.renewedAt = u.now ∧ u.eng = s.eng ∧ u.mem = s.mem ∧ u.lan = s.lan)
  ∧ (∀ (s : State) (t us a b : Nat), s.sys.power = .hib → 100 ≤ us →
      exec (.wake t us a b) s = .next (s.after t (fun r => (((r.coldReset 3).feedsSeen a b)).acquireAtPower)))
  ∧ (∀ (s : State) (t a b : Nat), s.sys.power = .off → ∃ u, exec (.vaonApply t a b) s = .next u ∧ u.pwr.a.mv = a ∧ u.pwr.b.mv = b ∧ u.pwr.mgmtCtr = 0
      ∧ (10800 < a → u.pwr.holder = some false ∧ u.pwr.pwrEn = true ∧ u.sys.power = .cold))
  ∧ (∀ (s : State) (t : Nat), ∃ u, exec (.vaonRemoved t) s = .next u ∧ u.sys.power = .off ∧ u.pwr.pwrEn = false ∧ u.pwr.holder = none ∧ u.pwr.mgmtCtr = 0 ∧ u.mem = [])
  ∧ ∀ (s : State) (t : Nat) (i : TapInstr), ∃ u, exec (.tapInstruction t i) s = .next u ∧ u.sys.tap = (if i = .priv ∧ s.fixed.dbgLock = true then .bypass else i)
      ∧ (u.tapSafe = true ↔ i = .extest ∨ i = .clamp ∨ i = .highz) ∧ (i = .sample ∨ i = .extest → u.sys.boundary = (s.begin t).boundaryNow)
      ∧ (i = .idcode → u.resp = leBytes 4 s.idcode) ∧ u.eng = s.eng ∧ u.mem = s.mem ∧ u.regs = s.regs

/-- A warm or watchdog reset holds the reset domain for 1,024 PCLK and then releases it; the watchdog is armed by a refresh and expires after 16 ms with a Quench; a lockstep
mismatch restarts Hearth alone, and the duties that fell due meanwhile run when it is back; a clock failure trips Quench and holds the clocks; hibernate, when every lane is
dark and the unit holds no twin lease, stops sequencers and engines at once, takes the rails down at a moment within 2 ms, and both gates 10 ms after that (R25, R36 to R38,
R466 to R468, R470). The moments are those of FEED_SAMPLE (assumption 45). -/
def Obligations.HoldsAndSupervisor : Prop :=
  (∀ (s : State) (t : Nat) (ok : Bool), s.sys.power = .hold → s.sys.powerAt + 1024 * 8 ≤ (s.begin t).now →
    exec (.warmResetHoldEnd t ok) s = .next (s.after t (fun r => r.warmEnd ok)))
  ∧ (∀ (s : State) (t t0 : Nat), s.Runs → s.sys.hearth = true → s.sys.wdog = some t0 →
      exec (.watchdogRefresh t) s = .next (s.after t (fun r => { r with sys := { r.sys with wdog := some r.now } })))
  ∧ (∀ (s : State) (t t0 : Nat), s.Runs → s.sys.wdog = some t0 → t0 + 12500000 ≤ (s.begin t).now →
      exec (.watchdogExpiry t) s = .next (s.after t (fun r => (r.quenchTrip [(5, none)]).warmBegin 5)))
  ∧ (∀ (s : State) (t : Nat), s.Runs → s.sys.hearth = true →
      exec (.lockstepMismatch t) s = .next (s.after t (fun r =>
        ((({ r with sys := { r.sys with hearth := false, hearthRestarts := r.sys.hearthRestarts + 1 } }.setFld Fld.SYS_RSTCAUSE_CAUSE 0 6).setFlag
          Fld.SYS_RSTCAUSE_CLKFAIL 0 false).faultAt 0 0xFF 0x210 0 3))))
  ∧ (∀ (s : State) (t : Nat), s.Runs → s.sys.hearth = false → 3 ≤ s.fld Fld.SYS_BOOTSTAGE_STAGE 0 → s.fld Fld.SYS_BOOTSTAGE_STAGE 0 < 15 →
      exec (.hearthRestartDone t) s = .next (s.after t (fun r =>
        let r0 := if s.fld Fld.SYS_BOOTSTAGE_STAGE 0 = 5 ∧ s.flag Fld.SYS_CTRL_RUN 0 = true
          then { r with sys := { r.sys with wdog := some r.now } }.stage 6 else r
        let r1 := { r0 with sys := { r0.sys with hearth := true, deferred := [] } }
        (if s.flag Fld.TWN_CTRL_EN 0 = false ∧ s.role ≠ 0 then r1.twinOff else r1).mailboxTake.runDuties s.sys.deferred)))
  ∧ (∀ (s : State) (t : Nat) (ppm : Int) (lol : Bool), s.Runs → (1000 < ppm ∨ ppm < -1000 ∨ lol = true) →
      exec (.clockMonitorCheck t ppm lol) s = .next (s.after t State.clockFail))
  ∧ (∀ (s : State) (t : Nat) (src : Source) (wake : Bool), s.Runs → s.PairFree 0 → (s.begin t).Admits src Fld.SYS_HIBCTRL_GO.addr →
      (s.mayHibernate = true → s.sys.hibDue = none →
        ∃ u due, exec (.hibernate t src wake) s = .next u ∧ u.sys.hibDue = some (due, wake) ∧ u.now ≤ due ∧ due ≤ u.now + 1562500
          ∧ (∀ e, e < s.lanes → (u.engine e).st = .halted ∧ (u.engine e).run = false) ∧ (∀ n, n < s.lanes → u.wickOn n = false)
          ∧ (∀ q p img, u.checkSubmit q p img = some resNotPerm))
      ∧ (s.mayHibernate = false →
        exec (.hibernate t src wake) s = .next (s.after t (fun r => r.clamp src Fld.SYS_HIBCTRL_GO.addr 1 0 rsState 0 0))))
  ∧ ∀ (s : State) (t a b due : Nat) (wake : Bool),
      (((s.begin t).feedSample a b).sys.hibDue = some (due, wake) → due ≤ (s.begin t).now →
        exec (.feedSample t a b) s = .next (s.after t (fun r => (r.feedSample a b).hibEnter wake)))
      ∧ (s.hibEnter false).sys.power = .hib ∧ (s.hibEnter false).pwr.pwrEn = false ∧ (s.hibEnter false).pwr.gatesOff = some (s.now + 7812500)
      ∧ (s.hibEnter true) = s.coldReset 3
      ∧ (s.sys.power = .hib → s.sys.hibDue = none → s.pwr.gatesOff = some due → due ≤ (s.begin t).now →
          ∃ u, exec (.feedSample t a b) s = .next u ∧ u.pwr.a.gate = false ∧ u.pwr.b.gate = false ∧ u.pwr.gatesOff = none)

/-- Boot: an image from flash passes or fails as its header, sections, lists, version and authentication say; training ends in READY and APPLY or in the stop of
bring-up, where a channel that passed still shows its training; the lists are applied in image order and the DRAM loads written; READY or RUN follows (R320, R321, R395, R396,
R397, R463, R464). An image with a wrong
magic or header CRC, a section whose CRC does not hold, or more than 64 KiB of configuration lists never passes; with the fuse BOOTAUTH one whose HMAC does not
hold does not pass either; a flash image that fails twice leaves BOOTFAIL set, the boot stopped and QUENCH_N low (R396, R397, R464). -/
def Obligations.BootAndImages : Prop :=
  (
    (∀ (s : State) (t : Nat) (image : List Byte), s.Runs → s.fld Fld.SYS_BOOTSTAGE_STAGE 0 = 2 → s.bootSrc ≠ 2 →
      let im := image.take (imageGet image 8 4)
      exec (.bootVerifyDone t image) s = .next (s.after t (fun r => if s.fixed.imageOk s.boot.flashAt image then r.imagePass im else r.imageFail im)))
    ∧ (∀ (s : State) (t temp : Nat) (v : List Nat), s.Runs → s.sys.hearth = true → s.fld Fld.SYS_BOOTSTAGE_STAGE 0 = 3 →
        (s.misfit = false →
          exec (.trainingDone t none none v temp) s = .next (s.after t (fun r => ((r.memReady v temp).payloadsDue.sendHeld).stage 4))
          ∧ (∀ k, exec (.trainingDone t (some k) none v temp) s = .next (s.after t (fun r => ((r.trainFail 0 k).trained 1 v).stage 15)))
          ∧ ∀ k, exec (.trainingDone t none (some k) v temp) s = .next (s.after t (fun r => ((r.trained 0 v).trainFail 1 k).stage 15)))
        ∧ ∀ k j, exec (.trainingDone t (some k) (some j) v temp) s = .next (s.after t (fun r => ((r.trainFail 0 k).trainFail 1 j).stage 15)))
    ∧ ∀ (s : State) (t : Nat), s.Runs → s.sys.hearth = true → s.fld Fld.SYS_BOOTSTAGE_STAGE 0 = 4 →
        exec (.bootApplyDone t) s = .next (s.after t (fun r =>
          let r1 := s.boot.lists.foldl State.listEntry r
          let r2 := s.boot.loads.foldl (fun r x => r.loadWords x.1 (wordsOf (x.2.length / 4 + 1) x.2)) r1
          { r2 with boot := { r2.boot with lists := [], loads := [] } }.hearthUp)))
  ∧ (
    (∀ (fx : Fixed) (base : Nat) (img : List Byte), (headerOk img = false ∨ sectionsOk base (img.take (imageGet img 8 4)) = false
        ∨ listsFit base (img.take (imageGet img 8 4)) = false
        ∨ fx.rev < imageGet (img.take (imageGet img 8 4)) 12 4 ∨ (fx.bootAuth = true ∧ hmacOk fx.key (img.take (imageGet img 8 4)) = false)) → fx.imageOk base img = false)
    ∧ (∀ (s : State) (img : List Byte),
        (s.bootSrc = 1 ∨ s.bootSrc = 3 → s.flag Fld.SYS_BOOTSTAGE_SECONDARY 0 = false →
          (s.imageFail img).flag Fld.SYS_BOOTSTAGE_SECONDARY 0 = true ∧ (s.imageFail img).boot.flashAt = 0x1000000)
        ∧ ((s.bootSrc ≠ 1 ∧ s.bootSrc ≠ 3) ∨ s.flag Fld.SYS_BOOTSTAGE_SECONDARY 0 = true →
          (s.imageFail img).fld Fld.SYS_BOOTSTAGE_STAGE 0 = 15 ∧ (s.imageFail img).flag Fld.SYS_STAT_BOOTFAIL 0 = true))
    ∧ ∀ (s : State), s.bootFail.sys.quenchPin = true ∧ s.bootFail.flag Fld.SYS_STAT_BOOTFAIL 0 = true ∧ s.bootFail.fld Fld.SYS_BOOTSTAGE_STAGE 0 = 15
        ∧ s.bootFail.quenchN = false)

/-! ### Anvil: instructions of one engine (R234 to R252) -/

/-- SALU computes sD ← sA op sB, and SALUI sD ← sA op IMM with the same FN; shifts use bits [4:0] of the second operand; a word of either group with SAT or BX
set is no instruction (R236). Ticks and latencies are outside the model (assumption 1). CLS counts the bits below the sign bit that equal it, and CLZ the zero
bits above the highest one (R236). -/
def Obligations.ScalarInstructions : Prop :=
  (
    let Computes (c ci : Nat → Nat → Instr) (fn : Nat) (f : Word → Word → Word) : Prop :=
      Retires c 0x01 fn (fun w x => x.setS (wD w) (f (x.sreg (wA w)) (x.sreg (wB w))))
      ∧ Retires ci 0x02 fn (fun w x => x.setS (wD w) (f (x.sreg (wA w)) (BitVec.ofNat 32 (wImm w))))
    Computes .add .addi 0x00 (fun a b => a + b)
    ∧ Computes .sub .subi 0x01 (fun a b => a - b)
    ∧ Computes .and .andi 0x02 (fun a b => a &&& b)
    ∧ Computes .or .ori 0x03 (fun a b => a ||| b)
    ∧ Computes .xor .xori 0x04 (fun a b => a ^^^ b)
    ∧ Computes .shl .shli 0x05 (fun a b => a <<< (b.toNat % 32))
    ∧ Computes .shr .shri 0x06 (fun a b => a >>> (b.toNat % 32))
    ∧ Computes .sar .sari 0x07 (fun a b => a.sshiftRight (b.toNat % 32))
    ∧ Computes .min .mini 0x08 (fun a b => BitVec.ofInt 32 (min a.toInt b.toInt))
    ∧ Computes .max .maxi 0x09 (fun a b => BitVec.ofInt 32 (max a.toInt b.toInt))
    ∧ Computes .minu .minui 0x0A (fun a b => BitVec.ofNat 32 (min a.toNat b.toNat))
    ∧ Computes .maxu .maxui 0x0B (fun a b => BitVec.ofNat 32 (max a.toNat b.toNat))
    ∧ Computes .mul .muli 0x0C (fun a b => BitVec.ofInt 32 (a.toInt * b.toInt))
    ∧ Computes .mulh .mulhi 0x0D (fun a b => BitVec.ofInt 32 (a.toInt * b.toInt / 2 ^ 32))
    ∧ Computes .slt .slti 0x0E (fun a b => if a.toInt < b.toInt then 1 else 0)
    ∧ Computes .sltu .sltui 0x0F (fun a b => if a.toNat < b.toNat then 1 else 0)
    ∧ Computes .cls .clsi 0x10 (fun a _ => BitVec.ofNat 32 (signBits 32 a.toInt))
    ∧ Computes .clz .clzi 0x11 (fun a _ => BitVec.ofNat 32 (if a = 0 then 32 else 31 - Nat.log2 a.toNat))
    ∧ ∀ w, wOp w = 0x01 ∨ wOp w = 0x02 → wSat w = true ∨ wBx w = true → anvDecode w = none)
  ∧ (
    (∀ a : Word, signBits 32 a.toInt ≤ 31 ∧ ∀ n, n ≤ 31 → (n ≤ signBits 32 a.toInt ↔ ∀ i, 31 - n ≤ i → i ≤ 31 → a.getLsbD i = a.getLsbD 31))
    ∧ ∀ a : Word, ∀ n, n ≤ 32 → (n ≤ (if a = 0 then 32 else 31 - Nat.log2 a.toNat) ↔ ∀ i, 32 - n ≤ i → i < 32 → a.getLsbD i = false))

/-- The pointer file: PSET and PSETI write the register that FN and D name, PGET reads one, PMOD adds the pointer's m and PSTEP an immediate by the pointer's mode
(R204, R205, R237). -/
def Obligations.PointerInstructions : Prop :=
  (∀ k, k ≤ 4 →
    Retires .pset 0x08 k (fun w x => x.setPtr k (wD w) (x.sreg (wA w)))
    ∧ Retires .pseti 0x09 k (fun w x => x.setPtr k (wD w) (BitVec.ofNat 32 (wImm w)))
    ∧ Retires .pget 0x0A k (fun w x => x.setS (wD w) (x.ptrReg k (wA w))))
  ∧ Retires .pmod 0x0B 0 (fun w x => x.bump (wD w) (x.m.getD (wD w) 0))
  ∧ Retires .pstep 0x0B 1 (fun w x => x.bump (wD w) (BitVec.ofNat 32 (wImm w)))

/-- Comparisons write the active bits of predicate D from signed 32-bit lanes, and VTINV from halves that hold INVALID; the predicate instructions combine predicates
and move them to and from scalars; a word of either group with SAT or BX set is no instruction (R235, R246). -/
def Obligations.PredicateInstructions : Prop :=
  (
    let Compares (c : Nat → Nat → Instr) (fn : Nat) (f : Vec → Vec → Nat → Bool) : Prop := Retires c 0x18 fn (fun w x =>
      x.setK (wD w) (BitVec.ofNat 16 (lanes16.foldl (fun m j =>
        m + 2 ^ j * b2n (if x.active w j then f (x.vec (wA w)) (x.vec (wB w)) j else (x.pred (wD w)).getLsbD j)) 0)))
    Compares .vcmpeq 0x00 (fun a b j => decide (a.lane j = b.lane j))
    ∧ Compares .vcmpne 0x01 (fun a b j => decide (a.lane j ≠ b.lane j))
    ∧ Compares .vcmplt 0x02 (fun a b j => (a.lane j).slt (b.lane j))
    ∧ Compares .vcmple 0x03 (fun a b j => (a.lane j).sle (b.lane j))
    ∧ Compares .vcmpgt 0x04 (fun a b j => (b.lane j).slt (a.lane j))
    ∧ Compares .vcmpge 0x05 (fun a b j => (b.lane j).sle (a.lane j))
    ∧ Compares .vtinv 0x06 (fun a _ j => decide ((a.lane j).toNat % 2 ^ 16 = 0x8000) || decide ((a.lane j).toNat / 2 ^ 16 = 0x8000)))
  ∧ Retires .kand 0x19 0x00 (fun w x => x.setK (wD w) (x.pred (wA w) &&& x.pred (wB w)))
  ∧ Retires .kor 0x19 0x01 (fun w x => x.setK (wD w) (x.pred (wA w) ||| x.pred (wB w)))
  ∧ Retires .kxor 0x19 0x02 (fun w x => x.setK (wD w) (x.pred (wA w) ^^^ x.pred (wB w)))
  ∧ Retires .kandn 0x19 0x03 (fun w x => x.setK (wD w) (x.pred (wA w) &&& ~~~ x.pred (wB w)))
  ∧ Retires .knot 0x19 0x04 (fun w x => x.setK (wD w) (~~~ x.pred (wA w)))
  ∧ Retires .kfrom 0x19 0x05 (fun w x => x.setK (wD w) ((x.sreg (wA w)).setWidth 16))
  ∧ Retires .kto 0x19 0x06 (fun w x => x.setS (wD w) ((x.pred (wA w)).setWidth 32))
  ∧ Retires .kpop 0x19 0x07 (fun w x => x.setS (wD w) (BitVec.ofNat 32 (lanes16.filter (fun j => (x.pred (wA w)).getLsbD j)).length))
  ∧ ∀ w, wOp w = 0x18 ∨ wOp w = 0x19 → wSat w = true ∨ wBx w = true → anvDecode w = none

/-- The vector instructions of VALU and VMUL: each retires with the results of its lanes or halves, shifted with convergent rounding and narrowed once (R239). A vector
result is written in the active lanes alone and leaves every other register as it was; an active lane out of its format sets VOV, and BX lowers HEAD to the least headroom
written, if that is smaller (R208, R235). A shift goes to the nearest value and from a half to the even one; a value in its format is kept, and one outside becomes the
nearest of plus and minus the largest value under SAT and keeps its low bits without (R234). -/
def Obligations.VectorArithmetic : Prop :=
  (
    let Words (c : Nat → Nat → Instr) (op fn : Nat) (f : Nat → Vec → Vec → Nat → LaneOut) : Prop :=
      Retires c op fn (fun w x => x.setLanes w (fun j => f w (x.vec (wA w)) (x.vec (wB w)) j))
    let Halves (c : Nat → Nat → Instr) (op fn : Nat) (sat : Bool) (sh : Nat → Engine → Nat) (f : Int → Int → Int) : Prop :=
      Retires c op fn (fun w x => x.setLanes w (fun j =>
        let a := x.vec (wA w)
        let b := x.vec (wB w)
        halfLane (sat && wSat w) (shrEven (f (a.lo j) (b.lo j)) (sh w x)) (shrEven (f (a.hi j) (b.hi j)) (sh w x))))
    Words .vadd 0x10 0x00 (fun w a b j => wideLane (wSat w) (a.int j + b.int j))
    ∧ Words .vsub 0x10 0x01 (fun w a b j => wideLane (wSat w) (a.int j - b.int j))
    ∧ Halves .vaddh 0x10 0x02 true (fun w x => wC w + x.scale w) (fun a b => a + b)
    ∧ Halves .vsubh 0x10 0x03 true (fun w x => wC w + x.scale w) (fun a b => a - b)
    ∧ Words .vand 0x10 0x04 (fun _ a b j => plainLane (a.lane j &&& b.lane j))
    ∧ Words .vor 0x10 0x05 (fun _ a b j => plainLane (a.lane j ||| b.lane j))
    ∧ Words .vxor 0x10 0x06 (fun _ a b j => plainLane (a.lane j ^^^ b.lane j))
    ∧ Words .vmin 0x10 0x07 (fun _ a b j => plainLane (BitVec.ofInt 32 (min (a.int j) (b.int j))))
    ∧ Words .vmax 0x10 0x08 (fun _ a b j => plainLane (BitVec.ofInt 32 (max (a.int j) (b.int j))))
    ∧ Halves .vminh 0x10 0x09 false (fun _ _ => 0) min
    ∧ Halves .vmaxh 0x10 0x0A false (fun _ _ => 0) max
    ∧ Words .vabs 0x10 0x0B (fun w a _ j => wideLane (wSat w) ((a.int j).natAbs : Int))
    ∧ Halves .vabsh 0x10 0x0C true (fun w x => wC w + x.scale w) (fun a _ => (a.natAbs : Int))
    ∧ Words .vshl 0x10 0x0D (fun w a _ j => wideLane (wSat w) (a.int j * 2 ^ wC w))
    ∧ Words .vsar 0x10 0x0E (fun w a _ j => wideLane false (shrEven (a.int j) (wC w)))
    ∧ Halves .vsarh 0x10 0x0F false (fun w x => wC w + x.scale w) (fun a _ => a)
    ∧ Words .vmov 0x10 0x10 (fun _ a _ j => plainLane (a.lane j))
    ∧ Words .vswaph 0x10 0x14 (fun _ a _ j => plainLane (joinHalves ((a.lane j).toNat / 2 ^ 16) ((a.lane j).toNat % 2 ^ 16)))
    ∧ Halves .vmulh 0x11 0x00 true (fun w x => 15 + wC w + x.scale w) (fun a b => a * b)
    ∧ Words .vmulw 0x11 0x02 (fun w a b j => wideLane (wSat w) (shrEven (a.int j * b.int j) 31))
    ∧ Words .vmuli 0x11 0x03 (fun _ a b j => wideLane false (a.lo j * b.lo j)))
  ∧ Retires .vbcst 0x10 0x11 (fun w x => x.setLanes w (fun _ => plainLane (x.sreg (wA w))))
  ∧ Retires .vbcsth 0x10 0x12 (fun w x => x.setLanes w (fun _ => plainLane (joinHalves (x.sreg (wA w)).toNat (x.sreg (wA w)).toNat)))
  ∧ Retires .vsel 0x10 0x13 (fun w x =>
      x.setLanes w (fun j => plainLane (if (x.pred (wK w)).getLsbD j = true then (x.vec (wA w)).lane j else (x.vec (wB w)).lane j)))
  ∧ Retires .vext 0x10 0x15 (fun w x => x.setS (wD w) ((x.vec (wA w)).lane (wC w)))
  ∧ Retires .vmulhb 0x11 0x01 (fun w x =>
      let b := signed 16 (x.sreg (wB w)).toNat
      x.setLanes w (fun j => halfLane (wSat w) (shrEven ((x.vec (wA w)).lo j * b) (15 + x.scale w)) (shrEven ((x.vec (wA w)).hi j * b) (15 + x.scale w))))
  ∧ (∀ (x : Engine) (w : Nat) (f : Nat → LaneOut),
      let y := x.setLanes w f
      (∀ j, j < 16 → (y.vec (wD w)).lane j = if x.active w j = true then (f j).val else (x.vec (wD w)).lane j)
      ∧ (∀ i, i ≠ wD w → y.vec i = x.vec i)
      ∧ (y.vov = true ↔ x.vov = true ∨ ∃ j, j < 16 ∧ x.active w j = true ∧ (f j).ov = true)
      ∧ (wBx w = false → y.bexp = x.bexp)
      ∧ (wBx w = true → x.bexp.head ≤ 15 → y.bexp.head ≤ x.bexp.head ∧ (∀ j, j < 16 → x.active w j = true → y.bexp.head ≤ (f j).head)
          ∧ (y.bexp.head = x.bexp.head ∨ ∃ j, j < 16 ∧ x.active w j = true ∧ y.bexp.head = (f j).head))
      ∧ y.s = x.s ∧ y.a = x.a ∧ y.k = x.k ∧ y.p = x.p ∧ y.aov = x.aov ∧ y.dmem = x.dmem)
  ∧ (∀ (x : Int) (n : Nat), 2 * (shrEven x n * 2 ^ n - x) ≤ 2 ^ n ∧ -(2 ^ n : Int) ≤ 2 * (shrEven x n * 2 ^ n - x)
      ∧ ((2 * (shrEven x n * 2 ^ n - x) = 2 ^ n ∨ 2 * (shrEven x n * 2 ^ n - x) = -(2 ^ n)) → 0 < n → shrEven x n % 2 = 0))
  ∧ (∀ (sat : Bool) (x : Int),
      ((wideLane sat x).ov = true ↔ ¬ (-(2 ^ 31) ≤ x ∧ x < 2 ^ 31))
      ∧ ((wideLane sat x).ov = false → (wideLane sat x).val.toInt = x)
      ∧ ((wideLane sat x).ov = true → (wideLane sat x).val = if sat = false then BitVec.ofInt 32 x else if x < 0 then BitVec.ofInt 32 (-(2 ^ 31 - 1)) else 0x7FFFFFFF))
  ∧ ∀ (sat : Bool) (lo hi : Int),
      let part (x : Int) : Int :=
        if -(2 ^ 15) ≤ x ∧ x < 2 ^ 15 then x else if sat = false then signed 16 (wrapInt 16 x) else if x < 0 then -32767 else 32767
      let r := halfLane sat lo hi
      signed 16 r.val.toNat = part lo ∧ signed 16 (r.val.toNat / 2 ^ 16) = part hi
      ∧ (r.ov = true ↔ ¬ ((-(2 ^ 15) ≤ lo ∧ lo < 2 ^ 15) ∧ (-(2 ^ 15) ≤ hi ∧ hi < 2 ^ 15)))
      ∧ r.head = min (signBits 16 (part lo)) (signBits 16 (part hi))

/-- The multiply-accumulate instructions on vector registers and on rows of data memory. A dot form works on one accumulator with both products of a lane, a pair form
on two with one product each; a memory form reads [P] and [Q], whose addresses stand before either update, and updates P and then Q; two rows of one bank lose a tick
(R196, R206, R207, R230, R238, R240). -/
def Obligations.MultiplyAccumulate : Prop :=
  let prod (lo : Bool) (a b : Vec) (j : Nat) : Int := if lo then a.lo j * b.lo j else a.hi j * b.hi j
  let Dot (keep : Int) (w : Nat) (a b : Vec) (x : Engine) : Engine :=
    x.setAccs w [wD w] (fun _ j => (if keep = 0 then 0 else (x.acc (wD w)).int j) + (if keep = -1 then -1 else 1) * (prod true a b j + prod false a b j))
  let Pair (keep : Int) (w : Nat) (a b : Vec) (x : Engine) : Engine :=
    x.setAccs w [wD w, wD w + 1] (fun k j => (if keep = 0 then 0 else (x.acc k).int j) + (if keep = -1 then -1 else 1) * prod (k = wD w) a b j)
  let Regs (c : Nat → Nat → Instr) (fn : Nat) (f : Nat → Vec → Vec → Engine → Engine) : Prop :=
    Retires c 0x12 fn (fun w x => f w (x.vec (wA w)) (x.vec (wB w)) x)
  let Rows (c : Nat → Nat → Instr) (fn : Nat) (f : Nat → Vec → Vec → Engine → Engine) : Prop :=
    ∀ (s : State) (t e w n : Nat), s.EngineAt e w 0x13 fn → n = (if wV w then 2 else 64) →
      let r := (s.begin t).fetched e
      let a := (s.engine e).ea (wP w)
      let b := (s.engine e).ea (wQ w)
      r.DataAt e a 64 64 → (r.dataRead e a 64).DataAt e b n n →
      exec (c t e) s = .next (s.after t (fun r =>
        let r2 := ((r.fetched e).dataRead e a 64).dataRead e b n
        let q := (s.engine e).load b n
        let vb := if wV w then vecOf (fun _ => joinHalves q q) else rowVec q
        (r2.only (a / 64 % 8 = b / 64 % 8) (fun r => r.count Fld.ANV_STALL_CNT e 1)).finish e
          (fun x => ((f w (rowVec ((s.engine e).load a 64)) vb x).postMod (wU w) (wP w)).postMod (wUq w) (wQ w))))
  Regs .vmac2 0 (Dot 1) ∧ Regs .vmsu2 1 (Dot (-1)) ∧ Regs .vmul2 2 (Dot 0)
  ∧ Regs .vmacp 3 (Pair 1) ∧ Regs .vmsup 4 (Pair (-1)) ∧ Regs .vmulp 5 (Pair 0)
  ∧ Rows .vmac2Mem 0 (Dot 1) ∧ Rows .vmsu2Mem 1 (Dot (-1)) ∧ Rows .vmul2Mem 2 (Dot 0)
  ∧ Rows .vmacpMem 3 (Pair 1) ∧ Rows .vmsupMem 4 (Pair (-1)) ∧ Rows .vmulpMem 5 (Pair 0)

/-- Moves into and out of the accumulators, and the complex instructions: products are formed exactly and rounded once (R234, R241, R243). -/
def Obligations.AccumulatorsAndComplex : Prop :=
  let re (conj : Bool) (a b : Vec) (j : Nat) : Int := a.lo j * b.lo j + (if conj then 1 else -1) * (a.hi j * b.hi j)
  let im (conj : Bool) (a b : Vec) (j : Nat) : Int := a.hi j * b.lo j + (if conj then -1 else 1) * (a.lo j * b.hi j)
  let Mul (c : Nat → Nat → Instr) (fn : Nat) (conj : Bool) : Prop := Retires c 0x15 fn (fun w x => x.setLanes w (fun j =>
    halfLane (wSat w) (shrEven (re conj (x.vec (wA w)) (x.vec (wB w)) j) (15 + wC w + x.scale w))
      (shrEven (im conj (x.vec (wA w)) (x.vec (wB w)) j) (15 + wC w + x.scale w))))
  let Mac (c : Nat → Nat → Instr) (fn : Nat) (conj : Bool) : Prop := Retires c 0x15 fn (fun w x => x.setAccs w [wD w, wD w + 1] (fun k j =>
    (x.acc k).int j + (if k = wD w then re conj (x.vec (wA w)) (x.vec (wB w)) j else im conj (x.vec (wA w)) (x.vec (wB w)) j)))
  Retires .aclr 0x14 0 (fun w x => x.setAccs w [wD w] (fun _ _ => 0))
  ∧ Retires .amov 0x14 1 (fun w x => x.setAccs w [wD w] (fun _ j => (x.vec (wA w)).int j))
  ∧ Retires .aadd 0x14 2 (fun w x => x.setAccs w [wD w] (fun _ j => (x.acc (wD w)).int j + (x.acc (wA w)).int j))
  ∧ Retires .vpack 0x14 3 (fun w x => x.setLanes w (fun j =>
      halfLane (wSat w) (shrEven ((x.acc (wA w)).int j) (wC w + x.scale w)) (shrEven ((x.acc (wB w)).int j) (wC w + x.scale w))))
  ∧ Retires .vnarw 0x14 4 (fun w x => x.setLanes w (fun j => wideLane (wSat w) (shrEven ((x.acc (wA w)).int j) (wC w))))
  ∧ Retires .ared 0x14 5 (fun w x =>
      let v := shrEven (lanes16.foldl (fun m j => m + (x.acc (wA w)).int j) 0) (wC w)
      { x with vov := x.vov || !fits 32 v }.setS (wD w) (BitVec.ofNat 32 (narrow (wSat w) 32 v)))
  ∧ Mul .cmul 0 false ∧ Mul .cmulc 1 true ∧ Mac .cmac 2 false ∧ Mac .cmacc 3 true
  ∧ Retires .cmag2 0x15 4 (fun w x => x.setLanes w (fun j => wideLane (wSat w) ((x.vec (wA w)).lo j ^ 2 + (x.vec (wA w)).hi j ^ 2)))
  ∧ Retires .cmag2a 0x15 5 (fun w x => x.setAccs w [wD w] (fun _ j => (x.acc (wD w)).int j + ((x.vec (wA w)).lo j ^ 2 + (x.vec (wA w)).hi j ^ 2)))
  ∧ Retires .cconj 0x15 6 (fun w x => x.setLanes w (fun j =>
      halfLane (wSat w) (shrEven ((x.vec (wA w)).lo j) (wC w + x.scale w)) (shrEven (-((x.vec (wA w)).hi j)) (wC w + x.scale w))))

/-! ### Anvil: data memory, branches, control, DMA and queue work (R196 to R203, R209 to R214, R220, R221, R244 to R253) -/

/-- Loads and stores of data memory at the address that pointer P presents, which the U bit then updates: SLD and SLDH load a scalar, SST and SSTH store one; VLD, VLDB_H
and VLDB_W load a vector, and VST stores the lanes its predicate names (R195, R196, R235, R236, R247). -/
def Obligations.LoadsAndStores : Prop :=
  let Loads (c : Nat → Nat → Instr) (op fn n : Nat) (f : Nat → Nat → Engine → Engine) : Prop :=
    ∀ (s : State) (t e w : Nat), s.EngineAt e w op fn →
      let a := (s.engine e).ea (wP w)
      ((s.begin t).fetched e).DataAt e a n n →
      exec (c t e) s = .next (s.after t (fun r =>
        ((r.fetched e).dataRead e a n).finish e (fun x => (f w ((s.engine e).load a n) x).postMod (wU w) (wP w))))
  let Stores (c : Nat → Nat → Instr) (fn n : Nat) : Prop :=
    ∀ (s : State) (t e w : Nat), s.EngineAt e w 0x03 fn →
      let a := (s.engine e).ea (wP w)
      a < 0x80000 → a % n = 0 →
      exec (c t e) s = .next (s.after t (fun r =>
        ((r.fetched e).dstore e a (leBytes n ((s.engine e).sreg (wD w)).toNat)).finish e (fun x => x.postMod (wU w) (wP w))))
  Loads .sld 0x03 0 4 (fun w v x => x.setS (wD w) (BitVec.ofNat 32 v))
  ∧ Loads .sldh 0x03 1 2 (fun w v x => x.setS (wD w) ((BitVec.ofNat 16 v).signExtend 32))
  ∧ Stores .sst 2 4 ∧ Stores .ssth 3 2
  ∧ Loads .vld 0x20 0 64 (fun w v x => x.setLanes w (fun j => plainLane ((rowVec v).lane j)))
  ∧ Loads .vldbH 0x22 0 2 (fun w v x => x.setLanes w (fun _ => plainLane (joinHalves v v)))
  ∧ Loads .vldbW 0x22 1 4 (fun w v x => x.setLanes w (fun _ => plainLane (BitVec.ofNat 32 v)))
  ∧ ∀ (s : State) (t e w : Nat), s.EngineAt e w 0x21 0 →
      let x := s.engine e
      let a := x.ea (wP w)
      a < 0x80000 → a % 64 = 0 →
      exec (.vst t e) s = .next (s.after t (fun r =>
        ((r.fetched e).each (lanes16.filter (x.active w)) (fun j r => r.dstore e (a + 4 * j) (leBytes 4 ((x.vec (wD w)).lane j).toNat))).finish e
          (fun x => x.postMod (wU w) (wP w))))

/-- An access whose address is not aligned or lies beyond data memory is an ADDR fault, and one that meets a double-bit error an ECC fault, before the
instruction has any effect (R196, R197, R203). A fault stops its engine at the faulting instruction with the code, the registers and the other engines as they
were; it is reported, and nothing issues until CLRERR returns the engine to HALTED (R203). An illegal word is such a fault with code ILLEGAL, and a double-bit
error of its fetch one with code ECC (R197, R227). -/
def Obligations.EngineFaults : Prop :=
  (
    let OutOfPlace (c : Nat → Nat → Instr) (op fn align : Nat) : Prop := ∀ (s : State) (t e w : Nat), s.EngineAt e w op fn →
      0x80000 ≤ (s.engine e).ea (wP w) ∨ (s.engine e).ea (wP w) % align ≠ 0 →
      exec (c t e) s = .next (s.after t (fun r => (r.fetched e).anvFault e 2))
    let Poisoned (c : Nat → Nat → Instr) (op fn n : Nat) : Prop := ∀ (s : State) (t e w : Nat), s.EngineAt e w op fn →
      let a := (s.engine e).ea (wP w)
      a < 0x80000 → a % n = 0 → ((s.begin t).fetched e).eccRange 1 (engBase e + a) n = 2 →
      exec (c t e) s = .next (s.after t (fun r => (r.fetched e).anvFault e 5))
    OutOfPlace .sld 0x03 0 4 ∧ OutOfPlace .sldh 0x03 1 2 ∧ OutOfPlace .sst 0x03 2 4 ∧ OutOfPlace .ssth 0x03 3 2 ∧ OutOfPlace .vld 0x20 0 64
    ∧ OutOfPlace .vst 0x21 0 64 ∧ OutOfPlace .vldbH 0x22 0 2 ∧ OutOfPlace .vldbW 0x22 1 4 ∧ OutOfPlace .cbflym 0x16 0 64 ∧ OutOfPlace .cbflymc 0x16 1 64
    ∧ OutOfPlace .vmac2Mem 0x13 0 64 ∧ OutOfPlace .vmsu2Mem 0x13 1 64 ∧ OutOfPlace .vmul2Mem 0x13 2 64 ∧ OutOfPlace .vmacpMem 0x13 3 64
    ∧ OutOfPlace .vmsupMem 0x13 4 64 ∧ OutOfPlace .vmulpMem 0x13 5 64
    ∧ Poisoned .sld 0x03 0 4 ∧ Poisoned .sldh 0x03 1 2 ∧ Poisoned .vld 0x20 0 64 ∧ Poisoned .vldbH 0x22 0 2 ∧ Poisoned .vldbW 0x22 1 4
    ∧ Poisoned .cbflym 0x16 0 64 ∧ Poisoned .cbflymc 0x16 1 64 ∧ Poisoned .vmac2Mem 0x13 0 64 ∧ Poisoned .vmsu2Mem 0x13 1 64
    ∧ Poisoned .vmul2Mem 0x13 2 64 ∧ Poisoned .vmacpMem 0x13 3 64 ∧ Poisoned .vmsupMem 0x13 4 64 ∧ Poisoned .vmulpMem 0x13 5 64)
  ∧ (
    (∀ (s : State) (e code : Nat), e < 8 → (s.engine e).fly = [] →
      let u := s.anvFault e code
      (u.engine e).st = .error ∧ (u.engine e).run = false ∧ (u.engine e).err = code ∧ (u.engine e).errPc = (s.engine e).pc ∧ (u.engine e).pc = (s.engine e).pc
      ∧ (u.engine e).s = (s.engine e).s ∧ (u.engine e).v = (s.engine e).v ∧ (u.engine e).a = (s.engine e).a ∧ (u.engine e).k = (s.engine e).k
      ∧ (u.engine e).dmem = (s.engine e).dmem ∧ (u.engine e).issuing = false ∧ ∀ k, k ≠ e → u.engine k = s.engine k)
    ∧ (∀ (s : State) (t e : Nat), s.Runs → e < s.lanes → (s.engine e).issuing = true → anvDecode (s.anvWord e) = none →
        exec (.illegalInstruction t e) s
          = .next (s.after t (fun r =>
              if s.eccAt 2 (engBase e + 8 * (s.engine e).pc) = 2 then r.anvFault e 5 else (r.eccCorrect 2 (engBase e + 8 * (s.engine e).pc) 8).anvFault e 1)))
    ∧ ∀ (s : State) (t : Nat) (src : Source) (e : Nat), s.Runs → e < s.lanes → (s.begin t).Admits src (Fld.ANV_En_CTRL_RUN.at e) → (s.engine e).st = .error →
        exec (.engineClrerr t src e) s = .next (s.after t (fun r => r.onEngine e (fun x => { x with st := .halted, err := 0 }))))

/-- Branches set the PC to TARGET, to bits [12:0] of sA, or to the next address when their condition fails; CALL leaves the return address in s31, and DBNZ
decrements its register first (R249). NOP does nothing; BXADV moves SCALE, EXP and HEAD; SRD reads a special register, TIME_LO latching the high half of the
device time; SWR writes BEXP, ASTAT or CKBLK (R207, R208, R249, R252). -/
def Obligations.BranchesAndSpecialRegisters : Prop :=
  (
    let Jumps (c : Nat → Nat → Instr) (fn : Nat) (pc : Nat → Engine → Nat) (f : Nat → Engine → Engine) : Prop :=
      ∀ (s : State) (t e w : Nat), s.EngineAt e w 0x30 fn →
        exec (c t e) s = .next (s.after t (fun r => (r.fetched e).jumpTo e (pc w (s.engine e)) (f w)))
    let If (p : Int → Prop) [DecidablePred p] (w : Nat) (x : Engine) : Nat := if p (x.sreg (wD w)).toInt then wTarget w else x.pc + 1
    Jumps .jmp 0 (fun w _ => wTarget w) (fun _ x => x)
    ∧ Jumps .call 1 (fun w _ => wTarget w) (fun _ x => x.setS 31 (BitVec.ofNat 32 ((x.pc + 1) % 8192)))
    ∧ Jumps .jr 2 (fun w x => (x.sreg (wD w)).toNat % 8192) (fun _ x => x)
    ∧ Jumps .beqz 3 (If (fun v => v = 0)) (fun _ x => x) ∧ Jumps .bnez 4 (If (fun v => v ≠ 0)) (fun _ x => x)
    ∧ Jumps .bltz 5 (If (fun v => v < 0)) (fun _ x => x) ∧ Jumps .bgez 6 (If (fun v => 0 ≤ v)) (fun _ x => x)
    ∧ Jumps .dbnz 7 (fun w x => if x.sreg (wD w) - 1 ≠ 0 then wTarget w else x.pc + 1) (fun w x => x.setS (wD w) (x.sreg (wD w) - 1)))
  ∧ (
    Retires .nop 0x33 0 (fun _ x => x)
    ∧ Retires .bxadv 0x38 2 (fun _ x => { x with bexp :=
        { head := 15, need := x.bexp.need, scale := x.bexp.need - x.bexp.head, exp := min 255 (x.bexp.exp + (x.bexp.need - x.bexp.head)) } })
    ∧ (∀ (s : State) (t e w : Nat), s.EngineAt e w 0x38 0 →
        exec (.srd t e) s = .next (s.after t (fun r => (r.fetched e).finish e (fun x =>
          { x with timeHi := if wA w = 5 then BitVec.ofNat 32 ((r.fetched e).dev / 2 ^ 32) else x.timeHi }.setS (wD w) ((r.fetched e).special e (wA w))))))
    ∧ (∀ (s : State) (e : Nat), s.special e 0 = (s.engine e).bexpWord ∧ s.special e 1 = (s.engine e).astat ∧ s.special e 2 = (s.engine e).aovWord
        ∧ s.special e 3 = BitVec.ofNat 32 (s.engine e).loop ∧ s.special e 4 = (s.engine e).ckblk ∧ s.special e 5 = BitVec.ofNat 32 s.dev ∧ s.special e 6 = (s.engine e).timeHi
        ∧ s.special e 7 = (s.engine e).evt.setWidth 32 ∧ s.special e 8 = (s.engine e).posWord)
    ∧ ∀ (s : State) (t e w : Nat), s.EngineAt e w 0x38 1 → (s.engine e).bound = none → (s.engine e).fly = [] →
        exec (.swr t e) s = .next (s.after t (fun r => (r.fetched e).finish e (fun x =>
          let v := x.sreg (wA w)
          if wD w = 0 then { x with bexp := ⟨v.toNat % 16, v.toNat / 16 % 4, v.toNat / 256 % 4, v.toNat / 65536 % 256⟩ }
          else if wD w = 1 then x.clearAstat v
          else { x with ckblk := v }))))

/-- The instruction after REP must not be a branch, a WAIT, a POST, a TAKE, a DMA wait, a further REP or a write to a cb or cl register: if it is, the REP is
not executed and the engine enters ERROR with code REPBODY, ANV_En_ERRPC at the REP. A HALT that is repeated does nothing until its last iteration, after which
the engine is HALTED with its PC after the HALT (R202). A REP before any other instruction makes its iterations the next ones issued, CNT + 1 of them or as many
as sA says; a count of 0 or above 65,536 is ILLEGAL (R249, R250). -/
def Obligations.Repeat : Prop :=
  (
    (∀ (s : State) (t e w fn op' fn' : Nat), fn ≤ 1 → s.EngineAt e w 0x31 fn → (s.engine e).fly = [] →
        (fn = 1 → 0 < ((s.engine e).sreg (wD w)).toNat ∧ ((s.engine e).sreg (wD w)).toNat ≤ 65536) →
        anvDecode ((s.engine e).word (((s.engine e).pc + 1) % 8192)) = some (op', fn') →
        op' = 0x30 ∨ op' = 0x31 ∨ op' = 0x32 ∨ (op' = 0x25 ∧ fn' ≤ 1) ∨ (op' = 0x24 ∧ fn' ≤ 1) ∨ ((op' = 0x08 ∨ op' = 0x09) ∧ (fn' = 2 ∨ fn' = 3)) →
        ∃ u, exec (if fn = 0 then .rep t e else .repReg t e) s = .next u ∧ (u.engine e).st = .error ∧ (u.engine e).err = 3
          ∧ (u.engine e).errPc = (s.engine e).pc ∧ (u.engine e).pc = (s.engine e).pc ∧ (u.engine e).rep = (none : Option Rep))
    ∧ (∀ (s : State) (t e w left idx : Nat), s.EngineAt e w 0x33 1 → (s.engine e).fly = [] → (s.engine e).rep = some ⟨left, idx⟩ →
        ∃ u, exec (.halt t e) s = .next u ∧
          (if left ≤ 1 then (u.engine e).st = .halted ∧ (u.engine e).pc = ((s.engine e).pc + 1) % 8192 ∧ (u.engine e).rep = none
           else u.engine e = { (s.engine e).stamped (s.begin t).dev with rep := some ⟨left - 1, idx + 1⟩, loop := left - 1 }))
    ∧ ∀ (s : State) (t e w : Nat), s.EngineAt e w 0x33 1 → (s.engine e).fly = [] → (s.engine e).rep = none →
        ∃ u, exec (.halt t e) s = .next u ∧ (u.engine e).st = .halted ∧ (u.engine e).pc = ((s.engine e).pc + 1) % 8192)
  ∧ (
    (∀ (s : State) (t e w : Nat), s.EngineAt e w 0x31 0 → repBanned ((s.engine e).word (((s.engine e).pc + 1) % 8192)) = false →
      exec (.rep t e) s = .next (s.after t (fun r => ((r.fetched e).onEngine e (fun x =>
        { x with pc := (x.pc + 1) % 8192, rep := some ⟨w % 65536 + 1, 0⟩, loop := w % 65536 + 1 })).count Fld.ANV_BUSY_CNT e 1)))
    ∧ ∀ (s : State) (t e w : Nat), s.EngineAt e w 0x31 1 → repBanned ((s.engine e).word (((s.engine e).pc + 1) % 8192)) = false →
        let n := ((s.engine e).sreg (wD w)).toNat
        exec (.repReg t e) s = .next (s.after t (fun r =>
          if n = 0 ∨ 65536 < n then (r.fetched e).anvFault e 1
          else ((r.fetched e).onEngine e (fun x => { x with pc := (x.pc + 1) % 8192, rep := some ⟨n, 0⟩, loop := n })).count Fld.ANV_BUSY_CNT e 1)))

/-- WAIT ends at once with the lowest-numbered masked event that is pending, which it clears and reports; with none pending the engine waits, and any masked event raised
later ends the wait; a halt request or the lack of one decides how it stands (R199, R214, R251). -/
def Obligations.WaitForEvents : Prop :=
  (∀ (s : State) (t e w i : Nat), s.EngineAt e w 0x32 0 → (s.engine e).haltReq = false → (s.engine e).stepping = false →
    firstBit ((s.engine e).evt.toNat &&& wImm w) [0, 1, 2, 4, 5, 6, 7] = some i →
    ∃ u, exec (.wait t e) s = .next u ∧ (u.engine e).st = .running ∧ (u.engine e).pc = ((s.engine e).pc + 1) % 8192
      ∧ (u.engine e).evt = (s.engine e).evt &&& ~~~ BitVec.ofNat 8 (2 ^ i)
      ∧ (wD w ≠ 0 → (u.engine e).sreg (wD w) = BitVec.ofNat 32 i))
  ∧ (∀ (s : State) (t e w : Nat), s.EngineAt e w 0x32 0 →
      firstBit ((s.engine e).evt.toNat &&& wImm w) [0, 1, 2, 4, 5, 6, 7] = none →
      ∃ u, exec (.wait t e) s = .next u ∧ (u.engine e).pc = (s.engine e).pc
        ∧ (u.engine e).st = (if (s.engine e).haltReq then .halted else .waiting))
  ∧ ∀ (x : Engine) (mask rd i : Nat), x.wait = .event mask rd → i < 8 → bit mask i = true → i ≠ 3 → x.evt = 0 → x.haltReq = false → x.stepping = false →
      (x.raise i).st = .running ∧ (x.raise i).pc = (x.pc + 1) % 8192 ∧ (x.raise i).evt = 0

/-- The complex butterfly: the rows at [P] and [Q] are loaded, the results of the iteration two before are stored, and the results, the flags, the phase and the pointers
follow (R208, R238, R244, R245). -/
def Obligations.ComplexButterfly : Prop :=
  ∀ (conj : Bool) (s : State) (t e w : Nat), s.EngineAt e w 0x16 (if conj then 1 else 0) →
    let x := s.engine e
    let p := x.ea (wP w)
    let q := x.ea (wQ w)
    let r := (s.begin t).fetched e
    r.DataAt e p 64 64 → (r.dataRead e p 64).DataAt e q 64 64 →
    exec (if conj then .cbflymc t e else .cbflym t e) s = .next (s.after t (fun r =>
      let r2 := ((r.fetched e).dataRead e p 64).dataRead e q 64
      let r3 := r2.only (flyContends x p q) (fun r => r.count Fld.ANV_STALL_CNT e 1)
      (if 2 ≤ x.fly.length then r3.flyStore e else r3).finish e (fun y =>
        y.butterfly w conj p q (rowVec (x.load p 64)) (rowVec (x.load q 64)))))

/-- DMA and queue instructions: DMAST starts the transfer that its descriptor describes once its channel is free, DMAWT waits for the channel, DMARD reads its status;
POST, which waits for transfers out of data memory, hands a descriptor over or returns the word of its refusal, TAKE takes the engine's next descriptor, and DONE completes one that it has taken
(R209, R210, R220, R221, R248, R337, R340). -/
def Obligations.DmaAndQueueWork : Prop :=
  (∀ (s : State) (t e w : Nat), s.EngineAt e w 0x24 0 →
    let a := ((s.engine e).sreg (wA w)).toNat
    a % 32 = 0 → ((s.begin t).fetched e).DataAt e a 32 32 →
    exec (.dmast t e) s = .next (s.after t (fun r0 =>
      let r := r0.fetched e
      if ((s.engine e).chan (wC w)).busy then r.chanWait e
      else (((r.dataRead e a 32).dmaStart e (wC w) (dmaOf ((s.engine e).bytes a 32))).count Fld.ANV_STALL_CNT e ((r.dataRead e a 32).chanWaited e)).finish e id)))
  ∧ (∀ (s : State) (t e w : Nat), s.EngineAt e w 0x24 1 →
      exec (.dmawt t e) s = .next (s.after t (fun r =>
        if ((s.engine e).chan (wC w)).busy then (r.fetched e).chanWait e
        else (r.fetched e).finish e (fun x => x.setS (wD w) (x.chan (wC w)).word))))
  ∧ (∀ (s : State) (t e w : Nat), s.EngineAt e w 0x24 2 →
      exec (.dmard t e) s = .next (s.after t (fun r => (r.fetched e).finish e (fun x => x.setS (wD w) (x.chan (wC w)).word))))
  ∧ (∀ (s : State) (t e w : Nat), s.EngineAt e w 0x25 0 →
      let a := ((s.engine e).sreg (wA w)).toNat
      let q := ((s.engine e).sreg (wB w)).toNat % 64
      let img := (s.engine e).bytes a 64
      ((s.begin t).fetched e).DataAt e a 64 64 →
      ((∀ c, c < 4 → ((s.engine e).chan c).busy = true → ((s.engine e).chan c).out = false) →
        exec (.post t e) s = .next (s.after t (fun r0 =>
          let r := (r0.fetched e).dataRead e a 64
          match (r.setAside q (.engine e)).checkSubmit q (.engine e) img with
          | some no => (r.countRefusal no).finish e (fun x => x.setS (wD w) ((r.setAside q (.engine e)).postWord q no img))
          | none => ((r.startAccept q (.engine e) img).onEngine e (fun x => { x with wait := .post q (wD w) })).count Fld.ANV_BUSY_CNT e 1)))
      ∧ ∀ c, c < 4 → ((s.engine e).chan c).busy = true → ((s.engine e).chan c).out = true →
          exec (.post t e) s = .next (s.after t (fun r => (r.fetched e).chanWait e)))
  ∧ (∀ (s : State) (t e w : Nat), s.EngineAt e w 0x25 1 →
      let a := ((s.engine e).sreg (wA w)).toNat
      a < 0x80000 → a % 64 = 0 →
      exec (.take t e) s = .next (s.after t (fun r0 =>
        let r := r0.fetched e
        match if r.flag Fld.QUE_CTRL_EN 0 then (r.queue e).untaken else none with
        | some d => ((r.take e d.seq).dstore e a d.img).finish e (fun x => x.setS (wD w) (BitVec.ofNat 32 d.seq))
        | none => r.finish e (fun x => x.setS (wD w) 0x80000000))))
  ∧ ∀ (s : State) (t e w : Nat), s.EngineAt e w 0x25 2 →
      let seq := ((s.engine e).sreg (wA w)).toNat
      exec (.done t e) s = .next (s.after t (fun r0 =>
        let r := r0.fetched e
        if (r.queue e).entries.any (fun d => d.seq = seq && d.taken && !d.done) then (r.done e seq).finish e (fun x => x.setS (wD w) 0)
        else r.finish e (fun x => x.setS (wD w) 0x80000004)))

/-! ### Anvil: control, memories, transfers and tachometers (R194 to R219, R224) -/

/-- Writes of ANV_En_CTRL: RUN issues from HALTED at the PC and cannot leave ERROR, clearing RUN asks for a halt that takes effect at the next boundary and ends a WAIT,
STEP issues one instruction, RESET from HALTED or ERROR keeps memories and binding and is reported from the other states, where the write's RUN of 0 asks for a halt
(R198 to R200, R203, R224). -/
def Obligations.EngineControl : Prop :=
  ∀ (s : State) (t : Nat) (src : Source) (e : Nat), s.Runs → e < s.lanes → (s.begin t).Admits src (Fld.ANV_En_CTRL_RUN.at e) →
    let x := s.engine e
    (x.st = .halted → exec (.engineRun t src e) s
      = .next (s.after t (fun r => r.onEngine e (fun x => { x with st := .running, run := true, haltReq := false, stepping := false }))))
    ∧ (x.st = .error → exec (.engineRun t src e) s = .next (s.after t (fun r => r.clamp src (Fld.ANV_En_CTRL_RUN.at e) 1 0 rsState 0 0)))
    ∧ (x.st = .running → exec (.engineHaltRequest t src e) s = .next (s.after t (fun r => r.onEngine e (fun x => { x with haltReq := true }))))
    ∧ (x.st = .waiting → exec (.engineHaltRequest t src e) s = .next (s.after t (fun r => r.onEngine e (fun x =>
        { x with st := .halted, run := false, haltReq := false, stepping := false, wait := .none }))))
    ∧ (x.st = .running → x.haltReq = true → x.rep = none → x.wait = .none → exec (.engineHalt t e) s = .next (s.after t (fun r => r.onEngine e (fun x =>
        { x with st := .halted, run := false, haltReq := false, stepping := false }))))
    ∧ (x.st = .halted → exec (.engineStep t src e) s
      = .next (s.after t (fun r => r.onEngine e (fun x => { x with st := .running, run := false, stepping := true }))))
    ∧ (x.st = .halted ∨ x.st = .error → exec (.engineReset t src e) s = .next (s.after t (fun r => r.setEngine e
        { Engine.reset e with imem := x.imem, dmem := x.dmem, bound := x.bound, cken := x.cken, posSlot := x.posSlot, posBlk := x.posBlk })))
    ∧ (x.st = .running → exec (.engineReset t src e) s = .next (s.after t (fun r =>
        (r.clamp src (Fld.ANV_En_CTRL_RESET.at e) 4 0 rsState 2 2).onEngine e (fun x => { x with haltReq := true }))))
    ∧ (x.st = .waiting → exec (.engineReset t src e) s = .next (s.after t (fun r =>
        (r.clamp src (Fld.ANV_En_CTRL_RESET.at e) 4 0 rsState 2 2).onEngine e (fun x =>
          { x with st := .halted, run := false, haltReq := false, stepping := false, wait := .none }))))

/-- Host writes and reads of an engine's memories: instruction memory is written only while the engine is HALTED or in ERROR, and data memory in every state; a
read answers the word (R194, R195). A transfer moves once MEM is READY; one that ends without an error leaves its channel DONE, judges whether a tile read's buffer
was reclaimed, and raises the channel's event; one that meets an uncorrectable error shows the rows left and its code (R197, R210 to R212, R214, R320, R324). -/
def Obligations.EngineMemoriesAndTransfers : Prop :=
  (
    (∀ (s : State) (t : Nat) (src : Source) (addr val : Word) (e k : Nat), s.Runs → e < s.lanes → k < 0x4000 → addr.toNat = 0x01000000 + 0x100000 * e + 4 * k →
      (s.begin t).Admits src addr.toNat →
      exec (.imemWrite t src addr val) s = .next (s.after t (fun r =>
        if (s.engine e).st = .halted ∨ (s.engine e).st = .error then
          (r.setEngine e { s.engine e with imem := sput 0 (s.engine e).imem k val }).eccWrite 2 (engBase e) (4 * k) 4
        else r.clamp src addr.toNat val (sget 0 (s.engine e).imem k) rsState 0 31)))
    ∧ (∀ (s : State) (t : Nat) (src : Source) (addr val : Word) (e k : Nat), s.Runs → e < s.lanes → k < 0x20000 →
        addr.toNat = 0x01080000 + 0x100000 * e + 4 * k → (s.begin t).Admits src addr.toNat →
        exec (.dmemHostAccess t src addr val true) s = .next (s.after t (fun r =>
          ((r.hostStall e).onEngine e (fun x => x.store (4 * k) (leBytes 4 val.toNat))).eccWrite 1 (engBase e) (4 * k) 4)))
    ∧ ∀ (s : State) (t : Nat) (src : Source) (addr val : Word) (e k : Nat), s.Runs → e < s.lanes → k < 0x20000 →
        addr.toNat = 0x01080000 + 0x100000 * e + 4 * k → s.eccAt 1 (engBase e + 4 * k) = 0 →
        ∃ u, exec (.dmemHostAccess t src addr val false) s = .next u ∧ u.resp = leBytes 4 ((s.engine e).load (4 * k) 4) ∧ u.eng = s.eng ∧ u.mem = s.mem)
  ∧ (
    (∀ (s : State) (t e c : Nat), s.Runs → s.flag Fld.MEM_STAT_READY 0 = false → exec (.dmaComplete t e c) s = .next (s.begin t))
    ∧ ∀ (s : State) (t e c : Nat), s.Runs → e < 8 → c < 4 → s.flag Fld.MEM_STAT_READY 0 = true → ((s.engine e).chan c).busy = true →
      let d := (s.engine e).chan c
      let m := (s.begin t).dmaRows e d d.rows 0
      (0 < m.2 → ∃ u, exec (.dmaComplete t e c) s = .next u ∧ (u.engine e).dmaErr = true
        ∧ let x := (u.engine e).chan c
          x.busy = false ∧ x.done = false ∧ x.err = true ∧ x.rows = m.2 ∧ x.code = if d.out then 5 else 6)
      ∧ (m.2 = 0 →
      let diff := (s.openBlock d.lane + 65536 - d.block % 65536) % 65536
      let recl := d.tile && decide (2 ≤ diff ∧ diff < 32768)
      exec (.dmaComplete t e c) s = .next (s.after t (fun r0 =>
        let r := (r0.dmaRows e d d.rows 0).1.onEngine e (fun x =>
          { x.onDma c (fun d => { d with busy := false, done := true, reclaimed := recl, err := false, code := 0, rows := 0 }) with
            recl := x.recl || recl }.markSet r0.dev (if recl then 8 else 0))
        (if recl then r.count Fld.ANV_RECL_CNT e 1 else r).onEngine e (fun x => x.raise (4 + c))))))

/-- An edge qualifies once its level has held FILT × 8 ticks, and changes nothing before; of the selected kind it is stamped at the first tick of its level, and of the
other kind it moves LEVEL alone; a timeout clears the speed and sets STALE (R216 to R218). -/
def Obligations.Tachometers : Prop :=
  (∀ (s : State) (t k held : Nat) (level lost : Bool), s.Runs → held < 8 * s.fld Fld.ANV_Tt_CFG_FILT k → exec (.tachEdge t k ⟨level, held⟩ lost) s = .next (s.begin t))
  ∧ (∀ (s : State) (t k held : Nat) (lost : Bool), s.Runs → k < 8 → 8 * s.fld Fld.ANV_Tt_CFG_FILT k ≤ held →
    exec (.tachEdge t k ⟨s.flag Fld.ANV_Tt_CFG_EDGE k, held⟩ lost) s
      = .next (s.after t (fun r => r.setFlag Fld.ANV_Tt_STAT_LEVEL k (s.flag Fld.ANV_Tt_CFG_EDGE k))))
  ∧ (∀ (s : State) (t k held : Nat) (level lost : Bool), s.Runs → k < 8 → 8 * s.fld Fld.ANV_Tt_CFG_FILT k ≤ held →
      level ≠ s.flag Fld.ANV_Tt_CFG_EDGE k → s.flag Fld.ANV_Tt_STAT_LEVEL k ≠ level →
      let stamp := (s.begin t).dev - held
      ∃ u, exec (.tachEdge t k ⟨level, held⟩ lost) s = .next u ∧ (u.tachOf k).last = (s.begin t).dev
        ∧ (u.tachOf k).edges = (stamp :: (s.tachOf k).edges).take (s.fld Fld.ANV_Tt_CFG_PPR k + 1) ∧ u.eng = s.eng)
  ∧ ∀ (s : State) (t k : Nat), s.Runs → k < 8 → (s.tachOf k).last + s.fld Fld.ANV_Tt_TMO_TMO k * 65536 * 8 ≤ (s.begin t).dev →
      exec (.tachTimeout t k) s = .next (s.after t (fun r =>
        ((r.setFld Fld.ANV_Tt_SPEED_SPEED k 0).setFlag Fld.ANV_Tt_STAT_STALE k true).onTach k (fun x => { x with edges := [], fresh := 0 })))

/-- An engine's instruction leaves alone whatever is not the engine's: the lanes, the sequencers, the converters, AUX, the ports and the always-on
domain; the other engines too, but for one whose POST of the same PCLK edge a POST overtakes; and but for the queue instructions POST, TAKE and DONE, a checkpoint's SWR,
and a fault, which is reported, external memory and the queues too (R193, R220, R221, R228, R338). -/
def Obligations.EngineInstructionFrame : Prop :=
  ∀ (c : Instr) (s u : State) (t e : Nat), c.anvil = some (t, e) → exec c s = .next u →
    u.lan = s.lan ∧ u.wck = s.wck ∧ u.orx = s.orx ∧ u.hsc = s.hsc ∧ u.ddc = s.ddc ∧ u.phx = s.phx ∧ u.aux = s.aux
    ∧ u.pwr = s.pwr ∧ u.net = s.net ∧ u.tach = s.tach ∧ u.cru = s.cru ∧ u.ptp = s.ptp ∧ u.boot = s.boot ∧ u.tx = s.tx ∧ u.resp = s.resp
    ∧ (∀ k, k ≠ e → (c ≠ .post t e ∨ ∀ q rd, (s.engine k).wait ≠ .post q rd) → u.engine k = s.engine k)
    ∧ (c ≠ .post t e → c ≠ .take t e → c ≠ .done t e → c ≠ .swr t e → (u.engine e).st ≠ .error → u.mem = s.mem ∧ u.que = s.que ∧ u.twn = s.twn)

/-- R242: an accumulator overflow of a pair form, in the first lane that has one, records in AOVIDX.ACC the accumulator of the pair that overflowed, and the even one when
both did; VMUL2, VMULP, ACLR and AMOV overflow nothing. -/
def Obligations.AccumulatorOverflow : Prop :=
  let re (conj : Bool) (a b : Vec) (j : Nat) : Int := a.lo j * b.lo j + (if conj then 1 else -1) * (a.hi j * b.hi j)
  let im (conj : Bool) (a b : Vec) (j : Nat) : Int := a.hi j * b.lo j + (if conj then -1 else 1) * (a.lo j * b.hi j)
  let Records (f : Nat → Nat → Int) (s : State) (e w : Nat) (o : Out) : Prop :=
    wD w % 2 = 0 ∧ ((s.engine e).aov = false → ∀ j, j < 16 → (s.engine e).active w j = true →
      (∀ i, i < j → (s.engine e).active w i = true → fits 40 (f (wD w) i) = true ∧ fits 40 (f (wD w + 1) i) = true) →
      (fits 40 (f (wD w) j) = false ∨ fits 40 (f (wD w + 1) j) = false) →
      ∃ u, o = .next u ∧ (u.engine e).aov = true ∧ (u.engine e).aovIdx.lane = j
        ∧ (u.engine e).aovIdx.acc = (if fits 40 (f (wD w) j) = false then wD w else wD w + 1))
  let Regs (c : Nat → Nat → Instr) (op fn : Nat) (p : Vec → Vec → Bool → Nat → Int) : Prop :=
    ∀ (s : State) (t e w : Nat), s.EngineAt e w op fn →
      Records (fun k j => ((s.engine e).acc k).int j + p ((s.engine e).vec (wA w)) ((s.engine e).vec (wB w)) (k = wD w) j) s e w (exec (c t e) s)
  let Rows (fn n : Nat) (P : State → Nat → Nat → Vec → Vec → Prop) : Prop :=
    ∀ (s : State) (e w : Nat), s.EngineAt e w 0x13 fn → n = (if wV w then 2 else 64) →
      let a := (s.engine e).ea (wP w)
      let b := (s.engine e).ea (wQ w)
      let q := (s.engine e).load b n
      (s.fetched e).DataAt e a 64 64 → ((s.fetched e).dataRead e a 64).DataAt e b n n →
      P s e w (rowVec ((s.engine e).load a 64)) (if wV w then vecOf (fun _ => joinHalves q q) else rowVec q)
  let Keeps (s : State) (e : Nat) (o : Out) : Prop := ∃ u, o = .next u ∧ (u.engine e).aov = (s.engine e).aov ∧ (u.engine e).aovIdx = (s.engine e).aovIdx
  let part (a b : Vec) (even : Bool) (j : Nat) : Int := if even then a.lo j * b.lo j else a.hi j * b.hi j
  Regs .vmacp 0x12 3 part ∧ Regs .vmsup 0x12 4 (fun a b k j => - part a b k j)
  ∧ Regs .cmac 0x15 2 (fun a b k j => if k then re false a b j else im false a b j) ∧ Regs .cmacc 0x15 3 (fun a b k j => if k then re true a b j else im true a b j)
  ∧ (∀ (t n : Nat), Rows 3 n (fun s e w a b => Records (fun k j => ((s.engine e).acc k).int j + part a b (k = wD w) j) s e w (exec (.vmacpMem t e) s)))
  ∧ (∀ (t n : Nat), Rows 4 n (fun s e w a b => Records (fun k j => ((s.engine e).acc k).int j - part a b (k = wD w) j) s e w (exec (.vmsupMem t e) s)))
  ∧ (∀ (s : State) (t e w : Nat),
      (s.EngineAt e w 0x12 2 → Keeps s e (exec (.vmul2 t e) s)) ∧ (s.EngineAt e w 0x12 5 → Keeps s e (exec (.vmulp t e) s))
      ∧ (s.EngineAt e w 0x14 0 → Keeps s e (exec (.aclr t e) s)) ∧ (s.EngineAt e w 0x14 1 → Keeps s e (exec (.amov t e) s)))
  ∧ ∀ (t n : Nat), Rows 2 n (fun s e _ _ _ => Keeps s e (exec (.vmul2Mem t e) s)) ∧ Rows 5 n (fun s e _ _ _ => Keeps s e (exec (.vmulpMem t e) s))

/-! ### Wick (R254 to R270) -/

/-- The sequencer's instructions that take one tick or end their own run: the sequencer has an instruction due at its PC, and its operand is one that the
operation admits. HALT stops the sequencer after itself, BLANK and RANGE set what later launches carry, JMP goes on at its target, TRIG and TONE order an action
for 1,024 ticks later, LAUNCH posts its request when its probe's cell is free and otherwise stalls, after every LAUNCH of another lane that comes before it (R77,
R254 to R260, R263, R266). LOOP opens a loop, at most four
deep, and takes no tick; ENDL goes back to the body of the innermost loop while iterations are left and otherwise ends it, and is a fault with no loop open or
directly after its LOOP (R257, R270). -/
def Obligations.WickInstructions : Prop :=
  (
    let Ticks (c : Nat → Nat → Instr) (op hi : Nat) (ok : Nat → Prop) (f : Nat → Wick → Wick) : Prop :=
      ∀ (s : State) (t n arg : Nat), s.WickAt t n op arg → arg < 2 ^ (hi + 1) → ok arg →
        exec (c t n) s = .next (s.after t (fun r => r.wickTick n (r.wickNextPc n) (fun r => r.onWick n (f arg))))
    Ticks .wckBlank 3 12 (fun _ => True) (fun k x => { x with blank := k })
    ∧ Ticks .wckRange 4 3 (fun _ => True) (fun k x => { x with range := some (k, x.next) })
    ∧ (∀ (s : State) (t n arg : Nat), s.WickAt t n 9 arg → arg < 1024 → exec (.wckJmp t n) s = .next (s.after t (fun r => r.wickTick n arg (fun r => r))))
    ∧ Ticks .wckTrig 10 2 (fun _ => True) (fun k x => { x with trigs := x.trigs ++ [(x.next + 1024, k)] })
    ∧ Ticks .wckTone 11 15 (fun k => k ≠ 0) (fun k x => { x with tone := addTone x.tone (x.next + 1024) k })
    ∧ (∀ (s : State) (t n : Nat), s.WickAt t n 0 0 →
        exec (.wckHalt t n) s = .next (s.after t (fun r => (r.setFld Fld.WCK_Ln_PC_PC n (r.wickNextPc n % 1024)).wickStop n)))
    ∧ (∀ (s : State) (t n b : Nat), s.WickAt t n 2 b →
        exec (.wckLaunch t n) s = .next (s.after t (fun r => (r.launchesFirst n (s.wick n).next).launchNow n)))
    ∧ (∀ (s : State) (t n b : Nat), s.WickAt t n 2 b → (s.begin t).launchesBefore n (s.wick n).next = [] → b < 4 →
        (s.laneOf n).cells.all (fun c => c.probe ≠ b) →
        exec (.wckLaunch t n) s = .next (s.after t (fun r => r.launchIssue n (s.wick n).next)))
    ∧ ∀ (s : State) (t n b : Nat), s.WickAt t n 2 b → (s.begin t).launchesBefore n (s.wick n).next = [] → b < 4 →
        (s.laneOf n).cells.any (fun c => c.probe = b) →
        exec (.wckLaunch t n) s = .next (s.after t (fun r =>
          ((r.setWick n wsWaiting).setFlag Fld.WCK_Ln_STAT_CELLSTALL n true).onWick n (fun x => { x with wait := .cell }))))
  ∧ (
    (∀ (s : State) (t n k : Nat), s.WickAt t n 7 k → k < 65536 → (s.wick n).loops.length < 4 →
      exec (.wckLoop t n) s = .next (s.after t (fun r =>
        (r.setLoops n ((r.wickNextPc n % 1024, k) :: (s.wick n).loops)).setFld Fld.WCK_Ln_PC_PC n (r.wickNextPc n % 1024))))
    ∧ (∀ (s : State) (t n k : Nat), s.WickAt t n 7 k → k < 65536 → 4 ≤ (s.wick n).loops.length →
        exec (.wckLoop t n) s = .next (s.after t (fun r => r.wickFault n 2)))
    ∧ (∀ (s : State) (t n body left : Nat) (rest : List (Nat × Nat)), s.WickAt t n 8 0 → (s.wick n).loops = (body, left) :: rest →
        body ≠ s.fld Fld.WCK_Ln_PC_PC n →
        exec (.wckEndl t n) s = .next (s.after t (fun r =>
          if 0 < left then (r.setLoops n ((body, left - 1) :: rest)).setFld Fld.WCK_Ln_PC_PC n body
          else (r.setLoops n rest).setFld Fld.WCK_Ln_PC_PC n (r.wickNextPc n % 1024))))
    ∧ ∀ (s : State) (t n : Nat), s.WickAt t n 8 0 → ((s.wick n).loops = [] ∨ ∃ left rest, (s.wick n).loops = (s.fld Fld.WCK_Ln_PC_PC n, left) :: rest) →
        exec (.wckEndl t n) s = .next (s.after t (fun r => r.wickFault n 2)))

/-- Waits: WAIT takes N ticks, ALIGN waits for its place in the grid, PPS for an edge; each ends when its moment has come, a PPS wait that saw no edge in its
time with PPSMISS and a report (R256, R261, R262). The tick that ALIGN waits for is the first tick, at least one after its own, whose remainder by the grid's
period of 8 PERIOD ticks is that of 8 times the operand (R261). -/
def Obligations.WickWaitsAndGrid : Prop :=
  (
    (∀ (s : State) (t n k : Nat), s.WickAt t n 1 k → k ≠ 0 →
      exec (.wckWait t n) s = .next (s.after t (fun r => r.wickPark n .wait ((s.wick n).next + k))))
    ∧ (∀ (s : State) (t n off : Nat), s.WickAt t n 5 off → off < 2 ^ 24 →
        exec (.wckAlign t n) s = .next (s.after t (fun r => r.wickPark n .align (gridTick (s.wick n).next (s.fld Fld.WCK_SYNC_PERIOD 0) off))))
    ∧ (∀ (s : State) (t n : Nat), s.WickAt t n 6 0 →
        exec (.wckPps t n) s = .next (s.after t (fun r =>
          (r.wickPark n .pps ((s.wick n).next + ppsTimeout)).onWick n (fun x => { x with ppsFrom := (s.wick n).next }))))
    ∧ (
      let Ends (c : Nat → Nat → Instr) (w : WckWait) : Prop :=
        ∀ (s : State) (t n : Nat), s.Runs → n < s.lanes → s.fld Fld.WCK_Ln_STAT_STATE n = wsWaiting → (s.wick n).wait = w → (s.wick n).next ≤ (s.begin t).dev →
          exec (c t n) s = .next (s.after t (fun r => (r.setWick n wsRunning).onWick n (fun x => { x with wait := .none })))
      Ends .waitExpiry .wait ∧ Ends .alignGridTick .align)
    ∧ ∀ (s : State) (t n : Nat), s.Runs → n < s.lanes → (s.wick n).wait = .pps → (s.wick n).ppsFrom + 1171875000 ≤ (s.begin t).dev →
        exec (.ppsTimeout t n) s = .next (s.after t (fun r =>
          ((r.wickWake n .pps).setFlag Fld.WCK_Ln_STAT_PPSMISS n true).faultAt 6 n (0x4010 + 0x200 * n) 0 3)))
  ∧ (
    ∀ (issue period off : Nat), 0 < period →
      let g := gridTick issue period off
      issue + 1 ≤ g ∧ g % (8 * period) = (8 * off) % (8 * period)
      ∧ ∀ u, issue + 1 ≤ u → u % (8 * period) = (8 * off) % (8 * period) → g ≤ u)

/-- A word that the instruction table does not define, an operand bit that its operation does not have, and WAIT or TONE of 0, stop the sequencer in ERROR with
code ILLEGAL, its PC at the faulting address, and a fault report, before any effect (R256, R257). WCK_CTRL starts a stopped sequencer, stops a running one and
clears an ERROR; program memory and the PC are written only while the sequencer is neither RUNNING nor WAITING, and such a write clamps otherwise (R265, R267,
R269, R439). -/
def Obligations.WickFaultsAndControl : Prop :=
  (
    (∀ (s : State) (t n : Nat), s.Runs → n < s.lanes → s.fld Fld.WCK_Ln_STAT_STATE n = wsRunning → (s.wick n).next ≤ (s.begin t).dev →
      12 ≤ bitsOf 31 26 (s.wickWord n) → exec (.wickUndefinedOperation t n) s = .next (s.after t (fun r => r.wickFault n 1)))
    ∧ (
      let Illegal (c : Nat → Nat → Instr) (op hi : Nat) : Prop :=
        ∀ (s : State) (t n arg : Nat), s.WickAt t n op arg → 2 ^ hi ≤ arg → exec (c t n) s = .next (s.after t (fun r => r.wickFault n 1))
      Illegal .wckHalt 0 0 ∧ Illegal .wckBlank 3 13 ∧ Illegal .wckRange 4 4 ∧ Illegal .wckAlign 5 24 ∧ Illegal .wckPps 6 0
      ∧ Illegal .wckLoop 7 16 ∧ Illegal .wckEndl 8 0 ∧ Illegal .wckJmp 9 10 ∧ Illegal .wckTrig 10 3 ∧ Illegal .wckTone 11 16)
    ∧ (∀ (s : State) (t n arg : Nat), s.WickAt t n 2 arg → 4 ≤ arg → (s.begin t).launchesBefore n (s.wick n).next = [] →
        exec (.wckLaunch t n) s = .next (s.after t (fun r => r.wickFault n 1)))
    ∧ (∀ (s : State) (t n : Nat), s.WickAt t n 1 0 → exec (.wckWait t n) s = .next (s.after t (fun r => r.wickFault n 1)))
    ∧ ∀ (s : State) (t n : Nat), s.WickAt t n 11 0 → exec (.wckTone t n) s = .next (s.after t (fun r => r.wickFault n 1)))
  ∧ (
    (∀ (s : State) (t : Nat) (src : Source) (n : Nat), s.Runs → (s.begin t).Admits src Fld.WCK_CTRL_RUN.addr →
      let v (run clr : Nat) : Word := BitVec.ofNat 32 (run % 256 + clr % 256 * 256)
      let run := s.fld Fld.WCK_CTRL_RUN 0
      exec (.wckRun t src n) s = .next (s.after t (fun r => r.wckCtrl src (v (setBit run n true) 0)))
      ∧ exec (.wckStop t src n) s = .next (s.after t (fun r => r.wckCtrl src (v (setBit run n false) 0)))
      ∧ exec (.wckClrerr t src n) s = .next (s.after t (fun r => r.wckCtrl src (v run (2 ^ n)))))
    ∧ (∀ (s : State) (t : Nat) (src : Source) (addr val : Word) (n k : Nat), s.Runs → n < 8 → k < 1024 → addr.toNat = 0x68000 + 0x1000 * n + 4 * k →
        (s.begin t).Admits src addr.toNat →
        exec (.wickProgramWrite t src addr val) s = .next (s.after t (fun r =>
          if s.lanes ≤ n then r.clamp src addr.toNat val 0 rsFused 0 31
          else if s.fld Fld.WCK_Ln_STAT_STATE n = wsRunning ∨ s.fld Fld.WCK_Ln_STAT_STATE n = wsWaiting then
            r.clamp src addr.toNat val (sget 0 (s.wick n).prog k) rsState 0 31
          else r.onWick n (fun w => { w with prog := sput 0 w.prog k val }))))
    ∧ ∀ (s : State) (t : Nat) (src : Source) (addr val : Word) (n : Nat), s.Runs → n < s.lanes → addr.toNat = Fld.WCK_Ln_PC_PC.at n →
        (s.begin t).Admits src addr.toNat →
        exec (.wickProgramWrite t src addr val) s = .next (s.after t (fun r =>
          if s.fld Fld.WCK_Ln_STAT_STATE n = wsRunning ∨ s.fld Fld.WCK_Ln_STAT_STATE n = wsWaiting then r.clamp src addr.toNat val (r.live addr.toNat) rsState 0 9
          else r.setFld Fld.WCK_Ln_PC_PC n (bitsOf 9 0 val))))

/-- Actions ordered: a tone window opens and closes at its ticks and its samples count toward both channels' scale, the earliest trigger acts at its action time, and a
capture that ends or is cut short stores its bytes and posts its event (R135, R260, R263, R264, R351). -/
def Obligations.WickActions : Prop :=
  (∀ (s : State) (t n a b : Nat) (rest : List (Nat × Nat)), s.Runs → n < s.lanes → (s.wick n).tone = (a, b) :: rest → a ≤ (s.begin t).dev →
    exec (.toneOn t n) s = .next (s.after t (fun r => r.onWick n (fun x => { x with toneOn := true }))))
  ∧ (∀ (s : State) (t n a b : Nat) (rest : List (Nat × Nat)), s.Runs → n < s.lanes → (s.wick n).tone = (a, b) :: rest → (s.wick n).toneOn = true →
      b ≤ (s.begin t).dev →
      exec (.toneOff t n) s = .next (s.after t (fun r =>
        let r1 := r.onWick n (fun x => { x with tone := rest, toneOn := false })
        (r1.onHsc (2 * n) (fun h => { h with toneN := h.toneN + (b - max a h.toneFrom) })).onHsc (2 * n + 1)
          (fun h => { h with toneN := h.toneN + (b - max a h.toneFrom) }))))
  ∧ (∀ (s : State) (t n a c : Nat) (rest : List (Nat × Nat)), s.Runs → n < s.lanes → (s.wick n).trigs = (a, c) :: rest → a ≤ (s.begin t).dev →
      exec (.triggerAction t n) s = .next (s.after t (fun r => (r.onWick n (fun x => { x with trigs := rest })).triggerAction n a c)))
  ∧ (∀ (s : State) (t n : Nat) (samples : List Int) (c : Capture), s.Runs → n < s.lanes → (s.wick n).capture = some c → c.endsAt ≤ (s.begin t).dev →
      (s.begin t).captured c = 4096 * c.len → c.fed c.len samples = true →
      exec (.captureEnd t n samples) s = .next (s.after t (fun r =>
        (((r.dramWrite 4 false c.base ((r.captureBytes n c samples).take (4096 * c.len))).setFlag Fld.WCK_Ln_STAT_CAPBUSY n false).onWick n
          (fun x => { x with capture := none })).trigEvent n c.code 1 c.src c.action c.len c.base false)))
  ∧ ∀ (s : State) (t n len : Nat) (samples : List Int) (c : Capture), s.Runs → n < s.lanes → (s.wick n).capture = some c →
      4096 * len + 65536 < (s.begin t).captured c → c.fed len samples = true →
      exec (.captureTruncate t n len samples) s = .next (s.after t (fun r =>
        (((r.dramWrite 4 false c.base ((r.captureBytes n c samples).take (4096 * len))).setFlag Fld.WCK_Ln_STAT_CAPBUSY n false).onWick n
          (fun x => { x with capture := none })).trigEvent n c.code 1 c.src c.action len c.base true))

/-! ### Lantern (R62 to R95) -/

/-- Guarded commands of Lantern written as whole pairs: EMIT_EN sets the lanes' bits beside those already set or clears them, QFORCE trips Quench with its own
cause, and CLR starts a clear check (R81, R82, R85, R93, R443). One EMIT_EN bit: enabling takes an OFF lane to CHECK and starts its sampling afresh; a lane that
is QUENCHED, or any lane before HSC_READY, is not enabled and the write is reported with reason STATE (R81, R82). -/
def Obligations.EmissionIsGated : Prop :=
  (
    ∀ (s : State) (t : Nat) (src : Source) (mask : Nat), s.Runs → s.PairFree 1 →
      ((s.begin t).Admits src Fld.LAN_CTRL_EMIT_EN.addr →
        exec (.emitEnable t src mask) s
          = .next (s.after t (fun r => r.emitWrite src (BitVec.ofNat 32 ((s.fld Fld.LAN_CTRL_EMIT_EN 0 ||| mask) % 256))))
        ∧ exec (.emitDisable t src mask) s
          = .next (s.after t (fun r => r.emitWrite src (BitVec.ofNat 32 (s.fld Fld.LAN_CTRL_EMIT_EN 0 &&& (255 - mask % 256)))))
        ∧ exec (.qforce t src) s = .next (s.after t (fun r => r.quenchTrip [(7, none)])))
      ∧ ((s.begin t).Admits src Fld.LAN_QCLR_CLR.addr →
        exec (.quenchClear t src) s = .next (s.after t (fun r =>
          if s.lan.clearAt.isSome ∨ s.anyQuenched = false then r.clamp src Fld.LAN_QCLR_CLR.addr 1 0 rsState 0 0
          else
            let r1 := (r.setFlag Fld.LAN_STAT_QCLR_BUSY 0 true).setFlag Fld.LAN_STAT_QCLR_FAIL 0 false
            ({ r1 with lan := { r1.lan with clearAt := some r1.dev, clearLanes := r1.quenchedLanes, clearBad := r1.clearConditions } }).each r1.quenchedLanes (fun n r => r.startSampling n)))))
  ∧ (
    (∀ (s : State) (n : Nat), n < 8 → (s.laneOf n).st = .off →
      ((s.enableLane n).laneOf n).st = .check ∧ ((s.enableLane n).laneOf n).passA = 0 ∧ ((s.enableLane n).laneOf n).passB = 0)
    ∧ ∀ (s : State) (src : Source) (v : Word), v.toNat < 2 ^ s.lanes → s.fld Fld.LAN_CTRL_EMIT_EN 0 = 0 → v ≠ 0 →
        (s.flag Fld.LAN_STAT_HSC_READY 0 = false ∨ ∀ n, n < 8 → (s.laneOf n).st = .quenched) →
        s.emitWrite src v = s.clamp src Fld.LAN_CTRL_EMIT_EN.addr v (s.live Fld.LAN_CTRL_EMIT_EN.addr) rsState 0 7)

/-- Events of the strings, the monitor and the interlock: the samples taken now count together and what they declare trips Quench together; string A's ramp takes 2,048
PCLK to EMITTING; an overcurrent on two edges, a monitor window, the power loop's update over 64 windows, the decay check 2 µs after a trip, and a filtered change of
INTLK_N (R68 to R73, R83, R85, R88, R94). -/
def Obligations.LanternEvents : Prop :=
  (∀ (s : State) (t : Nat) (xs : List StringSample), s.Runs → exec (.stringSample t xs) s = .next (s.after t (fun r =>
    let o := xs.foldl (fun (acc : State × List Cause) x =>
      let o := acc.1.stringSample x
      (o.1, acc.2 ++ o.2)) (r, [])
    (o.1.quenchTrip o.2).each (List.range s.lanes) (fun n r => r.checkPass n))))
  ∧ (∀ (s : State) (t n : Nat), s.Runs → n < s.lanes → (s.laneOf n).st = .ramp → (s.laneOf n).since + 2048 * 8 ≤ (s.begin t).dev → s.twn.oswAt = none →
      exec (.stringARampDone t n) s = .next (s.after t (fun r => (r.enterLane n .emitting).onLane n (fun l => { l with monSum := 0, monCnt := 0 }))))
  ∧ (∀ (s : State) (t n i1 i2 : Nat) (b : Bool), s.Runs → n < s.lanes → s.sampled n = true → s.dummy n = false → (s.laneOf n).st ≠ .quenched →
      let lim := 5 * (s.begin t).setpoint n b / 4 + 10000
      lim < i1 → lim < i2 →
      exec (.overcurrent t n b i1 i2) s = .next (s.after t (fun r =>
        let flt := if b then Fld.LAN_Ln_FAULT_B_FLT else Fld.LAN_Ln_FAULT_A_FLT
        (r.setFld flt n (setBit (r.fld flt n) 2 true)).quenchTrip [(qOvercur, some (n, b))])))
  ∧ (∀ (s : State) (t : Nat) (avs : List Nat), s.Runs → (s.begin t).dev % 8000 = 0 →
      exec (.monitorWindowEnd t avs) s = .next (s.after t (fun r =>
        let o := (List.range s.lanes).foldl (fun (acc : State × List Cause) n =>
          let o := acc.1.monitorWindow n (avs.getD n 0)
          (o.1, acc.2 ++ o.2)) (r, [])
        o.1.quenchTrip o.2)))
  ∧ (∀ (s : State) (t n : Nat), s.Runs → n < s.lanes → 64 ≤ (s.laneOf n).monCnt → exec (.apcUpdate t n) s = .next (s.after t (fun r => r.apcUpdate n)))
  ∧ (∀ (s : State) (t n ia ib due : Nat), s.Runs → n < s.lanes → (s.laneOf n).decayAt = some due → due ≤ (s.begin t).dev →
      exec (.decayCheck t n ia ib) s = .next (s.after t (fun r =>
        let r1 := r.onLane n (fun l => { l with decayAt := none })
        if s.dummy n = false ∧ (5000 ≤ ia ∨ 5000 ≤ ib) then r1.setFlag Fld.LAN_Ln_FAULT_DECAY_SLOW n true else r1)))
  ∧ (∀ (s : State) (t held : Nat), s.Runs → s.intlkFilter ≤ held → s.sys.intlkOk = true →
      exec (.interlockChange t false held) s = .next (s.after t (fun r =>
        ({ r with sys := { r.sys with intlkOk := false } }.setFlag Fld.LAN_STAT_INTLK_OPEN 0 true).quenchTrip [(4, none)])))
  ∧ ∀ (s : State) (t held : Nat), s.Runs → s.intlkFilter ≤ held → s.sys.intlkOk = false →
      exec (.interlockChange t true held) s = .next (s.after t (fun r =>
        { r with sys := { r.sys with intlkOk := true } }.setFlag Fld.LAN_STAT_INTLK_OPEN 0 false))

/-- A clear check ends 4,256 PCLK after its start: with no cause left every QUENCHED lane returns to OFF and LAN_QCAUSE and LAN_QTIME read 0; otherwise the check fails and the causes
join ALL (R93). -/
def Obligations.QuenchClears : Prop :=
  ∀ (s : State) (t t0 : Nat), s.Runs → s.lan.clearAt = some t0 → t0 + 4256 * 8 ≤ (s.begin t).dev →
    let m := s.lan.clearBad ||| (s.begin t).clearConditions ||| s.clearStrings.1
    exec (.qclrCheckEnd t) s = .next (s.after t (fun r =>
      if m = 0 ∧ s.clearStrings.2 = true then
        let r1 := (r.each r.quenchedLanes (fun n r => r.enterLane n .off))
        let r2 := r1.each (List.range s.lanes) (fun n r => r.clearFault n)
        ((({ r2 with lan := { r2.lan with clearAt := none, clearLanes := [], clearBad := 0, latch := none } }.setFlag Fld.LAN_STAT_QCLR_BUSY 0 false).setLive
          Fld.LAN_QCAUSE_FIRST.addr 0).setFld Fld.LAN_QTIME_LO_LO 0 0).setFld Fld.LAN_QTIME_HI_HI 0 0
      else r.clearFails m))

/-- String B's pulse: the lead begins LEAD before the edge of the pulse due, the pulse lasts PULSE.WIDTH from its edge and is late when the current there is
under 90 % of the peak, and a tail as long as the lead follows (R65, R66, R70, R84). A chirp table's copy back ends TBLPEND (R75). A launch at its release tick
leaves its cell and stamps its probe: of the requests due, the one whose release comes first (R49, R77). -/
def Obligations.LaunchAndBooster : Prop :=
  (
    (∀ (s : State) (t n e : Nat), s.Runs → n < s.lanes → (s.laneOf n).st = .emitting → (s.laneOf n).boost = .keep → (s.laneOf n).pulse = some e →
      e ≤ (s.begin t).dev + 8 * s.fld Fld.LAN_Ln_STRB_LEAD n →
      exec (.boosterLead t n) s = .next (s.after t (fun r => r.onLane n (fun l =>
        { l with boost := .lead, edge := e, divFrom := r.dev, divTo := none, peak := s.fld Fld.LAN_Ln_MON_IAPP n, pulse := none }))))
    ∧ (∀ (s : State) (t n ua : Nat), s.Runs → n < s.lanes → (s.laneOf n).boost = .lead → (s.laneOf n).edge ≤ (s.begin t).dev →
        exec (.boosterPulseStart t n ua) s = .next (s.after t (fun r =>
          (if s.dummy n = false ∧ 10 * ua < 9000 * (s.laneOf n).peak then
            r.setFld Fld.LAN_Ln_FAULT_LATE n (min 15 (r.fld Fld.LAN_Ln_FAULT_LATE n + 1)) else r).onLane n (fun l =>
              { l with boost := .pulse, divTo := some l.edge, edge := l.edge + r.fld Fld.LAN_Ln_PULSE_WIDTH n }))))
    ∧ (∀ (s : State) (t n : Nat), s.Runs → n < s.lanes → (s.laneOf n).boost = .pulse → (s.laneOf n).edge ≤ (s.begin t).dev →
        exec (.boosterPulseEnd t n) s = .next (s.after t (fun r =>
          r.onLane n (fun l => { l with boost := .tail, divFrom := l.edge, divTo := none, edge := l.edge + 8 * r.fld Fld.LAN_Ln_STRB_LEAD n }))))
    ∧ (∀ (s : State) (t n : Nat), s.Runs → n < s.lanes → (s.laneOf n).boost = .tail → (s.laneOf n).edge ≤ (s.begin t).dev →
        exec (.boosterTailEnd t n) s = .next (s.after t (fun r => r.onLane n (fun l => { l with boost := .keep, divTo := some l.edge }))))
    ∧ ∀ (s : State) (t n : Nat), s.Runs → n < s.lanes →
        exec (.tableCopybackDone t n) s = .next (s.after t (fun r =>
          (r.onLane n (fun l => { l with tblCopy := l.tblCopy.filter (fun c => r.dev < c.2) })).tblStat n)))
  ∧ (
    (∀ (s : State) (t n : Nat) (c : Cell), s.Runs → n < s.lanes → dueCell (s.begin t).dev (s.laneOf n).cells = some c →
      exec (.launchRelease t n) s = .next (s.after t (fun r => r.launch n c)))
    ∧ ∀ (dev : Nat) (cells : List Cell) (c : Cell), dueCell dev cells = some c → c ∈ cells ∧ c.rel ≤ dev ∧ ∀ d, d ∈ cells → d.rel ≤ dev → c.rel ≤ d.rel)

/-! ### Optical receive (R96 to R115) -/

/-- A range step decided applies at its tick, 32 after the sample that decided it, and an overload rise likewise; a schedule entry starts START × 8 ticks after
the stamp; a blanking window opens and closes on both channels of its lane, each ending the counts; converter codes go through the range logic of their mode
(R100, R102, R104, R106, R108). The range in force and its count: a change of the range that applies moves ORX_Cn_STAT.RNG and counts once in ORX_RSW_CNT, and
nothing moves otherwise (R99, R102). A common-mode window's averages are shown and judged, four failing windows in a row declaring the fault and sixteen passing ones ending
it, and schedule tables are staged, but for a write while SCHPEND is set,
which is reported with reason PENDING (R109, R110, R113, R115). -/
def Obligations.OpticalReceive : Prop :=
  (
    (
      (∀ (s : State) (t c : Nat) (codes : List Int), s.Runs → c < 2 * s.lanes →
        (s.fld Fld.ORX_Cn_RANGE_MODE c ≠ 2 →
          exec (.rangeStepDecide t c codes) s = .next (s.after t (fun r => r.samples c (fun r a x => r.autoSample c a x) r.dev codes)))
        ∧ (s.fld Fld.ORX_Cn_RANGE_MODE c = 2 →
          exec (.overloadRise t c codes) s = .next (s.after t (fun r => r.samples c (fun r a x => r.overloadSample c a x) r.dev codes))))
      ∧ (∀ (s : State) (t c g due : Nat), s.Runs → c < 2 * s.lanes → (s.orxCh c).blanked = false → due ≤ (s.begin t).dev →
          ((s.orxCh c).step = some (g, due) →
            exec (.rangeStepApply t c) s = .next (s.after t (fun r =>
              (r.onOrx c (fun x => { x with loop := g, step := none, hiRun := 0, loRun := 0 })).applyRange c r.dev)))
          ∧ ((s.orxCh c).step = none → (s.orxCh c).rise = some due →
            exec (.rangeStepApply t c) s = .next (s.after t (fun r =>
              (r.onOrx c (fun x => { x with offset := x.offset + 1, rise := none, hiRun := 0, loRun := 0 })).applyRange c r.dev))))
      ∧ (∀ (s : State) (t c t0 k : Nat), s.Runs → c < 2 * s.lanes → s.fld Fld.ORX_Cn_RANGE_MODE c = 2 → (s.orxCh c).from0 = some t0 →
          let es := (s.schedule (c / 2) (s.fld Fld.ORX_Cn_STAT_ASCHED c)).tail
          (∀ i start rng, i < k → es[i]? = some (start, rng) → t0 + 8 * start ≤ (s.begin t).dev) → k ≤ es.length →
          (∀ start rng, es[k]? = some (start, rng) → (s.begin t).dev < t0 + 8 * start) →
          exec (.scheduleEntryStart t c) s = .next (s.after t (fun r => (r.onOrx c (fun x => { x with entry := k })).applyRange c r.dev)))
      ∧ ∀ (s : State) (t n e : Nat), s.Runs → n < s.lanes → (s.laneOf n).blankEnd = some e →
          ((s.begin t).dev < e → exec (.blankWindowStart t n) s = .next (s.after t (fun r => (r.blankOn (2 * n)).blankOn (2 * n + 1))))
          ∧ (e ≤ (s.begin t).dev →
            exec (.blankWindowEnd t n) s = .next (s.after t (fun r => ((r.onLane n (fun l => { l with blankEnd := none })).blankOff (2 * n)).blankOff (2 * n + 1)))))
    ∧ (
      ∀ (s : State) (c d : Nat), c < 16 →
        (s.rangeOf c = s.fld Fld.ORX_Cn_STAT_RNG c → s.applyRange c d = s)
        ∧ (s.rangeOf c ≠ s.fld Fld.ORX_Cn_STAT_RNG c → s.rangeOf c < 4 →
            (s.applyRange c d).fld Fld.ORX_Cn_STAT_RNG c = s.rangeOf c
            ∧ (s.applyRange c d).fld Fld.ORX_RSW_CNT c = (s.fld Fld.ORX_RSW_CNT c + 1) % 2 ^ 32)))
  ∧ (
    (∀ (s : State) (t c ip im : Nat), s.Runs → c < 2 * s.lanes →
      ((s.begin t).dev % 8192 ≠ 0 → exec (.cmWindowEnd t c ip im) s = .next (s.begin t))
      ∧ ((s.begin t).dev % 8192 = 0 →
        let p := min ip 4095
        let m := min im 4095
        let active := s.flag Fld.ORX_Cn_CMWIN_EN c = true ∧ (s.laneOf (c / 2)).st = .emitting
        let fails := p + m < 20 * s.fld Fld.ORX_Cn_CMWIN_CM_LO c ∨ 20 * s.fld Fld.ORX_Cn_CMWIN_CM_HI c < p + m
          ∨ s.fld Fld.ORX_Cn_CMWIN_IMB c * (p + m) < (max p m - min p m) * 100
        ∃ u, exec (.cmWindowEnd t c ip im) s = .next u ∧ u.fld Fld.ORX_Cn_CMVAL_IP_DC c = p ∧ u.fld Fld.ORX_Cn_CMVAL_IN_DC c = m
          ∧ (¬ active → (u.orxCh c).cmFail = 0 ∧ (u.orxCh c).cmPass = 0)
          ∧ (active → fails → (u.orxCh c).cmFail = (s.orxCh c).cmFail + 1 ∧ (u.orxCh c).cmPass = 0
              ∧ (s.flag Fld.ORX_Cn_STAT_CMFLT c = false → (u.flag Fld.ORX_Cn_STAT_CMFLT c = true ↔ 3 ≤ (s.orxCh c).cmFail)))
          ∧ (active → ¬ fails → (u.orxCh c).cmFail = 0 ∧ (u.orxCh c).cmPass = (s.orxCh c).cmPass + 1
              ∧ (s.flag Fld.ORX_Cn_STAT_CMFLT c = true → (u.flag Fld.ORX_Cn_STAT_CMFLT c = false ↔ 15 ≤ (s.orxCh c).cmPass)))))
    ∧ ∀ (s : State) (t : Nat) (src : Source) (addr val : Word), s.Runs → 0x28000 ≤ addr.toNat → addr.toNat < 0x29000 → (s.begin t).Admits src addr.toNat →
        exec (.scheduleTableWrite t src addr val) s = .next (s.after t (fun r =>
          let i := (addr.toNat - 0x28000) / 4
          if s.flag Fld.ORX_STAT_SCHPEND 0 then r.clamp src addr.toNat val (sget 0 s.orx.schedStg i) rsPending 0 31
          else ({ r with orx := { r.orx with schedStg := sput 0 r.orx.schedStg i (val &&& 0x8003FFFF), changed := true } }).markDirty 2)))

/-! ### Converters (R116 to R142) -/

/-- Commands of the converters: CALCMD.START calibrates when every lane is dark and no calibration runs and is reported otherwise, ROTATE starts a rotation on each
channel named where none runs, a manual selection is staged, and the die temperature beside the converters is judged for a trim sweep (R123, R128, R133, R140). -/
def Obligations.ConverterCommands : Prop :=
  (∀ (s : State) (t : Nat) (src : Source), s.Runs → (s.begin t).Admits src Fld.HSC_CALCMD_START.addr →
    exec (.hscCalibrate t src) s = .next (s.after t (fun r => r.calibrate src))
    ∧ ∀ mask, exec (.hscRotate t src mask) s = .next (s.after t (fun r =>
        r.each (List.range s.channels) (fun c r => r.only (bit (mask % 65536) c && r.canRotate c && r.phase c = 0) (fun r => r.startRotation c)))))
  ∧ (∀ (s : State) (src : Source), (s.flag Fld.HSC_STAT_CALBUSY 0 = true ∨ s.lanesDark = false) →
      s.calibrate src = s.clamp src Fld.HSC_CALCMD_START.addr 1 0 rsState 0 0)
  ∧ (∀ (s : State) (t : Nat) (src : Source) (c : Nat) (val : Word), s.Runs → c < s.channels → (s.begin t).Admits src (Fld.HSC_MAN_Cn_EN.at c) →
      (src ≠ .twin → s.flag Fld.SYS_CTRL_EXPERT_EN 0 = true) →
      let p0 := bitsOf 2 1 val
      let p1 := bitsOf 4 3 val
      let ret := s.fld Fld.HSC_Cn_SLICE_RETIRED c
      p0 ≠ p1 → p0 < 3 → p1 < 3 → bit ret p0 = false → bit ret p1 = false →
      exec (.hscManWrite t src c val) s = .next (s.after t (fun r => (r.setStaged (Fld.HSC_MAN_Cn_EN.at c) (val &&& 0x1F)).markDirty 3)))
  ∧ ∀ (s : State) (t temp : Nat), s.Runs → exec (.trimSweepStart t temp) s = .next (s.after t (fun r => r.sweepStart temp))

/-- A rotation of a channel goes through its phases in order, each when it has run to its end and no diagnostic holds it: SHADOW0 after a trim, SHADOW1 and ESTIMATE with
what the comparison windows measured, the ramp, and the swap. The failure checks judge each window, and a diagnostic names the slice (R127 to R131, R136, R137). -/
def Obligations.ConverterRotation : Prop :=
  (∀ (s : State) (t c : Nat), s.Runs → c < s.channels → s.flag Fld.SYS_CTRL_RUN 0 = true → s.canRotate c = true → s.sys.hearth = true →
    s.phase c = 0 → (s.hscCh c).diag = none → (s.begin t).rotationNow c = true →
    exec (.rotationStart t c) s = .next (s.after t (fun r => r.startRotation c)))
  ∧ (∀ (s : State) (t c : Nat), s.Runs → (s.begin t).phaseOver c 1 = true →
      exec (.trimPhaseEnd t c) s = .next (s.after t (fun r =>
        (r.setPhase c 2 (r.dev + 262144 * 8)).onHsc c (fun h =>
          { h with trimmed := if h.trimOld then h.trimmed else setBit h.trimmed (r.spare c) true, trimOld := false }))))
  ∧ (∀ (s : State) (t c : Nat) (sh : Shadow), s.Runs → (s.begin t).phaseOver c 2 = true →
      exec (.shadow0End t c sh) s = .next (s.after t (fun r =>
        let w := r.faulted c (r.spare c) (r.sliceIn c 0) sh
        (r.setPhase c 3 ((r.hscCh c).due + (1024 + 262144) * 8)).onHsc c (fun h =>
          { h with sh0 := w, measBy := r.spare c, meas := r.measured c 0 w ++ h.meas.filter (fun e => 3 ≤ e.1) }))))
  ∧ (∀ (s : State) (t c : Nat) (sh : Shadow), s.Runs → (s.begin t).phaseOver c 3 = true →
      exec (.shadow1End t c sh) s = .next (s.after t (fun r =>
        let w := r.faulted c (r.spare c) (r.sliceIn c 1) sh
        (r.setPhase c 4 ((r.hscCh c).due + 4096 * 8)).onHsc c (fun h =>
          { h with sh1 := w, ramping := false, measBy := r.spare c, meas := r.measured c 1 w ++ h.meas.filter (fun e => e.1 < 3) }))))
  ∧ (∀ (s : State) (t c : Nat) (tone : List ToneSum), s.Runs → (s.begin t).phaseOver c 4 = true → (s.hscCh c).ramping = false →
      (tone.map (·.n)).sum = (s.begin t).toneSamples c →
      exec (.estimationDone t c tone) s = .next (s.after t (fun r => r.estimate c tone)))
  ∧ (∀ (s : State) (t c : Nat), s.Runs → c < s.channels → s.phase c = 5 →
      exec (.sliceSwap t c) s = .next (s.after t (fun r =>
        let p := 1 - (r.hscCh c).last.getD 1
        ((((r.setSlice c p (r.spare c)).setFld Fld.HSC_Cn_SLICE_SPARE c (r.sliceIn c p)).onHsc c (fun h => { h with last := some p, swapped := some (r.dev, p) })).count
          Fld.HSC_ROT_CNT 0 1).endRotation c)))
  ∧ (∀ (s : State) (t c : Nat) (seen : List (Nat × Nat)) (pair : Shadow), s.Runs → c < s.channels → 16384 * 8 ≤ (s.begin t).dev →
      s.flag Fld.HSC_STAT_CALBUSY 0 = false → s.flag Fld.HSC_Cn_SLICE_DOWN c = false →
      exec (.sliceCheckWindow t c seen pair) s = .next (s.after t (fun r => r.checkWindow c seen pair)))
  ∧ ∀ (s : State) (t c due : Nat) (p0 p1 : Shadow), s.Runs → c < s.channels → (s.hscCh c).diag = some due → due ≤ (s.begin t).dev →
      exec (.sliceDiagEnd t c p0 p1) s = .next (s.after t (fun r => r.diagEnd c due p0 p1))

/-! ### Downconversion, phase and temperature (R143 to R192) -/

/-- Sub-band paths. A spectrum bin or a custom tap is staged, or kept where its conversion is pending; a conversion that is due clears its pending bit and makes the
lane's new filters ready, and a ready filter that a probe takes brings its tap count to both channels; a launch's boundary lies 48 ticks after its stamp, where the probe's
paths record PHREF and begin the launch's frame; a running path delivers one output every eight ticks, filtered and rotated by its frame's PHREF, and placed at the point of
its frame that its emergence gives; and a completed converter calibration restarts every running path and every lane (R123, R125, R143, R146, R158 to R162, R167). -/
def Obligations.Downconversion : Prop :=
  (∀ (s : State) (t : Nat) (src : Source) (addr val : Word), s.Runs → 0x48000 ≤ addr.toNat → addr.toNat < 0x4A000 → (s.begin t).Admits src addr.toNat →
    let n := s.fld Fld.DDC_TBLPAGE_LANE 0
    let i := n * 2048 + (addr.toNat - 0x48000) / 4
    exec (.spectrumWrite t src addr val) s = .next (s.after t (fun r =>
      if s.laneBit Fld.DDC_STAT_MFPEND n then r.clamp src addr.toNat val (sget 0 s.ddc.specStg i) rsPending 0 31
      else ({ r with ddc := { r.ddc with
          specStg := sput 0 r.ddc.specStg i val
          specChanged := if r.ddc.specChanged.contains (i / 512) then r.ddc.specChanged else r.ddc.specChanged ++ [i / 512] } }).markDirty 4)))
  ∧ (∀ (s : State) (t : Nat) (src : Source) (addr val : Word), s.Runs → 0x4A000 ≤ addr.toNat → addr.toNat < 0x4D000 → (s.begin t).Admits src addr.toNat →
    let i := addr.toNat % 0x10000 / 4
    (customRange (addr.toNat % 0x10000) = false → exec (.spectrumWrite t src addr val) s = .next (s.after t (fun r => r)))
    ∧ (customRange (addr.toNat % 0x10000) = true → exec (.spectrumWrite t src addr val) s = .next (s.after t (fun r =>
      if src ≠ .twin ∧ s.flag Fld.SYS_CTRL_EXPERT_EN 0 = false then r.clamp src addr.toNat val (sget 0 s.ddc.coefStg i) rsExpert 0 31
      else if s.flag Fld.DDC_STAT_XPEND 0 then r.clamp src addr.toNat val (sget 0 s.ddc.coefStg i) rsPending 0 31
      else ({ r with ddc := { r.ddc with
          coefStg := sput 0 r.ddc.coefStg i (BitVec.ofNat 32 (wrapInt 32 (signed 18 val.toNat)))
          coefChanged := true } }).markDirty 4))))
  ∧ (∀ (s : State) (t unit at_ : Nat), s.Runs → s.ddc.conv.find? (fun e => e.1 = unit) = some (unit, at_) → at_ ≤ (s.begin t).dev →
      exec (.mfConversionDone t unit) s = .next (s.after t (fun r =>
        let g := r.ddc.gen + 1
        let ready := (r.ddc.filt.filter (fun i => i / 4 = unit && !r.ddc.mfGen.any (fun e => e.1 = i))).map (fun i => (i, g))
        let r1 := { r with ddc := { r.ddc with
            conv := r.ddc.conv.filter (fun e => e.1 ≠ unit)
            gen := g
            mfGen := r.ddc.mfGen ++ ready
            custGen := if unit = 8 then g else r.ddc.custGen } }
        (if unit = 8 then r1.setFlag Fld.DDC_STAT_XPEND 0 false else r1.setLaneBit Fld.DDC_STAT_MFPEND unit false).each (List.range s.lanes)
          (fun n r => if n = unit ∨ unit = 8 then r.settleLane n else r))))
  ∧ (∀ (s : State) (n : Nat), s.canBoundary n = true → s.settleLane n = s)
  ∧ (∀ (s : State) (n b at_ gen g : Nat) (restart : Bool), n < 8 → b < 4 → s.ddc.filt.contains (4 * n + b) = true → (4 * n + b, g) ∈ s.ddc.mfGen → g ≤ gen →
      let u := s.probeTake n b at_ gen restart
      u.ddc.filt = s.ddc.filt.filter (fun i => i ≠ 4 * n + b) ∧ (u.path (2 * n) b).taps = 2 * s.pfld (tapsFld b) n
        ∧ (u.path (2 * n + 1) b).taps = 2 * s.pfld (tapsFld b) n)
  ∧ (∀ (s : State) (t n : Nat) (d : DdcDue), s.Runs → n < s.lanes → s.ddc.due.find? (fun d => d.lane = n) = some d → d.probe < 4 →
      ((s.begin t).dev < d.stamp + 48 → exec (.pathBoundary t n) s = .next (s.after t (fun r => r)))
      ∧ (d.stamp + 48 ≤ (s.begin t).dev → ∃ u, exec (.pathBoundary t n) s = .next u ∧ u.ddc.due = s.ddc.due.filter (fun e => e ≠ d)
        ∧ ∀ c, c = 2 * n ∨ c = 2 * n + 1 →
          let p := s.path c d.probe
          let q := u.path c d.probe
          (d.all_ = false → (s.laneOf n).geo = none → q.run =
            ((if s.ddc.wait.contains (4 * n + d.probe) && decide (s.ddc.commitGen ≤ d.gen) then bit (s.pfld Fld.DDC_CTRL_EN 0) n else p.en)
              && decide (d.probe < s.fld Fld.WCK_Ln_PROBES_P n)))
          ∧ ((s.laneOf n).geo ≠ none → q.run = p.run)
          ∧ (q.run = true → q.cur = some ⟨d.stamp, wholeDelay (pathDelay q), (d.blank + 7) / 8, u.ncoAt c d.probe (d.stamp + 48), s.lenN n⟩
            ∧ u.fld (phrefFld d.probe) c = u.ncoAt c d.probe (d.stamp + 48))))
  ∧ (∀ (s : State) (t c b : Nat) (k0 k1 k2 : List Int), s.Runs → c < s.channels → b < 4 → (s.path c b).run = true →
      let p := (s.path c b).reach (s.begin t).dev
      ((s.begin t).dev ≠ (s.path c b).out → exec (.ddcOutput t c b k0 k1 k2) s = .next (s.after t (fun r => r)))
      ∧ ((s.begin t).dev = (s.path c b).out → p.hist = [] ∨ p.hist.length = max 1 p.rankWin →
        ∃ u x, exec (.ddcOutput t c b k0 k1 k2) s = .next u ∧ (u.path c b).out = (s.begin t).dev + 8 ∧ (u.path c b).run = true
          ∧ (u.path c b).word = outputWord b x ∧ u.eng = s.eng ∧ u.que = s.que ∧ u.mem = s.mem
          ∧ (framePoint (s.path c b) (s.begin t).dev = none → u.phx = s.phx ∧ x.blank = false)
          ∧ ∀ f k, framePoint (s.path c b) (s.begin t).dev = some (f, k) →
            f.stamp + 48 + 8 * f.gdly + 8 * k ≤ (s.begin t).dev ∧ (s.begin t).dev < f.stamp + 48 + 8 * f.gdly + 8 * k + 8 ∧ k < f.n
            ∧ x.blank = decide (k < f.blank) ∧ u.phx = (s.placeSample c f.stamp k x).phx
            ∧ (p.rankWin = 0 → (s.path c b).from_ + 8 ≤ (s.begin t).dev → x.med = false ∧ (x.i, x.q) =
              (rotateBack ((p.feedAll ((s.begin t).eightFor c (s.begin t).dev [k0, k1, k2]) (fun i => s.ncoAt c b ((s.begin t).dev + i - 8))).1.matched
                (s.binsOf (c / 2) b)).1 f.phref).1)))
  ∧ (∀ (s : State) (t ttrim t0 : Nat) (slices : List (Int × Int × Int)), s.Runs → s.hsc.calSince = some t0 → s.flag Fld.HSC_STAT_CALBUSY 0 = true →
      ((s.begin t).dev < t0 + 1171875 * 8 → exec (.hscCalDone t ttrim slices) s = .next (s.after t (fun r => r)))
      ∧ (t0 + 1171875 * 8 ≤ (s.begin t).dev →
        exec (.hscCalDone t ttrim slices) s = .next (s.after t (fun r =>
          (r.calDone ttrim slices).allRestart.each (List.range s.lanes) (fun n r => r.phxRestart n)))))
  ∧ (∀ (s : State) (c b : Nat), c < s.channels → b < 4 →
      ((s.path c b).run = true → let q := s.allRestart.path c b
        q.dl1 = [] ∧ q.dl2 = [] ∧ q.dl3 = [] ∧ q.dlm = [] ∧ q.hist = [] ∧ q.settle = fillLen (s.path c b) ∧ q.from_ = s.dev)
      ∧ ((s.path c b).run = false → s.allRestart.path c b = s.path c b))
  ∧ ∀ (s : State) (n g : Nat), n < s.lanes → (s.phxOf n).grid = some g →
      let u := s.phxRestart n
      (u.phxOf n).grid = none ∧ (u.phxOf n).frames = [] ∧ (u.phxOf n).pts = [] ∧ u.flag Fld.PHX_Ln_STAT_IDLE n = true ∧ u.flag Fld.PHX_Ln_STAT_RELATIVE n = true

/-- Phase and temperature. The next sample of a frame forms 96 ticks after the pair for its far point is due, INVALID in the last G points of the frame, and otherwise the
word of its point's phase; a measured sample of a referenced point adds the wrapped difference to the prediction, a filled one repeats it, and one that is neither is
INVALID. A block closes at its close time: its point means become temperatures in its record, its sums start anew, PHX_BLK_CNT counts it and the bound engines get BLK.
A lane shows IDLE when its last stamp is older than a frame, an error of two bits clears a point's state and is reported, and after 256 launches of probe 0 while the
lane emits the trace end is the last point whose mean magnitude reaches twice the fade threshold, N - 1 where the last point that forms samples reaches it, and none on a
dark lane (R168, R172, R174, R176, R178, R181, R183, R189). -/
def Obligations.PhaseExtraction : Prop :=
  (∀ (s : State) (t n b : Nat) (f : PhxFrame), s.Runs → n < s.lanes → b < 4 → (s.phxOf n).frameOf b = some f →
    let due := f.stamp + 48 + 8 * f.gdly + 8 * (f.next + f.g) + 96
    let kept (l : List (Nat × Sample)) := l.filter (fun e => f.next ≤ e.1)
    ((s.begin t).dev < due → exec (.phaseSample t n b) s = .next (s.after t (fun r => r)))
    ∧ (due ≤ (s.begin t).dev →
      exec (.phaseSample t n b) s = .next (s.after t (fun r =>
        let q := (r.noteOut n f).formSample n f f.next
        let f1 := { q.2.1 with next := f.next + 1, row := q.2.2 :: q.2.1.row, x := kept q.2.1.x, y := kept q.2.1.y }
        if (f.next + 1) % 32 = 0 then (q.1.rowDone n f1).onPhx n (fun l => l.putFrame { f1 with row := [] }) else q.1.onPhx n (fun l => l.putFrame f1)))
      ∧ (f.n ≤ f.next + f.g → (f.next + 1) % 32 ≠ 0 → f.next + 1 ≠ f.n →
        ∃ u, exec (.phaseSample t n b) s = .next u ∧ (u.phxOf n).pts = (s.phxOf n).pts ∧ u.mem = s.mem ∧ u.eng = s.eng
          ∧ { f with next := f.next + 1, row := 0x8000 :: f.row, x := kept f.x, y := kept f.y } ∈ (u.phxOf n).frames)))
  ∧ (∀ (s : State) (n : Nat) (f : PhxFrame) (i : Nat), n < s.lanes → let q := s.formSample n f i
      q.2.2 = 0x8000 ∨ q.2.2 = phaseWord (((q.1.phxOf n).pt i).phi))
  ∧ (∀ (pt : Pt) (p otc : Nat) (psi : Int) (pred1 : Bool),
      (pt.ref0 = false → unwrapStep pt .measure 0 p psi pred1 otc = ({ pt with phi := psi, prev := psi, ref0 := true }, some psi, false, false, false))
      ∧ (pt.ref0 = true →
        let pred := if pred1 then 2 * pt.phi - pt.prev else pt.phi
        let r := wrapLsb (psi - pred)
        (-4096 ≤ r ∧ r ≤ 4095 ∧ 8192 ∣ psi - pred - r)
        ∧ unwrapStep pt .measure 0 p psi pred1 otc = ({ pt with prev := pt.phi, phi := phi48 (pred + r), fills := 0, gap := 0 }, some (phi48 (pred + r)), false, false,
          decide (64 < pt.gap))
        ∧ unwrapStep pt .fill 0 p psi pred1 otc = (if pt.fills + 1 < p
          then ({ pt with prev := pt.phi, phi := phi48 pred, fills := pt.fills + 1, gap := pt.gap + 1 }, some (phi48 pred), true, false, false)
          else ({ pt with gap := pt.gap + 1 }, none, false, true, false))))
  ∧ (∀ (s : State) (t n g : Nat), s.Runs → n < s.lanes → (s.phxOf n).grid = some g →
      let due := g + s.interval n * (s.lenP n + ((s.phxOf n).block + 1) * s.lenB n - 1) + s.interval n + 8 * s.lenN n + 4096
      ((s.begin t).dev < due → exec (.blockClose t n) s = .next (s.after t (fun r => r)))
      ∧ (due ≤ (s.begin t).dev → exec (.blockClose t n) s = .next (s.after t (fun r => r.blockClose n))))
  ∧ (∀ (s : State) (n j : Nat), n < s.lanes → s.flag Fld.PHX_Ln_REFCH_EN n = false → (s.phxOf n).anchored = false → s.role ≠ 1 → s.flag Fld.TWN_CTRL_EN 0 = false →
      s.flag Fld.MEM_STAT_READY 0 = true → s.memc.waiting = [] → s.blockRecAddr n (s.blockNo n j) + 64 + 4 * s.lenN n ≤ s.dramEnd →
      let u := s.closeBlock n j false false
      let rebase := (s.phxOf n).fresh || (s.phxOf n).rebaseNext
      let temp (i : Nat) := closePoint ((s.phxOf n).pt i) false rebase 0 0
      (u.phxOf n).block = (s.phxOf n).block + 1 ∧ u.fld Fld.PHX_BLK_CNT n = (s.fld Fld.PHX_BLK_CNT n + 1) % 2 ^ 32
        ∧ (∀ i, i < s.lenN n → (u.phxOf n).pt i = (temp i).1 ∧ ∀ k, k < 4 →
          u.readByte (s.blockRecAddr n (s.blockNo n j) + 64 + 4 * i + k) =
            (leBytes 4 (if s.lenN n - s.laneFld n Fld.PHX_GAUGE_G ≤ i then 0x80000000 else tempWord (temp i).2)).getD k 0)
        ∧ ((∀ w, w ∈ s.regs.wait → w.1 ≠ 7) → ∀ e, e < s.lanes → (s.engine e).bound = some n → (s.engine e).wait = .none →
          bit (u.engine e).evt.toNat 1 = true))
  ∧ (∀ (p : Pt) (rebase : Bool) (rtd drift base : Rat), p.cnt ≠ 0 → p.base = some base →
      (closePoint p false false rtd drift).2 = some ((p.sumPK - base * p.sumK) / p.cnt)
      ∧ (closePoint p true false rtd drift).2 = some (p.tbase.getD rtd + (p.sumPK - base * p.sumK) / p.cnt - drift)
      ∧ (closePoint p rebase rebase rtd drift).1.sumPK = p.laterPK ∧ (closePoint p rebase rebase rtd drift).1.cnt = p.laterCnt)
  ∧ (∀ (s : State) (t n a : Nat), s.Runs → n < s.lanes → (s.phxOf n).lastStamp = some a → a + 8 * s.lenN n < (s.begin t).dev →
      exec (.laneIdle t n) s = .next (s.after t (fun r => r.setFlag Fld.PHX_Ln_STAT_IDLE n true)))
  ∧ (∀ (s : State) (t n i : Nat), s.Runs → n < s.lanes → i < s.lenN n →
      exec (.pointStateEcc t n i) s = .next (s.after t (fun r =>
        ((r.onPhx n (fun l => l.setPt i { Pt.reset with lastT := (l.pt i).lastT })).count Fld.PHX_ECC_CNT 0 1).faultAt 5 n (0x4010 + 0x200 * n) i 3)))
  ∧ ∀ (s : State) (t n : Nat), s.Runs → n < s.lanes → 256 ≤ (s.phxOf n).evalN → (s.laneOf n).st = .emitting →
      exec (.traceEndEval t n) s = .next (s.after t (fun r => r.traceEval n))
      ∧ (s.flag Fld.PHX_Ln_ENDREF_EN n = false →
        let avg (i : Nat) : Rat := if ((s.phxOf n).pt i).magN = 0 then 0 else (((s.phxOf n).pt i).mag : Rat) / ((s.phxOf n).pt i).magN / 65536
        let lit (i : Nat) : Prop := 7 ≤ i ∧ i < s.lenN n - s.laneFld n Fld.PHX_GAUGE_G
          ∧ 2 * (s.laneFld n Fld.PHX_FADE_TH_TH : Rat) ≤ ((List.range 8).map (fun k => avg (i - k))).sum / 8
        ∃ u, exec (.traceEndEval t n) s = .next u ∧ (u.phxOf n).evalN = (s.phxOf n).evalN - 256 ∧ (∀ e, e ∈ (u.phxOf n).pts → e.2.mag = 0 ∧ e.2.magN = 0)
          ∧ ((∀ i, ¬ lit i) → u.flag Fld.PHX_Ln_BREAK_DARK n = true ∧ u.flag Fld.PHX_Ln_BREAK_VALID n = false ∧ u.fld Fld.PHX_Ln_BREAK_END n = 0)
          ∧ (∀ i, lit i → (∀ j, i < j → ¬ lit j) → u.flag Fld.PHX_Ln_BREAK_DARK n = false ∧ u.flag Fld.PHX_Ln_BREAK_VALID n = true
            ∧ (i + 1 < s.lenN n - s.laneFld n Fld.PHX_GAUGE_G → u.fld Fld.PHX_Ln_BREAK_END n = i % 2 ^ 16 ∧ u.flag Fld.PHX_Ln_BREAK_NONE n = false)
            ∧ (i + 1 = s.lenN n - s.laneFld n Fld.PHX_GAUGE_G → u.fld Fld.PHX_Ln_BREAK_END n = (s.lenN n - 1) % 2 ^ 16 ∧ u.flag Fld.PHX_Ln_BREAK_NONE n = true)))

/-! ### Auxiliary measurement (R271 to R300) -/

/-- The connection of a source and its windows: each step of R275 follows the end of the one before after its own length, a source that has been set OFF meanwhile is not
connected, the first window opens when the settle time is
over, a window's corrected code joins the attempt's, and the result is written when the last one has ended (R275, R276, R284, R290). -/
def Obligations.AuxConversion : Prop :=
  (
    let Step (c : Nat → Instr) (st nxt : AuxStage) (len : State → AuxJob → Nat) (f : AuxJob → Nat → State → State) : Prop :=
      ∀ (s : State) (t : Nat) (j : AuxJob), s.Runs → s.aux.job = some j → s.aux.stage = st → s.aux.due ≤ (s.begin t).dev →
        exec (c t) s = .next (s.after t (fun r =>
          f j r.aux.due (r.onAux (fun x => { x with stage := nxt, due := x.due + 8 * len r j }))))
    Step .dischargeStart .off .discharge (fun r j => r.auxDischarge j.src) (fun _ _ r => r)
    ∧ Step .dischargeEnd .discharge .gap (fun _ _ => 196) (fun _ _ r => r)
    ∧ Step .sourceConnect .gap .settle (fun r j => r.auxSettle j.src) (fun j due r =>
        if r.auxMode j.src = 0 then r.connectOff j else (r.auxShow j.src).onAux (fun x => { x with conn := due }))
    ∧ Step .settleEnd .settle .convert (fun _ _ => 0) (fun _ due r => (r.onAux (fun x => { x with nextOpen := some due, opened := 0 })).auxAdvance))
  ∧ (∀ (s : State) (t : Nat) (raw : Int) (w : AuxWin) (rest : List AuxWin), s.Runs → s.aux.stage = .convert → s.aux.nextOpen = none → s.aux.wins = w :: rest →
      w.start + w.len ≤ (s.begin t).dev →
      exec (.windowEnd t raw) s = .next (s.after t (fun r =>
        let code := if w.gain = 0 then signed 24 (r.freeVal (2 ^ 24)) else roundEven (((raw : Rat) - (signed 32 w.off.toNat : Rat) / 256) * 2 ^ 30 / w.gain.toNat)
        let last := decide (rest = []) && decide (s.aux.opened = (s.aux.job.map (·.nwin)).getD 1)
        ((r.onAux (fun x => { x with
            wins := rest
            codes := x.codes ++ [code]
            stage := if last then .write else .convert
            due := if last then w.start + w.len + 8 * 64 else x.due })).count Fld.AUX_WIN_CNT 0 1).drawn)))
  ∧ ∀ (s : State) (t : Nat) (j : AuxJob), s.Runs → s.aux.job = some j → s.aux.stage = .write → s.aux.due ≤ (s.begin t).dev →
      exec (.resultWrite t) s = .next (s.after t (fun r => (r.resultPut j).auxOver j s.aux.due))

/-- Requests and calibration: the sequence starts and stops with RUN, an injected conversion is requested by its source, a source above 16 is reported with
reason ENUM, a calibration is commanded or follows the die temperature, its steps give one pair of codes each, and REFREADY sets when its wait is over (R278,
R279, R283, R291, R294, R295). LINESYNC and the checks: an edge of the selected kind measures the mains period, its absence for 4,882,813 PCLK is reported, the
connected channel's leads are checked, a result too old gains STALE, and a read of a result register latches the tag that belongs to it (R277, R285 to R289). -/
def Obligations.AuxRequestsAndSupervision : Prop :=
  (
    (∀ (s : State) (t : Nat), s.Runs →
      exec (.seqStart t) s = .next (s.after t (fun r => (r.putSeqRun true).seqStart))
      ∧ exec (.seqStop t) s = .next (s.after t (fun r => ((r.putSeqRun false).auxAdvance).seqStop)))
    ∧ (∀ (s : State) (t : Nat) (src : Source) (k : Nat), s.Runs → (s.begin t).Admits src Fld.AUX_INJ_SRC.addr →
        (k ≤ 16 → exec (.injectRequest t src k) s = .next (s.after t (fun r => r.auxRequest k 0)))
        ∧ (16 < k → k < 32 → exec (.injectRequest t src k) s = .next (s.after t (fun r => r.clamp src Fld.AUX_INJ_SRC.addr (BitVec.ofNat 32 (k + 2 ^ 16)) 0 rsEnum 0 4))))
    ∧ (∀ (s : State) (t : Nat) (src : Source), s.Runs → (s.begin t).Admits src Fld.AUX_CALCMD_START.addr →
        exec (.auxCalibrate t src) s = .next (s.after t (fun r => r.calCommand 1)))
    ∧ (∀ (s : State) (t temp : Nat), s.Runs → s.flag Fld.SYS_CTRL_RUN 0 = true → exec (.auxTempCheck t temp) s = .next (s.after t (fun r => r.auxTemp temp)))
    ∧ (∀ (s : State) (t : Nat) (a b : Int) (w : AuxWin) (rest : List AuxWin), s.Runs → s.aux.stage = .cal → s.aux.nextOpen = none → s.aux.wins = w :: rest →
        w.start + w.len ≤ (s.begin t).dev → s.aux.calCodes.length < 15 →
        exec (.auxCalStepEnd t a b) s = .next (s.after t (fun r =>
          r.onAux (fun x => { x with calCodes := x.calCodes ++ [(a, b)], wins := [], nextOpen := some (w.start + w.len + 8 * 2048) }))))
    ∧ (∀ (s : State) (t : Nat) (a b : Int) (w : AuxWin) (rest : List AuxWin), s.Runs → s.aux.stage = .cal → s.aux.nextOpen = none → s.aux.wins = w :: rest →
        w.start + w.len ≤ (s.begin t).dev → 15 ≤ s.aux.calCodes.length →
        exec (.auxCalStepEnd t a b) s = .next (s.after t (fun r => r.auxCalDone (r.aux.calCodes ++ [(a, b)]))))
    ∧ ∀ (s : State) (t d : Nat), s.Runs → s.aux.refDue = some d → d ≤ (s.begin t).dev →
        exec (.refReady t) s = .next (s.after t (fun r =>
          let r1 := r.auxAdvance
          (((r1.onAux (fun x => { x with refDue := none })).setFlag Fld.AUX_STAT_REFREADY 0 true).auxLate r1).auxResume)))
  ∧ (
    (∀ (s : State) (t : Nat) (rising : Bool), s.Runs → exec (.linesyncEdge t rising) s = .next (s.after t (fun r => r.lineEdge rising)))
    ∧ (∀ (s : State) (t : Nat), s.Runs → s.fld Fld.AUX_MAINS_MODE 0 = 2 → s.flag Fld.AUX_STAT_LSLOST 0 = false → s.aux.lineAt + 4882813 * 8 ≤ (s.begin t).dev →
        exec (.linesyncLost t) s = .next (s.after t (fun r =>
          ((r.auxAdvance.onAux (fun x => { x with lineGood := 0 })).setFlag Fld.AUX_STAT_LSLOST 0 true).faultAt 8 0xFF 0x200 0 1)))
    ∧ (∀ (s : State) (t amp : Nat) (limit : Bool) (sns inp : List Nat), s.Runs →
        exec (.leadCheck t amp limit sns inp) s = .next (s.after t (fun r => r.leadCheck amp limit sns inp)))
    ∧ (∀ (s : State) (t k : Nat) (v : AuxSrc), s.Runs → k < 16 → s.aux.src.getD k ⟨0, 0, 0, 0⟩ = v → 0 < v.cnt →
        v.since + s.fld Fld.AUX_STALE_AGE 0 * 2 ^ 20 * 8 < (s.begin t).dev →
        exec (.resultAgeStale t k) s = .next (s.after t (fun r =>
          r.onAux (fun x => { x with src := x.src.setIfInBounds k { v with tag := v.tag ||| 4 } }.tagInj k 4))))
    ∧ ∀ (s : State) (t c : Nat) (addr : Word), s.Runs → c < 16 → addr.toNat = Fld.AUX_Cn_RESULT_RESULT.at c →
        let v := s.aux.src.getD c ⟨0, 0, 0, 0⟩
        exec (.auxResultRead t addr) s = .next (s.after t (fun r =>
          { r.setLive (Fld.AUX_Cn_TAG_TAG.at c) (BitVec.ofNat 32 (v.tag % 2 ^ 16 + v.cnt % 2 ^ 16 * 2 ^ 16)) with
            resp := leBytes 4 (BitVec.ofNat 32 (r.auxFormat v.val)).toNat })))

/-! ### Memory controller (R301 to R329) -/

/-- Events of the controller: a port's request arrives; a channel's slot chooses its next command; a refresh falls due and is owed, up to eight; an idle channel with no
maintenance due enters self-refresh; a budget window releases the held ports and takes the new budgets; ZQCS follows drift or 128 ms; retraining slots hold the channel, may
change its VrefDQ, and the last one ends it, maintenance ending self-refresh first; and the scrub reads the next burst of its pass when it is due and nothing of a better
class waits (R310, R312, R315 to R318, R322, R325, R329). -/
def Obligations.MemoryController : Prop :=
  (∀ (s : State) (t port addr : Nat) (half ap : Bool) (data : Option (List Byte)), s.Runs → port < 12 → addr < s.dramEnd →
    exec (.memRequest t port addr half ap data) s = .next (s.after t (fun r =>
      r.memRequest ⟨port, addr, data.isSome, ap, (data.getD []).take (64 - addr % 64), r.mclk half, 0, false⟩)))
  ∧ (∀ (s : State) (t c err : Nat) (half : Bool), s.Runs → c < 2 → s.flag Fld.MEM_STAT_READY 0 = true →
      exec (.memCommandSlot t c half err) s = .next (s.after t (fun r => r.commandSlot c (r.mclk half) err)))
  ∧ (∀ (s : State) (t c : Nat) (temps : Word), s.Runs → c < 2 → s.flag Fld.MEM_STAT_READY 0 = true → (s.memChan c).sr = none →
      (s.memChan c).refAt ≤ (s.begin t).mclk false →
      exec (.refreshDue t c temps) s = .next (s.after t (fun r =>
        let r1 := (r.setLive Fld.SYS_TEMP_T0.addr temps).refreshRate
        (r1.onChan c (fun m => { m with refAt := m.refAt + r1.tREFI })).setFld Fld.MEM_CHc_STAT_OWED c (min 8 (r.fld Fld.MEM_CHc_STAT_OWED c + 1)))))
  ∧ (∀ (s : State) (t c : Nat), s.Runs → c < 2 → s.flag Fld.MEM_STAT_READY 0 = true → s.flag Fld.MEM_SR_CTRL_EN 0 = true → (s.memChan c).sr = none →
      (s.memChan c).reqs = [] → s.nextBack c = none → (s.memChan c).busy ≤ (s.begin t).mclk false → s.fld Fld.MEM_CHc_STAT_OWED c = 0 →
      (s.begin t).mclk false < (s.memChan c).refAt → s.maintDue c ((s.begin t).mclk false) = false →
      (s.memChan c).used + 64 * s.fld Fld.MEM_SR_CTRL_IDLE 0 ≤ (s.begin t).mclk false →
      exec (.selfRefreshEntry t c) s = .next (s.after t (fun r => r.onChan c (fun m => { (m.closeAll (r.mclk false)) with sr := some (r.mclk false) }))))
  ∧ (∀ (s : State) (t : Nat), s.Runs → s.memc.winAt + 256 * s.memc.bwin ≤ (s.begin t).mclk false →
      exec (.budgetWindowEnd t) s = .next (s.after t (fun r =>
        { r with memc := { r.memc with
            used := Vector.replicate 12 0
            held := 0
            budget := Vector.ofFn (fun p : Fin 12 => r.fld Fld.MEM_Pp_BUDGET_BUDGET p.val)
            bwin := r.fld Fld.MEM_BWIN_WIN 0
            winAt := s.memc.winAt + 256 * s.memc.bwin } })))
  ∧ (∀ (s : State) (t c temp : Nat), s.Runs → c < 2 → s.flag Fld.MEM_STAT_READY 0 = true → s.flag Fld.SYS_CTRL_RUN 0 = true →
      (s.memChan c).zqTemp + s.fld Fld.MEM_MAINT_ZQ_DT 0 < temp ∨ temp + s.fld Fld.MEM_MAINT_ZQ_DT 0 < (s.memChan c).zqTemp
        ∨ (s.memChan c).zqAt + 200000000 ≤ (s.begin t).mclk false →
      exec (.zqcs t c temp) s = .next (s.after t (fun r => (r.wakeFor c (r.mclk false)).onChan c (fun m =>
        { m with busy := max m.busy (r.mclk false) + 128 * (1 + r.fld Fld.MEM_GEOM_RANKS 0), zqAt := r.mclk false, zqTemp := temp }))))
  ∧ (∀ (s : State) (t c temp : Nat) (work : SlotWork) (last : Bool), s.Runs → c < 2 → s.flag Fld.MEM_STAT_READY 0 = true → s.sys.hearth = true →
      work.hold ≤ 768 → (∀ a, (s.memChan c).slotAt = some a → a + 65536 ≤ (s.begin t).mclk false) → s.flag Fld.MEM_STAT_RETRAIN 0 = true →
      exec (.retrainSlot t c temp work last) s = .next (s.after t (fun r =>
        let r1 := ((r.wakeFor c (r.mclk false)).onChan c (fun m => { m with busy := max m.busy (r.mclk false) + work.hold, slotAt := some (r.mclk false) })).setFlag
          Fld.MEM_STAT_RETRAIN 0 (!last)
        let r2 := match work.vref with
          | some v => r1.setFld Fld.MEM_CHc_STAT_VREFDQ c v
          | none => r1
        if last then (r2.setFld Fld.MEM_STAT_TTRAIN 0 temp).count Fld.MEM_RETRAIN_CNT 0 1 else r2)))
  ∧ (∀ (s : State) (t c temp : Nat) (work : SlotWork) (last : Bool), s.Runs → s.flag Fld.MEM_STAT_RETRAIN 0 = false →
      (s.flag Fld.SYS_CTRL_RUN 0 = false → exec (.retrainSlot t c temp work last) s = .next (s.after t (fun r => r)))
      ∧ (s.flag Fld.SYS_CTRL_RUN 0 = true → s.sys.hearth = false → s.flag Fld.MEM_STAT_READY 0 = true → s.retrainDue temp = true →
        exec (.retrainSlot t c temp work last) s = .next (s.after t State.deferRetrain)))
  ∧ (∀ (s : State) (c now : Nat), (s.memChan c).sr = none → s.wakeFor c now = s)
  ∧ ∀ (s : State) (t : Nat), s.Runs → s.flag Fld.MEM_STAT_READY 0 = true → s.flag Fld.MEM_CTRL_SCRUB_EN 0 = true → (s.begin t).scrubDue = true →
      (s.begin t).scrubTurn s.memc.scrub = true →
      exec (.scrubRead t 0) s = .next (s.after t (fun r =>
        let r1 := (r.portRead 11 true s.memc.scrub 64).1
        let next := s.memc.scrub + 64
        if next < s.dramEnd then { r1 with memc := { r1.memc with scrub := next } }
        else { r1 with memc := { r1.memc with scrub := 0, scrubFrom := s.memc.scrubFrom + s.fld Fld.MEM_SCRUB_PERIOD 0 * 46875000000 } }.count
          Fld.MEM_SCRUB_PASS_CNT 0 1))

/-- The mapping of addresses is one-to-one: where each mask holds its own home bit and no other field's, two addresses below 2^35 with the same channel, bank,
row and column lie in one burst (R304 to R306). A port's write that is accepted stores its bytes, up to the end of its burst, and no other byte of external
memory changes; a read takes the bytes that stand there and stores none (R310, R311). -/
def Obligations.ExternalMemory : Prop :=
  (
    ∀ (s : State) (a b : Nat), a < 2 ^ 35 → b < 2 ^ 35 →
      let x16 := s.flag Fld.MEM_GEOM_WIDTH 0
      let Home (k : Nat) (f : Fld) : Prop := bit (s.fld f 0) k = true ∧ ∀ j, j < (if x16 then 4 else 5) → j ≠ k → bit (s.fld f 0) j = false
      let column (a : Nat) : Nat := if x16 then a / 2 ^ 10 % 2 ^ 7 else a / 2 ^ 11 % 2 ^ 7
      Home 0 Fld.MEM_XMAP_CH_MASK → Home 1 Fld.MEM_XMAP_BG0_MASK → Home 2 Fld.MEM_XMAP_BA0_MASK → Home 3 Fld.MEM_XMAP_BA1_MASK →
      (x16 = false → Home 4 Fld.MEM_XMAP_BG1_MASK) →
      s.chanOf a = s.chanOf b → s.bankKey a = s.bankKey b → s.rowOf a = s.rowOf b → column a = column b → a / 64 = b / 64)
  ∧ (
    ∀ (s : State) (t port addr : Nat) (half ap : Bool) (data : Option (List Byte)), s.Runs → port < 12 → addr < s.dramEnd → s.dramEnd % 64 = 0 →
      s.flag Fld.MEM_STAT_READY 0 = true → s.memc.waiting = [] → (s.memChan (s.chanOf addr)).sr = none →
      ((s.memChan (s.chanOf addr)).reqs.filter (fun x => x.write)).length < 64 → s.eccRange 0 (addr / 64 * 64) 64 = 0 →
      ∃ u, exec (.memRequest t port addr half ap data) s = .next u ∧ u.eng = s.eng ∧ u.que = s.que
        ∧ (∀ b, u.readByte b = (if addr ≤ b ∧ b < addr + min (data.getD []).length (64 - addr % 64) then (data.getD []).getD (b - addr) 0 else s.readByte b))
        ∧ (data = none → ∃ q, q ∈ (u.memChan (u.chanOf addr)).reqs ∧ q.port = port ∧ q.data = s.readBytes (addr / 64 * 64) 64))

/-! ### Host ports (R388 to R394) -/

/-- SPI frames: a write whose length and address are right is applied word by word within its window when its CRC-8 holds, and otherwise only counted and shown in
NET_SPI_STATUS; a read latches its words when its dummy bytes are over; STATUS answers the status and its CRC; an unknown command changes nothing. Every answer closes with
its own CRC-8, so that the CRC-8 over the whole answer is 0 (R388 to R390, R392). -/
def Obligations.SpiFrames : Prop :=
  (∀ (s : State) (t : Nat) (f : List Byte), s.Runs → beNat (f.take 1) = 2 → 6 ≤ f.length → f.length = 7 + 4 * (spiLen f + 1) → spiAddr f % 4 = 0 → spiLen f ≤ 63 →
    (crc8 (f.take (f.length - 1)) ≠ beNat (f.drop (f.length - 1)) →
      exec (.spiWrite t f) s = .next (s.after t (fun r => (r.setSpi r.spiStatus 2 false false).count Fld.NET_SPI_ERR_CNT 0 1)))
    ∧ (crc8 (f.take (f.length - 1)) = beNat (f.drop (f.length - 1)) → spiAddr f + 4 * (spiLen f + 1) ≤ 0x100000 →
      exec (.spiWrite t f) s = .next (s.after t (fun r =>
        ((beWords (min (spiLen f + 1) ((0x10000 - spiAddr f % 0x10000) / 4)) (f.drop 6)).foldl (fun (acc : State × Nat) w =>
          (acc.1.write .spi acc.2 w, acc.2 + 4)) (r.setSpi r.spiStatus 1 false false, spiAddr f)).1))))
  ∧ (∀ (s : State) (t : Nat) (f : List Byte) (late : Bool), s.Runs → beNat (f.take 1) = 11 →
      exec (.spiRead t f late) s = .next (s.after t (fun r => r.spiRead f late)))
  ∧ (∀ (s : State) (t : Nat), s.Runs → ∃ u, exec (.spiStatus t) s = .next u ∧ u.resp = beBytes 2 s.spiStatus ++ beBytes 1 (crc8 (beBytes 2 s.spiStatus))
      ∧ u.eng = s.eng ∧ u.mem = s.mem ∧ u.que = s.que)
  ∧ (∀ (s : State) (t : Nat) (f : List Byte), s.Runs → exec (.spiUnknownCommand t f) s = .next (s.begin t))
  ∧ ∀ (status len : Nat) (ws : List Word), crc8 (spiAnswer status len ws) = 0

/-- A frame of the management form on a port that is up, whichever of the three commands brings it: one that R394 rejects counts in NET_MGMT_REJ_CNT and gets no response; an
accepted one moves the kept counter, counts, and runs what its opcode asks for with its body, where an opcode that R393 does not list is answered as a bad body. UDP to the
device that is neither such a frame nor an ACK is dropped and counted, and after a boot failure nothing is answered. SUBMIT refused by a check of R337 counts its reason and
answers its result. QUEUE_ACCEPT accepts a queue's oldest submission once its journal writes are in, and answers the clients whose submission lost its turn
(R337 to R339, R381, R393, R394, R397). -/
def Obligations.ManagementFrames : Prop :=
  let Manages (c : Nat → Nat → Option Nat → Nat → Nat → Nat → List Byte → Instr) : Prop :=
    ∀ (s : State) (t n smac sip sport : Nat) (vid : Option Nat) (f : List Byte), s.ticks = true → s.portUp n = true → s.flag Fld.NET_Pn_MODE_VLAN_EN n = false →
      (s.bootDead = false → mgmtForm f = true → (s.begin t).mgmtOk f = false →
        exec (c t n vid smac sip sport f) s = .next (s.after t (fun r => r.count Fld.NET_MGMT_REJ_CNT 0 1)))
      ∧ (s.bootDead = false → mgmtForm f = true → (s.begin t).mgmtOk f = true →
        exec (c t n vid smac sip sport f) s = .next (s.after t (fun r =>
          ({ r with pwr := { r.pwr with mgmtCtr := imgGet f 32 8 } }.count Fld.NET_MGMT_OK_CNT 0 1).mgmtRun ⟨n, smac, sip, sport, imgGet f 32 8⟩ (imgGet f 40 2)
            ((f.drop 44).take (imgGet f 42 2)))))
      ∧ (s.bootDead = false → mgmtForm f = false → ackForm f = false →
        exec (c t n vid smac sip sport f) s = .next (s.after t (fun r => r.count Fld.NET_RXDROP_CNT 0 1)))
      ∧ (s.bootDead = true → exec (c t n vid smac sip sport f) s = .next (s.begin t))
  Manages .mgmtRead ∧ Manages .mgmtWrite ∧ Manages .mgmtSubmit
  ∧ (∀ (s : State) (c : Client) (b : List Byte), s.mgmtRun c 1 b = s.mgmtRead c b ∧ s.mgmtRun c 2 b = s.mgmtWrite c b ∧ s.mgmtRun c 3 b = s.mgmtSubmit c b
      ∧ ∀ op, op = 0 ∨ 3 < op → s.mgmtRun c op b = s.mgmtAnswer c op 7 [])
  ∧ (∀ (s : State) (f : List Byte), imgGet f 32 8 ≤ s.pwr.mgmtCtr ∨ s.flag Fld.NET_MGMT_EN 0 = false → s.mgmtOk f = false)
  ∧ (∀ (s : State) (c : Client) (q res : Nat) (img : List Byte), q < 64 → img.length = 64 → s.inReset = false →
      s.checkTurn q (.mgmt c.port c.mac c.ip c.udp c.ctr) img = some res → res ≠ resDup →
      s.mgmtSubmit c (BitVec.ofNat 8 q :: [0, 0, 0] ++ img) = (s.countRefusal res).mgmtAnswer c 3 res [])
  ∧ ∀ (s : State) (t q : Nat), s.Runs → q < 64 →
      (s.mirrorReady = true → (∀ r, r ∈ s.memc.waiting → r.write = true → r.port ≠ 6) →
        exec (.queueAccept t q) s = .next (s.after t (fun r => (r.acceptHead q).answerTurned)))
      ∧ (s.mirrorReady = false ∨ (∃ r, r ∈ s.memc.waiting ∧ r.write = true ∧ r.port = 6) →
        exec (.queueAccept t q) s = .next (s.after t State.answerTurned))

/-! ### Queues and delivery (R330 to R362, R505) -/

/-- A submission's life: the oldest one is accepted with the next sequence, which becomes QUE_Qq_ACC_SEQ while TAIL moves by one around the ring and the occupancy grows by
one; the done descriptors at the head become final together: they leave, CMP_SEQ becomes the last one's sequence, and HEAD and the occupancy move over them; before the first
is done nothing is final. Hearth ends the mailbox request that it has taken and takes the next one (R36, R339 to R341). -/
def Obligations.QueueProgress : Prop :=
  (∀ (s : State) (q : Nat) (f : Inflight) (rest : List Inflight), q < 64 → (s.queue q).inflight = f :: rest →
    ((s.accept q).queue q).inflight = rest ∧ ((s.accept q).queue q).entries.length = (s.queue q).entries.length + 1
    ∧ (s.accept q).fld Fld.QUE_Qq_ACC_SEQ_SEQ q = f.seq % 2 ^ 31
    ∧ (s.accept q).fld Fld.QUE_Qq_TAIL_TAIL q = (s.fld Fld.QUE_Qq_TAIL_TAIL q + 1) % s.fld Fld.QUE_Qq_SIZE_SIZE q % 2 ^ 10
    ∧ (s.accept q).fld Fld.QUE_Qq_STAT_OCC q = (s.fld Fld.QUE_Qq_STAT_OCC q + 1) % 2 ^ 11)
  ∧ (∀ (s : State) (t q : Nat), s.Runs → q < 64 → s.mirrorReady = true → exec (.completionFinal t q) s = .next (s.after t (fun r => r.finishRun q)))
  ∧ (∀ (s : State) (q : Nat) (run rest : List Entry) (e : Entry), q < 64 → (s.queue q).entries = run ++ rest → (∀ x, x ∈ run → x.done = true) →
      run.getLast? = some e → (∀ x, rest.head? = some x → x.done = false) →
      ((s.finishRun q).queue q).entries = rest ∧ (s.finishRun q).fld Fld.QUE_Qq_CMP_SEQ_SEQ q = e.seq % 2 ^ 31
      ∧ (s.finishRun q).fld Fld.QUE_Qq_HEAD_HEAD q = (s.fld Fld.QUE_Qq_HEAD_HEAD q + run.length) % s.fld Fld.QUE_Qq_SIZE_SIZE q % 2 ^ 10
      ∧ (s.finishRun q).fld Fld.QUE_Qq_STAT_OCC q = s.fld Fld.QUE_Qq_STAT_OCC q - run.length
      ∧ (s.finishRun q).fld Fld.QUE_Qq_TAIL_TAIL q = s.fld Fld.QUE_Qq_TAIL_TAIL q)
  ∧ (∀ (s : State) (q : Nat) (e : Entry) (rest : List Entry), (s.queue q).entries = e :: rest → e.done = false → s.finishRun q = s)
  ∧ ∀ (s : State) (t : Nat) (e : Entry), s.Runs → s.sys.hearth = true → (s.queue 63).entries.find? (fun e => e.taken && !e.done) = some e →
      exec (.mailboxJobEnd t) s = .next (s.after t (fun r => (r.done 63 e.seq).mailboxTake))

/-- The stream transport: a full frame, or one whose first record has waited, is formed, sent and retained; an acknowledgement of the present epoch for a stream of the
device works on that stream; a timed-out frame is sent again with RETX and one that has timed out 16 times stalls the stream; an unreadable payload is withheld, and every
other record waits for it (R353 to R360, R505). -/
def Obligations.StreamTransport : Prop :=
  (∀ (s : State) (t q : Nat), s.Runs → (s.begin t).nextRecs q ≠ [] →
    (((s.begin t).nextRecs q).length = (s.begin t).perFrame q → exec (.mstFrameSend t q) s = .next (s.after t (fun r => r.formFrame q (r.nextRecs q))))
    ∧ (((s.begin t).nextRecs q).length < (s.begin t).perFrame q → (s.begin t).flushDue ((s.begin t).nextRecs q) = true →
      exec (.mstFlushTimeout t q) s = .next (s.after t (fun r => r.formFrame q (r.nextRecs q)))))
  ∧ (∀ (s : State) (t n q : Nat) (vid : Option Nat) (f : List Byte), s.Runs → s.portUp n = true → s.flag Fld.NET_Pn_MODE_VLAN_EN n = false →
      ackForm f = true → s.legacy = false →
      (imgGet f 8 4 ≠ s.fld Fld.TWN_EPOCH_EPOCH 0 → exec (.mstAck t n vid f) s = .next (s.begin t))
      ∧ (imgGet f 8 4 = s.fld Fld.TWN_EPOCH_EPOCH 0 →
        (List.range 64).find? (fun q => s.cons q = consNet && s.fld Fld.QUE_Qq_CFG_STREAM q = imgGet f 4 2) = some q →
        exec (.mstAck t n vid f) s = .next (s.after t (fun r => r.ackStream q (imgGet f 12 4) (imgGet f 32 8)))))
  ∧ (∀ (s : State) (t q seq : Nat) (f : MstFrame), s.Runs → q < 64 → s.fld Fld.TWN_STAT_ROLE 0 < 2 →
      (s.queue q).stream.frames.find? (fun f => f.seq = seq) = some f → (s.begin t).rtoDue f = true →
      exec (.mstRto t q seq) s = .next (s.after t (fun r =>
        let r1 := r.onQueue q (fun x => { x with stream := { x.stream with
          frames := x.stream.frames.map (fun g => if g.seq = seq then { g with sentAt := r.dev, timeouts := g.timeouts + 1 } else g) } })
        let r2 := (r1.sendStream q (withRetx f.bytes)).count Fld.QUE_RETX_CNT 0 1
        if f.timeouts = 15 then (r2.setFlag Fld.QUE_Qq_STAT_STALLED q true).faultAt 10 q (0x401C + 0x100 * q) 0 1 else r2)))
  ∧ ∀ (s : State) (t q : Nat) (e : Entry), s.Runs → s.streamOn q = true →
      (s.queue q).entries.find? (fun e => !e.skip && e.holds (s.queue q).stream.nextRec) = some e → s.unreadable e.img = true →
      s.dramEnd < imgGet e.img 16 8 + imgGet e.img 24 4 →
      exec (.payloadUnreadable t q false) s = .next (s.after t (fun r =>
        (r.onQueue q (fun x => { x with stream := { x.stream with unread := some e.seq } })).streamSettle q))
      ∧ (s.earlierDone q e.seq = true → (s.queue q).entries.find? (fun x => x.seq = e.seq) = some e →
        (s.onQueue q (fun x => { x with stream := { x.stream with unread := some e.seq } })).streamSettle q
          = (s.onQueue q (fun x => { x with stream := { x.stream with unread := some e.seq } })).withhold q e)

/-! ### Crucible (R363 to R379) -/

/-- The compressor and the decompressor take their next job when they are free and enabled and MEM is READY, and nothing else changes a unit then. A taken job occupies its unit;
one that fails its validation or has lost its payload ends with that status and touches no memory, and a compression that succeeds has written its output, whose counts and CRC it
holds. A job that ends leaves its completion record in memory, its counters and, for a decompression fault, CRU_ERR, its descriptor done and its unit free (R340, R366, R367, R373,
R376). -/
def Obligations.Compression : Prop :=
  let slot (s : State) (unit : Nat) : Option CruJob := if unit = 0 then s.cru.comp else s.cru.dec
  (∀ (s : State) (t : Nat), s.Runs →
    exec (.compress t) s = .next (s.after t (fun r => r.cruTake 0)) ∧ exec (.decompress t) s = .next (s.after t (fun r => r.cruTake 1)))
  ∧ (∀ (s : State) (unit q : Nat) (e : Entry), unit < 2 → s.flag Fld.CRU_CTRL_EN 0 = true → s.flag Fld.QUE_CTRL_EN 0 = true → s.flag Fld.MEM_STAT_READY 0 = true →
      s.cru.comp = none → s.cru.waitC = none → s.cru.dec = none → s.cru.waitD = none → s.cruNext unit = some (q, e) →
      s.cruTake unit = (
        let r1 := s.take q e.seq
        let r2 := if unit = 0 then { r1 with cru := { r1.cru with lastC := q - 24 } } else { r1 with cru := { r1.cru with lastD := q - 24 } }
        if r2.cruClash unit e.img then
          (if unit = 0 then { r2 with cru := { r2.cru with waitC := some (q, e.seq) } } else { r2 with cru := { r2.cru with waitD := some (q, e.seq) } }).cruStat
        else r2.cruRun unit q e.seq e.img))
  ∧ (∀ (s : State) (unit : Nat), unit < 2 →
      s.flag Fld.CRU_CTRL_EN 0 = false ∨ s.flag Fld.QUE_CTRL_EN 0 = false ∨ s.flag Fld.MEM_STAT_READY 0 = false ∨ (slot s unit).isSome = true ∨ s.cruNext unit = none →
      s.cruTake unit = s)
  ∧ (∀ (s : State) (unit q seq : Nat) (img : List Byte), unit < 2 →
      (∃ j, slot (s.cruRun unit q seq img) unit = some j ∧ j.q = q ∧ j.seq = seq ∧ j.img = img
        ∧ (s.badDesc img = true → j.status = 16 ∧ j.stream = none ∧ j.inBytes = 0 ∧ j.outBytes = 0 ∧ (s.cruRun unit q seq img).mem = s.mem)
        ∧ (s.badDesc img = false → imgFlag img flNoPayload = true → j.status = 20 ∧ j.inBytes = 0 ∧ j.outBytes = 0 ∧ (s.cruRun unit q seq img).mem = s.mem))
      ∧ slot (s.cruRun unit q seq img) (1 - unit) = slot s (1 - unit))
  ∧ (∀ (s : State) (q seq : Nat) (img : List Byte), s.badDesc img = false → imgFlag img flNoPayload = false → jobCtx img = false → s.sys.eccBad = [] →
      s.flag Fld.MEM_STAT_READY 0 = true → s.memc.waiting = [] →
      let data := s.readBytes (jobIn img) (jobLen img)
      let z := compressed img (s.jobLvl img) (CtxRec.fresh (decide (jobOp img = opDecompress)) (jobZlib img) (jobStream img)) data
      z.length + 32 ≤ jobCap img →
      ∃ j, (s.cruRun 0 q seq img).cru.comp = some j ∧ j.status = 0 ∧ j.inBytes = jobLen img ∧ j.outBytes = z.length + 32 ∧ j.crc = crc32c data
        ∧ (s.cruRun 0 q seq img).readBytes (jobOut img) z.length = z)
  ∧ (∀ (s : State) (t unit : Nat), s.Runs → unit < 2 → exec (.cruJobEnd t unit) s = .next (s.after t (fun r => r.cruEnd unit)))
  ∧ (∀ (s : State) (unit : Nat) (j : CruJob), unit < 2 → slot s unit = some j → j.q < 64 → slot s (1 - unit) = none → s.cru.waitC = none → s.cru.waitD = none →
      let u := s.cruEnd unit
      slot u unit = none ∧ slot u (1 - unit) = none
      ∧ (u.queue j.q).entries = (s.queue j.q).entries.map (fun e => if e.seq = j.seq then { e with done := true } else e)
      ∧ u.fld (if unit = 0 then Fld.CRU_CJOB_CNT else Fld.CRU_DJOB_CNT) 0
          = (s.fld (if unit = 0 then Fld.CRU_CJOB_CNT else Fld.CRU_DJOB_CNT) 0 + 1) % 2 ^ 32
      ∧ u.fld Fld.CRU_FAULT_CNT 0 = (if j.status = 0 then s.fld Fld.CRU_FAULT_CNT 0 else (s.fld Fld.CRU_FAULT_CNT 0 + 1) % 2 ^ 32)
      ∧ (unit = 1 → 1 ≤ j.status → j.status ≤ 6 → u.fld Fld.CRU_ERR_CODE 0 = j.status ∧ u.fld Fld.CRU_ERR_QUEUE 0 = (j.q - 24) % 8
          ∧ u.fld Fld.CRU_ERR_SEQ_SEQ 0 = j.seq % 2 ^ 32 ∧ u.fld Fld.CRU_ERR_POS_POS 0 = j.bitPos % 2 ^ 32)
      ∧ (s.flag Fld.MEM_STAT_READY 0 = true → s.memc.waiting = [] → s.sys.eccBad = [] → jobStat j.img + 32 ≤ s.dramEnd →
          s.recordAddr j.q + 64 ≤ jobStat j.img ∨ jobStat j.img + 32 ≤ s.recordAddr j.q → u.readBytes (jobStat j.img) 32 = completionRecord j))
  ∧ ∀ (j : CruJob), completionRecord j = leBytes 4 j.status ++ leBytes 4 j.seq ++ leBytes 8 (imgGet j.img 0 8) ++ leBytes 4 j.inBytes ++ leBytes 4 j.outBytes
      ++ leBytes 4 j.bitPos ++ leBytes 4 j.crc

/-! ### Network and time (R380 to R387) -/

/-- The ports: a link comes up at the speed that its mode allows and goes down; in automatic mode each speed is tried for 500 ms; a commit ends a link that its
SPEED or PORT_EN excludes and starts the tries anew with 10GBASE-R; a frame that the port does not accept is
dropped and counted, and so is one with another VID; an ARP request for the port's address and a neighbour solicitation for it are answered (R380 to R383). -/
def Obligations.Links : Prop :=
  (∀ (s : State) (t n speed : Nat), s.Runs → n < 2 → bit (s.fld Fld.NET_CTRL_PORT_EN 0) n = true → s.flag Fld.NET_Pn_STAT_LINK n = false →
    speed = (if s.fld Fld.NET_Pn_MODE_SPEED n = 0 then (s.net.speed.getD n (1, 0)).1 else s.fld Fld.NET_Pn_MODE_SPEED n) →
    exec (.linkUp t n speed) s = .next (s.after t (fun r => r.setLink n speed)))
  ∧ (∀ (s : State) (t n : Nat), s.Runs → n < 2 → s.flag Fld.NET_Pn_STAT_LINK n = true → exec (.linkDown t n) s = .next (s.after t (fun r => r.setLink n 0)))
  ∧ (∀ (s : State) (n speed : Nat), n < 2 → speed < 4 → (s.setLink n speed).flag Fld.NET_Pn_STAT_LINK n = decide (speed ≠ 0)
      ∧ (s.setLink n speed).fld Fld.NET_Pn_STAT_SPEED n = speed ∧ bit ((s.setLink n speed).fld Fld.NET_STAT_LINK 0) n = decide (speed ≠ 0))
  ∧ (∀ (s : State) (t n : Nat), s.Runs → n < 2 → s.fld Fld.NET_Pn_MODE_SPEED n = 0 → s.flag Fld.NET_Pn_STAT_LINK n = false →
      bit (s.fld Fld.NET_CTRL_PORT_EN 0) n = true → (s.net.speed.getD n (1, 0)).2 + 390625000 ≤ (s.begin t).dev →
      exec (.speedTryTimeout t n) s = .next (s.after t (fun r =>
        { r with net := { r.net with speed := r.net.speed.setIfInBounds n (3 - (s.net.speed.getD n (1, 0)).1, r.dev) } })))
  ∧ (∀ (s old : State) (n : Nat), n < 2 →
      (s.flag Fld.NET_Pn_STAT_LINK n = true → bit (s.fld Fld.NET_CTRL_PORT_EN 0) n = false
          ∨ (s.fld Fld.NET_Pn_MODE_SPEED n ≠ 0 ∧ s.fld Fld.NET_Pn_STAT_SPEED n ≠ s.fld Fld.NET_Pn_MODE_SPEED n) → s.linkCommit old n = s.setLink n 0)
      ∧ (s.flag Fld.NET_Pn_STAT_LINK n = true → bit (s.fld Fld.NET_CTRL_PORT_EN 0) n = true →
          s.fld Fld.NET_Pn_MODE_SPEED n = 0 ∨ s.fld Fld.NET_Pn_STAT_SPEED n = s.fld Fld.NET_Pn_MODE_SPEED n → s.linkCommit old n = s)
      ∧ (s.flag Fld.NET_Pn_STAT_LINK n = false → bit (s.fld Fld.NET_CTRL_PORT_EN 0) n = true →
          bit (old.fld Fld.NET_CTRL_PORT_EN 0) n = false ∨ (s.fld Fld.NET_Pn_MODE_SPEED n = 0 ∧ old.fld Fld.NET_Pn_MODE_SPEED n ≠ 0) →
          s.linkCommit old n = { s with net := { s.net with speed := s.net.speed.setIfInBounds n (1, s.dev) } }))
  ∧ (∀ (s : State) (t n dst : Nat) (vid : Option Nat) (kind : RxKind), s.Runs → s.portUp n = true →
      (s.flag Fld.NET_Pn_MODE_VLAN_EN n = true ∧ vid ≠ some (s.fld Fld.NET_Pn_MODE_VID n)
        ∨ (s.flag Fld.NET_Pn_MODE_VLAN_EN n = false ∧ s.accepts n dst kind = false)) →
      exec (.rxFrameDrop t n vid dst kind) s = .next (s.after t (fun r => r.count Fld.NET_RXDROP_CNT 0 1)))
  ∧ ∀ (s : State) (t n smac sip : Nat) (vid : Option Nat), s.Runs → s.portUp n = true → s.flag Fld.NET_Pn_MODE_VLAN_EN n = false →
      (s.flag Fld.NET_Pn_MODE_IPV6 n = false →
        exec (.arpRequest t n vid smac sip (s.fld Fld.NET_Pn_IP4_ADDR n)) s = .next (s.after t (fun r => r.reply n sip (r.arpReply n smac sip))))
      ∧ (s.flag Fld.NET_Pn_MODE_IPV6 n = true →
        exec (.neighbourSolicitation t n vid smac sip (s.ip6 Fld.NET_Pn_IP6_0_ADDR n)) s = .next (s.after t (fun r => r.reply n sip (r.advert n smac sip))))

/-- Time synchronisation: as slave the device keeps a Sync's stamp, takes its origin from the Sync or its Follow_Up, sends then a Delay_Req whose sequence and stamp it keeps,
and with the Delay_Resp of that sequence the servo shows and corrects the offset; as master it sends Sync 16 times a second and answers Delay_Req; 3 s without Sync end PTPLOCK. A PPS edge latches both times, PPS_IN is lost after its time, and PPS_OUT
goes high at a whole second for its width (R385 to R387). Stamps and slew rates are free within R385's bounds. -/
def Obligations.TimeSynchronisation : Prop :=
  (∀ (s : State) (t port dom seq origin : Nat) (udp two : Bool), s.Runs → s.ptpRx 1 port udp dom = true →
    exec (.ptpSyncRx t port udp dom seq origin two) s = .next (s.after t (fun r =>
      let r1 := ({ r with net := { r.net with syncAt := r.dev, sync := some ⟨seq, r.ptpStamp, if two then none else some origin⟩ } }).drawn
      if two then r1 else r1.delayReq))
    ∧ ∀ t2, s.net.sync = some ⟨seq, t2, none⟩ →
      exec (.ptpFollowUpRx t port udp dom seq origin) s = .next (s.after t (fun r =>
        { r with net := { r.net with sync := some ⟨seq, t2, some origin⟩ } }.delayReq)))
  ∧ (∀ s : State, s.delayReq.net.delayReq = some (s.net.reqSeq, s.ptpStamp) ∧ s.delayReq.net.reqSeq = (s.net.reqSeq + 1) % 65536
      ∧ s.delayReq.net.sync = s.net.sync ∧ s.delayReq.eng = s.eng ∧ s.delayReq.mem = s.mem ∧ s.delayReq.que = s.que)
  ∧ (∀ (s : State) (t port dom seq t4 t1 q : Nat) (t2 t3 : Int) (udp : Bool), s.Runs → s.ptpRx 1 port udp dom = true → s.sys.hearth = true →
      s.net.sync = some ⟨q, t2, some t1⟩ → s.net.delayReq = some (seq, t3) →
      exec (.ptpDelayRespRx t port udp dom seq t4) s = .next (s.after t (fun r =>
        ({ r with net := { r.net with sync := none, delayReq := none } }).drawn.servo (r.openRound ((((t2 - t1) - ((t4 : Int) - t3) : Int) : Rat) / 2)))))
  ∧ (∀ (s : State) (t : Nat), s.Runs → s.ptpMaster = true → (∀ a, s.net.sentAt = some a → a + 48828125 ≤ (s.begin t).dev) →
      ∃ u, exec (.ptpSyncTx t) s = .next u ∧ u.net.ptpSeq = (s.net.ptpSeq + 1) % 65536 ∧ u.net.sentAt = some (s.begin t).dev ∧ u.eng = s.eng ∧ u.que = s.que)
  ∧ (∀ (s : State) (t port dom seq peer : Nat) (udp : Bool), s.Runs → s.ptpRx 2 port udp dom = true →
      exec (.ptpDelayReqRx t port udp dom seq peer) s = .next (s.after t (fun r =>
        r.drawn.sendPtp false (r.ptpMsg 9 0 seq 0 (ptpTime r.ptpStamp ++ beBytes 10 peer)))))
  ∧ (∀ (s : State) (t : Nat), s.Runs →
      (s.net.syncAt + 3 * 781250000 ≤ (s.begin t).dev →
        exec (.ptpSyncTimeout t) s = .next (s.after t (fun r => { r.setFlag Fld.NET_STAT_PTPLOCK 0 false with net := { r.net with good := 0, bad := 0 } })))
      ∧ (exec (.ppsEdge t true (!s.flag Fld.NET_PPS_IN_EDGE 0)) s = .next (s.after t State.ppsInEdge))
      ∧ (s.flag Fld.NET_PPS_SRC 0 = true → s.net.secEdge < (s.begin t).ptpSec → ∀ rising,
        exec (.ppsEdge t false rising) s = .next (s.after t (fun r => { r with net := { r.net with secEdge := r.ptpSec } }.ppsLatch)))
      ∧ (∀ d sec, s.net.ppsIn = some (d, sec) → d + ppsLoss ≤ (s.begin t).dev →
        exec (.ppsinTimeout t) s = .next (s.after t (fun r => r.setFlag Fld.NET_STAT_PPSIN_OK 0 false)))
      ∧ (s.net.secOut < (s.begin t).ptpSec →
        exec (.secondBoundary t) s = .next (s.after t (fun r =>
          { r with net := { r.net with secOut := r.ptpSec, ppsOut := if r.flag Fld.NET_PPS_OUT_EN 0 then some r.dev else r.net.ppsOut } })))
      ∧ ∀ d, s.net.ppsOut = some d → d + 781250 * s.fld Fld.NET_PPS_OUT_WIDTH 0 ≤ (s.begin t).dev →
        exec (.ppsOutEnd t) s = .next (s.after t (fun r => { r with net := { r.net with ppsOut := none } })))

/-! ### The Ember lease: feeds and twin (R403 to R426) -/

/-- The points of a lease: a holder renews every L/4 while it is confirmed, stops at 7L/8, and a challenger acquires at 9L/8, at least L/4 after the stop. The twin holder
renews with a HEARTBEAT on a locked lane and with its pulses; a fenced unit's TWN_OSW is low; an eligible standby takes over and a fenced unit in health resumes; a feed's gate
goes low at its stop and a feed is acquired at its expiry (R403 to R407, R411, R416, R419, R422, R425). -/
def Obligations.LeasePoints : Prop :=
  (∀ l : Nat, leaseStop l + l / 4 ≤ leaseAcquire l ∧ leaseRenew l ≤ leaseStop l)
  ∧ (∀ s : State, s.fence.twn.osw = false)
  ∧ (∀ (s : State) (t : Nat) (readBack : Bool), s.Runs → s.fld Fld.TWN_STAT_ROLE 0 = 1 → s.healthy = true →
      (s.begin t).leaseDue true s.twn.hbAt (leaseRenew s.twn.lease + s.hbDelay 0) = true →
      exec (.leaseRenewal t true readBack) s = .next (s.after t (fun r =>
        let r0 := if readBack then r else r.oswLow
        let r1 := (r0.onTwn (fun x => { x with hbAt := r0.now - 8 * r0.hbDelay 0, unanswered := x.unanswered + 1 })).belSend 0 r0.heartbeatBody
        if s.twn.lane0 ∨ s.twn.lane1 then r1.onTwn (fun x => { x with renewedAt := r1.now, lease := r1.fld Fld.TWN_LEASE_LEASE 0 }) else r1)))
  ∧ (∀ (s : State) (epoch reason : Nat), (s.twn.releaseDue = none → s.oswLow = s)
      ∧ (s.twn.releaseDue = some (epoch, reason) →
        s.oswLow = (s.onTwn (fun x => { x with releaseDue := none })).belSend 2 (leBytes 4 epoch ++ leBytes 4 reason)))
  ∧ (∀ (s : State) (t : Nat) (b readBack : Bool), s.Runs → s.pwr.holder = some b → (s.feed b).gate = true → s.pwr.release = none →
      (s.begin t).leaseDue false s.pwr.renewedAt (leaseRenew s.pwr.lease) = true →
      ∃ u, exec (.leaseRenewal t false readBack) s = .next u
        ∧ u.pwr.renewedAt = (if readBack then (s.begin t).now else s.pwr.renewedAt)
        ∧ u.pwr.lease = (if readBack then s.fld Fld.PWR_LEASE_LEASE 0 else s.pwr.lease)
        ∧ u.feed b = { s.feed b with ball := readBack } ∧ u.feed (!b) = s.feed (!b) ∧ u.pwr.holder = some b ∧ u.pwr.release = none
        ∧ u.flag (if b then Fld.PWR_STAT_B_ON else Fld.PWR_STAT_A_ON) 0 = readBack ∧ u.eng = s.eng ∧ u.mem = s.mem ∧ u.que = s.que ∧ u.twn = s.twn)
  ∧ (∀ (s : State) (t : Nat) (readBack : Bool), s.Runs → s.fld Fld.TWN_STAT_ROLE 0 = 1 → s.healthy = true →
      (s.begin t).leaseDue true s.twn.pulseAt (s.fld Fld.TWN_LEASE_LEASE 0 / 2 + s.hbDelay 1) = true →
      exec (.leaseOutPulse t readBack) s = .next (s.after t (fun r =>
        let r1 := r.onTwn (fun x => { x with pulseAt := r.now - 8 * r.hbDelay 1, pulseOn := some r.now })
        if readBack then r1.onTwn (fun x => { x with renewedAt := r.now, lease := r.fld Fld.TWN_LEASE_LEASE 0 }) else r1)))
  ∧ (∀ (s : State) (t : Nat) (readBack : Bool), s.Runs → s.fld Fld.TWN_STAT_ROLE 0 = 2 →
      (s.begin t).leaseDue true s.twn.pulseAt (s.twn.lease / 2 + s.hbDelay 1) = true →
      exec (.leaseOutPulse t readBack) s = .next (s.after t (fun r => r.onTwn (fun x => { x with pulseAt := r.now - 8 * r.hbDelay 1, pulseOn := some r.now }))))
  ∧ (∀ (s : State) (t : Nat), s.leaseRuns = true → s.fld Fld.TWN_STAT_ROLE 0 = 1 → (s.begin t).leaseDue true s.twn.renewedAt (leaseStop s.twn.lease) = true →
      exec (.leaseStop t true) s = .next (s.after t State.fence))
  ∧ (∀ (s : State) (t : Nat) (b : Bool), s.leaseRuns = true → s.pwr.holder = some b → (s.feed b).gate = true →
      (s.begin t).leaseDue false s.pwr.renewedAt (leaseStop s.pwr.lease) = true →
      exec (.leaseStop t false) s = .next (s.after t (fun r => r.gateOff b)))
  ∧ (∀ (s : State) (t : Nat), s.Runs → s.roleFree = true → (s.begin t).leaseDue true s.twn.heardAt (leaseAcquire s.twn.lease) = true →
      (s.fld Fld.TWN_STAT_ROLE 0 = 2 → s.eligible = true → exec (.leaseExpiryAcquire t true) s = .next (s.after t (fun r => r.takeover 0)))
      ∧ (s.fld Fld.TWN_STAT_ROLE 0 = 3 → s.anyQuenched = false → s.flag Fld.MEM_STAT_READY 0 = true →
        exec (.leaseExpiryAcquire t true) s = .next (s.after t (fun r => r.resume.count Fld.TWN_TAKEOVER_CNT 0 1))))
  ∧ (∀ (s : State) (t : Nat) (b : Bool) (r0 : FeedRelease), s.leaseRuns = true → s.pwr.holder = some b → (s.feed b).gate = false → s.pwr.release = some r0 →
      (s.begin t).leaseDue false s.pwr.renewedAt (leaseAcquire s.pwr.lease) = true →
      exec (.leaseExpiryAcquire t false) s = .next (s.after t (fun r => r.feedAcquire (!r0.fromB))))
  ∧ (∀ (s : State) (t width : Nat), s.Runs → s.flag Fld.TWN_CTRL_EN 0 = true → 5000 ≤ width → width ≤ 20000 →
      ∃ u, exec (.leaseInPulse t width) s = .next u ∧ u.twn.lineAt = (s.begin t).now ∧ u.flag Fld.TWN_STAT_LINE_OK 0 = true
        ∧ u.twn.heardAt = (if 2 ≤ s.fld Fld.TWN_STAT_ROLE 0 then (s.begin t).now else s.twn.heardAt) ∧ u.eng = s.eng ∧ u.mem = s.mem ∧ u.que = s.que)

/-- Feeds: samples every 64 PCLK judge them; a feed qualifies after 1 s above its level; a confirmed release lets the other feed acquire 8 PCLK and OFFT later, and an
unconfirmed one is reported after 512 PCLK; a switch-back moves the lease to a qualified feed (R408 to R414). -/
def Obligations.Feeds : Prop :=
  (∀ (s : State) (t a b : Nat), exec (.feedSample t a b) s = .next (s.after t (fun r => (r.feedSample a b).hibTick)))
  ∧ (∀ (s : State) (a b : Nat), s.sys.power = .off ∨ s.sys.power = .hib → s.feedSample a b = s)
  ∧ (∀ (s : State) (t t0 : Nat) (b : Bool), s.leaseRuns = true → (s.feed b).okSince = some t0 → t0 + 781250000 ≤ (s.begin t).now →
      exec (.feedQualified t b) s = .next (s.after t (fun r => (r.onFeed b (fun f => { f with qualified := true })).pwrShow.keptCheck)))
  ∧ (∀ (s : State) (t lowAt : Nat) (r0 : FeedRelease), s.leaseRuns = true → s.pwr.release = some r0 → r0.noConf = false → r0.releasedAt ≤ lowAt →
      lowAt ≤ r0.releasedAt + 512 * 8 → lowAt + 8 * (8 + s.fld Fld.PWR_UVCFG_OFFT 0) ≤ (s.begin t).now →
      ∃ u, exec (.releaseConfirmed t lowAt) s = .next u ∧ u.pwr.holder = some (!r0.fromB) ∧ (u.feed (!r0.fromB)).gate = true ∧ u.pwr.release = none
        ∧ u.pwr.renewedAt = (s.begin t).now ∧ (u.feed r0.fromB) = s.feed r0.fromB ∧ u.flag Fld.PWR_STAT_NOCONF 0 = false ∧ u.eng = s.eng ∧ u.mem = s.mem ∧ u.twn = s.twn)
  ∧ (∀ (s : State) (t : Nat) (r0 : FeedRelease), s.leaseRuns = true → s.pwr.release = some r0 → r0.noConf = false → r0.releasedAt + 512 * 8 ≤ (s.begin t).now →
      exec (.noconfTimeout t) s = .next (s.after t (fun r =>
        let r1 := r.onFeed r0.fromB (fun f => { f with ball := true })
        (({ r1 with pwr := { r1.pwr with release := some { r0 with noConf := true } } }.pwrShow.setFlag Fld.PWR_STAT_NOCONF 0 true).count Fld.PWR_NOCONF_CNT 0 1).faultAt
          13 (b2n r0.fromB) 0x200 0 3)))
  ∧ ∀ (s : State) (t : Nat) (src : Source) (toB : Bool), s.Runs → s.PairFree 13 → (s.begin t).Admits src Fld.PWR_SWITCHBACK_GO.addr →
      s.pwr.holder = some (!toB) → (s.feed toB).qualified = true → s.pwr.release = none →
      exec (.feedSwitchback t src toB) s = .next (s.after t (fun r => r.feedRelease (!toB)))

/-- Pairing and takeover: with no HEARTBEAT heard the unit acquires when its listening is over; a HEARTBEAT and a STATUS act as the unit's role says; a RELEASE of the present
epoch lets an eligible standby take over at once and a fenced unit in health acquire above it, and a RELEASE of the unit's own waits until TWN_OSW has read back low; the optical switch settles before a lane emits; a switch-back waits for its checkpoints or releases the lease; and a unit that
acquires is the holder of the next epoch (R406, R416 to R426). -/
def Obligations.PairingAndTakeover : Prop :=
  (∀ (s : State) (t t1 : Nat), s.Runs → s.twn.listen = some t1 → t1 ≤ (s.begin t).now → s.roleFree = true →
    exec (.pairingListenEnd t) s = .next (s.after t State.twinAcquire))
  ∧ (∀ s : State, s.twinAcquire.fld Fld.TWN_STAT_ROLE 0 = 1 ∧ s.twinAcquire.fld Fld.TWN_EPOCH_EPOCH 0 = (s.fld Fld.TWN_EPOCH_EPOCH 0 + 1) % 2 ^ 32
      ∧ s.twinAcquire.twn.osw = true ∧ s.twinAcquire.twn.renewedAt = s.now)
  ∧ (∀ (s : State) (t epoch lease dev part serial : Nat) (strap : Bool), s.Runs → s.flag Fld.TWN_CTRL_EN 0 = true →
      exec (.heartbeat t epoch lease dev strap part serial) s = .next (s.after t (fun r => r.heartbeat epoch lease dev strap part serial)))
  ∧ (∀ (s : State) (t epoch : Nat) (synced eligible : Bool) (blocks : List Nat), s.Runs → s.flag Fld.TWN_CTRL_EN 0 = true →
      exec (.status t epoch synced eligible blocks) s = .next (s.after t (fun r => (r.status epoch (synced && eligible) blocks).sendCopies synced)))
  ∧ (∀ (s : State) (t epoch reason : Nat), s.Runs → s.flag Fld.TWN_CTRL_EN 0 = true →
      exec (.release t epoch reason) s = .next (s.after t (fun r0 =>
        let r := r0.linkHeard
        if r.role = 2 ∧ epoch = r.fld Fld.TWN_EPOCH_EPOCH 0 ∧ r.roleFree = true ∧ r.eligible = true then r.takeover 1
        else if r.role = 3 ∧ r.fld Fld.TWN_EPOCH_EPOCH 0 ≤ epoch ∧ r.roleFree = true ∧ r.anyQuenched = false ∧ r.flag Fld.MEM_STAT_READY 0 = true then
          (r.setFld Fld.TWN_EPOCH_EPOCH 0 epoch).resume.count Fld.TWN_TAKEOVER_CNT 0 1
        else r)))
  ∧ (∀ (s : State) (reason : Nat), s.fld Fld.TWN_STAT_ROLE 0 = 1 →
      (s.releaseLease reason).twn.released = true ∧ (s.releaseLease reason).twn.releaseDue = some (s.fld Fld.TWN_EPOCH_EPOCH 0, reason)
      ∧ (s.releaseLease reason).twn.osw = false)
  ∧ (∀ (s : State) (t t0 : Nat), s.Runs → s.twn.oswAt = some t0 → t0 + 8 * s.fld Fld.TWN_OSWSET_SET 0 ≤ (s.begin t).dev →
      exec (.oswSettled t) s = .next (s.after t (fun r =>
        (r.onTwn (fun x => { x with oswAt := none })).each (List.range s.lanes) (fun n r => if (r.laneOf n).st = .ramped then r.startEmitting n else r))))
  ∧ ∀ (s : State) (t : Nat) (src : Source), s.Runs → s.PairFree 14 → (s.begin t).Admits src Fld.TWN_SWITCHBACK_GO.addr →
      exec (.twinSwitchback t src) s = .next (s.after t (fun r =>
        if s.fld Fld.TWN_STAT_ROLE 0 = 1 ∧ s.flag Fld.TWN_STAT_ELIGIBLE 0 = true ∧ s.flag Fld.TWN_STAT_LINK_OK 0 = true ∧ s.flag Fld.TWN_STAT_LINE_OK 0 = true then
          let wait := ((List.range s.lanes).filter (fun n => decide ((s.laneOf n).st = .emitting))).map (fun n => (n, s.fld Fld.PHX_BLK_CNT n))
          let r1 := (r.onTwn (fun x => { x with sbWait := wait })).setFlag Fld.TWN_STAT_SBPEND 0 true
          if wait.isEmpty = true ∧ s.sys.hearth = true then r1.releaseLease 1 else r1
        else r.clamp src Fld.TWN_SWITCHBACK_GO.addr 1 0 rsState 0 0))

/-- The link between the twins: lanes are lost and locked again; a frame without acknowledgement for 20 µs is sent again, and after eight attempts the link is down; a path silent for
9L/8 is lost; acceptance turns unmirrored after the lease time; and a standby takes the holder's configuration, journal and checkpoints at their addresses,
but no block in the buffer of the newest complete one
(R34, R346, R418 to R421). -/
def Obligations.TwinLink : Prop :=
  (∀ (s : State) (t k : Nat), s.Runs → k < 2 →
    (s.belLane k = true → exec (.bellowsLaneLoss t k) s = .next (s.after t (fun r => r.belLoss k)))
    ∧ (s.belLane k = false → bit (s.fld Fld.TST_BLDROP_LANES 0) k = false →
      exec (.bellowsLaneLock t k) s = .next (s.after t (fun r => (r.setBelLane k true).linkBack))))
  ∧ (∀ (s : State) (t seq : Nat) (f : BelFrame), s.Runs → s.twn.sent.find? (fun f => f.seq = seq) = some f → 2 * f.at_ + 31250 ≤ 2 * (s.begin t).now →
      let n := ((s.twn.tries.find? (fun e => e.1 = seq)).map (·.2)).getD 1
      (8 ≤ n → exec (.bellowsResend t seq) s = .next (s.after t State.linkDown))
      ∧ (n < 8 → (s.twn.lane0 = true ∨ s.twn.lane1 = true) → exec (.bellowsResend t seq) s = .next (s.after t (fun r =>
          r.onTwn (fun x => { x with sent := belQueue { f with at_ := r.now } x.sent, tries := (seq, n + 1) :: x.tries.filter (fun e => e.1 ≠ seq) })))))
  ∧ (∀ (s : State) (t t0 : Nat), s.Runs → s.que.linkLostAt = some t0 → s.fld Fld.TWN_STAT_ROLE 0 = 1 → s.que.unmirrored = false →
      t0 + 8 * s.fld Fld.TWN_LEASE_LEASE 0 ≤ (s.begin t).now →
      exec (.mirrorWaitTimeout t) s = .next (s.after t (fun r =>
        (({ r with que := { r.que with unmirrored := true } }.setUnmirrored true).faultAt 14 0xFF 0x200 0 1).retryReports)))
  ∧ (∀ (s : State) (t : Nat), s.Runs →
      (s.flag Fld.TWN_STAT_LINE_OK 0 = true → (s.begin t).leaseDue true s.twn.lineAt (leaseAcquire s.twn.lease) = true →
        exec (.pathSilence t true) s = .next (s.after t (fun r =>
          ((r.setFlag Fld.TWN_STAT_LINE_OK 0 false).count Fld.TWN_LINELOSS_CNT 0 1).faultAt 14 0xFF 0x200 0 1)))
      ∧ (s.flag Fld.TWN_STAT_LINK_OK 0 = true → (s.begin t).leaseDue true s.twn.linkAt (leaseAcquire s.twn.lease) = true →
        exec (.pathSilence t false) s = .next (s.after t State.linkDown)))
  ∧ (∀ (s : State) (t : Nat) (pairs : List (Word × Word)) (last : Bool), s.Runs → s.fld Fld.TWN_STAT_ROLE 0 = 2 →
      exec (.config t pairs last) s = .next (s.after t (fun r => r.config pairs last)))
  ∧ (∀ (s : State) (t addr : Nat) (bytes : List Byte) (payload : Option (Nat × Nat)) (last : Bool), s.Runs → s.fld Fld.TWN_STAT_ROLE 0 = 2 →
      bytes.length ≤ 4096 → addr + bytes.length ≤ s.dramEnd → s.que.linkLostAt = none → s.flag Fld.MEM_STAT_READY 0 = true → s.memc.waiting = [] → s.sys.eccBad = [] →
      ∃ u, exec (.journal t addr bytes payload last) s = .next u ∧ u.eng = s.eng ∧ u.que = s.que
        ∧ ∀ a, u.readByte a = if addr ≤ a ∧ a < addr + bytes.length then bytes.getD (a - addr) 0 else s.readByte a)
  ∧ ∀ (s : State) (t n blk off : Nat) (eng : Bool) (bytes : List Byte), s.Runs → s.fld Fld.TWN_STAT_ROLE 0 = 2 → n < s.lanes →
      exec (.checkpoint t n blk off eng bytes) s = .next (s.after t (fun r => r.linkHeard.checkpoint n blk off eng bytes))
      ∧ (s.fld Fld.TWN_Ln_CKBLK_BLK n ≠ 0xFFFFFFFF → s.fld Fld.TWN_Ln_CKBLK_BLK n ≠ blk → s.fld Fld.TWN_Ln_CKBLK_BLK n % 2 = blk % 2 →
        s.checkpoint n blk off eng bytes = s)

/-! ### The machine -/

/-- A step takes the command at the front of the queue and carries it out with the queue's rest; with an empty queue the block idles (the model's own convention: the queue
of waiting commands stands for whatever sends them, assumptions 1 and 2). -/
def Obligations.StepRunsTheFrontCommand : Prop :=
  (∀ (c : Instr) (s : State) (rest : List Instr), step (s.withPending (c :: rest)) = exec c (s.withPending rest))
  ∧ (∀ s : State, s.pending = [] → step s = .next s)
  ∧ ∀ (s : State) (cs : List Instr), (s.withPending cs).pending = cs ∧ (s.withPending cs).eng = s.eng ∧ (s.withPending cs).mem = s.mem ∧ (s.withPending cs).regs = s.regs
      ∧ (s.withPending cs).now = s.now

/-- No command is refused and none stops the machine, in any state: each answers a next state, with the queue's rest and the fuses as they were and the time no earlier
(R2, R7, R26). -/
def Obligations.EveryCommandCompletes : Prop :=
  ∀ (c : Instr) (s : State), ∃ u, exec c s = .next u ∧ u.pending = s.pending ∧ u.fixed = s.fixed ∧ s.now ≤ u.now

/-- Every step keeps the invariant of the machine, whatever command is carried out: the memories' canonical form, the queues' occupancy, the one high feed gate and the limits
of the parameters among it. It takes one command from the queue and leaves the time no earlier (R2, R7, R26, R330, R341, R404, R411, R438). -/
def Obligations.EveryStepKeepsTheInvariant : Prop :=
  ∀ s u : State, s.Inv → step s = .next u → u.Inv ∧ u.pending = s.pending.tail ∧ u.fixed = s.fixed ∧ s.now ≤ u.now

/-- Whatever command is carried out, every memory keeps its canonical form: external memory, the engines' memories and the sequencers' programs (the form is the model's,
assumption 4). -/
def Obligations.MemoriesKeepTheirForm : Prop :=
  ∀ (c : Instr) (s u : State) (rest : List Instr), s.wf = true → step (s.withPending (c :: rest)) = .next u → u.wf = true

/-- Reset: every register field of the sixteen windows reads its table's reset value in force, staged and pending, nothing is in progress, every lane is OFF, every engine
HALTED, every sequencer idle, no memory byte is listed, and QUENCH_N is low until PLL lock (R18, R80, R92, R198, R265, R307, R467). The engines' own registers and the always-on
copies stand at the model's values (assumption 5). -/
def Obligations.ResetState : Prop :=
  let s := State.reset
  s.Inv ∧ s.pending = [] ∧ s.sys.power = .cold ∧ s.clocked = false ∧ s.quenchN = false ∧ s.mem = []
  ∧ (∀ w, w < 16 → ∀ r, r ∈ regsOf w → ∀ u, u < r.count → ∀ fd, fd ∈ r.fields →
      let a := w * 0x10000 + r.off + r.stride * u
      let v := resetField s.fixed fd u % 2 ^ (fd.hi + 1 - fd.lo)
      bitsOf fd.hi fd.lo (s.live a) = v ∧ bitsOf fd.hi fd.lo (s.staged a) = v ∧ bitsOf fd.hi fd.lo (s.pend a) = v)
  ∧ (∀ n, n < 8 → (s.laneOf n).st = .off ∧ (s.engine n).st = .halted ∧ (s.engine n).run = false ∧ (s.engine n).pc = 0 ∧ (s.wick n).loops = [] ∧ (s.wick n).prog = []
      ∧ (s.phxOf n).grid = none ∧ (s.phxOf n).pts = [] ∧ s.fld Fld.WCK_Ln_STAT_STATE n = 0)
  ∧ (∀ q, q < 64 → s.queue q = Queue.reset) ∧ s.que.reports = [] ∧ s.que.waiting = [] ∧ s.que.turned = []
  ∧ s.sys.guards = [] ∧ s.sys.held = [] ∧ s.sys.deferred = [] ∧ s.sys.hold = none ∧ s.sys.wdog = none ∧ s.sys.hibDue = none ∧ s.sys.eccArm = none ∧ s.sys.eccBad = []
  ∧ s.regs.wait = [] ∧ s.boot.ready = false ∧ s.boot.loaded = false
  ∧ s.lan.clearAt = none ∧ s.aux.stage = .idle ∧ s.aux.pend = [] ∧ s.aux.serving = none ∧ s.aux.wins = [] ∧ s.aux.seqOn = false
  ∧ (∀ c, c < 2 → s.memChan c = MemChan.reset) ∧ s.memc.waiting = [] ∧ s.memc.wback = []
  ∧ s.cru.comp = none ∧ s.cru.dec = none ∧ s.cru.waitC = none ∧ s.cru.waitD = none ∧ s.net.sync = none ∧ s.net.delayReq = none ∧ s.tx = []
  ∧ s.twn.sent = [] ∧ s.twn.listen = none ∧ s.twn.releaseDue = none ∧ s.twn.osw = false ∧ s.pwr.release = none
  ∧ s.fld Fld.MEM_XMAP_CH_MASK 0 = 0x01084201 ∧ s.fld Fld.MEM_XMAP_BG0_MASK 0 = 0x02108402 ∧ s.fld Fld.MEM_XMAP_BA0_MASK 0 = 0x04210804
  ∧ s.fld Fld.MEM_XMAP_BA1_MASK 0 = 0x08421008 ∧ s.fld Fld.MEM_XMAP_BG1_MASK 0 = 0x10842010
  ∧ s.fld Fld.SYS_GUARD_TMO_TMO 0 = 1024 ∧ s.fld Fld.PWR_LEASE_LEASE 0 = 97656 ∧ s.fld Fld.TWN_LEASE_LEASE 0 = 195313 ∧ s.fld Fld.PWR_UV_UV 0 = 10800
  ∧ s.fld Fld.NET_MGMT_EN 0 = 1 ∧ s.fld Fld.QUE_MST_FLUSH_FLUSH 0 = 100 ∧ s.fld Fld.LAN_KEEPALIVE_KA 0 = 5 ∧ s.fld Fld.SYS_CTRL_RUN 0 = 0
  ∧ s.fld Fld.TWN_STAT_ROLE 0 = 0 ∧ s.fld Fld.MEM_STAT_READY 0 = 0

/-- While the divided clocks are held, a command outside the always-on domain and the reset logic changes nothing but the time; while a warm or watchdog reset holds the
reset domain, no command of that domain does (R24, R25, R468, R469). Which commands belong to the domain is the model's reading (assumption 43). -/
def Obligations.HeldClocksHoldEverything : Prop :=
  (∀ (c : Instr) (s : State), c.alwaysOn = false → s.ticks = false → ∃ t, exec c s = .next (s.begin t))
  ∧ ∀ (c : Instr) (s : State), c.resetDomain = true → s.inReset = true → ∃ t, exec c s = .next (s.begin t)
end

