-- ==== Sys2Proof/Laws/Bits.lean ====
section
/-!
SUPPORT. Bit fields of a 32-bit word: what a field reads after a field is written.
-/

namespace Sys2Proof.Machine

theorem withBits_toNat (hi lo : Nat) (w : Word) (v : Nat) (h : lo ≤ hi) (h31 : hi ≤ 31) :
    (withBits hi lo w v).toNat = w.toNat / 2 ^ (hi + 1) * 2 ^ (hi + 1) + v % 2 ^ (hi + 1 - lo) * 2 ^ lo + w.toNat % 2 ^ lo := by
  unfold withBits
  rw [BitVec.toNat_ofNat]
  apply Nat.mod_eq_of_lt
  have hw : w.toNat < 2 ^ 32 := w.isLt
  have e1 : 2 ^ (hi + 1) = 2 ^ (hi + 1 - lo) * 2 ^ lo := by rw [← Nat.pow_add]; congr 1; omega
  have e2 : 2 ^ 32 = 2 ^ (31 - hi) * 2 ^ (hi + 1) := by rw [← Nat.pow_add]; congr 1; omega
  have h1 : w.toNat / 2 ^ (hi + 1) < 2 ^ (31 - hi) := by
    apply Nat.div_lt_of_lt_mul
    rw [Nat.mul_comm, ← e2]; exact hw
  have h2 : v % 2 ^ (hi + 1 - lo) < 2 ^ (hi + 1 - lo) := Nat.mod_lt _ (Nat.two_pow_pos _)
  have h3 : w.toNat % 2 ^ lo < 2 ^ lo := Nat.mod_lt _ (Nat.two_pow_pos _)
  have h4 : v % 2 ^ (hi + 1 - lo) * 2 ^ lo + w.toNat % 2 ^ lo < 2 ^ (hi + 1) := by
    have : (v % 2 ^ (hi + 1 - lo) + 1) * 2 ^ lo ≤ 2 ^ (hi + 1 - lo) * 2 ^ lo := Nat.mul_le_mul_right _ h2
    rw [Nat.add_mul, Nat.one_mul, ← e1] at this
    omega
  have h5 : (w.toNat / 2 ^ (hi + 1) + 1) * 2 ^ (hi + 1) ≤ 2 ^ (31 - hi) * 2 ^ (hi + 1) := Nat.mul_le_mul_right _ h1
  rw [Nat.add_mul, Nat.one_mul, ← e2] at h5
  omega

theorem withBits_testBit (hi lo : Nat) (w : Word) (v : Nat) (h : lo ≤ hi) (h31 : hi ≤ 31) (i : Nat) :
    (withBits hi lo w v).toNat.testBit i = if i < lo then w.toNat.testBit i else if i ≤ hi then v.testBit (i - lo) else w.toNat.testBit i := by
  rw [withBits_toNat hi lo w v h h31]
  have e1 : 2 ^ (hi + 1) = 2 ^ (hi + 1 - lo) * 2 ^ lo := by rw [← Nat.pow_add]; congr 1; omega
  have h3 : w.toNat % 2 ^ lo < 2 ^ lo := Nat.mod_lt _ (Nat.two_pow_pos _)
  have h2 : v % 2 ^ (hi + 1 - lo) < 2 ^ (hi + 1 - lo) := Nat.mod_lt _ (Nat.two_pow_pos _)
  have e3 : w.toNat / 2 ^ (hi + 1) * 2 ^ (hi + 1) + v % 2 ^ (hi + 1 - lo) * 2 ^ lo + w.toNat % 2 ^ lo
      = 2 ^ lo * (2 ^ (hi + 1 - lo) * (w.toNat / 2 ^ (hi + 1)) + v % 2 ^ (hi + 1 - lo)) + w.toNat % 2 ^ lo := by
    rw [e1]; ring
  rw [e3, Nat.testBit_two_pow_mul_add _ h3]
  by_cases hl : i < lo
  · simp [hl]
  · simp only [if_neg hl]
    rw [Nat.testBit_two_pow_mul_add _ h2]
    by_cases hh : i ≤ hi
    · have : i - lo < hi + 1 - lo := by omega
      simp [hh, this]
    · have : ¬ (i - lo < hi + 1 - lo) := by omega
      simp only [if_neg this, if_neg hh, Nat.testBit_div_two_pow]
      congr 1; omega

theorem bitsOf_testBit (hi lo : Nat) (w : Word) (i : Nat) : (bitsOf hi lo w).testBit i = (decide (i < hi + 1 - lo) && w.toNat.testBit (lo + i)) := by
  unfold bitsOf
  rw [Nat.testBit_mod_two_pow, Nat.testBit_div_two_pow, Nat.add_comm i lo]

/-- The field written reads back, cut to its width. -/
theorem bitsOf_withBits_same (hi lo : Nat) (w : Word) (v : Nat) (h : lo ≤ hi) (h31 : hi ≤ 31) :
    bitsOf hi lo (withBits hi lo w v) = v % 2 ^ (hi + 1 - lo) := by
  apply Nat.eq_of_testBit_eq
  intro i
  rw [bitsOf_testBit, withBits_testBit hi lo w v h h31, Nat.testBit_mod_two_pow]
  by_cases hi' : i < hi + 1 - lo
  · have h1 : ¬ (lo + i < lo) := by omega
    have h2 : lo + i ≤ hi := by omega
    simp [hi', h1, h2]
  · simp [hi']

/-- Every other field keeps its value. -/
theorem bitsOf_withBits_other (hi lo hi' lo' : Nat) (w : Word) (v : Nat) (h : lo ≤ hi) (h31 : hi ≤ 31) (hd : hi' < lo ∨ hi < lo') :
    bitsOf hi' lo' (withBits hi lo w v) = bitsOf hi' lo' w := by
  apply Nat.eq_of_testBit_eq
  intro i
  rw [bitsOf_testBit, bitsOf_testBit, withBits_testBit hi lo w v h h31]
  by_cases hi'' : i < hi' + 1 - lo'
  · rcases hd with hd | hd
    · have : lo' + i < lo := by omega
      simp [this]
    · have h1 : ¬ (lo' + i < lo) := by omega
      have h2 : ¬ (lo' + i ≤ hi) := by omega
      simp [h1, h2]
  · simp [hi'']

/-- Writing the value a field has changes nothing. -/
theorem withBits_self (hi lo : Nat) (w : Word) (h : lo ≤ hi) (h31 : hi ≤ 31) : withBits hi lo w (bitsOf hi lo w) = w := by
  apply BitVec.eq_of_toNat_eq
  apply Nat.eq_of_testBit_eq
  intro i
  rw [withBits_testBit hi lo w _ h h31, bitsOf_testBit]
  by_cases h1 : i < lo
  · simp [h1]
  · by_cases h2 : i ≤ hi
    · have h3 : i - lo < hi + 1 - lo := by omega
      have h4 : lo + (i - lo) = i := by omega
      simp [h1, h2, h3, h4]
    · simp [h1, h2]

/-- Of two writes of one field the later stands. -/
theorem withBits_withBits (hi lo : Nat) (w : Word) (v v' : Nat) (h : lo ≤ hi) (h31 : hi ≤ 31) : withBits hi lo (withBits hi lo w v) v' = withBits hi lo w v' := by
  apply BitVec.eq_of_toNat_eq
  apply Nat.eq_of_testBit_eq
  intro i
  rw [withBits_testBit hi lo _ _ h h31, withBits_testBit hi lo _ _ h h31, withBits_testBit hi lo _ _ h h31]
  split
  · rfl
  · split <;> rfl

end Sys2Proof.Machine
end

