-- ==== Sys2Proof/Laws/State.lean ====
section
/-!
SUPPORT. One lemma for each field of State under each update: a field that the update does not name keeps its value, and what no command changes is carried through.
-/

namespace Sys2Proof.Machine

@[simp] theorem State.begin_pending (s : State) (t : Nat) : (s.begin t).pending = s.pending := (rfl)
@[simp] theorem State.begin_fixed (s : State) (t : Nat) : (s.begin t).fixed = s.fixed := (rfl)
@[simp] theorem State.begin_regs (s : State) (t : Nat) : (s.begin t).regs = s.regs := (rfl)
@[simp] theorem State.begin_sys (s : State) (t : Nat) : (s.begin t).sys = s.sys := (rfl)
@[simp] theorem State.begin_boot (s : State) (t : Nat) : (s.begin t).boot = s.boot := (rfl)
@[simp] theorem State.begin_mem (s : State) (t : Nat) : (s.begin t).mem = s.mem := (rfl)
@[simp] theorem State.begin_que (s : State) (t : Nat) : (s.begin t).que = s.que := (rfl)
@[simp] theorem State.begin_pwr (s : State) (t : Nat) : (s.begin t).pwr = s.pwr := (rfl)
@[simp] theorem State.begin_eng (s : State) (t : Nat) : (s.begin t).eng = s.eng := (rfl)
@[simp] theorem State.begin_tach (s : State) (t : Nat) : (s.begin t).tach = s.tach := (rfl)
@[simp] theorem State.begin_lan (s : State) (t : Nat) : (s.begin t).lan = s.lan := (rfl)
@[simp] theorem State.begin_wck (s : State) (t : Nat) : (s.begin t).wck = s.wck := (rfl)
@[simp] theorem State.begin_orx (s : State) (t : Nat) : (s.begin t).orx = s.orx := (rfl)
@[simp] theorem State.begin_hsc (s : State) (t : Nat) : (s.begin t).hsc = s.hsc := (rfl)
@[simp] theorem State.begin_ptp (s : State) (t : Nat) : (s.begin t).ptp = s.ptp := (rfl)
@[simp] theorem State.begin_ddc (s : State) (t : Nat) : (s.begin t).ddc = s.ddc := (rfl)
@[simp] theorem State.begin_phx (s : State) (t : Nat) : (s.begin t).phx = s.phx := (rfl)
@[simp] theorem State.begin_twn (s : State) (t : Nat) : (s.begin t).twn = s.twn := (rfl)
@[simp] theorem State.begin_aux (s : State) (t : Nat) : (s.begin t).aux = s.aux := (rfl)
@[simp] theorem State.begin_memc (s : State) (t : Nat) : (s.begin t).memc = s.memc := (rfl)
@[simp] theorem State.begin_cru (s : State) (t : Nat) : (s.begin t).cru = s.cru := (rfl)
@[simp] theorem State.begin_net (s : State) (t : Nat) : (s.begin t).net = s.net := (rfl)
@[simp] theorem State.begin_tx (s : State) (t : Nat) : (s.begin t).tx = s.tx := (rfl)
@[simp] theorem State.begin_resp (s : State) (t : Nat) : (s.begin t).resp = s.resp := (rfl)
@[simp] theorem State.begin_free (s : State) (t : Nat) : (s.begin t).free = s.free := (rfl)

@[simp] theorem State.carry_regs (s : State) (s0 : State) : (s0.carry s).regs = s.regs := (rfl)
@[simp] theorem State.carry_sys (s : State) (s0 : State) : (s0.carry s).sys = s.sys := (rfl)
@[simp] theorem State.carry_boot (s : State) (s0 : State) : (s0.carry s).boot = s.boot := (rfl)
@[simp] theorem State.carry_mem (s : State) (s0 : State) : (s0.carry s).mem = s.mem := (rfl)
@[simp] theorem State.carry_que (s : State) (s0 : State) : (s0.carry s).que = s.que := (rfl)
@[simp] theorem State.carry_pwr (s : State) (s0 : State) : (s0.carry s).pwr = s.pwr := (rfl)
@[simp] theorem State.carry_eng (s : State) (s0 : State) : (s0.carry s).eng = s.eng := (rfl)
@[simp] theorem State.carry_tach (s : State) (s0 : State) : (s0.carry s).tach = s.tach := (rfl)
@[simp] theorem State.carry_lan (s : State) (s0 : State) : (s0.carry s).lan = s.lan := (rfl)
@[simp] theorem State.carry_wck (s : State) (s0 : State) : (s0.carry s).wck = s.wck := (rfl)
@[simp] theorem State.carry_orx (s : State) (s0 : State) : (s0.carry s).orx = s.orx := (rfl)
@[simp] theorem State.carry_hsc (s : State) (s0 : State) : (s0.carry s).hsc = s.hsc := (rfl)
@[simp] theorem State.carry_ptp (s : State) (s0 : State) : (s0.carry s).ptp = s.ptp := (rfl)
@[simp] theorem State.carry_ddc (s : State) (s0 : State) : (s0.carry s).ddc = s.ddc := (rfl)
@[simp] theorem State.carry_phx (s : State) (s0 : State) : (s0.carry s).phx = s.phx := (rfl)
@[simp] theorem State.carry_twn (s : State) (s0 : State) : (s0.carry s).twn = s.twn := (rfl)
@[simp] theorem State.carry_aux (s : State) (s0 : State) : (s0.carry s).aux = s.aux := (rfl)
@[simp] theorem State.carry_memc (s : State) (s0 : State) : (s0.carry s).memc = s.memc := (rfl)
@[simp] theorem State.carry_cru (s : State) (s0 : State) : (s0.carry s).cru = s.cru := (rfl)
@[simp] theorem State.carry_net (s : State) (s0 : State) : (s0.carry s).net = s.net := (rfl)
@[simp] theorem State.carry_tx (s : State) (s0 : State) : (s0.carry s).tx = s.tx := (rfl)
@[simp] theorem State.carry_resp (s : State) (s0 : State) : (s0.carry s).resp = s.resp := (rfl)
@[simp] theorem State.carry_free (s : State) (s0 : State) : (s0.carry s).free = s.free := (rfl)

@[simp] theorem State.withPending_now (s : State) (cs : List Instr) : (s.withPending cs).now = s.now := (rfl)
@[simp] theorem State.withPending_fixed (s : State) (cs : List Instr) : (s.withPending cs).fixed = s.fixed := (rfl)
@[simp] theorem State.withPending_regs (s : State) (cs : List Instr) : (s.withPending cs).regs = s.regs := (rfl)
@[simp] theorem State.withPending_sys (s : State) (cs : List Instr) : (s.withPending cs).sys = s.sys := (rfl)
@[simp] theorem State.withPending_boot (s : State) (cs : List Instr) : (s.withPending cs).boot = s.boot := (rfl)
@[simp] theorem State.withPending_mem (s : State) (cs : List Instr) : (s.withPending cs).mem = s.mem := (rfl)
@[simp] theorem State.withPending_que (s : State) (cs : List Instr) : (s.withPending cs).que = s.que := (rfl)
@[simp] theorem State.withPending_pwr (s : State) (cs : List Instr) : (s.withPending cs).pwr = s.pwr := (rfl)
@[simp] theorem State.withPending_eng (s : State) (cs : List Instr) : (s.withPending cs).eng = s.eng := (rfl)
@[simp] theorem State.withPending_tach (s : State) (cs : List Instr) : (s.withPending cs).tach = s.tach := (rfl)
@[simp] theorem State.withPending_lan (s : State) (cs : List Instr) : (s.withPending cs).lan = s.lan := (rfl)
@[simp] theorem State.withPending_wck (s : State) (cs : List Instr) : (s.withPending cs).wck = s.wck := (rfl)
@[simp] theorem State.withPending_orx (s : State) (cs : List Instr) : (s.withPending cs).orx = s.orx := (rfl)
@[simp] theorem State.withPending_hsc (s : State) (cs : List Instr) : (s.withPending cs).hsc = s.hsc := (rfl)
@[simp] theorem State.withPending_ptp (s : State) (cs : List Instr) : (s.withPending cs).ptp = s.ptp := (rfl)
@[simp] theorem State.withPending_ddc (s : State) (cs : List Instr) : (s.withPending cs).ddc = s.ddc := (rfl)
@[simp] theorem State.withPending_phx (s : State) (cs : List Instr) : (s.withPending cs).phx = s.phx := (rfl)
@[simp] theorem State.withPending_twn (s : State) (cs : List Instr) : (s.withPending cs).twn = s.twn := (rfl)
@[simp] theorem State.withPending_aux (s : State) (cs : List Instr) : (s.withPending cs).aux = s.aux := (rfl)
@[simp] theorem State.withPending_memc (s : State) (cs : List Instr) : (s.withPending cs).memc = s.memc := (rfl)
@[simp] theorem State.withPending_cru (s : State) (cs : List Instr) : (s.withPending cs).cru = s.cru := (rfl)
@[simp] theorem State.withPending_net (s : State) (cs : List Instr) : (s.withPending cs).net = s.net := (rfl)
@[simp] theorem State.withPending_tx (s : State) (cs : List Instr) : (s.withPending cs).tx = s.tx := (rfl)
@[simp] theorem State.withPending_resp (s : State) (cs : List Instr) : (s.withPending cs).resp = s.resp := (rfl)
@[simp] theorem State.withPending_free (s : State) (cs : List Instr) : (s.withPending cs).free = s.free := (rfl)

@[simp] theorem State.setLive_now (s : State) (k : Nat) (w : Word) : (s.setLive k w).now = s.now := (rfl)
@[simp] theorem State.setLive_pending (s : State) (k : Nat) (w : Word) : (s.setLive k w).pending = s.pending := (rfl)
@[simp] theorem State.setLive_fixed (s : State) (k : Nat) (w : Word) : (s.setLive k w).fixed = s.fixed := (rfl)
@[simp] theorem State.setLive_sys (s : State) (k : Nat) (w : Word) : (s.setLive k w).sys = s.sys := (rfl)
@[simp] theorem State.setLive_boot (s : State) (k : Nat) (w : Word) : (s.setLive k w).boot = s.boot := (rfl)
@[simp] theorem State.setLive_mem (s : State) (k : Nat) (w : Word) : (s.setLive k w).mem = s.mem := (rfl)
@[simp] theorem State.setLive_que (s : State) (k : Nat) (w : Word) : (s.setLive k w).que = s.que := (rfl)
@[simp] theorem State.setLive_pwr (s : State) (k : Nat) (w : Word) : (s.setLive k w).pwr = s.pwr := (rfl)
@[simp] theorem State.setLive_eng (s : State) (k : Nat) (w : Word) : (s.setLive k w).eng = s.eng := (rfl)
@[simp] theorem State.setLive_tach (s : State) (k : Nat) (w : Word) : (s.setLive k w).tach = s.tach := (rfl)
@[simp] theorem State.setLive_lan (s : State) (k : Nat) (w : Word) : (s.setLive k w).lan = s.lan := (rfl)
@[simp] theorem State.setLive_wck (s : State) (k : Nat) (w : Word) : (s.setLive k w).wck = s.wck := (rfl)
@[simp] theorem State.setLive_orx (s : State) (k : Nat) (w : Word) : (s.setLive k w).orx = s.orx := (rfl)
@[simp] theorem State.setLive_hsc (s : State) (k : Nat) (w : Word) : (s.setLive k w).hsc = s.hsc := (rfl)
@[simp] theorem State.setLive_ptp (s : State) (k : Nat) (w : Word) : (s.setLive k w).ptp = s.ptp := (rfl)
@[simp] theorem State.setLive_ddc (s : State) (k : Nat) (w : Word) : (s.setLive k w).ddc = s.ddc := (rfl)
@[simp] theorem State.setLive_phx (s : State) (k : Nat) (w : Word) : (s.setLive k w).phx = s.phx := (rfl)
@[simp] theorem State.setLive_twn (s : State) (k : Nat) (w : Word) : (s.setLive k w).twn = s.twn := (rfl)
@[simp] theorem State.setLive_aux (s : State) (k : Nat) (w : Word) : (s.setLive k w).aux = s.aux := (rfl)
@[simp] theorem State.setLive_memc (s : State) (k : Nat) (w : Word) : (s.setLive k w).memc = s.memc := (rfl)
@[simp] theorem State.setLive_cru (s : State) (k : Nat) (w : Word) : (s.setLive k w).cru = s.cru := (rfl)
@[simp] theorem State.setLive_net (s : State) (k : Nat) (w : Word) : (s.setLive k w).net = s.net := (rfl)
@[simp] theorem State.setLive_tx (s : State) (k : Nat) (w : Word) : (s.setLive k w).tx = s.tx := (rfl)
@[simp] theorem State.setLive_resp (s : State) (k : Nat) (w : Word) : (s.setLive k w).resp = s.resp := (rfl)
@[simp] theorem State.setLive_free (s : State) (k : Nat) (w : Word) : (s.setLive k w).free = s.free := (rfl)

@[simp] theorem State.setStaged_now (s : State) (k : Nat) (w : Word) : (s.setStaged k w).now = s.now := (rfl)
@[simp] theorem State.setStaged_pending (s : State) (k : Nat) (w : Word) : (s.setStaged k w).pending = s.pending := (rfl)
@[simp] theorem State.setStaged_fixed (s : State) (k : Nat) (w : Word) : (s.setStaged k w).fixed = s.fixed := (rfl)
@[simp] theorem State.setStaged_sys (s : State) (k : Nat) (w : Word) : (s.setStaged k w).sys = s.sys := (rfl)
@[simp] theorem State.setStaged_boot (s : State) (k : Nat) (w : Word) : (s.setStaged k w).boot = s.boot := (rfl)
@[simp] theorem State.setStaged_mem (s : State) (k : Nat) (w : Word) : (s.setStaged k w).mem = s.mem := (rfl)
@[simp] theorem State.setStaged_que (s : State) (k : Nat) (w : Word) : (s.setStaged k w).que = s.que := (rfl)
@[simp] theorem State.setStaged_pwr (s : State) (k : Nat) (w : Word) : (s.setStaged k w).pwr = s.pwr := (rfl)
@[simp] theorem State.setStaged_eng (s : State) (k : Nat) (w : Word) : (s.setStaged k w).eng = s.eng := (rfl)
@[simp] theorem State.setStaged_tach (s : State) (k : Nat) (w : Word) : (s.setStaged k w).tach = s.tach := (rfl)
@[simp] theorem State.setStaged_lan (s : State) (k : Nat) (w : Word) : (s.setStaged k w).lan = s.lan := (rfl)
@[simp] theorem State.setStaged_wck (s : State) (k : Nat) (w : Word) : (s.setStaged k w).wck = s.wck := (rfl)
@[simp] theorem State.setStaged_orx (s : State) (k : Nat) (w : Word) : (s.setStaged k w).orx = s.orx := (rfl)
@[simp] theorem State.setStaged_hsc (s : State) (k : Nat) (w : Word) : (s.setStaged k w).hsc = s.hsc := (rfl)
@[simp] theorem State.setStaged_ptp (s : State) (k : Nat) (w : Word) : (s.setStaged k w).ptp = s.ptp := (rfl)
@[simp] theorem State.setStaged_ddc (s : State) (k : Nat) (w : Word) : (s.setStaged k w).ddc = s.ddc := (rfl)
@[simp] theorem State.setStaged_phx (s : State) (k : Nat) (w : Word) : (s.setStaged k w).phx = s.phx := (rfl)
@[simp] theorem State.setStaged_twn (s : State) (k : Nat) (w : Word) : (s.setStaged k w).twn = s.twn := (rfl)
@[simp] theorem State.setStaged_aux (s : State) (k : Nat) (w : Word) : (s.setStaged k w).aux = s.aux := (rfl)
@[simp] theorem State.setStaged_memc (s : State) (k : Nat) (w : Word) : (s.setStaged k w).memc = s.memc := (rfl)
@[simp] theorem State.setStaged_cru (s : State) (k : Nat) (w : Word) : (s.setStaged k w).cru = s.cru := (rfl)
@[simp] theorem State.setStaged_net (s : State) (k : Nat) (w : Word) : (s.setStaged k w).net = s.net := (rfl)
@[simp] theorem State.setStaged_tx (s : State) (k : Nat) (w : Word) : (s.setStaged k w).tx = s.tx := (rfl)
@[simp] theorem State.setStaged_resp (s : State) (k : Nat) (w : Word) : (s.setStaged k w).resp = s.resp := (rfl)
@[simp] theorem State.setStaged_free (s : State) (k : Nat) (w : Word) : (s.setStaged k w).free = s.free := (rfl)

@[simp] theorem State.setPend_now (s : State) (k : Nat) (w : Word) : (s.setPend k w).now = s.now := (rfl)
@[simp] theorem State.setPend_pending (s : State) (k : Nat) (w : Word) : (s.setPend k w).pending = s.pending := (rfl)
@[simp] theorem State.setPend_fixed (s : State) (k : Nat) (w : Word) : (s.setPend k w).fixed = s.fixed := (rfl)
@[simp] theorem State.setPend_sys (s : State) (k : Nat) (w : Word) : (s.setPend k w).sys = s.sys := (rfl)
@[simp] theorem State.setPend_boot (s : State) (k : Nat) (w : Word) : (s.setPend k w).boot = s.boot := (rfl)
@[simp] theorem State.setPend_mem (s : State) (k : Nat) (w : Word) : (s.setPend k w).mem = s.mem := (rfl)
@[simp] theorem State.setPend_que (s : State) (k : Nat) (w : Word) : (s.setPend k w).que = s.que := (rfl)
@[simp] theorem State.setPend_pwr (s : State) (k : Nat) (w : Word) : (s.setPend k w).pwr = s.pwr := (rfl)
@[simp] theorem State.setPend_eng (s : State) (k : Nat) (w : Word) : (s.setPend k w).eng = s.eng := (rfl)
@[simp] theorem State.setPend_tach (s : State) (k : Nat) (w : Word) : (s.setPend k w).tach = s.tach := (rfl)
@[simp] theorem State.setPend_lan (s : State) (k : Nat) (w : Word) : (s.setPend k w).lan = s.lan := (rfl)
@[simp] theorem State.setPend_wck (s : State) (k : Nat) (w : Word) : (s.setPend k w).wck = s.wck := (rfl)
@[simp] theorem State.setPend_orx (s : State) (k : Nat) (w : Word) : (s.setPend k w).orx = s.orx := (rfl)
@[simp] theorem State.setPend_hsc (s : State) (k : Nat) (w : Word) : (s.setPend k w).hsc = s.hsc := (rfl)
@[simp] theorem State.setPend_ptp (s : State) (k : Nat) (w : Word) : (s.setPend k w).ptp = s.ptp := (rfl)
@[simp] theorem State.setPend_ddc (s : State) (k : Nat) (w : Word) : (s.setPend k w).ddc = s.ddc := (rfl)
@[simp] theorem State.setPend_phx (s : State) (k : Nat) (w : Word) : (s.setPend k w).phx = s.phx := (rfl)
@[simp] theorem State.setPend_twn (s : State) (k : Nat) (w : Word) : (s.setPend k w).twn = s.twn := (rfl)
@[simp] theorem State.setPend_aux (s : State) (k : Nat) (w : Word) : (s.setPend k w).aux = s.aux := (rfl)
@[simp] theorem State.setPend_memc (s : State) (k : Nat) (w : Word) : (s.setPend k w).memc = s.memc := (rfl)
@[simp] theorem State.setPend_cru (s : State) (k : Nat) (w : Word) : (s.setPend k w).cru = s.cru := (rfl)
@[simp] theorem State.setPend_net (s : State) (k : Nat) (w : Word) : (s.setPend k w).net = s.net := (rfl)
@[simp] theorem State.setPend_tx (s : State) (k : Nat) (w : Word) : (s.setPend k w).tx = s.tx := (rfl)
@[simp] theorem State.setPend_resp (s : State) (k : Nat) (w : Word) : (s.setPend k w).resp = s.resp := (rfl)
@[simp] theorem State.setPend_free (s : State) (k : Nat) (w : Word) : (s.setPend k w).free = s.free := (rfl)

@[simp] theorem State.setFld_now (s : State) (f : Fld) (u v : Nat) : (s.setFld f u v).now = s.now := (rfl)
@[simp] theorem State.setFld_pending (s : State) (f : Fld) (u v : Nat) : (s.setFld f u v).pending = s.pending := (rfl)
@[simp] theorem State.setFld_fixed (s : State) (f : Fld) (u v : Nat) : (s.setFld f u v).fixed = s.fixed := (rfl)
@[simp] theorem State.setFld_sys (s : State) (f : Fld) (u v : Nat) : (s.setFld f u v).sys = s.sys := (rfl)
@[simp] theorem State.setFld_boot (s : State) (f : Fld) (u v : Nat) : (s.setFld f u v).boot = s.boot := (rfl)
@[simp] theorem State.setFld_mem (s : State) (f : Fld) (u v : Nat) : (s.setFld f u v).mem = s.mem := (rfl)
@[simp] theorem State.setFld_que (s : State) (f : Fld) (u v : Nat) : (s.setFld f u v).que = s.que := (rfl)
@[simp] theorem State.setFld_pwr (s : State) (f : Fld) (u v : Nat) : (s.setFld f u v).pwr = s.pwr := (rfl)
@[simp] theorem State.setFld_eng (s : State) (f : Fld) (u v : Nat) : (s.setFld f u v).eng = s.eng := (rfl)
@[simp] theorem State.setFld_tach (s : State) (f : Fld) (u v : Nat) : (s.setFld f u v).tach = s.tach := (rfl)
@[simp] theorem State.setFld_lan (s : State) (f : Fld) (u v : Nat) : (s.setFld f u v).lan = s.lan := (rfl)
@[simp] theorem State.setFld_wck (s : State) (f : Fld) (u v : Nat) : (s.setFld f u v).wck = s.wck := (rfl)
@[simp] theorem State.setFld_orx (s : State) (f : Fld) (u v : Nat) : (s.setFld f u v).orx = s.orx := (rfl)
@[simp] theorem State.setFld_hsc (s : State) (f : Fld) (u v : Nat) : (s.setFld f u v).hsc = s.hsc := (rfl)
@[simp] theorem State.setFld_ptp (s : State) (f : Fld) (u v : Nat) : (s.setFld f u v).ptp = s.ptp := (rfl)
@[simp] theorem State.setFld_ddc (s : State) (f : Fld) (u v : Nat) : (s.setFld f u v).ddc = s.ddc := (rfl)
@[simp] theorem State.setFld_phx (s : State) (f : Fld) (u v : Nat) : (s.setFld f u v).phx = s.phx := (rfl)
@[simp] theorem State.setFld_twn (s : State) (f : Fld) (u v : Nat) : (s.setFld f u v).twn = s.twn := (rfl)
@[simp] theorem State.setFld_aux (s : State) (f : Fld) (u v : Nat) : (s.setFld f u v).aux = s.aux := (rfl)
@[simp] theorem State.setFld_memc (s : State) (f : Fld) (u v : Nat) : (s.setFld f u v).memc = s.memc := (rfl)
@[simp] theorem State.setFld_cru (s : State) (f : Fld) (u v : Nat) : (s.setFld f u v).cru = s.cru := (rfl)
@[simp] theorem State.setFld_net (s : State) (f : Fld) (u v : Nat) : (s.setFld f u v).net = s.net := (rfl)
@[simp] theorem State.setFld_tx (s : State) (f : Fld) (u v : Nat) : (s.setFld f u v).tx = s.tx := (rfl)
@[simp] theorem State.setFld_resp (s : State) (f : Fld) (u v : Nat) : (s.setFld f u v).resp = s.resp := (rfl)
@[simp] theorem State.setFld_free (s : State) (f : Fld) (u v : Nat) : (s.setFld f u v).free = s.free := (rfl)

@[simp] theorem State.setFlag_now (s : State) (f : Fld) (u : Nat) (b : Bool) : (s.setFlag f u b).now = s.now := (rfl)
@[simp] theorem State.setFlag_pending (s : State) (f : Fld) (u : Nat) (b : Bool) : (s.setFlag f u b).pending = s.pending := (rfl)
@[simp] theorem State.setFlag_fixed (s : State) (f : Fld) (u : Nat) (b : Bool) : (s.setFlag f u b).fixed = s.fixed := (rfl)
@[simp] theorem State.setFlag_sys (s : State) (f : Fld) (u : Nat) (b : Bool) : (s.setFlag f u b).sys = s.sys := (rfl)
@[simp] theorem State.setFlag_boot (s : State) (f : Fld) (u : Nat) (b : Bool) : (s.setFlag f u b).boot = s.boot := (rfl)
@[simp] theorem State.setFlag_mem (s : State) (f : Fld) (u : Nat) (b : Bool) : (s.setFlag f u b).mem = s.mem := (rfl)
@[simp] theorem State.setFlag_que (s : State) (f : Fld) (u : Nat) (b : Bool) : (s.setFlag f u b).que = s.que := (rfl)
@[simp] theorem State.setFlag_pwr (s : State) (f : Fld) (u : Nat) (b : Bool) : (s.setFlag f u b).pwr = s.pwr := (rfl)
@[simp] theorem State.setFlag_eng (s : State) (f : Fld) (u : Nat) (b : Bool) : (s.setFlag f u b).eng = s.eng := (rfl)
@[simp] theorem State.setFlag_tach (s : State) (f : Fld) (u : Nat) (b : Bool) : (s.setFlag f u b).tach = s.tach := (rfl)
@[simp] theorem State.setFlag_lan (s : State) (f : Fld) (u : Nat) (b : Bool) : (s.setFlag f u b).lan = s.lan := (rfl)
@[simp] theorem State.setFlag_wck (s : State) (f : Fld) (u : Nat) (b : Bool) : (s.setFlag f u b).wck = s.wck := (rfl)
@[simp] theorem State.setFlag_orx (s : State) (f : Fld) (u : Nat) (b : Bool) : (s.setFlag f u b).orx = s.orx := (rfl)
@[simp] theorem State.setFlag_hsc (s : State) (f : Fld) (u : Nat) (b : Bool) : (s.setFlag f u b).hsc = s.hsc := (rfl)
@[simp] theorem State.setFlag_ptp (s : State) (f : Fld) (u : Nat) (b : Bool) : (s.setFlag f u b).ptp = s.ptp := (rfl)
@[simp] theorem State.setFlag_ddc (s : State) (f : Fld) (u : Nat) (b : Bool) : (s.setFlag f u b).ddc = s.ddc := (rfl)
@[simp] theorem State.setFlag_phx (s : State) (f : Fld) (u : Nat) (b : Bool) : (s.setFlag f u b).phx = s.phx := (rfl)
@[simp] theorem State.setFlag_twn (s : State) (f : Fld) (u : Nat) (b : Bool) : (s.setFlag f u b).twn = s.twn := (rfl)
@[simp] theorem State.setFlag_aux (s : State) (f : Fld) (u : Nat) (b : Bool) : (s.setFlag f u b).aux = s.aux := (rfl)
@[simp] theorem State.setFlag_memc (s : State) (f : Fld) (u : Nat) (b : Bool) : (s.setFlag f u b).memc = s.memc := (rfl)
@[simp] theorem State.setFlag_cru (s : State) (f : Fld) (u : Nat) (b : Bool) : (s.setFlag f u b).cru = s.cru := (rfl)
@[simp] theorem State.setFlag_net (s : State) (f : Fld) (u : Nat) (b : Bool) : (s.setFlag f u b).net = s.net := (rfl)
@[simp] theorem State.setFlag_tx (s : State) (f : Fld) (u : Nat) (b : Bool) : (s.setFlag f u b).tx = s.tx := (rfl)
@[simp] theorem State.setFlag_resp (s : State) (f : Fld) (u : Nat) (b : Bool) : (s.setFlag f u b).resp = s.resp := (rfl)
@[simp] theorem State.setFlag_free (s : State) (f : Fld) (u : Nat) (b : Bool) : (s.setFlag f u b).free = s.free := (rfl)

@[simp] theorem State.setLaneBit_now (s : State) (f : Fld) (i : Nat) (b : Bool) : (s.setLaneBit f i b).now = s.now := (rfl)
@[simp] theorem State.setLaneBit_pending (s : State) (f : Fld) (i : Nat) (b : Bool) : (s.setLaneBit f i b).pending = s.pending := (rfl)
@[simp] theorem State.setLaneBit_fixed (s : State) (f : Fld) (i : Nat) (b : Bool) : (s.setLaneBit f i b).fixed = s.fixed := (rfl)
@[simp] theorem State.setLaneBit_sys (s : State) (f : Fld) (i : Nat) (b : Bool) : (s.setLaneBit f i b).sys = s.sys := (rfl)
@[simp] theorem State.setLaneBit_boot (s : State) (f : Fld) (i : Nat) (b : Bool) : (s.setLaneBit f i b).boot = s.boot := (rfl)
@[simp] theorem State.setLaneBit_mem (s : State) (f : Fld) (i : Nat) (b : Bool) : (s.setLaneBit f i b).mem = s.mem := (rfl)
@[simp] theorem State.setLaneBit_que (s : State) (f : Fld) (i : Nat) (b : Bool) : (s.setLaneBit f i b).que = s.que := (rfl)
@[simp] theorem State.setLaneBit_pwr (s : State) (f : Fld) (i : Nat) (b : Bool) : (s.setLaneBit f i b).pwr = s.pwr := (rfl)
@[simp] theorem State.setLaneBit_eng (s : State) (f : Fld) (i : Nat) (b : Bool) : (s.setLaneBit f i b).eng = s.eng := (rfl)
@[simp] theorem State.setLaneBit_tach (s : State) (f : Fld) (i : Nat) (b : Bool) : (s.setLaneBit f i b).tach = s.tach := (rfl)
@[simp] theorem State.setLaneBit_lan (s : State) (f : Fld) (i : Nat) (b : Bool) : (s.setLaneBit f i b).lan = s.lan := (rfl)
@[simp] theorem State.setLaneBit_wck (s : State) (f : Fld) (i : Nat) (b : Bool) : (s.setLaneBit f i b).wck = s.wck := (rfl)
@[simp] theorem State.setLaneBit_orx (s : State) (f : Fld) (i : Nat) (b : Bool) : (s.setLaneBit f i b).orx = s.orx := (rfl)
@[simp] theorem State.setLaneBit_hsc (s : State) (f : Fld) (i : Nat) (b : Bool) : (s.setLaneBit f i b).hsc = s.hsc := (rfl)
@[simp] theorem State.setLaneBit_ptp (s : State) (f : Fld) (i : Nat) (b : Bool) : (s.setLaneBit f i b).ptp = s.ptp := (rfl)
@[simp] theorem State.setLaneBit_ddc (s : State) (f : Fld) (i : Nat) (b : Bool) : (s.setLaneBit f i b).ddc = s.ddc := (rfl)
@[simp] theorem State.setLaneBit_phx (s : State) (f : Fld) (i : Nat) (b : Bool) : (s.setLaneBit f i b).phx = s.phx := (rfl)
@[simp] theorem State.setLaneBit_twn (s : State) (f : Fld) (i : Nat) (b : Bool) : (s.setLaneBit f i b).twn = s.twn := (rfl)
@[simp] theorem State.setLaneBit_aux (s : State) (f : Fld) (i : Nat) (b : Bool) : (s.setLaneBit f i b).aux = s.aux := (rfl)
@[simp] theorem State.setLaneBit_memc (s : State) (f : Fld) (i : Nat) (b : Bool) : (s.setLaneBit f i b).memc = s.memc := (rfl)
@[simp] theorem State.setLaneBit_cru (s : State) (f : Fld) (i : Nat) (b : Bool) : (s.setLaneBit f i b).cru = s.cru := (rfl)
@[simp] theorem State.setLaneBit_net (s : State) (f : Fld) (i : Nat) (b : Bool) : (s.setLaneBit f i b).net = s.net := (rfl)
@[simp] theorem State.setLaneBit_tx (s : State) (f : Fld) (i : Nat) (b : Bool) : (s.setLaneBit f i b).tx = s.tx := (rfl)
@[simp] theorem State.setLaneBit_resp (s : State) (f : Fld) (i : Nat) (b : Bool) : (s.setLaneBit f i b).resp = s.resp := (rfl)
@[simp] theorem State.setLaneBit_free (s : State) (f : Fld) (i : Nat) (b : Bool) : (s.setLaneBit f i b).free = s.free := (rfl)

@[simp] theorem State.count_now (s : State) (f : Fld) (u k : Nat) : (s.count f u k).now = s.now := (rfl)
@[simp] theorem State.count_pending (s : State) (f : Fld) (u k : Nat) : (s.count f u k).pending = s.pending := (rfl)
@[simp] theorem State.count_fixed (s : State) (f : Fld) (u k : Nat) : (s.count f u k).fixed = s.fixed := (rfl)
@[simp] theorem State.count_sys (s : State) (f : Fld) (u k : Nat) : (s.count f u k).sys = s.sys := (rfl)
@[simp] theorem State.count_boot (s : State) (f : Fld) (u k : Nat) : (s.count f u k).boot = s.boot := (rfl)
@[simp] theorem State.count_mem (s : State) (f : Fld) (u k : Nat) : (s.count f u k).mem = s.mem := (rfl)
@[simp] theorem State.count_que (s : State) (f : Fld) (u k : Nat) : (s.count f u k).que = s.que := (rfl)
@[simp] theorem State.count_pwr (s : State) (f : Fld) (u k : Nat) : (s.count f u k).pwr = s.pwr := (rfl)
@[simp] theorem State.count_eng (s : State) (f : Fld) (u k : Nat) : (s.count f u k).eng = s.eng := (rfl)
@[simp] theorem State.count_tach (s : State) (f : Fld) (u k : Nat) : (s.count f u k).tach = s.tach := (rfl)
@[simp] theorem State.count_lan (s : State) (f : Fld) (u k : Nat) : (s.count f u k).lan = s.lan := (rfl)
@[simp] theorem State.count_wck (s : State) (f : Fld) (u k : Nat) : (s.count f u k).wck = s.wck := (rfl)
@[simp] theorem State.count_orx (s : State) (f : Fld) (u k : Nat) : (s.count f u k).orx = s.orx := (rfl)
@[simp] theorem State.count_hsc (s : State) (f : Fld) (u k : Nat) : (s.count f u k).hsc = s.hsc := (rfl)
@[simp] theorem State.count_ptp (s : State) (f : Fld) (u k : Nat) : (s.count f u k).ptp = s.ptp := (rfl)
@[simp] theorem State.count_ddc (s : State) (f : Fld) (u k : Nat) : (s.count f u k).ddc = s.ddc := (rfl)
@[simp] theorem State.count_phx (s : State) (f : Fld) (u k : Nat) : (s.count f u k).phx = s.phx := (rfl)
@[simp] theorem State.count_twn (s : State) (f : Fld) (u k : Nat) : (s.count f u k).twn = s.twn := (rfl)
@[simp] theorem State.count_aux (s : State) (f : Fld) (u k : Nat) : (s.count f u k).aux = s.aux := (rfl)
@[simp] theorem State.count_memc (s : State) (f : Fld) (u k : Nat) : (s.count f u k).memc = s.memc := (rfl)
@[simp] theorem State.count_cru (s : State) (f : Fld) (u k : Nat) : (s.count f u k).cru = s.cru := (rfl)
@[simp] theorem State.count_net (s : State) (f : Fld) (u k : Nat) : (s.count f u k).net = s.net := (rfl)
@[simp] theorem State.count_tx (s : State) (f : Fld) (u k : Nat) : (s.count f u k).tx = s.tx := (rfl)
@[simp] theorem State.count_resp (s : State) (f : Fld) (u k : Nat) : (s.count f u k).resp = s.resp := (rfl)
@[simp] theorem State.count_free (s : State) (f : Fld) (u k : Nat) : (s.count f u k).free = s.free := (rfl)

@[simp] theorem State.drawn_now (s : State) : (s.drawn).now = s.now := (rfl)
@[simp] theorem State.drawn_pending (s : State) : (s.drawn).pending = s.pending := (rfl)
@[simp] theorem State.drawn_fixed (s : State) : (s.drawn).fixed = s.fixed := (rfl)
@[simp] theorem State.drawn_regs (s : State) : (s.drawn).regs = s.regs := (rfl)
@[simp] theorem State.drawn_sys (s : State) : (s.drawn).sys = s.sys := (rfl)
@[simp] theorem State.drawn_boot (s : State) : (s.drawn).boot = s.boot := (rfl)
@[simp] theorem State.drawn_mem (s : State) : (s.drawn).mem = s.mem := (rfl)
@[simp] theorem State.drawn_que (s : State) : (s.drawn).que = s.que := (rfl)
@[simp] theorem State.drawn_pwr (s : State) : (s.drawn).pwr = s.pwr := (rfl)
@[simp] theorem State.drawn_eng (s : State) : (s.drawn).eng = s.eng := (rfl)
@[simp] theorem State.drawn_tach (s : State) : (s.drawn).tach = s.tach := (rfl)
@[simp] theorem State.drawn_lan (s : State) : (s.drawn).lan = s.lan := (rfl)
@[simp] theorem State.drawn_wck (s : State) : (s.drawn).wck = s.wck := (rfl)
@[simp] theorem State.drawn_orx (s : State) : (s.drawn).orx = s.orx := (rfl)
@[simp] theorem State.drawn_hsc (s : State) : (s.drawn).hsc = s.hsc := (rfl)
@[simp] theorem State.drawn_ptp (s : State) : (s.drawn).ptp = s.ptp := (rfl)
@[simp] theorem State.drawn_ddc (s : State) : (s.drawn).ddc = s.ddc := (rfl)
@[simp] theorem State.drawn_phx (s : State) : (s.drawn).phx = s.phx := (rfl)
@[simp] theorem State.drawn_twn (s : State) : (s.drawn).twn = s.twn := (rfl)
@[simp] theorem State.drawn_aux (s : State) : (s.drawn).aux = s.aux := (rfl)
@[simp] theorem State.drawn_memc (s : State) : (s.drawn).memc = s.memc := (rfl)
@[simp] theorem State.drawn_cru (s : State) : (s.drawn).cru = s.cru := (rfl)
@[simp] theorem State.drawn_net (s : State) : (s.drawn).net = s.net := (rfl)
@[simp] theorem State.drawn_tx (s : State) : (s.drawn).tx = s.tx := (rfl)
@[simp] theorem State.drawn_resp (s : State) : (s.drawn).resp = s.resp := (rfl)

@[simp] theorem State.setEngine_now (s : State) (e : Nat) (x : Engine) : (s.setEngine e x).now = s.now := (rfl)
@[simp] theorem State.setEngine_pending (s : State) (e : Nat) (x : Engine) : (s.setEngine e x).pending = s.pending := (rfl)
@[simp] theorem State.setEngine_fixed (s : State) (e : Nat) (x : Engine) : (s.setEngine e x).fixed = s.fixed := (rfl)
@[simp] theorem State.setEngine_regs (s : State) (e : Nat) (x : Engine) : (s.setEngine e x).regs = s.regs := (rfl)
@[simp] theorem State.setEngine_sys (s : State) (e : Nat) (x : Engine) : (s.setEngine e x).sys = s.sys := (rfl)
@[simp] theorem State.setEngine_boot (s : State) (e : Nat) (x : Engine) : (s.setEngine e x).boot = s.boot := (rfl)
@[simp] theorem State.setEngine_mem (s : State) (e : Nat) (x : Engine) : (s.setEngine e x).mem = s.mem := (rfl)
@[simp] theorem State.setEngine_que (s : State) (e : Nat) (x : Engine) : (s.setEngine e x).que = s.que := (rfl)
@[simp] theorem State.setEngine_pwr (s : State) (e : Nat) (x : Engine) : (s.setEngine e x).pwr = s.pwr := (rfl)
@[simp] theorem State.setEngine_tach (s : State) (e : Nat) (x : Engine) : (s.setEngine e x).tach = s.tach := (rfl)
@[simp] theorem State.setEngine_lan (s : State) (e : Nat) (x : Engine) : (s.setEngine e x).lan = s.lan := (rfl)
@[simp] theorem State.setEngine_wck (s : State) (e : Nat) (x : Engine) : (s.setEngine e x).wck = s.wck := (rfl)
@[simp] theorem State.setEngine_orx (s : State) (e : Nat) (x : Engine) : (s.setEngine e x).orx = s.orx := (rfl)
@[simp] theorem State.setEngine_hsc (s : State) (e : Nat) (x : Engine) : (s.setEngine e x).hsc = s.hsc := (rfl)
@[simp] theorem State.setEngine_ptp (s : State) (e : Nat) (x : Engine) : (s.setEngine e x).ptp = s.ptp := (rfl)
@[simp] theorem State.setEngine_ddc (s : State) (e : Nat) (x : Engine) : (s.setEngine e x).ddc = s.ddc := (rfl)
@[simp] theorem State.setEngine_phx (s : State) (e : Nat) (x : Engine) : (s.setEngine e x).phx = s.phx := (rfl)
@[simp] theorem State.setEngine_twn (s : State) (e : Nat) (x : Engine) : (s.setEngine e x).twn = s.twn := (rfl)
@[simp] theorem State.setEngine_aux (s : State) (e : Nat) (x : Engine) : (s.setEngine e x).aux = s.aux := (rfl)
@[simp] theorem State.setEngine_memc (s : State) (e : Nat) (x : Engine) : (s.setEngine e x).memc = s.memc := (rfl)
@[simp] theorem State.setEngine_cru (s : State) (e : Nat) (x : Engine) : (s.setEngine e x).cru = s.cru := (rfl)
@[simp] theorem State.setEngine_net (s : State) (e : Nat) (x : Engine) : (s.setEngine e x).net = s.net := (rfl)
@[simp] theorem State.setEngine_tx (s : State) (e : Nat) (x : Engine) : (s.setEngine e x).tx = s.tx := (rfl)
@[simp] theorem State.setEngine_resp (s : State) (e : Nat) (x : Engine) : (s.setEngine e x).resp = s.resp := (rfl)
@[simp] theorem State.setEngine_free (s : State) (e : Nat) (x : Engine) : (s.setEngine e x).free = s.free := (rfl)

@[simp] theorem State.onEngine_now (s : State) (e : Nat) (g : Engine → Engine) : (s.onEngine e g).now = s.now := (rfl)
@[simp] theorem State.onEngine_pending (s : State) (e : Nat) (g : Engine → Engine) : (s.onEngine e g).pending = s.pending := (rfl)
@[simp] theorem State.onEngine_fixed (s : State) (e : Nat) (g : Engine → Engine) : (s.onEngine e g).fixed = s.fixed := (rfl)
@[simp] theorem State.onEngine_regs (s : State) (e : Nat) (g : Engine → Engine) : (s.onEngine e g).regs = s.regs := (rfl)
@[simp] theorem State.onEngine_sys (s : State) (e : Nat) (g : Engine → Engine) : (s.onEngine e g).sys = s.sys := (rfl)
@[simp] theorem State.onEngine_boot (s : State) (e : Nat) (g : Engine → Engine) : (s.onEngine e g).boot = s.boot := (rfl)
@[simp] theorem State.onEngine_mem (s : State) (e : Nat) (g : Engine → Engine) : (s.onEngine e g).mem = s.mem := (rfl)
@[simp] theorem State.onEngine_que (s : State) (e : Nat) (g : Engine → Engine) : (s.onEngine e g).que = s.que := (rfl)
@[simp] theorem State.onEngine_pwr (s : State) (e : Nat) (g : Engine → Engine) : (s.onEngine e g).pwr = s.pwr := (rfl)
@[simp] theorem State.onEngine_tach (s : State) (e : Nat) (g : Engine → Engine) : (s.onEngine e g).tach = s.tach := (rfl)
@[simp] theorem State.onEngine_lan (s : State) (e : Nat) (g : Engine → Engine) : (s.onEngine e g).lan = s.lan := (rfl)
@[simp] theorem State.onEngine_wck (s : State) (e : Nat) (g : Engine → Engine) : (s.onEngine e g).wck = s.wck := (rfl)
@[simp] theorem State.onEngine_orx (s : State) (e : Nat) (g : Engine → Engine) : (s.onEngine e g).orx = s.orx := (rfl)
@[simp] theorem State.onEngine_hsc (s : State) (e : Nat) (g : Engine → Engine) : (s.onEngine e g).hsc = s.hsc := (rfl)
@[simp] theorem State.onEngine_ptp (s : State) (e : Nat) (g : Engine → Engine) : (s.onEngine e g).ptp = s.ptp := (rfl)
@[simp] theorem State.onEngine_ddc (s : State) (e : Nat) (g : Engine → Engine) : (s.onEngine e g).ddc = s.ddc := (rfl)
@[simp] theorem State.onEngine_phx (s : State) (e : Nat) (g : Engine → Engine) : (s.onEngine e g).phx = s.phx := (rfl)
@[simp] theorem State.onEngine_twn (s : State) (e : Nat) (g : Engine → Engine) : (s.onEngine e g).twn = s.twn := (rfl)
@[simp] theorem State.onEngine_aux (s : State) (e : Nat) (g : Engine → Engine) : (s.onEngine e g).aux = s.aux := (rfl)
@[simp] theorem State.onEngine_memc (s : State) (e : Nat) (g : Engine → Engine) : (s.onEngine e g).memc = s.memc := (rfl)
@[simp] theorem State.onEngine_cru (s : State) (e : Nat) (g : Engine → Engine) : (s.onEngine e g).cru = s.cru := (rfl)
@[simp] theorem State.onEngine_net (s : State) (e : Nat) (g : Engine → Engine) : (s.onEngine e g).net = s.net := (rfl)
@[simp] theorem State.onEngine_tx (s : State) (e : Nat) (g : Engine → Engine) : (s.onEngine e g).tx = s.tx := (rfl)
@[simp] theorem State.onEngine_resp (s : State) (e : Nat) (g : Engine → Engine) : (s.onEngine e g).resp = s.resp := (rfl)
@[simp] theorem State.onEngine_free (s : State) (e : Nat) (g : Engine → Engine) : (s.onEngine e g).free = s.free := (rfl)

@[simp] theorem State.onQueue_now (s : State) (q : Nat) (g : Queue → Queue) : (s.onQueue q g).now = s.now := (rfl)
@[simp] theorem State.onQueue_pending (s : State) (q : Nat) (g : Queue → Queue) : (s.onQueue q g).pending = s.pending := (rfl)
@[simp] theorem State.onQueue_fixed (s : State) (q : Nat) (g : Queue → Queue) : (s.onQueue q g).fixed = s.fixed := (rfl)
@[simp] theorem State.onQueue_regs (s : State) (q : Nat) (g : Queue → Queue) : (s.onQueue q g).regs = s.regs := (rfl)
@[simp] theorem State.onQueue_sys (s : State) (q : Nat) (g : Queue → Queue) : (s.onQueue q g).sys = s.sys := (rfl)
@[simp] theorem State.onQueue_boot (s : State) (q : Nat) (g : Queue → Queue) : (s.onQueue q g).boot = s.boot := (rfl)
@[simp] theorem State.onQueue_mem (s : State) (q : Nat) (g : Queue → Queue) : (s.onQueue q g).mem = s.mem := (rfl)
@[simp] theorem State.onQueue_pwr (s : State) (q : Nat) (g : Queue → Queue) : (s.onQueue q g).pwr = s.pwr := (rfl)
@[simp] theorem State.onQueue_eng (s : State) (q : Nat) (g : Queue → Queue) : (s.onQueue q g).eng = s.eng := (rfl)
@[simp] theorem State.onQueue_tach (s : State) (q : Nat) (g : Queue → Queue) : (s.onQueue q g).tach = s.tach := (rfl)
@[simp] theorem State.onQueue_lan (s : State) (q : Nat) (g : Queue → Queue) : (s.onQueue q g).lan = s.lan := (rfl)
@[simp] theorem State.onQueue_wck (s : State) (q : Nat) (g : Queue → Queue) : (s.onQueue q g).wck = s.wck := (rfl)
@[simp] theorem State.onQueue_orx (s : State) (q : Nat) (g : Queue → Queue) : (s.onQueue q g).orx = s.orx := (rfl)
@[simp] theorem State.onQueue_hsc (s : State) (q : Nat) (g : Queue → Queue) : (s.onQueue q g).hsc = s.hsc := (rfl)
@[simp] theorem State.onQueue_ptp (s : State) (q : Nat) (g : Queue → Queue) : (s.onQueue q g).ptp = s.ptp := (rfl)
@[simp] theorem State.onQueue_ddc (s : State) (q : Nat) (g : Queue → Queue) : (s.onQueue q g).ddc = s.ddc := (rfl)
@[simp] theorem State.onQueue_phx (s : State) (q : Nat) (g : Queue → Queue) : (s.onQueue q g).phx = s.phx := (rfl)
@[simp] theorem State.onQueue_twn (s : State) (q : Nat) (g : Queue → Queue) : (s.onQueue q g).twn = s.twn := (rfl)
@[simp] theorem State.onQueue_aux (s : State) (q : Nat) (g : Queue → Queue) : (s.onQueue q g).aux = s.aux := (rfl)
@[simp] theorem State.onQueue_memc (s : State) (q : Nat) (g : Queue → Queue) : (s.onQueue q g).memc = s.memc := (rfl)
@[simp] theorem State.onQueue_cru (s : State) (q : Nat) (g : Queue → Queue) : (s.onQueue q g).cru = s.cru := (rfl)
@[simp] theorem State.onQueue_net (s : State) (q : Nat) (g : Queue → Queue) : (s.onQueue q g).net = s.net := (rfl)
@[simp] theorem State.onQueue_tx (s : State) (q : Nat) (g : Queue → Queue) : (s.onQueue q g).tx = s.tx := (rfl)
@[simp] theorem State.onQueue_resp (s : State) (q : Nat) (g : Queue → Queue) : (s.onQueue q g).resp = s.resp := (rfl)
@[simp] theorem State.onQueue_free (s : State) (q : Nat) (g : Queue → Queue) : (s.onQueue q g).free = s.free := (rfl)

@[simp] theorem State.onOrx_now (s : State) (c : Nat) (g : OrxCh → OrxCh) : (s.onOrx c g).now = s.now := (rfl)
@[simp] theorem State.onOrx_pending (s : State) (c : Nat) (g : OrxCh → OrxCh) : (s.onOrx c g).pending = s.pending := (rfl)
@[simp] theorem State.onOrx_fixed (s : State) (c : Nat) (g : OrxCh → OrxCh) : (s.onOrx c g).fixed = s.fixed := (rfl)
@[simp] theorem State.onOrx_regs (s : State) (c : Nat) (g : OrxCh → OrxCh) : (s.onOrx c g).regs = s.regs := (rfl)
@[simp] theorem State.onOrx_sys (s : State) (c : Nat) (g : OrxCh → OrxCh) : (s.onOrx c g).sys = s.sys := (rfl)
@[simp] theorem State.onOrx_boot (s : State) (c : Nat) (g : OrxCh → OrxCh) : (s.onOrx c g).boot = s.boot := (rfl)
@[simp] theorem State.onOrx_mem (s : State) (c : Nat) (g : OrxCh → OrxCh) : (s.onOrx c g).mem = s.mem := (rfl)
@[simp] theorem State.onOrx_que (s : State) (c : Nat) (g : OrxCh → OrxCh) : (s.onOrx c g).que = s.que := (rfl)
@[simp] theorem State.onOrx_pwr (s : State) (c : Nat) (g : OrxCh → OrxCh) : (s.onOrx c g).pwr = s.pwr := (rfl)
@[simp] theorem State.onOrx_eng (s : State) (c : Nat) (g : OrxCh → OrxCh) : (s.onOrx c g).eng = s.eng := (rfl)
@[simp] theorem State.onOrx_tach (s : State) (c : Nat) (g : OrxCh → OrxCh) : (s.onOrx c g).tach = s.tach := (rfl)
@[simp] theorem State.onOrx_lan (s : State) (c : Nat) (g : OrxCh → OrxCh) : (s.onOrx c g).lan = s.lan := (rfl)
@[simp] theorem State.onOrx_wck (s : State) (c : Nat) (g : OrxCh → OrxCh) : (s.onOrx c g).wck = s.wck := (rfl)
@[simp] theorem State.onOrx_hsc (s : State) (c : Nat) (g : OrxCh → OrxCh) : (s.onOrx c g).hsc = s.hsc := (rfl)
@[simp] theorem State.onOrx_ptp (s : State) (c : Nat) (g : OrxCh → OrxCh) : (s.onOrx c g).ptp = s.ptp := (rfl)
@[simp] theorem State.onOrx_ddc (s : State) (c : Nat) (g : OrxCh → OrxCh) : (s.onOrx c g).ddc = s.ddc := (rfl)
@[simp] theorem State.onOrx_phx (s : State) (c : Nat) (g : OrxCh → OrxCh) : (s.onOrx c g).phx = s.phx := (rfl)
@[simp] theorem State.onOrx_twn (s : State) (c : Nat) (g : OrxCh → OrxCh) : (s.onOrx c g).twn = s.twn := (rfl)
@[simp] theorem State.onOrx_aux (s : State) (c : Nat) (g : OrxCh → OrxCh) : (s.onOrx c g).aux = s.aux := (rfl)
@[simp] theorem State.onOrx_memc (s : State) (c : Nat) (g : OrxCh → OrxCh) : (s.onOrx c g).memc = s.memc := (rfl)
@[simp] theorem State.onOrx_cru (s : State) (c : Nat) (g : OrxCh → OrxCh) : (s.onOrx c g).cru = s.cru := (rfl)
@[simp] theorem State.onOrx_net (s : State) (c : Nat) (g : OrxCh → OrxCh) : (s.onOrx c g).net = s.net := (rfl)
@[simp] theorem State.onOrx_tx (s : State) (c : Nat) (g : OrxCh → OrxCh) : (s.onOrx c g).tx = s.tx := (rfl)
@[simp] theorem State.onOrx_resp (s : State) (c : Nat) (g : OrxCh → OrxCh) : (s.onOrx c g).resp = s.resp := (rfl)
@[simp] theorem State.onOrx_free (s : State) (c : Nat) (g : OrxCh → OrxCh) : (s.onOrx c g).free = s.free := (rfl)

@[simp] theorem State.onLane_now (s : State) (n : Nat) (g : Lane → Lane) : (s.onLane n g).now = s.now := (rfl)
@[simp] theorem State.onLane_pending (s : State) (n : Nat) (g : Lane → Lane) : (s.onLane n g).pending = s.pending := (rfl)
@[simp] theorem State.onLane_fixed (s : State) (n : Nat) (g : Lane → Lane) : (s.onLane n g).fixed = s.fixed := (rfl)
@[simp] theorem State.onLane_regs (s : State) (n : Nat) (g : Lane → Lane) : (s.onLane n g).regs = s.regs := (rfl)
@[simp] theorem State.onLane_sys (s : State) (n : Nat) (g : Lane → Lane) : (s.onLane n g).sys = s.sys := (rfl)
@[simp] theorem State.onLane_boot (s : State) (n : Nat) (g : Lane → Lane) : (s.onLane n g).boot = s.boot := (rfl)
@[simp] theorem State.onLane_mem (s : State) (n : Nat) (g : Lane → Lane) : (s.onLane n g).mem = s.mem := (rfl)
@[simp] theorem State.onLane_que (s : State) (n : Nat) (g : Lane → Lane) : (s.onLane n g).que = s.que := (rfl)
@[simp] theorem State.onLane_pwr (s : State) (n : Nat) (g : Lane → Lane) : (s.onLane n g).pwr = s.pwr := (rfl)
@[simp] theorem State.onLane_eng (s : State) (n : Nat) (g : Lane → Lane) : (s.onLane n g).eng = s.eng := (rfl)
@[simp] theorem State.onLane_tach (s : State) (n : Nat) (g : Lane → Lane) : (s.onLane n g).tach = s.tach := (rfl)
@[simp] theorem State.onLane_wck (s : State) (n : Nat) (g : Lane → Lane) : (s.onLane n g).wck = s.wck := (rfl)
@[simp] theorem State.onLane_orx (s : State) (n : Nat) (g : Lane → Lane) : (s.onLane n g).orx = s.orx := (rfl)
@[simp] theorem State.onLane_hsc (s : State) (n : Nat) (g : Lane → Lane) : (s.onLane n g).hsc = s.hsc := (rfl)
@[simp] theorem State.onLane_ptp (s : State) (n : Nat) (g : Lane → Lane) : (s.onLane n g).ptp = s.ptp := (rfl)
@[simp] theorem State.onLane_ddc (s : State) (n : Nat) (g : Lane → Lane) : (s.onLane n g).ddc = s.ddc := (rfl)
@[simp] theorem State.onLane_phx (s : State) (n : Nat) (g : Lane → Lane) : (s.onLane n g).phx = s.phx := (rfl)
@[simp] theorem State.onLane_twn (s : State) (n : Nat) (g : Lane → Lane) : (s.onLane n g).twn = s.twn := (rfl)
@[simp] theorem State.onLane_aux (s : State) (n : Nat) (g : Lane → Lane) : (s.onLane n g).aux = s.aux := (rfl)
@[simp] theorem State.onLane_memc (s : State) (n : Nat) (g : Lane → Lane) : (s.onLane n g).memc = s.memc := (rfl)
@[simp] theorem State.onLane_cru (s : State) (n : Nat) (g : Lane → Lane) : (s.onLane n g).cru = s.cru := (rfl)
@[simp] theorem State.onLane_net (s : State) (n : Nat) (g : Lane → Lane) : (s.onLane n g).net = s.net := (rfl)
@[simp] theorem State.onLane_tx (s : State) (n : Nat) (g : Lane → Lane) : (s.onLane n g).tx = s.tx := (rfl)
@[simp] theorem State.onLane_resp (s : State) (n : Nat) (g : Lane → Lane) : (s.onLane n g).resp = s.resp := (rfl)
@[simp] theorem State.onLane_free (s : State) (n : Nat) (g : Lane → Lane) : (s.onLane n g).free = s.free := (rfl)

@[simp] theorem State.onWick_now (s : State) (n : Nat) (g : Wick → Wick) : (s.onWick n g).now = s.now := (rfl)
@[simp] theorem State.onWick_pending (s : State) (n : Nat) (g : Wick → Wick) : (s.onWick n g).pending = s.pending := (rfl)
@[simp] theorem State.onWick_fixed (s : State) (n : Nat) (g : Wick → Wick) : (s.onWick n g).fixed = s.fixed := (rfl)
@[simp] theorem State.onWick_regs (s : State) (n : Nat) (g : Wick → Wick) : (s.onWick n g).regs = s.regs := (rfl)
@[simp] theorem State.onWick_sys (s : State) (n : Nat) (g : Wick → Wick) : (s.onWick n g).sys = s.sys := (rfl)
@[simp] theorem State.onWick_boot (s : State) (n : Nat) (g : Wick → Wick) : (s.onWick n g).boot = s.boot := (rfl)
@[simp] theorem State.onWick_mem (s : State) (n : Nat) (g : Wick → Wick) : (s.onWick n g).mem = s.mem := (rfl)
@[simp] theorem State.onWick_que (s : State) (n : Nat) (g : Wick → Wick) : (s.onWick n g).que = s.que := (rfl)
@[simp] theorem State.onWick_pwr (s : State) (n : Nat) (g : Wick → Wick) : (s.onWick n g).pwr = s.pwr := (rfl)
@[simp] theorem State.onWick_eng (s : State) (n : Nat) (g : Wick → Wick) : (s.onWick n g).eng = s.eng := (rfl)
@[simp] theorem State.onWick_tach (s : State) (n : Nat) (g : Wick → Wick) : (s.onWick n g).tach = s.tach := (rfl)
@[simp] theorem State.onWick_lan (s : State) (n : Nat) (g : Wick → Wick) : (s.onWick n g).lan = s.lan := (rfl)
@[simp] theorem State.onWick_orx (s : State) (n : Nat) (g : Wick → Wick) : (s.onWick n g).orx = s.orx := (rfl)
@[simp] theorem State.onWick_hsc (s : State) (n : Nat) (g : Wick → Wick) : (s.onWick n g).hsc = s.hsc := (rfl)
@[simp] theorem State.onWick_ptp (s : State) (n : Nat) (g : Wick → Wick) : (s.onWick n g).ptp = s.ptp := (rfl)
@[simp] theorem State.onWick_ddc (s : State) (n : Nat) (g : Wick → Wick) : (s.onWick n g).ddc = s.ddc := (rfl)
@[simp] theorem State.onWick_phx (s : State) (n : Nat) (g : Wick → Wick) : (s.onWick n g).phx = s.phx := (rfl)
@[simp] theorem State.onWick_twn (s : State) (n : Nat) (g : Wick → Wick) : (s.onWick n g).twn = s.twn := (rfl)
@[simp] theorem State.onWick_aux (s : State) (n : Nat) (g : Wick → Wick) : (s.onWick n g).aux = s.aux := (rfl)
@[simp] theorem State.onWick_memc (s : State) (n : Nat) (g : Wick → Wick) : (s.onWick n g).memc = s.memc := (rfl)
@[simp] theorem State.onWick_cru (s : State) (n : Nat) (g : Wick → Wick) : (s.onWick n g).cru = s.cru := (rfl)
@[simp] theorem State.onWick_net (s : State) (n : Nat) (g : Wick → Wick) : (s.onWick n g).net = s.net := (rfl)
@[simp] theorem State.onWick_tx (s : State) (n : Nat) (g : Wick → Wick) : (s.onWick n g).tx = s.tx := (rfl)
@[simp] theorem State.onWick_resp (s : State) (n : Nat) (g : Wick → Wick) : (s.onWick n g).resp = s.resp := (rfl)
@[simp] theorem State.onWick_free (s : State) (n : Nat) (g : Wick → Wick) : (s.onWick n g).free = s.free := (rfl)

@[simp] theorem State.onHsc_now (s : State) (c : Nat) (g : HscCh → HscCh) : (s.onHsc c g).now = s.now := (rfl)
@[simp] theorem State.onHsc_pending (s : State) (c : Nat) (g : HscCh → HscCh) : (s.onHsc c g).pending = s.pending := (rfl)
@[simp] theorem State.onHsc_fixed (s : State) (c : Nat) (g : HscCh → HscCh) : (s.onHsc c g).fixed = s.fixed := (rfl)
@[simp] theorem State.onHsc_regs (s : State) (c : Nat) (g : HscCh → HscCh) : (s.onHsc c g).regs = s.regs := (rfl)
@[simp] theorem State.onHsc_sys (s : State) (c : Nat) (g : HscCh → HscCh) : (s.onHsc c g).sys = s.sys := (rfl)
@[simp] theorem State.onHsc_boot (s : State) (c : Nat) (g : HscCh → HscCh) : (s.onHsc c g).boot = s.boot := (rfl)
@[simp] theorem State.onHsc_mem (s : State) (c : Nat) (g : HscCh → HscCh) : (s.onHsc c g).mem = s.mem := (rfl)
@[simp] theorem State.onHsc_que (s : State) (c : Nat) (g : HscCh → HscCh) : (s.onHsc c g).que = s.que := (rfl)
@[simp] theorem State.onHsc_pwr (s : State) (c : Nat) (g : HscCh → HscCh) : (s.onHsc c g).pwr = s.pwr := (rfl)
@[simp] theorem State.onHsc_eng (s : State) (c : Nat) (g : HscCh → HscCh) : (s.onHsc c g).eng = s.eng := (rfl)
@[simp] theorem State.onHsc_tach (s : State) (c : Nat) (g : HscCh → HscCh) : (s.onHsc c g).tach = s.tach := (rfl)
@[simp] theorem State.onHsc_lan (s : State) (c : Nat) (g : HscCh → HscCh) : (s.onHsc c g).lan = s.lan := (rfl)
@[simp] theorem State.onHsc_wck (s : State) (c : Nat) (g : HscCh → HscCh) : (s.onHsc c g).wck = s.wck := (rfl)
@[simp] theorem State.onHsc_orx (s : State) (c : Nat) (g : HscCh → HscCh) : (s.onHsc c g).orx = s.orx := (rfl)
@[simp] theorem State.onHsc_ptp (s : State) (c : Nat) (g : HscCh → HscCh) : (s.onHsc c g).ptp = s.ptp := (rfl)
@[simp] theorem State.onHsc_ddc (s : State) (c : Nat) (g : HscCh → HscCh) : (s.onHsc c g).ddc = s.ddc := (rfl)
@[simp] theorem State.onHsc_phx (s : State) (c : Nat) (g : HscCh → HscCh) : (s.onHsc c g).phx = s.phx := (rfl)
@[simp] theorem State.onHsc_twn (s : State) (c : Nat) (g : HscCh → HscCh) : (s.onHsc c g).twn = s.twn := (rfl)
@[simp] theorem State.onHsc_aux (s : State) (c : Nat) (g : HscCh → HscCh) : (s.onHsc c g).aux = s.aux := (rfl)
@[simp] theorem State.onHsc_memc (s : State) (c : Nat) (g : HscCh → HscCh) : (s.onHsc c g).memc = s.memc := (rfl)
@[simp] theorem State.onHsc_cru (s : State) (c : Nat) (g : HscCh → HscCh) : (s.onHsc c g).cru = s.cru := (rfl)
@[simp] theorem State.onHsc_net (s : State) (c : Nat) (g : HscCh → HscCh) : (s.onHsc c g).net = s.net := (rfl)
@[simp] theorem State.onHsc_tx (s : State) (c : Nat) (g : HscCh → HscCh) : (s.onHsc c g).tx = s.tx := (rfl)
@[simp] theorem State.onHsc_resp (s : State) (c : Nat) (g : HscCh → HscCh) : (s.onHsc c g).resp = s.resp := (rfl)
@[simp] theorem State.onHsc_free (s : State) (c : Nat) (g : HscCh → HscCh) : (s.onHsc c g).free = s.free := (rfl)

@[simp] theorem State.onPath_now (s : State) (c b : Nat) (g : DdcPath → DdcPath) : (s.onPath c b g).now = s.now := (rfl)
@[simp] theorem State.onPath_pending (s : State) (c b : Nat) (g : DdcPath → DdcPath) : (s.onPath c b g).pending = s.pending := (rfl)
@[simp] theorem State.onPath_fixed (s : State) (c b : Nat) (g : DdcPath → DdcPath) : (s.onPath c b g).fixed = s.fixed := (rfl)
@[simp] theorem State.onPath_regs (s : State) (c b : Nat) (g : DdcPath → DdcPath) : (s.onPath c b g).regs = s.regs := (rfl)
@[simp] theorem State.onPath_sys (s : State) (c b : Nat) (g : DdcPath → DdcPath) : (s.onPath c b g).sys = s.sys := (rfl)
@[simp] theorem State.onPath_boot (s : State) (c b : Nat) (g : DdcPath → DdcPath) : (s.onPath c b g).boot = s.boot := (rfl)
@[simp] theorem State.onPath_mem (s : State) (c b : Nat) (g : DdcPath → DdcPath) : (s.onPath c b g).mem = s.mem := (rfl)
@[simp] theorem State.onPath_que (s : State) (c b : Nat) (g : DdcPath → DdcPath) : (s.onPath c b g).que = s.que := (rfl)
@[simp] theorem State.onPath_pwr (s : State) (c b : Nat) (g : DdcPath → DdcPath) : (s.onPath c b g).pwr = s.pwr := (rfl)
@[simp] theorem State.onPath_eng (s : State) (c b : Nat) (g : DdcPath → DdcPath) : (s.onPath c b g).eng = s.eng := (rfl)
@[simp] theorem State.onPath_tach (s : State) (c b : Nat) (g : DdcPath → DdcPath) : (s.onPath c b g).tach = s.tach := (rfl)
@[simp] theorem State.onPath_lan (s : State) (c b : Nat) (g : DdcPath → DdcPath) : (s.onPath c b g).lan = s.lan := (rfl)
@[simp] theorem State.onPath_wck (s : State) (c b : Nat) (g : DdcPath → DdcPath) : (s.onPath c b g).wck = s.wck := (rfl)
@[simp] theorem State.onPath_orx (s : State) (c b : Nat) (g : DdcPath → DdcPath) : (s.onPath c b g).orx = s.orx := (rfl)
@[simp] theorem State.onPath_hsc (s : State) (c b : Nat) (g : DdcPath → DdcPath) : (s.onPath c b g).hsc = s.hsc := (rfl)
@[simp] theorem State.onPath_ptp (s : State) (c b : Nat) (g : DdcPath → DdcPath) : (s.onPath c b g).ptp = s.ptp := (rfl)
@[simp] theorem State.onPath_phx (s : State) (c b : Nat) (g : DdcPath → DdcPath) : (s.onPath c b g).phx = s.phx := (rfl)
@[simp] theorem State.onPath_twn (s : State) (c b : Nat) (g : DdcPath → DdcPath) : (s.onPath c b g).twn = s.twn := (rfl)
@[simp] theorem State.onPath_aux (s : State) (c b : Nat) (g : DdcPath → DdcPath) : (s.onPath c b g).aux = s.aux := (rfl)
@[simp] theorem State.onPath_memc (s : State) (c b : Nat) (g : DdcPath → DdcPath) : (s.onPath c b g).memc = s.memc := (rfl)
@[simp] theorem State.onPath_cru (s : State) (c b : Nat) (g : DdcPath → DdcPath) : (s.onPath c b g).cru = s.cru := (rfl)
@[simp] theorem State.onPath_net (s : State) (c b : Nat) (g : DdcPath → DdcPath) : (s.onPath c b g).net = s.net := (rfl)
@[simp] theorem State.onPath_tx (s : State) (c b : Nat) (g : DdcPath → DdcPath) : (s.onPath c b g).tx = s.tx := (rfl)
@[simp] theorem State.onPath_resp (s : State) (c b : Nat) (g : DdcPath → DdcPath) : (s.onPath c b g).resp = s.resp := (rfl)
@[simp] theorem State.onPath_free (s : State) (c b : Nat) (g : DdcPath → DdcPath) : (s.onPath c b g).free = s.free := (rfl)

@[simp] theorem State.onPhx_now (s : State) (n : Nat) (g : PhxLane → PhxLane) : (s.onPhx n g).now = s.now := (rfl)
@[simp] theorem State.onPhx_pending (s : State) (n : Nat) (g : PhxLane → PhxLane) : (s.onPhx n g).pending = s.pending := (rfl)
@[simp] theorem State.onPhx_fixed (s : State) (n : Nat) (g : PhxLane → PhxLane) : (s.onPhx n g).fixed = s.fixed := (rfl)
@[simp] theorem State.onPhx_regs (s : State) (n : Nat) (g : PhxLane → PhxLane) : (s.onPhx n g).regs = s.regs := (rfl)
@[simp] theorem State.onPhx_sys (s : State) (n : Nat) (g : PhxLane → PhxLane) : (s.onPhx n g).sys = s.sys := (rfl)
@[simp] theorem State.onPhx_boot (s : State) (n : Nat) (g : PhxLane → PhxLane) : (s.onPhx n g).boot = s.boot := (rfl)
@[simp] theorem State.onPhx_mem (s : State) (n : Nat) (g : PhxLane → PhxLane) : (s.onPhx n g).mem = s.mem := (rfl)
@[simp] theorem State.onPhx_que (s : State) (n : Nat) (g : PhxLane → PhxLane) : (s.onPhx n g).que = s.que := (rfl)
@[simp] theorem State.onPhx_pwr (s : State) (n : Nat) (g : PhxLane → PhxLane) : (s.onPhx n g).pwr = s.pwr := (rfl)
@[simp] theorem State.onPhx_eng (s : State) (n : Nat) (g : PhxLane → PhxLane) : (s.onPhx n g).eng = s.eng := (rfl)
@[simp] theorem State.onPhx_tach (s : State) (n : Nat) (g : PhxLane → PhxLane) : (s.onPhx n g).tach = s.tach := (rfl)
@[simp] theorem State.onPhx_lan (s : State) (n : Nat) (g : PhxLane → PhxLane) : (s.onPhx n g).lan = s.lan := (rfl)
@[simp] theorem State.onPhx_wck (s : State) (n : Nat) (g : PhxLane → PhxLane) : (s.onPhx n g).wck = s.wck := (rfl)
@[simp] theorem State.onPhx_orx (s : State) (n : Nat) (g : PhxLane → PhxLane) : (s.onPhx n g).orx = s.orx := (rfl)
@[simp] theorem State.onPhx_hsc (s : State) (n : Nat) (g : PhxLane → PhxLane) : (s.onPhx n g).hsc = s.hsc := (rfl)
@[simp] theorem State.onPhx_ptp (s : State) (n : Nat) (g : PhxLane → PhxLane) : (s.onPhx n g).ptp = s.ptp := (rfl)
@[simp] theorem State.onPhx_ddc (s : State) (n : Nat) (g : PhxLane → PhxLane) : (s.onPhx n g).ddc = s.ddc := (rfl)
@[simp] theorem State.onPhx_twn (s : State) (n : Nat) (g : PhxLane → PhxLane) : (s.onPhx n g).twn = s.twn := (rfl)
@[simp] theorem State.onPhx_aux (s : State) (n : Nat) (g : PhxLane → PhxLane) : (s.onPhx n g).aux = s.aux := (rfl)
@[simp] theorem State.onPhx_memc (s : State) (n : Nat) (g : PhxLane → PhxLane) : (s.onPhx n g).memc = s.memc := (rfl)
@[simp] theorem State.onPhx_cru (s : State) (n : Nat) (g : PhxLane → PhxLane) : (s.onPhx n g).cru = s.cru := (rfl)
@[simp] theorem State.onPhx_net (s : State) (n : Nat) (g : PhxLane → PhxLane) : (s.onPhx n g).net = s.net := (rfl)
@[simp] theorem State.onPhx_tx (s : State) (n : Nat) (g : PhxLane → PhxLane) : (s.onPhx n g).tx = s.tx := (rfl)
@[simp] theorem State.onPhx_resp (s : State) (n : Nat) (g : PhxLane → PhxLane) : (s.onPhx n g).resp = s.resp := (rfl)
@[simp] theorem State.onPhx_free (s : State) (n : Nat) (g : PhxLane → PhxLane) : (s.onPhx n g).free = s.free := (rfl)

@[simp] theorem State.onTach_now (s : State) (k : Nat) (g : Tach → Tach) : (s.onTach k g).now = s.now := (rfl)
@[simp] theorem State.onTach_pending (s : State) (k : Nat) (g : Tach → Tach) : (s.onTach k g).pending = s.pending := (rfl)
@[simp] theorem State.onTach_fixed (s : State) (k : Nat) (g : Tach → Tach) : (s.onTach k g).fixed = s.fixed := (rfl)
@[simp] theorem State.onTach_regs (s : State) (k : Nat) (g : Tach → Tach) : (s.onTach k g).regs = s.regs := (rfl)
@[simp] theorem State.onTach_sys (s : State) (k : Nat) (g : Tach → Tach) : (s.onTach k g).sys = s.sys := (rfl)
@[simp] theorem State.onTach_boot (s : State) (k : Nat) (g : Tach → Tach) : (s.onTach k g).boot = s.boot := (rfl)
@[simp] theorem State.onTach_mem (s : State) (k : Nat) (g : Tach → Tach) : (s.onTach k g).mem = s.mem := (rfl)
@[simp] theorem State.onTach_que (s : State) (k : Nat) (g : Tach → Tach) : (s.onTach k g).que = s.que := (rfl)
@[simp] theorem State.onTach_pwr (s : State) (k : Nat) (g : Tach → Tach) : (s.onTach k g).pwr = s.pwr := (rfl)
@[simp] theorem State.onTach_eng (s : State) (k : Nat) (g : Tach → Tach) : (s.onTach k g).eng = s.eng := (rfl)
@[simp] theorem State.onTach_lan (s : State) (k : Nat) (g : Tach → Tach) : (s.onTach k g).lan = s.lan := (rfl)
@[simp] theorem State.onTach_wck (s : State) (k : Nat) (g : Tach → Tach) : (s.onTach k g).wck = s.wck := (rfl)
@[simp] theorem State.onTach_orx (s : State) (k : Nat) (g : Tach → Tach) : (s.onTach k g).orx = s.orx := (rfl)
@[simp] theorem State.onTach_hsc (s : State) (k : Nat) (g : Tach → Tach) : (s.onTach k g).hsc = s.hsc := (rfl)
@[simp] theorem State.onTach_ptp (s : State) (k : Nat) (g : Tach → Tach) : (s.onTach k g).ptp = s.ptp := (rfl)
@[simp] theorem State.onTach_ddc (s : State) (k : Nat) (g : Tach → Tach) : (s.onTach k g).ddc = s.ddc := (rfl)
@[simp] theorem State.onTach_phx (s : State) (k : Nat) (g : Tach → Tach) : (s.onTach k g).phx = s.phx := (rfl)
@[simp] theorem State.onTach_twn (s : State) (k : Nat) (g : Tach → Tach) : (s.onTach k g).twn = s.twn := (rfl)
@[simp] theorem State.onTach_aux (s : State) (k : Nat) (g : Tach → Tach) : (s.onTach k g).aux = s.aux := (rfl)
@[simp] theorem State.onTach_memc (s : State) (k : Nat) (g : Tach → Tach) : (s.onTach k g).memc = s.memc := (rfl)
@[simp] theorem State.onTach_cru (s : State) (k : Nat) (g : Tach → Tach) : (s.onTach k g).cru = s.cru := (rfl)
@[simp] theorem State.onTach_net (s : State) (k : Nat) (g : Tach → Tach) : (s.onTach k g).net = s.net := (rfl)
@[simp] theorem State.onTach_tx (s : State) (k : Nat) (g : Tach → Tach) : (s.onTach k g).tx = s.tx := (rfl)
@[simp] theorem State.onTach_resp (s : State) (k : Nat) (g : Tach → Tach) : (s.onTach k g).resp = s.resp := (rfl)
@[simp] theorem State.onTach_free (s : State) (k : Nat) (g : Tach → Tach) : (s.onTach k g).free = s.free := (rfl)

@[simp] theorem State.onAux_now (s : State) (g : Aux → Aux) : (s.onAux g).now = s.now := (rfl)
@[simp] theorem State.onAux_pending (s : State) (g : Aux → Aux) : (s.onAux g).pending = s.pending := (rfl)
@[simp] theorem State.onAux_fixed (s : State) (g : Aux → Aux) : (s.onAux g).fixed = s.fixed := (rfl)
@[simp] theorem State.onAux_regs (s : State) (g : Aux → Aux) : (s.onAux g).regs = s.regs := (rfl)
@[simp] theorem State.onAux_sys (s : State) (g : Aux → Aux) : (s.onAux g).sys = s.sys := (rfl)
@[simp] theorem State.onAux_boot (s : State) (g : Aux → Aux) : (s.onAux g).boot = s.boot := (rfl)
@[simp] theorem State.onAux_mem (s : State) (g : Aux → Aux) : (s.onAux g).mem = s.mem := (rfl)
@[simp] theorem State.onAux_que (s : State) (g : Aux → Aux) : (s.onAux g).que = s.que := (rfl)
@[simp] theorem State.onAux_pwr (s : State) (g : Aux → Aux) : (s.onAux g).pwr = s.pwr := (rfl)
@[simp] theorem State.onAux_eng (s : State) (g : Aux → Aux) : (s.onAux g).eng = s.eng := (rfl)
@[simp] theorem State.onAux_tach (s : State) (g : Aux → Aux) : (s.onAux g).tach = s.tach := (rfl)
@[simp] theorem State.onAux_lan (s : State) (g : Aux → Aux) : (s.onAux g).lan = s.lan := (rfl)
@[simp] theorem State.onAux_wck (s : State) (g : Aux → Aux) : (s.onAux g).wck = s.wck := (rfl)
@[simp] theorem State.onAux_orx (s : State) (g : Aux → Aux) : (s.onAux g).orx = s.orx := (rfl)
@[simp] theorem State.onAux_hsc (s : State) (g : Aux → Aux) : (s.onAux g).hsc = s.hsc := (rfl)
@[simp] theorem State.onAux_ptp (s : State) (g : Aux → Aux) : (s.onAux g).ptp = s.ptp := (rfl)
@[simp] theorem State.onAux_ddc (s : State) (g : Aux → Aux) : (s.onAux g).ddc = s.ddc := (rfl)
@[simp] theorem State.onAux_phx (s : State) (g : Aux → Aux) : (s.onAux g).phx = s.phx := (rfl)
@[simp] theorem State.onAux_twn (s : State) (g : Aux → Aux) : (s.onAux g).twn = s.twn := (rfl)
@[simp] theorem State.onAux_memc (s : State) (g : Aux → Aux) : (s.onAux g).memc = s.memc := (rfl)
@[simp] theorem State.onAux_cru (s : State) (g : Aux → Aux) : (s.onAux g).cru = s.cru := (rfl)
@[simp] theorem State.onAux_net (s : State) (g : Aux → Aux) : (s.onAux g).net = s.net := (rfl)
@[simp] theorem State.onAux_tx (s : State) (g : Aux → Aux) : (s.onAux g).tx = s.tx := (rfl)
@[simp] theorem State.onAux_resp (s : State) (g : Aux → Aux) : (s.onAux g).resp = s.resp := (rfl)
@[simp] theorem State.onAux_free (s : State) (g : Aux → Aux) : (s.onAux g).free = s.free := (rfl)

@[simp] theorem State.onChan_now (s : State) (c : Nat) (g : MemChan → MemChan) : (s.onChan c g).now = s.now := (rfl)
@[simp] theorem State.onChan_pending (s : State) (c : Nat) (g : MemChan → MemChan) : (s.onChan c g).pending = s.pending := (rfl)
@[simp] theorem State.onChan_fixed (s : State) (c : Nat) (g : MemChan → MemChan) : (s.onChan c g).fixed = s.fixed := (rfl)
@[simp] theorem State.onChan_regs (s : State) (c : Nat) (g : MemChan → MemChan) : (s.onChan c g).regs = s.regs := (rfl)
@[simp] theorem State.onChan_sys (s : State) (c : Nat) (g : MemChan → MemChan) : (s.onChan c g).sys = s.sys := (rfl)
@[simp] theorem State.onChan_boot (s : State) (c : Nat) (g : MemChan → MemChan) : (s.onChan c g).boot = s.boot := (rfl)
@[simp] theorem State.onChan_mem (s : State) (c : Nat) (g : MemChan → MemChan) : (s.onChan c g).mem = s.mem := (rfl)
@[simp] theorem State.onChan_que (s : State) (c : Nat) (g : MemChan → MemChan) : (s.onChan c g).que = s.que := (rfl)
@[simp] theorem State.onChan_pwr (s : State) (c : Nat) (g : MemChan → MemChan) : (s.onChan c g).pwr = s.pwr := (rfl)
@[simp] theorem State.onChan_eng (s : State) (c : Nat) (g : MemChan → MemChan) : (s.onChan c g).eng = s.eng := (rfl)
@[simp] theorem State.onChan_tach (s : State) (c : Nat) (g : MemChan → MemChan) : (s.onChan c g).tach = s.tach := (rfl)
@[simp] theorem State.onChan_lan (s : State) (c : Nat) (g : MemChan → MemChan) : (s.onChan c g).lan = s.lan := (rfl)
@[simp] theorem State.onChan_wck (s : State) (c : Nat) (g : MemChan → MemChan) : (s.onChan c g).wck = s.wck := (rfl)
@[simp] theorem State.onChan_orx (s : State) (c : Nat) (g : MemChan → MemChan) : (s.onChan c g).orx = s.orx := (rfl)
@[simp] theorem State.onChan_hsc (s : State) (c : Nat) (g : MemChan → MemChan) : (s.onChan c g).hsc = s.hsc := (rfl)
@[simp] theorem State.onChan_ptp (s : State) (c : Nat) (g : MemChan → MemChan) : (s.onChan c g).ptp = s.ptp := (rfl)
@[simp] theorem State.onChan_ddc (s : State) (c : Nat) (g : MemChan → MemChan) : (s.onChan c g).ddc = s.ddc := (rfl)
@[simp] theorem State.onChan_phx (s : State) (c : Nat) (g : MemChan → MemChan) : (s.onChan c g).phx = s.phx := (rfl)
@[simp] theorem State.onChan_twn (s : State) (c : Nat) (g : MemChan → MemChan) : (s.onChan c g).twn = s.twn := (rfl)
@[simp] theorem State.onChan_aux (s : State) (c : Nat) (g : MemChan → MemChan) : (s.onChan c g).aux = s.aux := (rfl)
@[simp] theorem State.onChan_cru (s : State) (c : Nat) (g : MemChan → MemChan) : (s.onChan c g).cru = s.cru := (rfl)
@[simp] theorem State.onChan_net (s : State) (c : Nat) (g : MemChan → MemChan) : (s.onChan c g).net = s.net := (rfl)
@[simp] theorem State.onChan_tx (s : State) (c : Nat) (g : MemChan → MemChan) : (s.onChan c g).tx = s.tx := (rfl)
@[simp] theorem State.onChan_resp (s : State) (c : Nat) (g : MemChan → MemChan) : (s.onChan c g).resp = s.resp := (rfl)
@[simp] theorem State.onChan_free (s : State) (c : Nat) (g : MemChan → MemChan) : (s.onChan c g).free = s.free := (rfl)

@[simp] theorem State.onFeed_now (s : State) (b : Bool) (g : Feed → Feed) : (s.onFeed b g).now = s.now := (rfl)
@[simp] theorem State.onFeed_pending (s : State) (b : Bool) (g : Feed → Feed) : (s.onFeed b g).pending = s.pending := (rfl)
@[simp] theorem State.onFeed_fixed (s : State) (b : Bool) (g : Feed → Feed) : (s.onFeed b g).fixed = s.fixed := (rfl)
@[simp] theorem State.onFeed_regs (s : State) (b : Bool) (g : Feed → Feed) : (s.onFeed b g).regs = s.regs := (rfl)
@[simp] theorem State.onFeed_sys (s : State) (b : Bool) (g : Feed → Feed) : (s.onFeed b g).sys = s.sys := (rfl)
@[simp] theorem State.onFeed_boot (s : State) (b : Bool) (g : Feed → Feed) : (s.onFeed b g).boot = s.boot := (rfl)
@[simp] theorem State.onFeed_mem (s : State) (b : Bool) (g : Feed → Feed) : (s.onFeed b g).mem = s.mem := (rfl)
@[simp] theorem State.onFeed_que (s : State) (b : Bool) (g : Feed → Feed) : (s.onFeed b g).que = s.que := (rfl)
@[simp] theorem State.onFeed_eng (s : State) (b : Bool) (g : Feed → Feed) : (s.onFeed b g).eng = s.eng := (rfl)
@[simp] theorem State.onFeed_tach (s : State) (b : Bool) (g : Feed → Feed) : (s.onFeed b g).tach = s.tach := (rfl)
@[simp] theorem State.onFeed_lan (s : State) (b : Bool) (g : Feed → Feed) : (s.onFeed b g).lan = s.lan := (rfl)
@[simp] theorem State.onFeed_wck (s : State) (b : Bool) (g : Feed → Feed) : (s.onFeed b g).wck = s.wck := (rfl)
@[simp] theorem State.onFeed_orx (s : State) (b : Bool) (g : Feed → Feed) : (s.onFeed b g).orx = s.orx := (rfl)
@[simp] theorem State.onFeed_hsc (s : State) (b : Bool) (g : Feed → Feed) : (s.onFeed b g).hsc = s.hsc := (rfl)
@[simp] theorem State.onFeed_ptp (s : State) (b : Bool) (g : Feed → Feed) : (s.onFeed b g).ptp = s.ptp := (rfl)
@[simp] theorem State.onFeed_ddc (s : State) (b : Bool) (g : Feed → Feed) : (s.onFeed b g).ddc = s.ddc := (rfl)
@[simp] theorem State.onFeed_phx (s : State) (b : Bool) (g : Feed → Feed) : (s.onFeed b g).phx = s.phx := (rfl)
@[simp] theorem State.onFeed_twn (s : State) (b : Bool) (g : Feed → Feed) : (s.onFeed b g).twn = s.twn := (rfl)
@[simp] theorem State.onFeed_aux (s : State) (b : Bool) (g : Feed → Feed) : (s.onFeed b g).aux = s.aux := (rfl)
@[simp] theorem State.onFeed_memc (s : State) (b : Bool) (g : Feed → Feed) : (s.onFeed b g).memc = s.memc := (rfl)
@[simp] theorem State.onFeed_cru (s : State) (b : Bool) (g : Feed → Feed) : (s.onFeed b g).cru = s.cru := (rfl)
@[simp] theorem State.onFeed_net (s : State) (b : Bool) (g : Feed → Feed) : (s.onFeed b g).net = s.net := (rfl)
@[simp] theorem State.onFeed_tx (s : State) (b : Bool) (g : Feed → Feed) : (s.onFeed b g).tx = s.tx := (rfl)
@[simp] theorem State.onFeed_resp (s : State) (b : Bool) (g : Feed → Feed) : (s.onFeed b g).resp = s.resp := (rfl)
@[simp] theorem State.onFeed_free (s : State) (b : Bool) (g : Feed → Feed) : (s.onFeed b g).free = s.free := (rfl)

@[simp] theorem State.onTwn_now (s : State) (g : Twin → Twin) : (s.onTwn g).now = s.now := (rfl)
@[simp] theorem State.onTwn_pending (s : State) (g : Twin → Twin) : (s.onTwn g).pending = s.pending := (rfl)
@[simp] theorem State.onTwn_fixed (s : State) (g : Twin → Twin) : (s.onTwn g).fixed = s.fixed := (rfl)
@[simp] theorem State.onTwn_regs (s : State) (g : Twin → Twin) : (s.onTwn g).regs = s.regs := (rfl)
@[simp] theorem State.onTwn_sys (s : State) (g : Twin → Twin) : (s.onTwn g).sys = s.sys := (rfl)
@[simp] theorem State.onTwn_boot (s : State) (g : Twin → Twin) : (s.onTwn g).boot = s.boot := (rfl)
@[simp] theorem State.onTwn_mem (s : State) (g : Twin → Twin) : (s.onTwn g).mem = s.mem := (rfl)
@[simp] theorem State.onTwn_que (s : State) (g : Twin → Twin) : (s.onTwn g).que = s.que := (rfl)
@[simp] theorem State.onTwn_pwr (s : State) (g : Twin → Twin) : (s.onTwn g).pwr = s.pwr := (rfl)
@[simp] theorem State.onTwn_eng (s : State) (g : Twin → Twin) : (s.onTwn g).eng = s.eng := (rfl)
@[simp] theorem State.onTwn_tach (s : State) (g : Twin → Twin) : (s.onTwn g).tach = s.tach := (rfl)
@[simp] theorem State.onTwn_lan (s : State) (g : Twin → Twin) : (s.onTwn g).lan = s.lan := (rfl)
@[simp] theorem State.onTwn_wck (s : State) (g : Twin → Twin) : (s.onTwn g).wck = s.wck := (rfl)
@[simp] theorem State.onTwn_orx (s : State) (g : Twin → Twin) : (s.onTwn g).orx = s.orx := (rfl)
@[simp] theorem State.onTwn_hsc (s : State) (g : Twin → Twin) : (s.onTwn g).hsc = s.hsc := (rfl)
@[simp] theorem State.onTwn_ptp (s : State) (g : Twin → Twin) : (s.onTwn g).ptp = s.ptp := (rfl)
@[simp] theorem State.onTwn_ddc (s : State) (g : Twin → Twin) : (s.onTwn g).ddc = s.ddc := (rfl)
@[simp] theorem State.onTwn_phx (s : State) (g : Twin → Twin) : (s.onTwn g).phx = s.phx := (rfl)
@[simp] theorem State.onTwn_aux (s : State) (g : Twin → Twin) : (s.onTwn g).aux = s.aux := (rfl)
@[simp] theorem State.onTwn_memc (s : State) (g : Twin → Twin) : (s.onTwn g).memc = s.memc := (rfl)
@[simp] theorem State.onTwn_cru (s : State) (g : Twin → Twin) : (s.onTwn g).cru = s.cru := (rfl)
@[simp] theorem State.onTwn_net (s : State) (g : Twin → Twin) : (s.onTwn g).net = s.net := (rfl)
@[simp] theorem State.onTwn_tx (s : State) (g : Twin → Twin) : (s.onTwn g).tx = s.tx := (rfl)
@[simp] theorem State.onTwn_resp (s : State) (g : Twin → Twin) : (s.onTwn g).resp = s.resp := (rfl)
@[simp] theorem State.onTwn_free (s : State) (g : Twin → Twin) : (s.onTwn g).free = s.free := (rfl)

@[simp] theorem State.begin_now (s : State) (t : Nat) : (s.begin t).now = max s.now t := (rfl)
@[simp] theorem State.carry_now (s0 s : State) : (s0.carry s).now = s0.now := (rfl)
@[simp] theorem State.carry_pending (s0 s : State) : (s0.carry s).pending = s0.pending := (rfl)
@[simp] theorem State.carry_fixed (s0 s : State) : (s0.carry s).fixed = s0.fixed := (rfl)
@[simp] theorem State.withPending_pending (s : State) (cs : List Instr) : (s.withPending cs).pending = cs := (rfl)
@[simp] theorem State.drawn_free (s : State) : (s.drawn).free = s.free + 1 := (rfl)

end Sys2Proof.Machine
end

