-- ==== Sys2Proof/Laws/Tables.lean ====
section
/-!
SUPPORT. Sparse tables: what a read finds after a write, and the canonical form that a write keeps.
-/

namespace Sys2Proof.Machine

theorem sget_filter_ne {β : Type} (d : β) (l : List (Nat × β)) (a b : Nat) (h : b ≠ a) :
    sget d (l.filter (fun c => c.1 ≠ a)) b = sget d l b := by
  induction l with
  | nil => rfl
  | cons c r ih =>
    by_cases hc : c.1 = a
    · have hb : c.1 ≠ b := fun e => h (e ▸ hc)
      rw [List.filter_cons_of_neg (by simp [hc]), ih]
      simp [sget, hb]
    · rw [List.filter_cons_of_pos (by simp [hc])]
      simp only [sget, ih]

theorem sget_filter_self {β : Type} (d : β) (l : List (Nat × β)) (a : Nat) : sget d (l.filter (fun c => c.1 ≠ a)) a = d := by
  induction l with
  | nil => rfl
  | cons c r ih =>
    by_cases hc : c.1 = a
    · rw [List.filter_cons_of_neg (by simp [hc]), ih]
    · rw [List.filter_cons_of_pos (by simp [hc])]
      simp only [sget, hc, if_false, ih]

theorem sget_sinsert {β : Type} (d v : β) (l : List (Nat × β)) (a b : Nat) (hn : ∀ c ∈ l, c.1 ≠ a) :
    sget d (sinsert a v l) b = if b = a then v else sget d l b := by
  induction l with
  | nil => by_cases h : a = b <;> simp [sinsert, sget, h, eq_comm]
  | cons c r ih =>
    have hc : c.1 ≠ a := hn c (by simp)
    have hr := ih (fun x hx => hn x (by simp [hx]))
    unfold sinsert
    split
    · by_cases h : a = b
      · simp [sget, h]
      · simp [sget, h, Ne.symm h]
    · by_cases h : c.1 = b
      · have hb : b ≠ a := h ▸ hc
        simp [sget, h, hb]
      · simp [sget, h, hr]

variable {β : Type} [DecidableEq β]

/-- A read after a write: the value written at its address, what was there elsewhere. -/
theorem sget_sput (d : β) (l : List (Nat × β)) (a b : Nat) (v : β) : sget d (sput d l a v) b = if b = a then v else sget d l b := by
  unfold sput
  by_cases hv : v = d
  · by_cases h : b = a
    · simpa [hv, h] using sget_filter_self d l a
    · simpa [hv, h] using sget_filter_ne d l a b h
  · have hn : ∀ c ∈ l.filter (fun c => c.1 ≠ a), c.1 ≠ a := by simp
    have := sget_sinsert d v (l.filter (fun c => c.1 ≠ a)) a b hn
    by_cases h : b = a
    · rw [if_neg hv, this, if_pos h, if_pos h]
    · rw [if_neg hv, this, if_neg h, if_neg h]
      exact sget_filter_ne d l a b h

/-- A write leaves every other address as it was, whatever an unlisted one reads as. -/
theorem sget_sput_ne (d d' : β) (l : List (Nat × β)) (a b : Nat) (v : β) (h : b ≠ a) : sget d' (sput d l a v) b = sget d' l b := by
  unfold sput
  by_cases hv : v = d
  · simpa [hv] using sget_filter_ne d' l a b h
  · have hn : ∀ c ∈ l.filter (fun c => c.1 ≠ a), c.1 ≠ a := by simp
    have := sget_sinsert d' v (l.filter (fun c => c.1 ≠ a)) a b hn
    rw [if_neg hv, this, if_neg h]
    exact sget_filter_ne d' l a b h

theorem swf_filter (d : β) (l : List (Nat × β)) (p : Nat × β → Bool) (h : swf d l = true) : swf d (l.filter p) = true := by
  induction l with
  | nil => rfl
  | cons c r ih =>
    simp only [swf, Bool.and_eq_true, List.all_eq_true, decide_eq_true_eq] at h ih
    by_cases hp : p c = true
    · simp only [List.filter_cons, hp, if_true, swf, Bool.and_eq_true, List.all_eq_true, decide_eq_true_eq]
      exact ⟨⟨h.1.1, fun x hx => h.1.2 x (List.mem_filter.mp hx).1⟩, ih h.2⟩
    · simpa [hp] using ih h.2

omit [DecidableEq β] in
theorem mem_sinsert (v : β) (l : List (Nat × β)) (a : Nat) (x : Nat × β) (hx : x ∈ sinsert a v l) : x = (a, v) ∨ x ∈ l := by
  induction l with
  | nil => simpa [sinsert] using hx
  | cons c r ih =>
    by_cases hlt : a < c.1
    · simpa [sinsert, hlt] using hx
    · simp only [sinsert, hlt, if_false, List.mem_cons] at hx
      rcases hx with hx | hx
      · exact Or.inr (by simp [hx])
      · rcases ih hx with h | h
        · exact Or.inl h
        · exact Or.inr (by simp [h])

theorem swf_sinsert (d v : β) (l : List (Nat × β)) (a : Nat) (hv : v ≠ d) (hn : ∀ c ∈ l, c.1 ≠ a) (h : swf d l = true) :
    swf d (sinsert a v l) = true := by
  induction l with
  | nil => simp [sinsert, swf, hv]
  | cons c r ih =>
    simp only [swf, Bool.and_eq_true, List.all_eq_true, decide_eq_true_eq] at h
    have hc : c.1 ≠ a := hn c (by simp)
    by_cases hlt : a < c.1
    · simp only [sinsert, hlt, if_true, swf, Bool.and_eq_true, List.all_eq_true, decide_eq_true_eq]
      refine ⟨⟨hv, fun x hx => ?_⟩, h⟩
      rcases List.mem_cons.mp hx with rfl | hx
      · exact hlt
      · exact Nat.lt_trans hlt (h.1.2 x hx)
    · simp only [sinsert, hlt, if_false, swf, Bool.and_eq_true, List.all_eq_true, decide_eq_true_eq]
      refine ⟨⟨h.1.1, fun x hx => ?_⟩, ih (fun y hy => hn y (by simp [hy])) h.2⟩
      rcases mem_sinsert v r a x hx with rfl | hx
      · exact Nat.lt_of_le_of_ne (Nat.le_of_not_lt hlt) hc
      · exact h.1.2 x hx

/-- A write keeps the canonical form. -/
theorem swf_sput (d : β) (l : List (Nat × β)) (a : Nat) (v : β) (h : swf d l = true) : swf d (sput d l a v) = true := by
  unfold sput
  by_cases hv : v = d
  · simpa [hv] using swf_filter d l _ h
  · simp only [if_neg hv]
    exact swf_sinsert d v _ a hv (by simp) (swf_filter d l _ h)

end Sys2Proof.Machine
end

