-- ==== Sys2Proof/Laws/Registers.lean ====
section
/-!
SUPPORT. The register store: what a value or a field reads after another is written.
-/

namespace Sys2Proof.Machine

@[simp] theorem State.live_setLive_same (s : State) (k : Nat) (w : Word) : (s.setLive k w).live k = w := by
  simp [State.live, State.setLive, sget_sput]

theorem State.live_setLive_other (s : State) (k j : Nat) (w : Word) (h : j ≠ k) : (s.setLive k w).live j = s.live j := by
  simp [State.live, State.setLive, sget_sput_ne _ _ _ _ _ _ h]

@[simp] theorem State.staged_setLive (s : State) (k a : Nat) (w : Word) : (s.setLive k w).staged a = s.staged a := (rfl)
@[simp] theorem State.pend_setLive (s : State) (k a : Nat) (w : Word) : (s.setLive k w).pend a = s.pend a := (rfl)
@[simp] theorem State.live_setStaged (s : State) (k a : Nat) (w : Word) : (s.setStaged a w).live k = s.live k := (rfl)
@[simp] theorem State.live_setPend (s : State) (k a : Nat) (w : Word) : (s.setPend a w).live k = s.live k := (rfl)

@[simp] theorem State.staged_setStaged_same (s : State) (a : Nat) (w : Word) : (s.setStaged a w).staged a = w := by
  simp [State.staged, State.setStaged, sget_sput]

theorem State.staged_setStaged_other (s : State) (a b : Nat) (w : Word) (h : b ≠ a) : (s.setStaged a w).staged b = s.staged b := by
  simp [State.staged, State.setStaged, sget_sput_ne _ _ _ _ _ _ h]

/-- A field lies within a word. -/
def Fld.Fits (f : Fld) : Prop := f.lo ≤ f.hi ∧ f.hi ≤ 31

/-- A field reads what was written to it, cut to its width. -/
theorem State.fld_setFld_same (s : State) (f : Fld) (u v : Nat) (h : f.Fits) : (s.setFld f u v).fld f u = v % 2 ^ (f.hi + 1 - f.lo) := by
  simp [State.fld, State.setFld, bitsOf_withBits_same _ _ _ _ h.1 h.2]

/-- A field of another register keeps its value. -/
theorem State.fld_setFld_addr (s : State) (f g : Fld) (u w v : Nat) (h : g.at w ≠ f.at u) : (s.setFld f u v).fld g w = s.fld g w := by
  simp only [State.fld, State.setFld]
  rw [State.live_setLive_other _ _ _ _ h]

/-- Another field of the same register keeps its value. -/
theorem State.fld_setFld_bits (s : State) (f g : Fld) (u w v : Nat) (hf : f.Fits) (hd : g.hi < f.lo ∨ f.hi < g.lo) :
    (s.setFld f u v).fld g w = s.fld g w := by
  by_cases h : g.at w = f.at u
  · simp [State.fld, State.setFld, h, bitsOf_withBits_other _ _ _ _ _ _ hf.1 hf.2 hd]
  · exact State.fld_setFld_addr s f g u w v h

theorem State.flag_setFlag_same (s : State) (f : Fld) (u : Nat) (b : Bool) (h : f.Fits) : (s.setFlag f u b).flag f u = b := by
  have h2 : 1 < 2 ^ (f.hi + 1 - f.lo) := Nat.one_lt_two_pow (by have := h.1; omega)
  simp only [State.flag, State.setFlag, State.fld_setFld_same _ _ _ _ h]
  cases b
  · simp [b2n]
  · simp [b2n, Nat.mod_eq_of_lt h2]

@[simp] theorem State.live_begin (s : State) (t k : Nat) : (s.begin t).live k = s.live k := (rfl)
@[simp] theorem State.fld_begin (s : State) (t : Nat) (f : Fld) (u : Nat) : (s.begin t).fld f u = s.fld f u := (rfl)
@[simp] theorem State.flag_begin (s : State) (t : Nat) (f : Fld) (u : Nat) : (s.begin t).flag f u = s.flag f u := (rfl)
@[simp] theorem State.inReset_begin (s : State) (t : Nat) : (s.begin t).inReset = s.inReset := (rfl)
@[simp] theorem State.ticks_begin (s : State) (t : Nat) : (s.begin t).ticks = s.ticks := (rfl)
@[simp] theorem State.clocked_begin (s : State) (t : Nat) : (s.begin t).clocked = s.clocked := (rfl)

end Sys2Proof.Machine
end

