-- ==== Sys2Proof/Laws/Exec.lean ====
section
/-!
SUPPORT. What every command does: it takes its moment, and it carries the queue and the fuses through.
-/

namespace Sys2Proof.Machine

/-- A command of the clocked subsystems while the clocks run. -/
theorem clocked_run (t : Nat) (s : State) (f : State → State) (h : s.clocked = true) : clocked t s f = .next ((s.begin t).carry (f (s.begin t))) := by
  simp [clocked, h]

/-- A command of the clocked subsystems while the clocks are held changes the time alone. -/
theorem clocked_held (t : Nat) (s : State) (f : State → State) (h : s.clocked = false) : clocked t s f = .next (s.begin t) := by
  simp [clocked, h]

/-- A command of the units that a reset leaves at work, while the clocks run. -/
theorem ticking_run (t : Nat) (s : State) (f : State → State) (h : s.clocked = true) : ticking t s f = .next ((s.begin t).carry (f (s.begin t))) := by
  simp [ticking, State.ticks, h]

/-- The same command under a reset that holds the reset domain. -/
theorem ticking_reset (t : Nat) (s : State) (f : State → State) (h : s.inReset = true) : ticking t s f = .next ((s.begin t).carry (f (s.begin t))) := by
  simp [ticking, State.ticks, h]

/-- The same command while the clocks are held changes the time alone. -/
theorem ticking_held (t : Nat) (s : State) (f : State → State) (h : s.ticks = false) : ticking t s f = .next (s.begin t) := by
  simp [ticking, h]

/-- While the divided clocks run, no reset holds the reset domain. -/
theorem State.not_inReset (s : State) (h : s.clocked = true) : s.inReset = false := by
  simp only [State.clocked, decide_eq_true_eq] at h
  simp [State.inReset, h]

/-- A condition that holds. -/
@[simp] theorem State.only_true (s : State) (f : State → State) : s.only true f = f s := (rfl)

/-- A condition that fails. -/
@[simp] theorem State.only_false (s : State) (f : State → State) : s.only false f = s := (rfl)

theorem State.only_pos (s : State) (c : Bool) (f : State → State) (h : c = true) : s.only c f = f s := by simp [h]

/-- A state that already has the queue, the moment and the fuses. -/
theorem State.carry_of_eq (s0 s : State) (hn : s.now = s0.now) (hp : s.pending = s0.pending) (hf : s.fixed = s0.fixed) : s0.carry s = s := by
  cases s
  simp only at hn hp hf
  subst hn hp hf
  rfl

@[simp] theorem State.carry_self (s : State) : s.carry s = s := (rfl)

/-- An empty queue idles. -/
theorem step_idle (s : State) (h : s.pending = []) : step s = .next s := by simp [step, h]

end Sys2Proof.Machine
end

