-- ==== Sys2Proof/Laws/Reports.lean ====
section
/-!
SUPPORT. What memory writes, reports, refusals and clamps can change: each lemma names a field of State that the operation leaves alone.
-/

namespace Sys2Proof.Machine

@[simp] theorem State.eccClear_now (s : State) (t k n : Nat) : (s.eccClear t k n).now = s.now := (rfl)
@[simp] theorem State.eccClear_pending (s : State) (t k n : Nat) : (s.eccClear t k n).pending = s.pending := (rfl)
@[simp] theorem State.eccClear_fixed (s : State) (t k n : Nat) : (s.eccClear t k n).fixed = s.fixed := (rfl)
@[simp] theorem State.eccClear_regs (s : State) (t k n : Nat) : (s.eccClear t k n).regs = s.regs := (rfl)
@[simp] theorem State.eccClear_boot (s : State) (t k n : Nat) : (s.eccClear t k n).boot = s.boot := (rfl)
@[simp] theorem State.eccClear_mem (s : State) (t k n : Nat) : (s.eccClear t k n).mem = s.mem := (rfl)
@[simp] theorem State.eccClear_que (s : State) (t k n : Nat) : (s.eccClear t k n).que = s.que := (rfl)
@[simp] theorem State.eccClear_pwr (s : State) (t k n : Nat) : (s.eccClear t k n).pwr = s.pwr := (rfl)
@[simp] theorem State.eccClear_eng (s : State) (t k n : Nat) : (s.eccClear t k n).eng = s.eng := (rfl)
@[simp] theorem State.eccClear_tach (s : State) (t k n : Nat) : (s.eccClear t k n).tach = s.tach := (rfl)
@[simp] theorem State.eccClear_lan (s : State) (t k n : Nat) : (s.eccClear t k n).lan = s.lan := (rfl)
@[simp] theorem State.eccClear_wck (s : State) (t k n : Nat) : (s.eccClear t k n).wck = s.wck := (rfl)
@[simp] theorem State.eccClear_orx (s : State) (t k n : Nat) : (s.eccClear t k n).orx = s.orx := (rfl)
@[simp] theorem State.eccClear_hsc (s : State) (t k n : Nat) : (s.eccClear t k n).hsc = s.hsc := (rfl)
@[simp] theorem State.eccClear_ptp (s : State) (t k n : Nat) : (s.eccClear t k n).ptp = s.ptp := (rfl)
@[simp] theorem State.eccClear_ddc (s : State) (t k n : Nat) : (s.eccClear t k n).ddc = s.ddc := (rfl)
@[simp] theorem State.eccClear_phx (s : State) (t k n : Nat) : (s.eccClear t k n).phx = s.phx := (rfl)
@[simp] theorem State.eccClear_twn (s : State) (t k n : Nat) : (s.eccClear t k n).twn = s.twn := (rfl)
@[simp] theorem State.eccClear_aux (s : State) (t k n : Nat) : (s.eccClear t k n).aux = s.aux := (rfl)
@[simp] theorem State.eccClear_memc (s : State) (t k n : Nat) : (s.eccClear t k n).memc = s.memc := (rfl)
@[simp] theorem State.eccClear_cru (s : State) (t k n : Nat) : (s.eccClear t k n).cru = s.cru := (rfl)
@[simp] theorem State.eccClear_net (s : State) (t k n : Nat) : (s.eccClear t k n).net = s.net := (rfl)
@[simp] theorem State.eccClear_tx (s : State) (t k n : Nat) : (s.eccClear t k n).tx = s.tx := (rfl)
@[simp] theorem State.eccClear_resp (s : State) (t k n : Nat) : (s.eccClear t k n).resp = s.resp := (rfl)
@[simp] theorem State.eccClear_free (s : State) (t k n : Nat) : (s.eccClear t k n).free = s.free := (rfl)

@[simp] theorem State.eccStrike_now (s : State) (t b k n : Nat) : (s.eccStrike t b k n).now = s.now := by unfold State.eccStrike; split <;> (try split) <;> rfl
@[simp] theorem State.eccStrike_pending (s : State) (t b k n : Nat) : (s.eccStrike t b k n).pending = s.pending := by unfold State.eccStrike; split <;> (try split) <;> rfl
@[simp] theorem State.eccStrike_fixed (s : State) (t b k n : Nat) : (s.eccStrike t b k n).fixed = s.fixed := by unfold State.eccStrike; split <;> (try split) <;> rfl
@[simp] theorem State.eccStrike_regs (s : State) (t b k n : Nat) : (s.eccStrike t b k n).regs = s.regs := by unfold State.eccStrike; split <;> (try split) <;> rfl
@[simp] theorem State.eccStrike_boot (s : State) (t b k n : Nat) : (s.eccStrike t b k n).boot = s.boot := by unfold State.eccStrike; split <;> (try split) <;> rfl
@[simp] theorem State.eccStrike_mem (s : State) (t b k n : Nat) : (s.eccStrike t b k n).mem = s.mem := by unfold State.eccStrike; split <;> (try split) <;> rfl
@[simp] theorem State.eccStrike_que (s : State) (t b k n : Nat) : (s.eccStrike t b k n).que = s.que := by unfold State.eccStrike; split <;> (try split) <;> rfl
@[simp] theorem State.eccStrike_pwr (s : State) (t b k n : Nat) : (s.eccStrike t b k n).pwr = s.pwr := by unfold State.eccStrike; split <;> (try split) <;> rfl
@[simp] theorem State.eccStrike_eng (s : State) (t b k n : Nat) : (s.eccStrike t b k n).eng = s.eng := by unfold State.eccStrike; split <;> (try split) <;> rfl
@[simp] theorem State.eccStrike_tach (s : State) (t b k n : Nat) : (s.eccStrike t b k n).tach = s.tach := by unfold State.eccStrike; split <;> (try split) <;> rfl
@[simp] theorem State.eccStrike_lan (s : State) (t b k n : Nat) : (s.eccStrike t b k n).lan = s.lan := by unfold State.eccStrike; split <;> (try split) <;> rfl
@[simp] theorem State.eccStrike_wck (s : State) (t b k n : Nat) : (s.eccStrike t b k n).wck = s.wck := by unfold State.eccStrike; split <;> (try split) <;> rfl
@[simp] theorem State.eccStrike_orx (s : State) (t b k n : Nat) : (s.eccStrike t b k n).orx = s.orx := by unfold State.eccStrike; split <;> (try split) <;> rfl
@[simp] theorem State.eccStrike_hsc (s : State) (t b k n : Nat) : (s.eccStrike t b k n).hsc = s.hsc := by unfold State.eccStrike; split <;> (try split) <;> rfl
@[simp] theorem State.eccStrike_ptp (s : State) (t b k n : Nat) : (s.eccStrike t b k n).ptp = s.ptp := by unfold State.eccStrike; split <;> (try split) <;> rfl
@[simp] theorem State.eccStrike_ddc (s : State) (t b k n : Nat) : (s.eccStrike t b k n).ddc = s.ddc := by unfold State.eccStrike; split <;> (try split) <;> rfl
@[simp] theorem State.eccStrike_phx (s : State) (t b k n : Nat) : (s.eccStrike t b k n).phx = s.phx := by unfold State.eccStrike; split <;> (try split) <;> rfl
@[simp] theorem State.eccStrike_twn (s : State) (t b k n : Nat) : (s.eccStrike t b k n).twn = s.twn := by unfold State.eccStrike; split <;> (try split) <;> rfl
@[simp] theorem State.eccStrike_aux (s : State) (t b k n : Nat) : (s.eccStrike t b k n).aux = s.aux := by unfold State.eccStrike; split <;> (try split) <;> rfl
@[simp] theorem State.eccStrike_memc (s : State) (t b k n : Nat) : (s.eccStrike t b k n).memc = s.memc := by unfold State.eccStrike; split <;> (try split) <;> rfl
@[simp] theorem State.eccStrike_cru (s : State) (t b k n : Nat) : (s.eccStrike t b k n).cru = s.cru := by unfold State.eccStrike; split <;> (try split) <;> rfl
@[simp] theorem State.eccStrike_net (s : State) (t b k n : Nat) : (s.eccStrike t b k n).net = s.net := by unfold State.eccStrike; split <;> (try split) <;> rfl
@[simp] theorem State.eccStrike_tx (s : State) (t b k n : Nat) : (s.eccStrike t b k n).tx = s.tx := by unfold State.eccStrike; split <;> (try split) <;> rfl
@[simp] theorem State.eccStrike_resp (s : State) (t b k n : Nat) : (s.eccStrike t b k n).resp = s.resp := by unfold State.eccStrike; split <;> (try split) <;> rfl
@[simp] theorem State.eccStrike_free (s : State) (t b k n : Nat) : (s.eccStrike t b k n).free = s.free := by unfold State.eccStrike; split <;> (try split) <;> rfl

@[simp] theorem State.eccOver_now (s : State) (t a n : Nat) (f : Fld) : (s.eccOver t a n f).now = s.now := by simp only [State.eccOver]; (repeat' split) <;> simp
@[simp] theorem State.eccOver_pending (s : State) (t a n : Nat) (f : Fld) : (s.eccOver t a n f).pending = s.pending := by simp only [State.eccOver]; (repeat' split) <;> simp
@[simp] theorem State.eccOver_fixed (s : State) (t a n : Nat) (f : Fld) : (s.eccOver t a n f).fixed = s.fixed := by simp only [State.eccOver]; (repeat' split) <;> simp
@[simp] theorem State.eccOver_boot (s : State) (t a n : Nat) (f : Fld) : (s.eccOver t a n f).boot = s.boot := by simp only [State.eccOver]; (repeat' split) <;> simp
@[simp] theorem State.eccOver_mem (s : State) (t a n : Nat) (f : Fld) : (s.eccOver t a n f).mem = s.mem := by simp only [State.eccOver]; (repeat' split) <;> simp
@[simp] theorem State.eccOver_que (s : State) (t a n : Nat) (f : Fld) : (s.eccOver t a n f).que = s.que := by simp only [State.eccOver]; (repeat' split) <;> simp
@[simp] theorem State.eccOver_pwr (s : State) (t a n : Nat) (f : Fld) : (s.eccOver t a n f).pwr = s.pwr := by simp only [State.eccOver]; (repeat' split) <;> simp
@[simp] theorem State.eccOver_eng (s : State) (t a n : Nat) (f : Fld) : (s.eccOver t a n f).eng = s.eng := by simp only [State.eccOver]; (repeat' split) <;> simp
@[simp] theorem State.eccOver_tach (s : State) (t a n : Nat) (f : Fld) : (s.eccOver t a n f).tach = s.tach := by simp only [State.eccOver]; (repeat' split) <;> simp
@[simp] theorem State.eccOver_lan (s : State) (t a n : Nat) (f : Fld) : (s.eccOver t a n f).lan = s.lan := by simp only [State.eccOver]; (repeat' split) <;> simp
@[simp] theorem State.eccOver_wck (s : State) (t a n : Nat) (f : Fld) : (s.eccOver t a n f).wck = s.wck := by simp only [State.eccOver]; (repeat' split) <;> simp
@[simp] theorem State.eccOver_orx (s : State) (t a n : Nat) (f : Fld) : (s.eccOver t a n f).orx = s.orx := by simp only [State.eccOver]; (repeat' split) <;> simp
@[simp] theorem State.eccOver_hsc (s : State) (t a n : Nat) (f : Fld) : (s.eccOver t a n f).hsc = s.hsc := by simp only [State.eccOver]; (repeat' split) <;> simp
@[simp] theorem State.eccOver_ptp (s : State) (t a n : Nat) (f : Fld) : (s.eccOver t a n f).ptp = s.ptp := by simp only [State.eccOver]; (repeat' split) <;> simp
@[simp] theorem State.eccOver_ddc (s : State) (t a n : Nat) (f : Fld) : (s.eccOver t a n f).ddc = s.ddc := by simp only [State.eccOver]; (repeat' split) <;> simp
@[simp] theorem State.eccOver_phx (s : State) (t a n : Nat) (f : Fld) : (s.eccOver t a n f).phx = s.phx := by simp only [State.eccOver]; (repeat' split) <;> simp
@[simp] theorem State.eccOver_twn (s : State) (t a n : Nat) (f : Fld) : (s.eccOver t a n f).twn = s.twn := by simp only [State.eccOver]; (repeat' split) <;> simp
@[simp] theorem State.eccOver_aux (s : State) (t a n : Nat) (f : Fld) : (s.eccOver t a n f).aux = s.aux := by simp only [State.eccOver]; (repeat' split) <;> simp
@[simp] theorem State.eccOver_memc (s : State) (t a n : Nat) (f : Fld) : (s.eccOver t a n f).memc = s.memc := by simp only [State.eccOver]; (repeat' split) <;> simp
@[simp] theorem State.eccOver_cru (s : State) (t a n : Nat) (f : Fld) : (s.eccOver t a n f).cru = s.cru := by simp only [State.eccOver]; (repeat' split) <;> simp
@[simp] theorem State.eccOver_net (s : State) (t a n : Nat) (f : Fld) : (s.eccOver t a n f).net = s.net := by simp only [State.eccOver]; (repeat' split) <;> simp
@[simp] theorem State.eccOver_tx (s : State) (t a n : Nat) (f : Fld) : (s.eccOver t a n f).tx = s.tx := by simp only [State.eccOver]; (repeat' split) <;> simp
@[simp] theorem State.eccOver_resp (s : State) (t a n : Nat) (f : Fld) : (s.eccOver t a n f).resp = s.resp := by simp only [State.eccOver]; (repeat' split) <;> simp
@[simp] theorem State.eccOver_free (s : State) (t a n : Nat) (f : Fld) : (s.eccOver t a n f).free = s.free := by simp only [State.eccOver]; (repeat' split) <;> simp

@[simp] theorem State.dramWritten_now (s : State) (a n : Nat) : (s.dramWritten a n).now = s.now := by unfold State.dramWritten; split <;> simp
@[simp] theorem State.dramWritten_pending (s : State) (a n : Nat) : (s.dramWritten a n).pending = s.pending := by unfold State.dramWritten; split <;> simp
@[simp] theorem State.dramWritten_fixed (s : State) (a n : Nat) : (s.dramWritten a n).fixed = s.fixed := by unfold State.dramWritten; split <;> simp
@[simp] theorem State.dramWritten_boot (s : State) (a n : Nat) : (s.dramWritten a n).boot = s.boot := by unfold State.dramWritten; split <;> simp
@[simp] theorem State.dramWritten_mem (s : State) (a n : Nat) : (s.dramWritten a n).mem = s.mem := by unfold State.dramWritten; split <;> simp
@[simp] theorem State.dramWritten_que (s : State) (a n : Nat) : (s.dramWritten a n).que = s.que := by unfold State.dramWritten; split <;> simp
@[simp] theorem State.dramWritten_pwr (s : State) (a n : Nat) : (s.dramWritten a n).pwr = s.pwr := by unfold State.dramWritten; split <;> simp
@[simp] theorem State.dramWritten_eng (s : State) (a n : Nat) : (s.dramWritten a n).eng = s.eng := by unfold State.dramWritten; split <;> simp
@[simp] theorem State.dramWritten_tach (s : State) (a n : Nat) : (s.dramWritten a n).tach = s.tach := by unfold State.dramWritten; split <;> simp
@[simp] theorem State.dramWritten_lan (s : State) (a n : Nat) : (s.dramWritten a n).lan = s.lan := by unfold State.dramWritten; split <;> simp
@[simp] theorem State.dramWritten_wck (s : State) (a n : Nat) : (s.dramWritten a n).wck = s.wck := by unfold State.dramWritten; split <;> simp
@[simp] theorem State.dramWritten_orx (s : State) (a n : Nat) : (s.dramWritten a n).orx = s.orx := by unfold State.dramWritten; split <;> simp
@[simp] theorem State.dramWritten_hsc (s : State) (a n : Nat) : (s.dramWritten a n).hsc = s.hsc := by unfold State.dramWritten; split <;> simp
@[simp] theorem State.dramWritten_ptp (s : State) (a n : Nat) : (s.dramWritten a n).ptp = s.ptp := by unfold State.dramWritten; split <;> simp
@[simp] theorem State.dramWritten_ddc (s : State) (a n : Nat) : (s.dramWritten a n).ddc = s.ddc := by unfold State.dramWritten; split <;> simp
@[simp] theorem State.dramWritten_phx (s : State) (a n : Nat) : (s.dramWritten a n).phx = s.phx := by unfold State.dramWritten; split <;> simp
@[simp] theorem State.dramWritten_twn (s : State) (a n : Nat) : (s.dramWritten a n).twn = s.twn := by unfold State.dramWritten; split <;> simp
@[simp] theorem State.dramWritten_aux (s : State) (a n : Nat) : (s.dramWritten a n).aux = s.aux := by unfold State.dramWritten; split <;> simp
@[simp] theorem State.dramWritten_memc (s : State) (a n : Nat) : (s.dramWritten a n).memc = s.memc := by unfold State.dramWritten; split <;> simp
@[simp] theorem State.dramWritten_cru (s : State) (a n : Nat) : (s.dramWritten a n).cru = s.cru := by unfold State.dramWritten; split <;> simp
@[simp] theorem State.dramWritten_net (s : State) (a n : Nat) : (s.dramWritten a n).net = s.net := by unfold State.dramWritten; split <;> simp
@[simp] theorem State.dramWritten_tx (s : State) (a n : Nat) : (s.dramWritten a n).tx = s.tx := by unfold State.dramWritten; split <;> simp
@[simp] theorem State.dramWritten_resp (s : State) (a n : Nat) : (s.dramWritten a n).resp = s.resp := by unfold State.dramWritten; split <;> simp
@[simp] theorem State.dramWritten_free (s : State) (a n : Nat) : (s.dramWritten a n).free = s.free := by unfold State.dramWritten; split <;> simp

@[simp] theorem State.writeByte_now (s : State) (a : Nat) (b : Byte) : (s.writeByte a b).now = s.now := by unfold State.writeByte; split <;> rfl
@[simp] theorem State.writeByte_pending (s : State) (a : Nat) (b : Byte) : (s.writeByte a b).pending = s.pending := by unfold State.writeByte; split <;> rfl
@[simp] theorem State.writeByte_fixed (s : State) (a : Nat) (b : Byte) : (s.writeByte a b).fixed = s.fixed := by unfold State.writeByte; split <;> rfl
@[simp] theorem State.writeByte_regs (s : State) (a : Nat) (b : Byte) : (s.writeByte a b).regs = s.regs := by unfold State.writeByte; split <;> rfl
@[simp] theorem State.writeByte_sys (s : State) (a : Nat) (b : Byte) : (s.writeByte a b).sys = s.sys := by unfold State.writeByte; split <;> rfl
@[simp] theorem State.writeByte_boot (s : State) (a : Nat) (b : Byte) : (s.writeByte a b).boot = s.boot := by unfold State.writeByte; split <;> rfl
@[simp] theorem State.writeByte_que (s : State) (a : Nat) (b : Byte) : (s.writeByte a b).que = s.que := by unfold State.writeByte; split <;> rfl
@[simp] theorem State.writeByte_pwr (s : State) (a : Nat) (b : Byte) : (s.writeByte a b).pwr = s.pwr := by unfold State.writeByte; split <;> rfl
@[simp] theorem State.writeByte_eng (s : State) (a : Nat) (b : Byte) : (s.writeByte a b).eng = s.eng := by unfold State.writeByte; split <;> rfl
@[simp] theorem State.writeByte_tach (s : State) (a : Nat) (b : Byte) : (s.writeByte a b).tach = s.tach := by unfold State.writeByte; split <;> rfl
@[simp] theorem State.writeByte_lan (s : State) (a : Nat) (b : Byte) : (s.writeByte a b).lan = s.lan := by unfold State.writeByte; split <;> rfl
@[simp] theorem State.writeByte_wck (s : State) (a : Nat) (b : Byte) : (s.writeByte a b).wck = s.wck := by unfold State.writeByte; split <;> rfl
@[simp] theorem State.writeByte_orx (s : State) (a : Nat) (b : Byte) : (s.writeByte a b).orx = s.orx := by unfold State.writeByte; split <;> rfl
@[simp] theorem State.writeByte_hsc (s : State) (a : Nat) (b : Byte) : (s.writeByte a b).hsc = s.hsc := by unfold State.writeByte; split <;> rfl
@[simp] theorem State.writeByte_ptp (s : State) (a : Nat) (b : Byte) : (s.writeByte a b).ptp = s.ptp := by unfold State.writeByte; split <;> rfl
@[simp] theorem State.writeByte_ddc (s : State) (a : Nat) (b : Byte) : (s.writeByte a b).ddc = s.ddc := by unfold State.writeByte; split <;> rfl
@[simp] theorem State.writeByte_phx (s : State) (a : Nat) (b : Byte) : (s.writeByte a b).phx = s.phx := by unfold State.writeByte; split <;> rfl
@[simp] theorem State.writeByte_twn (s : State) (a : Nat) (b : Byte) : (s.writeByte a b).twn = s.twn := by unfold State.writeByte; split <;> rfl
@[simp] theorem State.writeByte_aux (s : State) (a : Nat) (b : Byte) : (s.writeByte a b).aux = s.aux := by unfold State.writeByte; split <;> rfl
@[simp] theorem State.writeByte_memc (s : State) (a : Nat) (b : Byte) : (s.writeByte a b).memc = s.memc := by unfold State.writeByte; split <;> rfl
@[simp] theorem State.writeByte_cru (s : State) (a : Nat) (b : Byte) : (s.writeByte a b).cru = s.cru := by unfold State.writeByte; split <;> rfl
@[simp] theorem State.writeByte_net (s : State) (a : Nat) (b : Byte) : (s.writeByte a b).net = s.net := by unfold State.writeByte; split <;> rfl
@[simp] theorem State.writeByte_tx (s : State) (a : Nat) (b : Byte) : (s.writeByte a b).tx = s.tx := by unfold State.writeByte; split <;> rfl
@[simp] theorem State.writeByte_resp (s : State) (a : Nat) (b : Byte) : (s.writeByte a b).resp = s.resp := by unfold State.writeByte; split <;> rfl
@[simp] theorem State.writeByte_free (s : State) (a : Nat) (b : Byte) : (s.writeByte a b).free = s.free := by unfold State.writeByte; split <;> rfl

@[simp] theorem State.storeBytes_now (s : State) (a : Nat) (bs : List Byte) : (s.storeBytes a bs).now = s.now := by
  induction bs generalizing s a with
  | nil => rfl
  | cons b r ih => simp [State.storeBytes, ih]
@[simp] theorem State.storeBytes_pending (s : State) (a : Nat) (bs : List Byte) : (s.storeBytes a bs).pending = s.pending := by
  induction bs generalizing s a with
  | nil => rfl
  | cons b r ih => simp [State.storeBytes, ih]
@[simp] theorem State.storeBytes_fixed (s : State) (a : Nat) (bs : List Byte) : (s.storeBytes a bs).fixed = s.fixed := by
  induction bs generalizing s a with
  | nil => rfl
  | cons b r ih => simp [State.storeBytes, ih]
@[simp] theorem State.storeBytes_regs (s : State) (a : Nat) (bs : List Byte) : (s.storeBytes a bs).regs = s.regs := by
  induction bs generalizing s a with
  | nil => rfl
  | cons b r ih => simp [State.storeBytes, ih]
@[simp] theorem State.storeBytes_sys (s : State) (a : Nat) (bs : List Byte) : (s.storeBytes a bs).sys = s.sys := by
  induction bs generalizing s a with
  | nil => rfl
  | cons b r ih => simp [State.storeBytes, ih]
@[simp] theorem State.storeBytes_boot (s : State) (a : Nat) (bs : List Byte) : (s.storeBytes a bs).boot = s.boot := by
  induction bs generalizing s a with
  | nil => rfl
  | cons b r ih => simp [State.storeBytes, ih]
@[simp] theorem State.storeBytes_que (s : State) (a : Nat) (bs : List Byte) : (s.storeBytes a bs).que = s.que := by
  induction bs generalizing s a with
  | nil => rfl
  | cons b r ih => simp [State.storeBytes, ih]
@[simp] theorem State.storeBytes_pwr (s : State) (a : Nat) (bs : List Byte) : (s.storeBytes a bs).pwr = s.pwr := by
  induction bs generalizing s a with
  | nil => rfl
  | cons b r ih => simp [State.storeBytes, ih]
@[simp] theorem State.storeBytes_eng (s : State) (a : Nat) (bs : List Byte) : (s.storeBytes a bs).eng = s.eng := by
  induction bs generalizing s a with
  | nil => rfl
  | cons b r ih => simp [State.storeBytes, ih]
@[simp] theorem State.storeBytes_tach (s : State) (a : Nat) (bs : List Byte) : (s.storeBytes a bs).tach = s.tach := by
  induction bs generalizing s a with
  | nil => rfl
  | cons b r ih => simp [State.storeBytes, ih]
@[simp] theorem State.storeBytes_lan (s : State) (a : Nat) (bs : List Byte) : (s.storeBytes a bs).lan = s.lan := by
  induction bs generalizing s a with
  | nil => rfl
  | cons b r ih => simp [State.storeBytes, ih]
@[simp] theorem State.storeBytes_wck (s : State) (a : Nat) (bs : List Byte) : (s.storeBytes a bs).wck = s.wck := by
  induction bs generalizing s a with
  | nil => rfl
  | cons b r ih => simp [State.storeBytes, ih]
@[simp] theorem State.storeBytes_orx (s : State) (a : Nat) (bs : List Byte) : (s.storeBytes a bs).orx = s.orx := by
  induction bs generalizing s a with
  | nil => rfl
  | cons b r ih => simp [State.storeBytes, ih]
@[simp] theorem State.storeBytes_hsc (s : State) (a : Nat) (bs : List Byte) : (s.storeBytes a bs).hsc = s.hsc := by
  induction bs generalizing s a with
  | nil => rfl
  | cons b r ih => simp [State.storeBytes, ih]
@[simp] theorem State.storeBytes_ptp (s : State) (a : Nat) (bs : List Byte) : (s.storeBytes a bs).ptp = s.ptp := by
  induction bs generalizing s a with
  | nil => rfl
  | cons b r ih => simp [State.storeBytes, ih]
@[simp] theorem State.storeBytes_ddc (s : State) (a : Nat) (bs : List Byte) : (s.storeBytes a bs).ddc = s.ddc := by
  induction bs generalizing s a with
  | nil => rfl
  | cons b r ih => simp [State.storeBytes, ih]
@[simp] theorem State.storeBytes_phx (s : State) (a : Nat) (bs : List Byte) : (s.storeBytes a bs).phx = s.phx := by
  induction bs generalizing s a with
  | nil => rfl
  | cons b r ih => simp [State.storeBytes, ih]
@[simp] theorem State.storeBytes_twn (s : State) (a : Nat) (bs : List Byte) : (s.storeBytes a bs).twn = s.twn := by
  induction bs generalizing s a with
  | nil => rfl
  | cons b r ih => simp [State.storeBytes, ih]
@[simp] theorem State.storeBytes_aux (s : State) (a : Nat) (bs : List Byte) : (s.storeBytes a bs).aux = s.aux := by
  induction bs generalizing s a with
  | nil => rfl
  | cons b r ih => simp [State.storeBytes, ih]
@[simp] theorem State.storeBytes_memc (s : State) (a : Nat) (bs : List Byte) : (s.storeBytes a bs).memc = s.memc := by
  induction bs generalizing s a with
  | nil => rfl
  | cons b r ih => simp [State.storeBytes, ih]
@[simp] theorem State.storeBytes_cru (s : State) (a : Nat) (bs : List Byte) : (s.storeBytes a bs).cru = s.cru := by
  induction bs generalizing s a with
  | nil => rfl
  | cons b r ih => simp [State.storeBytes, ih]
@[simp] theorem State.storeBytes_net (s : State) (a : Nat) (bs : List Byte) : (s.storeBytes a bs).net = s.net := by
  induction bs generalizing s a with
  | nil => rfl
  | cons b r ih => simp [State.storeBytes, ih]
@[simp] theorem State.storeBytes_tx (s : State) (a : Nat) (bs : List Byte) : (s.storeBytes a bs).tx = s.tx := by
  induction bs generalizing s a with
  | nil => rfl
  | cons b r ih => simp [State.storeBytes, ih]
@[simp] theorem State.storeBytes_resp (s : State) (a : Nat) (bs : List Byte) : (s.storeBytes a bs).resp = s.resp := by
  induction bs generalizing s a with
  | nil => rfl
  | cons b r ih => simp [State.storeBytes, ih]
@[simp] theorem State.storeBytes_free (s : State) (a : Nat) (bs : List Byte) : (s.storeBytes a bs).free = s.free := by
  induction bs generalizing s a with
  | nil => rfl
  | cons b r ih => simp [State.storeBytes, ih]

@[simp] theorem State.writeBytes_now (s : State) (a : Nat) (bs : List Byte) : (s.writeBytes a bs).now = s.now := by unfold State.writeBytes; split <;> simp
@[simp] theorem State.writeBytes_pending (s : State) (a : Nat) (bs : List Byte) : (s.writeBytes a bs).pending = s.pending := by unfold State.writeBytes; split <;> simp
@[simp] theorem State.writeBytes_fixed (s : State) (a : Nat) (bs : List Byte) : (s.writeBytes a bs).fixed = s.fixed := by unfold State.writeBytes; split <;> simp
@[simp] theorem State.writeBytes_boot (s : State) (a : Nat) (bs : List Byte) : (s.writeBytes a bs).boot = s.boot := by unfold State.writeBytes; split <;> simp
@[simp] theorem State.writeBytes_que (s : State) (a : Nat) (bs : List Byte) : (s.writeBytes a bs).que = s.que := by unfold State.writeBytes; split <;> simp
@[simp] theorem State.writeBytes_pwr (s : State) (a : Nat) (bs : List Byte) : (s.writeBytes a bs).pwr = s.pwr := by unfold State.writeBytes; split <;> simp
@[simp] theorem State.writeBytes_eng (s : State) (a : Nat) (bs : List Byte) : (s.writeBytes a bs).eng = s.eng := by unfold State.writeBytes; split <;> simp
@[simp] theorem State.writeBytes_tach (s : State) (a : Nat) (bs : List Byte) : (s.writeBytes a bs).tach = s.tach := by unfold State.writeBytes; split <;> simp
@[simp] theorem State.writeBytes_lan (s : State) (a : Nat) (bs : List Byte) : (s.writeBytes a bs).lan = s.lan := by unfold State.writeBytes; split <;> simp
@[simp] theorem State.writeBytes_wck (s : State) (a : Nat) (bs : List Byte) : (s.writeBytes a bs).wck = s.wck := by unfold State.writeBytes; split <;> simp
@[simp] theorem State.writeBytes_orx (s : State) (a : Nat) (bs : List Byte) : (s.writeBytes a bs).orx = s.orx := by unfold State.writeBytes; split <;> simp
@[simp] theorem State.writeBytes_hsc (s : State) (a : Nat) (bs : List Byte) : (s.writeBytes a bs).hsc = s.hsc := by unfold State.writeBytes; split <;> simp
@[simp] theorem State.writeBytes_ptp (s : State) (a : Nat) (bs : List Byte) : (s.writeBytes a bs).ptp = s.ptp := by unfold State.writeBytes; split <;> simp
@[simp] theorem State.writeBytes_ddc (s : State) (a : Nat) (bs : List Byte) : (s.writeBytes a bs).ddc = s.ddc := by unfold State.writeBytes; split <;> simp
@[simp] theorem State.writeBytes_phx (s : State) (a : Nat) (bs : List Byte) : (s.writeBytes a bs).phx = s.phx := by unfold State.writeBytes; split <;> simp
@[simp] theorem State.writeBytes_twn (s : State) (a : Nat) (bs : List Byte) : (s.writeBytes a bs).twn = s.twn := by unfold State.writeBytes; split <;> simp
@[simp] theorem State.writeBytes_aux (s : State) (a : Nat) (bs : List Byte) : (s.writeBytes a bs).aux = s.aux := by unfold State.writeBytes; split <;> simp
@[simp] theorem State.writeBytes_memc (s : State) (a : Nat) (bs : List Byte) : (s.writeBytes a bs).memc = s.memc := by unfold State.writeBytes; split <;> simp
@[simp] theorem State.writeBytes_cru (s : State) (a : Nat) (bs : List Byte) : (s.writeBytes a bs).cru = s.cru := by unfold State.writeBytes; split <;> simp
@[simp] theorem State.writeBytes_net (s : State) (a : Nat) (bs : List Byte) : (s.writeBytes a bs).net = s.net := by unfold State.writeBytes; split <;> simp
@[simp] theorem State.writeBytes_tx (s : State) (a : Nat) (bs : List Byte) : (s.writeBytes a bs).tx = s.tx := by unfold State.writeBytes; split <;> simp
@[simp] theorem State.writeBytes_resp (s : State) (a : Nat) (bs : List Byte) : (s.writeBytes a bs).resp = s.resp := by unfold State.writeBytes; split <;> simp
@[simp] theorem State.writeBytes_free (s : State) (a : Nat) (bs : List Byte) : (s.writeBytes a bs).free = s.free := by unfold State.writeBytes; split <;> simp

/-- A value that no step of a fold changes. -/
theorem foldl_keep {α γ : Type} (p : State → γ) (g : State → α → State) (h : ∀ s x, p (g s x) = p s) (l : List α) (s : State) : p (l.foldl g s) = p s := by
  induction l generalizing s with
  | nil => rfl
  | cons x r ih => rw [List.foldl_cons, ih, h]

@[simp] theorem State.setOnEdge_now (s : State) (a m : Nat) : (s.setOnEdge a m).now = s.now := (rfl)
@[simp] theorem State.setOnEdge_pending (s : State) (a m : Nat) : (s.setOnEdge a m).pending = s.pending := (rfl)
@[simp] theorem State.setOnEdge_fixed (s : State) (a m : Nat) : (s.setOnEdge a m).fixed = s.fixed := (rfl)
@[simp] theorem State.setOnEdge_sys (s : State) (a m : Nat) : (s.setOnEdge a m).sys = s.sys := (rfl)
@[simp] theorem State.setOnEdge_boot (s : State) (a m : Nat) : (s.setOnEdge a m).boot = s.boot := (rfl)
@[simp] theorem State.setOnEdge_mem (s : State) (a m : Nat) : (s.setOnEdge a m).mem = s.mem := (rfl)
@[simp] theorem State.setOnEdge_que (s : State) (a m : Nat) : (s.setOnEdge a m).que = s.que := (rfl)
@[simp] theorem State.setOnEdge_pwr (s : State) (a m : Nat) : (s.setOnEdge a m).pwr = s.pwr := (rfl)
@[simp] theorem State.setOnEdge_eng (s : State) (a m : Nat) : (s.setOnEdge a m).eng = s.eng := (rfl)
@[simp] theorem State.setOnEdge_tach (s : State) (a m : Nat) : (s.setOnEdge a m).tach = s.tach := (rfl)
@[simp] theorem State.setOnEdge_lan (s : State) (a m : Nat) : (s.setOnEdge a m).lan = s.lan := (rfl)
@[simp] theorem State.setOnEdge_wck (s : State) (a m : Nat) : (s.setOnEdge a m).wck = s.wck := (rfl)
@[simp] theorem State.setOnEdge_orx (s : State) (a m : Nat) : (s.setOnEdge a m).orx = s.orx := (rfl)
@[simp] theorem State.setOnEdge_hsc (s : State) (a m : Nat) : (s.setOnEdge a m).hsc = s.hsc := (rfl)
@[simp] theorem State.setOnEdge_ptp (s : State) (a m : Nat) : (s.setOnEdge a m).ptp = s.ptp := (rfl)
@[simp] theorem State.setOnEdge_ddc (s : State) (a m : Nat) : (s.setOnEdge a m).ddc = s.ddc := (rfl)
@[simp] theorem State.setOnEdge_phx (s : State) (a m : Nat) : (s.setOnEdge a m).phx = s.phx := (rfl)
@[simp] theorem State.setOnEdge_twn (s : State) (a m : Nat) : (s.setOnEdge a m).twn = s.twn := (rfl)
@[simp] theorem State.setOnEdge_aux (s : State) (a m : Nat) : (s.setOnEdge a m).aux = s.aux := (rfl)
@[simp] theorem State.setOnEdge_memc (s : State) (a m : Nat) : (s.setOnEdge a m).memc = s.memc := (rfl)
@[simp] theorem State.setOnEdge_cru (s : State) (a m : Nat) : (s.setOnEdge a m).cru = s.cru := (rfl)
@[simp] theorem State.setOnEdge_net (s : State) (a m : Nat) : (s.setOnEdge a m).net = s.net := (rfl)
@[simp] theorem State.setOnEdge_tx (s : State) (a m : Nat) : (s.setOnEdge a m).tx = s.tx := (rfl)
@[simp] theorem State.setOnEdge_resp (s : State) (a m : Nat) : (s.setOnEdge a m).resp = s.resp := (rfl)
@[simp] theorem State.setOnEdge_free (s : State) (a m : Nat) : (s.setOnEdge a m).free = s.free := (rfl)

@[simp] theorem State.hwSet_now (s : State) (f : Fld) (u : Nat) : (s.hwSet f u).now = s.now := by simp [State.hwSet]
@[simp] theorem State.hwSet_pending (s : State) (f : Fld) (u : Nat) : (s.hwSet f u).pending = s.pending := by simp [State.hwSet]
@[simp] theorem State.hwSet_fixed (s : State) (f : Fld) (u : Nat) : (s.hwSet f u).fixed = s.fixed := by simp [State.hwSet]
@[simp] theorem State.hwSet_sys (s : State) (f : Fld) (u : Nat) : (s.hwSet f u).sys = s.sys := by simp [State.hwSet]
@[simp] theorem State.hwSet_boot (s : State) (f : Fld) (u : Nat) : (s.hwSet f u).boot = s.boot := by simp [State.hwSet]
@[simp] theorem State.hwSet_mem (s : State) (f : Fld) (u : Nat) : (s.hwSet f u).mem = s.mem := by simp [State.hwSet]
@[simp] theorem State.hwSet_que (s : State) (f : Fld) (u : Nat) : (s.hwSet f u).que = s.que := by simp [State.hwSet]
@[simp] theorem State.hwSet_pwr (s : State) (f : Fld) (u : Nat) : (s.hwSet f u).pwr = s.pwr := by simp [State.hwSet]
@[simp] theorem State.hwSet_eng (s : State) (f : Fld) (u : Nat) : (s.hwSet f u).eng = s.eng := by simp [State.hwSet]
@[simp] theorem State.hwSet_tach (s : State) (f : Fld) (u : Nat) : (s.hwSet f u).tach = s.tach := by simp [State.hwSet]
@[simp] theorem State.hwSet_lan (s : State) (f : Fld) (u : Nat) : (s.hwSet f u).lan = s.lan := by simp [State.hwSet]
@[simp] theorem State.hwSet_wck (s : State) (f : Fld) (u : Nat) : (s.hwSet f u).wck = s.wck := by simp [State.hwSet]
@[simp] theorem State.hwSet_orx (s : State) (f : Fld) (u : Nat) : (s.hwSet f u).orx = s.orx := by simp [State.hwSet]
@[simp] theorem State.hwSet_hsc (s : State) (f : Fld) (u : Nat) : (s.hwSet f u).hsc = s.hsc := by simp [State.hwSet]
@[simp] theorem State.hwSet_ptp (s : State) (f : Fld) (u : Nat) : (s.hwSet f u).ptp = s.ptp := by simp [State.hwSet]
@[simp] theorem State.hwSet_ddc (s : State) (f : Fld) (u : Nat) : (s.hwSet f u).ddc = s.ddc := by simp [State.hwSet]
@[simp] theorem State.hwSet_phx (s : State) (f : Fld) (u : Nat) : (s.hwSet f u).phx = s.phx := by simp [State.hwSet]
@[simp] theorem State.hwSet_twn (s : State) (f : Fld) (u : Nat) : (s.hwSet f u).twn = s.twn := by simp [State.hwSet]
@[simp] theorem State.hwSet_aux (s : State) (f : Fld) (u : Nat) : (s.hwSet f u).aux = s.aux := by simp [State.hwSet]
@[simp] theorem State.hwSet_memc (s : State) (f : Fld) (u : Nat) : (s.hwSet f u).memc = s.memc := by simp [State.hwSet]
@[simp] theorem State.hwSet_cru (s : State) (f : Fld) (u : Nat) : (s.hwSet f u).cru = s.cru := by simp [State.hwSet]
@[simp] theorem State.hwSet_net (s : State) (f : Fld) (u : Nat) : (s.hwSet f u).net = s.net := by simp [State.hwSet]
@[simp] theorem State.hwSet_tx (s : State) (f : Fld) (u : Nat) : (s.hwSet f u).tx = s.tx := by simp [State.hwSet]
@[simp] theorem State.hwSet_resp (s : State) (f : Fld) (u : Nat) : (s.hwSet f u).resp = s.resp := by simp [State.hwSet]
@[simp] theorem State.hwSet_free (s : State) (f : Fld) (u : Nat) : (s.hwSet f u).free = s.free := by simp [State.hwSet]

@[simp] theorem State.burst_now (s : State) (p : Nat) : (s.burst p).now = s.now := by simp [State.burst]
@[simp] theorem State.burst_pending (s : State) (p : Nat) : (s.burst p).pending = s.pending := by simp [State.burst]
@[simp] theorem State.burst_fixed (s : State) (p : Nat) : (s.burst p).fixed = s.fixed := by simp [State.burst]
@[simp] theorem State.burst_sys (s : State) (p : Nat) : (s.burst p).sys = s.sys := by simp [State.burst]
@[simp] theorem State.burst_boot (s : State) (p : Nat) : (s.burst p).boot = s.boot := by simp [State.burst]
@[simp] theorem State.burst_mem (s : State) (p : Nat) : (s.burst p).mem = s.mem := by simp [State.burst]
@[simp] theorem State.burst_que (s : State) (p : Nat) : (s.burst p).que = s.que := by simp [State.burst]
@[simp] theorem State.burst_pwr (s : State) (p : Nat) : (s.burst p).pwr = s.pwr := by simp [State.burst]
@[simp] theorem State.burst_eng (s : State) (p : Nat) : (s.burst p).eng = s.eng := by simp [State.burst]
@[simp] theorem State.burst_tach (s : State) (p : Nat) : (s.burst p).tach = s.tach := by simp [State.burst]
@[simp] theorem State.burst_lan (s : State) (p : Nat) : (s.burst p).lan = s.lan := by simp [State.burst]
@[simp] theorem State.burst_wck (s : State) (p : Nat) : (s.burst p).wck = s.wck := by simp [State.burst]
@[simp] theorem State.burst_orx (s : State) (p : Nat) : (s.burst p).orx = s.orx := by simp [State.burst]
@[simp] theorem State.burst_hsc (s : State) (p : Nat) : (s.burst p).hsc = s.hsc := by simp [State.burst]
@[simp] theorem State.burst_ptp (s : State) (p : Nat) : (s.burst p).ptp = s.ptp := by simp [State.burst]
@[simp] theorem State.burst_ddc (s : State) (p : Nat) : (s.burst p).ddc = s.ddc := by simp [State.burst]
@[simp] theorem State.burst_phx (s : State) (p : Nat) : (s.burst p).phx = s.phx := by simp [State.burst]
@[simp] theorem State.burst_twn (s : State) (p : Nat) : (s.burst p).twn = s.twn := by simp [State.burst]
@[simp] theorem State.burst_aux (s : State) (p : Nat) : (s.burst p).aux = s.aux := by simp [State.burst]
@[simp] theorem State.burst_cru (s : State) (p : Nat) : (s.burst p).cru = s.cru := by simp [State.burst]
@[simp] theorem State.burst_net (s : State) (p : Nat) : (s.burst p).net = s.net := by simp [State.burst]
@[simp] theorem State.burst_tx (s : State) (p : Nat) : (s.burst p).tx = s.tx := by simp [State.burst]
@[simp] theorem State.burst_resp (s : State) (p : Nat) : (s.burst p).resp = s.resp := by simp [State.burst]
@[simp] theorem State.burst_free (s : State) (p : Nat) : (s.burst p).free = s.free := by simp [State.burst]

@[simp] theorem State.srExit_now (s : State) (c a n : Nat) : (s.srExit c a n).now = s.now := by simp [State.srExit]
@[simp] theorem State.srExit_pending (s : State) (c a n : Nat) : (s.srExit c a n).pending = s.pending := by simp [State.srExit]
@[simp] theorem State.srExit_fixed (s : State) (c a n : Nat) : (s.srExit c a n).fixed = s.fixed := by simp [State.srExit]
@[simp] theorem State.srExit_regs (s : State) (c a n : Nat) : (s.srExit c a n).regs = s.regs := by simp [State.srExit]
@[simp] theorem State.srExit_sys (s : State) (c a n : Nat) : (s.srExit c a n).sys = s.sys := by simp [State.srExit]
@[simp] theorem State.srExit_boot (s : State) (c a n : Nat) : (s.srExit c a n).boot = s.boot := by simp [State.srExit]
@[simp] theorem State.srExit_mem (s : State) (c a n : Nat) : (s.srExit c a n).mem = s.mem := by simp [State.srExit]
@[simp] theorem State.srExit_que (s : State) (c a n : Nat) : (s.srExit c a n).que = s.que := by simp [State.srExit]
@[simp] theorem State.srExit_pwr (s : State) (c a n : Nat) : (s.srExit c a n).pwr = s.pwr := by simp [State.srExit]
@[simp] theorem State.srExit_eng (s : State) (c a n : Nat) : (s.srExit c a n).eng = s.eng := by simp [State.srExit]
@[simp] theorem State.srExit_tach (s : State) (c a n : Nat) : (s.srExit c a n).tach = s.tach := by simp [State.srExit]
@[simp] theorem State.srExit_lan (s : State) (c a n : Nat) : (s.srExit c a n).lan = s.lan := by simp [State.srExit]
@[simp] theorem State.srExit_wck (s : State) (c a n : Nat) : (s.srExit c a n).wck = s.wck := by simp [State.srExit]
@[simp] theorem State.srExit_orx (s : State) (c a n : Nat) : (s.srExit c a n).orx = s.orx := by simp [State.srExit]
@[simp] theorem State.srExit_hsc (s : State) (c a n : Nat) : (s.srExit c a n).hsc = s.hsc := by simp [State.srExit]
@[simp] theorem State.srExit_ptp (s : State) (c a n : Nat) : (s.srExit c a n).ptp = s.ptp := by simp [State.srExit]
@[simp] theorem State.srExit_ddc (s : State) (c a n : Nat) : (s.srExit c a n).ddc = s.ddc := by simp [State.srExit]
@[simp] theorem State.srExit_phx (s : State) (c a n : Nat) : (s.srExit c a n).phx = s.phx := by simp [State.srExit]
@[simp] theorem State.srExit_twn (s : State) (c a n : Nat) : (s.srExit c a n).twn = s.twn := by simp [State.srExit]
@[simp] theorem State.srExit_aux (s : State) (c a n : Nat) : (s.srExit c a n).aux = s.aux := by simp [State.srExit]
@[simp] theorem State.srExit_cru (s : State) (c a n : Nat) : (s.srExit c a n).cru = s.cru := by simp [State.srExit]
@[simp] theorem State.srExit_net (s : State) (c a n : Nat) : (s.srExit c a n).net = s.net := by simp [State.srExit]
@[simp] theorem State.srExit_tx (s : State) (c a n : Nat) : (s.srExit c a n).tx = s.tx := by simp [State.srExit]
@[simp] theorem State.srExit_resp (s : State) (c a n : Nat) : (s.srExit c a n).resp = s.resp := by simp [State.srExit]
@[simp] theorem State.srExit_free (s : State) (c a n : Nat) : (s.srExit c a n).free = s.free := by simp [State.srExit]

@[simp] theorem State.srArrival_now (s : State) (c n : Nat) : (s.srArrival c n).now = s.now := by
  unfold State.srArrival; split
  · rfl
  · split
    · simp
    · unfold State.only; split <;> simp
@[simp] theorem State.srArrival_pending (s : State) (c n : Nat) : (s.srArrival c n).pending = s.pending := by
  unfold State.srArrival; split
  · rfl
  · split
    · simp
    · unfold State.only; split <;> simp
@[simp] theorem State.srArrival_fixed (s : State) (c n : Nat) : (s.srArrival c n).fixed = s.fixed := by
  unfold State.srArrival; split
  · rfl
  · split
    · simp
    · unfold State.only; split <;> simp
@[simp] theorem State.srArrival_sys (s : State) (c n : Nat) : (s.srArrival c n).sys = s.sys := by
  unfold State.srArrival; split
  · rfl
  · split
    · simp
    · unfold State.only; split <;> simp
@[simp] theorem State.srArrival_boot (s : State) (c n : Nat) : (s.srArrival c n).boot = s.boot := by
  unfold State.srArrival; split
  · rfl
  · split
    · simp
    · unfold State.only; split <;> simp
@[simp] theorem State.srArrival_mem (s : State) (c n : Nat) : (s.srArrival c n).mem = s.mem := by
  unfold State.srArrival; split
  · rfl
  · split
    · simp
    · unfold State.only; split <;> simp
@[simp] theorem State.srArrival_que (s : State) (c n : Nat) : (s.srArrival c n).que = s.que := by
  unfold State.srArrival; split
  · rfl
  · split
    · simp
    · unfold State.only; split <;> simp
@[simp] theorem State.srArrival_pwr (s : State) (c n : Nat) : (s.srArrival c n).pwr = s.pwr := by
  unfold State.srArrival; split
  · rfl
  · split
    · simp
    · unfold State.only; split <;> simp
@[simp] theorem State.srArrival_eng (s : State) (c n : Nat) : (s.srArrival c n).eng = s.eng := by
  unfold State.srArrival; split
  · rfl
  · split
    · simp
    · unfold State.only; split <;> simp
@[simp] theorem State.srArrival_tach (s : State) (c n : Nat) : (s.srArrival c n).tach = s.tach := by
  unfold State.srArrival; split
  · rfl
  · split
    · simp
    · unfold State.only; split <;> simp
@[simp] theorem State.srArrival_lan (s : State) (c n : Nat) : (s.srArrival c n).lan = s.lan := by
  unfold State.srArrival; split
  · rfl
  · split
    · simp
    · unfold State.only; split <;> simp
@[simp] theorem State.srArrival_wck (s : State) (c n : Nat) : (s.srArrival c n).wck = s.wck := by
  unfold State.srArrival; split
  · rfl
  · split
    · simp
    · unfold State.only; split <;> simp
@[simp] theorem State.srArrival_orx (s : State) (c n : Nat) : (s.srArrival c n).orx = s.orx := by
  unfold State.srArrival; split
  · rfl
  · split
    · simp
    · unfold State.only; split <;> simp
@[simp] theorem State.srArrival_hsc (s : State) (c n : Nat) : (s.srArrival c n).hsc = s.hsc := by
  unfold State.srArrival; split
  · rfl
  · split
    · simp
    · unfold State.only; split <;> simp
@[simp] theorem State.srArrival_ptp (s : State) (c n : Nat) : (s.srArrival c n).ptp = s.ptp := by
  unfold State.srArrival; split
  · rfl
  · split
    · simp
    · unfold State.only; split <;> simp
@[simp] theorem State.srArrival_ddc (s : State) (c n : Nat) : (s.srArrival c n).ddc = s.ddc := by
  unfold State.srArrival; split
  · rfl
  · split
    · simp
    · unfold State.only; split <;> simp
@[simp] theorem State.srArrival_phx (s : State) (c n : Nat) : (s.srArrival c n).phx = s.phx := by
  unfold State.srArrival; split
  · rfl
  · split
    · simp
    · unfold State.only; split <;> simp
@[simp] theorem State.srArrival_twn (s : State) (c n : Nat) : (s.srArrival c n).twn = s.twn := by
  unfold State.srArrival; split
  · rfl
  · split
    · simp
    · unfold State.only; split <;> simp
@[simp] theorem State.srArrival_aux (s : State) (c n : Nat) : (s.srArrival c n).aux = s.aux := by
  unfold State.srArrival; split
  · rfl
  · split
    · simp
    · unfold State.only; split <;> simp
@[simp] theorem State.srArrival_cru (s : State) (c n : Nat) : (s.srArrival c n).cru = s.cru := by
  unfold State.srArrival; split
  · rfl
  · split
    · simp
    · unfold State.only; split <;> simp
@[simp] theorem State.srArrival_net (s : State) (c n : Nat) : (s.srArrival c n).net = s.net := by
  unfold State.srArrival; split
  · rfl
  · split
    · simp
    · unfold State.only; split <;> simp
@[simp] theorem State.srArrival_tx (s : State) (c n : Nat) : (s.srArrival c n).tx = s.tx := by
  unfold State.srArrival; split
  · rfl
  · split
    · simp
    · unfold State.only; split <;> simp
@[simp] theorem State.srArrival_resp (s : State) (c n : Nat) : (s.srArrival c n).resp = s.resp := by
  unfold State.srArrival; split
  · rfl
  · split
    · simp
    · unfold State.only; split <;> simp
@[simp] theorem State.srArrival_free (s : State) (c n : Nat) : (s.srArrival c n).free = s.free := by
  unfold State.srArrival; split
  · rfl
  · split
    · simp
    · unfold State.only; split <;> simp

@[simp] theorem State.access_now (s : State) (p : Nat) (ap w : Bool) (a : Nat) : (s.access p ap w a).now = s.now := by simp [State.access]
@[simp] theorem State.access_pending (s : State) (p : Nat) (ap w : Bool) (a : Nat) : (s.access p ap w a).pending = s.pending := by simp [State.access]
@[simp] theorem State.access_fixed (s : State) (p : Nat) (ap w : Bool) (a : Nat) : (s.access p ap w a).fixed = s.fixed := by simp [State.access]
@[simp] theorem State.access_sys (s : State) (p : Nat) (ap w : Bool) (a : Nat) : (s.access p ap w a).sys = s.sys := by simp [State.access]
@[simp] theorem State.access_boot (s : State) (p : Nat) (ap w : Bool) (a : Nat) : (s.access p ap w a).boot = s.boot := by simp [State.access]
@[simp] theorem State.access_mem (s : State) (p : Nat) (ap w : Bool) (a : Nat) : (s.access p ap w a).mem = s.mem := by simp [State.access]
@[simp] theorem State.access_que (s : State) (p : Nat) (ap w : Bool) (a : Nat) : (s.access p ap w a).que = s.que := by simp [State.access]
@[simp] theorem State.access_pwr (s : State) (p : Nat) (ap w : Bool) (a : Nat) : (s.access p ap w a).pwr = s.pwr := by simp [State.access]
@[simp] theorem State.access_eng (s : State) (p : Nat) (ap w : Bool) (a : Nat) : (s.access p ap w a).eng = s.eng := by simp [State.access]
@[simp] theorem State.access_tach (s : State) (p : Nat) (ap w : Bool) (a : Nat) : (s.access p ap w a).tach = s.tach := by simp [State.access]
@[simp] theorem State.access_lan (s : State) (p : Nat) (ap w : Bool) (a : Nat) : (s.access p ap w a).lan = s.lan := by simp [State.access]
@[simp] theorem State.access_wck (s : State) (p : Nat) (ap w : Bool) (a : Nat) : (s.access p ap w a).wck = s.wck := by simp [State.access]
@[simp] theorem State.access_orx (s : State) (p : Nat) (ap w : Bool) (a : Nat) : (s.access p ap w a).orx = s.orx := by simp [State.access]
@[simp] theorem State.access_hsc (s : State) (p : Nat) (ap w : Bool) (a : Nat) : (s.access p ap w a).hsc = s.hsc := by simp [State.access]
@[simp] theorem State.access_ptp (s : State) (p : Nat) (ap w : Bool) (a : Nat) : (s.access p ap w a).ptp = s.ptp := by simp [State.access]
@[simp] theorem State.access_ddc (s : State) (p : Nat) (ap w : Bool) (a : Nat) : (s.access p ap w a).ddc = s.ddc := by simp [State.access]
@[simp] theorem State.access_phx (s : State) (p : Nat) (ap w : Bool) (a : Nat) : (s.access p ap w a).phx = s.phx := by simp [State.access]
@[simp] theorem State.access_twn (s : State) (p : Nat) (ap w : Bool) (a : Nat) : (s.access p ap w a).twn = s.twn := by simp [State.access]
@[simp] theorem State.access_aux (s : State) (p : Nat) (ap w : Bool) (a : Nat) : (s.access p ap w a).aux = s.aux := by simp [State.access]
@[simp] theorem State.access_cru (s : State) (p : Nat) (ap w : Bool) (a : Nat) : (s.access p ap w a).cru = s.cru := by simp [State.access]
@[simp] theorem State.access_net (s : State) (p : Nat) (ap w : Bool) (a : Nat) : (s.access p ap w a).net = s.net := by simp [State.access]
@[simp] theorem State.access_tx (s : State) (p : Nat) (ap w : Bool) (a : Nat) : (s.access p ap w a).tx = s.tx := by simp [State.access]
@[simp] theorem State.access_resp (s : State) (p : Nat) (ap w : Bool) (a : Nat) : (s.access p ap w a).resp = s.resp := by simp [State.access]
@[simp] theorem State.access_free (s : State) (p : Nat) (ap w : Bool) (a : Nat) : (s.access p ap w a).free = s.free := by simp [State.access]

@[simp] theorem State.served_now (s : State) (p : Nat) (ap w : Bool) (a : Nat) : (s.served p ap w a).now = s.now := by simp [State.served]
@[simp] theorem State.served_pending (s : State) (p : Nat) (ap w : Bool) (a : Nat) : (s.served p ap w a).pending = s.pending := by simp [State.served]
@[simp] theorem State.served_fixed (s : State) (p : Nat) (ap w : Bool) (a : Nat) : (s.served p ap w a).fixed = s.fixed := by simp [State.served]
@[simp] theorem State.served_sys (s : State) (p : Nat) (ap w : Bool) (a : Nat) : (s.served p ap w a).sys = s.sys := by simp [State.served]
@[simp] theorem State.served_boot (s : State) (p : Nat) (ap w : Bool) (a : Nat) : (s.served p ap w a).boot = s.boot := by simp [State.served]
@[simp] theorem State.served_mem (s : State) (p : Nat) (ap w : Bool) (a : Nat) : (s.served p ap w a).mem = s.mem := by simp [State.served]
@[simp] theorem State.served_que (s : State) (p : Nat) (ap w : Bool) (a : Nat) : (s.served p ap w a).que = s.que := by simp [State.served]
@[simp] theorem State.served_pwr (s : State) (p : Nat) (ap w : Bool) (a : Nat) : (s.served p ap w a).pwr = s.pwr := by simp [State.served]
@[simp] theorem State.served_eng (s : State) (p : Nat) (ap w : Bool) (a : Nat) : (s.served p ap w a).eng = s.eng := by simp [State.served]
@[simp] theorem State.served_tach (s : State) (p : Nat) (ap w : Bool) (a : Nat) : (s.served p ap w a).tach = s.tach := by simp [State.served]
@[simp] theorem State.served_lan (s : State) (p : Nat) (ap w : Bool) (a : Nat) : (s.served p ap w a).lan = s.lan := by simp [State.served]
@[simp] theorem State.served_wck (s : State) (p : Nat) (ap w : Bool) (a : Nat) : (s.served p ap w a).wck = s.wck := by simp [State.served]
@[simp] theorem State.served_orx (s : State) (p : Nat) (ap w : Bool) (a : Nat) : (s.served p ap w a).orx = s.orx := by simp [State.served]
@[simp] theorem State.served_hsc (s : State) (p : Nat) (ap w : Bool) (a : Nat) : (s.served p ap w a).hsc = s.hsc := by simp [State.served]
@[simp] theorem State.served_ptp (s : State) (p : Nat) (ap w : Bool) (a : Nat) : (s.served p ap w a).ptp = s.ptp := by simp [State.served]
@[simp] theorem State.served_ddc (s : State) (p : Nat) (ap w : Bool) (a : Nat) : (s.served p ap w a).ddc = s.ddc := by simp [State.served]
@[simp] theorem State.served_phx (s : State) (p : Nat) (ap w : Bool) (a : Nat) : (s.served p ap w a).phx = s.phx := by simp [State.served]
@[simp] theorem State.served_twn (s : State) (p : Nat) (ap w : Bool) (a : Nat) : (s.served p ap w a).twn = s.twn := by simp [State.served]
@[simp] theorem State.served_aux (s : State) (p : Nat) (ap w : Bool) (a : Nat) : (s.served p ap w a).aux = s.aux := by simp [State.served]
@[simp] theorem State.served_cru (s : State) (p : Nat) (ap w : Bool) (a : Nat) : (s.served p ap w a).cru = s.cru := by simp [State.served]
@[simp] theorem State.served_net (s : State) (p : Nat) (ap w : Bool) (a : Nat) : (s.served p ap w a).net = s.net := by simp [State.served]
@[simp] theorem State.served_tx (s : State) (p : Nat) (ap w : Bool) (a : Nat) : (s.served p ap w a).tx = s.tx := by simp [State.served]
@[simp] theorem State.served_resp (s : State) (p : Nat) (ap w : Bool) (a : Nat) : (s.served p ap w a).resp = s.resp := by simp [State.served]
@[simp] theorem State.served_free (s : State) (p : Nat) (ap w : Bool) (a : Nat) : (s.served p ap w a).free = s.free := by simp [State.served]

@[simp] theorem State.traffic_now (s : State) (p : Nat) (ap w : Bool) (a n : Nat) : (s.traffic p ap w a n).now = s.now := foldl_keep (·.now) _ (fun s x => by simp) _ s
@[simp] theorem State.traffic_pending (s : State) (p : Nat) (ap w : Bool) (a n : Nat) : (s.traffic p ap w a n).pending = s.pending := foldl_keep (·.pending) _ (fun s x => by simp) _ s
@[simp] theorem State.traffic_fixed (s : State) (p : Nat) (ap w : Bool) (a n : Nat) : (s.traffic p ap w a n).fixed = s.fixed := foldl_keep (·.fixed) _ (fun s x => by simp) _ s
@[simp] theorem State.traffic_sys (s : State) (p : Nat) (ap w : Bool) (a n : Nat) : (s.traffic p ap w a n).sys = s.sys := foldl_keep (·.sys) _ (fun s x => by simp) _ s
@[simp] theorem State.traffic_boot (s : State) (p : Nat) (ap w : Bool) (a n : Nat) : (s.traffic p ap w a n).boot = s.boot := foldl_keep (·.boot) _ (fun s x => by simp) _ s
@[simp] theorem State.traffic_mem (s : State) (p : Nat) (ap w : Bool) (a n : Nat) : (s.traffic p ap w a n).mem = s.mem := foldl_keep (·.mem) _ (fun s x => by simp) _ s
@[simp] theorem State.traffic_que (s : State) (p : Nat) (ap w : Bool) (a n : Nat) : (s.traffic p ap w a n).que = s.que := foldl_keep (·.que) _ (fun s x => by simp) _ s
@[simp] theorem State.traffic_pwr (s : State) (p : Nat) (ap w : Bool) (a n : Nat) : (s.traffic p ap w a n).pwr = s.pwr := foldl_keep (·.pwr) _ (fun s x => by simp) _ s
@[simp] theorem State.traffic_eng (s : State) (p : Nat) (ap w : Bool) (a n : Nat) : (s.traffic p ap w a n).eng = s.eng := foldl_keep (·.eng) _ (fun s x => by simp) _ s
@[simp] theorem State.traffic_tach (s : State) (p : Nat) (ap w : Bool) (a n : Nat) : (s.traffic p ap w a n).tach = s.tach := foldl_keep (·.tach) _ (fun s x => by simp) _ s
@[simp] theorem State.traffic_lan (s : State) (p : Nat) (ap w : Bool) (a n : Nat) : (s.traffic p ap w a n).lan = s.lan := foldl_keep (·.lan) _ (fun s x => by simp) _ s
@[simp] theorem State.traffic_wck (s : State) (p : Nat) (ap w : Bool) (a n : Nat) : (s.traffic p ap w a n).wck = s.wck := foldl_keep (·.wck) _ (fun s x => by simp) _ s
@[simp] theorem State.traffic_orx (s : State) (p : Nat) (ap w : Bool) (a n : Nat) : (s.traffic p ap w a n).orx = s.orx := foldl_keep (·.orx) _ (fun s x => by simp) _ s
@[simp] theorem State.traffic_hsc (s : State) (p : Nat) (ap w : Bool) (a n : Nat) : (s.traffic p ap w a n).hsc = s.hsc := foldl_keep (·.hsc) _ (fun s x => by simp) _ s
@[simp] theorem State.traffic_ptp (s : State) (p : Nat) (ap w : Bool) (a n : Nat) : (s.traffic p ap w a n).ptp = s.ptp := foldl_keep (·.ptp) _ (fun s x => by simp) _ s
@[simp] theorem State.traffic_ddc (s : State) (p : Nat) (ap w : Bool) (a n : Nat) : (s.traffic p ap w a n).ddc = s.ddc := foldl_keep (·.ddc) _ (fun s x => by simp) _ s
@[simp] theorem State.traffic_phx (s : State) (p : Nat) (ap w : Bool) (a n : Nat) : (s.traffic p ap w a n).phx = s.phx := foldl_keep (·.phx) _ (fun s x => by simp) _ s
@[simp] theorem State.traffic_twn (s : State) (p : Nat) (ap w : Bool) (a n : Nat) : (s.traffic p ap w a n).twn = s.twn := foldl_keep (·.twn) _ (fun s x => by simp) _ s
@[simp] theorem State.traffic_aux (s : State) (p : Nat) (ap w : Bool) (a n : Nat) : (s.traffic p ap w a n).aux = s.aux := foldl_keep (·.aux) _ (fun s x => by simp) _ s
@[simp] theorem State.traffic_cru (s : State) (p : Nat) (ap w : Bool) (a n : Nat) : (s.traffic p ap w a n).cru = s.cru := foldl_keep (·.cru) _ (fun s x => by simp) _ s
@[simp] theorem State.traffic_net (s : State) (p : Nat) (ap w : Bool) (a n : Nat) : (s.traffic p ap w a n).net = s.net := foldl_keep (·.net) _ (fun s x => by simp) _ s
@[simp] theorem State.traffic_tx (s : State) (p : Nat) (ap w : Bool) (a n : Nat) : (s.traffic p ap w a n).tx = s.tx := foldl_keep (·.tx) _ (fun s x => by simp) _ s
@[simp] theorem State.traffic_resp (s : State) (p : Nat) (ap w : Bool) (a n : Nat) : (s.traffic p ap w a n).resp = s.resp := foldl_keep (·.resp) _ (fun s x => by simp) _ s
@[simp] theorem State.traffic_free (s : State) (p : Nat) (ap w : Bool) (a n : Nat) : (s.traffic p ap w a n).free = s.free := foldl_keep (·.free) _ (fun s x => by simp) _ s

@[simp] theorem State.backOff_now (s : State) (a n : Nat) : (s.backOff a n).now = s.now := (rfl)
@[simp] theorem State.backOff_pending (s : State) (a n : Nat) : (s.backOff a n).pending = s.pending := (rfl)
@[simp] theorem State.backOff_fixed (s : State) (a n : Nat) : (s.backOff a n).fixed = s.fixed := (rfl)
@[simp] theorem State.backOff_regs (s : State) (a n : Nat) : (s.backOff a n).regs = s.regs := (rfl)
@[simp] theorem State.backOff_sys (s : State) (a n : Nat) : (s.backOff a n).sys = s.sys := (rfl)
@[simp] theorem State.backOff_boot (s : State) (a n : Nat) : (s.backOff a n).boot = s.boot := (rfl)
@[simp] theorem State.backOff_mem (s : State) (a n : Nat) : (s.backOff a n).mem = s.mem := (rfl)
@[simp] theorem State.backOff_que (s : State) (a n : Nat) : (s.backOff a n).que = s.que := (rfl)
@[simp] theorem State.backOff_pwr (s : State) (a n : Nat) : (s.backOff a n).pwr = s.pwr := (rfl)
@[simp] theorem State.backOff_eng (s : State) (a n : Nat) : (s.backOff a n).eng = s.eng := (rfl)
@[simp] theorem State.backOff_tach (s : State) (a n : Nat) : (s.backOff a n).tach = s.tach := (rfl)
@[simp] theorem State.backOff_lan (s : State) (a n : Nat) : (s.backOff a n).lan = s.lan := (rfl)
@[simp] theorem State.backOff_wck (s : State) (a n : Nat) : (s.backOff a n).wck = s.wck := (rfl)
@[simp] theorem State.backOff_orx (s : State) (a n : Nat) : (s.backOff a n).orx = s.orx := (rfl)
@[simp] theorem State.backOff_hsc (s : State) (a n : Nat) : (s.backOff a n).hsc = s.hsc := (rfl)
@[simp] theorem State.backOff_ptp (s : State) (a n : Nat) : (s.backOff a n).ptp = s.ptp := (rfl)
@[simp] theorem State.backOff_ddc (s : State) (a n : Nat) : (s.backOff a n).ddc = s.ddc := (rfl)
@[simp] theorem State.backOff_phx (s : State) (a n : Nat) : (s.backOff a n).phx = s.phx := (rfl)
@[simp] theorem State.backOff_twn (s : State) (a n : Nat) : (s.backOff a n).twn = s.twn := (rfl)
@[simp] theorem State.backOff_aux (s : State) (a n : Nat) : (s.backOff a n).aux = s.aux := (rfl)
@[simp] theorem State.backOff_cru (s : State) (a n : Nat) : (s.backOff a n).cru = s.cru := (rfl)
@[simp] theorem State.backOff_net (s : State) (a n : Nat) : (s.backOff a n).net = s.net := (rfl)
@[simp] theorem State.backOff_tx (s : State) (a n : Nat) : (s.backOff a n).tx = s.tx := (rfl)
@[simp] theorem State.backOff_resp (s : State) (a n : Nat) : (s.backOff a n).resp = s.resp := (rfl)
@[simp] theorem State.backOff_free (s : State) (a n : Nat) : (s.backOff a n).free = s.free := (rfl)

@[simp] theorem State.portWrite_now (s : State) (p : Nat) (ap : Bool) (a : Nat) (bs : List Byte) : (s.portWrite p ap a bs).now = s.now := by unfold State.portWrite; split <;> simp
@[simp] theorem State.portWrite_pending (s : State) (p : Nat) (ap : Bool) (a : Nat) (bs : List Byte) : (s.portWrite p ap a bs).pending = s.pending := by unfold State.portWrite; split <;> simp
@[simp] theorem State.portWrite_fixed (s : State) (p : Nat) (ap : Bool) (a : Nat) (bs : List Byte) : (s.portWrite p ap a bs).fixed = s.fixed := by unfold State.portWrite; split <;> simp
@[simp] theorem State.portWrite_boot (s : State) (p : Nat) (ap : Bool) (a : Nat) (bs : List Byte) : (s.portWrite p ap a bs).boot = s.boot := by unfold State.portWrite; split <;> simp
@[simp] theorem State.portWrite_que (s : State) (p : Nat) (ap : Bool) (a : Nat) (bs : List Byte) : (s.portWrite p ap a bs).que = s.que := by unfold State.portWrite; split <;> simp
@[simp] theorem State.portWrite_pwr (s : State) (p : Nat) (ap : Bool) (a : Nat) (bs : List Byte) : (s.portWrite p ap a bs).pwr = s.pwr := by unfold State.portWrite; split <;> simp
@[simp] theorem State.portWrite_eng (s : State) (p : Nat) (ap : Bool) (a : Nat) (bs : List Byte) : (s.portWrite p ap a bs).eng = s.eng := by unfold State.portWrite; split <;> simp
@[simp] theorem State.portWrite_tach (s : State) (p : Nat) (ap : Bool) (a : Nat) (bs : List Byte) : (s.portWrite p ap a bs).tach = s.tach := by unfold State.portWrite; split <;> simp
@[simp] theorem State.portWrite_lan (s : State) (p : Nat) (ap : Bool) (a : Nat) (bs : List Byte) : (s.portWrite p ap a bs).lan = s.lan := by unfold State.portWrite; split <;> simp
@[simp] theorem State.portWrite_wck (s : State) (p : Nat) (ap : Bool) (a : Nat) (bs : List Byte) : (s.portWrite p ap a bs).wck = s.wck := by unfold State.portWrite; split <;> simp
@[simp] theorem State.portWrite_orx (s : State) (p : Nat) (ap : Bool) (a : Nat) (bs : List Byte) : (s.portWrite p ap a bs).orx = s.orx := by unfold State.portWrite; split <;> simp
@[simp] theorem State.portWrite_hsc (s : State) (p : Nat) (ap : Bool) (a : Nat) (bs : List Byte) : (s.portWrite p ap a bs).hsc = s.hsc := by unfold State.portWrite; split <;> simp
@[simp] theorem State.portWrite_ptp (s : State) (p : Nat) (ap : Bool) (a : Nat) (bs : List Byte) : (s.portWrite p ap a bs).ptp = s.ptp := by unfold State.portWrite; split <;> simp
@[simp] theorem State.portWrite_ddc (s : State) (p : Nat) (ap : Bool) (a : Nat) (bs : List Byte) : (s.portWrite p ap a bs).ddc = s.ddc := by unfold State.portWrite; split <;> simp
@[simp] theorem State.portWrite_phx (s : State) (p : Nat) (ap : Bool) (a : Nat) (bs : List Byte) : (s.portWrite p ap a bs).phx = s.phx := by unfold State.portWrite; split <;> simp
@[simp] theorem State.portWrite_twn (s : State) (p : Nat) (ap : Bool) (a : Nat) (bs : List Byte) : (s.portWrite p ap a bs).twn = s.twn := by unfold State.portWrite; split <;> simp
@[simp] theorem State.portWrite_aux (s : State) (p : Nat) (ap : Bool) (a : Nat) (bs : List Byte) : (s.portWrite p ap a bs).aux = s.aux := by unfold State.portWrite; split <;> simp
@[simp] theorem State.portWrite_cru (s : State) (p : Nat) (ap : Bool) (a : Nat) (bs : List Byte) : (s.portWrite p ap a bs).cru = s.cru := by unfold State.portWrite; split <;> simp
@[simp] theorem State.portWrite_net (s : State) (p : Nat) (ap : Bool) (a : Nat) (bs : List Byte) : (s.portWrite p ap a bs).net = s.net := by unfold State.portWrite; split <;> simp
@[simp] theorem State.portWrite_tx (s : State) (p : Nat) (ap : Bool) (a : Nat) (bs : List Byte) : (s.portWrite p ap a bs).tx = s.tx := by unfold State.portWrite; split <;> simp
@[simp] theorem State.portWrite_resp (s : State) (p : Nat) (ap : Bool) (a : Nat) (bs : List Byte) : (s.portWrite p ap a bs).resp = s.resp := by unfold State.portWrite; split <;> simp
@[simp] theorem State.portWrite_free (s : State) (p : Nat) (ap : Bool) (a : Nat) (bs : List Byte) : (s.portWrite p ap a bs).free = s.free := by unfold State.portWrite; split <;> simp

@[simp] theorem State.belSend_now (s : State) (k : Nat) (b : List Byte) : (s.belSend k b).now = s.now := by unfold State.belSend; split <;> rfl
@[simp] theorem State.belSend_pending (s : State) (k : Nat) (b : List Byte) : (s.belSend k b).pending = s.pending := by unfold State.belSend; split <;> rfl
@[simp] theorem State.belSend_fixed (s : State) (k : Nat) (b : List Byte) : (s.belSend k b).fixed = s.fixed := by unfold State.belSend; split <;> rfl
@[simp] theorem State.belSend_regs (s : State) (k : Nat) (b : List Byte) : (s.belSend k b).regs = s.regs := by unfold State.belSend; split <;> rfl
@[simp] theorem State.belSend_sys (s : State) (k : Nat) (b : List Byte) : (s.belSend k b).sys = s.sys := by unfold State.belSend; split <;> rfl
@[simp] theorem State.belSend_boot (s : State) (k : Nat) (b : List Byte) : (s.belSend k b).boot = s.boot := by unfold State.belSend; split <;> rfl
@[simp] theorem State.belSend_mem (s : State) (k : Nat) (b : List Byte) : (s.belSend k b).mem = s.mem := by unfold State.belSend; split <;> rfl
@[simp] theorem State.belSend_que (s : State) (k : Nat) (b : List Byte) : (s.belSend k b).que = s.que := by unfold State.belSend; split <;> rfl
@[simp] theorem State.belSend_pwr (s : State) (k : Nat) (b : List Byte) : (s.belSend k b).pwr = s.pwr := by unfold State.belSend; split <;> rfl
@[simp] theorem State.belSend_eng (s : State) (k : Nat) (b : List Byte) : (s.belSend k b).eng = s.eng := by unfold State.belSend; split <;> rfl
@[simp] theorem State.belSend_tach (s : State) (k : Nat) (b : List Byte) : (s.belSend k b).tach = s.tach := by unfold State.belSend; split <;> rfl
@[simp] theorem State.belSend_lan (s : State) (k : Nat) (b : List Byte) : (s.belSend k b).lan = s.lan := by unfold State.belSend; split <;> rfl
@[simp] theorem State.belSend_wck (s : State) (k : Nat) (b : List Byte) : (s.belSend k b).wck = s.wck := by unfold State.belSend; split <;> rfl
@[simp] theorem State.belSend_orx (s : State) (k : Nat) (b : List Byte) : (s.belSend k b).orx = s.orx := by unfold State.belSend; split <;> rfl
@[simp] theorem State.belSend_hsc (s : State) (k : Nat) (b : List Byte) : (s.belSend k b).hsc = s.hsc := by unfold State.belSend; split <;> rfl
@[simp] theorem State.belSend_ptp (s : State) (k : Nat) (b : List Byte) : (s.belSend k b).ptp = s.ptp := by unfold State.belSend; split <;> rfl
@[simp] theorem State.belSend_ddc (s : State) (k : Nat) (b : List Byte) : (s.belSend k b).ddc = s.ddc := by unfold State.belSend; split <;> rfl
@[simp] theorem State.belSend_phx (s : State) (k : Nat) (b : List Byte) : (s.belSend k b).phx = s.phx := by unfold State.belSend; split <;> rfl
@[simp] theorem State.belSend_aux (s : State) (k : Nat) (b : List Byte) : (s.belSend k b).aux = s.aux := by unfold State.belSend; split <;> rfl
@[simp] theorem State.belSend_memc (s : State) (k : Nat) (b : List Byte) : (s.belSend k b).memc = s.memc := by unfold State.belSend; split <;> rfl
@[simp] theorem State.belSend_cru (s : State) (k : Nat) (b : List Byte) : (s.belSend k b).cru = s.cru := by unfold State.belSend; split <;> rfl
@[simp] theorem State.belSend_net (s : State) (k : Nat) (b : List Byte) : (s.belSend k b).net = s.net := by unfold State.belSend; split <;> rfl
@[simp] theorem State.belSend_tx (s : State) (k : Nat) (b : List Byte) : (s.belSend k b).tx = s.tx := by unfold State.belSend; split <;> rfl
@[simp] theorem State.belSend_resp (s : State) (k : Nat) (b : List Byte) : (s.belSend k b).resp = s.resp := by unfold State.belSend; split <;> rfl

@[simp] theorem State.mirror_now (s : State) (a : Nat) (bs : List Byte) : (s.mirror a bs).now = s.now := by
  unfold State.mirror; split
  · exact foldl_keep (·.now) _ (fun s x => by simp) _ s
  · rfl
@[simp] theorem State.mirror_pending (s : State) (a : Nat) (bs : List Byte) : (s.mirror a bs).pending = s.pending := by
  unfold State.mirror; split
  · exact foldl_keep (·.pending) _ (fun s x => by simp) _ s
  · rfl
@[simp] theorem State.mirror_fixed (s : State) (a : Nat) (bs : List Byte) : (s.mirror a bs).fixed = s.fixed := by
  unfold State.mirror; split
  · exact foldl_keep (·.fixed) _ (fun s x => by simp) _ s
  · rfl
@[simp] theorem State.mirror_regs (s : State) (a : Nat) (bs : List Byte) : (s.mirror a bs).regs = s.regs := by
  unfold State.mirror; split
  · exact foldl_keep (·.regs) _ (fun s x => by simp) _ s
  · rfl
@[simp] theorem State.mirror_sys (s : State) (a : Nat) (bs : List Byte) : (s.mirror a bs).sys = s.sys := by
  unfold State.mirror; split
  · exact foldl_keep (·.sys) _ (fun s x => by simp) _ s
  · rfl
@[simp] theorem State.mirror_boot (s : State) (a : Nat) (bs : List Byte) : (s.mirror a bs).boot = s.boot := by
  unfold State.mirror; split
  · exact foldl_keep (·.boot) _ (fun s x => by simp) _ s
  · rfl
@[simp] theorem State.mirror_mem (s : State) (a : Nat) (bs : List Byte) : (s.mirror a bs).mem = s.mem := by
  unfold State.mirror; split
  · exact foldl_keep (·.mem) _ (fun s x => by simp) _ s
  · rfl
@[simp] theorem State.mirror_que (s : State) (a : Nat) (bs : List Byte) : (s.mirror a bs).que = s.que := by
  unfold State.mirror; split
  · exact foldl_keep (·.que) _ (fun s x => by simp) _ s
  · rfl
@[simp] theorem State.mirror_pwr (s : State) (a : Nat) (bs : List Byte) : (s.mirror a bs).pwr = s.pwr := by
  unfold State.mirror; split
  · exact foldl_keep (·.pwr) _ (fun s x => by simp) _ s
  · rfl
@[simp] theorem State.mirror_eng (s : State) (a : Nat) (bs : List Byte) : (s.mirror a bs).eng = s.eng := by
  unfold State.mirror; split
  · exact foldl_keep (·.eng) _ (fun s x => by simp) _ s
  · rfl
@[simp] theorem State.mirror_tach (s : State) (a : Nat) (bs : List Byte) : (s.mirror a bs).tach = s.tach := by
  unfold State.mirror; split
  · exact foldl_keep (·.tach) _ (fun s x => by simp) _ s
  · rfl
@[simp] theorem State.mirror_lan (s : State) (a : Nat) (bs : List Byte) : (s.mirror a bs).lan = s.lan := by
  unfold State.mirror; split
  · exact foldl_keep (·.lan) _ (fun s x => by simp) _ s
  · rfl
@[simp] theorem State.mirror_wck (s : State) (a : Nat) (bs : List Byte) : (s.mirror a bs).wck = s.wck := by
  unfold State.mirror; split
  · exact foldl_keep (·.wck) _ (fun s x => by simp) _ s
  · rfl
@[simp] theorem State.mirror_orx (s : State) (a : Nat) (bs : List Byte) : (s.mirror a bs).orx = s.orx := by
  unfold State.mirror; split
  · exact foldl_keep (·.orx) _ (fun s x => by simp) _ s
  · rfl
@[simp] theorem State.mirror_hsc (s : State) (a : Nat) (bs : List Byte) : (s.mirror a bs).hsc = s.hsc := by
  unfold State.mirror; split
  · exact foldl_keep (·.hsc) _ (fun s x => by simp) _ s
  · rfl
@[simp] theorem State.mirror_ptp (s : State) (a : Nat) (bs : List Byte) : (s.mirror a bs).ptp = s.ptp := by
  unfold State.mirror; split
  · exact foldl_keep (·.ptp) _ (fun s x => by simp) _ s
  · rfl
@[simp] theorem State.mirror_ddc (s : State) (a : Nat) (bs : List Byte) : (s.mirror a bs).ddc = s.ddc := by
  unfold State.mirror; split
  · exact foldl_keep (·.ddc) _ (fun s x => by simp) _ s
  · rfl
@[simp] theorem State.mirror_phx (s : State) (a : Nat) (bs : List Byte) : (s.mirror a bs).phx = s.phx := by
  unfold State.mirror; split
  · exact foldl_keep (·.phx) _ (fun s x => by simp) _ s
  · rfl
@[simp] theorem State.mirror_aux (s : State) (a : Nat) (bs : List Byte) : (s.mirror a bs).aux = s.aux := by
  unfold State.mirror; split
  · exact foldl_keep (·.aux) _ (fun s x => by simp) _ s
  · rfl
@[simp] theorem State.mirror_memc (s : State) (a : Nat) (bs : List Byte) : (s.mirror a bs).memc = s.memc := by
  unfold State.mirror; split
  · exact foldl_keep (·.memc) _ (fun s x => by simp) _ s
  · rfl
@[simp] theorem State.mirror_cru (s : State) (a : Nat) (bs : List Byte) : (s.mirror a bs).cru = s.cru := by
  unfold State.mirror; split
  · exact foldl_keep (·.cru) _ (fun s x => by simp) _ s
  · rfl
@[simp] theorem State.mirror_net (s : State) (a : Nat) (bs : List Byte) : (s.mirror a bs).net = s.net := by
  unfold State.mirror; split
  · exact foldl_keep (·.net) _ (fun s x => by simp) _ s
  · rfl
@[simp] theorem State.mirror_tx (s : State) (a : Nat) (bs : List Byte) : (s.mirror a bs).tx = s.tx := by
  unfold State.mirror; split
  · exact foldl_keep (·.tx) _ (fun s x => by simp) _ s
  · rfl
@[simp] theorem State.mirror_resp (s : State) (a : Nat) (bs : List Byte) : (s.mirror a bs).resp = s.resp := by
  unfold State.mirror; split
  · exact foldl_keep (·.resp) _ (fun s x => by simp) _ s
  · rfl

@[simp] theorem State.writeRecord_now (s : State) (q : Nat) : (s.writeRecord q).now = s.now := by simp [State.writeRecord]
@[simp] theorem State.writeRecord_pending (s : State) (q : Nat) : (s.writeRecord q).pending = s.pending := by simp [State.writeRecord]
@[simp] theorem State.writeRecord_fixed (s : State) (q : Nat) : (s.writeRecord q).fixed = s.fixed := by simp [State.writeRecord]
@[simp] theorem State.writeRecord_boot (s : State) (q : Nat) : (s.writeRecord q).boot = s.boot := by simp [State.writeRecord]
@[simp] theorem State.writeRecord_que (s : State) (q : Nat) : (s.writeRecord q).que = s.que := by simp [State.writeRecord]
@[simp] theorem State.writeRecord_pwr (s : State) (q : Nat) : (s.writeRecord q).pwr = s.pwr := by simp [State.writeRecord]
@[simp] theorem State.writeRecord_eng (s : State) (q : Nat) : (s.writeRecord q).eng = s.eng := by simp [State.writeRecord]
@[simp] theorem State.writeRecord_tach (s : State) (q : Nat) : (s.writeRecord q).tach = s.tach := by simp [State.writeRecord]
@[simp] theorem State.writeRecord_lan (s : State) (q : Nat) : (s.writeRecord q).lan = s.lan := by simp [State.writeRecord]
@[simp] theorem State.writeRecord_wck (s : State) (q : Nat) : (s.writeRecord q).wck = s.wck := by simp [State.writeRecord]
@[simp] theorem State.writeRecord_orx (s : State) (q : Nat) : (s.writeRecord q).orx = s.orx := by simp [State.writeRecord]
@[simp] theorem State.writeRecord_hsc (s : State) (q : Nat) : (s.writeRecord q).hsc = s.hsc := by simp [State.writeRecord]
@[simp] theorem State.writeRecord_ptp (s : State) (q : Nat) : (s.writeRecord q).ptp = s.ptp := by simp [State.writeRecord]
@[simp] theorem State.writeRecord_ddc (s : State) (q : Nat) : (s.writeRecord q).ddc = s.ddc := by simp [State.writeRecord]
@[simp] theorem State.writeRecord_phx (s : State) (q : Nat) : (s.writeRecord q).phx = s.phx := by simp [State.writeRecord]
@[simp] theorem State.writeRecord_aux (s : State) (q : Nat) : (s.writeRecord q).aux = s.aux := by simp [State.writeRecord]
@[simp] theorem State.writeRecord_cru (s : State) (q : Nat) : (s.writeRecord q).cru = s.cru := by simp [State.writeRecord]
@[simp] theorem State.writeRecord_net (s : State) (q : Nat) : (s.writeRecord q).net = s.net := by simp [State.writeRecord]
@[simp] theorem State.writeRecord_tx (s : State) (q : Nat) : (s.writeRecord q).tx = s.tx := by simp [State.writeRecord]
@[simp] theorem State.writeRecord_resp (s : State) (q : Nat) : (s.writeRecord q).resp = s.resp := by simp [State.writeRecord]

@[simp] theorem State.handIn_now (s : State) (q : Nat) (p : Producer) (edge : Nat) (img : List Byte) : (s.handIn q p edge img).now = s.now := by simp [State.handIn]
@[simp] theorem State.handIn_pending (s : State) (q : Nat) (p : Producer) (edge : Nat) (img : List Byte) : (s.handIn q p edge img).pending = s.pending := by simp [State.handIn]
@[simp] theorem State.handIn_fixed (s : State) (q : Nat) (p : Producer) (edge : Nat) (img : List Byte) : (s.handIn q p edge img).fixed = s.fixed := by simp [State.handIn]
@[simp] theorem State.handIn_boot (s : State) (q : Nat) (p : Producer) (edge : Nat) (img : List Byte) : (s.handIn q p edge img).boot = s.boot := by simp [State.handIn]
@[simp] theorem State.handIn_pwr (s : State) (q : Nat) (p : Producer) (edge : Nat) (img : List Byte) : (s.handIn q p edge img).pwr = s.pwr := by simp [State.handIn]
@[simp] theorem State.handIn_eng (s : State) (q : Nat) (p : Producer) (edge : Nat) (img : List Byte) : (s.handIn q p edge img).eng = s.eng := by simp [State.handIn]
@[simp] theorem State.handIn_tach (s : State) (q : Nat) (p : Producer) (edge : Nat) (img : List Byte) : (s.handIn q p edge img).tach = s.tach := by simp [State.handIn]
@[simp] theorem State.handIn_lan (s : State) (q : Nat) (p : Producer) (edge : Nat) (img : List Byte) : (s.handIn q p edge img).lan = s.lan := by simp [State.handIn]
@[simp] theorem State.handIn_wck (s : State) (q : Nat) (p : Producer) (edge : Nat) (img : List Byte) : (s.handIn q p edge img).wck = s.wck := by simp [State.handIn]
@[simp] theorem State.handIn_orx (s : State) (q : Nat) (p : Producer) (edge : Nat) (img : List Byte) : (s.handIn q p edge img).orx = s.orx := by simp [State.handIn]
@[simp] theorem State.handIn_hsc (s : State) (q : Nat) (p : Producer) (edge : Nat) (img : List Byte) : (s.handIn q p edge img).hsc = s.hsc := by simp [State.handIn]
@[simp] theorem State.handIn_ptp (s : State) (q : Nat) (p : Producer) (edge : Nat) (img : List Byte) : (s.handIn q p edge img).ptp = s.ptp := by simp [State.handIn]
@[simp] theorem State.handIn_ddc (s : State) (q : Nat) (p : Producer) (edge : Nat) (img : List Byte) : (s.handIn q p edge img).ddc = s.ddc := by simp [State.handIn]
@[simp] theorem State.handIn_phx (s : State) (q : Nat) (p : Producer) (edge : Nat) (img : List Byte) : (s.handIn q p edge img).phx = s.phx := by simp [State.handIn]
@[simp] theorem State.handIn_aux (s : State) (q : Nat) (p : Producer) (edge : Nat) (img : List Byte) : (s.handIn q p edge img).aux = s.aux := by simp [State.handIn]
@[simp] theorem State.handIn_cru (s : State) (q : Nat) (p : Producer) (edge : Nat) (img : List Byte) : (s.handIn q p edge img).cru = s.cru := by simp [State.handIn]
@[simp] theorem State.handIn_net (s : State) (q : Nat) (p : Producer) (edge : Nat) (img : List Byte) : (s.handIn q p edge img).net = s.net := by simp [State.handIn]
@[simp] theorem State.handIn_tx (s : State) (q : Nat) (p : Producer) (edge : Nat) (img : List Byte) : (s.handIn q p edge img).tx = s.tx := by simp [State.handIn]
@[simp] theorem State.handIn_resp (s : State) (q : Nat) (p : Producer) (edge : Nat) (img : List Byte) : (s.handIn q p edge img).resp = s.resp := by simp [State.handIn]

@[simp] theorem State.ringIn_now (s : State) (q : Nat) (p : Producer) (img : List Byte) : (s.ringIn q p img).now = s.now := by simp [State.ringIn]
@[simp] theorem State.ringIn_pending (s : State) (q : Nat) (p : Producer) (img : List Byte) : (s.ringIn q p img).pending = s.pending := by simp [State.ringIn]
@[simp] theorem State.ringIn_fixed (s : State) (q : Nat) (p : Producer) (img : List Byte) : (s.ringIn q p img).fixed = s.fixed := by simp [State.ringIn]
@[simp] theorem State.ringIn_boot (s : State) (q : Nat) (p : Producer) (img : List Byte) : (s.ringIn q p img).boot = s.boot := by simp [State.ringIn]
@[simp] theorem State.ringIn_pwr (s : State) (q : Nat) (p : Producer) (img : List Byte) : (s.ringIn q p img).pwr = s.pwr := by simp [State.ringIn]
@[simp] theorem State.ringIn_eng (s : State) (q : Nat) (p : Producer) (img : List Byte) : (s.ringIn q p img).eng = s.eng := by simp [State.ringIn]
@[simp] theorem State.ringIn_tach (s : State) (q : Nat) (p : Producer) (img : List Byte) : (s.ringIn q p img).tach = s.tach := by simp [State.ringIn]
@[simp] theorem State.ringIn_lan (s : State) (q : Nat) (p : Producer) (img : List Byte) : (s.ringIn q p img).lan = s.lan := by simp [State.ringIn]
@[simp] theorem State.ringIn_wck (s : State) (q : Nat) (p : Producer) (img : List Byte) : (s.ringIn q p img).wck = s.wck := by simp [State.ringIn]
@[simp] theorem State.ringIn_orx (s : State) (q : Nat) (p : Producer) (img : List Byte) : (s.ringIn q p img).orx = s.orx := by simp [State.ringIn]
@[simp] theorem State.ringIn_hsc (s : State) (q : Nat) (p : Producer) (img : List Byte) : (s.ringIn q p img).hsc = s.hsc := by simp [State.ringIn]
@[simp] theorem State.ringIn_ptp (s : State) (q : Nat) (p : Producer) (img : List Byte) : (s.ringIn q p img).ptp = s.ptp := by simp [State.ringIn]
@[simp] theorem State.ringIn_ddc (s : State) (q : Nat) (p : Producer) (img : List Byte) : (s.ringIn q p img).ddc = s.ddc := by simp [State.ringIn]
@[simp] theorem State.ringIn_phx (s : State) (q : Nat) (p : Producer) (img : List Byte) : (s.ringIn q p img).phx = s.phx := by simp [State.ringIn]
@[simp] theorem State.ringIn_aux (s : State) (q : Nat) (p : Producer) (img : List Byte) : (s.ringIn q p img).aux = s.aux := by simp [State.ringIn]
@[simp] theorem State.ringIn_cru (s : State) (q : Nat) (p : Producer) (img : List Byte) : (s.ringIn q p img).cru = s.cru := by simp [State.ringIn]
@[simp] theorem State.ringIn_net (s : State) (q : Nat) (p : Producer) (img : List Byte) : (s.ringIn q p img).net = s.net := by simp [State.ringIn]
@[simp] theorem State.ringIn_tx (s : State) (q : Nat) (p : Producer) (img : List Byte) : (s.ringIn q p img).tx = s.tx := by simp [State.ringIn]
@[simp] theorem State.ringIn_resp (s : State) (q : Nat) (p : Producer) (img : List Byte) : (s.ringIn q p img).resp = s.resp := by simp [State.ringIn]

@[simp] theorem State.countRefusal_now (s : State) (r : Nat) : (s.countRefusal r).now = s.now := by unfold State.countRefusal; (repeat' split) <;> simp
@[simp] theorem State.countRefusal_pending (s : State) (r : Nat) : (s.countRefusal r).pending = s.pending := by unfold State.countRefusal; (repeat' split) <;> simp
@[simp] theorem State.countRefusal_fixed (s : State) (r : Nat) : (s.countRefusal r).fixed = s.fixed := by unfold State.countRefusal; (repeat' split) <;> simp
@[simp] theorem State.countRefusal_sys (s : State) (r : Nat) : (s.countRefusal r).sys = s.sys := by unfold State.countRefusal; (repeat' split) <;> simp
@[simp] theorem State.countRefusal_boot (s : State) (r : Nat) : (s.countRefusal r).boot = s.boot := by unfold State.countRefusal; (repeat' split) <;> simp
@[simp] theorem State.countRefusal_mem (s : State) (r : Nat) : (s.countRefusal r).mem = s.mem := by unfold State.countRefusal; (repeat' split) <;> simp
@[simp] theorem State.countRefusal_que (s : State) (r : Nat) : (s.countRefusal r).que = s.que := by unfold State.countRefusal; (repeat' split) <;> simp
@[simp] theorem State.countRefusal_pwr (s : State) (r : Nat) : (s.countRefusal r).pwr = s.pwr := by unfold State.countRefusal; (repeat' split) <;> simp
@[simp] theorem State.countRefusal_eng (s : State) (r : Nat) : (s.countRefusal r).eng = s.eng := by unfold State.countRefusal; (repeat' split) <;> simp
@[simp] theorem State.countRefusal_tach (s : State) (r : Nat) : (s.countRefusal r).tach = s.tach := by unfold State.countRefusal; (repeat' split) <;> simp
@[simp] theorem State.countRefusal_lan (s : State) (r : Nat) : (s.countRefusal r).lan = s.lan := by unfold State.countRefusal; (repeat' split) <;> simp
@[simp] theorem State.countRefusal_wck (s : State) (r : Nat) : (s.countRefusal r).wck = s.wck := by unfold State.countRefusal; (repeat' split) <;> simp
@[simp] theorem State.countRefusal_orx (s : State) (r : Nat) : (s.countRefusal r).orx = s.orx := by unfold State.countRefusal; (repeat' split) <;> simp
@[simp] theorem State.countRefusal_hsc (s : State) (r : Nat) : (s.countRefusal r).hsc = s.hsc := by unfold State.countRefusal; (repeat' split) <;> simp
@[simp] theorem State.countRefusal_ptp (s : State) (r : Nat) : (s.countRefusal r).ptp = s.ptp := by unfold State.countRefusal; (repeat' split) <;> simp
@[simp] theorem State.countRefusal_ddc (s : State) (r : Nat) : (s.countRefusal r).ddc = s.ddc := by unfold State.countRefusal; (repeat' split) <;> simp
@[simp] theorem State.countRefusal_phx (s : State) (r : Nat) : (s.countRefusal r).phx = s.phx := by unfold State.countRefusal; (repeat' split) <;> simp
@[simp] theorem State.countRefusal_twn (s : State) (r : Nat) : (s.countRefusal r).twn = s.twn := by unfold State.countRefusal; (repeat' split) <;> simp
@[simp] theorem State.countRefusal_aux (s : State) (r : Nat) : (s.countRefusal r).aux = s.aux := by unfold State.countRefusal; (repeat' split) <;> simp
@[simp] theorem State.countRefusal_memc (s : State) (r : Nat) : (s.countRefusal r).memc = s.memc := by unfold State.countRefusal; (repeat' split) <;> simp
@[simp] theorem State.countRefusal_cru (s : State) (r : Nat) : (s.countRefusal r).cru = s.cru := by unfold State.countRefusal; (repeat' split) <;> simp
@[simp] theorem State.countRefusal_net (s : State) (r : Nat) : (s.countRefusal r).net = s.net := by unfold State.countRefusal; (repeat' split) <;> simp
@[simp] theorem State.countRefusal_tx (s : State) (r : Nat) : (s.countRefusal r).tx = s.tx := by unfold State.countRefusal; (repeat' split) <;> simp
@[simp] theorem State.countRefusal_resp (s : State) (r : Nat) : (s.countRefusal r).resp = s.resp := by unfold State.countRefusal; (repeat' split) <;> simp
@[simp] theorem State.countRefusal_free (s : State) (r : Nat) : (s.countRefusal r).free = s.free := by unfold State.countRefusal; (repeat' split) <;> simp

/-- A field that neither a submission nor a refusal changes is the same after a report. -/
theorem State.report_keep {γ : Type} (p : State → γ) (hs : ∀ s q pr img, p (State.ringIn s q pr img) = p s) (hr : ∀ s r, p (State.countRefusal s r) = p s)
    (hc : ∀ (s : State) k, p (s.count Fld.QUE_DROP_CNT 0 k) = p s) (hq : ∀ (s : State) x, p { s with que := x } = p s) (s : State) (q : Nat) (img : List Byte) :
    p (s.report q img) = p s := by
  simp only [State.report]
  split
  · exact hs _ _ _ _
  · split <;> split <;> simp only [hq, hc, hr]

@[simp] theorem State.report_now (s : State) (q : Nat) (img : List Byte) : (s.report q img).now = s.now := State.report_keep (·.now) (by simp) (by simp) (by simp) (fun _ _ => rfl) s q img
@[simp] theorem State.report_pending (s : State) (q : Nat) (img : List Byte) : (s.report q img).pending = s.pending := State.report_keep (·.pending) (by simp) (by simp) (by simp) (fun _ _ => rfl) s q img
@[simp] theorem State.report_fixed (s : State) (q : Nat) (img : List Byte) : (s.report q img).fixed = s.fixed := State.report_keep (·.fixed) (by simp) (by simp) (by simp) (fun _ _ => rfl) s q img
@[simp] theorem State.report_boot (s : State) (q : Nat) (img : List Byte) : (s.report q img).boot = s.boot := State.report_keep (·.boot) (by simp) (by simp) (by simp) (fun _ _ => rfl) s q img
@[simp] theorem State.report_pwr (s : State) (q : Nat) (img : List Byte) : (s.report q img).pwr = s.pwr := State.report_keep (·.pwr) (by simp) (by simp) (by simp) (fun _ _ => rfl) s q img
@[simp] theorem State.report_eng (s : State) (q : Nat) (img : List Byte) : (s.report q img).eng = s.eng := State.report_keep (·.eng) (by simp) (by simp) (by simp) (fun _ _ => rfl) s q img
@[simp] theorem State.report_tach (s : State) (q : Nat) (img : List Byte) : (s.report q img).tach = s.tach := State.report_keep (·.tach) (by simp) (by simp) (by simp) (fun _ _ => rfl) s q img
@[simp] theorem State.report_lan (s : State) (q : Nat) (img : List Byte) : (s.report q img).lan = s.lan := State.report_keep (·.lan) (by simp) (by simp) (by simp) (fun _ _ => rfl) s q img
@[simp] theorem State.report_wck (s : State) (q : Nat) (img : List Byte) : (s.report q img).wck = s.wck := State.report_keep (·.wck) (by simp) (by simp) (by simp) (fun _ _ => rfl) s q img
@[simp] theorem State.report_orx (s : State) (q : Nat) (img : List Byte) : (s.report q img).orx = s.orx := State.report_keep (·.orx) (by simp) (by simp) (by simp) (fun _ _ => rfl) s q img
@[simp] theorem State.report_hsc (s : State) (q : Nat) (img : List Byte) : (s.report q img).hsc = s.hsc := State.report_keep (·.hsc) (by simp) (by simp) (by simp) (fun _ _ => rfl) s q img
@[simp] theorem State.report_ptp (s : State) (q : Nat) (img : List Byte) : (s.report q img).ptp = s.ptp := State.report_keep (·.ptp) (by simp) (by simp) (by simp) (fun _ _ => rfl) s q img
@[simp] theorem State.report_ddc (s : State) (q : Nat) (img : List Byte) : (s.report q img).ddc = s.ddc := State.report_keep (·.ddc) (by simp) (by simp) (by simp) (fun _ _ => rfl) s q img
@[simp] theorem State.report_phx (s : State) (q : Nat) (img : List Byte) : (s.report q img).phx = s.phx := State.report_keep (·.phx) (by simp) (by simp) (by simp) (fun _ _ => rfl) s q img
@[simp] theorem State.report_aux (s : State) (q : Nat) (img : List Byte) : (s.report q img).aux = s.aux := State.report_keep (·.aux) (by simp) (by simp) (by simp) (fun _ _ => rfl) s q img
@[simp] theorem State.report_cru (s : State) (q : Nat) (img : List Byte) : (s.report q img).cru = s.cru := State.report_keep (·.cru) (by simp) (by simp) (by simp) (fun _ _ => rfl) s q img
@[simp] theorem State.report_net (s : State) (q : Nat) (img : List Byte) : (s.report q img).net = s.net := State.report_keep (·.net) (by simp) (by simp) (by simp) (fun _ _ => rfl) s q img
@[simp] theorem State.report_tx (s : State) (q : Nat) (img : List Byte) : (s.report q img).tx = s.tx := State.report_keep (·.tx) (by simp) (by simp) (by simp) (fun _ _ => rfl) s q img
@[simp] theorem State.report_resp (s : State) (q : Nat) (img : List Byte) : (s.report q img).resp = s.resp := State.report_keep (·.resp) (by simp) (by simp) (by simp) (fun _ _ => rfl) s q img

@[simp] theorem State.fault_now (s : State) (w u o v d k : Nat) : (s.fault w u o v d k).now = s.now := by simp [State.fault]
@[simp] theorem State.fault_pending (s : State) (w u o v d k : Nat) : (s.fault w u o v d k).pending = s.pending := by simp [State.fault]
@[simp] theorem State.fault_fixed (s : State) (w u o v d k : Nat) : (s.fault w u o v d k).fixed = s.fixed := by simp [State.fault]
@[simp] theorem State.fault_boot (s : State) (w u o v d k : Nat) : (s.fault w u o v d k).boot = s.boot := by simp [State.fault]
@[simp] theorem State.fault_pwr (s : State) (w u o v d k : Nat) : (s.fault w u o v d k).pwr = s.pwr := by simp [State.fault]
@[simp] theorem State.fault_eng (s : State) (w u o v d k : Nat) : (s.fault w u o v d k).eng = s.eng := by simp [State.fault]
@[simp] theorem State.fault_tach (s : State) (w u o v d k : Nat) : (s.fault w u o v d k).tach = s.tach := by simp [State.fault]
@[simp] theorem State.fault_lan (s : State) (w u o v d k : Nat) : (s.fault w u o v d k).lan = s.lan := by simp [State.fault]
@[simp] theorem State.fault_wck (s : State) (w u o v d k : Nat) : (s.fault w u o v d k).wck = s.wck := by simp [State.fault]
@[simp] theorem State.fault_orx (s : State) (w u o v d k : Nat) : (s.fault w u o v d k).orx = s.orx := by simp [State.fault]
@[simp] theorem State.fault_hsc (s : State) (w u o v d k : Nat) : (s.fault w u o v d k).hsc = s.hsc := by simp [State.fault]
@[simp] theorem State.fault_ptp (s : State) (w u o v d k : Nat) : (s.fault w u o v d k).ptp = s.ptp := by simp [State.fault]
@[simp] theorem State.fault_ddc (s : State) (w u o v d k : Nat) : (s.fault w u o v d k).ddc = s.ddc := by simp [State.fault]
@[simp] theorem State.fault_phx (s : State) (w u o v d k : Nat) : (s.fault w u o v d k).phx = s.phx := by simp [State.fault]
@[simp] theorem State.fault_aux (s : State) (w u o v d k : Nat) : (s.fault w u o v d k).aux = s.aux := by simp [State.fault]
@[simp] theorem State.fault_cru (s : State) (w u o v d k : Nat) : (s.fault w u o v d k).cru = s.cru := by simp [State.fault]
@[simp] theorem State.fault_net (s : State) (w u o v d k : Nat) : (s.fault w u o v d k).net = s.net := by simp [State.fault]
@[simp] theorem State.fault_tx (s : State) (w u o v d k : Nat) : (s.fault w u o v d k).tx = s.tx := by simp [State.fault]
@[simp] theorem State.fault_resp (s : State) (w u o v d k : Nat) : (s.fault w u o v d k).resp = s.resp := by simp [State.fault]

@[simp] theorem State.faultAt_now (s : State) (w u o d k : Nat) : (s.faultAt w u o d k).now = s.now := by simp [State.faultAt]
@[simp] theorem State.faultAt_pending (s : State) (w u o d k : Nat) : (s.faultAt w u o d k).pending = s.pending := by simp [State.faultAt]
@[simp] theorem State.faultAt_fixed (s : State) (w u o d k : Nat) : (s.faultAt w u o d k).fixed = s.fixed := by simp [State.faultAt]
@[simp] theorem State.faultAt_boot (s : State) (w u o d k : Nat) : (s.faultAt w u o d k).boot = s.boot := by simp [State.faultAt]
@[simp] theorem State.faultAt_pwr (s : State) (w u o d k : Nat) : (s.faultAt w u o d k).pwr = s.pwr := by simp [State.faultAt]
@[simp] theorem State.faultAt_eng (s : State) (w u o d k : Nat) : (s.faultAt w u o d k).eng = s.eng := by simp [State.faultAt]
@[simp] theorem State.faultAt_tach (s : State) (w u o d k : Nat) : (s.faultAt w u o d k).tach = s.tach := by simp [State.faultAt]
@[simp] theorem State.faultAt_lan (s : State) (w u o d k : Nat) : (s.faultAt w u o d k).lan = s.lan := by simp [State.faultAt]
@[simp] theorem State.faultAt_wck (s : State) (w u o d k : Nat) : (s.faultAt w u o d k).wck = s.wck := by simp [State.faultAt]
@[simp] theorem State.faultAt_orx (s : State) (w u o d k : Nat) : (s.faultAt w u o d k).orx = s.orx := by simp [State.faultAt]
@[simp] theorem State.faultAt_hsc (s : State) (w u o d k : Nat) : (s.faultAt w u o d k).hsc = s.hsc := by simp [State.faultAt]
@[simp] theorem State.faultAt_ptp (s : State) (w u o d k : Nat) : (s.faultAt w u o d k).ptp = s.ptp := by simp [State.faultAt]
@[simp] theorem State.faultAt_ddc (s : State) (w u o d k : Nat) : (s.faultAt w u o d k).ddc = s.ddc := by simp [State.faultAt]
@[simp] theorem State.faultAt_phx (s : State) (w u o d k : Nat) : (s.faultAt w u o d k).phx = s.phx := by simp [State.faultAt]
@[simp] theorem State.faultAt_aux (s : State) (w u o d k : Nat) : (s.faultAt w u o d k).aux = s.aux := by simp [State.faultAt]
@[simp] theorem State.faultAt_cru (s : State) (w u o d k : Nat) : (s.faultAt w u o d k).cru = s.cru := by simp [State.faultAt]
@[simp] theorem State.faultAt_net (s : State) (w u o d k : Nat) : (s.faultAt w u o d k).net = s.net := by simp [State.faultAt]
@[simp] theorem State.faultAt_tx (s : State) (w u o d k : Nat) : (s.faultAt w u o d k).tx = s.tx := by simp [State.faultAt]
@[simp] theorem State.faultAt_resp (s : State) (w u o d k : Nat) : (s.faultAt w u o d k).resp = s.resp := by simp [State.faultAt]

@[simp] theorem State.calReport_now (s : State) (a b c d e f g h : Nat) : (s.calReport a b c d e f g h).now = s.now := by simp [State.calReport]
@[simp] theorem State.calReport_pending (s : State) (a b c d e f g h : Nat) : (s.calReport a b c d e f g h).pending = s.pending := by simp [State.calReport]
@[simp] theorem State.calReport_fixed (s : State) (a b c d e f g h : Nat) : (s.calReport a b c d e f g h).fixed = s.fixed := by simp [State.calReport]
@[simp] theorem State.calReport_boot (s : State) (a b c d e f g h : Nat) : (s.calReport a b c d e f g h).boot = s.boot := by simp [State.calReport]
@[simp] theorem State.calReport_pwr (s : State) (a b c d e f g h : Nat) : (s.calReport a b c d e f g h).pwr = s.pwr := by simp [State.calReport]
@[simp] theorem State.calReport_eng (s : State) (a b c d e f g h : Nat) : (s.calReport a b c d e f g h).eng = s.eng := by simp [State.calReport]
@[simp] theorem State.calReport_tach (s : State) (a b c d e f g h : Nat) : (s.calReport a b c d e f g h).tach = s.tach := by simp [State.calReport]
@[simp] theorem State.calReport_lan (s : State) (a b c d e f g h : Nat) : (s.calReport a b c d e f g h).lan = s.lan := by simp [State.calReport]
@[simp] theorem State.calReport_wck (s : State) (a b c d e f g h : Nat) : (s.calReport a b c d e f g h).wck = s.wck := by simp [State.calReport]
@[simp] theorem State.calReport_orx (s : State) (a b c d e f g h : Nat) : (s.calReport a b c d e f g h).orx = s.orx := by simp [State.calReport]
@[simp] theorem State.calReport_hsc (s : State) (a b c d e f g h : Nat) : (s.calReport a b c d e f g h).hsc = s.hsc := by simp [State.calReport]
@[simp] theorem State.calReport_ptp (s : State) (a b c d e f g h : Nat) : (s.calReport a b c d e f g h).ptp = s.ptp := by simp [State.calReport]
@[simp] theorem State.calReport_ddc (s : State) (a b c d e f g h : Nat) : (s.calReport a b c d e f g h).ddc = s.ddc := by simp [State.calReport]
@[simp] theorem State.calReport_phx (s : State) (a b c d e f g h : Nat) : (s.calReport a b c d e f g h).phx = s.phx := by simp [State.calReport]
@[simp] theorem State.calReport_aux (s : State) (a b c d e f g h : Nat) : (s.calReport a b c d e f g h).aux = s.aux := by simp [State.calReport]
@[simp] theorem State.calReport_cru (s : State) (a b c d e f g h : Nat) : (s.calReport a b c d e f g h).cru = s.cru := by simp [State.calReport]
@[simp] theorem State.calReport_net (s : State) (a b c d e f g h : Nat) : (s.calReport a b c d e f g h).net = s.net := by simp [State.calReport]
@[simp] theorem State.calReport_tx (s : State) (a b c d e f g h : Nat) : (s.calReport a b c d e f g h).tx = s.tx := by simp [State.calReport]
@[simp] theorem State.calReport_resp (s : State) (a b c d e f g h : Nat) : (s.calReport a b c d e f g h).resp = s.resp := by simp [State.calReport]

@[simp] theorem State.clamp_now (s : State) (src : Source) (a : Nat) (w v : Word) (r lo hi : Nat) : (s.clamp src a w v r lo hi).now = s.now := by simp [State.clamp]
@[simp] theorem State.clamp_pending (s : State) (src : Source) (a : Nat) (w v : Word) (r lo hi : Nat) : (s.clamp src a w v r lo hi).pending = s.pending := by simp [State.clamp]
@[simp] theorem State.clamp_fixed (s : State) (src : Source) (a : Nat) (w v : Word) (r lo hi : Nat) : (s.clamp src a w v r lo hi).fixed = s.fixed := by simp [State.clamp]
@[simp] theorem State.clamp_boot (s : State) (src : Source) (a : Nat) (w v : Word) (r lo hi : Nat) : (s.clamp src a w v r lo hi).boot = s.boot := by simp [State.clamp]
@[simp] theorem State.clamp_pwr (s : State) (src : Source) (a : Nat) (w v : Word) (r lo hi : Nat) : (s.clamp src a w v r lo hi).pwr = s.pwr := by simp [State.clamp]
@[simp] theorem State.clamp_eng (s : State) (src : Source) (a : Nat) (w v : Word) (r lo hi : Nat) : (s.clamp src a w v r lo hi).eng = s.eng := by simp [State.clamp]
@[simp] theorem State.clamp_tach (s : State) (src : Source) (a : Nat) (w v : Word) (r lo hi : Nat) : (s.clamp src a w v r lo hi).tach = s.tach := by simp [State.clamp]
@[simp] theorem State.clamp_lan (s : State) (src : Source) (a : Nat) (w v : Word) (r lo hi : Nat) : (s.clamp src a w v r lo hi).lan = s.lan := by simp [State.clamp]
@[simp] theorem State.clamp_wck (s : State) (src : Source) (a : Nat) (w v : Word) (r lo hi : Nat) : (s.clamp src a w v r lo hi).wck = s.wck := by simp [State.clamp]
@[simp] theorem State.clamp_orx (s : State) (src : Source) (a : Nat) (w v : Word) (r lo hi : Nat) : (s.clamp src a w v r lo hi).orx = s.orx := by simp [State.clamp]
@[simp] theorem State.clamp_hsc (s : State) (src : Source) (a : Nat) (w v : Word) (r lo hi : Nat) : (s.clamp src a w v r lo hi).hsc = s.hsc := by simp [State.clamp]
@[simp] theorem State.clamp_ptp (s : State) (src : Source) (a : Nat) (w v : Word) (r lo hi : Nat) : (s.clamp src a w v r lo hi).ptp = s.ptp := by simp [State.clamp]
@[simp] theorem State.clamp_ddc (s : State) (src : Source) (a : Nat) (w v : Word) (r lo hi : Nat) : (s.clamp src a w v r lo hi).ddc = s.ddc := by simp [State.clamp]
@[simp] theorem State.clamp_phx (s : State) (src : Source) (a : Nat) (w v : Word) (r lo hi : Nat) : (s.clamp src a w v r lo hi).phx = s.phx := by simp [State.clamp]
@[simp] theorem State.clamp_aux (s : State) (src : Source) (a : Nat) (w v : Word) (r lo hi : Nat) : (s.clamp src a w v r lo hi).aux = s.aux := by simp [State.clamp]
@[simp] theorem State.clamp_cru (s : State) (src : Source) (a : Nat) (w v : Word) (r lo hi : Nat) : (s.clamp src a w v r lo hi).cru = s.cru := by simp [State.clamp]
@[simp] theorem State.clamp_net (s : State) (src : Source) (a : Nat) (w v : Word) (r lo hi : Nat) : (s.clamp src a w v r lo hi).net = s.net := by simp [State.clamp]
@[simp] theorem State.clamp_tx (s : State) (src : Source) (a : Nat) (w v : Word) (r lo hi : Nat) : (s.clamp src a w v r lo hi).tx = s.tx := by simp [State.clamp]
@[simp] theorem State.clamp_resp (s : State) (src : Source) (a : Nat) (w v : Word) (r lo hi : Nat) : (s.clamp src a w v r lo hi).resp = s.resp := by simp [State.clamp]

@[simp] theorem State.coverChanged_now (s : State)  : (s.coverChanged).now = s.now := by simp [State.coverChanged]
@[simp] theorem State.coverChanged_pending (s : State)  : (s.coverChanged).pending = s.pending := by simp [State.coverChanged]
@[simp] theorem State.coverChanged_fixed (s : State)  : (s.coverChanged).fixed = s.fixed := by simp [State.coverChanged]
@[simp] theorem State.coverChanged_boot (s : State)  : (s.coverChanged).boot = s.boot := by simp [State.coverChanged]
@[simp] theorem State.coverChanged_mem (s : State)  : (s.coverChanged).mem = s.mem := by simp [State.coverChanged]
@[simp] theorem State.coverChanged_que (s : State)  : (s.coverChanged).que = s.que := by simp [State.coverChanged]
@[simp] theorem State.coverChanged_pwr (s : State)  : (s.coverChanged).pwr = s.pwr := by simp [State.coverChanged]
@[simp] theorem State.coverChanged_eng (s : State)  : (s.coverChanged).eng = s.eng := by simp [State.coverChanged]
@[simp] theorem State.coverChanged_tach (s : State)  : (s.coverChanged).tach = s.tach := by simp [State.coverChanged]
@[simp] theorem State.coverChanged_lan (s : State)  : (s.coverChanged).lan = s.lan := by simp [State.coverChanged]
@[simp] theorem State.coverChanged_wck (s : State)  : (s.coverChanged).wck = s.wck := by simp [State.coverChanged]
@[simp] theorem State.coverChanged_orx (s : State)  : (s.coverChanged).orx = s.orx := by simp [State.coverChanged]
@[simp] theorem State.coverChanged_hsc (s : State)  : (s.coverChanged).hsc = s.hsc := by simp [State.coverChanged]
@[simp] theorem State.coverChanged_ptp (s : State)  : (s.coverChanged).ptp = s.ptp := by simp [State.coverChanged]
@[simp] theorem State.coverChanged_ddc (s : State)  : (s.coverChanged).ddc = s.ddc := by simp [State.coverChanged]
@[simp] theorem State.coverChanged_phx (s : State)  : (s.coverChanged).phx = s.phx := by simp [State.coverChanged]
@[simp] theorem State.coverChanged_twn (s : State)  : (s.coverChanged).twn = s.twn := by simp [State.coverChanged]
@[simp] theorem State.coverChanged_aux (s : State)  : (s.coverChanged).aux = s.aux := by simp [State.coverChanged]
@[simp] theorem State.coverChanged_memc (s : State)  : (s.coverChanged).memc = s.memc := by simp [State.coverChanged]
@[simp] theorem State.coverChanged_cru (s : State)  : (s.coverChanged).cru = s.cru := by simp [State.coverChanged]
@[simp] theorem State.coverChanged_net (s : State)  : (s.coverChanged).net = s.net := by simp [State.coverChanged]
@[simp] theorem State.coverChanged_tx (s : State)  : (s.coverChanged).tx = s.tx := by simp [State.coverChanged]
@[simp] theorem State.coverChanged_resp (s : State)  : (s.coverChanged).resp = s.resp := by simp [State.coverChanged]
@[simp] theorem State.coverChanged_free (s : State)  : (s.coverChanged).free = s.free := by simp [State.coverChanged]

@[simp] theorem State.beginHold_now (s : State)  : (s.beginHold).now = s.now := by simp [State.beginHold]
@[simp] theorem State.beginHold_pending (s : State)  : (s.beginHold).pending = s.pending := by simp [State.beginHold]
@[simp] theorem State.beginHold_fixed (s : State)  : (s.beginHold).fixed = s.fixed := by simp [State.beginHold]
@[simp] theorem State.beginHold_boot (s : State)  : (s.beginHold).boot = s.boot := by simp [State.beginHold]
@[simp] theorem State.beginHold_mem (s : State)  : (s.beginHold).mem = s.mem := by simp [State.beginHold]
@[simp] theorem State.beginHold_que (s : State)  : (s.beginHold).que = s.que := by simp [State.beginHold]
@[simp] theorem State.beginHold_pwr (s : State)  : (s.beginHold).pwr = s.pwr := by simp [State.beginHold]
@[simp] theorem State.beginHold_eng (s : State)  : (s.beginHold).eng = s.eng := by simp [State.beginHold]
@[simp] theorem State.beginHold_tach (s : State)  : (s.beginHold).tach = s.tach := by simp [State.beginHold]
@[simp] theorem State.beginHold_lan (s : State)  : (s.beginHold).lan = s.lan := by simp [State.beginHold]
@[simp] theorem State.beginHold_wck (s : State)  : (s.beginHold).wck = s.wck := by simp [State.beginHold]
@[simp] theorem State.beginHold_orx (s : State)  : (s.beginHold).orx = s.orx := by simp [State.beginHold]
@[simp] theorem State.beginHold_hsc (s : State)  : (s.beginHold).hsc = s.hsc := by simp [State.beginHold]
@[simp] theorem State.beginHold_ptp (s : State)  : (s.beginHold).ptp = s.ptp := by simp [State.beginHold]
@[simp] theorem State.beginHold_ddc (s : State)  : (s.beginHold).ddc = s.ddc := by simp [State.beginHold]
@[simp] theorem State.beginHold_phx (s : State)  : (s.beginHold).phx = s.phx := by simp [State.beginHold]
@[simp] theorem State.beginHold_twn (s : State)  : (s.beginHold).twn = s.twn := by simp [State.beginHold]
@[simp] theorem State.beginHold_aux (s : State)  : (s.beginHold).aux = s.aux := by simp [State.beginHold]
@[simp] theorem State.beginHold_memc (s : State)  : (s.beginHold).memc = s.memc := by simp [State.beginHold]
@[simp] theorem State.beginHold_cru (s : State)  : (s.beginHold).cru = s.cru := by simp [State.beginHold]
@[simp] theorem State.beginHold_net (s : State)  : (s.beginHold).net = s.net := by simp [State.beginHold]
@[simp] theorem State.beginHold_tx (s : State)  : (s.beginHold).tx = s.tx := by simp [State.beginHold]
@[simp] theorem State.beginHold_resp (s : State)  : (s.beginHold).resp = s.resp := by simp [State.beginHold]
@[simp] theorem State.beginHold_free (s : State)  : (s.beginHold).free = s.free := by simp [State.beginHold]

@[simp] theorem State.guardFault_now (s : State)  : (s.guardFault).now = s.now := by simp [State.guardFault]
@[simp] theorem State.guardFault_pending (s : State)  : (s.guardFault).pending = s.pending := by simp [State.guardFault]
@[simp] theorem State.guardFault_fixed (s : State)  : (s.guardFault).fixed = s.fixed := by simp [State.guardFault]
@[simp] theorem State.guardFault_sys (s : State)  : (s.guardFault).sys = s.sys := by simp [State.guardFault]
@[simp] theorem State.guardFault_boot (s : State)  : (s.guardFault).boot = s.boot := by simp [State.guardFault]
@[simp] theorem State.guardFault_mem (s : State)  : (s.guardFault).mem = s.mem := by simp [State.guardFault]
@[simp] theorem State.guardFault_que (s : State)  : (s.guardFault).que = s.que := by simp [State.guardFault]
@[simp] theorem State.guardFault_pwr (s : State)  : (s.guardFault).pwr = s.pwr := by simp [State.guardFault]
@[simp] theorem State.guardFault_eng (s : State)  : (s.guardFault).eng = s.eng := by simp [State.guardFault]
@[simp] theorem State.guardFault_tach (s : State)  : (s.guardFault).tach = s.tach := by simp [State.guardFault]
@[simp] theorem State.guardFault_lan (s : State)  : (s.guardFault).lan = s.lan := by simp [State.guardFault]
@[simp] theorem State.guardFault_wck (s : State)  : (s.guardFault).wck = s.wck := by simp [State.guardFault]
@[simp] theorem State.guardFault_orx (s : State)  : (s.guardFault).orx = s.orx := by simp [State.guardFault]
@[simp] theorem State.guardFault_hsc (s : State)  : (s.guardFault).hsc = s.hsc := by simp [State.guardFault]
@[simp] theorem State.guardFault_ptp (s : State)  : (s.guardFault).ptp = s.ptp := by simp [State.guardFault]
@[simp] theorem State.guardFault_ddc (s : State)  : (s.guardFault).ddc = s.ddc := by simp [State.guardFault]
@[simp] theorem State.guardFault_phx (s : State)  : (s.guardFault).phx = s.phx := by simp [State.guardFault]
@[simp] theorem State.guardFault_twn (s : State)  : (s.guardFault).twn = s.twn := by simp [State.guardFault]
@[simp] theorem State.guardFault_aux (s : State)  : (s.guardFault).aux = s.aux := by simp [State.guardFault]
@[simp] theorem State.guardFault_memc (s : State)  : (s.guardFault).memc = s.memc := by simp [State.guardFault]
@[simp] theorem State.guardFault_cru (s : State)  : (s.guardFault).cru = s.cru := by simp [State.guardFault]
@[simp] theorem State.guardFault_net (s : State)  : (s.guardFault).net = s.net := by simp [State.guardFault]
@[simp] theorem State.guardFault_tx (s : State)  : (s.guardFault).tx = s.tx := by simp [State.guardFault]
@[simp] theorem State.guardFault_resp (s : State)  : (s.guardFault).resp = s.resp := by simp [State.guardFault]
@[simp] theorem State.guardFault_free (s : State)  : (s.guardFault).free = s.free := by simp [State.guardFault]

@[simp] theorem State.closePair_now (s : State) (w : Nat) : (s.closePair w).now = s.now := (rfl)
@[simp] theorem State.closePair_pending (s : State) (w : Nat) : (s.closePair w).pending = s.pending := (rfl)
@[simp] theorem State.closePair_fixed (s : State) (w : Nat) : (s.closePair w).fixed = s.fixed := (rfl)
@[simp] theorem State.closePair_regs (s : State) (w : Nat) : (s.closePair w).regs = s.regs := (rfl)
@[simp] theorem State.closePair_boot (s : State) (w : Nat) : (s.closePair w).boot = s.boot := (rfl)
@[simp] theorem State.closePair_mem (s : State) (w : Nat) : (s.closePair w).mem = s.mem := (rfl)
@[simp] theorem State.closePair_que (s : State) (w : Nat) : (s.closePair w).que = s.que := (rfl)
@[simp] theorem State.closePair_pwr (s : State) (w : Nat) : (s.closePair w).pwr = s.pwr := (rfl)
@[simp] theorem State.closePair_eng (s : State) (w : Nat) : (s.closePair w).eng = s.eng := (rfl)
@[simp] theorem State.closePair_tach (s : State) (w : Nat) : (s.closePair w).tach = s.tach := (rfl)
@[simp] theorem State.closePair_lan (s : State) (w : Nat) : (s.closePair w).lan = s.lan := (rfl)
@[simp] theorem State.closePair_wck (s : State) (w : Nat) : (s.closePair w).wck = s.wck := (rfl)
@[simp] theorem State.closePair_orx (s : State) (w : Nat) : (s.closePair w).orx = s.orx := (rfl)
@[simp] theorem State.closePair_hsc (s : State) (w : Nat) : (s.closePair w).hsc = s.hsc := (rfl)
@[simp] theorem State.closePair_ptp (s : State) (w : Nat) : (s.closePair w).ptp = s.ptp := (rfl)
@[simp] theorem State.closePair_ddc (s : State) (w : Nat) : (s.closePair w).ddc = s.ddc := (rfl)
@[simp] theorem State.closePair_phx (s : State) (w : Nat) : (s.closePair w).phx = s.phx := (rfl)
@[simp] theorem State.closePair_twn (s : State) (w : Nat) : (s.closePair w).twn = s.twn := (rfl)
@[simp] theorem State.closePair_aux (s : State) (w : Nat) : (s.closePair w).aux = s.aux := (rfl)
@[simp] theorem State.closePair_memc (s : State) (w : Nat) : (s.closePair w).memc = s.memc := (rfl)
@[simp] theorem State.closePair_cru (s : State) (w : Nat) : (s.closePair w).cru = s.cru := (rfl)
@[simp] theorem State.closePair_net (s : State) (w : Nat) : (s.closePair w).net = s.net := (rfl)
@[simp] theorem State.closePair_tx (s : State) (w : Nat) : (s.closePair w).tx = s.tx := (rfl)
@[simp] theorem State.closePair_resp (s : State) (w : Nat) : (s.closePair w).resp = s.resp := (rfl)
@[simp] theorem State.closePair_free (s : State) (w : Nat) : (s.closePair w).free = s.free := (rfl)

end Sys2Proof.Machine
end

