-- ==== Sys2Proof/Laws/Engine.lean ====
section
/-!
SUPPORT. Engine instructions: what an instruction command is when its engine stands at it, and what bits a legal word has.
-/

namespace Sys2Proof.Machine

/-- A command of an instruction whose engine stands at it has the instruction's effect on the fetched state. -/
theorem anv_at {s : State} {e w op fn : Nat} (h : s.EngineAt e w op fn) (t : Nat) (p : Nat → Bool) (hp : p fn = true) (f : Nat → State → State) :
    anv op p t e s f = .next (s.after t (fun r => f w (r.fetched e))) := by
  obtain ⟨h1, h2, h3, h4, h5, h6⟩ := h
  unfold anv State.after
  rw [clocked_run _ _ _ h1]
  congr 2
  have a1 : (s.begin t).lanes = s.lanes := rfl
  have a2 : (s.begin t).engine e = s.engine e := rfl
  have a3 : (s.begin t).anvWord e = w := h4
  have a4 : (s.begin t).eccAt 2 (engBase e + 8 * (s.engine e).pc) ≠ 2 := h6
  simp [State.only, a1, a2, a3, h2, h3, h5, hp, a4, State.fetched]

/-- An instruction on the engine alone retires with its effect. -/
theorem anvEng_retires {c : Nat → Nat → Instr} {op fn : Nat} {f : Nat → Engine → Engine} (ex : Nat → Nat → State → Out)
    (h : ∀ s t e, exec (c t e) s = ex t e s) (h2 : ∀ s t e, ex t e s = anvEng op fn t e s f) : Retires c op fn f := by
  intro s t e w ha
  rw [h, h2]
  exact anv_at ha t (fun n => n = fn) (by simp) _

/-- The same with an effect that agrees on legal words. -/
theorem Retires.congr {c : Nat → Nat → Instr} {op fn : Nat} {f g : Nat → Engine → Engine} (h : Retires c op fn f)
    (hfg : ∀ w x, anvDecode w = some (op, fn) → f w x = g w x) : Retires c op fn g := by
  intro s t e w ha
  rw [h s t e w ha]
  have : f w = g w := funext (fun x => hfg w x ha.legal)
  simp only [this]

/-- The row of the opcode table that an operation and a function select. -/
def anvRow (op fn : Nat) : Option (Nat × Nat × Nat × Nat) := anvTable.find? (fun r => r.1 = op && r.2.1 ≤ fn && fn ≤ r.2.2.1)

/-- A legal word has the operation and the function it decodes to, and sets no bit of bits [49:0] and [57:56] beyond those of its row. -/
theorem legal_row {w op fn : Nat} (h : anvDecode w = some (op, fn)) :
    wOp w = op ∧ wFn w = fn ∧ wordOk w = true ∧
      ∃ r, anvRow op fn = some r ∧ (w % 2 ^ 50 + w / 2 ^ 56 % 4 * 2 ^ 56) &&& r.2.2.2 = w % 2 ^ 50 + w / 2 ^ 56 % 4 * 2 ^ 56 := by
  unfold anvDecode at h
  split at h
  · rename_i r hr
    split at h
    · rename_i hc
      simp only [Option.some.injEq, Prod.mk.injEq] at h
      obtain ⟨rfl, rfl⟩ := h
      simp only [Bool.and_eq_true, decide_eq_true_eq] at hc
      exact ⟨rfl, rfl, hc.2, r, hr, hc.1⟩
    · cases h
  · cases h

/-- SAT and BX of a number as bits of what a row masks. -/
theorem masked_testBit (w i : Nat) (hi : i = 56 ∨ i = 57) : (w % 2 ^ 50 + w / 2 ^ 56 % 4 * 2 ^ 56).testBit i = bit w i := by
  have h1 : (w % 2 ^ 50 + w / 2 ^ 56 % 4 * 2 ^ 56) / 2 ^ i % 2 = w / 2 ^ i % 2 := by
    rcases hi with rfl | rfl <;> norm_num <;> omega
  rw [Nat.testBit_eq_decide_div_mod_eq, h1, bit]

/-- A legal word has SAT or BX clear where its row does not name it. -/
theorem legal_clear {w op fn : Nat} (h : anvDecode w = some (op, fn)) (i : Nat) (hi : i = 56 ∨ i = 57)
    (hm : ∀ r, anvRow op fn = some r → r.2.2.2.testBit i = false) : bit w i = false := by
  obtain ⟨-, -, -, r, hr, hw⟩ := legal_row h
  rw [← masked_testBit w i hi, ← hw, Nat.testBit_and, hm r hr, Bool.and_false]

/-! ### One engine changes -/

/-- A device has at most eight lanes and engines. -/
theorem State.lanes_le (s : State) : s.lanes ≤ 8 := by unfold State.lanes; cases s.fixed.variant <;> simp [Variant.lanes]

/-- An engine is what the engines' field holds. -/
theorem State.engine_of_eng {s u : State} (h : u.eng = s.eng) (k : Nat) : u.engine k = s.engine k := by simp [State.engine, h]

/-- A change of one engine changes no other. -/
theorem State.engine_setEngine (s : State) (e k : Nat) (x : Engine) (h : e < 8) : (s.setEngine e x).engine k = if k = e then x else s.engine k := by
  by_cases hk : k = e
  · subst hk; simp [State.setEngine, State.engine, Vector.getD, h]
  · simp [State.setEngine, State.engine, Vector.getD, hk, Array.getD_eq_getD_getElem?, Ne.symm hk]

theorem State.engine_onEngine (s : State) (e k : Nat) (f : Engine → Engine) (h : e < 8) :
    (s.onEngine e f).engine k = if k = e then f (s.engine e) else s.engine k := State.engine_setEngine s e k _ h

@[simp] theorem State.begin_engine (s : State) (t k : Nat) : (s.begin t).engine k = s.engine k := (rfl)
@[simp] theorem State.after_engine (s : State) (t : Nat) (f : State → State) (k : Nat) : (s.after t f).engine k = (f (s.begin t)).engine k := (rfl)
@[simp] theorem State.count_engine (s : State) (f : Fld) (u n k : Nat) : (s.count f u n).engine k = s.engine k := State.engine_of_eng (by simp) k

/-- A corrected error changes no engine. -/
@[simp] theorem State.eccCorrect_eng (s : State) (a b n : Nat) : (s.eccCorrect a b n).eng = s.eng := by unfold State.eccCorrect; split <;> simp

/-- A tick lost to a transfer changes no engine. -/
@[simp] theorem State.dmaStall_eng (s : State) (e w : Nat) : (s.dmaStall e w).eng = s.eng := by
  simp only [State.dmaStall, State.only]
  split <;> simp

@[simp] theorem State.fetched_engine (s : State) (e k : Nat) : (s.fetched e).engine k = s.engine k :=
  State.engine_of_eng (by simp [State.fetched]) k
@[simp] theorem State.dataRead_engine (s : State) (e a n k : Nat) : (s.dataRead e a n).engine k = s.engine k :=
  State.engine_of_eng (State.eccCorrect_eng ..) k

/-- With no butterfly result waiting there is nothing to store. -/
theorem State.flyFlush_nil (s : State) (e : Nat) (h : (s.engine e).fly = []) : s.flyFlush e = s := by
  simp [State.flyFlush, State.flyStore, h]

/-- With no butterfly result waiting none is late. -/
theorem State.flyLate_nil (s : State) (e : Nat) (h : (s.engine e).fly = []) : s.flyLate e = s := by simp [State.flyLate, State.only, h]

/-- Noting what an instruction has set leaves the results that wait. -/
@[simp] theorem Engine.stamped_fly (x : Engine) (d : Nat) : (x.stamped d).fly = x.fly := by
  simp only [Engine.stamped, Engine.stored]
  split <;> rfl

/-- Retirement changes no other engine; with no butterfly result waiting the engine takes the effect, notes its overflow and retires. -/
theorem State.finish_engine (s : State) (e k : Nat) (f : Engine → Engine) (h : e < 8) (hf : (f (s.engine e)).fly = []) :
    (s.finish e f).engine k = if k = e then ((f (s.engine e)).stamped s.dev).retire else s.engine k := by
  have h1 : ((s.onEngine e (fun x => (f x).stamped s.dev)).engine e).fly = [] := by rw [State.engine_onEngine _ _ _ _ h, if_pos rfl]; simpa using hf
  have h2 (b : Bool) : (if b then ((s.onEngine e (fun x => (f x).stamped s.dev)).flyLate e).flyFlush e else s.onEngine e (fun x => (f x).stamped s.dev))
      = s.onEngine e (fun x => (f x).stamped s.dev) := by cases b <;> simp [State.flyLate_nil _ _ h1, State.flyFlush_nil _ _ h1]
  unfold State.finish
  simp only [State.count_engine, h2, State.engine_onEngine _ _ _ _ h, if_true]
  split <;> rfl

/-- A jump changes no other engine. -/
theorem State.jumpTo_engine (s : State) (e pc k : Nat) (f : Engine → Engine) (h : e < 8) :
    (s.jumpTo e pc f).engine k = if k = e then (f (s.engine e)).boundary pc else s.engine k := by
  unfold State.jumpTo
  rw [State.count_engine, State.engine_onEngine _ _ _ _ h]

/-- An engine's fault changes no other engine. -/
theorem State.engFault_engine (s : State) (e code k : Nat) (h : e < 8) :
    (s.engFault e code).engine k = if k = e then
      { s.engine e with st := .error, run := false, haltReq := false, stepping := false, err := code, errPc := (s.engine e).pc, wait := .none, rep := none,
                        loop := ((s.engine e).rep.map Rep.left).getD (s.engine e).loop }
      else s.engine k := by
  unfold State.engFault
  rw [State.engine_of_eng (State.fault_eng ..), State.engine_onEngine _ _ _ _ h]

theorem State.anvFault_engine (s : State) (e code k : Nat) (h : e < 8) (hf : (s.engine e).fly = []) :
    (s.anvFault e code).engine k = if k = e then
      { s.engine e with st := .error, run := false, haltReq := false, stepping := false, err := code, errPc := (s.engine e).pc, wait := .none, rep := none,
                        loop := ((s.engine e).rep.map Rep.left).getD (s.engine e).loop }
      else s.engine k := by
  unfold State.anvFault
  rw [State.flyFlush_nil _ _ hf, State.engFault_engine _ _ _ _ h]

/-- A write that no lock turns away reaches its register. -/
theorem State.admit_of (s : State) (src : Source) (a : Nat) (v : Word) (f : State → State) (h : s.Admits src a) : s.pastLocks src a v f = f s := by
  obtain ⟨h1, h2, h3, h0⟩ := h
  unfold State.pastLocks State.pastLocksAs
  rw [h0]
  simp only [Bool.false_eq_true, if_false]
  have r : s.fld Fld.TWN_STAT_ROLE 0 = s.role := rfl
  simp only [r]
  split
  · rename_i h; simp at h; simp [h1 h.1.1.1 h.1.1.2] at h
  · split
    · rename_i h; simp at h; simp [h2 h.1.1 h.1.2] at h
    · split
      · rename_i h; simp at h; simp [h3 h.1.1 h.1.2] at h
      · rfl

end Sys2Proof.Machine
end

