-- ==== Sys2Proof/Laws/Memory.lean ====
section
/-!
SUPPORT. External memory and the engines' data memory: what a read finds after a write, and the canonical form that every write keeps.
-/

namespace Sys2Proof.Machine

/-! ### External memory -/

/-- The end of memory depends on the parts and on MEM_GEOM alone. -/
theorem State.dramEnd_congr {s u : State} (hf : u.fixed = s.fixed) (hg : u.live Fld.MEM_GEOM_WIDTH.addr = s.live Fld.MEM_GEOM_WIDTH.addr) :
    u.dramEnd = s.dramEnd := by simp [State.dramEnd, hf, hg]

/-- A byte written moves no end of memory. -/
@[simp] theorem State.writeByte_dramEnd (s : State) (a : Nat) (v : Byte) : (s.writeByte a v).dramEnd = s.dramEnd :=
  State.dramEnd_congr (by simp) (by simp [State.live])

/-- Bytes stored move no end of memory. -/
@[simp] theorem State.storeBytes_dramEnd (s : State) (a : Nat) (bs : List Byte) : (s.storeBytes a bs).dramEnd = s.dramEnd :=
  State.dramEnd_congr (by simp) (by simp [State.live])

/-- Errors made good by a write are counted; no end of memory moves. -/
@[simp] theorem State.dramWritten_dramEnd (s : State) (a n : Nat) : (s.dramWritten a n).dramEnd = s.dramEnd := by
  have hc (u : State) : (u.count Fld.MEM_CE_CNT 0 1).dramEnd = u.dramEnd :=
    State.dramEnd_congr (by simp) (State.live_setLive_other _ _ _ _ (by decide))
  have he (u : State) (t k m : Nat) : (u.eccClear t k m).dramEnd = u.dramEnd := State.dramEnd_congr (by simp) (by simp [State.live])
  have hs (u : State) (t b k m : Nat) : (u.eccStrike t b k m).dramEnd = u.dramEnd := State.dramEnd_congr (by simp) (by simp [State.live])
  simp only [State.dramWritten, State.eccOver]
  (repeat' split) <;> simp only [hs, hc, he]

/-- A write moves no end of memory. -/
@[simp] theorem State.writeBytes_dramEnd (s : State) (a : Nat) (bs : List Byte) : (s.writeBytes a bs).dramEnd = s.dramEnd := by
  unfold State.writeBytes
  split <;> simp

/-- A byte that a write stores, and every other byte as it was. -/
theorem State.readByte_writeByte (s : State) (a b : Nat) (v : Byte) :
    (s.writeByte a v).readByte b = if b = a ∧ a < s.dramEnd then v else s.readByte b := by
  by_cases ha : a < s.dramEnd
  · by_cases hb : b < s.dramEnd
    · simp only [State.readByte, State.writeByte_dramEnd, hb, if_true]
      simp [State.writeByte, ha, sget_sput]
    · have hne : b ≠ a := fun e => hb (e ▸ ha)
      simp [State.readByte, ha, hb, hne]
  · simp [State.writeByte, ha]

/-- One byte written keeps the canonical form. -/
theorem State.writeByte_wf (s : State) (a : Nat) (v : Byte) (h : Memory.wf s.mem = true) : Memory.wf (s.writeByte a v).mem = true := by
  unfold State.writeByte
  split
  · exact swf_sput _ _ _ _ h
  · exact h

/-- Bytes outside the stored ones keep their values. -/
theorem State.readByte_storeBytes_outside (s : State) (a b : Nat) (bs : List Byte) (h : b < a ∨ a + bs.length ≤ b) :
    (s.storeBytes a bs).readByte b = s.readByte b := by
  induction bs generalizing s a with
  | nil => rfl
  | cons v vs ih =>
    simp only [List.length_cons] at h
    rw [State.storeBytes, ih _ _ (by omega), State.readByte_writeByte, if_neg (by omega)]

/-- A stored byte reads as stored, within installed memory. -/
theorem State.readByte_storeBytes_inside (s : State) (a i : Nat) (bs : List Byte) (hi : i < bs.length) (hd : a + bs.length ≤ s.dramEnd) :
    (s.storeBytes a bs).readByte (a + i) = bs[i] := by
  induction bs generalizing s a i with
  | nil => cases hi
  | cons v vs ih =>
    simp only [List.length_cons] at hi hd
    cases i with
    | zero =>
      rw [State.storeBytes, State.readByte_storeBytes_outside _ _ _ _ (by omega), State.readByte_writeByte, if_pos ⟨rfl, by omega⟩]
      rfl
    | succ k =>
      have e : a + (k + 1) = a + 1 + k := by omega
      rw [State.storeBytes, e]
      simpa using ih (s.writeByte a v) (a + 1) k (by omega) (by simpa using (by omega : a + 1 + vs.length ≤ s.dramEnd))

/-- Bytes stored keep the canonical form. -/
theorem State.storeBytes_wf (s : State) (a : Nat) (bs : List Byte) (h : Memory.wf s.mem = true) : Memory.wf (s.storeBytes a bs).mem = true := by
  induction bs generalizing s a with
  | nil => exact h
  | cons v vs ih => exact ih _ _ (State.writeByte_wf s a v h)

/-- A write changes memory as the bytes stored do: errors in cells are no part of what is stored. -/
theorem State.writeBytes_mem (s : State) (a : Nat) (bs : List Byte) : (s.writeBytes a bs).mem = (s.storeBytes a bs).mem := by
  unfold State.writeBytes
  split
  · rename_i hb
    rw [List.isEmpty_iff.mp hb]
    rfl
  · exact State.dramWritten_mem ..

/-- Reading depends on memory and on where it ends. -/
theorem State.readByte_congr {s u : State} (hm : u.mem = s.mem) (he : u.dramEnd = s.dramEnd) (a : Nat) : u.readByte a = s.readByte a := by
  simp [State.readByte, hm, he]

/-- A write keeps the canonical form. -/
theorem State.writeBytes_wf (s : State) (a : Nat) (bs : List Byte) (h : Memory.wf s.mem = true) : Memory.wf (s.writeBytes a bs).mem = true := by
  rw [State.writeBytes_mem]
  exact State.storeBytes_wf s a bs h

/-- Bytes outside a write keep their values. -/
theorem State.readByte_writeBytes_outside (s : State) (a b : Nat) (bs : List Byte) (h : b < a ∨ a + bs.length ≤ b) :
    (s.writeBytes a bs).readByte b = s.readByte b := by
  rw [State.readByte_congr (s.writeBytes_mem a bs) (by simp) b, State.readByte_storeBytes_outside _ _ _ _ h]

/-- A byte of a write reads as written, within installed memory. -/
theorem State.readByte_writeBytes_inside (s : State) (a i : Nat) (bs : List Byte) (hi : i < bs.length) (hd : a + bs.length ≤ s.dramEnd) :
    (s.writeBytes a bs).readByte (a + i) = bs[i] := by
  rw [State.readByte_congr (s.writeBytes_mem a bs) (by simp) (a + i), State.readByte_storeBytes_inside _ _ _ _ hi hd]

/-! ### An engine's data memory -/

/-- Bytes stored in data memory keep its canonical form and leave instruction memory alone. -/
theorem Engine.store_wf (x : Engine) (a : Nat) (bs : List Byte) (h : swf 0 x.dmem = true) : swf 0 (x.store a bs).dmem = true := by
  induction bs generalizing x a with
  | nil => exact h
  | cons v vs ih => exact ih _ _ (swf_sput _ _ _ _ h)

@[simp] theorem Engine.store_imem (x : Engine) (a : Nat) (bs : List Byte) : (x.store a bs).imem = x.imem := by
  induction bs generalizing x a with
  | nil => rfl
  | cons v vs ih => rw [Engine.store, ih]

/-- Bytes of data memory outside the stored ones keep their values. -/
theorem Engine.store_outside (x : Engine) (a b : Nat) (bs : List Byte) (h : b < a ∨ a + bs.length ≤ b) :
    sget 0 (x.store a bs).dmem b = sget 0 x.dmem b := by
  induction bs generalizing x a with
  | nil => rfl
  | cons v vs ih =>
    simp only [List.length_cons] at h
    rw [Engine.store, ih _ _ (by omega), sget_sput, if_neg (by omega)]

/-- A stored byte of data memory reads as stored. -/
theorem Engine.store_inside (x : Engine) (a i : Nat) (bs : List Byte) (hi : i < bs.length) : sget 0 (x.store a bs).dmem (a + i) = bs[i] := by
  induction bs generalizing x a i with
  | nil => cases hi
  | cons v vs ih =>
    simp only [List.length_cons] at hi
    cases i with
    | zero =>
      rw [Engine.store, Engine.store_outside _ _ _ _ (by omega)]
      simp [sget_sput]
    | succ k =>
      have e : a + (k + 1) = a + 1 + k := by omega
      rw [Engine.store, e]
      simpa using ih _ (a + 1) k (by omega)

/-! ### Reset -/

/-- Reset memory lists nothing. -/
theorem State.reset_wf : Memory.wf State.reset.mem = true := (rfl)

end Sys2Proof.Machine
end

