-- ==== Sys2Proof/Tests/Slice0.lean ====
section
/-!
SUPPORT. Tests: ill-formed commands that the check refuses, worked examples of the spec, and for every obligation with hypotheses a state and operands that meet them
together.
-/

namespace Sys2Proof.Tests

open Machine

set_option Elab.async false

/-! ### Small states -/

/-- A device whose clocks run with Hearth up. -/
def up : State := { State.reset with sys := { State.reset.sys with power := .run, hearth := true } }

/-- The same at a late moment. -/
def late : State := { up with now := 3000000000 }

/-- The same with a flag set. -/
def upFlag (f : Fld) : State := up.setFlag f 0 true

/-- Expert space is open. -/
def expert : State := upFlag Fld.SYS_CTRL_EXPERT_EN

/-- Locks do not depend on the moment. -/
theorem admits_begin {s : State} {src : Source} {a : Nat} (t : Nat) (h : s.Admits src a) : (s.begin t).Admits src a := by
  obtain ⟨h1, h2, h3, h4⟩ := h
  simp only [State.legacy, State.role, State.deaf, State.bootDead] at h1 h2 h4
  exact ⟨by simpa only [State.legacy, State.flag_begin] using h1, by simpa only [State.role, State.fld_begin] using h2,
    by simpa only [State.flag_begin] using h3, by simpa only [State.deaf, State.bootDead, State.fld_begin, State.flag_begin] using h4⟩

/-- A state outside legacy mode that is no standby and that no boot failure has left deaf, as a check. -/
def open_ (s : State) : Bool := !s.legacy && decide (s.role ≠ 2) && !s.bootDead

/-- No lock turns a write away outside expert space. -/
theorem plain_admits {s : State} (h : open_ s = true) (t : Nat) (src : Source) (a : Nat) (ha : expertAt a = false) : (s.begin t).Admits src a := by
  simp only [open_, Bool.and_eq_true, Bool.not_eq_true', decide_eq_true_eq] at h
  exact admits_begin t ⟨fun hl => absurd (h.1.1 ▸ hl) (by decide), fun hr => absurd hr h.1.2, fun he => absurd (ha ▸ he) (by decide), by simp [State.deaf, h.2]⟩

/-- Nor in expert space when it is open. -/
theorem expert_admits {s : State} (h : open_ s = true) (hx : s.flag Fld.SYS_CTRL_EXPERT_EN 0 = true) (t : Nat) (src : Source) (a : Nat) :
    (s.begin t).Admits src a := by
  simp only [open_, Bool.and_eq_true, Bool.not_eq_true', decide_eq_true_eq] at h
  exact admits_begin t ⟨fun hl => absurd (h.1.1 ▸ hl) (by decide), fun hr => absurd hr h.1.2, fun _ _ => hx, by simp [State.deaf, h.2]⟩

theorem up_open : open_ up = true := by decide +kernel
theorem up_admits (t : Nat) (src : Source) (a : Nat) (h : expertAt a = false) : (up.begin t).Admits src a := plain_admits up_open t src a h
theorem test_expert_admits (t : Nat) (src : Source) (a : Nat) : (expert.begin t).Admits src a :=
  expert_admits (by decide +kernel) (by decide +kernel) t src a

/-- Nothing has met on the present edge, and so nothing meets a write. -/
theorem test_alone {s : State} (h : s.regs.edge.wrote = [] ∧ s.regs.edge.sets = []) (t : Nat) (src : Source) (a : Nat) : (s.begin t).AloneAt src a := by
  have w : (s.begin t).edgeNow.wrote = [] ∧ (s.begin t).edgeNow.sets = [] := by
    unfold State.edgeNow
    by_cases c : (s.begin t).regs.edge.tick = (s.begin t).dev / pclk
    · rw [if_pos c]; exact h
    · rw [if_neg c]; exact ⟨rfl, rfl⟩
  exact ⟨by rw [w.1]; rfl, by simp [State.edgeSets, w.2]⟩

theorem up_alone (t : Nat) (src : Source) (a : Nat) : (up.begin t).AloneAt src a := test_alone ⟨rfl, rfl⟩ t src a

theorem up_quiet : up.Quiet := ⟨rfl, rfl⟩
theorem up_runs : up.Runs := by decide

/-! ### Well-formed commands -/

/-- One ill-formed command for each check: a source that commands nothing, an address that is no word's, and units that no variant has. -/
theorem test_wf_refuses :
    (Instr.registerWrite 0 .commit 0 0).wf = false ∧ (Instr.registerWrite 0 .spi 2 0).wf = false ∧ (Instr.guardTimeout 0 15).wf = false
    ∧ (Instr.snapshot 0 .twin).wf = false ∧ (Instr.apcUpdate 0 8).wf = false ∧ (Instr.cmWindowEnd 0 16 0 0).wf = false
    ∧ (Instr.hscManWrite 0 .spi 16 0).wf = false ∧ (Instr.hscManWrite 0 .twin 0 0).wf = false ∧ (Instr.mfConversionDone 0 16).wf = false
    ∧ (Instr.ddcOutput 0 4 0 [] [] []).wf = false ∧ (Instr.ddcOutput 0 0 16 [] [] []).wf = false ∧ (Instr.phaseSample 0 0 4).wf = false
    ∧ (Instr.engineRun 0 .spi 8).wf = false ∧ (Instr.add 0 8).wf = false ∧ (Instr.dmaComplete 0 0 4).wf = false ∧ (Instr.tachTimeout 0 8).wf = false
    ∧ (Instr.wckRun 0 .spi 8).wf = false ∧ (Instr.injectRequest 0 .spi 17).wf = false ∧ (Instr.auxResultRead 0 1).wf = false := by decide

theorem test_wf_refuses_more :
    (Instr.memRequest 0 12 0 false false none).wf = false ∧ (Instr.refreshDue 0 2 0).wf = false ∧ (Instr.queueDoorbell 0 .spi 64).wf = false
    ∧ (Instr.queueAccept 0 64).wf = false ∧ (Instr.hostDone 0 .spi 0 (2 ^ 31)).wf = false ∧ (Instr.linkDown 0 2).wf = false
    ∧ (Instr.cruJobEnd 0 2).wf = false ∧ (Instr.ptpDelayReqRx 0 2 false 0 0 0).wf = false ∧ (Instr.bellowsLaneLoss 0 2).wf = false := by decide

/-- Commands at the last unit that exists are well formed. -/
theorem test_wf_accepts :
    (Instr.registerWrite 0 .mgmt 0xFFFFFFFC 0).wf = true ∧ (Instr.guardTimeout 0 14).wf = true ∧ (Instr.add 0 7).wf = true
    ∧ (Instr.queueAccept 0 63).wf = true ∧ (Instr.ddcOutput 0 15 3 (List.replicate 8 (-8192)) (List.replicate 8 8191) (List.replicate 8 3)).wf = true ∧ (Instr.injectRequest 0 .hearth 16).wf = true := by decide

/-! ### The control bus -/

/-- The words of a staged register, of one in force at once, of one with a range and of one without a field to write. -/
theorem plain_at_block : up.PlainAt 0x50008 ⟨0x8, 1, 0x0, [⟨5, 0, .rws, .num 2, .range 1 32⟩]⟩ 0 :=
  ⟨by decide, by decide +kernel, by decide +kernel, by decide +kernel, by decide +kernel⟩
theorem plain_at_qbp : expert.PlainAt 0xF0004 ⟨0x4, 1, 0x0, [⟨5, 0, .rw, .num 0, .none⟩, ⟨8, 8, .rw, .num 0, .none⟩]⟩ 0 :=
  ⟨by decide, by decide +kernel, by decide +kernel, by decide +kernel, by decide +kernel⟩

/-- A value at each end of a range passes. -/
theorem test_meets_BusWrites :
    up.Runs ∧ up.Quiet ∧ up.boot.ready = false ∧ up.PlainAt (0x50008 : Word).toNat ⟨0x8, 1, 0x0, [⟨5, 0, .rws, .num 2, .range 1 32⟩]⟩ 0
    ∧ (∀ t src, (up.begin t).Admits src 0x50008) ∧ (∀ t src, (up.begin t).AloneAt src 0x50008) ∧ (∀ t src, (expert.begin t).AloneAt src 0xF0004)
    ∧ up.Passes 0x50008 0 1 ⟨5, 0, .rws, .num 2, .range 1 32⟩ ∧ up.Passes 0x50008 0 32 ⟨5, 0, .rws, .num 2, .range 1 32⟩
    ∧ expert.PlainAt (0xF0004 : Word).toNat ⟨0x4, 1, 0x0, [⟨5, 0, .rw, .num 0, .none⟩, ⟨8, 8, .rw, .num 0, .none⟩]⟩ 0
    ∧ (∀ t src, (expert.begin t).Admits src 0xF0004)
    ∧ expert.Passes 0xF0004 0 0x13F ⟨5, 0, .rw, .num 0, .none⟩ ∧ expert.Passes 0xF0004 0 0x13F ⟨8, 8, .rw, .num 0, .none⟩ :=
  ⟨up_runs, up_quiet, rfl, plain_at_block, fun t src => up_admits t src _ (by decide), fun t src => up_alone t src _, fun t src => test_alone ⟨by decide +kernel, by decide +kernel⟩ t src _, by decide +kernel, by decide +kernel, plain_at_qbp,
    fun t src => test_expert_admits t src _, by decide +kernel, by decide +kernel⟩

/-- An entry of a queue. -/
def entry (seq : Nat) (img : List Byte) : Entry := ⟨seq, img, false, false, 0, 1, 0, false⟩

/-- Queue 32, whose consumer is the host, with one entry. -/
def upQueued : State := up.onQueue 32 (fun x => { x with entries := [entry 5 []] })

/-- The last block of a unit that two-lane parts do not have. -/
def small : State := { up with fixed := { up.fixed with variant := .mq250 } }

/-- The table of a lane waits for its boundary. -/
def upPending : State := up.setLaneBit Fld.LAN_STAT_TBLPEND 0 true

/-- Every lane emits and its sequencer runs. -/
def upEmitting : State :=
  (List.range 8).foldl (fun s n => (s.onLane n (fun l => { l with st := .emitting })).setFld Fld.WCK_Ln_STAT_STATE n wsRunning) up

/-- A freeze is in force. -/
def upFrozen : State := { up.setFld Fld.SYS_CRC_CTRL_ACTION 0 1 with sys := { up.sys with declared := true, froze := true } }

/-- The SPI port has written a staged register on the present edge. -/
def upMet : State := { up with regs := { up.regs with edge := ⟨0, [⟨.spi, 0x50008, up.live 0x50008, up.staged 0x50008⟩], []⟩ } }

theorem test_meets_BusWrites_edge :
    (∃ w, w ∈ upMet.edgeNow.wrote ∧ w.addr = 0x50008 ∧ srcRank .mgmt < srcRank w.src) ∧ up.edgeNow.wrote = []
    ∧ regAt 0x50008 = some (⟨0x8, 1, 0x0, [⟨5, 0, .rws, .num 2, .range 1 32⟩]⟩, 0) :=
  ⟨⟨⟨.spi, 0x50008, up.live 0x50008, up.staged 0x50008⟩, by decide +kernel, rfl, by decide⟩, by decide +kernel, by decide +kernel⟩

theorem test_meets_BusWrites_windows :
    small.Runs ∧ small.sys.guards = [] ∧ small.sys.held = [] ∧ fusedBlock small.fixed 0x54E00 = true
    ∧ guardedRegs.contains 0x54E00 = false ∧ complementOf 0x54E00 = none ∧ open_ small = true ∧ expertAt 0x54E00 = false
    ∧ up.takes 0x14000 = true ∧ up.takes 0x0 = false
    ∧ (0x18000 : Word).toNat = 0x18000 ∧ (0x1FFFC : Word).toNat < 0x20000 ∧ up.fld Fld.LAN_TBLPAGE_LANE 0 = 0
    ∧ up.laneBit Fld.LAN_STAT_TBLPEND 0 = false ∧ upPending.laneBit Fld.LAN_STAT_TBLPEND 0 = true ∧ upPending.Runs ∧ open_ upPending = true
    ∧ bitsOf 15 0 (0x10000 : Word) = 0 ∧ bitsOf 15 0 (0x20 : Word) = 2 ^ 5 ∧ bitsOf 15 0 (0x4000 : Word) = 2 ^ 14
    ∧ upFrozen.frozen = true ∧ upFrozen.Runs ∧ open_ upFrozen = true ∧ upEmitting.frozen = false ∧ upEmitting.Runs ∧ open_ upEmitting = true
    ∧ upEmitting.role ≠ 1 ∧ (∀ n, n < upEmitting.lanes → upEmitting.canBoundary n = true) ∧ counterAddrs.length = 1920 := by
  decide +kernel

/-- A queue whose submission words do not carry their CRC, and one that is busy. -/
theorem test_meets_BusWrites_commands :
    expert.dummy 0 = false ∧ (expert.setFld Fld.TST_DUMMY_LANES 0 1).dummy (bitsOf 2 0 (0x50 : Word)) = true ∧ bitsOf 6 4 (0x50 : Word) ≤ 5
    ∧ (expert.setFld Fld.TST_DUMMY_LANES 0 1).Runs ∧ open_ (expert.setFld Fld.TST_DUMMY_LANES 0 1) = true
    ∧ (expert.setFld Fld.TST_DUMMY_LANES 0 1).flag Fld.SYS_CTRL_EXPERT_EN 0 = true
    ∧ up.flag Fld.QUE_Qq_STAT_SUBBUSY 63 = false ∧ expertAt (Fld.QUE_Qq_DOORBELL_SUBMIT.at 63) = false
    ∧ ((up.setFlag Fld.QUE_CTRL_EN 0 true).checkSubmit 0 .host ((up.setFlag Fld.QUE_CTRL_EN 0 true).subImage 0)) = some resCrc
    ∧ up.checkSubmit 0 .host (up.subImage 0) = some resNotPerm
    ∧ (upFlag Fld.QUE_Qq_STAT_SUBBUSY).flag Fld.QUE_Qq_STAT_SUBBUSY 0 = true ∧ (upFlag Fld.QUE_Qq_STAT_SUBBUSY).Runs
    ∧ open_ (upFlag Fld.QUE_Qq_STAT_SUBBUSY) = true := by decide +kernel

/-- Queue 0 with the words of a sealed descriptor. -/
def upSubmit : State :=
  let img := imgSeal (List.replicate 64 0)
  (wordsOf 16 img).zipIdx.foldl (fun s w => s.setLive (0xA4040 + 4 * w.2) w.1) (up.setFlag Fld.QUE_CTRL_EN 0 true)

theorem test_meets_BusWrites_submit : upSubmit.checkSubmit 0 .host (upSubmit.subImage 0) = none ∧ upSubmit.Runs ∧ open_ upSubmit = true := by decide +kernel

/-- The first chunk of an image of 65,536 bytes over SPI. -/
def upChunk : State :=
  let s := upFlag Fld.NET_STAT_BOOTWAIT
  let head := leBytes 4 0x4D514248 ++ leBytes 4 1 ++ leBytes 4 65536 ++ List.replicate 240 0
  { s with boot := { s.boot with stage := ((wordsOf 64 (head ++ leBytes 4 (crc32c head))).zipIdx.map (fun w => (w.2, w.1))).filter (fun c => c.2 ≠ 0) } }

theorem test_meets_BusWrites_completion :
    upQueued.Runs ∧ (upQueued.queue 32).oldest = some (entry 5 []) ∧ upQueued.cons 32 = consHost ∧ open_ upQueued = true ∧ expertAt 0xA602C = false
    ∧ (up.queue 32).oldest = none ∧ (entry 5 []).seq < 2 ^ 31
    ∧ (upFlag Fld.NET_STAT_BOOTWAIT).Runs ∧ (upFlag Fld.NET_STAT_BOOTWAIT).flag Fld.NET_STAT_BOOTWAIT 0 = true
    ∧ (upFlag Fld.NET_STAT_BOOTWAIT).boot.ready = false ∧ open_ (upFlag Fld.NET_STAT_BOOTWAIT) = true ∧ expertAt Fld.NET_BOOTCTL_READY.addr = false
    ∧ headerOk ((upFlag Fld.NET_STAT_BOOTWAIT).stageBytes) = false := by
  decide +kernel

theorem test_meets_BusWrites_chunk :
    upChunk.boot.stream = [] ∧ headerOk upChunk.stageBytes = true ∧ upChunk.stageBytes.length < imageGet upChunk.stageBytes 8 4 := by decide +kernel

/-- A pair of SYS_CTRL opened by the SPI port at 0. -/
def paired : State := { up with sys := { up.sys with guards := [⟨.spi, 4, 3, 0⟩] } }

/-- The last moment of a pair and the first after it: SYS_GUARD_TMO is 1,024 PCLK, 8,192 ticks. -/
theorem test_meets_GuardedPairs :
    guardedRegs.contains (0x4 : Word).toNat = true ∧ guardedRegs.contains (0xE0008 : Word).toNat = true
    ∧ paired.Runs ∧ paired.sys.guards = [⟨.spi, 4, 3, 0⟩] ∧ paired.sys.held = []
    ∧ (0x804 : Word).toNat = 4 + 0x800 ∧ (paired.begin 8192).now ≤ 0 + 8 * paired.fld Fld.SYS_GUARD_TMO_TMO 0
    ∧ (0xFFFFFFFC : Word) = ~~~ (3 : Word) ∧ (0 : Word) ≠ ~~~ (3 : Word)
    ∧ 4 / 0x10000 = 0 ∧ 0 + 8 * paired.fld Fld.SYS_GUARD_TMO_TMO 0 ≤ (paired.begin 8192).now := by decide +kernel

theorem test_meets_GuardedCommandsAndExpert :
    up.PairFree 0 ∧ up.PairFree 14 ∧ expertAt 4 = false ∧ expertAt 0x10 = false ∧ expertAt 0xE0000 = false ∧ up.flag Fld.SYS_CTRL_WARM 0 = false
    ∧ expertAt 0x32000 = true ∧ expertAt 0xF0000 = true ∧ expertAt 0x2FFC = true ∧ up.flag Fld.SYS_CTRL_EXPERT_EN 0 = false ∧ up.legacy = false
    ∧ up.role ≠ 2 := ⟨rfl, rfl, by decide +kernel⟩

theorem test_meets_ComplementMirror : 0x4 ∈ guardedRegs ∧ 0xE0008 ∈ guardedRegs ∧ up.fld Fld.SYS_BOOTSTAGE_STAGE 0 ≠ 15 ∧ up.Quiet ∧ 0x90004 % 2 = 0 :=
  ⟨by decide, by decide, by decide +kernel, up_quiet, by decide⟩

/-- A hold that ends at the moment it may. -/
def held : State := { up with sys := { up.sys with hold := some 0 } }

/-- The CRC of the configuration after reset is compared with a reference. -/
def comparing (ref : Nat) (mis : Nat) : State :=
  { (up.setFlag Fld.SYS_CRC_CTRL_EN 0 true).setFld Fld.SYS_CRC_REF_REF 0 ref with sys := { up.sys with mismatches := mis }, now := 65536 * 8 }

theorem test_meets_ReadsAndReadOnlyFields :
    (0x200 : Word).toNat = 0x200 ∧ (0xB0204 : Word).toNat = 0xB0204 ∧ up.fld Fld.SYS_BOOTSTAGE_STAGE 0 ≠ 15
    ∧ ((upFlag Fld.SYS_STAT_BOOTFAIL).setFld Fld.SYS_BOOTSTAGE_STAGE 0 15).flag Fld.SYS_STAT_BOOTFAIL 0 = true
    ∧ ((upFlag Fld.SYS_STAT_BOOTFAIL).setFld Fld.SYS_BOOTSTAGE_STAGE 0 15).fld Fld.SYS_BOOTSTAGE_STAGE 0 = 15
    ∧ ((upFlag Fld.SYS_STAT_BOOTFAIL).setFld Fld.SYS_BOOTSTAGE_STAGE 0 15).Runs
    ∧ (up.begin (65536 * 8)).dev % (65536 * 8) = 0 ∧ (up.begin 7).dev % (65536 * 8) ≠ 0 ∧ up.sys.passDirty = false
    ∧ { up with sys := { up.sys with passDirty := true } }.Runs ∧ held.Runs ∧ held.sys.hold = some 0
    ∧ 0 + 2 ^ 24 * 8 ≤ (held.begin 134217728).now ∧ (held.begin 134217727).now < 0 + 2 ^ 24 * 8 ∧ held.fld Fld.SYS_COMMIT_PEND 0 = 0
    ∧ (List.all [⟨7, 0, .ro, .fuseRev, .none⟩, ⟨31, 16, .ro, .fusePart, .none⟩] (fun fd : FieldDef => fd.acc = .ro)) = true
    ∧ ((regAt 0x8).map (fun e => e.1.fields.any (fun fd => fd.acc = .wo))) = some true
    ∧ ((regAt 0x24).map (fun e => e.1.fields.any (fun fd => fd.acc = .wog))) = some true := by decide +kernel

theorem test_meets_ReadsAndReadOnlyFields_plain : up.PlainAt (0 : Word).toNat ⟨0x0, 1, 0x0, [⟨7, 0, .ro, .fuseRev, .none⟩, ⟨31, 16, .ro, .fusePart, .none⟩]⟩ 0 :=
  ⟨by decide, by decide +kernel, by decide +kernel, by decide +kernel, by decide +kernel⟩

/-- No register is split between units, whatever the reference. -/
theorem test_meets_ReadsAndReadOnlyFields_whole :
    (comparing 0 1).Runs ∧ (comparing 0 1).flag Fld.SYS_CRC_CTRL_EN 0 = true ∧ (comparing 0 1).sys.hold = none ∧ (comparing 0 1).sys.declared = false
    ∧ (comparing 0 1).fld Fld.SYS_CRC_CTRL_ACTION 0 ≠ 2 ∧ (comparing 0 0).sys.mismatches = 0
    ∧ coveredRegs.all (fun e => !(comparing 0 1).forceSplit e.2.1 e.2.2.1 e.2.2.2) = true := by decide +kernel

/-! ### Power, resets and boot -/

/-- The device in a power phase. -/
def phased (p : Power) : State := { up with sys := { up.sys with power := p, intlkOk := true } }

/-- The device at a boot stage. -/
def staged (k : Nat) : State := up.setFld Fld.SYS_BOOTSTAGE_STAGE 0 k

theorem test_meets_PowerAndReset :
    State.reset.powered = true ∧ up.powered = true ∧ 1000 ≤ (ResetLow.mk 7 1000).ns ∧ (ResetLow.mk 7 99).ns < 100
    ∧ (727499 < 727500 ∧ 772500 < 772501 ∧ 881999 < 882000 ∧ 918000 < 918001 ∧ 1163999 < 1164000 ∧ 1236000 < 1236001 ∧ 3134999 < 3135000 ∧ 3465000 < 3465001)
    ∧ State.reset.sys.power = .cold ∧ State.reset.sys.railsAt + 781250 ≤ (State.reset.begin 781250).now
    ∧ (State.reset.begin 781249).now < State.reset.sys.railsAt + 781250
    ∧ (bit 1 0 = true ∧ ∀ n, n < State.reset.lanes → (State.reset.laneOf n).st = .off ∧ State.reset.wickOn n = false) ∧ (phased .pll).sys.power = .pll ∧ (phased .pll).sys.intlkOk = true
    ∧ (phased .hib).sys.power = .hib ∧ 100 ≤ 100 ∧ (phased .off).sys.power = .off ∧ 10000 < 10001 ∧ 10800 < 10801 := by decide +kernel

/-- The watchdog armed at 0. -/
def armed : State := { up with sys := { up.sys with wdog := some 0 } }

/-- Hearth is restarting in a boot stage. -/
def restarting (k : Nat) : State := { staged k with sys := { up.sys with hearth := false } }

theorem test_meets_HoldsAndSupervisor :
    (phased .hold).sys.power = .hold ∧ (phased .hold).sys.powerAt + 1024 * 8 ≤ ((phased .hold).begin 8192).now
    ∧ armed.Runs ∧ armed.sys.hearth = true ∧ armed.sys.wdog = some 0 ∧ 0 + 12500000 ≤ (armed.begin 12500000).now
    ∧ (restarting 3).Runs ∧ (restarting 3).sys.hearth = false ∧ 3 ≤ (restarting 3).fld Fld.SYS_BOOTSTAGE_STAGE 0
    ∧ 3 ≤ (restarting 14).fld Fld.SYS_BOOTSTAGE_STAGE 0 ∧ (restarting 14).fld Fld.SYS_BOOTSTAGE_STAGE 0 < 15 ∧ up.PairFree 0 ∧ upEmitting.PairFree 0
    ∧ (1000 : Int) < 1001 ∧ (-1001 : Int) < -1000 ∧ expertAt Fld.SYS_HIBCTRL_GO.addr = false ∧ open_ up = true ∧ up.mayHibernate = true ∧ up.sys.hibDue = none
    ∧ upEmitting.mayHibernate = false ∧ open_ upEmitting = true
    ∧ (let s := { up with sys := { up.sys with hibDue := some (9, true) } }
       ((s.begin 9).feedSample 12000 0).sys.hibDue = some (9, true) ∧ 9 ≤ (s.begin 9).now)
    ∧ (let s := { phased .hib with pwr := { up.pwr with gatesOff := some 9 } }
       s.sys.power = .hib ∧ s.sys.hibDue = none ∧ s.pwr.gatesOff = some 9 ∧ 9 ≤ (s.begin 9).now) := ⟨by decide, by decide, by decide, by decide, by decide, by decide, by decide +kernel, by decide, by decide +kernel, by decide +kernel, by decide +kernel, rfl,
    by unfold State.PairFree; decide +kernel, by decide +kernel⟩

theorem test_meets_BootAndImages :
    (staged 2).Runs ∧ (staged 2).fld Fld.SYS_BOOTSTAGE_STAGE 0 = 2 ∧ (staged 2).bootSrc ≠ 2
    ∧ (staged 3).Runs ∧ (staged 3).sys.hearth = true ∧ (staged 3).fld Fld.SYS_BOOTSTAGE_STAGE 0 = 3 ∧ (staged 3).misfit = false ∧ (staged 4).fld Fld.SYS_BOOTSTAGE_STAGE 0 = 4
    ∧ headerOk [] = false := by decide +kernel

/-! ### Anvil -/

/-- An instruction word: operation, function and the bits below. -/
def iw (op fn low : Nat) : Nat := op * 2 ^ 58 + fn * 2 ^ 50 + low

/-- Engine 0 with its clocks, RUNNING at the word `w` at address 0, changed by `f`. -/
def ready (w : Nat) (f : Engine → Engine) : State :=
  up.onEngine 0 (fun x => f { x with st := .running, run := true, imem := sput 0 (sput 0 [] 0 (BitVec.ofNat 32 w)) 1 (BitVec.ofNat 32 (w / 2 ^ 32)) })

/-- What `State.EngineAt` says, as a check. -/
def atWord (s : State) (e w op fn : Nat) : Bool :=
  s.clocked && decide (e < s.lanes) && (s.engine e).issuing && decide (s.anvWord e = w) && decide (anvDecode w = some (op, fn))
    && decide (s.eccAt 2 (engBase e + 8 * (s.engine e).pc) ≠ 2)

theorem engineAt_of {s : State} {e w op fn : Nat} (h : atWord s e w op fn = true) : s.EngineAt e w op fn := by
  simp only [atWord, Bool.and_eq_true, decide_eq_true_eq] at h
  obtain ⟨⟨⟨⟨⟨h1, h2⟩, h3⟩, h4⟩, h5⟩, h6⟩ := h
  exact ⟨h1, h2, h3, h4, h5, h6⟩

/-- What `State.DataAt` says, as a check. -/
def dataOk (s : State) (e a n align : Nat) : Bool := decide (a < 0x80000) && decide (a % align = 0) && decide (s.eccRange 1 (engBase e + a) n ≠ 2)

theorem dataAt_of {s : State} {e a n align : Nat} (h : dataOk s e a n align = true) : s.DataAt e a n align := by
  simp only [dataOk, Bool.and_eq_true, decide_eq_true_eq] at h
  exact ⟨h.1.1, h.1.2, h.2⟩

/-- The bits below OP and FN that an operation cannot do without: V, two pointers, an event mask. -/
def need (op : Nat) : Nat := if op = 0x22 then 2 ^ 36 else if op = 0x16 then 2 ^ 38 else if op = 0x32 then 1 else 0

/-- For every operation and function of the opcode table there is an engine that stands at a legal word of it. -/
theorem test_meets_engine :
    anvTable.all (fun r => (List.range (r.2.2.1 + 1 - r.2.1)).all (fun k =>
      atWord (ready (iw r.1 (r.2.1 + k) (need r.1)) id) 0 (iw r.1 (r.2.1 + k) (need r.1)) r.1 (r.2.1 + k))) = true := by decide +kernel

/-- Such an engine may access its data memory at 0 and at the last row. -/
theorem test_meets_engine_data :
    dataOk (((ready 0 id).begin 0).fetched 0) 0 0 64 64 = true ∧ dataOk ((((ready 0 id).begin 0).fetched 0).dataRead 0 0 64) 0 0x7FFC0 64 64 = true
    ∧ dataOk ((((ready 0 id).begin 0).fetched 0).dataRead 0 0 64) 0 0x7FFFE 2 2 = true := by decide +kernel

/-- A word with the same P and Q is legal but for a butterfly. -/
theorem test_same_pointers : anvDecode (iw 0x13 0 0) = some (0x13, 0) ∧ anvDecode (iw 0x16 0 0) = none := by decide

/-- The ends of the 32-bit and the 16-bit format, and halves that go to even. -/
theorem test_meets_VectorArithmetic :
    (Engine.reset 0).bexp.head ≤ 15 ∧ wBx 0 = false ∧ wBx (2 ^ 56) = true ∧ (wideLane true (2 ^ 31 - 1)).ov = false ∧ (wideLane true (2 ^ 31)).ov = true
    ∧ (wideLane true (-(2 ^ 31) - 1)).val = 0x80000001 ∧ (halfLane true 32767 (-32769)).ov = true ∧ (halfLane true 32767 (-32769)).val = 0x80017FFF
    ∧ shrEven 3 1 = 2 ∧ shrEven 5 1 = 2 ∧ shrEven (-5) 1 = -2 ∧ 2 * (shrEven 3 1 * 2 ^ 1 - 3) = 2 ^ 1 := by decide +kernel

/-- p0 beyond data memory, misaligned, and under a double-bit error. -/
theorem test_meets_EngineFaults :
    (let s := ready (iw 0x20 0 0) (fun x => { x with p := x.p.setIfInBounds 0 0x80000 })
     atWord s 0 (iw 0x20 0 0) 0x20 0 = true ∧ 0x80000 ≤ (s.engine 0).ea (wP (iw 0x20 0 0)))
    ∧ (let s := ready (iw 0x03 1 0) (fun x => { x with p := x.p.setIfInBounds 0 1 })
       atWord s 0 (iw 0x03 1 0) 0x03 1 = true ∧ (s.engine 0).ea (wP (iw 0x03 1 0)) % 2 ≠ 0)
    ∧ (let s := { ready (iw 0x20 0 0) id with sys := { up.sys with eccBad := [(1, true, 0)] } }
       atWord s 0 (iw 0x20 0 0) 0x20 0 = true ∧ ((s.begin 0).fetched 0).eccRange 1 (engBase 0 + 0) 64 = 2)
    ∧ ((ready 0 id).Runs ∧ ((ready 0 id).engine 0).issuing = true ∧ anvDecode ((ready 0 id).anvWord 0) = none ∧ ((ready 0 id).engine 0).fly = [])
    ∧ (up.onEngine 0 (fun x => { x with st := .error })).Runs ∧ ((up.onEngine 0 (fun x => { x with st := .error })).engine 0).st = .error
    ∧ open_ (up.onEngine 0 (fun x => { x with st := .error })) = true ∧ expertAt (Fld.ANV_En_CTRL_RUN.at 0) = false := by decide +kernel

/-- SWR with no binding: a checkpoint block can be written without a report of its lane. -/
theorem test_meets_BranchesAndSpecialRegisters :
    (let s := ready (iw 0x38 1 0) (fun x => { x with bound := none })
     atWord s 0 (iw 0x38 1 0) 0x38 1 = true ∧ (s.engine 0).bound = none ∧ (s.engine 0).fly = []) := by decide +kernel

/-- REP before a JMP, before an ADD, with the counts 1 and 65,536, and a HALT in its last iteration and before it. -/
theorem test_meets_Repeat :
    (let s := ready (iw 0x31 0 0) (fun x => { x with imem := sput 0 x.imem 3 (BitVec.ofNat 32 (iw 0x30 0 0 / 2 ^ 32)) })
     atWord s 0 (iw 0x31 0 0) 0x31 0 = true ∧ anvDecode ((s.engine 0).word (((s.engine 0).pc + 1) % 8192)) = some (0x30, 0))
    ∧ (let s := ready (iw 0x31 1 (2 ^ 45)) (fun x => { x with imem := sput 0 x.imem 3 (BitVec.ofNat 32 (iw 0x30 0 0 / 2 ^ 32)), s := x.s.setIfInBounds 1 65536 })
       atWord s 0 (iw 0x31 1 (2 ^ 45)) 0x31 1 = true ∧ 0 < ((s.engine 0).sreg (wD (iw 0x31 1 (2 ^ 45)))).toNat
       ∧ ((s.engine 0).sreg (wD (iw 0x31 1 (2 ^ 45)))).toNat ≤ 65536
       ∧ anvDecode ((s.engine 0).word (((s.engine 0).pc + 1) % 8192)) = some (0x30, 0))
    ∧ (let s := ready (iw 0x31 1 0) (fun x => { x with imem := sput 0 x.imem 3 (BitVec.ofNat 32 (iw 0x01 0 0 / 2 ^ 32)) })
       atWord s 0 (iw 0x31 1 0) 0x31 1 = true ∧ repBanned ((s.engine 0).word (((s.engine 0).pc + 1) % 8192)) = false)
    ∧ (let s := ready (iw 0x33 1 0) (fun x => { x with rep := some ⟨1, 4⟩ })
       atWord s 0 (iw 0x33 1 0) 0x33 1 = true ∧ (s.engine 0).rep = some ⟨1, 4⟩ ∧ (s.engine 0).fly = [])
    ∧ (let s := ready (iw 0x33 1 0) (fun x => { x with rep := some ⟨2, 4⟩ })
       atWord s 0 (iw 0x33 1 0) 0x33 1 = true ∧ (s.engine 0).rep = some ⟨2, 4⟩)
    ∧ (let s := ready (iw 0x33 1 0) id
       atWord s 0 (iw 0x33 1 0) 0x33 1 = true ∧ (s.engine 0).rep = none ∧ (s.engine 0).fly = []) := by decide +kernel

/-- WAIT for EVT0 with it pending and with another one pending; a WAIT that an event ends. -/
theorem test_meets_WaitForEvents :
    (let s := ready (iw 0x32 0 1) (fun x => { x with evt := 1 })
     atWord s 0 (iw 0x32 0 1) 0x32 0 = true ∧ (s.engine 0).haltReq = false ∧ (s.engine 0).stepping = false
     ∧ firstBit ((s.engine 0).evt.toNat &&& wImm (iw 0x32 0 1)) [0, 1, 2, 4, 5, 6, 7] = some 0)
    ∧ (let s := ready (iw 0x32 0 1) (fun x => { x with evt := 2, haltReq := true })
       atWord s 0 (iw 0x32 0 1) 0x32 0 = true ∧ firstBit ((s.engine 0).evt.toNat &&& wImm (iw 0x32 0 1)) [0, 1, 2, 4, 5, 6, 7] = none)
    ∧ (let x := { Engine.reset 0 with wait := .event 0x80 1 }
       x.wait = .event 0x80 1 ∧ bit 0x80 7 = true ∧ x.evt = 0 ∧ x.haltReq = false ∧ x.stepping = false) := by decide +kernel

/-- Two different pointers at aligned rows. -/
theorem test_meets_ComplexButterfly :
    (let s := ready (iw 0x16 1 (2 ^ 38)) (fun x => { x with p := x.p.setIfInBounds 1 0x7FFC0 })
     atWord s 0 (iw 0x16 1 (2 ^ 38)) 0x16 1 = true ∧ (s.engine 0).ea (wP (iw 0x16 1 (2 ^ 38))) = 0 ∧ (s.engine 0).ea (wQ (iw 0x16 1 (2 ^ 38))) = 0x7FFC0
     ∧ dataOk ((s.begin 0).fetched 0) 0 0 64 64 = true ∧ dataOk (((s.begin 0).fetched 0).dataRead 0 0 64) 0 0x7FFC0 64 64 = true) := by decide +kernel

theorem test_meets_DmaAndQueueWork :
    (let s := ready (iw 0x25 0 0) id
     atWord s 0 (iw 0x25 0 0) 0x25 0 = true ∧ ((s.engine 0).sreg (wA (iw 0x25 0 0))).toNat = 0 ∧ dataOk ((s.begin 0).fetched 0) 0 0 64 64 = true
     ∧ dataOk ((s.begin 0).fetched 0) 0 0 32 32 = true ∧ [0, 1, 2, 3].all (fun c => !((s.engine 0).chan c).busy))
    ∧ (let s := ready (iw 0x25 0 0) (fun x => x.onDma 3 (fun d => { d with busy := true, out := true }))
       atWord s 0 (iw 0x25 0 0) 0x25 0 = true ∧ 3 < 4 ∧ ((s.engine 0).chan 3).busy = true ∧ ((s.engine 0).chan 3).out = true)
    ∧ [0, 1, 2].all (fun fn => atWord (ready (iw 0x24 fn 0) id) 0 (iw 0x24 fn 0) 0x24 fn) = true
    ∧ [1, 2].all (fun fn => atWord (ready (iw 0x25 fn 0) id) 0 (iw 0x25 fn 0) 0x25 fn) = true := by decide +kernel

/-- An engine in each state. -/
def inState (st : EngState) (halt : Bool) : State := up.onEngine 7 (fun x => { x with st := st, haltReq := halt })

theorem test_meets_EngineControl :
    [EngState.halted, .running, .waiting, .error].all (fun st => (inState st true).clocked && decide (7 < (inState st true).lanes) && open_ (inState st true)
      && decide (((inState st true).engine 7).st = st) && ((inState st true).engine 7).haltReq && decide (((inState st true).engine 7).wait = .none)
      && decide (((inState st true).engine 7).rep = none)) = true
    ∧ expertAt (Fld.ANV_En_CTRL_RUN.at 7) = false := by decide +kernel

/-- Engine 7's memories at their last words, and a channel whose transfer of one row is under way. -/
theorem test_meets_EngineMemoriesAndTransfers :
    7 < up.lanes ∧ (0x0170FFFC : Word).toNat = 0x01000000 + 0x100000 * 7 + 4 * 0x3FFF ∧ (0x017FFFFC : Word).toNat = 0x01080000 + 0x100000 * 7 + 4 * 0x1FFFF
    ∧ expertAt 0x0170FFFC = false ∧ up.eccAt 1 (engBase 7 + 4 * 0x1FFFF) = 0
    ∧ up.flag Fld.MEM_STAT_READY 0 = false
    ∧ (let s := (upFlag Fld.MEM_STAT_READY).onEngine 0 (fun x => x.onDma 3 (fun d => { d with busy := true, rows := 1, len := 64 }))
       s.Runs ∧ s.flag Fld.MEM_STAT_READY 0 = true ∧ ((s.engine 0).chan 3).busy = true ∧ ((s.begin 0).dmaRows 0 ((s.engine 0).chan 3) ((s.engine 0).chan 3).rows 0).2 = 0)
    ∧ (let s := ((upFlag Fld.MEM_STAT_READY).onEngine 0 (fun x => x.onDma 3 (fun d => { d with busy := true, rows := 1, len := 64 })))
       let u := { s with sys := { s.sys with eccBad := [(0, true, 0), (1, true, 0)] } }
       u.Runs ∧ u.flag Fld.MEM_STAT_READY 0 = true ∧ ((u.engine 0).chan 3).busy = true
       ∧ 0 < ((u.begin 0).dmaRows 0 ((u.engine 0).chan 3) ((u.engine 0).chan 3).rows 0).2) := by decide +kernel

/-- A tachometer whose reset edge is the falling one, before and after its timeout. -/
theorem test_meets_Tachometers :
    7 < 8 * (up.setFld Fld.ANV_Tt_CFG_FILT 7 1).fld Fld.ANV_Tt_CFG_FILT 7 ∧ 8 * (up.setFld Fld.ANV_Tt_CFG_FILT 7 1).fld Fld.ANV_Tt_CFG_FILT 7 ≤ 8
    ∧ (up.setFld Fld.ANV_Tt_CFG_FILT 7 1).Runs ∧ up.flag Fld.ANV_Tt_CFG_EDGE 7 = false ∧ (true ≠ up.flag Fld.ANV_Tt_CFG_EDGE 7) ∧ up.flag Fld.ANV_Tt_STAT_LEVEL 7 ≠ true
    ∧ (up.tachOf 7).last + up.fld Fld.ANV_Tt_TMO_TMO 7 * 65536 * 8 ≤ (up.begin 4000000000000).dev := by decide +kernel

/-- A pair form whose first lane overflows. -/
theorem test_meets_AccumulatorOverflow :
    (let s := ready (iw 0x12 3 (2 ^ 40 + 2 ^ 35)) (fun x => { x with a := Vector.replicate 4 (Vector.replicate 16 (BitVec.ofNat 40 (2 ^ 39 - 1))), v := Vector.replicate 32 (vecOf (fun _ => 0x00020001)) })
     atWord s 0 (iw 0x12 3 (2 ^ 40 + 2 ^ 35)) 0x12 3 = true ∧ (s.engine 0).aov = false ∧ (s.engine 0).active (iw 0x12 3 (2 ^ 40 + 2 ^ 35)) 0 = true
     ∧ fits 40 (((s.engine 0).acc 0).int 0 + ((s.engine 0).vec 1).lo 0 * ((s.engine 0).vec 1).lo 0) = false) := by decide +kernel

/-! ### Wick -/

/-- A sequencer word. -/
def ww (op arg : Nat) : Nat := op * 2 ^ 26 + arg

/-- Lane `n`'s sequencer in state `st` at the word `w` at address 0, changed by `f`. -/
def wickIn (n st w : Nat) (f : Wick → Wick) : State :=
  (up.onWick n (fun x => f { x with prog := sput 0 [] 0 (BitVec.ofNat 32 w) })).setFld Fld.WCK_Ln_STAT_STATE n st

/-- What `State.WickAt` says, as a check. -/
def atOp (s : State) (t n op arg : Nat) : Bool := s.clocked && (s.begin t).wickAt n op && decide (bitsOf 25 0 (s.wickWord n) = arg)

theorem wickAt_of {s : State} {t n op arg : Nat} (h : atOp s t n op arg = true) : s.WickAt t n op arg := by
  simp only [atOp, Bool.and_eq_true, decide_eq_true_eq] at h
  exact ⟨h.1.1, h.1.2, h.2⟩

/-- Every operation with its largest operand, and one past it where the word has room for that. -/
theorem test_meets_WickInstructions :
    [(0, 0), (1, 2 ^ 26 - 1), (2, 3), (3, 8191), (4, 15), (5, 2 ^ 24 - 1), (6, 0), (7, 65535), (8, 0), (9, 1023), (10, 7), (11, 65535),
     (0, 1), (2, 4), (3, 8192), (4, 16), (5, 2 ^ 24), (6, 1), (7, 65536), (8, 1), (9, 1024), (10, 8), (11, 65536), (1, 0), (11, 0)].all
       (fun p => atOp (wickIn 7 wsRunning (ww p.1 p.2) id) 0 7 p.1 p.2) = true
    ∧ [3, 4].all (fun b => ((wickIn 7 wsRunning (ww 2 b) id).begin 0).launchesBefore 7 ((wickIn 7 wsRunning (ww 2 b) id).wick 7).next = []) = true
    ∧ ((wickIn 7 wsRunning (ww 2 3) id).laneOf 7).cells.all (fun c => c.probe ≠ 3) = true
    ∧ (let s := (wickIn 7 wsRunning (ww 2 3) id).onLane 7 (fun l => { l with cells := [⟨3, 0, 0, none, 0, 0, 0⟩] })
       atOp s 0 7 2 3 = true ∧ (s.begin 0).launchesBefore 7 (s.wick 7).next = [] ∧ (s.laneOf 7).cells.any (fun c => c.probe = 3) = true) := by decide +kernel

theorem test_meets_WickInstructions_loops :
    (let s := wickIn 0 wsRunning (ww 7 1) (fun x => { x with loops := [(1, 1), (2, 2), (3, 3)] })
     atOp s 0 0 7 1 = true ∧ (s.wick 0).loops.length < 4)
    ∧ (let s := wickIn 0 wsRunning (ww 7 1) (fun x => { x with loops := [(1, 1), (2, 2), (3, 3), (4, 4)] })
       atOp s 0 0 7 1 = true ∧ 4 ≤ (s.wick 0).loops.length)
    ∧ (let s := wickIn 0 wsRunning (ww 8 0) (fun x => { x with loops := [(5, 0)] })
       atOp s 0 0 8 0 = true ∧ (s.wick 0).loops = [(5, 0)] ∧ 5 ≠ s.fld Fld.WCK_Ln_PC_PC 0)
    ∧ (let s := wickIn 0 wsRunning (ww 8 0) (fun x => { x with loops := [(0, 3)] })
       atOp s 0 0 8 0 = true ∧ (s.wick 0).loops = [(s.fld Fld.WCK_Ln_PC_PC 0, 3)]) := by decide +kernel

/-- Waits that end at the moment they may: a PPS wait lasts 1.5 s, 1,171,875,000 ticks. -/
theorem test_meets_WickWaitsAndGrid :
    (let s := wickIn 0 wsWaiting 0 (fun x => { x with wait := .wait })
     s.Runs ∧ 0 < s.lanes ∧ s.fld Fld.WCK_Ln_STAT_STATE 0 = wsWaiting ∧ (s.wick 0).wait = .wait ∧ (s.wick 0).next ≤ (s.begin 0).dev)
    ∧ (let s := wickIn 0 wsWaiting 0 (fun x => { x with wait := .align })
       s.fld Fld.WCK_Ln_STAT_STATE 0 = wsWaiting ∧ (s.wick 0).wait = .align ∧ (s.wick 0).next ≤ (s.begin 0).dev)
    ∧ (let s := wickIn 0 wsWaiting 0 (fun x => { x with wait := .pps })
       (s.wick 0).wait = .pps ∧ (s.wick 0).ppsFrom + 1171875000 ≤ (s.begin 1171875000).dev)
    ∧ 0 < 1 := by decide +kernel

theorem test_meets_WickFaultsAndControl :
    (let s := wickIn 0 wsRunning (ww 12 0) id
     s.Runs ∧ s.fld Fld.WCK_Ln_STAT_STATE 0 = wsRunning ∧ (s.wick 0).next ≤ (s.begin 0).dev ∧ 12 ≤ bitsOf 31 26 (s.wickWord 0))
    ∧ expertAt Fld.WCK_CTRL_RUN.addr = false ∧ (0x6FFFC : Word).toNat = 0x68000 + 0x1000 * 7 + 4 * 1023 ∧ expertAt 0x6FFFC = false
    ∧ (BitVec.ofNat 32 (Fld.WCK_Ln_PC_PC.at 7) : Word).toNat = Fld.WCK_Ln_PC_PC.at 7 ∧ expertAt (Fld.WCK_Ln_PC_PC.at 7) = false := by decide +kernel

/-- As many samples as a capture's units hold. -/
theorem fed_whole (c : Capture) (len : Nat) (x : Int) : c.fed len (List.replicate (2048 * len) x) = true := by
  unfold Capture.fed
  split
  · rw [List.length_replicate, decide_eq_true rfl]
  · rfl

theorem test_meets_WickActions :
    (let s := wickIn 0 wsRunning 0 (fun x => { x with tone := [(0, 8)], toneOn := true, trigs := [(0, 3)], capture := some ⟨0, 40, 3, 1, 0, false, false, []⟩ })
     s.Runs ∧ (s.wick 0).tone = [(0, 8)] ∧ (s.wick 0).toneOn = true ∧ 8 ≤ (s.begin 8).dev ∧ (s.wick 0).trigs = [(0, 3)]
     ∧ ∃ c, (s.wick 0).capture = some c ∧ c.endsAt ≤ (s.begin 1000000).dev ∧ (s.begin 1000000).captured c = 4096 * c.len
       ∧ c.fed c.len (List.replicate (2048 * 40) (-8192)) = true ∧ 4096 * 23 + 65536 < (s.begin 1000000).captured c
       ∧ c.fed 23 (List.replicate (2048 * 23) 8191) = true) :=
  ⟨by decide, by decide +kernel, by decide +kernel, by decide +kernel, by decide +kernel, ⟨0, 40, 3, 1, 0, false, false, []⟩, by decide +kernel,
    by decide +kernel, by decide +kernel, fed_whole _ _ _, by decide +kernel, fed_whole _ _ _⟩

/-! ### Lantern -/

/-- Lane 0 changed by `f`. -/
def laned (f : Lane → Lane) : State := up.onLane 0 f

theorem test_meets_EmissionIsGated :
    up.PairFree 1 ∧ expertAt Fld.LAN_CTRL_EMIT_EN.addr = false ∧ expertAt Fld.LAN_QCLR_CLR.addr = false ∧ (up.laneOf 7).st = .off
    ∧ (1 : Word).toNat < 2 ^ up.lanes ∧ up.fld Fld.LAN_CTRL_EMIT_EN 0 = 0 ∧ up.flag Fld.LAN_STAT_HSC_READY 0 = false
    ∧ (let s := up.each (List.range 8) (fun n s => s.onLane n (fun l => { l with st := .quenched }))
       (List.range 8).all (fun n => (s.laneOf n).st = .quenched) = true) := ⟨rfl, by decide +kernel⟩

theorem test_meets_LanternEvents :
    (let s := laned (fun l => { l with st := .ramp, monCnt := 64, decayAt := some 0 })
     s.Runs ∧ 0 < s.lanes ∧ (s.laneOf 0).st = .ramp ∧ (s.laneOf 0).since + 2048 * 8 ≤ (s.begin 16384).dev ∧ s.twn.oswAt = none
     ∧ s.sampled 0 = true ∧ s.dummy 0 = false ∧ 5 * (s.begin 0).setpoint 0 false / 4 + 10000 < 2000000000 ∧ (s.laneOf 0).st ≠ .quenched ∧ 64 ≤ (s.laneOf 0).monCnt
     ∧ (s.laneOf 0).decayAt = some 0)
    ∧ (up.begin 8000).dev % 8000 = 0
    ∧ (phased .run).sys.intlkOk = true ∧ (phased .run).intlkFilter ≤ 1000000000
    ∧ ({ up with sys := { up.sys with intlkOk := false } } : State).sys.intlkOk = false := by decide +kernel

theorem test_meets_QuenchClears :
    (let s := { up with lan := { up.lan with clearAt := some 0 } }
     s.Runs ∧ s.lan.clearAt = some 0 ∧ 0 + 4256 * 8 ≤ (s.begin 34048).dev) := by decide

theorem test_meets_LaunchAndBooster :
    (let s := laned (fun l => { l with st := .emitting, pulse := some 0 })
     s.Runs ∧ (s.laneOf 0).st = .emitting ∧ (s.laneOf 0).boost = .keep ∧ (s.laneOf 0).pulse = some 0 ∧ 0 ≤ (s.begin 0).dev + 8 * s.fld Fld.LAN_Ln_STRB_LEAD 0)
    ∧ [BoostPhase.lead, .pulse, .tail].all (fun b => decide (((laned (fun l => { l with boost := b })).laneOf 0).boost = b)
        && decide (((laned (fun l => { l with boost := b })).laneOf 0).edge ≤ ((laned (fun l => { l with boost := b })).begin 0).dev)) = true
    ∧ (let s := laned (fun l => { l with cells := [⟨1, 9, 0, none, 0, 0, 0⟩, ⟨0, 5, 0, none, 0, 0, 0⟩] })
       (dueCell (s.begin 9).dev (s.laneOf 0).cells).map (·.probe) = some 0) := by decide +kernel

/-! ### Receive, converters, downconversion, phase -/

/-- Channel 15 changed by `f`, in a range mode. -/
def orxIn (mode : Nat) (f : OrxCh → OrxCh) : State := (up.onOrx 15 f).setFld Fld.ORX_Cn_RANGE_MODE 15 mode

theorem test_meets_OpticalReceive :
    (let s := orxIn 1 (fun x => { x with step := some (2, 0) })
     s.Runs ∧ 15 < 2 * s.lanes ∧ s.fld Fld.ORX_Cn_RANGE_MODE 15 ≠ 2 ∧ (s.orxCh 15).blanked = false ∧ (s.orxCh 15).step = some (2, 0))
    ∧ (let s := orxIn 2 (fun x => { x with rise := some 0 })
       s.fld Fld.ORX_Cn_RANGE_MODE 15 = 2 ∧ (s.orxCh 15).step = none ∧ (s.orxCh 15).rise = some 0 ∧ (s.orxCh 15).blanked = false)
    ∧ (let s := laned (fun l => { l with blankEnd := some 8 })
       (s.laneOf 0).blankEnd = some 8 ∧ (s.begin 7).dev < 8 ∧ 8 ≤ (s.begin 8).dev)
    ∧ up.rangeOf 0 = up.fld Fld.ORX_Cn_STAT_RNG 0 ∧ up.rangeOf 0 < 4
    ∧ (let s := up.setFld Fld.ORX_Cn_STAT_RNG 0 3
       s.rangeOf 0 ≠ s.fld Fld.ORX_Cn_STAT_RNG 0)
    ∧ expertAt 0x28000 = false ∧ expertAt 0x28FFC = false
    ∧ (up.begin 8191).dev % 8192 ≠ 0 ∧ (up.begin 8192).dev % 8192 = 0
    ∧ (let s := (laned (fun l => { l with st := .emitting })).setFlag Fld.ORX_Cn_CMWIN_EN 0 true
       s.flag Fld.ORX_Cn_CMWIN_EN 0 = true ∧ (s.laneOf (0 / 2)).st = .emitting ∧ 20 * s.fld Fld.ORX_Cn_CMWIN_CM_HI 0 < 4095 + 4095
       ∧ s.flag Fld.ORX_Cn_STAT_CMFLT 0 = false
       ∧ ¬ (2000 + 2000 < 20 * s.fld Fld.ORX_Cn_CMWIN_CM_LO 0 ∨ 20 * s.fld Fld.ORX_Cn_CMWIN_CM_HI 0 < 2000 + 2000
            ∨ s.fld Fld.ORX_Cn_CMWIN_IMB 0 * (2000 + 2000) < (max 2000 2000 - min 2000 2000) * 100)
       ∧ (s.setFlag Fld.ORX_Cn_STAT_CMFLT 0 true).flag Fld.ORX_Cn_STAT_CMFLT 0 = true) := by decide +kernel

/-- A schedule of two entries, the second 1 × 8 ticks after the stamp. -/
theorem test_meets_OpticalReceive_schedule :
    (let s := (orxIn 2 (fun x => { x with from0 := some 0 }))
     let u := { s with orx := { s.orx with sched := s.orx.sched.setIfInBounds 7 [(1, 0x80010001)] } }
     u.Runs ∧ u.fld Fld.ORX_Cn_RANGE_MODE 15 = 2 ∧ (u.orxCh 15).from0 = some 0
     ∧ (u.schedule (15 / 2) (u.fld Fld.ORX_Cn_STAT_ASCHED 15)).tail = [(1, 1)] ∧ 0 + 8 * 1 ≤ (u.begin 8).dev ∧ (u.begin 7).dev < 0 + 8 * 1) := by decide +kernel

theorem test_meets_ConverterCommands :
    expertAt Fld.HSC_CALCMD_START.addr = false ∧ up.lanesDark = true ∧ (laned (fun l => { l with st := .emitting })).lanesDark = false
    ∧ (upFlag Fld.HSC_STAT_CALBUSY).flag Fld.HSC_STAT_CALBUSY 0 = true ∧ 15 < expert.channels ∧ expert.flag Fld.SYS_CTRL_EXPERT_EN 0 = true
    ∧ bitsOf 2 1 (0x08 : Word) ≠ bitsOf 4 3 (0x08 : Word) ∧ bitsOf 2 1 (0x08 : Word) < 3 ∧ bitsOf 4 3 (0x08 : Word) < 3
    ∧ bit (expert.fld Fld.HSC_Cn_SLICE_RETIRED 15) 0 = false ∧ bit (expert.fld Fld.HSC_Cn_SLICE_RETIRED 15) 1 = false := by decide +kernel

/-- Channel 3 in a phase of its rotation. -/
def rotating (p : Nat) (f : HscCh → HscCh) : State := (up.setPhase 3 p 0).onHsc 3 f

theorem test_meets_ConverterRotation :
    (let s := (up.setFlag Fld.SYS_CTRL_RUN 0 true).setFlag Fld.HSC_CTRL_ROT_EN 0 true
     s.Runs ∧ s.flag Fld.SYS_CTRL_RUN 0 = true ∧ s.canRotate 3 = true ∧ s.sys.hearth = true ∧ s.phase 3 = 0 ∧ (s.hscCh 3).diag = none
     ∧ (s.begin (8 * (3 * (s.hscCh 3).per / 16))).rotationNow 3 = true)
    ∧ [1, 2, 3, 4].all (fun p => (rotating p id).clocked && ((rotating p id).begin 0).phaseOver 3 p) = true
    ∧ ((rotating 4 id).hscCh 3).ramping = false ∧ (rotating 5 id).phase 3 = 5 ∧ (rotating 5 id).Runs
    ∧ up.flag Fld.HSC_STAT_CALBUSY 0 = false ∧ up.flag Fld.HSC_Cn_SLICE_DOWN 15 = false
    ∧ 16384 * 8 ≤ (up.begin 131072).dev
    ∧ (let s := rotating 4 (fun h => { h with toneN := 70000 })
       let tone : List ToneSum := [⟨0, 2, 70000, 5⟩]
       (s.begin 0).phaseOver 3 4 = true ∧ (s.hscCh 3).ramping = false ∧ (tone.map (·.n)).sum = (s.begin 0).toneSamples 3)
    ∧ ((rotating 0 (fun h => { h with diag := some 0 })).hscCh 3).diag = some 0 := by decide +kernel

theorem test_meets_Downconversion :
    expertAt 0x48000 = false ∧ expertAt 0x49FFC = false ∧ expertAt 0x4A000 = false ∧ expertAt 0x4CFFC = false ∧ (up.path 15 3).run = true
    ∧ customRange 0xC000 = true ∧ customRange 0xC048 = true ∧ customRange 0xC100 = true ∧ customRange 0xC678 = true ∧ customRange 0xA000 = false
    ∧ customRange 0xCFFC = false
    ∧ (let s := { upFlag Fld.HSC_STAT_CALBUSY with hsc := { up.hsc with calSince := some 0 } }
       s.Runs ∧ s.hsc.calSince = some 0 ∧ s.flag Fld.HSC_STAT_CALBUSY 0 = true ∧ 0 + 1171875 * 8 ≤ (s.begin 9375000).dev
       ∧ (s.begin 9374999).dev < 0 + 1171875 * 8) := by decide +kernel

/-- A conversion of lane 7 that is due, of the custom taps, and a filter that is ready for the probe whose launch was fixed with it. -/
theorem test_meets_Downconversion_filters :
    [7, 8].all (fun unit =>
      let s := { up with ddc := { up.ddc with conv := [(unit, 5)], filt := [4 * unit + 3] } }
      decide (s.ddc.conv.find? (fun e => e.1 = unit) = some (unit, 5)) && decide (5 ≤ (s.begin 5).dev)) = true
    ∧ upEmitting.canBoundary 7 = true
    ∧ (let s := { up with ddc := { up.ddc with filt := [31], mfGen := [(31, 2)] } }
       7 < 8 ∧ 3 < 4 ∧ s.ddc.filt.contains (4 * 7 + 3) = true ∧ (4 * 7 + 3, 2) ∈ s.ddc.mfGen ∧ 2 ≤ 2) := by decide +kernel

/-- A launch of lane 7's probe 3 whose boundary is due, and one before a geometry change. -/
theorem test_meets_Downconversion_boundary :
    (let d : DdcDue := ⟨7, 3, 100, 9, 0, false⟩
     let s := { up with ddc := { up.ddc with due := [d] } }
     s.Runs ∧ 7 < s.lanes ∧ s.ddc.due.find? (fun d => d.lane = 7) = some d ∧ d.probe < 4 ∧ (s.begin 147).dev < d.stamp + 48
     ∧ d.stamp + 48 ≤ (s.begin 148).dev ∧ d.all_ = false ∧ (s.laneOf 7).geo = none
     ∧ ((s.onLane 7 (fun l => { l with geo := some ⟨0, false, false, 1⟩ })).laneOf 7).geo ≠ none)
    ∧ (let d : DdcDue := ⟨7, 0, 100, 9, 0, false⟩
       let s := { up with ddc := { up.ddc with due := [d] } }
       match exec (.pathBoundary 148 7) s with
       | .next u => (u.path 14 0).run
       | _ => false) = true := by decide +kernel

/-- A running path whose output is due, in no frame and at the first and the last point of one. -/
theorem test_meets_Downconversion_output :
    (let at_ (out : Nat) (f : Option DdcFrame) : State := { up with ddc := { up.ddc with path := up.ddc.path.setIfInBounds 0 { up.path 0 0 with out := out, cur := f } } }
     let f : DdcFrame := ⟨100, 2, 9, 77, 1000⟩
     (at_ 0 none).Runs ∧ ((at_ 0 none).path 0 0).run = true ∧ ((at_ 0 none).begin 8).dev ≠ ((at_ 0 none).path 0 0).out
     ∧ ((at_ 8 none).begin 8).dev = ((at_ 8 none).path 0 0).out ∧ (((at_ 8 none).path 0 0).reach ((at_ 8 none).begin 8).dev).hist = []
     ∧ framePoint ((at_ 8 none).path 0 0) ((at_ 8 none).begin 8).dev = none
     ∧ framePoint ((at_ 164 (some f)).path 0 0) ((at_ 164 (some f)).begin 164).dev = some (f, 0)
     ∧ framePoint ((at_ 8156 (some f)).path 0 0) ((at_ 8156 (some f)).begin 8156).dev = some (f, 999)
     ∧ framePoint ((at_ 8164 (some f)).path 0 0) ((at_ 8164 (some f)).begin 8164).dev = none
     ∧ (((at_ 8156 (some f)).path 0 0).reach ((at_ 8156 (some f)).begin 8156).dev).rankWin = 0
     ∧ ((at_ 8156 (some f)).path 0 0).from_ + 8 ≤ ((at_ 8156 (some f)).begin 8156).dev) := by decide +kernel

/-- Lane 0's phase side, changed by `f`. -/
def phased0 (f : PhxLane → PhxLane) : State := up.onPhx 0 f

theorem test_meets_PhaseExtraction :
    (let s := phased0 (fun l => { l with grid := some 0, lastStamp := some 0, evalN := 256 })
     s.Runs ∧ 0 < s.lanes ∧ (s.phxOf 0).grid = some 0
     ∧ 0 + s.interval 0 * (s.lenP 0 + ((s.phxOf 0).block + 1) * s.lenB 0 - 1) + s.interval 0 + 8 * s.lenN 0 + 4096 ≤ (s.begin 3000000000).dev
     ∧ (s.phxOf 0).lastStamp = some 0 ∧ 0 + 8 * s.lenN 0 < (s.begin 3000000000).dev ∧ 0 < s.lenN 0 ∧ 256 ≤ (s.phxOf 0).evalN)
    ∧ (let s := (phased0 (fun l => { l with evalN := 256 })).onLane 0 (fun l => { l with st := .emitting })
       256 ≤ (s.phxOf 0).evalN ∧ (s.laneOf 0).st = .emitting ∧ s.flag Fld.PHX_Ln_ENDREF_EN 0 = false)
    ∧ (up.phxOf 7).grid = none ∧ ((up.onPhx 7 (fun l => { l with grid := some 5 })).phxOf 7).grid = some 5 := by decide +kernel

/-- A frame of lane 7's probe 3 whose sample 5 is due, and one whose next point lies in the last G points of it. -/
theorem test_meets_PhaseExtraction_sample :
    (let f : PhxFrame := ⟨1000, 3, 0, 100, 0, 20, 1, 4, 5000, false, false, false, false, [], [], [], 0, 5, []⟩
     let s := up.onPhx 7 (fun l => { l with frames := [f] })
     s.Runs ∧ 7 < s.lanes ∧ 3 < 4 ∧ (s.phxOf 7).frameOf 3 = some f ∧ (s.begin 1375).dev < f.stamp + 48 + 8 * f.gdly + 8 * (f.next + f.g) + 96
     ∧ f.stamp + 48 + 8 * f.gdly + 8 * (f.next + f.g) + 96 ≤ (s.begin 1376).dev)
    ∧ (let f : PhxFrame := ⟨1000, 3, 0, 100, 0, 20, 1, 4, 5000, false, false, false, false, [], [], [], 0, 80, []⟩
       let s := up.onPhx 7 (fun l => { l with frames := [f] })
       (s.phxOf 7).frameOf 3 = some f ∧ f.n ≤ f.next + f.g ∧ (f.next + 1) % 32 ≠ 0 ∧ f.next + 1 ≠ f.n
       ∧ f.stamp + 48 + 8 * f.gdly + 8 * (f.next + f.g) + 96 ≤ (s.begin 100000).dev) := by decide +kernel

/-- A block that closes on a lane in relative mode whose tiles lie in external memory; a point with a mean; a trace that reaches its threshold at its last point alone. -/
theorem test_meets_PhaseExtraction_blocks :
    (let s := upFlag Fld.MEM_STAT_READY
     0 < s.lanes ∧ s.flag Fld.PHX_Ln_REFCH_EN 0 = false ∧ (s.phxOf 0).anchored = false ∧ s.role ≠ 1 ∧ s.flag Fld.TWN_CTRL_EN 0 = false
     ∧ s.flag Fld.MEM_STAT_READY 0 = true ∧ s.memc.waiting = [] ∧ s.blockRecAddr 0 (s.blockNo 0 0) + 64 + 4 * s.lenN 0 ≤ s.dramEnd
     ∧ (∀ w, w ∈ s.regs.wait → w.1 ≠ 7)
     ∧ ((s.onEngine 3 (fun x => { x with bound := some 0 })).engine 3).bound = some 0 ∧ ((s.onEngine 3 (fun x => { x with bound := some 0 })).engine 3).wait = .none)
    ∧ (let p : Pt := { Pt.reset with cnt := 3, base := some 2 }
       p.cnt ≠ 0 ∧ p.base = some 2)
    ∧ unwrapStep Pt.reset .measure 0 9 5 false 0 = ({ Pt.reset with phi := 5, prev := 5, ref0 := true }, some 5, false, false, false)
    ∧ (unwrapStep { Pt.reset with ref0 := true, phi := 4000 } .measure 0 9 (-4000) false 0).2.1 = some 4192
    ∧ (unwrapStep { Pt.reset with ref0 := true, phi := 4000, fills := 8 } .fill 0 9 0 false 0).2.1 = none
    ∧ (unwrapStep { Pt.reset with ref0 := true, phi := 4000, fills := 7 } .fill 0 9 0 false 0).2.1 = some 4000 := by decide +kernel

/-! ### Auxiliary measurement -/

/-- AUX in a stage with source 3, changed by `f`. -/
def auxIn (st : AuxStage) (f : Aux → Aux) : State := up.onAux (fun x => f { x with stage := st, job := some ⟨3, false, 1⟩ })

theorem test_meets_AuxConversion :
    [AuxStage.off, .discharge, .gap, .settle, .write].all (fun st => (auxIn st id).clocked && decide ((auxIn st id).aux.job = some ⟨3, false, 1⟩)
      && decide ((auxIn st id).aux.stage = st) && decide ((auxIn st id).aux.due ≤ ((auxIn st id).begin 0).dev)) = true
    ∧ (let w : AuxWin := ⟨0, 160, false, 0, 0x40000000⟩
       let s := auxIn .convert (fun x => { x with wins := [w] })
       s.aux.stage = .convert ∧ s.aux.nextOpen = none ∧ s.aux.wins = [w] ∧ w.start + w.len ≤ (s.begin 160).dev) := by decide +kernel

theorem test_meets_AuxRequestsAndSupervision :
    expertAt Fld.AUX_INJ_SRC.addr = false ∧ expertAt Fld.AUX_CALCMD_START.addr = false ∧ (16 ≤ 16 ∧ 16 < 17 ∧ 31 < 32)
    ∧ (upFlag Fld.SYS_CTRL_RUN).flag Fld.SYS_CTRL_RUN 0 = true
    ∧ (let w : AuxWin := ⟨0, 160, false, 0, 0⟩
       let s := auxIn .cal (fun x => { x with wins := [w] })
       s.aux.stage = .cal ∧ s.aux.nextOpen = none ∧ s.aux.wins = [w] ∧ w.start + w.len ≤ (s.begin 160).dev ∧ s.aux.calCodes.length < 15
       ∧ 15 ≤ (s.onAux (fun x => { x with calCodes := List.replicate 15 (0, 0) })).aux.calCodes.length)
    ∧ (let s := up.onAux (fun x => { x with refDue := some 0 })
       s.aux.refDue = some 0 ∧ 0 ≤ (s.begin 0).dev)
    ∧ (let s := up.setFld Fld.AUX_MAINS_MODE 0 2
       s.Runs ∧ s.fld Fld.AUX_MAINS_MODE 0 = 2 ∧ s.flag Fld.AUX_STAT_LSLOST 0 = false ∧ s.aux.lineAt + 4882813 * 8 ≤ (s.begin 39062504).dev)
    ∧ (let s := up.onAux (fun x => { x with src := x.src.setIfInBounds 15 ⟨7, 0, 1, 0⟩ })
       s.Runs ∧ s.aux.src.getD 15 ⟨0, 0, 0, 0⟩ = ⟨7, 0, 1, 0⟩ ∧ 0 + s.fld Fld.AUX_STALE_AGE 0 * 2 ^ 20 * 8 < (s.begin (10 ^ 13)).dev)
    ∧ (BitVec.ofNat 32 (Fld.AUX_Cn_RESULT_RESULT.at 15) : Word).toNat = Fld.AUX_Cn_RESULT_RESULT.at 15 := by decide +kernel

/-! ### Memory -/

/-- Memory has been trained; channel 0 is changed by `f`. -/
def trained (f : MemChan → MemChan) : State := (upFlag Fld.MEM_STAT_READY).onChan 0 f

theorem test_meets_MemoryController :
    11 < 12 ∧ up.dramEnd - 1 < up.dramEnd
    ∧ (let s := trained (fun m => { m with slotAt := some 0, refAt := 8 })
       s.Runs ∧ s.flag Fld.MEM_STAT_READY 0 = true ∧ (s.memChan 0).sr = none ∧ (s.memChan 0).refAt ≤ (s.begin 4).mclk false
       ∧ s.memc.winAt + 256 * s.memc.bwin ≤ (s.begin 1000000).mclk false ∧ (s.memChan 0).zqTemp + s.fld Fld.MEM_MAINT_ZQ_DT 0 < 10000
       ∧ (s.memChan 0).zqAt + 200000000 ≤ (s.begin 100000000).mclk false ∧ (s.setFlag Fld.SYS_CTRL_RUN 0 true).flag Fld.SYS_CTRL_RUN 0 = true)
    ∧ (let s := (trained (fun m => { m with refAt := 1000000000 })).setFlag Fld.MEM_SR_CTRL_EN 0 true
       s.Runs ∧ s.flag Fld.MEM_STAT_READY 0 = true ∧ s.flag Fld.MEM_SR_CTRL_EN 0 = true ∧ (s.memChan 0).sr = none ∧ (s.memChan 0).reqs = [] ∧ s.nextBack 0 = none
       ∧ (s.memChan 0).busy ≤ (s.begin 10000000).mclk false ∧ s.fld Fld.MEM_CHc_STAT_OWED 0 = 0 ∧ (s.begin 10000000).mclk false < (s.memChan 0).refAt
       ∧ s.maintDue 0 ((s.begin 10000000).mclk false) = false ∧ (s.memChan 0).used + 64 * s.fld Fld.MEM_SR_CTRL_IDLE 0 ≤ (s.begin 10000000).mclk false)
    ∧ (let s := (trained (fun m => { m with slotAt := some 0 })).setFlag Fld.MEM_STAT_RETRAIN 0 true
       s.sys.hearth = true ∧ s.flag Fld.MEM_STAT_RETRAIN 0 = true ∧ (s.memChan 0).slotAt = some 0 ∧ 0 + 65536 ≤ (s.begin 32768).mclk false ∧ 768 ≤ 768)
    ∧ (let s := trained id
       s.flag Fld.MEM_STAT_RETRAIN 0 = false ∧ s.flag Fld.SYS_CTRL_RUN 0 = false
       ∧ (let u := { s.setFlag Fld.SYS_CTRL_RUN 0 true with sys := { s.sys with hearth := false } }
          u.flag Fld.MEM_STAT_RETRAIN 0 = false ∧ u.flag Fld.SYS_CTRL_RUN 0 = true ∧ u.sys.hearth = false ∧ u.flag Fld.MEM_STAT_READY 0 = true ∧ u.retrainDue 100000 = true))
    ∧ (let s := (trained id).setFlag Fld.MEM_CTRL_SCRUB_EN 0 true
       s.flag Fld.MEM_STAT_READY 0 = true ∧ s.flag Fld.MEM_CTRL_SCRUB_EN 0 = true ∧ (s.begin 0).scrubDue = true ∧ (s.begin 0).scrubTurn s.memc.scrub = true) := by decide +kernel

/-- The reset masks hold each its home bit and no other field's; two addresses of one burst share every field. -/
theorem test_meets_ExternalMemory :
    (let home (k : Nat) (f : Fld) : Bool := bit (up.fld f 0) k && (List.range 5).all (fun j => j = k || !bit (up.fld f 0) j)
     up.flag Fld.MEM_GEOM_WIDTH 0 = false ∧ home 0 Fld.MEM_XMAP_CH_MASK = true ∧ home 1 Fld.MEM_XMAP_BG0_MASK = true ∧ home 2 Fld.MEM_XMAP_BA0_MASK = true
     ∧ home 3 Fld.MEM_XMAP_BA1_MASK = true ∧ home 4 Fld.MEM_XMAP_BG1_MASK = true)
    ∧ up.chanOf 64 = up.chanOf 127 ∧ up.bankKey 64 = up.bankKey 127 ∧ up.rowOf 64 = up.rowOf 127 ∧ 64 / 2 ^ 11 % 2 ^ 7 = 127 / 2 ^ 11 % 2 ^ 7
    ∧ (let s := trained id
       s.Runs ∧ 0 < s.dramEnd ∧ s.dramEnd % 64 = 0 ∧ s.eccRange 0 (0 / 64 * 64) 64 = 0 ∧ s.flag Fld.MEM_STAT_READY 0 = true ∧ s.memc.waiting = [] ∧ (s.memChan (s.chanOf 0)).sr = none
       ∧ ((s.memChan (s.chanOf 0)).reqs.filter (fun x => x.write)).length < 64) := by decide +kernel

/-! ### Host ports, queues and delivery -/

/-- An SPI WRITE frame of one word, with its CRC-8. -/
def spiFrame (addr : Nat) (v : Nat) : List Byte :=
  let f := beBytes 1 2 ++ beBytes 4 addr ++ beBytes 1 0 ++ beBytes 4 v
  f ++ beBytes 1 (crc8 f)

theorem test_meets_SpiFrames :
    (let f := spiFrame 0xFFFFC 5
     beNat (f.take 1) = 2 ∧ 6 ≤ f.length ∧ f.length = 7 + 4 * (spiLen f + 1) ∧ spiAddr f % 4 = 0 ∧ spiLen f ≤ 63
     ∧ crc8 (f.take (f.length - 1)) = beNat (f.drop (f.length - 1)) ∧ spiAddr f + 4 * (spiLen f + 1) ≤ 0x100000)
    ∧ (let f := (spiFrame 4 5).take 10 ++ [0]
       f.length = 7 + 4 * (spiLen f + 1) ∧ crc8 (f.take (f.length - 1)) ≠ beNat (f.drop (f.length - 1)))
    ∧ beNat (([0x0B, 0, 0, 0, 0, 0, 0x34] : List Byte).take 1) = 11 := by decide +kernel

/-- Port 0 is enabled and its link is up. -/
def linked (s : State) : State := (s.setFld Fld.NET_CTRL_PORT_EN 0 3).setFlag Fld.NET_Pn_STAT_LINK 0 true

/-- A management frame with counter 1 and no body, signed with the part's key. -/
def mgmtFrame (op : Nat) : List Byte :=
  let h := leBytes 2 0x4D51 ++ leBytes 1 2 ++ leBytes 1 8 ++ leBytes 2 0xFFFF ++ leBytes 2 0 ++ leBytes 8 0 ++ leBytes 16 0 ++ leBytes 8 1 ++ leBytes 2 op ++ leBytes 2 0
  let b := h ++ (hmacSha256 up.fixed.key h).take 16
  b ++ leBytes 4 (crc32c b)

theorem test_meets_ManagementFrames :
    (linked up).Runs ∧ (linked up).portUp 0 = true ∧ (linked up).flag Fld.NET_Pn_MODE_VLAN_EN 0 = false
    ∧ ([1, 2, 3, 9].all (fun op => mgmtForm (mgmtFrame op))) = true ∧ (linked up).bootDead = false ∧ mgmtForm [0] = false ∧ ackForm [0] = false
    ∧ ((linked up).begin 0).mgmtOk (mgmtFrame 9) = true ∧ (let s := { linked up with pwr := { up.pwr with mgmtCtr := 1 } }
       s.bootDead = false ∧ (s.begin 0).mgmtOk (mgmtFrame 1) = false)
    ∧ (let s := (linked (upFlag Fld.SYS_STAT_BOOTFAIL)).setFld Fld.SYS_BOOTSTAGE_STAGE 0 15
       s.bootDead = true ∧ s.portUp 0 = true ∧ s.ticks = true ∧ s.flag Fld.NET_Pn_MODE_VLAN_EN 0 = false)
    ∧  ((linked up).begin 0).mgmtOk (mgmtFrame 1) = true
    ∧ (up.pwr.mgmtCtr < imgGet (mgmtFrame 1) 32 8) ∧ imgGet ([] : List Byte) 32 8 ≤ up.pwr.mgmtCtr ∧ up.mirrorReady = true ∧ up.memc.waiting = []
    ∧ (let s := { up with memc := { up.memc with waiting := [⟨6, 0, true, false, [], 0, 0, false⟩] } }
       s.memc.waiting = [⟨6, 0, true, false, [], 0, 0, false⟩]) := by decide +kernel

/-- A frame whose counter is not above the kept one is rejected. -/
theorem test_mgmt_replay :
    (let s := { linked up with pwr := { up.pwr with mgmtCtr := 1 } }
     (s.begin 0).mgmtOk (mgmtFrame 1) = false) := by decide +kernel

/-- A submission that a check refuses and that is no duplicate: the host's own queue takes none while the queues are disabled. -/
theorem test_meets_ManagementFrames_submit :
    (let s := up.setFlag Fld.QUE_CTRL_EN 0 false
     s.checkTurn 0 (.mgmt 0 0 0 0 1) (List.replicate 64 0) = some resNotPerm ∧ s.inReset = false ∧ resNotPerm ≠ resDup ∧ (List.replicate 64 (0 : Byte)).length = 64) := by decide +kernel

theorem test_meets_QueueProgress_run :
    (let d : Entry := { entry 1 [] with done := true }
     let e : Entry := { entry 2 [] with done := true }
     let s := up.onQueue 63 (fun x => { x with entries := [d, e, entry 3 []] })
     (s.queue 63).entries = [d, e] ++ [entry 3 []] ∧ (∀ x, x ∈ [d, e] → x.done = true) ∧ [d, e].getLast? = some e
     ∧ (∀ x, [entry 3 []].head? = some x → x.done = false)) := by
  refine ⟨by decide +kernel, by decide, by decide, ?_⟩
  intro x hx; cases hx; rfl

theorem test_meets_QueueProgress :
    (let s := up.onQueue 63 (fun x => { x with inflight := [⟨.host, 7, [], 0⟩] })
     (s.queue 63).inflight = [⟨.host, 7, [], 0⟩] ∧ 7 < 2 ^ 31 ∧ s.fld Fld.QUE_Qq_STAT_OCC 63 + 1 < 2 ^ 11)
    ∧ up.mirrorReady = true
    ∧ (let s := up.onQueue 63 (fun x => { x with entries := [entry 1 []] })
       s.sys.hearth = true ∧ (s.queue 63).entries = [entry 1 []] ∧ (entry 1 []).done = false)
    ∧ (let s := up.onQueue 63 (fun x => { x with entries := [{ entry 1 [] with taken := true }] })
       s.sys.hearth = true ∧ (s.queue 63).entries.find? (fun e => e.taken && !e.done) = some { entry 1 [] with taken := true }) := by decide +kernel

/-- Stream queue 8 with one descriptor of one inline record, which has waited 100 µs and more by tick 1,000,000. -/
def streaming (f : Queue → Queue) : State :=
  (linked (upFlag Fld.QUE_CTRL_EN |>.setFlag Fld.MEM_STAT_READY 0 true)).onQueue 8 (fun x => f { x with entries := [entry 0 (leBytes 14 0 ++ leBytes 2 1 ++ List.replicate 48 0)] })

theorem test_meets_StreamTransport :
    (let s := streaming id
     s.Runs ∧ ((s.begin 1000000).nextRecs 8).length = 1 ∧ 1 < (s.begin 1000000).perFrame 8 ∧ (s.begin 1000000).flushDue ((s.begin 1000000).nextRecs 8) = true)
    ∧ (let f := mstFrame 2 1 8 0 0 0 0 0 0 (List.replicate 8 0)
       let s := linked up
       mstOk f = true ∧ imgGet f 2 1 = 2 ∧ bit (imgGet f 3 1) 0 = true ∧ f.length = 44 ∧ s.legacy = false ∧ ackForm f = true ∧ imgGet f 8 4 = s.fld Fld.TWN_EPOCH_EPOCH 0 ∧ imgGet f 8 4 ≠ (s.setFld Fld.TWN_EPOCH_EPOCH 0 1).fld Fld.TWN_EPOCH_EPOCH 0
       ∧ ((List.range 64).find? (fun q => s.cons q = consNet && s.fld Fld.QUE_Qq_CFG_STREAM q = imgGet f 4 2)).isSome = true)
    ∧ (let f : MstFrame := ⟨3, [], 0, 1, 0, 15, false, false⟩
       let s := streaming (fun x => { x with stream := { x.stream with frames := [f] } })
       s.fld Fld.TWN_STAT_ROLE 0 < 2 ∧ (s.queue 8).stream.frames.find? (fun f => f.seq = 3) = some f ∧ (s.begin 3000000000).rtoDue f = true)
    ∧ (let s := (linked (upFlag Fld.QUE_CTRL_EN |>.setFlag Fld.MEM_STAT_READY 0 true)).onQueue 8 (fun x => { x with entries := [entry 0 (leBytes 16 0 ++ leBytes 8 (2 ^ 40) ++ leBytes 4 64 ++ List.replicate 36 0)] })
       s.streamOn 8 = true ∧ (s.queue 8).entries.find? (fun e => !e.skip && e.holds (s.queue 8).stream.nextRec)
           = some (entry 0 (leBytes 16 0 ++ leBytes 8 (2 ^ 40) ++ leBytes 4 64 ++ List.replicate 36 0))
       ∧ s.unreadable (leBytes 16 0 ++ leBytes 8 (2 ^ 40) ++ leBytes 4 64 ++ List.replicate 36 0) = true ∧ s.dramEnd < 2 ^ 40 + 64 ∧ s.earlierDone 8 0 = true) := by decide +kernel

/-- A full frame: the queue's record size leaves room for one record. -/
theorem test_meets_StreamTransport_full :
    (let s := (linked (upFlag Fld.QUE_CTRL_EN |>.setFlag Fld.MEM_STAT_READY 0 true)).onQueue 8 (fun x => { x with entries := [{ entry 0 (leBytes 14 0 ++ leBytes 2 1 ++ List.replicate 48 0) with nrec := 100 }] })
     ((s.begin 0).nextRecs 8).length = (s.begin 0).perFrame 8 ∧ (s.begin 0).nextRecs 8 ≠ []) := by decide +kernel

/-- A job of the compressor waits in queue 25. -/
theorem test_meets_Compression :
    (let s := ((upFlag Fld.QUE_CTRL_EN).setFlag Fld.CRU_CTRL_EN 0 true).onQueue 25 (fun x => { x with entries := [entry 0 (leBytes 12 0 ++ leBytes 2 0x10 ++ List.replicate 50 0)] })
     s.flag Fld.CRU_CTRL_EN 0 = true ∧ s.flag Fld.QUE_CTRL_EN 0 = true ∧ s.cru.comp = none ∧ s.cru.waitC = none ∧ s.cru.dec = none ∧ s.cru.waitD = none
     ∧ (s.setFlag Fld.MEM_STAT_READY 0 true).flag Fld.MEM_STAT_READY 0 = true ∧ (s.cruNext 0).isSome = true)
    ∧ up.cruNext 0 = none ∧ (up.setFlag Fld.CRU_CTRL_EN 0 false).flag Fld.CRU_CTRL_EN 0 = false := by decide +kernel

/-- A compression at level 0 of 3 bytes at 0 to 256, its record at 512. -/
def jobImg (op flags : Nat) : List Byte :=
  leBytes 12 0 ++ leBytes 2 op ++ leBytes 2 flags ++ leBytes 8 0 ++ leBytes 4 3 ++ leBytes 4 0 ++ leBytes 8 256 ++ leBytes 4 128 ++ leBytes 8 512 ++ leBytes 12 0

/-- A descriptor that fails its validation, one whose payload is lost, and a compression with room for its output. -/
theorem test_meets_Compression_jobs :
    up.badDesc (jobImg 0x12 0) = true ∧ up.badDesc (jobImg 0x10 0) = false ∧ imgFlag (jobImg 0x10 0) flNoPayload = false
    ∧ (let lost := jobImg 0x10 (2 ^ flNoPayload)
       up.badDesc lost = false ∧ imgFlag lost flNoPayload = true)
    ∧ jobCtx (jobImg 0x10 0) = false ∧ up.sys.eccBad = [] ∧ (upFlag Fld.MEM_STAT_READY).flag Fld.MEM_STAT_READY 0 = true ∧ up.memc.waiting = []
    ∧ (compressed (jobImg 0x10 0) (up.jobLvl (jobImg 0x10 0)) (CtxRec.fresh (decide (jobOp (jobImg 0x10 0) = opDecompress)) (jobZlib (jobImg 0x10 0)) (jobStream (jobImg 0x10 0)))
        (up.readBytes (jobIn (jobImg 0x10 0)) (jobLen (jobImg 0x10 0)))).length + 32 ≤ jobCap (jobImg 0x10 0) := by decide +kernel

/-- A decompression that ends with a fault and its record beside the state record of its queue. -/
theorem test_meets_Compression_end :
    (let j : CruJob := ⟨31, 7, none, jobImg 0x11 0, 3, 0, 0, 12, 0⟩
     let s := { upFlag Fld.MEM_STAT_READY with cru := { up.cru with dec := some j } }
     s.cru.dec = some j ∧ j.q < 64 ∧ s.cru.comp = none ∧ s.cru.waitC = none ∧ s.cru.waitD = none ∧ 1 ≤ j.status ∧ j.status ≤ 6
     ∧ s.flag Fld.MEM_STAT_READY 0 = true ∧ s.memc.waiting = [] ∧ s.sys.eccBad = [] ∧ jobStat j.img + 32 ≤ s.dramEnd
     ∧ (s.recordAddr j.q + 64 ≤ jobStat j.img ∨ jobStat j.img + 32 ≤ s.recordAddr j.q)) := by decide +kernel

/-! ### Network and time -/

theorem test_meets_Links :
    (let s := up.setFld Fld.NET_CTRL_PORT_EN 0 3
     s.Runs ∧ bit (s.fld Fld.NET_CTRL_PORT_EN 0) 1 = true ∧ s.flag Fld.NET_Pn_STAT_LINK 1 = false ∧ (s.net.speed.getD 1 (1, 0)).2 + 390625000 ≤ (s.begin 390625000).dev)
    ∧ (up.setFld Fld.NET_Pn_MODE_SPEED 1 0).fld Fld.NET_Pn_MODE_SPEED 1 = 0
    ∧ (linked up).flag Fld.NET_Pn_STAT_LINK 0 = true ∧ (linked up).portUp 0 = true ∧ (linked up).accepts 0 0 .other = false
    ∧ (let s := ((linked up).setFlag Fld.NET_Pn_MODE_VLAN_EN 0 true).setFld Fld.NET_Pn_MODE_VID 0 5
       s.flag Fld.NET_Pn_MODE_VLAN_EN 0 = true ∧ some 4 ≠ some (s.fld Fld.NET_Pn_MODE_VID 0))
    ∧ (linked up).flag Fld.NET_Pn_MODE_IPV6 0 = false
    ∧ (let s := (linked up).setFld Fld.NET_CTRL_PORT_EN 0 2
       s.flag Fld.NET_Pn_STAT_LINK 0 = true ∧ bit (s.fld Fld.NET_CTRL_PORT_EN 0) 0 = false)
    ∧ (let s := ((linked up).setFld Fld.NET_Pn_MODE_SPEED 0 2).setFld Fld.NET_Pn_STAT_SPEED 0 1
       s.flag Fld.NET_Pn_STAT_LINK 0 = true ∧ bit (s.fld Fld.NET_CTRL_PORT_EN 0) 0 = true ∧ s.fld Fld.NET_Pn_MODE_SPEED 0 ≠ 0
       ∧ s.fld Fld.NET_Pn_STAT_SPEED 0 ≠ s.fld Fld.NET_Pn_MODE_SPEED 0)
    ∧ ((linked up).setFld Fld.NET_Pn_MODE_SPEED 0 0).fld Fld.NET_Pn_MODE_SPEED 0 = 0
    ∧ (let s := (up.setFld Fld.NET_CTRL_PORT_EN 0 3).setFld Fld.NET_Pn_MODE_SPEED 0 0
       s.flag Fld.NET_Pn_STAT_LINK 0 = false ∧ bit (s.fld Fld.NET_CTRL_PORT_EN 0) 0 = true
       ∧ bit ((s.setFld Fld.NET_CTRL_PORT_EN 0 2).fld Fld.NET_CTRL_PORT_EN 0) 0 = false
       ∧ s.fld Fld.NET_Pn_MODE_SPEED 0 = 0 ∧ (s.setFld Fld.NET_Pn_MODE_SPEED 0 1).fld Fld.NET_Pn_MODE_SPEED 0 ≠ 0)
    ∧ ((linked up).setFlag Fld.NET_Pn_MODE_IPV6 0 true).flag Fld.NET_Pn_MODE_IPV6 0 = true := by decide +kernel

/-- The PTP port in a role. -/
def clocking (role : Nat) (f : Net → Net) : State := let s := (linked up).setFld Fld.NET_PTP_ROLE 0 role; { s with net := f s.net }

theorem test_meets_TimeSynchronisation :
    (let s := clocking 1 (fun x => { x with sync := some ⟨4, 100, none⟩ })
     s.Runs ∧ s.ptpRx 1 0 (s.flag Fld.NET_PTP_TRANSPORT 0) (s.fld Fld.NET_PTP_DOMAIN 0) = true ∧ s.net.sync = some ⟨4, 100, none⟩)
    ∧ (let s := clocking 1 (fun x => { x with sync := some ⟨4, 100, some 50⟩, delayReq := some (9, 200) })
       s.ptpRx 1 0 (s.flag Fld.NET_PTP_TRANSPORT 0) (s.fld Fld.NET_PTP_DOMAIN 0) = true ∧ s.sys.hearth = true ∧ s.net.sync = some ⟨4, 100, some 50⟩
       ∧ s.net.delayReq = some (9, 200))
    ∧ (let s := clocking 2 (fun x => { x with sentAt := some 0 })
       s.ptpMaster = true ∧ 0 + 48828125 ≤ (s.begin 48828125).dev ∧ s.ptpRx 2 0 (s.flag Fld.NET_PTP_TRANSPORT 0) (s.fld Fld.NET_PTP_DOMAIN 0) = true)
    ∧ up.net.syncAt + 3 * 781250000 ≤ (up.begin 2343750000).dev
    ∧ (upFlag Fld.NET_PPS_SRC).flag Fld.NET_PPS_SRC 0 = true ∧ (upFlag Fld.NET_PPS_SRC).net.secEdge < ((upFlag Fld.NET_PPS_SRC).begin 800000000).ptpSec
    ∧ up.net.secOut < (up.begin 800000000).ptpSec
    ∧ (let s := { up with net := { up.net with ppsIn := some (0, 0), ppsOut := some 0 } }
       s.net.ppsIn = some (0, 0) ∧ 0 + ppsLoss ≤ (s.begin 3000000000).dev ∧ s.net.ppsOut = some 0
       ∧ 0 + 781250 * s.fld Fld.NET_PPS_OUT_WIDTH 0 ≤ (s.begin 3000000000).dev) := by decide +kernel

/-! ### The Ember lease -/

/-- A unit in a twin role with pairing enabled and memory ready. -/
def roled (k : Nat) (f : Twin → Twin) : State :=
  (((up.setFld Fld.TWN_STAT_ROLE 0 k).setFlag Fld.TWN_CTRL_EN 0 true).setFlag Fld.MEM_STAT_READY 0 true).onTwn f

/-- The same at a moment when every period of the lease is over. -/
def due (s : State) (twin : Bool) (p : Nat) : Bool := (s.begin 3000000000).leaseDue twin 0 p

theorem test_meets_LeasePoints :
    (let s := roled 1 id
     s.Runs ∧ s.fld Fld.TWN_STAT_ROLE 0 = 1 ∧ s.healthy = true ∧ s.leaseRuns = true ∧ s.twn.hbAt = 0 ∧ s.twn.pulseAt = 0 ∧ s.twn.renewedAt = 0
     ∧ due s true (leaseRenew s.twn.lease + s.hbDelay 0) = true ∧ due s true (s.twn.lease / 2 + s.hbDelay 1) = true ∧ due s true (leaseStop s.twn.lease) = true
     ∧ s.flag Fld.TWN_CTRL_EN 0 = true ∧ 5000 ≤ 20000 ∧ s.twn.releaseDue = none
     ∧ (s.onTwn (fun x => { x with releaseDue := some (4, 1) })).twn.releaseDue = some (4, 1)
     ∧ due s true (s.fld Fld.TWN_LEASE_LEASE 0 / 2 + s.hbDelay 1) = true)
    ∧ (let s := roled 2 id
       s.Runs ∧ s.fld Fld.TWN_STAT_ROLE 0 = 2 ∧ due s true (s.twn.lease / 2 + s.hbDelay 1) = true)
    ∧ (let s := { up with pwr := { up.pwr with holder := some true, b := { up.pwr.b with gate := true }, renewedAt := 0 } }
       s.Runs ∧ s.pwr.holder = some true ∧ (s.feed true).gate = true ∧ s.pwr.release = none ∧ due s false (leaseRenew s.pwr.lease) = true)
    ∧ (let s := ((roled 2 id).setFlag Fld.TWN_STAT_SYNCED 0 true).setFlag Fld.LAN_STAT_HSC_READY 0 true
       s.roleFree = true ∧ s.fld Fld.TWN_STAT_ROLE 0 = 2 ∧ s.eligible = true ∧ s.twn.heardAt = 0 ∧ due s true (leaseAcquire s.twn.lease) = true)
    ∧ (let s := roled 3 id
       s.roleFree = true ∧ s.fld Fld.TWN_STAT_ROLE 0 = 3 ∧ s.anyQuenched = false ∧ s.flag Fld.MEM_STAT_READY 0 = true)
    ∧ (let s := { up with pwr := { up.pwr with holder := some true, b := { up.pwr.b with gate := true }, renewedAt := 0 } }
       s.leaseRuns = true ∧ s.pwr.holder = some true ∧ (s.feed true).gate = true ∧ due s false (leaseStop s.pwr.lease) = true)
    ∧ (let s := { up with pwr := { up.pwr with holder := some true, b := { up.pwr.b with gate := false }, renewedAt := 0, release := some ⟨true, 0, false⟩ } }
       s.pwr.holder = some true ∧ (s.feed true).gate = false ∧ s.pwr.release = some ⟨true, 0, false⟩ ∧ due s false (leaseAcquire s.pwr.lease) = true) := by
  decide +kernel

theorem test_meets_Feeds :
    (phased .off).sys.power = .off
    ∧ (let s := { up with pwr := { up.pwr with b := { up.pwr.b with okSince := some 0, qualified := true }, holder := some false } }
       s.leaseRuns = true ∧ (s.feed true).okSince = some 0 ∧ 0 + 781250000 ≤ (s.begin 781250000).now ∧ s.pwr.holder = some (!true)
       ∧ (s.feed true).qualified = true ∧ s.pwr.release = none)
    ∧ (let s := { up with pwr := { up.pwr with release := some ⟨false, 0, false⟩ } }
       s.pwr.release = some ⟨false, 0, false⟩ ∧ 0 + 512 * 8 ≤ (s.begin 4096).now ∧ 0 ≤ 4096 ∧ 4096 ≤ 0 + 512 * 8 ∧ 4096 + 8 * (8 + s.fld Fld.PWR_UVCFG_OFFT 0) ≤ (s.begin 1000000).now)
    ∧ up.PairFree 13 ∧ expertAt Fld.PWR_SWITCHBACK_GO.addr = false := by
  refine ⟨by decide, by decide +kernel, by decide +kernel, rfl, by decide⟩

theorem test_meets_PairingAndTakeover :
    (let s := roled 0 (fun x => { x with listen := some 0, oswAt := some 0 })
     s.Runs ∧ s.twn.listen = some 0 ∧ 0 ≤ (s.begin 0).now ∧ s.roleFree = true ∧ s.flag Fld.TWN_CTRL_EN 0 = true ∧ s.twn.oswAt = some 0
     ∧ 0 + 8 * s.fld Fld.TWN_OSWSET_SET 0 ≤ (s.begin 1000000000).dev)
    ∧ (roled 1 id).fld Fld.TWN_STAT_ROLE 0 = 1
    ∧ expertAt Fld.TWN_SWITCHBACK_GO.addr = false ∧ open_ (roled 1 id) = true ∧ (roled 1 id).Runs ∧ (roled 1 id).guardOf 14 = none := by decide +kernel

theorem test_meets_TwinLink :
    (let f : BelFrame := ⟨1, 4, 0, [], false, 1000⟩
     let s := roled 1 (fun x => { x with lane0 := true, sent := [f], tries := [(4, 7)] })
     s.belLane 0 = true ∧ s.belLane 1 = false ∧ bit (s.fld Fld.TST_BLDROP_LANES 0) 1 = false ∧ s.twn.sent.find? (fun f => f.seq = 4) = some f
     ∧ ((s.twn.tries.find? (fun e => e.1 = 4)).map (·.2)).getD 1 = 7 ∧ 2 * f.at_ + 31250 ≤ 2 * (s.begin 16625).now
     ∧ (s.twn.lane0 = true ∨ s.twn.lane1 = true)
     ∧ (((s.onTwn (fun x => { x with tries := [(4, 8)] })).twn.tries.find? (fun e => e.1 = 4)).map (·.2)).getD 1 = 8)
    ∧ (let s := { roled 1 id with que := { up.que with linkLostAt := some 0 } }
       s.que.linkLostAt = some 0 ∧ s.fld Fld.TWN_STAT_ROLE 0 = 1 ∧ s.que.unmirrored = false ∧ 0 + 8 * s.fld Fld.TWN_LEASE_LEASE 0 ≤ (s.begin 1562504).now)
    ∧ (let s := ((roled 1 id).setFlag Fld.TWN_STAT_LINE_OK 0 true).setFlag Fld.TWN_STAT_LINK_OK 0 true
       s.flag Fld.TWN_STAT_LINE_OK 0 = true ∧ s.twn.lineAt = 0 ∧ s.flag Fld.TWN_STAT_LINK_OK 0 = true ∧ s.twn.linkAt = 0
       ∧ due s true (leaseAcquire s.twn.lease) = true)
    ∧ (let s := roled 2 id
       s.Runs ∧ s.fld Fld.TWN_STAT_ROLE 0 = 2 ∧ s.dramEnd - 4096 + 4096 ≤ s.dramEnd ∧ s.que.linkLostAt = none ∧ s.flag Fld.MEM_STAT_READY 0 = true ∧ s.memc.waiting = []
       ∧ s.sys.eccBad = [] ∧ 7 < s.lanes
       ∧ (s.setFld Fld.TWN_Ln_CKBLK_BLK 7 4).fld Fld.TWN_Ln_CKBLK_BLK 7 ≠ 0xFFFFFFFF ∧ (s.setFld Fld.TWN_Ln_CKBLK_BLK 7 4).fld Fld.TWN_Ln_CKBLK_BLK 7 ≠ 6
       ∧ (s.setFld Fld.TWN_Ln_CKBLK_BLK 7 4).fld Fld.TWN_Ln_CKBLK_BLK 7 % 2 = 6 % 2) := by decide +kernel

/-! ### The machine -/

/-- Reset meets the invariant, and a queue of one well-formed command keeps it; its memories are in canonical form. -/
theorem test_meets_machine :
    (State.reset.withPending [.snapshot 0 .spi]).pending.all (fun c => c.wf) = true ∧ State.reset.lanes = 8 ∧ State.reset.fixed.variant.part = 0x0850
    ∧ State.reset.fixed.dram ≤ 2 ^ 36 ∧ State.reset.wf = true ∧ (Instr.add 0 3).anvil = some (0, 3) ∧ (Instr.wckHalt 0 3).wick = some (0, 3)
    ∧ State.reset.pending = [] ∧ (Instr.add 0 3).alwaysOn = false ∧ State.reset.ticks = false
    ∧ (Instr.seqStart 0).resetDomain = true ∧ (phased .hold).inReset = true := by decide +kernel

/-- What `State.InLimits` says, as a check. -/
def inLimits (s : State) : Bool :=
  let ok (p : Fld × Nat × Nat × Nat) (w : Word) : Bool := decide (p.2.2.1 ≤ bitsOf p.1.hi p.1.lo w) && decide (bitsOf p.1.hi p.1.lo w ≤ p.2.2.2)
  paramLimits.all (fun p => (List.range p.2.1).all (fun u =>
    ok p (s.live (p.1.at u)) && ok p (s.staged (p.1.at u)) && ok p (s.pend (p.1.at u)) && s.regs.edge.wrote.all (fun x => decide (x.addr ≠ p.1.at u) || ok p x.staged)))

theorem inLimits_of {s : State} (h : inLimits s = true) : s.InLimits := by
  intro p hp u hu
  have k := List.all_eq_true.1 (List.all_eq_true.1 h p hp) u (List.mem_range.2 hu)
  simp only [Bool.and_eq_true, decide_eq_true_eq, List.all_eq_true, Bool.or_eq_true] at k
  obtain ⟨⟨⟨h1, h2⟩, h3⟩, h4⟩ := k
  exact ⟨h1, h2, h3, fun x hx ha => (h4 x hx).resolve_left (fun n => n ha)⟩

/-- A device that runs with one command waiting meets the invariant. -/
theorem test_meets_EveryStepKeepsTheInvariant : (up.withPending [.snapshot 0 .spi]).Inv where
  queue := by decide
  part := Or.inl (by decide)
  dram := by decide
  form := by decide +kernel
  occupancy := by decide +kernel
  gates := by decide
  released := by intro r h; cases h
  unfed := by decide
  limits := inLimits_of (by decide +kernel)
  kept := by decide

/-- An engine that waits in its word: an instruction of another mnemonic has not happened. -/
theorem test_meets_EngineInstructionFrame : (Instr.add 5 3).anvil = some (5, 3) ∧ Instr.add 5 3 ≠ .post 5 3 ∧ Instr.add 5 3 ≠ .swr 5 3 := by decide

/-! ### Worked examples of the spec -/

/-- 00_scope: ORX_C11_STAT is at 0x0002_5610; 19_register_map: MEM_P9_CLASS is at 0x0009_4900, engine 6's DMEM byte 0x1_0000 at 0x0169_0000. -/
theorem test_addresses :
    Fld.ORX_Cn_STAT_RNG.at 11 = 0x25610 ∧ Fld.MEM_Pp_CLASS_CLASS.at 9 = 0x94900 ∧ memUnit 0x01690000 = (6, 0x90000) ∧ memUnit 0x01600324 = (6, 804) := by decide

/-- 15_network_and_host: a read of SYS_ID of an MQ-850 of die revision 2 over SPI. -/
theorem test_spi_read :
    (match exec (.spiRead 0 ([0x0B, 0, 0, 0, 0, 0, 0x34] ++ List.replicate 7 0) false) { up with fixed := { up.fixed with rev := 2 } } with
     | .next u => u.resp
     | _ => []) = [0x01, 0x08, 0x50, 0x00, 0x02, 0xF8] := by decide +kernel

/-- 17_register_model: LO_PCT of ORX_C4_HYST clamps to 24 at the write and to 22 at the commit. -/
theorem test_clamp :
    (match execAll [.registerWrite 0 .spi 0x24804 0x0402195A, .commit 8 .spi 4] up with
     | .next u => (u.staged 0x24804, u.fld Fld.SYS_CLAMP_CNT 0)
     | _ => (0, 0)) = (0x0402165A, 2)
    ∧ (match exec (.registerWrite 0 .spi 0x24804 0x0402195A) up with
       | .next u => (u.staged 0x24804, u.fld Fld.SYS_CLAMP_CNT 0)
       | _ => (0, 0)) = (0x0402185A, 1) := by decide +kernel

/-- 12_memory_controller: channel, bank group and bank of four consecutive groups' rows. -/
theorem test_address_map :
    [0xCB52FA00, 0xCB54FA00, 0xCB56FA00, 0xCB58FA00].map up.chanOf = [0, 0, 0, 0]
    ∧ up.bankKey 0xCB52FA00 ≠ up.bankKey 0xCB54FA00
    ∧ (let m (f : Fld) (a : Nat) : Nat := maskParity (up.fld f 0) a
       [0xCB52FA00, 0xCB54FA00, 0xCB56FA00, 0xCB58FA00].map (fun a => (m Fld.MEM_XMAP_BG0_MASK a + 2 * m Fld.MEM_XMAP_BG1_MASK a,
           m Fld.MEM_XMAP_BA0_MASK a + 2 * m Fld.MEM_XMAP_BA1_MASK a)) = [(3, 3), (3, 0), (3, 1), (1, 2)]) := by decide +kernel

/-- 07_phase_and_temperature: the row of sample 1,000 of block 5 at point group 937 of lane 3, with PHX_TILEBASE 0x400. -/
theorem test_tile_row : (up.setLive (laneKey 3 Fld.PHX_TILEBASE_BASE.addr) 0x400).rowAddr 3 5 1000 937 = 0xCB52FA00 := by decide +kernel

/-- 14_crucible_compression: the two context slots of stream 3. -/
theorem test_context_slots :
    (let s := up.setFld Fld.CRU_CTXBASE_BASE 0 0xE20
     s.ctxSlot 3 0 = 0xE2031800 ∧ s.ctxSlot 3 1 = 0xE2039C00) := by decide +kernel

/-- 08_anvil_engines: a circular buffer of 64 rows upward and downward, and a new length. -/
theorem test_circular :
    (let x (p m cl : Word) : Engine :=
       { Engine.reset 0 with
         cb := (Engine.reset 0).cb.setIfInBounds 0 0x10000, cl := (Engine.reset 0).cl.setIfInBounds 0 cl, p := (Engine.reset 0).p.setIfInBounds 0 p
         m := (Engine.reset 0).m.setIfInBounds 0 m, pm := (Engine.reset 0).pm.setIfInBounds 0 1 }
     (x 0x10FC0 0x40 0x1000).postMod true 0 |>.p.getD 0 0) = 0x10000 ∧
    (let x (p m cl : Word) : Engine :=
       { Engine.reset 0 with
         cb := (Engine.reset 0).cb.setIfInBounds 0 0x10000, cl := (Engine.reset 0).cl.setIfInBounds 0 cl, p := (Engine.reset 0).p.setIfInBounds 0 p
         m := (Engine.reset 0).m.setIfInBounds 0 m, pm := (Engine.reset 0).pm.setIfInBounds 0 1 }
     ((x 0x10000 0xFFFFFFC0 0x1000).postMod true 0).p.getD 0 0 = 0x10FC0 ∧ ((x 0x10C40 0x40 0x800).postMod true 0).p.getD 0 0 = 0x10480
     ∧ (x 0x10C40 0x40 0x800).ea 0 = 0x10C40) := by decide +kernel

/-- 08_anvil_engines: the bit-reversed order of 2,048 rows; index 1 is row 1,024 and index 2,047 row 2,047. -/
theorem test_bit_reversed :
    (let x (p : Word) : Engine := { Engine.reset 0 with p := (Engine.reset 0).p.setIfInBounds 1 p, pm := (Engine.reset 0).pm.setIfInBounds 1 0x6B2,
                                                        m := (Engine.reset 0).m.setIfInBounds 1 0x40 }
     (x 0x40).ea 1 = 0x10000 ∧ (x 0x1FFC0).ea 1 = 0x1FFC0 ∧ ((x 0x1FFC0).postMod true 1).p.getD 1 0 = 0) := by decide +kernel

/-- 08_anvil_engines: iteration 255 of a saturating MAC of −1 × −1 in both halves of vector lane 5. -/
theorem test_saturating_mac :
    (let w := iw 0x12 0 (2 ^ 57)
     let row : Vec := (Vector.replicate 16 0).setIfInBounds 5 0x80008000
     let s := ready w (fun x => { x with v := Vector.replicate 32 row, a := x.a.setIfInBounds 0 ((Vector.replicate 16 0).setIfInBounds 5 (BitVec.ofNat 40 547608330240)),
                                         rep := some ⟨3841, 255⟩ })
     match exec (.vmac2 0 0) s with
     | .next u => (((u.engine 0).acc 0).int 5, (u.engine 0).aovWord, (u.engine 0).aov)
     | _ => (0, 0, false)) = (549755813887, 0x808500FF, true) := by decide +kernel

/-- 09_anvil_instruction_set: BEXP across BXADV. -/
theorem test_bxadv :
    (let s := ready (iw 0x38 2 0) (fun x => { x with bexp := ⟨1, 2, 0, 3⟩ })
     match exec (.bxadv 0 0) s with
     | .next u => ((s.engine 0).bexpWord, (u.engine 0).bexpWord)
     | _ => (0, 0)) = (0x00030021, 0x0004012F) := by decide +kernel

/-- 09_anvil_instruction_set: butterfly 256 of the last stage, in vector lane 6: the bottom and top results and the redundant sign bits. -/
theorem test_butterfly :
    (let w := iw 0x16 0 (2 ^ 56 + 2 ^ 41 + 2 ^ 38 + 2 ^ 37 + 4 * 2 ^ 26 + 5 * 2 ^ 21)
     let a : Vec := (Vector.replicate 16 0).setIfInBounds 6 (joinHalves 12000 (wrapInt 16 (-3000)))
     let b : Vec := (Vector.replicate 16 0).setIfInBounds 6 (joinHalves 8000 4000)
     let x := { Engine.reset 0 with s := ((Engine.reset 0).s.setIfInBounds 4 8192).setIfInBounds 5 32, bexp := ⟨15, 2, 1, 4⟩ }
     let y := x.butterfly w false 0 0x10000 a b
     (y.fly.map (fun f => (leNat ((f.botRow.drop 24).take 4), leNat ((f.topRow.drop 24).take 4), f.head)), y.bexp.head, y.sreg 4))
      = ([(0xFFAA06DD, 0xF49E2803, some 1)], 15, 8224) := by decide +kernel

/-- R218: one edge per revolution, a second apart, reads one revolution per second. -/
theorem test_tachometer :
    (let s := (up.setFld Fld.ANV_Tt_CFG_PPR 2 1).onTach 2 (fun x => { x with edges := [1000], fresh := 1 })
     match exec (.tachEdge (781251000 + 8 * s.fld Fld.ANV_Tt_CFG_FILT 2) 2 ⟨true, 8 * s.fld Fld.ANV_Tt_CFG_FILT 2⟩ false) s with
     | .next u => u.fld Fld.ANV_Tt_SPEED_SPEED 2
     | _ => 0) = 0x00010000 := by decide +kernel

/-- 10_wick_sequencer: the words of lane 3's program, and the grid tick that its ALIGN waits for. -/
theorem test_wick_words :
    [(0x0C000800 : Word), 0x10000001, 0x14001200, 0x08000000, 0x2C000080, 0x04017FFE, 0x08000003, 0x24000003].map (fun w => (bitsOf 31 26 w, bitsOf 25 0 w))
      = [(3, 2048), (4, 1), (5, 4608), (2, 0), (11, 128), (1, 98302), (2, 3), (9, 3)]
    ∧ gridTick 2 12288 4608 = 36864 ∧ gridTick 36864 12288 4608 = 36864 + 98304 := by decide +kernel

/-- 03_lantern_launch: lanes 2 and 5 ask for tick 1,000,000 and lane 6 for 1,000,064. -/
theorem test_launch_matrix :
    (let s := up.each [2, 5, 6] (fun n s => s.onLane n (fun l => { l with st := .emitting }))
     let u := ((s.request 2 0 998976 1000000).request 5 0 998976 1000000).request 6 0 999040 1000064
     [2, 5, 6].map (fun n => ((u.laneOf n).cells.map (·.rel), u.fld Fld.LAN_DLY_MAX n))) = [([1000000], 0), ([1000128], 128), ([1000256], 192)] := by decide +kernel

/-- 17_register_model: LAN_CTRL.EMIT_EN and its complement as two SPI frames; before HSC_READY the pair is complete and the lanes stay off, reported. -/
theorem test_guarded_pair :
    (let f (a v : Nat) : List Byte := spiFrame a v
     match execAll [.spiWrite 0 (f 0x10000 0xFF), .spiWrite 100 (f 0x10800 0xFFFFFF00)] up with
     | .next u => (u.sys.guards.length, u.fld Fld.LAN_CTRL_EMIT_EN 0, u.fld Fld.SYS_CLAMP_CNT 0, u.flag Fld.SYS_STAT_GUARD_FAULT 0)
     | _ => (9, 9, 9, true)) = (0, 0, 1, false) := by decide +kernel

/-- Ties round to even (R119, R234): 1/2, 3/2 and −1/2. -/
theorem test_rounding : shrEven 1 1 = 0 ∧ shrEven 3 1 = 2 ∧ shrEven (-1) 1 = 0 ∧ shrEven (-3) 1 = -2 := by decide

/-- An empty queue idles, and no row of the table gives bits to decode. -/
theorem test_idle : (match step up with | .next u => u.now + 1 | _ => 0) = up.now + 1 ∧ decodeTableWord 32 0 = none := by decide +kernel

/-- R344, R468: under a reset a doorbell waits with SUBBUSY set, a WARM write does nothing, and a register takes its value. -/
theorem test_reset_held :
    (match execAll [.queueDoorbell 0 .spi 0, .warmReset 0 .spi, .registerWrite 0 .spi 0x10014 5] (phased .hold) with
     | .next u => (u.flag Fld.QUE_Qq_STAT_SUBBUSY 0, u.que.waiting.length, u.fld Fld.SYS_WARM_CNT 0, u.live 0x10014 = (phased .hold).live 0x10014)
     | _ => (false, 0, 9, true)) = (true, 1, 0, false) := by decide +kernel

end Sys2Proof.Tests
end

/-! PROOFS. Every command answers a next state (O56): a command takes its moment, and what it does is carried out between the queue and the fuses as they were. -/

namespace Sys2Proof.Machine

/-- An outcome is a next state that has the queue and the fuses of `s` and is no earlier. -/
def Completes (s : State) (o : Out) : Prop := ∃ u, o = .next u ∧ u.pending = s.pending ∧ u.fixed = s.fixed ∧ s.now ≤ u.now

theorem completes_begin (s : State) (t : Nat) : Completes s (.next (s.begin t)) := ⟨_, rfl, rfl, rfl, Nat.le_max_left ..⟩

theorem always_completes (t : Nat) (s : State) (f : State → State) : Completes s (always t s f) := ⟨_, rfl, rfl, rfl, Nat.le_max_left ..⟩

theorem clocked_completes (t : Nat) (s : State) (f : State → State) : Completes s (clocked t s f) := by
  unfold clocked
  split
  · exact always_completes t s f
  · exact completes_begin s t

theorem ticking_completes (t : Nat) (s : State) (f : State → State) : Completes s (ticking t s f) := by
  unfold ticking
  split
  · exact always_completes t s f
  · exact completes_begin s t

theorem onCtrl_completes (t : Nat) (src : Source) (e val : Nat) (s : State) : Completes s (onCtrl t src e val s) := by
  unfold onCtrl
  exact clocked_completes ..

/-- The commands by their domains: the reset and clock logic and the always-on domain, the units that a warm reset leaves at work, and the reset domain, among it every
instruction of an engine or a sequencer. -/
theorem exec_completes (c : Instr) (s : State) : Completes s (exec c s) := by
  cases c
  all_goals dsimp only [exec]
  case leaseExpiryAcquire t twin =>
    cases twin
    · exact always_completes ..
    · exact clocked_completes ..
  case wake | vaonApply | coldReset | resetRelease | railOutOfTolerance | pllLock | warmResetHoldEnd | feedSample | feedQualified | leaseStop
      | releaseConfirmed | noconfTimeout | tapInstruction | vaonRemoved =>
    exact always_completes ..
  case registerWrite | guardedFirstWrite | guardedComplementWrite | guardTimeout | commit | snapshot | rcRead | uptimeLoRead | sysRun | warmReset
      | legacySelect | expertEnable | expertDisable | crcRefWrite | crcPassEnd | crcHoldEnd | hibernate | clockMonitorCheck | bootChunkReady
      | emitEnable | emitDisable | qforce | quenchClear | qclrCheckEnd | stringSample | overcurrent | monitorWindowEnd | apcUpdate | decayCheck
      | interlockChange | stringARampDone | chirpTableWrite | tableCopybackDone | launchRelease | boosterLead | boosterPulseStart | boosterPulseEnd
      | boosterTailEnd | rangeStepDecide | overloadRise | rangeStepApply | scheduleEntryStart | blankWindowStart | blankWindowEnd | cmWindowEnd
      | scheduleTableWrite | hscCalibrate | hscCalDone | hscRotate | rotationStart | trimPhaseEnd | shadow0End | shadow1End | estimationDone
      | sliceSwap | sliceCheckWindow | sliceDiagEnd | trimSweepStart | hscManWrite | spectrumWrite | mfConversionDone | pathBoundary | ddcOutput
      | imemWrite | dmemHostAccess | tachEdge | tachTimeout | wickProgramWrite | toneOn | toneOff | auxResultRead | memRequest | memCommandSlot
      | refreshDue | selfRefreshEntry | budgetWindowEnd | zqcs | retrainSlot | scrubRead | queueDoorbell | hostDone | linkUp | linkDown
      | speedTryTimeout | rxFrameDrop | arpRequest | neighbourSolicitation | mgmtRead | mgmtWrite | mgmtSubmit | ptpSyncRx | ptpFollowUpRx
      | ptpDelayRespRx | ptpDelayReqRx | ptpSyncTx | ptpSyncTimeout | ppsEdge | ppsinTimeout | secondBoundary | ppsOutEnd | spiWrite | spiRead
      | spiStatus | spiUnknownCommand | leaseRenewal | feedSwitchback | twinEnable | twinDisable | bellowsLaneLoss | leaseInPulse | pathSilence
      | twinSwitchback | eccInject | sliceFaultInject | dummyLoadSelect | emitFaultInject | bellowsLaneLock =>
    exact ticking_completes ..
  case engineRun | engineHaltRequest | engineStep | engineReset | engineClrerr => exact onCtrl_completes ..
  all_goals exact clocked_completes ..

/-- Settles O56: each command is carried out in one of the three domains, and each of those carries the queue and the fuses through. -/
theorem everyCommandCompletes : Obligations.EveryCommandCompletes := by
  unfold Obligations.EveryCommandCompletes
  exact exec_completes

end Sys2Proof.Machine

/-! PROOFS. The register map: which register stands at an address of the windows, what its fields are, and what they read at reset (R18, R477). -/

namespace Sys2Proof.Machine

/-! ### Registers of a window -/

/-- The offset of a register in its last unit. -/
def RegDef.last (r : RegDef) : Nat := r.off + r.stride * (r.count - 1)

/-- Two registers of a window never stand at the same offset: one ends before the other begins, or their units alternate. -/
def RegDef.apart (p r : RegDef) : Bool :=
  decide (p.last < r.off) || decide (r.last < p.off) || (decide (p.stride = r.stride) && decide (p.off % p.stride ≠ r.off % p.stride))

/-- A register has its units at offsets below the tables, and its fields lie within the word and share no bit. -/
def RegDef.sound (r : RegDef) : Bool :=
  decide (0 < r.count) && (decide (r.stride ≠ 0) || decide (r.count = 1)) && decide (r.last < 0x8000)
    && r.fields.all (fun f => decide (f.lo ≤ f.hi) && decide (f.hi ≤ 31)) && decide (r.fields.Pairwise (fun f g => f.hi < g.lo ∨ g.hi < f.lo))

theorem regsOf_apart : ∀ w, w < 16 → (regsOf w).Pairwise (fun p r => p.apart r = true) := by decide +kernel

theorem regsOf_sound : ∀ w, w < 16 → ∀ r, r ∈ regsOf w → r.sound = true := by decide +kernel

theorem regsOf_beyond (w : Nat) (h : 16 ≤ w) : regsOf w = [] := by
  obtain ⟨k, rfl⟩ := Nat.exists_eq_add_of_le' h
  rfl

theorem sound_iff (r : RegDef) : r.sound = true ↔ (0 < r.count ∧ (r.stride ≠ 0 ∨ r.count = 1)) ∧ r.last < 0x8000
    ∧ (∀ f, f ∈ r.fields → f.lo ≤ f.hi ∧ f.hi ≤ 31) ∧ r.fields.Pairwise (fun f g => f.hi < g.lo ∨ g.hi < f.lo) := by
  simp [RegDef.sound, and_assoc]

/-- A unit's offset lies between the register's first and its last. -/
theorem RegDef.unit_le_last (r : RegDef) (u : Nat) (h : u < r.count) : r.off + r.stride * u ≤ r.last :=
  Nat.add_le_add_left (Nat.mul_le_mul_left _ (by omega)) _

/-- The search for the offset of one of a register's units passes every register that is apart from it. -/
theorem findReg_cons_apart (p r : RegDef) (rs : List RegDef) (u : Nat) (hp : p.sound = true) (ha : p.apart r = true) (hu : u < r.count) :
    findReg (p :: rs) (r.off + r.stride * u) = findReg rs (r.off + r.stride * u) := by
  obtain ⟨⟨hc, hs⟩, -⟩ := (sound_iff p).mp hp
  have hl := r.unit_le_last u hu
  simp only [RegDef.apart, Bool.or_eq_true, Bool.and_eq_true, decide_eq_true_eq] at ha
  simp only [findReg]
  split
  next hoff =>
    split
    next h0 =>
      rw [if_neg]
      intro he
      rcases ha with (ha | ha) | ⟨hst, hne⟩
      · simp only [RegDef.last, h0] at ha; omega
      · omega
      · rw [← hst, h0] at he; simp only [h0, Nat.mod_zero] at hne; omega
    next h0 =>
      rw [if_neg]
      rintro ⟨hm, hq⟩
      have he := Nat.div_add_mod (r.off + r.stride * u - p.off) p.stride
      have hle := p.unit_le_last _ hq
      rcases ha with (ha | ha) | ⟨hst, hne⟩
      · omega
      · omega
      · have h1 : (r.off + r.stride * u) % p.stride = p.off % p.stride := by
          rw [show r.off + r.stride * u = p.off + p.stride * ((r.off + r.stride * u - p.off) / p.stride) by omega, Nat.add_mul_mod_self_left]
        rw [← hst, Nat.add_mul_mod_self_left] at h1
        exact hne h1.symm
  next hoff => rfl

/-- A register's own search finds its unit. -/
theorem findReg_cons_self (r : RegDef) (rs : List RegDef) (u : Nat) (hr : r.sound = true) (hu : u < r.count) :
    findReg (r :: rs) (r.off + r.stride * u) = some (r, u) := by
  obtain ⟨⟨hc, hs⟩, -⟩ := (sound_iff r).mp hr
  simp only [findReg, Nat.le_add_right, if_true, Nat.add_sub_cancel_left]
  split
  next h0 =>
    have : u = 0 := by omega
    simp [h0, this]
  next h0 =>
    rw [Nat.mul_div_cancel_left _ (Nat.pos_of_ne_zero h0), if_pos ⟨Nat.mul_mod_right .., hu⟩]

theorem findReg_unit (rs : List RegDef) (r : RegDef) (u : Nat) (hs : ∀ p, p ∈ rs → p.sound = true) (ha : rs.Pairwise (fun p r => p.apart r = true))
    (hr : r ∈ rs) (hu : u < r.count) : findReg rs (r.off + r.stride * u) = some (r, u) := by
  induction rs with
  | nil => cases hr
  | cons p rs ih =>
    obtain ⟨hp, hrs⟩ := List.pairwise_cons.mp ha
    rcases List.mem_cons.mp hr with rfl | hr
    · exact findReg_cons_self r rs u (hs r hr) hu
    · rw [findReg_cons_apart p r rs u (hs p (by simp)) (hp r hr) hu]
      exact ih (fun q hq => hs q (by simp [hq])) hrs hr

/-- What a search finds stands in the list, at the offset searched. -/
theorem findReg_some {rs : List RegDef} {off u : Nat} {r : RegDef} (hs : ∀ p, p ∈ rs → p.sound = true) (h : findReg rs off = some (r, u)) :
    r ∈ rs ∧ u < r.count ∧ off = r.off + r.stride * u := by
  induction rs with
  | nil => cases h
  | cons p rs ih =>
    have hrest (h : findReg rs off = some (r, u)) : r ∈ p :: rs ∧ u < r.count ∧ off = r.off + r.stride * u := by
      obtain ⟨h1, h2⟩ := ih (fun q hq => hs q (by simp [hq])) h
      exact ⟨by simp [h1], h2⟩
    obtain ⟨⟨hc, -⟩, -⟩ := (sound_iff p).mp (hs p (by simp))
    simp only [findReg] at h
    split at h
    next hoff =>
      split at h
      next h0 =>
        split at h
        next he => cases h; exact ⟨by simp, hc, by omega⟩
        next => exact hrest h
      next h0 =>
        split at h
        next he =>
          cases h
          have := Nat.div_add_mod (off - r.off) r.stride
          exact ⟨by simp, he.2, by omega⟩
        next => exact hrest h
    next => exact hrest h

/-! ### Registers of the windows -/

theorem regsOf_mem_window {w : Nat} {r : RegDef} (h : r ∈ regsOf w) : w < 16 := by
  by_contra hw
  rw [regsOf_beyond w (by omega)] at h
  cases h

/-- The register of a window at one of its units. -/
theorem regAt_unit {w : Nat} {r : RegDef} (hr : r ∈ regsOf w) {u : Nat} (hu : u < r.count) : regAt (w * 0x10000 + r.off + r.stride * u) = some (r, u) := by
  have hw := regsOf_mem_window hr
  obtain ⟨-, hl, -⟩ := (sound_iff r).mp (regsOf_sound w hw r hr)
  have hle := r.unit_le_last u hu
  have hd : (w * 0x10000 + r.off + r.stride * u) / 0x10000 = w := by omega
  have hm : (w * 0x10000 + r.off + r.stride * u) % 0x10000 = r.off + r.stride * u := by omega
  rw [regAt, hd, hm]
  exact findReg_unit _ r u (regsOf_sound w hw) (regsOf_apart w hw) hr hu

/-- A register found at an address is of its window and stands there. -/
theorem regAt_some {a u : Nat} {r : RegDef} (h : regAt a = some (r, u)) :
    r ∈ regsOf (a / 0x10000) ∧ u < r.count ∧ a % 0x10000 = r.off + r.stride * u := by
  unfold regAt at h
  by_cases hw : a / 0x10000 < 16
  · exact findReg_some (regsOf_sound _ hw) h
  · rw [regsOf_beyond _ (by omega)] at h
    cases h

/-- The fields of a register lie within the word. -/
theorem regAt_field_fits {a u : Nat} {r : RegDef} (h : regAt a = some (r, u)) {fd : FieldDef} (hf : fd ∈ r.fields) : fd.lo ≤ fd.hi ∧ fd.hi ≤ 31 := by
  have hr := (regAt_some h).1
  obtain ⟨-, -, hfit, -⟩ := (sound_iff r).mp (regsOf_sound _ (regsOf_mem_window hr) r hr)
  exact hfit fd hf

/-- The fields of a register share no bit. -/
theorem regAt_fields_apart {a u : Nat} {r : RegDef} (h : regAt a = some (r, u)) : r.fields.Pairwise (fun f g => f.hi < g.lo ∨ g.hi < f.lo) := by
  have hr := (regAt_some h).1
  obtain ⟨-, -, -, hap⟩ := (sound_iff r).mp (regsOf_sound _ (regsOf_mem_window hr) r hr)
  exact hap

/-! ### Writing a word field by field -/

/-- A word whose fields are written one after another reads bits that none of them holds as they were. -/
theorem bitsOf_foldl_other (fds : List FieldDef) (v : FieldDef → Nat) (w : Word) (hi lo : Nat) (hf : ∀ f, f ∈ fds → f.lo ≤ f.hi ∧ f.hi ≤ 31)
    (ha : ∀ f, f ∈ fds → hi < f.lo ∨ f.hi < lo) : bitsOf hi lo (fds.foldl (fun w f => withBits f.hi f.lo w (v f)) w) = bitsOf hi lo w := by
  induction fds generalizing w with
  | nil => rfl
  | cons f fs ih =>
    obtain ⟨h1, h2⟩ := hf f (by simp)
    rw [List.foldl_cons, ih _ (fun g hg => hf g (by simp [hg])) (fun g hg => ha g (by simp [hg])), bitsOf_withBits_other _ _ _ _ _ _ h1 h2 (ha f (by simp))]

/-- A word whose fields, which share no bit, are written one after another reads each field's value. -/
theorem bitsOf_foldl_field (fds : List FieldDef) (v : FieldDef → Nat) (w : Word) (hf : ∀ f, f ∈ fds → f.lo ≤ f.hi ∧ f.hi ≤ 31)
    (ha : fds.Pairwise (fun f g => f.hi < g.lo ∨ g.hi < f.lo)) (fd : FieldDef) (hm : fd ∈ fds) :
    bitsOf fd.hi fd.lo (fds.foldl (fun w f => withBits f.hi f.lo w (v f)) w) = v fd % 2 ^ (fd.hi + 1 - fd.lo) := by
  induction fds generalizing w with
  | nil => cases hm
  | cons f fs ih =>
    obtain ⟨hfs, hrest⟩ := List.pairwise_cons.mp ha
    have hfit := fun g (hg : g ∈ fs) => hf g (by simp [hg])
    rw [List.foldl_cons]
    rcases List.mem_cons.mp hm with rfl | hm
    · obtain ⟨h1, h2⟩ := hf fd (by simp)
      rw [bitsOf_foldl_other fs v _ _ _ hfit hfs, bitsOf_withBits_same _ _ _ _ h1 h2]
    · exact ih _ hfit hrest hm

/-- A field of a register's reset value reads the field's own reset value (R18). -/
theorem bitsOf_resetAt (fx : Fixed) {a u : Nat} {r : RegDef} (h : regAt a = some (r, u)) {fd : FieldDef} (hf : fd ∈ r.fields) :
    bitsOf fd.hi fd.lo (resetAt fx a) = resetField fx fd u % 2 ^ (fd.hi + 1 - fd.lo) := by
  simp only [resetAt, h, resetOf]
  exact bitsOf_foldl_field r.fields (fun fd => resetField fx fd u) 0 (fun f hf => regAt_field_fits h hf) (regAt_fields_apart h) fd hf

end Sys2Proof.Machine

/-! PROOFS. The state after reset (O59): it meets the invariant, its register fields read their reset values, and nothing is in progress (R18, R467). -/

namespace Sys2Proof.Machine

/-- The parameters are within their limits at reset: their reset values are. -/
theorem reset_inLimits : State.reset.InLimits := by
  unfold State.InLimits fieldWithin
  decide +kernel

/-- Every queue is empty at reset. -/
theorem reset_occupancy : ∀ q, q < 64 → State.reset.fld Fld.QUE_Qq_STAT_OCC q = (State.reset.queue q).entries.length ∧ State.reset.occupied q ≤ 1024 := by
  decide +kernel

theorem reset_inv : State.reset.Inv where
  queue := by simp [State.reset]
  part := Or.inl ⟨rfl, rfl⟩
  dram := by decide
  form := by decide +kernel
  occupancy := reset_occupancy
  gates := by decide
  released := by simp [State.reset]
  unfed := by simp [State.reset]
  limits := reset_inLimits
  kept := by decide

/-- At reset a field of a register reads its table's value in force, staged and pending: no value is listed apart from the tables. -/
theorem reset_fields {w : Nat} (hw : w < 16) {r : RegDef} (hr : r ∈ regsOf w) {u : Nat} (hu : u < r.count) {fd : FieldDef} (hf : fd ∈ r.fields) :
    let a := w * 0x10000 + r.off + r.stride * u
    let v := resetField State.reset.fixed fd u % 2 ^ (fd.hi + 1 - fd.lo)
    bitsOf fd.hi fd.lo (State.reset.live a) = v ∧ bitsOf fd.hi fd.lo (State.reset.staged a) = v ∧ bitsOf fd.hi fd.lo (State.reset.pend a) = v := by
  intro a v
  have ha : a < 0x100000 := by
    obtain ⟨-, hl, -⟩ := (sound_iff r).mp (regsOf_sound w hw r hr)
    have := r.unit_le_last u hu
    omega
  have hreset : bitsOf fd.hi fd.lo (resetAt State.reset.fixed a) = v := bitsOf_resetAt _ (regAt_unit hr hu) hf
  have hlive : State.reset.live a = resetAt State.reset.fixed a := by
    simp only [State.live, Nat.mod_eq_of_lt ha]
    rfl
  exact ⟨hlive ▸ hreset, hreset, hreset⟩

/-- The lanes, engines, sequencers and PHX lanes at reset. -/
theorem reset_units : ∀ n, n < 8 → (State.reset.laneOf n).st = .off ∧ (State.reset.engine n).st = .halted ∧ (State.reset.engine n).run = false
    ∧ (State.reset.engine n).pc = 0 ∧ (State.reset.wick n).loops = [] ∧ (State.reset.wick n).prog = [] ∧ (State.reset.phxOf n).grid = none
    ∧ (State.reset.phxOf n).pts = [] ∧ State.reset.fld Fld.WCK_Ln_STAT_STATE n = 0 := by decide +kernel

/-- Settles O59: the invariant and the register fields at reset by their lemmas, the rest by evaluation. -/
theorem resetState : Obligations.ResetState := by
  unfold Obligations.ResetState
  refine ⟨reset_inv, rfl, rfl, rfl, ?_, rfl, fun w hw r hr u hu fd hf => reset_fields hw hr hu hf, reset_units, ?_⟩
  · decide +kernel
  · decide +kernel

end Sys2Proof.Machine

/-! PROOFS. The invariant does not hold of every step (O57): it says nothing of the unit numbers that work in progress carries. A read that waits at a memory channel names its
port by a number, a burst served counts in MEM_BURST_CNT of that port (R315), and for a number beyond the twelve ports that is another register. -/

namespace Sys2Proof.Machine

/-- The number of a port that the device does not have, whose MEM_BURST_CNT stands where queue 0 has its occupancy. -/
def strayPort : Nat := (Fld.QUE_Qq_STAT_OCC.addr - Fld.MEM_BURST_CNT.addr) / Fld.MEM_BURST_CNT.stride

/-- A read of address 0 from that port. -/
def strayRead : MemReq := { port := strayPort, addr := 0, write := false, ap := false, data := [], since := 0, ce := 0, ue := false }

/-- The reset state with the clocks running and READY set, where channel 0 holds the read, and the row that it asks for is open. -/
def strayState : State :=
  let s := State.reset.setFlag Fld.MEM_STAT_READY 0 true
  let row : Bank := { key := 0, row := some 0, act := 0, pre := 0, col := 0, wrEnd := 0 }
  { s with
    sys := { s.sys with power := .run }
    memc := { s.memc with chan := s.memc.chan.setIfInBounds 0 { MemChan.reset with reqs := [strayRead], banks := [row] } } }

theorem stray_inLimits : strayState.InLimits := by
  unfold State.InLimits fieldWithin
  decide +kernel

theorem stray_occupancy : ∀ q, q < 64 → strayState.fld Fld.QUE_Qq_STAT_OCC q = (strayState.queue q).entries.length ∧ strayState.occupied q ≤ 1024 := by
  decide +kernel

theorem stray_inv : (strayState.withPending [.memCommandSlot 100 0 false 0]).Inv where
  queue := by simp [State.withPending, Instr.wf]
  part := Or.inl ⟨rfl, rfl⟩
  dram := by decide
  form := by decide +kernel
  occupancy := stray_occupancy
  gates := by decide
  released := by simp [State.withPending, strayState, State.reset]
  unfed := by simp [State.withPending, strayState]
  limits := stray_inLimits
  kept := by decide

/-- A command slot of channel 0, long after the row was opened, serves the read, and queue 0, which holds nothing, then shows an occupancy of 1. -/
theorem straySlot_shows_occupancy :
    ∃ u, step (strayState.withPending [.memCommandSlot 100 0 false 0]) = .next u ∧ u.fld Fld.QUE_Qq_STAT_OCC 0 = 1 ∧ (u.queue 0).entries.length = 0 :=
  ⟨_, rfl, by decide +kernel, by decide +kernel⟩

/-- Refutes O57: the state in which a read from a port beyond the device's twelve waits meets the invariant, and the command slot that serves it breaks the
clause on the queues' occupancy. -/
theorem not_everyStepKeepsTheInvariant : ¬ Obligations.EveryStepKeepsTheInvariant := by
  unfold Obligations.EveryStepKeepsTheInvariant
  intro h
  obtain ⟨u, hu, hocc, hlen⟩ := straySlot_shows_occupancy
  obtain ⟨hinv, -⟩ := h _ u stray_inv hu
  have hkept := (hinv.occupancy 0 (by decide)).1
  rw [hocc, hlen] at hkept
  exact absurd hkept (by decide)

end Sys2Proof.Machine

/-! PROOFS. The statement on writes of one word (O1) fails in its clause on doorbells. A submission of the host is the last of its PCLK edge to be served (R338): the model ranks
engine k at k, the device at 8 and the host at 9. The statement takes any state, and so one where an engine of a number beyond 9 has submitted on the same edge: the host then
overtakes it, and what the queue holds on the way is no longer what it held with the host's submission behind it. -/

namespace Sys2Proof.Machine

/-- The clocks run, QUE is enabled, and the submission words of queue 0 hold a sealed descriptor of zeros. -/
def sealedState : State :=
  let up := { State.reset with sys := { State.reset.sys with power := .run } }
  (wordsOf 16 (imgSeal (List.replicate 64 0))).zipIdx.foldl (fun s w => s.setLive (0xA4040 + 4 * w.2) w.1) (up.setFlag Fld.QUE_CTRL_EN 0 true)

/-- A submission on PCLK edge 0 by an engine that no variant has. -/
def strayInflight : Inflight := { prod := .engine 10, seq := 1, img := [], edge := 0 }

/-- The same with that submission on its way to queue 0. -/
def strayTurnState : State := sealedState.onQueue 0 (fun x => { x with inflight := [strayInflight] })

theorem strayTurn_admits : (strayTurnState.begin 0).Admits .hearth (Fld.QUE_Qq_DOORBELL_SUBMIT.at 0) where
  legacy h := absurd h (by decide +kernel)
  mirror _ h := by simp at h
  expert h := absurd h (by decide +kernel)
  heard := by simp [State.deaf]

/-- The submission words pass the checks. -/
theorem strayTurn_checks :
    strayTurnState.flag Fld.QUE_Qq_STAT_SUBBUSY 0 = false ∧ strayTurnState.checkSubmit 0 .host (strayTurnState.subImage 0) = none := by decide +kernel

/-- One submission is on its way to queue 0. Hearth's doorbell at device time 0 puts the host's in its place, and the engine's, which queue 0 does not take, is turned away. -/
theorem strayTurn_overtaken :
    (strayTurnState.queue 0).inflight.length = 1 ∧ ∃ u, exec (.queueDoorbell 0 .hearth 0) strayTurnState = .next u ∧ (u.queue 0).inflight.length = 1 :=
  ⟨by decide +kernel, _, rfl, by decide +kernel⟩

/-- Refutes O1: after the doorbell one submission is on its way, where the clause on doorbells asks for the one that was there with the host's behind it. -/
theorem not_busWrites : ¬ Obligations.BusWrites := by
  unfold Obligations.BusWrites
  intro h
  obtain ⟨-, -, -, -, -, -, -, -, -, hdoorbell, -⟩ := h
  obtain ⟨hidle, hpass⟩ := strayTurn_checks
  obtain ⟨-, hfree⟩ := hdoorbell strayTurnState 0 .hearth 0 (by decide +kernel) (by decide) strayTurn_admits
  obtain ⟨u, f, hu, -, -, hinflight, -⟩ := (hfree hidle).1 hpass
  obtain ⟨hbefore, v, hv, hafter⟩ := strayTurn_overtaken
  obtain rfl : u = v := Host.Outcome.next.inj (hu.symm.trans hv)
  rw [hinflight, List.length_append, hbefore, List.length_singleton] at hafter
  exact absurd hafter (by decide)

end Sys2Proof.Machine

/-! PROOFS. A command under a condition: where the condition holds at the command's moment its effect is all that happens, and where it fails nothing happens but the time. -/

namespace Sys2Proof.Machine

section Conditions

variable (t : Nat) (s : State) (c : State → Bool) (f : State → State)

theorem always_only (hc : c (s.begin t) = true) : always t s (fun r => r.only (c r) f) = .next (s.after t f) := by
  simp only [always, State.after, State.only_pos _ _ f hc]

theorem always_unless (hc : c (s.begin t) = false) : always t s (fun r => r.only (c r) f) = .next (s.begin t) := by
  simp only [always, hc, State.only_false, State.carry_self]

theorem ticking_only (hr : s.Runs) (hc : c (s.begin t) = true) : ticking t s (fun r => r.only (c r) f) = .next (s.after t f) :=
  (ticking_run t s _ hr).trans (always_only t s c f hc)

theorem ticking_unless (hr : s.Runs) (hc : c (s.begin t) = false) : ticking t s (fun r => r.only (c r) f) = .next (s.begin t) :=
  (ticking_run t s _ hr).trans (always_unless t s c f hc)

theorem clocked_only (hr : s.Runs) (hc : c (s.begin t) = true) : clocked t s (fun r => r.only (c r) f) = .next (s.after t f) :=
  (clocked_run t s _ hr).trans (always_only t s c f hc)

end Conditions

/-- A command of the clocked subsystems does at its moment what its effect does there. -/
theorem clocked_after (t : Nat) (s : State) (f g : State → State) (hr : s.Runs) (h : f (s.begin t) = g (s.begin t)) : clocked t s f = .next (s.after t g) := by
  rw [clocked_run t s f hr, State.after, h]

theorem ticking_after (t : Nat) (s : State) (f g : State → State) (hr : s.Runs) (h : f (s.begin t) = g (s.begin t)) : ticking t s f = .next (s.after t g) := by
  rw [ticking_run t s f hr, State.after, h]

theorem always_after (t : Nat) (s : State) (f g : State → State) (h : f (s.begin t) = g (s.begin t)) : always t s f = .next (s.after t g) := by
  rw [always, State.after, h]

end Sys2Proof.Machine

/-! PROOFS. Held clocks and held domains (O60). -/

namespace Sys2Proof.Machine

/-- An outcome of a command that a warm or watchdog reset leaves at work: it happens while the divided clocks run, and else changes nothing but the time (R24, R25). -/
def Ticks (s : State) (o : Out) : Prop := ∃ t f, o = ticking t s f

/-- An outcome of a command that a warm or watchdog reset holds too (R468). -/
def Clocks (s : State) (o : Out) : Prop := ∃ t f, o = clocked t s f

theorem ticking_ticks (t : Nat) (s : State) (f : State → State) : Ticks s (ticking t s f) := ⟨t, f, rfl⟩

theorem clocked_clocks (t : Nat) (s : State) (f : State → State) : Clocks s (clocked t s f) := ⟨t, f, rfl⟩

theorem onCtrl_clocks (t : Nat) (src : Source) (e val : Nat) (s : State) : Clocks s (onCtrl t src e val s) := by
  unfold onCtrl
  exact clocked_clocks ..

/-- A command is one of the always-on domain, or one of the units that a warm reset leaves at work, or one of the reset domain's clock: which of the three decides what holds it
(R24, R25, R467, R468). -/
theorem exec_domain (c : Instr) (s : State) :
    (c.alwaysOn = true ∧ c.resetDomain = false) ∨ (c.resetDomain = false ∧ Ticks s (exec c s)) ∨ Clocks s (exec c s) := by
  cases c
  all_goals dsimp only [exec]
  case leaseExpiryAcquire | wake | vaonApply | coldReset | resetRelease | railOutOfTolerance | pllLock | warmResetHoldEnd | feedSample | feedQualified | leaseStop
      | releaseConfirmed | noconfTimeout | tapInstruction | vaonRemoved =>
    exact .inl ⟨rfl, rfl⟩
  case registerWrite | guardedFirstWrite | guardedComplementWrite | guardTimeout | commit | snapshot | rcRead | uptimeLoRead | sysRun | warmReset
      | legacySelect | expertEnable | expertDisable | crcRefWrite | crcPassEnd | crcHoldEnd | hibernate | clockMonitorCheck | bootChunkReady
      | emitEnable | emitDisable | qforce | quenchClear | qclrCheckEnd | stringSample | overcurrent | monitorWindowEnd | apcUpdate | decayCheck
      | interlockChange | stringARampDone | chirpTableWrite | tableCopybackDone | launchRelease | boosterLead | boosterPulseStart | boosterPulseEnd
      | boosterTailEnd | rangeStepDecide | overloadRise | rangeStepApply | scheduleEntryStart | blankWindowStart | blankWindowEnd | cmWindowEnd
      | scheduleTableWrite | hscCalibrate | hscCalDone | hscRotate | rotationStart | trimPhaseEnd | shadow0End | shadow1End | estimationDone
      | sliceSwap | sliceCheckWindow | sliceDiagEnd | trimSweepStart | hscManWrite | spectrumWrite | mfConversionDone | pathBoundary | ddcOutput
      | imemWrite | dmemHostAccess | tachEdge | tachTimeout | wickProgramWrite | toneOn | toneOff | auxResultRead | memRequest | memCommandSlot
      | refreshDue | selfRefreshEntry | budgetWindowEnd | zqcs | retrainSlot | scrubRead | queueDoorbell | hostDone | linkUp | linkDown
      | speedTryTimeout | rxFrameDrop | arpRequest | neighbourSolicitation | mgmtRead | mgmtWrite | mgmtSubmit | ptpSyncRx | ptpFollowUpRx
      | ptpDelayRespRx | ptpDelayReqRx | ptpSyncTx | ptpSyncTimeout | ppsEdge | ppsinTimeout | secondBoundary | ppsOutEnd | spiWrite | spiRead
      | spiStatus | spiUnknownCommand | leaseRenewal | feedSwitchback | twinEnable | twinDisable | bellowsLaneLoss | leaseInPulse | pathSilence
      | twinSwitchback | eccInject | sliceFaultInject | dummyLoadSelect | emitFaultInject | bellowsLaneLock =>
    exact .inr (.inl ⟨rfl, ticking_ticks ..⟩)
  case engineRun | engineHaltRequest | engineStep | engineReset | engineClrerr => exact .inr (.inr (onCtrl_clocks ..))
  all_goals exact .inr (.inr (clocked_clocks ..))

/-- A command outside the always-on domain, while the divided clocks are held. -/
theorem exec_held (c : Instr) (s : State) (hc : c.alwaysOn = false) (hs : s.ticks = false) : ∃ t, exec c s = .next (s.begin t) := by
  have hclk : s.clocked = false := (Bool.or_eq_false_iff.mp hs).1
  rcases exec_domain c s with ⟨hon, -⟩ | ⟨-, t, f, he⟩ | ⟨t, f, he⟩
  · exact absurd hon (by simp [hc])
  · exact ⟨t, he.trans (ticking_held t s f hs)⟩
  · exact ⟨t, he.trans (clocked_held t s f hclk)⟩

/-- A command of the reset domain, while a warm or watchdog reset holds that domain. -/
theorem exec_inReset (c : Instr) (s : State) (hc : c.resetDomain = true) (hs : s.inReset = true) : ∃ t, exec c s = .next (s.begin t) := by
  have hclk : s.clocked = false := by
    simp only [State.inReset, decide_eq_true_eq] at hs
    simp [State.clocked, hs]
  rcases exec_domain c s with ⟨-, hout⟩ | ⟨hout, -⟩ | ⟨t, f, he⟩
  · exact absurd hc (by simp [hout])
  · exact absurd hc (by simp [hout])
  · exact ⟨t, he.trans (clocked_held t s f hclk)⟩

/-- Settles O60: what holds a command is decided by its domain alone. -/
theorem heldClocksHoldEverything : Obligations.HeldClocksHoldEverything := by
  unfold Obligations.HeldClocksHoldEverything
  exact ⟨exec_held, exec_inReset⟩

end Sys2Proof.Machine

/-! PROOFS. Commands that write a guarded register as a whole pair, and expert space (O3): a pair that nothing holds back and no lock turns away is the write of its register. -/

namespace Sys2Proof.Machine

/-- With no pair open in a window, a pair written whole there takes effect. -/
theorem State.pairWhole_free (s : State) (src : Source) (a : Nat) (f : State → State) (h : s.PairFree (a / 0x10000)) : s.pairWhole src a f = f s := by
  have hg : s.guardOf (a / 0x10000) = none := h
  have hx : s.guardExpire (a / 0x10000) = s := by rw [State.guardExpire, hg]
  simp only [State.pairWhole, hx, hg]

/-- A pair written whole that nothing holds back and no lock turns away is met by its register. -/
theorem State.pairWrite_admitted (s : State) (src : Source) (a : Nat) (val : Word) (hp : s.PairFree (a / 0x10000)) (ha : s.Admits src a) :
    s.pairWrite src a val = s.meets src a (fun r => r.guardApply src a val) := by
  rw [State.pairWrite, State.pairWhole_free s src a _ hp]
  exact State.admit_of s src a val _ ha

/-- The command of such a pair, at its moment; the value may be one that the register gives. -/
theorem pairWrite_after (s : State) (t : Nat) (src : Source) (a : Nat) (v : State → Word) (hr : s.Runs) (hp : s.PairFree (a / 0x10000))
    (ha : (s.begin t).Admits src a) :
    ticking t s (fun r => r.pairWrite src a (v r)) = .next (s.after t (fun r => r.meets src a (fun r => r.guardApply src a (v (s.begin t))))) := by
  rw [ticking_run t s _ hr, State.pairWrite_admitted (s.begin t) src a _ hp ha]
  rfl

/-- The value in force depends on the register store and the fuses. -/
theorem State.live_congr {s u : State} (hr : u.regs = s.regs) (hf : u.fixed = s.fixed) (k : Nat) : u.live k = s.live k := by
  simp only [State.live, hr, hf]

/-- The value that a command leaves in force is the one that its effect leaves, where that keeps the fuses. -/
theorem State.live_after (s : State) (t k : Nat) (f : State → State) (h : (f (s.begin t)).fixed = s.fixed) : (s.after t f).live k = (f (s.begin t)).live k :=
  State.live_congr (s := f (s.begin t)) (u := s.after t f) rfl h.symm k

/-- What such a command leaves is what its write leaves. -/
theorem pairWrite_next (s : State) (t : Nat) (src : Source) (a : Nat) (v : State → Word) (hr : s.Runs) (hp : s.PairFree (a / 0x10000))
    (ha : (s.begin t).Admits src a) (w : State) (hw : (s.begin t).meets src a (fun r => r.guardApply src a (v (s.begin t))) = w) (hfix : w.fixed = s.fixed) :
    ∃ u, ticking t s (fun r => r.pairWrite src a (v r)) = .next u ∧ (∀ k, u.live k = w.live k) ∧ u.sys = w.sys ∧ u.lan = w.lan ∧ u.eng = w.eng ∧ u.mem = w.mem := by
  subst hw
  exact ⟨_, pairWrite_after s t src a v hr hp ha, fun k => State.live_after s t k _ hfix, rfl, rfl, rfl, rfl⟩

/-- A flag as its register shows it. -/
theorem State.flag_of_live {s : State} {f : Fld} {u : Nat} {w : Word} (h : s.live (f.at u) = w) : s.flag f u = decide (bitsOf f.hi f.lo w ≠ 0) := by
  rw [State.flag, State.fld, h]

/-! ### What a write that meets others of its PCLK edge leaves (R479) -/

/-- A record of the edge's writes changes the register store alone. -/
theorem State.meets_eq (s : State) (src : Source) (a : Nat) (f : State → State) : ∃ regs, s.meets src a f = { f s with regs := regs } := by
  simp only [State.meets]
  split
  · split <;> exact ⟨_, rfl⟩
  · exact ⟨_, rfl⟩

@[simp] theorem State.meets_sys (s : State) (src : Source) (a : Nat) (f : State → State) : (s.meets src a f).sys = (f s).sys := by
  obtain ⟨r, h⟩ := s.meets_eq src a f
  rw [h]

@[simp] theorem State.meets_fixed (s : State) (src : Source) (a : Nat) (f : State → State) : (s.meets src a f).fixed = (f s).fixed := by
  obtain ⟨r, h⟩ := s.meets_eq src a f
  rw [h]

@[simp] theorem State.meets_lan (s : State) (src : Source) (a : Nat) (f : State → State) : (s.meets src a f).lan = (f s).lan := by
  obtain ⟨r, h⟩ := s.meets_eq src a f
  rw [h]

@[simp] theorem State.meets_eng (s : State) (src : Source) (a : Nat) (f : State → State) : (s.meets src a f).eng = (f s).eng := by
  obtain ⟨r, h⟩ := s.meets_eq src a f
  rw [h]

@[simp] theorem State.meets_mem (s : State) (src : Source) (a : Nat) (f : State → State) : (s.meets src a f).mem = (f s).mem := by
  obtain ⟨r, h⟩ := s.meets_eq src a f
  rw [h]

/-- A register that has no field written at once holds what its write left there. -/
theorem State.live_meets (s : State) (src : Source) (a k : Nat) (f : State → State) (r : RegDef) (u : Nat) (hr : regAt a = some (r, u))
    (hw : r.fields.all (fun fd => decide (fd.acc ≠ .rw)) = true) : (s.meets src a f).live k = (f s).live k := by
  have hkeep (w old : Word) (fs : List FieldDef) (hfs : fs.all (fun fd => decide (fd.acc ≠ .rw)) = true) :
      fs.foldl (fun w fd => if fd.acc = .rw then withBits fd.hi fd.lo w (bitsOf fd.hi fd.lo old) else w) w = w := by
    induction fs generalizing w with
    | nil => rfl
    | cons fd fs ih =>
      simp only [List.all_cons, Bool.and_eq_true, decide_eq_true_eq] at hfs
      rw [List.foldl_cons, if_neg hfs.1, ih w hfs.2]
  simp only [State.meets, hr, hkeep _ (s.live a) r.fields hw]
  split
  · by_cases hk : k = a
    · subst hk
      exact State.live_setLive_same (f s) k _
    · exact State.live_setLive_other (f s) a k _ hk
  · rfl

/-! ### What the hold of the configuration CRC leaves (R447, R448) -/

/-- A flag's register is the one that changes with it. -/
theorem State.live_setFlag_other (s : State) (f : Fld) (u k : Nat) (b : Bool) (h : k ≠ f.at u) : (s.setFlag f u b).live k = s.live k :=
  State.live_setLive_other s (f.at u) k _ h

/-- A change of covered bits shows in SYS_STAT and nowhere else among the registers. -/
theorem State.live_coverChanged (s : State) (k : Nat) (h : k ≠ Fld.SYS_STAT_HOLD.at 0) : s.coverChanged.live k = s.live k := by
  unfold State.coverChanged
  exact State.live_setFlag_other _ _ _ _ _ h

theorem State.live_beginHold (s : State) (k : Nat) (h : k ≠ Fld.SYS_STAT_HOLD.at 0) : s.beginHold.live k = s.live k := by
  unfold State.beginHold
  exact State.live_setFlag_other _ _ _ _ _ h

/-- A write of a guarded register leaves what `f` leaves, and beside it at most a hold of the CRC. -/
theorem State.covering_cases (s : State) (a : Nat) (f : State → State) : s.covering a f = f s ∨ s.covering a f = (f s).coverChanged.beginHold := by
  simp only [State.covering]
  split
  · split
    · exact .inr rfl
    · exact .inl rfl
  · exact .inl rfl

theorem State.live_covering (s : State) (a k : Nat) (f : State → State) (hk : k ≠ Fld.SYS_STAT_HOLD.at 0) : (s.covering a f).live k = (f s).live k := by
  rcases s.covering_cases a f with h | h
  · rw [h]
  · rw [h, State.live_beginHold _ k hk, State.live_coverChanged _ k hk]

/-- A register that the CRC does not cover begins no hold. -/
theorem State.covering_uncovered (s : State) (a u : Nat) (r : RegDef) (f : State → State) (hr : regAt a = some (r, u)) (hm : coverMask a r = 0) :
    s.covering a f = f s := by
  simp [State.covering, hr, hm]

@[simp] theorem State.covering_fixed (s : State) (a : Nat) (f : State → State) : (s.covering a f).fixed = (f s).fixed := by
  rcases s.covering_cases a f with h | h <;> simp [h]

@[simp] theorem State.covering_lan (s : State) (a : Nat) (f : State → State) : (s.covering a f).lan = (f s).lan := by
  rcases s.covering_cases a f with h | h <;> simp [h]

@[simp] theorem State.covering_eng (s : State) (a : Nat) (f : State → State) : (s.covering a f).eng = (f s).eng := by
  rcases s.covering_cases a f with h | h <;> simp [h]

@[simp] theorem State.covering_mem (s : State) (a : Nat) (f : State → State) : (s.covering a f).mem = (f s).mem := by
  rcases s.covering_cases a f with h | h <;> simp [h]

/-! ### EXPERT_EN and the CRC reference (R447, R448, R451) -/

/-- A write of SYS_CTRL that changes no field but EXPERT_EN, which it sets: nothing else follows it. -/
theorem State.sysCtrl_setExpert (s : State) (src : Source) (hw : s.flag Fld.SYS_CTRL_WARM 0 = false) :
    s.sysCtrl src (withBits 3 3 (s.live 4) 1) = if s.flag Fld.SYS_CTRL_EXPERT_EN 0 then s else s.setFlag Fld.SYS_CTRL_EXPERT_EN 0 true := by
  have hlow (i : Nat) (hi : i < 3) : bitsOf i i (withBits 3 3 (s.live 4) 1) = bitsOf i i (s.live 4) :=
    bitsOf_withBits_other 3 3 i i _ _ (by decide) (by decide) (.inl hi)
  have hexp : bitsOf 3 3 (withBits 3 3 (s.live 4) 1) = 1 := bitsOf_withBits_same 3 3 _ _ (by decide) (by decide)
  have hone (i : Nat) : decide (bitsOf i i (s.live 4) ≠ 0) = decide (bitsOf i i (s.live 4) = 1) := by
    have hlt : bitsOf i i (s.live 4) < 2 := by
      have := Nat.mod_lt ((s.live 4).toNat / 2 ^ i) (show 0 < 2 ^ (i + 1 - i) by simp)
      simpa [bitsOf] using this
    rw [decide_eq_decide]
    omega
  have hrun : s.flag Fld.SYS_CTRL_RUN 0 = decide (bitsOf 0 0 (s.live 4) = 1) := hone 0
  have hleg : s.legacy = decide (bitsOf 2 2 (s.live 4) = 1) := hone 2
  have hwarm : bitsOf 1 1 (s.live 4) = 0 := by simpa [State.flag, State.fld, Fld.at, Fld.SYS_CTRL_WARM] using hw
  have hnorun : ¬ (bitsOf 0 0 (s.live 4) = 0 ∧ bitsOf 0 0 (s.live 4) = 1) := by omega
  unfold State.sysCtrl
  simp only [hlow 0 (by decide), hlow 1 (by decide), hlow 2 (by decide), hexp, hrun, hleg, hwarm]
  cases hx : s.flag Fld.SYS_CTRL_EXPERT_EN 0 <;> simp [hx, State.setExpert, hnorun]

theorem State.guardApply_sysCtrl (s : State) (src : Source) (val : Word) : s.guardApply src 4 val = s.covering 4 (fun r => r.sysCtrl src val) := (rfl)

theorem State.guardApply_crcRef (s : State) (src : Source) (val : Word) : s.guardApply src 0x10 val = s.covering 0x10 (fun r => r.crcRef val) := (rfl)

/-- The pair of EXPERT_EN leaves SYS_CTRL with EXPERT_EN set and its other bits as they were. -/
theorem State.live_expertEnable (s : State) (src : Source) (hw : s.flag Fld.SYS_CTRL_WARM 0 = false) :
    let u := s.meets src 4 (fun r => r.guardApply src 4 (withBits 3 3 (s.live 4) 1))
    u.live 4 = withBits 3 3 (s.live 4) 1 ∧ u.lan = s.lan ∧ u.eng = s.eng ∧ u.mem = s.mem ∧ u.fixed = s.fixed := by
  have hreg : ∃ r, regAt 4 = some (r, 0) ∧ r.fields.all (fun fd => decide (fd.acc ≠ .rw)) = true := ⟨_, rfl, by decide⟩
  obtain ⟨r, hr, hacc⟩ := hreg
  have hctrl := State.sysCtrl_setExpert s src hw
  refine ⟨?_, ?_, ?_, ?_, ?_⟩
  · rw [State.live_meets s src 4 4 _ r 0 hr hacc, State.guardApply_sysCtrl, State.live_covering _ _ _ _ (by decide), hctrl]
    split
    · next hx =>
      have hbit : bitsOf 3 3 (s.live 4) = 1 := by
        have hlt := Nat.mod_lt ((s.live 4).toNat / 2 ^ 3) (show 0 < 2 ^ (3 + 1 - 3) by decide)
        have hne : bitsOf 3 3 (s.live 4) ≠ 0 := by simpa [State.flag, State.fld, Fld.at, Fld.SYS_CTRL_EXPERT_EN] using hx
        unfold bitsOf at hne ⊢
        omega
      rw [← hbit, withBits_self 3 3 _ (by decide) (by decide)]
    · exact State.live_setLive_same ..
  all_goals
    simp only [State.meets_lan, State.meets_eng, State.meets_mem, State.meets_fixed, State.guardApply_sysCtrl, State.covering_lan,
      State.covering_eng, State.covering_mem, State.covering_fixed, hctrl]
    split <;> simp

/-- A clear check that watches changes nothing but Lantern's own record (R93). -/
theorem State.clearWatch_regs (s : State) : s.clearWatch.regs = s.regs := by
  unfold State.clearWatch
  split <;> rfl

theorem State.clearWatch_sys (s : State) : s.clearWatch.sys = s.sys := by
  unfold State.clearWatch
  split <;> rfl

theorem State.clearWatch_fixed (s : State) : s.clearWatch.fixed = s.fixed := by
  unfold State.clearWatch
  split <;> rfl

/-- The reference takes its value, the hold is over, and SYS_STAT shows none. -/
theorem State.crcRef_leaves (s : State) (val : Word) :
    (s.crcRef val).live 0x10 = val ∧ (s.crcRef val).sys.hold = none ∧ (s.crcRef val).flag Fld.SYS_STAT_HOLD 0 = false ∧ (s.crcRef val).fixed = s.fixed := by
  have hlive (k : Nat) := State.live_congr (State.clearWatch_regs
    (({ s with sys := { s.sys with hold := none } }.setLive Fld.SYS_CRC_REF_REF.addr val).setFlag Fld.SYS_STAT_HOLD 0 false)) (State.clearWatch_fixed _) k
  refine ⟨?_, ?_, ?_, ?_⟩
  · exact (hlive 0x10).trans ((State.live_setFlag_other _ _ _ _ _ (by decide)).trans (State.live_setLive_same _ _ _))
  · rw [State.crcRef, State.clearWatch_sys]
    rfl
  · exact (State.flag_of_live (f := Fld.SYS_STAT_HOLD) (u := 0) (hlive _)).trans (State.flag_setFlag_same _ Fld.SYS_STAT_HOLD 0 false ⟨by decide, by decide⟩)
  · exact State.clearWatch_fixed _

/-- The pair of SYS_CRC_REF leaves its value there, and no hold. -/
theorem State.crcRefPair_leaves (s : State) (src : Source) (ref : Word) :
    let u := s.meets src 0x10 (fun r => r.guardApply src 0x10 ref)
    u.live 0x10 = ref ∧ u.sys.hold = none ∧ u.flag Fld.SYS_STAT_HOLD 0 = false ∧ u.fixed = s.fixed := by
  obtain ⟨r, hr, hacc, hmask⟩ : ∃ r, regAt 0x10 = some (r, 0) ∧ r.fields.all (fun fd => decide (fd.acc ≠ .rw)) = true ∧ coverMask 0x10 r = 0 :=
    ⟨_, rfl, by decide, by decide⟩
  have hlive (k : Nat) : (s.meets src 0x10 (fun r => r.guardApply src 0x10 ref)).live k = (s.crcRef ref).live k := by
    rw [State.live_meets s src 0x10 k _ r 0 hr hacc, State.guardApply_crcRef, State.covering_uncovered _ _ _ r _ hr hmask]
  have hsys : (s.meets src 0x10 (fun r => r.guardApply src 0x10 ref)).sys = (s.crcRef ref).sys := by
    rw [State.meets_sys, State.guardApply_crcRef, State.covering_uncovered _ _ _ r _ hr hmask]
  obtain ⟨href, hhold, hflag, hfix⟩ := State.crcRef_leaves s ref
  refine ⟨(hlive 0x10).trans href, by rw [hsys, hhold], by rw [State.flag, State.fld, hlive]; exact hflag, ?_⟩
  rw [State.meets_fixed, State.guardApply_crcRef, State.covering_uncovered _ _ _ r _ hr hmask, hfix]

/-- A write to expert space that the lock turns away is answered with reason EXPERT (R39, R442). -/
theorem State.pastLocks_expert (s : State) (src : Source) (a : Nat) (val : Word) (f : State → State) (hx : expertAt a = true) (ht : src ≠ .twin)
    (he : s.flag Fld.SYS_CTRL_EXPERT_EN 0 = false) (hd : s.deaf src = false) (hl : s.legacy = false)
    (hm : s.role = 2 → mirrored a = true → src ≠ .spi ∧ src ≠ .mgmt) : ∃ old, s.pastLocks src a val f = s.clamp src a val old rsExpert 0 31 := by
  have hnomirror : ¬ (s.role = 2 ∧ (src = .spi ∨ src = .mgmt) ∧ mirrored a = true) := by
    rintro ⟨hrole, hsrc, hmir⟩
    obtain ⟨h1, h2⟩ := hm hrole hmir
    exact hsrc.elim h1 h2
  have hrole : s.fld Fld.TWN_STAT_ROLE 0 = s.role := rfl
  simp only [State.pastLocks, State.pastLocksAs, hd, hl, hx, he, hrole]
  simp only [Bool.false_eq_true, if_false, Bool.false_and, decide_eq_true_eq, Bool.and_eq_true, Bool.or_eq_true, and_assoc, hnomirror, ne_eq, ht, not_false_eq_true,
    Bool.not_false, and_self, if_true]
  exact ⟨_, rfl⟩

/-- EXPERT_ENABLE sets EXPERT_EN, which stays; RUN keeps its value. -/
theorem expertEnable_sets (s : State) (t : Nat) (src : Source) (hr : s.Runs) (hp : s.PairFree 0) (ha : (s.begin t).Admits src 4)
    (hw : s.flag Fld.SYS_CTRL_WARM 0 = false) :
    ∃ u, exec (.expertEnable t src) s = .next u ∧ u.flag Fld.SYS_CTRL_EXPERT_EN 0 = true ∧ u.flag Fld.SYS_CTRL_RUN 0 = s.flag Fld.SYS_CTRL_RUN 0
      ∧ u.lan = s.lan ∧ u.eng = s.eng ∧ u.mem = s.mem := by
  obtain ⟨hlive, hlan, heng, hmem, hfix⟩ := State.live_expertEnable (s.begin t) src hw
  obtain ⟨u, he, hu, -, hulan, hueng, humem⟩ := pairWrite_next s t src 4 (fun r => withBits 3 3 (r.live 4) 1) hr hp ha _ rfl hfix
  have h4 := (hu 4).trans hlive
  refine ⟨u, he, ?_, ?_, hulan.trans hlan, hueng.trans heng, humem.trans hmem⟩
  · rw [State.flag_of_live (f := Fld.SYS_CTRL_EXPERT_EN) (u := 0) h4]
    exact decide_eq_true (by rw [show Fld.SYS_CTRL_EXPERT_EN.hi = 3 from rfl, show Fld.SYS_CTRL_EXPERT_EN.lo = 3 from rfl,
      bitsOf_withBits_same 3 3 _ _ (by decide) (by decide)]; decide)
  · rw [State.flag_of_live (f := Fld.SYS_CTRL_RUN) (u := 0) h4]
    exact congrArg (fun n => decide (n ≠ 0)) (bitsOf_withBits_other 3 3 0 0 _ _ (by decide) (by decide) (.inl (by decide)))

/-- CRC_REF_WRITE sets the reference and ends a hold. -/
theorem crcRefWrite_sets (s : State) (t : Nat) (src : Source) (ref : Word) (hr : s.Runs) (hp : s.PairFree 0) (ha : (s.begin t).Admits src 0x10) :
    ∃ u, exec (.crcRefWrite t src ref) s = .next u ∧ u.live 0x10 = ref ∧ u.sys.hold = none ∧ u.flag Fld.SYS_STAT_HOLD 0 = false := by
  obtain ⟨href, hhold, hflag, hfix⟩ := State.crcRefPair_leaves (s.begin t) src ref
  obtain ⟨u, he, hu, husys, -⟩ := pairWrite_next s t src 0x10 (fun _ => ref) hr hp ha _ rfl hfix
  refine ⟨u, he, (hu 0x10).trans href, by rw [husys, hhold], ?_⟩
  rw [State.flag_of_live (hu _)]
  exact hflag

/-- Settles O3: each command is the write of its register, whose fields then say what it changes. -/
theorem guardedCommandsAndExpert : Obligations.GuardedCommandsAndExpert := by
  unfold Obligations.GuardedCommandsAndExpert
  refine ⟨⟨fun s t src hr hp => ⟨fun ha => ?_, fun ref ha => pairWrite_after s t src 0x10 (fun _ => ref) hr hp ha⟩, fun s t src hr hp ha => ?_⟩, ?_, ?_, ?_⟩
  · have h4 (hi v : Nat) := pairWrite_after s t src 4 (fun r => withBits hi hi (r.live 4) v) hr hp ha
    exact ⟨h4 0 1, h4 1 1, fun on => h4 2 (b2n on), h4 3 1, h4 3 0⟩
  · exact ⟨pairWrite_after s t src 0xE0000 (fun _ => 1) hr hp ha, pairWrite_after s t src 0xE0000 (fun _ => 0) hr hp ha⟩
  · exact expertEnable_sets
  · exact crcRefWrite_sets
  · intro s src a val f _ hx ht he hd hl hm
    exact s.pastLocks_expert src a val f hx ht he hd hl hm

end Sys2Proof.Machine

/-! PROOFS. A submission's life in its queue (O46): which registers the journal's writes leave alone, and what acceptance, completion and the mailbox change of a queue. -/

namespace Sys2Proof.Machine

/-! ### Registers that a write leaves -/

/-- A field is its register's bits. -/
theorem State.fld_of_live {s u : State} {f : Fld} {n : Nat} (h : u.live (f.at n) = s.live (f.at n)) : u.fld f n = s.fld f n := by
  rw [State.fld, State.fld, h]

theorem State.fld_lt (s : State) (f : Fld) (n : Nat) : s.fld f n < 2 ^ (f.hi + 1 - f.lo) := Nat.mod_lt _ (Nat.two_pow_pos _)

/-- A counter's register is the one that changes with it. -/
theorem State.live_count_other (s : State) (f : Fld) (u n k : Nat) (h : k ≠ f.at u) : (s.count f u n).live k = s.live k := State.live_setLive_other s (f.at u) k _ h

/-! ### What a write of DRAM counts (R315, R318, R319, R323) -/

/-- The counters that an access to DRAM on port `p` moves. -/
def memCounters (p : Nat) : List Nat :=
  [Fld.MEM_SRABORT_CNT.at 0, Fld.MEM_SRWAKE_CNT.at 0, Fld.MEM_BURST_CNT.at p, Fld.MEM_CE_CNT.at 0]

/-- No register beyond the window of memory is one of them. -/
theorem above_memCounters (k : Nat) (h : 0xA0000 ≤ k) : k ∉ memCounters 6 := by
  have hle : ∀ j, j ∈ memCounters 6 → j < 0xA0000 := by decide
  exact fun hk => absurd (hle k hk) (by omega)

section Counters

variable (s : State) (p k : Nat) (h : k ∉ memCounters p)
include h

theorem memCounters_ne : k ≠ Fld.MEM_SRABORT_CNT.at 0 ∧ k ≠ Fld.MEM_SRWAKE_CNT.at 0 ∧ k ≠ Fld.MEM_BURST_CNT.at p ∧ k ≠ Fld.MEM_CE_CNT.at 0 := by
  simpa [memCounters] using h

theorem State.live_srArrival (c now : Nat) : (s.srArrival c now).live k = s.live k := by
  obtain ⟨habort, hwake, -, -⟩ := memCounters_ne p k h
  simp only [State.srArrival, State.only]
  split
  · rfl
  · split
    · exact State.live_count_other _ _ _ _ _ habort
    · split
      · exact State.live_count_other _ _ _ _ _ hwake
      · rfl

theorem State.live_access (ap write : Bool) (a : Nat) : (s.access p ap write a).live k = s.live k := State.live_srArrival s p k h _ _

theorem State.live_served (ap write : Bool) (a : Nat) : (s.served p ap write a).live k = s.live k := by
  obtain ⟨-, -, hburst, -⟩ := memCounters_ne p k h
  exact (State.live_count_other _ _ _ _ _ hburst).trans (State.live_access s p k h ap write a)

theorem State.live_traffic (ap write : Bool) (a n : Nat) : (s.traffic p ap write a n).live k = s.live k := by
  unfold State.traffic State.each
  generalize burstsOf a n = bs
  induction bs generalizing s with
  | nil => rfl
  | cons b bs ih => exact (ih _).trans (State.live_served s p k h ap write b)

theorem State.live_dramWritten (a n : Nat) : (s.dramWritten a n).live k = s.live k := by
  obtain ⟨-, -, -, hce⟩ := memCounters_ne p k h
  have hclear (u : State) (t j m : Nat) : (u.eccClear t j m).live k = u.live k := rfl
  have hedge (u : State) (j : Nat) : (if u.eccAt 0 (8 * j) = 1 then (u.eccClear 0 (8 * j) 8).count Fld.MEM_CE_CNT 0 1 else u).live k = u.live k := by
    split
    · exact State.live_count_other _ _ _ _ _ hce
    · rfl
  have hover : (s.eccOver 0 a n Fld.MEM_CE_CNT).live k = s.live k := by
    simp only [State.eccOver]
    rw [hedge, hedge]
    split
    · exact hclear ..
    · rfl
  unfold State.dramWritten
  split
  · rfl
  · exact (State.live_congr (State.eccStrike_regs ..) (State.eccStrike_fixed ..) k).trans hover

theorem State.live_writeBytes (a : Nat) (bs : List Byte) : (s.writeBytes a bs).live k = s.live k := by
  unfold State.writeBytes
  split
  · rfl
  · exact (State.live_dramWritten _ p k h a _).trans (State.live_congr (State.storeBytes_regs ..) (State.storeBytes_fixed ..) k)

/-- A write of the device's own masters moves the counters of memory and no other register. -/
theorem State.live_portWrite (ap : Bool) (a : Nat) (bs : List Byte) : (s.portWrite p ap a bs).live k = s.live k := by
  unfold State.portWrite
  split
  · exact (State.live_writeBytes _ p k h a bs).trans (State.live_traffic s p k h ap true a _)
  · rfl

theorem State.live_writeRecord (q : Nat) (h6 : p = 6) : (s.writeRecord q).live k = s.live k := by
  subst h6
  exact (State.live_congr (State.mirror_regs ..) (State.mirror_fixed ..) k).trans (State.live_portWrite s 6 k h true _ _)

end Counters

/-! ### The fields of a ring -/

/-- The fields that say where a queue's ring stands. -/
def ringFields : List Fld := [Fld.QUE_Qq_ACC_SEQ_SEQ, Fld.QUE_Qq_CMP_SEQ_SEQ, Fld.QUE_Qq_TAIL_TAIL, Fld.QUE_Qq_HEAD_HEAD, Fld.QUE_Qq_STAT_OCC]

/-- The ring of queue `q` stands in `u` where it stands in `s`. -/
def KeepsRing (q : Nat) (s u : State) : Prop := ∀ f, f ∈ ringFields → u.fld f q = s.fld f q

theorem KeepsRing.refl (q : Nat) (s : State) : KeepsRing q s s := fun _ _ => rfl

theorem KeepsRing.trans {q : Nat} {s u v : State} (h : KeepsRing q s u) (h' : KeepsRing q u v) : KeepsRing q s v := fun f hf => (h' f hf).trans (h f hf)

theorem ringFields_addr {f : Fld} (hf : f ∈ ringFields) : f.stride = 0x100 ∧ 0xA4000 ≤ f.addr ∧ f.addr < 0xA4100 := by
  simp only [ringFields, List.mem_cons, List.not_mem_nil, or_false] at hf
  rcases hf with rfl | rfl | rfl | rfl | rfl <;> decide

/-- A ring follows its registers. -/
theorem keepsRing_of_live {q : Nat} {s u : State} (h : ∀ k, 0xA4000 ≤ k → u.live k = s.live k) : KeepsRing q s u := by
  intro f hf
  obtain ⟨-, hlo, -⟩ := ringFields_addr hf
  exact State.fld_of_live (h _ (Nat.le_trans hlo (Nat.le_add_right ..)))

theorem keepsRing_of_regs {q : Nat} {s u : State} (hr : u.regs = s.regs) (hf : u.fixed = s.fixed) : KeepsRing q s u :=
  keepsRing_of_live (fun k _ => State.live_congr hr hf k)

/-- A field below the queues' blocks, or one of a block that is no field of the ring. -/
theorem keepsRing_setFld (q : Nat) (s : State) (g : Fld) (n v : Nat) (hg : g.Fits)
    (h : ∀ f, f ∈ ringFields → f.at q ≠ g.at n ∨ f.hi < g.lo ∨ g.hi < f.lo) : KeepsRing q s (s.setFld g n v) := by
  intro f hf
  rcases h f hf with ha | hb
  · exact State.fld_setFld_addr s g f n q v ha
  · exact State.fld_setFld_bits s g f n q v hg hb

/-- A counter of the queues' window stands below their blocks. -/
theorem keepsRing_count (q : Nat) (s : State) (g : Fld) (n v : Nat) (h : g.at n < 0xA4000) : KeepsRing q s (s.count g n v) :=
  keepsRing_of_live (fun _ hk => State.live_count_other _ _ _ _ _ (by omega))

/-- A flag of QUE_Qq_STAT stands beside the occupancy. -/
theorem keepsRing_stat (q n : Nat) (s : State) (g : Fld) (v : Nat) (ha : g.addr = 0xA401C) (hs : g.stride = 0x100) (hlo : 10 < g.lo) (hg : g.Fits) :
    KeepsRing q s (s.setFld g n v) := by
  refine keepsRing_setFld q s g n v hg (fun f hf => ?_)
  simp only [ringFields, List.mem_cons, List.not_mem_nil, or_false] at hf
  rcases hf with rfl | rfl | rfl | rfl | rfl
  case inr.inr.inr.inr => exact .inr (.inl hlo)
  all_goals
    left
    simp only [Fld.at, ha, hs, Fld.QUE_Qq_ACC_SEQ_SEQ, Fld.QUE_Qq_CMP_SEQ_SEQ, Fld.QUE_Qq_TAIL_TAIL, Fld.QUE_Qq_HEAD_HEAD]
    omega

theorem keepsRing_writeRecord (q n : Nat) (s : State) : KeepsRing q s (s.writeRecord n) :=
  keepsRing_of_live (fun k hk => State.live_writeRecord s 6 k (above_memCounters k (by omega)) n rfl)

theorem keepsRing_portWrite (q : Nat) (s : State) (ap : Bool) (a : Nat) (bs : List Byte) : KeepsRing q s (s.portWrite 6 ap a bs) :=
  keepsRing_of_live (fun k hk => State.live_portWrite s 6 k (above_memCounters k (by omega)) ap a bs)

theorem keepsRing_mirror (q : Nat) (s : State) (a : Nat) (bs : List Byte) : KeepsRing q s (s.mirror a bs) := keepsRing_of_regs (by simp) (by simp)

/-! ### What stands in a queue beside its registers -/

theorem State.queue_congr {s u : State} (h : u.que = s.que) (q : Nat) : u.queue q = s.queue q := by simp only [State.queue, h]

theorem State.queue_onQueue (s : State) (k q : Nat) (f : Queue → Queue) (hq : q < 64) : (s.onQueue k f).queue q = if q = k then f (s.queue q) else s.queue q := by
  by_cases h : q = k
  · subst h; simp [State.queue, State.onQueue, Vector.getD, hq]
  · simp [State.queue, State.onQueue, Vector.getD, h, Array.getD_eq_getD_getElem?, Ne.symm h]

/-- The mark of a descriptor leaves the submissions and the number of descriptors. -/
theorem Queue.mark_inflight (x : Queue) (seq : Nat) (f : Entry → Entry) : (x.mark seq f).inflight = x.inflight := (rfl)

theorem Queue.mark_length (x : Queue) (seq : Nat) (f : Entry → Entry) : (x.mark seq f).entries.length = x.entries.length := List.length_map ..

/-- Queue `q` has in `u` the ring, the submissions and the number of descriptors that it has in `s`. -/
structure SameRing (q : Nat) (s u : State) : Prop where
  ring : KeepsRing q s u
  inflight : (u.queue q).inflight = (s.queue q).inflight
  length : (u.queue q).entries.length = (s.queue q).entries.length

theorem SameRing.refl (q : Nat) (s : State) : SameRing q s s := ⟨.refl q s, rfl, rfl⟩

theorem SameRing.trans {q : Nat} {s u v : State} (h : SameRing q s u) (h' : SameRing q u v) : SameRing q s v :=
  ⟨h.ring.trans h'.ring, h'.inflight.trans h.inflight, h'.length.trans h.length⟩

theorem sameRing_of_que {q : Nat} {s u : State} (hk : KeepsRing q s u) (hq : u.que = s.que) : SameRing q s u :=
  ⟨hk, by rw [State.queue_congr hq], by rw [State.queue_congr hq]⟩

theorem sameRing_only {q : Nat} {s : State} (c : Bool) (f : State → State) (h : c = true → SameRing q s (f s)) : SameRing q s (s.only c f) := by
  cases c
  · exact .refl q s
  · exact h rfl

theorem sameRing_onEngine (q : Nat) (s : State) (e : Nat) (f : Engine → Engine) : SameRing q s (s.onEngine e f) :=
  sameRing_of_que (keepsRing_of_regs rfl rfl) rfl

theorem sameRing_writeRecord (q n : Nat) (s : State) : SameRing q s (s.writeRecord n) := sameRing_of_que (keepsRing_writeRecord q n s) (by simp)

/-- A mark of one descriptor. -/
theorem sameRing_mark (q k seq : Nat) (s : State) (f : Entry → Entry) (hq : q < 64) : SameRing q s (s.onQueue k (fun x => x.mark seq f)) := by
  refine ⟨keepsRing_of_regs rfl rfl, ?_, ?_⟩ <;> rw [State.queue_onQueue _ _ _ _ hq] <;> split
  · exact Queue.mark_inflight ..
  · rfl
  · exact Queue.mark_length ..
  · rfl

theorem sameRing_done (q k seq : Nat) (s : State) (hq : q < 64) : SameRing q s (s.done k seq) := by
  refine (sameRing_mark q k seq s (fun e => { e with done := true }) hq).trans ?_
  exact sameRing_only _ (fun s => s.writeRecord k) (fun _ => sameRing_writeRecord q k _)

theorem sameRing_take (q k seq : Nat) (s : State) (hq : q < 64) : SameRing q s (s.take k seq) := by
  refine ((sameRing_mark q k seq s (fun e => { e with taken := true }) hq).trans ?_).trans (sameRing_writeRecord q k _)
  refine sameRing_of_que ?_ ?_
  · refine keepsRing_setFld q _ Fld.QUE_Qq_TAKEN_SEQ_SEQ k seq ⟨by decide, by decide⟩ (fun f hf => .inl ?_)
    simp only [ringFields, List.mem_cons, List.not_mem_nil, or_false] at hf
    rcases hf with rfl | rfl | rfl | rfl | rfl <;> simp only [Fld.at, Fld.QUE_Qq_ACC_SEQ_SEQ, Fld.QUE_Qq_CMP_SEQ_SEQ, Fld.QUE_Qq_TAIL_TAIL,
      Fld.QUE_Qq_HEAD_HEAD, Fld.QUE_Qq_STAT_OCC, Fld.QUE_Qq_TAKEN_SEQ_SEQ] <;> omega
  · rfl

theorem sameRing_mailboxTake (q : Nat) (s : State) (hq : q < 64) : SameRing q s s.mailboxTake := by
  simp only [State.mailboxTake]
  split
  · split
    · exact sameRing_take q 63 _ s hq
    · exact .refl q s
  · exact .refl q s

/-! ### Acceptance (R339) -/

/-- The ring as an acceptance moves it: the image in its slot, the descriptor behind the accepted ones, and the sequence, TAIL and the occupancy with it. -/
def State.movedRing (s : State) (q : Nat) (f : Inflight) (rest : List Inflight) : State :=
  let img := s.acceptedImage f.img
  let n := s.recNumbers q img
  let w := (s.rewriteImage q f).slotWrite q (s.fld Fld.QUE_Qq_TAIL_TAIL q) img
  let e : Entry := ⟨f.seq, w.2, false, s.cons q = consNet && n = 0, (s.queue q).rseqNext, n, s.dev, false⟩
  (((w.1.onQueue q (fun x =>
      { x with inflight := rest, entries := x.entries ++ [e], hist := (imgGet img 0 8, f.seq) :: x.hist, rseqNext := ((s.queue q).rseqNext + n) % 2 ^ 32 })).setFld
    Fld.QUE_Qq_ACC_SEQ_SEQ q f.seq).setFld Fld.QUE_Qq_TAIL_TAIL q ((s.fld Fld.QUE_Qq_TAIL_TAIL q + 1) % s.fld Fld.QUE_Qq_SIZE_SIZE q)).setFld Fld.QUE_Qq_STAT_OCC q
    (s.fld Fld.QUE_Qq_STAT_OCC q + 1)

/-- What an acceptance counts. -/
def State.countAccepted (s : State) (q : Nat) (unmirrored : Bool) : State :=
  if unmirrored then ((s.count Fld.QUE_ACC_CNT q 1).count Fld.QUE_UNMIR_CNT 0 1).setFlag Fld.QUE_Qq_STAT_UNMIRRORED q true else s.count Fld.QUE_ACC_CNT q 1

/-- The producer learns that its submission is accepted. -/
def State.tellProducer (s : State) (q : Nat) (f : Inflight) : State :=
  match f.prod with
  | .host => (s.setFld Fld.QUE_Qq_STAT_RESULT q resAccepted).setFlag Fld.QUE_Qq_STAT_SUBBUSY q false
  | .engine k => s.onEngine k (fun x => x.postResult (BitVec.ofNat 32 f.seq))
  | _ => s

/-- The consumer learns of the descriptor; one without a record is done at once. -/
def State.tellConsumer (s : State) (q seq : Nat) (empty : Bool) : State :=
  ((if q < 8 then s.onEngine q (fun x => x.raise 2) else s).only empty (fun s => s.done q seq)).only (q = 63) State.mailboxTake

/-- An acceptance moves the ring, and then counts and tells. -/
theorem State.accept_eq (s : State) (q : Nat) (f : Inflight) (rest : List Inflight) (h : (s.queue q).inflight = f :: rest) :
    s.accept q = (((s.movedRing q f rest).countAccepted q s.que.unmirrored).tellProducer q f).tellConsumer q f.seq
      (s.cons q = consNet && s.recNumbers q (s.acceptedImage f.img) = 0) := by
  unfold State.accept
  split
  · next he => exact absurd (he.symm.trans h) (by simp)
  · next g rest' he =>
    obtain ⟨rfl, rfl⟩ := List.cons.inj (he.symm.trans h)
    unfold State.tellConsumer State.tellProducer State.countAccepted State.movedRing
    rfl

/-- A flag or a result in QUE_Qq_STAT. -/
theorem sameRing_stat (q : Nat) (s : State) (g : Fld) (v : Nat) (ha : g.addr = 0xA401C) (hs : g.stride = 0x100) (hlo : 10 < g.lo) (hg : g.Fits) :
    SameRing q s (s.setFld g q v) := sameRing_of_que (keepsRing_stat q q s g v ha hs hlo hg) (State.setFld_que ..)

theorem sameRing_countAccepted (q : Nat) (s : State) (unmirrored : Bool) (hq : q < 64) : SameRing q s (s.countAccepted q unmirrored) := by
  have hacc : SameRing q s (s.count Fld.QUE_ACC_CNT q 1) :=
    sameRing_of_que (keepsRing_count q s Fld.QUE_ACC_CNT q 1 (by simp only [Fld.at, Fld.QUE_ACC_CNT]; omega)) (State.count_que ..)
  unfold State.countAccepted
  split
  · exact (hacc.trans (sameRing_of_que (keepsRing_count q _ Fld.QUE_UNMIR_CNT 0 1 (by decide)) (State.count_que ..))).trans
      (sameRing_stat q _ Fld.QUE_Qq_STAT_UNMIRRORED _ rfl rfl (by decide) ⟨by decide, by decide⟩)
  · exact hacc

theorem sameRing_tellProducer (q : Nat) (s : State) (f : Inflight) : SameRing q s (s.tellProducer q f) := by
  unfold State.tellProducer
  split
  · exact (sameRing_stat q s Fld.QUE_Qq_STAT_RESULT _ rfl rfl (by decide) ⟨by decide, by decide⟩).trans
      (sameRing_stat q _ Fld.QUE_Qq_STAT_SUBBUSY _ rfl rfl (by decide) ⟨by decide, by decide⟩)
  · exact sameRing_onEngine q s _ _
  · exact .refl q s

theorem sameRing_tellConsumer (q seq : Nat) (s : State) (empty : Bool) (hq : q < 64) : SameRing q s (s.tellConsumer q seq empty) := by
  unfold State.tellConsumer
  refine (SameRing.trans ?_ (sameRing_only _ _ (fun _ => sameRing_done q q _ _ hq))).trans (sameRing_only _ _ (fun _ => sameRing_mailboxTake q _ hq))
  split
  · exact sameRing_onEngine q s _ _
  · exact .refl q s

/-- What counts and tells leaves the ring as the acceptance moved it. -/
theorem sameRing_accept (s : State) (q : Nat) (f : Inflight) (rest : List Inflight) (hq : q < 64) (h : (s.queue q).inflight = f :: rest) :
    SameRing q (s.movedRing q f rest) (s.accept q) := by
  rw [s.accept_eq q f rest h]
  exact ((sameRing_countAccepted q _ _ hq).trans (sameRing_tellProducer q _ f)).trans (sameRing_tellConsumer q f.seq _ _ hq)

/-! ### The ring's registers as they move -/

/-- ACC_SEQ or CMP_SEQ, a ring index and the occupancy written one after another: each reads what was written to it, and the other fields of the ring stand. -/
theorem State.moveRing_fields (s : State) (q : Nat) (g i : Fld) (a b c : Nat) (hg : g = Fld.QUE_Qq_ACC_SEQ_SEQ ∨ g = Fld.QUE_Qq_CMP_SEQ_SEQ)
    (hi : i = Fld.QUE_Qq_TAIL_TAIL ∨ i = Fld.QUE_Qq_HEAD_HEAD) :
    let u := ((s.setFld g q a).setFld i q b).setFld Fld.QUE_Qq_STAT_OCC q c
    u.fld g q = a % 2 ^ 31 ∧ u.fld i q = b % 2 ^ 10 ∧ u.fld Fld.QUE_Qq_STAT_OCC q = c % 2 ^ 11
      ∧ (i = Fld.QUE_Qq_HEAD_HEAD → u.fld Fld.QUE_Qq_TAIL_TAIL q = s.fld Fld.QUE_Qq_TAIL_TAIL q) := by
  have hfits : g.Fits ∧ i.Fits ∧ Fld.QUE_Qq_STAT_OCC.Fits := by
    rcases hg with rfl | rfl <;> rcases hi with rfl | rfl <;> exact ⟨⟨by decide, by decide⟩, ⟨by decide, by decide⟩, ⟨by decide, by decide⟩⟩
  obtain ⟨hgf, hif, hof⟩ := hfits
  have hgi : g.at q ≠ i.at q ∧ g.at q ≠ Fld.QUE_Qq_STAT_OCC.at q ∧ i.at q ≠ Fld.QUE_Qq_STAT_OCC.at q := by
    rcases hg with rfl | rfl <;> rcases hi with rfl | rfl <;>
      simp only [Fld.at, Fld.QUE_Qq_ACC_SEQ_SEQ, Fld.QUE_Qq_CMP_SEQ_SEQ, Fld.QUE_Qq_TAIL_TAIL, Fld.QUE_Qq_HEAD_HEAD, Fld.QUE_Qq_STAT_OCC] <;> omega
  obtain ⟨hgi, hgo, hio⟩ := hgi
  refine ⟨?_, ?_, ?_, ?_⟩
  · rw [State.fld_setFld_addr _ _ _ _ _ _ hgo, State.fld_setFld_addr _ _ _ _ _ _ hgi, State.fld_setFld_same _ _ _ _ hgf]
    rcases hg with rfl | rfl <;> rfl
  · rw [State.fld_setFld_addr _ _ _ _ _ _ hio, State.fld_setFld_same _ _ _ _ hif]
    rcases hi with rfl | rfl <;> rfl
  · exact State.fld_setFld_same _ _ _ _ hof
  · rintro rfl
    have haddr : Fld.QUE_Qq_TAIL_TAIL.at q ≠ g.at q ∧ Fld.QUE_Qq_TAIL_TAIL.at q ≠ Fld.QUE_Qq_HEAD_HEAD.at q
        ∧ Fld.QUE_Qq_TAIL_TAIL.at q ≠ Fld.QUE_Qq_STAT_OCC.at q := by
      rcases hg with rfl | rfl <;>
        simp only [Fld.at, Fld.QUE_Qq_ACC_SEQ_SEQ, Fld.QUE_Qq_CMP_SEQ_SEQ, Fld.QUE_Qq_TAIL_TAIL, Fld.QUE_Qq_HEAD_HEAD, Fld.QUE_Qq_STAT_OCC] <;> omega
    obtain ⟨hseq, hhead, hocc⟩ := haddr
    rw [State.fld_setFld_addr _ _ _ _ _ _ hocc, State.fld_setFld_addr _ _ _ _ _ _ hhead, State.fld_setFld_addr _ _ _ _ _ _ hseq]

theorem State.rewriteImage_que (s : State) (q : Nat) (f : Inflight) : (s.rewriteImage q f).que = s.que := by
  simp only [State.rewriteImage, State.only]
  split <;> simp

/-- An injected error strikes the image in its slot and nothing else of the queue (R456). -/
theorem State.slotWrite_que (s : State) (q k : Nat) (img : List Byte) : (s.slotWrite q k img).1.que = s.que := by
  simp only [State.slotWrite]
  split
  · split
    · split <;> rfl
    · rfl
  · rfl

/-- The oldest submission leaves those in progress and stands behind the accepted descriptors; ACC_SEQ, TAIL and the occupancy move with it. -/
theorem State.movedRing_moves (s : State) (q : Nat) (f : Inflight) (rest : List Inflight) (hq : q < 64) :
    let u := s.movedRing q f rest
    (u.queue q).inflight = rest ∧ (u.queue q).entries.length = (s.queue q).entries.length + 1
      ∧ u.fld Fld.QUE_Qq_ACC_SEQ_SEQ q = f.seq % 2 ^ 31
      ∧ u.fld Fld.QUE_Qq_TAIL_TAIL q = (s.fld Fld.QUE_Qq_TAIL_TAIL q + 1) % s.fld Fld.QUE_Qq_SIZE_SIZE q % 2 ^ 10
      ∧ u.fld Fld.QUE_Qq_STAT_OCC q = (s.fld Fld.QUE_Qq_STAT_OCC q + 1) % 2 ^ 11 := by
  have hqueue : ((s.rewriteImage q f).slotWrite q (s.fld Fld.QUE_Qq_TAIL_TAIL q) (s.acceptedImage f.img)).1.queue q = s.queue q :=
    State.queue_congr ((State.slotWrite_que ..).trans (State.rewriteImage_que ..)) q
  have hmoved (w : State) (g : Queue → Queue) (a b c : Nat) :
      ((((w.onQueue q g).setFld Fld.QUE_Qq_ACC_SEQ_SEQ q a).setFld Fld.QUE_Qq_TAIL_TAIL q b).setFld Fld.QUE_Qq_STAT_OCC q c).queue q = g (w.queue q) := by
    rw [State.queue_congr (State.setFld_que ..), State.queue_congr (State.setFld_que ..), State.queue_congr (State.setFld_que ..), State.queue_onQueue _ _ _ _ hq,
      if_pos rfl]
  intro u
  have hu : u.queue q = _ := hmoved _ _ _ _ _
  obtain ⟨hseq, htail, hocc, -⟩ := State.moveRing_fields _ q Fld.QUE_Qq_ACC_SEQ_SEQ Fld.QUE_Qq_TAIL_TAIL _ _ _ (.inl rfl) (.inl rfl)
  refine ⟨by rw [hu], ?_, hseq, htail, hocc⟩
  rw [hu, hqueue, List.length_append, List.length_singleton]

/-! ### Completion (R341, R349) -/

/-- Queue `q` has in `u` the ring and the descriptors that it has in `s`. -/
structure SameEntries (q : Nat) (s u : State) : Prop where
  ring : KeepsRing q s u
  entries : (u.queue q).entries = (s.queue q).entries

theorem SameEntries.trans {q : Nat} {s u v : State} (h : SameEntries q s u) (h' : SameEntries q u v) : SameEntries q s v :=
  ⟨h.ring.trans h'.ring, h'.entries.trans h.entries⟩

theorem sameEntries_of_que {q : Nat} {s u : State} (hk : KeepsRing q s u) (hq : u.que = s.que) : SameEntries q s u := ⟨hk, by rw [State.queue_congr hq]⟩

/-- A submission on its way stands in no ring yet. -/
theorem sameEntries_ringIn (q k : Nat) (s : State) (p : Producer) (img : List Byte) (hq : q < 64) : SameEntries q s (s.ringIn k p img) := by
  have hin (x : Inflight) : SameEntries q s (s.onQueue k (fun y => { y with inflight := y.inflight ++ [x] })) := by
    refine ⟨keepsRing_of_regs rfl rfl, ?_⟩
    rw [State.queue_onQueue _ _ _ _ hq]
    split <;> rfl
  unfold State.ringIn State.handIn
  exact (((hin _).trans (sameEntries_of_que (keepsRing_portWrite q _ _ _ _) (by simp))).trans (sameEntries_of_que (keepsRing_mirror q _ _ _) (by simp))).trans
    (sameEntries_of_que (keepsRing_writeRecord q k _) (by simp))

/-- Held reports that go stand in no ring yet. -/
theorem sameEntries_retryReports (q : Nat) (s : State) (hq : q < 64) : SameEntries q s s.retryReports := by
  have hfold (hs kept : List (Nat × List Byte)) (u : State) : SameEntries q u (hs.foldl
      (fun (acc : State × List (Nat × List Byte)) h =>
        if acc.2.any (fun k => k.1 = h.1) then (acc.1, acc.2 ++ [h])
        else if (acc.1.checkSubmit h.1 .device h.2).isNone then (acc.1.ringIn h.1 .device h.2, acc.2)
        else (acc.1, acc.2 ++ [h])) (u, kept)).1 := by
    induction hs generalizing u kept with
    | nil => exact ⟨.refl q u, rfl⟩
    | cons h hs ih =>
      rw [List.foldl_cons]
      split
      · exact ih _ _
      · split
        · exact (sameEntries_ringIn q h.1 u .device h.2 hq).trans (ih _ _)
        · exact ih _ _
  simp only [State.retryReports]
  split
  · exact ⟨.refl q s, rfl⟩
  · exact (hfold s.que.reports [] s).trans ⟨keepsRing_of_regs rfl rfl, rfl⟩

theorem sameEntries_setOverQuota (q : Nat) (s : State) : SameEntries q s (s.setOverQuota q) := by
  unfold State.setOverQuota
  split
  · exact sameEntries_of_que (keepsRing_stat q q s Fld.QUE_Qq_STAT_OVERQUOTA _ rfl rfl (by decide) ⟨by decide, by decide⟩) (State.setFlag_que ..)
  · exact ⟨.refl q s, rfl⟩

/-- The ring as a run of completions at its head moves it: the descriptors leave, and CMP_SEQ, HEAD and the occupancy move over them. -/
def State.droppedRun (s : State) (q : Nat) (run : List Entry) (e : Entry) : State :=
  (((s.onQueue q (fun x => { x with entries := x.entries.drop run.length })).setFld Fld.QUE_Qq_CMP_SEQ_SEQ q e.seq).setFld Fld.QUE_Qq_HEAD_HEAD q
    ((s.fld Fld.QUE_Qq_HEAD_HEAD q + run.length) % s.fld Fld.QUE_Qq_SIZE_SIZE q)).setFld Fld.QUE_Qq_STAT_OCC q (s.fld Fld.QUE_Qq_STAT_OCC q - run.length)

/-- The done descriptors before the first that is not done. -/
theorem takeWhile_done (run rest : List Entry) (hrun : ∀ x, x ∈ run → x.done = true) (hrest : ∀ x, rest.head? = some x → x.done = false) :
    (run ++ rest).takeWhile (fun e => e.done) = run := by
  rw [List.takeWhile_append_of_pos hrun]
  cases rest with
  | nil => simp
  | cons x xs => simp [hrest x rfl]

/-- What follows the run's end leaves the ring as the completion moved it. -/
theorem sameEntries_finishRun (s : State) (q : Nat) (run : List Entry) (e : Entry) (hq : q < 64)
    (hrun : (s.queue q).entries.takeWhile (fun e => e.done) = run) (he : run.getLast? = some e) : SameEntries q (s.droppedRun q run e) (s.finishRun q) := by
  simp only [State.finishRun, hrun, he]
  refine SameEntries.trans ?_ (sameEntries_retryReports q _ hq)
  split
  · exact (sameEntries_setOverQuota q (s.droppedRun q run e)).trans
      (sameEntries_of_que (keepsRing_stat q q _ Fld.QUE_Qq_STAT_UNMIRRORED _ rfl rfl (by decide) ⟨by decide, by decide⟩) (State.setFlag_que ..))
  · exact sameEntries_setOverQuota q (s.droppedRun q run e)

theorem State.droppedRun_moves (s : State) (q : Nat) (run rest : List Entry) (e : Entry) (hq : q < 64) (hs : (s.queue q).entries = run ++ rest) :
    let u := s.droppedRun q run e
    (u.queue q).entries = rest ∧ u.fld Fld.QUE_Qq_CMP_SEQ_SEQ q = e.seq % 2 ^ 31
      ∧ u.fld Fld.QUE_Qq_HEAD_HEAD q = (s.fld Fld.QUE_Qq_HEAD_HEAD q + run.length) % s.fld Fld.QUE_Qq_SIZE_SIZE q % 2 ^ 10
      ∧ u.fld Fld.QUE_Qq_STAT_OCC q = s.fld Fld.QUE_Qq_STAT_OCC q - run.length ∧ u.fld Fld.QUE_Qq_TAIL_TAIL q = s.fld Fld.QUE_Qq_TAIL_TAIL q := by
  obtain ⟨hseq, hhead, hocc, htail⟩ := State.moveRing_fields (s.onQueue q (fun x => { x with entries := x.entries.drop run.length })) q Fld.QUE_Qq_CMP_SEQ_SEQ
    Fld.QUE_Qq_HEAD_HEAD e.seq ((s.fld Fld.QUE_Qq_HEAD_HEAD q + run.length) % s.fld Fld.QUE_Qq_SIZE_SIZE q) (s.fld Fld.QUE_Qq_STAT_OCC q - run.length)
    (.inr rfl) (.inr rfl)
  refine ⟨?_, hseq, hhead, hocc.trans (Nat.mod_eq_of_lt ?_), htail rfl⟩
  · rw [State.droppedRun, State.queue_congr (State.setFld_que ..), State.queue_congr (State.setFld_que ..), State.queue_congr (State.setFld_que ..),
      State.queue_onQueue _ _ _ _ hq, if_pos rfl, hs]
    exact List.drop_left
  · have hlt : s.fld Fld.QUE_Qq_STAT_OCC q < 2 ^ 11 := State.fld_lt s Fld.QUE_Qq_STAT_OCC q
    omega

/-- Before the first descriptor is done nothing is final. -/
theorem State.finishRun_notDone (s : State) (q : Nat) (e : Entry) (rest : List Entry) (hs : (s.queue q).entries = e :: rest) (he : e.done = false) :
    s.finishRun q = s := by
  simp [State.finishRun, hs, he]

/-- Settles O46: an acceptance and a completion move the ring, and what they count and tell beside it leaves it. -/
theorem queueProgress : Obligations.QueueProgress := by
  unfold Obligations.QueueProgress
  refine ⟨fun s q f rest hq h => ?_, fun s t q hr hq hm => ?_, fun s q run rest e hq hs hrun he hrest => ?_, State.finishRun_notDone,
    fun s t e hr hh he => ?_⟩
  · obtain ⟨hin, hlen, hseq, htail, hocc⟩ := s.movedRing_moves q f rest hq
    obtain ⟨hring, hinflight, hlength⟩ := sameRing_accept s q f rest hq h
    exact ⟨hinflight.trans hin, hlength.trans hlen, (hring _ (by simp [ringFields])).trans hseq, (hring _ (by simp [ringFields])).trans htail,
      (hring _ (by simp [ringFields])).trans hocc⟩
  · exact clocked_only t s (fun r => q < 64 && r.mirrorReady) (fun r => r.finishRun q) hr (Bool.and_eq_true_iff.mpr ⟨decide_eq_true hq, hm⟩)
  · have htake : (s.queue q).entries.takeWhile (fun e => e.done) = run := by rw [hs, takeWhile_done run rest hrun hrest]
    obtain ⟨hent, hseq, hhead, hocc, htail⟩ := s.droppedRun_moves q run rest e hq hs
    obtain ⟨hring, hentries⟩ := sameEntries_finishRun s q run e hq htake he
    exact ⟨hentries.trans hent, (hring _ (by simp [ringFields])).trans hseq, (hring _ (by simp [ringFields])).trans hhead,
      (hring _ (by simp [ringFields])).trans hocc, (hring _ (by simp [ringFields])).trans htail⟩
  · refine clocked_after t s State.mailboxEnd _ hr ?_
    have he' : ((s.begin t).queue 63).entries.find? (fun e => e.taken && !e.done) = some e := he
    simp only [State.mailboxEnd, he']
    exact State.only_pos _ _ _ hh

end Sys2Proof.Machine

/-! PROOFS. The link between the twins and the standby's copies (O54). -/

namespace Sys2Proof.Machine

/-! ### Lanes, frames and paths (R34, R346, R418, R419) -/

theorem bellowsLaneLoss_after (s : State) (t k : Nat) (hr : s.Runs) (hk : k < 2) (hl : s.belLane k = true) :
    exec (.bellowsLaneLoss t k) s = .next (s.after t (fun r => r.belLoss k)) :=
  ticking_only t s (fun r => k < 2 && r.belLane k) (fun r => r.belLoss k) hr (Bool.and_eq_true_iff.mpr ⟨decide_eq_true hk, hl⟩)

theorem bellowsLaneLock_after (s : State) (t k : Nat) (hr : s.Runs) (hk : k < 2) (hl : s.belLane k = false)
    (hd : bit (s.fld Fld.TST_BLDROP_LANES 0) k = false) : exec (.bellowsLaneLock t k) s = .next (s.after t (fun r => (r.setBelLane k true).linkBack)) := by
  refine ticking_only t s (fun r => k < 2 && !r.belLane k && !bit (r.fld Fld.TST_BLDROP_LANES 0) k) (fun r => (r.setBelLane k true).linkBack) hr ?_
  have hl' : (s.begin t).belLane k = false := hl
  simp only [hl', State.fld_begin, hd, hk, decide_true, Bool.not_false, Bool.and_self]

/-- A frame whose acknowledgement is overdue: after eight attempts the link is down, and before that the frame is sent again over a lane that is locked. -/
theorem bellowsResend_after (s : State) (t seq : Nat) (f : BelFrame) (hr : s.Runs) (hf : s.twn.sent.find? (fun f => f.seq = seq) = some f)
    (hdue : 2 * f.at_ + 31250 ≤ 2 * (s.begin t).now) :
    let n := ((s.twn.tries.find? (fun e => e.1 = seq)).map (·.2)).getD 1
    (8 ≤ n → exec (.bellowsResend t seq) s = .next (s.after t State.linkDown))
    ∧ (n < 8 → (s.twn.lane0 = true ∨ s.twn.lane1 = true) → exec (.bellowsResend t seq) s = .next (s.after t (fun r =>
        r.onTwn (fun x => { x with sent := belQueue { f with at_ := r.now } x.sent, tries := (seq, n + 1) :: x.tries.filter (fun e => e.1 ≠ seq) })))) := by
  intro n
  have hfind : (s.begin t).twn.sent.find? (fun f => f.seq = seq) = some f := hf
  have htries : (((s.begin t).twn.tries.find? (fun e => e.1 = seq)).map (·.2)).getD 1 = n := rfl
  dsimp only [exec]
  unfold execBellowsResend
  refine ⟨fun hn => clocked_after t s _ _ hr ?_, fun hn hlane => clocked_after t s _ _ hr ?_⟩
  · simp only [hfind, htries, if_pos hn]
    exact State.only_pos _ _ _ (decide_eq_true hdue)
  · have hlanes : ((s.begin t).twn.lane0 || (s.begin t).twn.lane1) = true := Bool.or_eq_true_iff.mpr hlane
    simp only [hfind, htries, if_neg (Nat.not_le.mpr hn)]
    exact (State.only_pos _ _ _ (decide_eq_true hdue)).trans (State.only_pos _ _ _ hlanes)

theorem mirrorWaitTimeout_after (s : State) (t t0 : Nat) (hr : s.Runs) (hlost : s.que.linkLostAt = some t0) (hrole : s.fld Fld.TWN_STAT_ROLE 0 = 1)
    (hun : s.que.unmirrored = false) (hdue : t0 + 8 * s.fld Fld.TWN_LEASE_LEASE 0 ≤ (s.begin t).now) :
    exec (.mirrorWaitTimeout t) s = .next (s.after t (fun r =>
      (({ r with que := { r.que with unmirrored := true } }.setUnmirrored true).faultAt 14 0xFF 0x200 0 1).retryReports)) := by
  dsimp only [exec]
  unfold execMirrorWaitTimeout
  refine clocked_after t s _ _ hr ?_
  have hlost' : (s.begin t).que.linkLostAt = some t0 := hlost
  have hcond : ((s.begin t).role = 1 && !(s.begin t).que.unmirrored && decide (t0 + pclk * (s.begin t).fld Fld.TWN_LEASE_LEASE 0 ≤ (s.begin t).now)) = true := by
    have hrole' : (s.begin t).role = 1 := hrole
    have hdue' : t0 + pclk * (s.begin t).fld Fld.TWN_LEASE_LEASE 0 ≤ (s.begin t).now := hdue
    rw [decide_eq_true hrole', decide_eq_true hdue', State.begin_que, hun]
    rfl
  simp only [hlost', hcond, State.only_true]

theorem pathSilence_line (s : State) (t : Nat) (hr : s.Runs) (hok : s.flag Fld.TWN_STAT_LINE_OK 0 = true)
    (hdue : (s.begin t).leaseDue true s.twn.lineAt (leaseAcquire s.twn.lease) = true) :
    exec (.pathSilence t true) s = .next (s.after t (fun r =>
      ((r.setFlag Fld.TWN_STAT_LINE_OK 0 false).count Fld.TWN_LINELOSS_CNT 0 1).faultAt 14 0xFF 0x200 0 1)) :=
  ticking_only t s (fun r => r.flag Fld.TWN_STAT_LINE_OK 0 && r.leaseDue true r.twn.lineAt (leaseAcquire r.twn.lease))
    (fun r => ((r.setFlag Fld.TWN_STAT_LINE_OK 0 false).count Fld.TWN_LINELOSS_CNT 0 1).faultAt 14 0xFF 0x200 0 1) hr (Bool.and_eq_true_iff.mpr ⟨hok, hdue⟩)

theorem pathSilence_link (s : State) (t : Nat) (hr : s.Runs) (hok : s.flag Fld.TWN_STAT_LINK_OK 0 = true)
    (hdue : (s.begin t).leaseDue true s.twn.linkAt (leaseAcquire s.twn.lease) = true) :
    exec (.pathSilence t false) s = .next (s.after t State.linkDown) :=
  ticking_only t s (fun r => r.flag Fld.TWN_STAT_LINK_OK 0 && r.leaseDue true r.twn.linkAt (leaseAcquire r.twn.lease)) State.linkDown hr
    (Bool.and_eq_true_iff.mpr ⟨hok, hdue⟩)

/-! ### The standby's copies (R346, R420, R421) -/

theorem config_after (s : State) (t : Nat) (pairs : List (Word × Word)) (last : Bool) (hr : s.Runs) (hrole : s.fld Fld.TWN_STAT_ROLE 0 = 2) :
    exec (.config t pairs last) s = .next (s.after t (fun r => r.config pairs last)) :=
  clocked_only t s (fun r => r.role = 2) (fun r => r.config pairs last) hr (decide_eq_true hrole)

theorem checkpoint_after (s : State) (t n blk off : Nat) (eng : Bool) (bytes : List Byte) (hr : s.Runs) (hrole : s.fld Fld.TWN_STAT_ROLE 0 = 2) (hn : n < s.lanes) :
    exec (.checkpoint t n blk off eng bytes) s = .next (s.after t (fun r => r.linkHeard.checkpoint n blk off eng bytes)) :=
  clocked_only t s (fun r => r.role = 2 && decide (n < r.lanes)) (fun r => r.linkHeard.checkpoint n blk off eng bytes) hr
    (Bool.and_eq_true_iff.mpr ⟨decide_eq_true hrole, decide_eq_true hn⟩)

/-- A block in the buffer of the newest complete one is not taken. -/
theorem State.checkpoint_keeps (s : State) (n blk off : Nat) (eng : Bool) (bytes : List Byte) (hj : s.fld Fld.TWN_Ln_CKBLK_BLK n ≠ 0xFFFFFFFF)
    (hb : s.fld Fld.TWN_Ln_CKBLK_BLK n ≠ blk) (hp : s.fld Fld.TWN_Ln_CKBLK_BLK n % 2 = blk % 2) : s.checkpoint n blk off eng bytes = s := by
  simp only [State.checkpoint]
  rw [if_pos]
  simp [hj, hb, hp]

/-- A frame heard on a link that stands changes only the twin's own record and TWN_STAT. -/
theorem State.linkHeard_linked (s : State) (h : s.que.linkLostAt = none) :
    s.linkHeard = (s.onTwn (fun x => { x with linkAt := s.now, acks := x.acks + 1 })).setFlag Fld.TWN_STAT_LINK_OK 0 true := by
  have hback (u : State) (hu : u.que.linkLostAt = none) : u.linkBack = u := by simp [State.linkBack, hu]
  simp only [State.linkHeard]
  split
  · exact hback _ h
  · rfl

/-- SYNCED and ELIGIBLE show in TWN_STAT alone. -/
theorem State.live_syncCheck (s : State) (k : Nat) (h : k ≠ Fld.TWN_STAT_SYNCED.at 0) : s.syncCheck.live k = s.live k := by
  have hshow (u : State) : u.showEligible.live k = u.live k := by
    unfold State.showEligible
    split
    · exact State.live_setFlag_other _ _ _ _ _ h
    · rfl
  simp only [State.syncCheck]
  split
  · exact (hshow _).trans (State.live_setFlag_other _ _ _ _ _ h)
  · rfl

theorem State.syncCheck_rest (s : State) : s.syncCheck.eng = s.eng ∧ s.syncCheck.que = s.que ∧ s.syncCheck.mem = s.mem ∧ s.syncCheck.fixed = s.fixed := by
  simp only [State.syncCheck, State.showEligible]
  split
  · split <;> simp
  · simp

/-- A write of DRAM that meets no error and waits for nothing is in memory at once. -/
theorem State.dramWrite_ready (s : State) (port : Nat) (ap : Bool) (a : Nat) (bs : List Byte) (hecc : s.sys.eccBad = []) (hready : s.flag Fld.MEM_STAT_READY 0 = true)
    (hwait : s.memc.waiting = []) : s.dramWrite port ap a bs = ((s.traffic port ap true a bs.length).backOff a bs.length).writeBytes a bs := by
  have hmerge : s.mergeRead port a bs.length = s := by simp [State.mergeRead, hecc]
  have hfree : s.behindWaiting a bs.length = false := by simp [State.behindWaiting, hwait]
  simp only [State.dramWrite, hmerge, State.portWrite, hready, hfree, Bool.not_false, Bool.and_self, if_true]

/-- The bytes of such a write are read back at their addresses, and every other byte as before. -/
theorem State.readByte_dramWrite (s : State) (ap : Bool) (addr : Nat) (bs : List Byte) (hecc : s.sys.eccBad = []) (hready : s.flag Fld.MEM_STAT_READY 0 = true)
    (hwait : s.memc.waiting = []) (hend : addr + bs.length ≤ s.dramEnd) (a : Nat) :
    (s.dramWrite 6 ap addr bs).readByte a = if addr ≤ a ∧ a < addr + bs.length then bs.getD (a - addr) 0 else s.readByte a := by
  rw [State.dramWrite_ready s 6 ap addr bs hecc hready hwait]
  generalize hw : (s.traffic 6 ap true addr bs.length).backOff addr bs.length = w
  have hmem : w.mem = s.mem := by rw [← hw]; simp
  have hdram : w.dramEnd = s.dramEnd := by
    rw [← hw]
    exact State.dramEnd_congr (by simp) (State.live_traffic s 6 _ (by decide) ap true addr _)
  by_cases h : addr ≤ a ∧ a < addr + bs.length
  · obtain ⟨i, rfl⟩ := Nat.exists_eq_add_of_le h.1
    have hi : i < bs.length := by omega
    rw [if_pos h, State.readByte_writeBytes_inside w addr i bs hi (by rw [hdram]; exact hend), Nat.add_sub_cancel_left, List.getD_eq_getElem _ _ hi]
  · rw [if_neg h, State.readByte_writeBytes_outside w addr a bs (by omega)]
    exact State.readByte_congr hmem hdram a

theorem State.dramWrite_dramEnd (s : State) (ap : Bool) (addr : Nat) (bs : List Byte) (hecc : s.sys.eccBad = []) (hready : s.flag Fld.MEM_STAT_READY 0 = true)
    (hwait : s.memc.waiting = []) : (s.dramWrite 6 ap addr bs).dramEnd = s.dramEnd := by
  rw [State.dramWrite_ready s 6 ap addr bs hecc hready hwait, State.writeBytes_dramEnd]
  exact State.dramEnd_congr (by simp) (State.live_traffic s 6 _ (by decide) ap true addr _)

/-- What a frame heard on a standing link leaves: memory and what decides a write of it. -/
theorem State.linkHeard_rest (s : State) (h : s.que.linkLostAt = none) :
    s.linkHeard.eng = s.eng ∧ s.linkHeard.que = s.que ∧ s.linkHeard.mem = s.mem ∧ s.linkHeard.fixed = s.fixed ∧ s.linkHeard.sys = s.sys ∧ s.linkHeard.memc = s.memc
      ∧ ∀ k, k ≠ Fld.TWN_STAT_LINK_OK.at 0 → s.linkHeard.live k = s.live k := by
  rw [State.linkHeard_linked s h]
  exact ⟨by simp, by simp, by simp, by simp, by simp, by simp, fun k hk => State.live_setFlag_other _ _ _ _ _ hk⟩

/-- The rest of the machine meets such a write as it stands. -/
theorem State.dramWrite_rest (s : State) (ap : Bool) (addr : Nat) (bs : List Byte) (hecc : s.sys.eccBad = []) (hready : s.flag Fld.MEM_STAT_READY 0 = true)
    (hwait : s.memc.waiting = []) :
    (s.dramWrite 6 ap addr bs).eng = s.eng ∧ (s.dramWrite 6 ap addr bs).que = s.que ∧ (s.dramWrite 6 ap addr bs).fixed = s.fixed := by
  rw [State.dramWrite_ready s 6 ap addr bs hecc hready hwait]
  exact ⟨by simp, by simp, by simp⟩

/-- What a journal frame does at the standby, its length checked (R346). -/
def State.journalTaken (addr : Nat) (bytes : List Byte) (payload : Option (Nat × Nat)) (last : Bool) (s : State) : State :=
  ((s.linkHeard.dramWrite 6 true addr bytes).onTwn (fun x =>
    { x with gotJournal := x.gotJournal || last, payloads := (match payload with
      | some p => [p]
      | none => []) ++ x.payloads })).syncCheck

theorem journal_after (s : State) (t addr : Nat) (bytes : List Byte) (payload : Option (Nat × Nat)) (last : Bool) (hr : s.Runs)
    (hrole : s.fld Fld.TWN_STAT_ROLE 0 = 2) (hlen : bytes.length ≤ 4096) :
    exec (.journal t addr bytes payload last) s = .next (s.after t (State.journalTaken addr bytes payload last)) :=
  clocked_only t s (fun r => r.role = 2 && decide (bytes.length ≤ 4096)) (State.journalTaken addr bytes payload last) hr
    (Bool.and_eq_true_iff.mpr ⟨decide_eq_true hrole, decide_eq_true hlen⟩)

/-- What a journal frame leaves once the link has heard it: the bytes in memory, and nothing else of memory, engines or queues. -/
theorem State.syncCheck_written (s : State) (g : Twin → Twin) (addr : Nat) (bytes : List Byte) (hecc : s.sys.eccBad = []) (hready : s.flag Fld.MEM_STAT_READY 0 = true)
    (hwait : s.memc.waiting = []) (hend : addr + bytes.length ≤ s.dramEnd) (u : State) (hu : ((s.dramWrite 6 true addr bytes).onTwn g).syncCheck = u) :
    u.eng = s.eng ∧ u.que = s.que ∧ u.fixed = s.fixed
      ∧ ∀ a, u.readByte a = if addr ≤ a ∧ a < addr + bytes.length then bytes.getD (a - addr) 0 else s.readByte a := by
  obtain ⟨heng, hque, hfix⟩ := State.dramWrite_rest s true addr bytes hecc hready hwait
  obtain ⟨hceng, hcque, hcmem, hcfix⟩ := State.syncCheck_rest ((s.dramWrite 6 true addr bytes).onTwn g)
  have hend' : ((s.dramWrite 6 true addr bytes).onTwn g).syncCheck.dramEnd = ((s.dramWrite 6 true addr bytes).onTwn g).dramEnd :=
    State.dramEnd_congr hcfix (State.live_syncCheck _ _ (by decide))
  subst hu
  refine ⟨hceng.trans heng, hcque.trans hque, hcfix.trans hfix, fun a => ?_⟩
  rw [State.readByte_congr hcmem hend' a]
  exact State.readByte_dramWrite s true addr bytes hecc hready hwait hend a

theorem State.journalTaken_copies (s : State) (addr : Nat) (bytes : List Byte) (payload : Option (Nat × Nat)) (last : Bool)
    (hend : addr + bytes.length ≤ s.dramEnd) (hlink : s.que.linkLostAt = none) (hready : s.flag Fld.MEM_STAT_READY 0 = true) (hwait : s.memc.waiting = [])
    (hecc : s.sys.eccBad = []) (u : State) (hu : s.journalTaken addr bytes payload last = u) : u.eng = s.eng ∧ u.que = s.que ∧ u.fixed = s.fixed
      ∧ ∀ a, u.readByte a = if addr ≤ a ∧ a < addr + bytes.length then bytes.getD (a - addr) 0 else s.readByte a := by
  obtain ⟨heng, hque, hmem, hfix, hsys, hmemc, hlive⟩ := State.linkHeard_rest s hlink
  have hdram : s.linkHeard.dramEnd = s.dramEnd := State.dramEnd_congr hfix (hlive _ (by decide))
  have hready' : s.linkHeard.flag Fld.MEM_STAT_READY 0 = true := (State.flag_of_live (hlive (Fld.MEM_STAT_READY.at 0) (by decide))).trans hready
  obtain ⟨hweng, hwque, hwfix, hread⟩ := State.syncCheck_written s.linkHeard _ addr bytes (hsys ▸ hecc) hready' (hmemc ▸ hwait) (hdram ▸ hend) u hu
  exact ⟨hweng.trans heng, hwque.trans hque, hwfix.trans hfix, fun a => by rw [hread a, State.readByte_congr hmem hdram a]⟩

/-- What a command leaves reads as its effect does, where that keeps the fuses. -/
theorem State.readByte_after (s : State) (t a : Nat) (f : State → State) (h : (f (s.begin t)).fixed = s.fixed) :
    (s.after t f).readByte a = (f (s.begin t)).readByte a :=
  State.readByte_congr (s := f (s.begin t)) (u := s.after t f) rfl (State.dramEnd_congr h.symm (State.live_after s t _ f h)) a

/-- A journal frame's bytes stand in the standby's memory at the addresses that the holder gives them. -/
theorem journal_copies (s : State) (t addr : Nat) (bytes : List Byte) (payload : Option (Nat × Nat)) (last : Bool) (hr : s.Runs)
    (hrole : s.fld Fld.TWN_STAT_ROLE 0 = 2) (hlen : bytes.length ≤ 4096) (hend : addr + bytes.length ≤ s.dramEnd) (hlink : s.que.linkLostAt = none)
    (hready : s.flag Fld.MEM_STAT_READY 0 = true) (hwait : s.memc.waiting = []) (hecc : s.sys.eccBad = []) :
    ∃ u, exec (.journal t addr bytes payload last) s = .next u ∧ u.eng = s.eng ∧ u.que = s.que
      ∧ ∀ a, u.readByte a = if addr ≤ a ∧ a < addr + bytes.length then bytes.getD (a - addr) 0 else s.readByte a := by
  obtain ⟨heng, hque, hfix, hread⟩ := State.journalTaken_copies (s.begin t) addr bytes payload last hend hlink hready hwait hecc _ rfl
  exact ⟨_, journal_after s t addr bytes payload last hr hrole hlen, heng, hque, fun a => (State.readByte_after s t a _ hfix).trans (hread a)⟩

/-- Settles O54: each effect of the link at its moment, the journal's bytes read back through the write of DRAM, and the checkpoint's refusal. -/
theorem twinLink : Obligations.TwinLink :=
  ⟨fun s t k hr hk => ⟨bellowsLaneLoss_after s t k hr hk, bellowsLaneLock_after s t k hr hk⟩, bellowsResend_after, mirrorWaitTimeout_after,
    fun s t hr => ⟨pathSilence_line s t hr, pathSilence_link s t hr⟩, config_after, journal_copies,
    fun s t n blk off eng bytes hr hrole hn => ⟨checkpoint_after s t n blk off eng bytes hr hrole hn, State.checkpoint_keeps s n blk off eng bytes⟩⟩

end Sys2Proof.Machine

/-! PROOFS. Power and cold reset (O6). -/

namespace Sys2Proof.Machine

/-! ### Effects made for each unit -/

theorem State.each_rel (R : State → State → Prop) (hrefl : ∀ s, R s s) (htrans : ∀ s u w, R s u → R u w → R s w) (f : Nat → State → State) (h : ∀ n s, R s (f n s))
    (us : List Nat) (s : State) : R s (s.each us f) := by
  induction us generalizing s with
  | nil => exact hrefl s
  | cons n us ih => exact htrans _ _ _ (h n s) (ih (f n s))

/-- Effects that each leave this state as it is. -/
theorem State.each_fixed (s : State) (us : List Nat) (f : Nat → State → State) (h : ∀ n ∈ us, f n s = s) : s.each us f = s := by
  induction us with
  | nil => rfl
  | cons n us ih => exact (congrArg (fun r => State.each r us f) (h n List.mem_cons_self)).trans (ih (fun m hm => h m (List.mem_cons_of_mem n hm)))

/-! ### Effects on registers alone -/

/-- Nothing but the register store differs. -/
def State.RegsOnly (s u : State) : Prop := ∃ r, u = { s with regs := r }

theorem State.RegsOnly.refl (s : State) : s.RegsOnly s := ⟨s.regs, rfl⟩

theorem State.RegsOnly.trans {s u w : State} (h : s.RegsOnly u) (h' : u.RegsOnly w) : s.RegsOnly w := by
  obtain ⟨r, rfl⟩ := h
  obtain ⟨r', rfl⟩ := h'
  exact ⟨r', rfl⟩

theorem State.RegsOnly.rest {s u : State} (h : s.RegsOnly u) : u.sys = s.sys ∧ u.eng = s.eng ∧ u.mem = s.mem ∧ u.pwr = s.pwr ∧ u.lan = s.lan ∧ u.fixed = s.fixed := by
  obtain ⟨r, rfl⟩ := h
  exact ⟨rfl, rfl, rfl, rfl, rfl, rfl⟩

theorem State.RegsOnly.setLive (s : State) (k : Nat) (w : Word) : s.RegsOnly (s.setLive k w) := ⟨_, rfl⟩
theorem State.RegsOnly.setFld (s : State) (f : Fld) (n v : Nat) : s.RegsOnly (s.setFld f n v) := ⟨_, rfl⟩
theorem State.RegsOnly.setFlag (s : State) (f : Fld) (n : Nat) (b : Bool) : s.RegsOnly (s.setFlag f n b) := ⟨_, rfl⟩

theorem State.RegsOnly.each (f : Nat → State → State) (h : ∀ n s, State.RegsOnly s (f n s)) (us : List Nat) (s : State) : s.RegsOnly (s.each us f) :=
  State.each_rel State.RegsOnly State.RegsOnly.refl (fun _ _ _ => State.RegsOnly.trans) f h us s

theorem State.RegsOnly.forceAll (s : State) (f : Fld) (n v : Nat) : s.RegsOnly (s.forceAll f n v) := by
  have hput (r : State) (a b c : Word) : r.RegsOnly (((r.setStaged (f.at n) a).setPend (f.at n) b).setLive (f.at n) c) := ⟨_, rfl⟩
  unfold State.forceAll
  simp only
  split
  · refine (hput _ _ _ _).trans (State.RegsOnly.each _ (fun m r => ?_) _ _)
    exact State.RegsOnly.setLive _ _ _
  · exact hput _ _ _ _

/-- Such a write reaches the register and the lanes' copies of it. -/
theorem State.live_forceAll (s : State) (f : Fld) (n v k : Nat) (hk : k ≠ f.at n) (hwin : k < 0x100000) : (s.forceAll f n v).live k = s.live k := by
  have hput (r : State) (w : Word) : (((r.setStaged (f.at n) w).setPend (f.at n) w).setLive (f.at n) w).live k = r.live k := State.live_setLive_other _ _ _ _ hk
  unfold State.forceAll
  simp only
  split
  · refine (State.each_rel (fun s u => u.live k = s.live k) (fun _ => rfl) (fun _ _ _ h h' => h'.trans h) _ (fun m r => ?_) _ _).trans
      (State.live_setLive_other _ _ _ _ hk)
    exact State.live_setLive_other _ _ _ _ (by simp only [laneKey]; omega)
  · exact State.live_setLive_other _ _ _ _ hk

/-! ### Legacy mode at the straps (R40, R41, R452) -/

theorem State.wickOn_of_live {s u : State} {n : Nat} (h : u.live (Fld.WCK_Ln_STAT_STATE.at n) = s.live (Fld.WCK_Ln_STAT_STATE.at n)) : u.wickOn n = s.wickOn n := by
  simp only [State.wickOn, State.fld_of_live h]

/-- With the lanes that it takes away off and their sequencers stopped, legacy mode has nothing to stop. -/
theorem State.legacyLanesOnly_off (s : State) (h : ∀ n, n < s.lanes → (s.laneOf n).st = .off ∧ s.wickOn n = false) : s.legacyLanesOnly = s := by
  refine State.each_fixed s _ _ (fun n hn => ?_)
  obtain ⟨hoff, hstop⟩ := h n (List.mem_range.mp (List.mem_filter.mp hn).1)
  simp [hoff, hstop]

/-- The sequencers' states lie apart from such a register. -/
theorem State.wickOn_forceAll (s : State) (f : Fld) (n v m : Nat) (hm : m < 8) (h : Fld.WCK_Ln_STAT_STATE.at m ≠ f.at n) :
    (s.forceAll f n v).wickOn m = s.wickOn m :=
  State.wickOn_of_live (State.live_forceAll s f n v _ h (by simp only [Fld.at, Fld.WCK_Ln_STAT_STATE]; omega))

/-- The values that legacy mode fixes are all in registers, and the sequencers' states are not among them. -/
theorem State.legacyFix_rest (s : State) (h : ∀ n, n < s.lanes → (s.laneOf n).st = .off ∧ s.wickOn n = false) :
    s.RegsOnly (s.legacyFix true) ∧ (s.legacyFix true).legacy = true := by
  let s1 := s.each (List.range s.lanes) (fun n s => s.forceAll Fld.WCK_Ln_PROBES_P n 1)
  let s3 := ((s1.forceAll Fld.PHX_GAUGE_G 0 2).forceAll Fld.CRU_CTRL_EN 0 0).setFlag Fld.TWN_CTRL_EN 0 false
  have hregs : s.RegsOnly s3 := ((State.RegsOnly.each _ (fun n r => State.RegsOnly.forceAll r _ n 1) _ s).trans (State.RegsOnly.forceAll s1 _ 0 2)).trans
    ((State.RegsOnly.forceAll _ _ 0 0).trans (State.RegsOnly.setFlag _ _ 0 false))
  obtain ⟨-, -, -, -, hlan, hfixed⟩ := hregs.rest
  have hwick (m : Nat) (hm : m < 8) : s3.wickOn m = s.wickOn m := by
    have hprobes : s1.wickOn m = s.wickOn m :=
      State.each_rel (fun s u => u.wickOn m = s.wickOn m) (fun _ => rfl) (fun _ _ _ h h' => h'.trans h) _
        (fun n r => State.wickOn_forceAll r _ n 1 m hm (by simp only [Fld.at, Fld.WCK_Ln_STAT_STATE, Fld.WCK_Ln_PROBES_P]; omega)) _ s
    have hgauge := State.wickOn_forceAll s1 Fld.PHX_GAUGE_G 0 2 m hm (by simp only [Fld.at, Fld.WCK_Ln_STAT_STATE, Fld.PHX_GAUGE_G]; omega)
    have hcru := State.wickOn_forceAll (s1.forceAll Fld.PHX_GAUGE_G 0 2) Fld.CRU_CTRL_EN 0 0 m hm (by simp only [Fld.at, Fld.WCK_Ln_STAT_STATE, Fld.CRU_CTRL_EN]; omega)
    have htwn : s3.wickOn m = ((s1.forceAll Fld.PHX_GAUGE_G 0 2).forceAll Fld.CRU_CTRL_EN 0 0).wickOn m :=
      State.wickOn_of_live (State.live_setFlag_other _ _ _ _ _ (by simp only [Fld.at, Fld.WCK_Ln_STAT_STATE, Fld.TWN_CTRL_EN]; omega))
    exact htwn.trans (hcru.trans (hgauge.trans hprobes))
  have hkeep : s3.legacyLanesOnly = s3 := State.legacyLanesOnly_off s3 (fun n hn => by
    have hn' : n < s.lanes := by simpa only [State.lanes, hfixed] using hn
    obtain ⟨hoff, hstop⟩ := h n hn'
    exact ⟨by simpa only [State.laneOf, hlan] using hoff, (hwick n (hn'.trans_le s.lanes_le)).trans hstop⟩)
  have hfix : s.legacyFix true = s3.setFlag Fld.SYS_CTRL_LEGACY 0 true := congrArg (fun r : State => r.setFlag Fld.SYS_CTRL_LEGACY 0 true) hkeep
  rw [hfix]
  exact ⟨hregs.trans (State.RegsOnly.setFlag _ _ 0 true), State.flag_setFlag_same _ _ 0 true ⟨by decide, by decide⟩⟩

/-! ### Cold reset, rails, straps (R460, R462, R466, R485) -/

theorem coldReset_after (s : State) (low : ResetLow) (hp : s.powered = true) :
    (1000 ≤ low.ns → exec (.coldReset low) s = .next (s.after low.t (fun r => r.coldReset 2))) ∧ (low.ns < 100 → exec (.coldReset low) s = .next (s.begin low.t)) := by
  have hp' : (s.begin low.t).powered = true := hp
  refine ⟨fun h => always_only low.t s (fun r => r.powered && decide (100 ≤ low.ns)) (fun r => r.coldReset 2) ?_,
    fun h => always_unless low.t s (fun r => r.powered && decide (100 ≤ low.ns)) (fun r => r.coldReset 2) ?_⟩
  · rw [hp', decide_eq_true (by omega : 100 ≤ low.ns)]
    rfl
  · rw [decide_eq_false (by omega : ¬ 100 ≤ low.ns), Bool.and_false]

/-- The bounds in microvolts of the rails that the detectors watch. -/
theorem railOutside_iff (r : RailLevel) : railOutside r = true ↔ (match r.rail with
    | .vcore => r.uv < 727500 ∨ 772500 < r.uv
    | .vdda09 => r.uv < 882000 ∨ 918000 < r.uv
    | .vddq => r.uv < 1164000 ∨ 1236000 < r.uv
    | .vio33 => r.uv < 3135000 ∨ 3465000 < r.uv) := by
  have h : railOutside r = true ↔ 100 * r.uv < (100 - (railNominal r.rail).2) * (railNominal r.rail).1
      ∨ (100 + (railNominal r.rail).2) * (railNominal r.rail).1 < 100 * r.uv := by
    simp only [railOutside, Bool.or_eq_true, decide_eq_true_eq]
  rw [h]
  obtain ⟨rail, uv⟩ := r
  cases rail <;> dsimp only [railNominal] <;> omega

theorem railOutOfTolerance_after (s : State) (t ns : Nat) (r : RailLevel) (hp : s.powered = true) :
    (railOutside r = true → 10000 < ns → exec (.railOutOfTolerance t r ns) s
        = .next (s.after t (fun r => ({ r with sys := { r.sys with railsAt := r.now } }).coldReset 2)))
    ∧ (railOutside r = true → ns ≤ 10000 → exec (.railOutOfTolerance t r ns) s = .next { s.begin t with sys := { s.sys with railsAt := (s.begin t).now } })
    ∧ (railOutside r = false → exec (.railOutOfTolerance t r ns) s = .next (s.begin t)) := by
  have hp' : (s.begin t).powered = true := hp
  dsimp only [exec]
  unfold execRailOutOfTolerance
  refine ⟨fun h hns => always_after t s _ _ ?_, fun h hns => ?_, fun h => ?_⟩
  · rw [State.only_pos _ _ _ (Bool.and_eq_true_iff.mpr ⟨hp', h⟩)]
    exact State.only_pos _ _ _ (decide_eq_true hns)
  · refine (always_after t s _ (fun r => { r with sys := { r.sys with railsAt := r.now } }) ?_).trans rfl
    rw [State.only_pos _ _ _ (Bool.and_eq_true_iff.mpr ⟨hp', h⟩), decide_eq_false (Nat.not_lt.mpr hns)]
    rfl
  · simp only [always, h, Bool.and_false, State.only_false, State.carry_self]

theorem State.live_stage_other (s : State) (k j : Nat) (h : j ≠ Fld.SYS_BOOTSTAGE_STAGE.at 0) : (s.stage k).live j = s.live j :=
  State.live_setLive_other s _ _ _ h

theorem State.fld_stage (s : State) (k : Nat) (h : k < 16) : (s.stage k).fld Fld.SYS_BOOTSTAGE_STAGE 0 = k :=
  (State.fld_setFld_same s _ 0 k ⟨by decide, by decide⟩).trans (Nat.mod_eq_of_lt h)

/-- The straps are sampled and the PLL starts; what shows them is in registers. -/
def State.strapsTaken (s : State) (straps : Nat) : State := { s with sys := { s.sys with power := .pll, powerAt := s.now, straps := straps % 32 } }

def State.strapped (s : State) (straps : Nat) : State :=
  (((s.strapsTaken straps).setFld Fld.SYS_STRAPS_STRAPS 0 straps).setFlag Fld.LAN_STAT_SAFE_ALL 0 (bit straps 1)).setFlag Fld.SYS_STAT_STRAPWARN 0
    ((s.strapsTaken straps).bootSrc = 3)

theorem State.strapped_regsOnly (s : State) (straps : Nat) : (s.strapsTaken straps).RegsOnly (s.strapped straps) :=
  ((State.RegsOnly.setFld _ _ _ _).trans (State.RegsOnly.setFlag _ _ _ _)).trans (State.RegsOnly.setFlag _ _ _ _)

theorem State.wickOn_strapped (s : State) (straps n : Nat) : (s.strapped straps).wickOn n = s.wickOn n := by
  refine State.wickOn_of_live ?_
  rw [State.strapped, State.live_setFlag_other _ _ _ _ _ (by simp only [Fld.at, Fld.WCK_Ln_STAT_STATE, Fld.SYS_STAT_STRAPWARN]; omega),
    State.live_setFlag_other _ _ _ _ _ (by simp only [Fld.at, Fld.WCK_Ln_STAT_STATE, Fld.LAN_STAT_SAFE_ALL]; omega), State.setFld,
    State.live_setLive_other _ _ _ _ (by simp only [Fld.at, Fld.WCK_Ln_STAT_STATE, Fld.SYS_STRAPS_STRAPS]; omega)]
  rfl

/-- The release of the device: the straps, legacy mode where they ask for it, and the first boot stage. -/
def State.released (s : State) (straps : Nat) : State := (if bit straps 0 then (s.strapped straps).legacyFix true else s.strapped straps).stage 1

theorem State.released_rest (s : State) (straps : Nat) (hoff : bit straps 0 = true → ∀ n, n < s.lanes → (s.laneOf n).st = .off ∧ s.wickOn n = false) :
    let u := s.released straps
    u.sys.power = .pll ∧ u.sys.straps = straps % 32 ∧ u.fld Fld.SYS_BOOTSTAGE_STAGE 0 = 1
      ∧ (bit straps 0 = true → u.legacy = true) ∧ u.eng = s.eng ∧ u.mem = s.mem ∧ u.pwr = s.pwr ∧ u.lan = s.lan ∧ u.fixed = s.fixed := by
  intro u
  obtain ⟨hsys0, heng0, hmem0, hpwr0, hlan0, hfix0⟩ := (State.strapped_regsOnly s straps).rest
  have hlanes : (s.strapped straps).lanes = s.lanes := congrArg (fun x : Fixed => x.variant.lanes) hfix0
  have hu : (s.strapped straps).RegsOnly u ∧ (bit straps 0 = true → u.legacy = true) := by
    by_cases hb : bit straps 0 = true
    · obtain ⟨hregs, hleg⟩ := (s.strapped straps).legacyFix_rest (fun n hn => by
        obtain ⟨hn1, hn2⟩ := hoff hb n (hlanes ▸ hn)
        exact ⟨by rw [State.laneOf, hlan0]; exact hn1, (State.wickOn_strapped s straps n).trans hn2⟩)
      have hu' : u = ((s.strapped straps).legacyFix true).stage 1 := congrArg (fun r : State => r.stage 1) (if_pos hb)
      rw [hu']
      refine ⟨hregs.trans (State.RegsOnly.setFld _ _ _ _), fun _ => ?_⟩
      rw [State.legacy, State.flag_of_live (State.live_stage_other _ _ (Fld.SYS_CTRL_LEGACY.at 0) (by decide))]
      exact hleg
    · have hu' : u = (s.strapped straps).stage 1 := congrArg (fun r : State => r.stage 1) (if_neg hb)
      rw [hu']
      exact ⟨State.RegsOnly.setFld _ _ _ _, fun h => absurd h hb⟩
  obtain ⟨hsys, heng, hmem, hpwr, hlan, hfix⟩ := hu.1.rest
  exact ⟨congrArg Sys.power (hsys.trans hsys0), congrArg Sys.straps (hsys.trans hsys0), State.fld_stage _ 1 (by decide), hu.2, heng.trans heng0, hmem.trans hmem0,
    hpwr.trans hpwr0, hlan.trans hlan0, hfix.trans hfix0⟩

theorem resetRelease_after (s : State) (t straps : Nat) (hc : s.sys.power = .cold) (hgood : s.sys.railsAt + 781250 ≤ (s.begin t).now)
    (hoff : bit straps 0 = true → ∀ n, n < s.lanes → (s.laneOf n).st = .off ∧ s.wickOn n = false) :
    ∃ u, exec (.resetRelease t straps) s = .next u ∧ u.sys.power = .pll ∧ u.sys.straps = straps % 32 ∧ u.fld Fld.SYS_BOOTSTAGE_STAGE 0 = 1
      ∧ (bit straps 0 = true → u.legacy = true) ∧ u.eng = s.eng ∧ u.mem = s.mem ∧ u.pwr = s.pwr ∧ u.lan = s.lan := by
  obtain ⟨hpow, hstraps, hstage, hleg, heng, hmem, hpwr, hlan, hfix⟩ := (s.begin t).released_rest straps hoff
  have hgo : decide ((s.begin t).sys.power = .cold) && (s.begin t).railsGood := Bool.and_eq_true_iff.mpr ⟨decide_eq_true hc, decide_eq_true hgood⟩
  have he : exec (.resetRelease t straps) s = .next (s.after t (fun r => r.released straps)) :=
    always_only t s (fun r => r.sys.power = .cold && r.railsGood) (fun r => r.released straps) hgo
  refine ⟨_, he, hpow, hstraps, ?_, fun hb => ?_, heng, hmem, hpwr, hlan⟩
  · exact (State.fld_of_live (State.live_after s t _ (fun r => r.released straps) hfix)).trans hstage
  · exact (State.flag_of_live (State.live_after s t (Fld.SYS_CTRL_LEGACY.at 0) (fun r => r.released straps) hfix)).trans (hleg hb)

/-! ### PLL lock (R24, R26, R92) -/

/-- The image is read from the start: the flash port's list of reads and registers, with the stage shown. -/
theorem State.verifyStart_rest (s : State) : s.verifyStart.sys = s.sys ∧ s.verifyStart.eng = s.eng ∧ s.verifyStart.mem = s.mem ∧ s.verifyStart.pwr = s.pwr
    ∧ s.verifyStart.lan = s.lan ∧ s.verifyStart.fixed = s.fixed ∧ s.verifyStart.fld Fld.SYS_BOOTSTAGE_STAGE 0 = 2 := by
  have hstage (u : State) : ((u.setFlag Fld.SYS_BOOTSTAGE_SECONDARY 0 false).stage 2).fld Fld.SYS_BOOTSTAGE_STAGE 0 = 2 := State.fld_stage _ 2 (by decide)
  have hregs (u : State) : u.RegsOnly ((u.setFlag Fld.SYS_BOOTSTAGE_SECONDARY 0 false).stage 2) := (State.RegsOnly.setFlag u _ _ _).trans (State.RegsOnly.setFld _ _ _ _)
  unfold State.verifyStart
  simp only
  split
  · obtain ⟨hsys, heng, hmem, hpwr, hlan, hfix⟩ := ((hregs { s with boot := ⟨[], [], [], [], false, false, [], 0, []⟩ }).trans
      ((State.RegsOnly.setFld _ Fld.NET_BOOTREQ_OFFSET 0 0).trans (State.RegsOnly.setFlag _ Fld.NET_STAT_BOOTWAIT 0 true))).rest
    refine ⟨hsys, heng, hmem, hpwr, hlan, hfix, ?_⟩
    rw [State.fld_of_live (State.live_setFlag_other _ Fld.NET_STAT_BOOTWAIT 0 _ _ (by decide)), State.fld_setFld_addr _ _ _ _ _ _ (by decide)]
    exact hstage _
  · obtain ⟨hsys, heng, hmem, hpwr, hlan, hfix⟩ := (hregs { s with boot := ⟨[], [], [], [], false, false, [], 0, [(0x6C, 0), (0x03, 0)]⟩ }).rest
    exact ⟨hsys, heng, hmem, hpwr, hlan, hfix, hstage _⟩

/-- The clocks run from this moment, and device time counts from it. -/
def State.locked (s : State) : State :=
  { s with
    sys := { s.sys with power := .run, powerAt := s.now, lockAt := s.now, timeBase := s.now, quenchPin := false }
    ptp := ⟨0, s.now, 0⟩
    pwr := { s.pwr with renewedAt := s.now } }

theorem pllLock_after (s : State) (t : Nat) (hp : s.sys.power = .pll) (hi : s.sys.intlkOk = true) :
    exec (.pllLock t) s = .next (s.after t (fun r => r.locked.verifyStart)) := by
  dsimp only [exec]
  unfold execPllLock
  refine always_after t s _ _ ?_
  have hi' : (s.begin t).locked.verifyStart.sys.intlkOk = true := (congrArg Sys.intlkOk (State.verifyStart_rest _).1).trans hi
  exact (State.only_pos _ _ _ (decide_eq_true hp)).trans (if_pos hi')

theorem pllLock_runs (s : State) (t : Nat) (hp : s.sys.power = .pll) (hi : s.sys.intlkOk = true) :
    ∃ u, exec (.pllLock t) s = .next u ∧ u.clocked = true ∧ u.dev = 0 ∧ u.sys.quenchPin = false ∧ u.fld Fld.SYS_BOOTSTAGE_STAGE 0 = 2
      ∧ u.pwr.renewedAt = u.now ∧ u.eng = s.eng ∧ u.mem = s.mem ∧ u.lan = s.lan := by
  obtain ⟨hsys, heng, hmem, hpwr, hlan, hfix, hstage⟩ := State.verifyStart_rest (s.begin t).locked
  have hdev : (s.after t (fun r => r.locked.verifyStart)).dev = (((s.begin t).now : Int) - (s.begin t).locked.verifyStart.sys.timeBase).toNat % 2 ^ 64 := rfl
  refine ⟨_, pllLock_after s t hp hi, decide_eq_true (congrArg Sys.power hsys), ?_, congrArg Sys.quenchPin hsys, ?_, congrArg Pwr.renewedAt hpwr, heng, hmem, hlan⟩
  · rw [hdev, hsys]
    simp [State.locked]
  · exact (State.fld_of_live (State.live_after s t _ (fun r => r.locked.verifyStart) hfix)).trans hstage

/-! ### Feeds at power (R409, R459, R470 to R472) -/

theorem State.pwrShow_regsOnly (s : State) : s.RegsOnly s.pwrShow :=
  ((((((((((State.RegsOnly.setFlag s _ _ _).trans (State.RegsOnly.setFlag _ _ _ _)).trans (State.RegsOnly.setFlag _ _ _ _)).trans (State.RegsOnly.setFlag _ _ _ _)).trans
    (State.RegsOnly.setFlag _ _ _ _)).trans (State.RegsOnly.setFlag _ _ _ _)).trans (State.RegsOnly.setFlag _ _ _ _)).trans (State.RegsOnly.setFlag _ _ _ _)).trans
    (State.RegsOnly.setFld _ _ _ _)).trans (State.RegsOnly.setFld _ _ _ _))

/-- What a cold reset makes of everything but the registers. -/
def State.coldBase (s : State) : State :=
  { State.reset with
    now := s.now, pending := s.pending, fixed := s.fixed, pwr := s.pwr, free := s.free, tx := s.tx, ptp := ⟨0, s.now, 0⟩
    sys := { State.reset.sys with powerAt := s.now, timeBase := s.now, intlkOk := s.sys.intlkOk, tap := s.sys.tap, boundary := s.sys.boundary, railsAt := s.sys.railsAt } }

theorem State.coldReset_regsOnly (s : State) (cause : Nat) : s.coldBase.RegsOnly (s.coldReset cause) := by
  have hkept : s.coldBase.RegsOnly s.coldBase.pwrKept := ⟨_, rfl⟩
  exact (((hkept.trans (State.RegsOnly.setFld _ _ _ _)).trans (State.RegsOnly.setFlag _ _ _ _)).trans (State.RegsOnly.setFlag _ _ _ _)).trans (State.pwrShow_regsOnly _)

theorem State.coldReset_pwr (s : State) (cause : Nat) : (s.coldReset cause).pwr = s.pwr := (State.coldReset_regsOnly s cause).rest.2.2.2.1

theorem State.coldReset_mem (s : State) (cause : Nat) : (s.coldReset cause).mem = [] := (State.coldReset_regsOnly s cause).rest.2.2.1

/-- An acquired feed drives its gate and holds. -/
theorem State.feedAcquire_pwr (s : State) (b : Bool) : (s.feedAcquire b).pwr.holder = some b ∧ (s.feedAcquire b).pwr.a.mv = s.pwr.a.mv ∧ (s.feedAcquire b).pwr.b.mv = s.pwr.b.mv
    ∧ (s.feedAcquire b).pwr.mgmtCtr = s.pwr.mgmtCtr := by
  unfold State.feedAcquire
  simp only
  rw [(State.pwrShow_regsOnly _).rest.2.2.2.1]
  cases b <;> exact ⟨rfl, rfl, rfl, rfl⟩

/-- The acquisition at power leaves the feeds' voltages and the management counter. -/
theorem State.acquireAtPower_keeps (s : State) : s.acquireAtPower.pwr.a.mv = s.pwr.a.mv ∧ s.acquireAtPower.pwr.b.mv = s.pwr.b.mv ∧ s.acquireAtPower.pwr.mgmtCtr = s.pwr.mgmtCtr := by
  unfold State.acquireAtPower
  split
  next b _ =>
    obtain ⟨-, hav, hbv, hctr⟩ := s.feedAcquire_pwr b
    exact ⟨hav, hbv, hctr⟩
  next => exact ⟨rfl, rfl, rfl⟩

/-- Feed A is acquired where it is the preferred one and above UV. -/
theorem State.acquireAtPower_a (s : State) (hpref : s.pwr.pref = false) (huv : s.pwr.uv < s.pwr.a.mv) :
    s.acquireAtPower.pwr.holder = some false ∧ s.acquireAtPower.pwr.pwrEn = true ∧ s.acquireAtPower.sys.power = .cold := by
  have hfirst : s.firstFeed = some false := by simp [State.firstFeed, State.feed, hpref, huv]
  simp only [State.acquireAtPower, hfirst, State.feedAcquire_pwr, and_self]

theorem wake_after (s : State) (t us a b : Nat) (hp : s.sys.power = .hib) (hus : 100 ≤ us) :
    exec (.wake t us a b) s = .next (s.after t (fun r => (((r.coldReset 3).feedsSeen a b)).acquireAtPower)) :=
  always_only t s (fun r => r.sys.power = .hib && decide (100 ≤ us)) (fun r => ((r.coldReset 3).feedsSeen a b).acquireAtPower)
    (Bool.and_eq_true_iff.mpr ⟨decide_eq_true hp, decide_eq_true hus⟩)

/-- The always-on domain as VAON starts it, with both gates low. -/
def State.vaonUp (s : State) : State := { s with pwr := { State.reset.pwr with a := Feed.reset, holder := none, pwrEn := false } }

theorem vaonApply_acquires (s : State) (t a b : Nat) (hp : s.sys.power = .off) : ∃ u, exec (.vaonApply t a b) s = .next u ∧ u.pwr.a.mv = a ∧ u.pwr.b.mv = b
    ∧ u.pwr.mgmtCtr = 0 ∧ (10800 < a → u.pwr.holder = some false ∧ u.pwr.pwrEn = true ∧ u.sys.power = .cold) := by
  have he : exec (.vaonApply t a b) s = .next (s.after t (fun r => ((r.vaonUp.coldReset 1).feedsSeen a b).acquireAtPower)) :=
    always_only t s (fun r => r.sys.power = .off) (fun r => ((r.vaonUp.coldReset 1).feedsSeen a b).acquireAtPower) (decide_eq_true hp)
  have hpwr := State.coldReset_pwr (s.begin t).vaonUp 1
  obtain ⟨hav, hbv, hctr⟩ := State.acquireAtPower_keeps (((s.begin t).vaonUp.coldReset 1).feedsSeen a b)
  refine ⟨_, he, hav, hbv, hctr.trans (congrArg Pwr.mgmtCtr hpwr), fun ha => ?_⟩
  refine State.acquireAtPower_a (((s.begin t).vaonUp.coldReset 1).feedsSeen a b) (congrArg Pwr.pref hpwr) ?_
  have huv : (((s.begin t).vaonUp.coldReset 1).feedsSeen a b).pwr.uv = 10800 := congrArg Pwr.uv hpwr
  rw [huv]
  exact ha

/-- The clocked part without power keeps what the always-on domain holds, and no memory. -/
theorem State.powerLost_rest (s : State) (p : Power) (cause : Nat) : (s.powerLost p cause).sys.power = p ∧ (s.powerLost p cause).pwr = s.pwr ∧ (s.powerLost p cause).mem = [] := by
  have hpwr := State.coldReset_pwr s cause
  have hmem := State.coldReset_mem s cause
  unfold State.powerLost
  generalize s.coldReset cause = r at *
  exact ⟨rfl, hpwr, hmem⟩

/-- Without VAON the device is off, with its feeds as VAON first finds them and no memory. -/
theorem vaonRemoved_leaves (s : State) (t : Nat) : ∃ u, exec (.vaonRemoved t) s = .next u ∧ u.sys.power = .off ∧ u.pwr = (s.begin t).vaonUp.pwr ∧ u.mem = [] := by
  have he : exec (.vaonRemoved t) s = always t s (fun r => r.vaonUp.powerLost .off 1) := by
    dsimp only [exec]
    unfold execVaonRemoved
    rfl
  have hcarry (r : State) : ((s.begin t).carry r).sys = r.sys ∧ ((s.begin t).carry r).pwr = r.pwr ∧ ((s.begin t).carry r).mem = r.mem := ⟨rfl, rfl, rfl⟩
  obtain ⟨hpow, hpwr, hmem⟩ := State.powerLost_rest (s.begin t).vaonUp .off 1
  obtain ⟨hcs, hcp, hcm⟩ := hcarry ((s.begin t).vaonUp.powerLost .off 1)
  exact ⟨_, he, (congrArg Sys.power hcs).trans hpow, hcp.trans hpwr, hcm.trans hmem⟩

theorem vaonRemoved_loses (s : State) (t : Nat) : ∃ u, exec (.vaonRemoved t) s = .next u ∧ u.sys.power = .off ∧ u.pwr.pwrEn = false ∧ u.pwr.holder = none
    ∧ u.pwr.mgmtCtr = 0 ∧ u.mem = [] := by
  obtain ⟨u, he, hpow, hpwr, hmem⟩ := vaonRemoved_leaves s t
  exact ⟨u, he, hpow, congrArg Pwr.pwrEn hpwr, congrArg Pwr.holder hpwr, congrArg Pwr.mgmtCtr hpwr, hmem⟩

/-! ### The test port (R399, R400) -/

/-- What an instruction of the test port does. -/
def State.tapTaken (s : State) (i : TapInstr) : State :=
  let s1 := if i = .sample || i = .extest then { s with sys := { s.sys with boundary := s.boundaryNow } } else s
  let s2 := if i = .idcode then { s1 with resp := leBytes 4 s.idcode } else s1
  { s2 with sys := { s2.sys with tap := i } }

theorem State.tapTaken_rest (s : State) (i : TapInstr) : (s.tapTaken i).sys.tap = i ∧ (s.tapTaken i).eng = s.eng ∧ (s.tapTaken i).mem = s.mem ∧ (s.tapTaken i).regs = s.regs := by
  unfold State.tapTaken
  simp only
  refine ⟨trivial, ?_, ?_, ?_⟩ <;> split <;> split <;> rfl

theorem State.tapTaken_boundary (s : State) (i : TapInstr) (h : i = .sample ∨ i = .extest) : (s.tapTaken i).sys.boundary = s.boundaryNow := by
  rcases h with rfl | rfl <;> rfl

theorem State.tapSafe_iff (s : State) : s.tapSafe = true ↔ s.sys.tap = .extest ∨ s.sys.tap = .clamp ∨ s.sys.tap = .highz := by
  simp only [State.tapSafe, Bool.or_eq_true, decide_eq_true_eq, or_assoc]

theorem State.tapActs_eq (s : State) (i : TapInstr) : s.tapActs i = if i = .priv ∧ s.fixed.dbgLock = true then .bypass else i := by
  simp only [State.tapActs, Bool.and_eq_true, decide_eq_true_eq]

/-- Every instruction but `priv` acts as itself. -/
theorem State.tapActs_public (s : State) (i : TapInstr) (h : i ≠ .priv) : s.tapActs i = i := by simp [State.tapActs, h]

/-- BYPASS in place of `priv` holds no output safe, and neither does `priv`. -/
theorem State.tapActs_safe (s : State) (i : TapInstr) : (s.tapActs i = .extest ∨ s.tapActs i = .clamp ∨ s.tapActs i = .highz) ↔ (i = .extest ∨ i = .clamp ∨ i = .highz) := by
  by_cases h : i = .priv
  · subst h
    cases hl : s.fixed.dbgLock <;> simp [State.tapActs, hl]
  · rw [State.tapActs_public s i h]

theorem tapInstruction_taken (s : State) (t : Nat) (i : TapInstr) : ∃ u, exec (.tapInstruction t i) s = .next u
    ∧ u.sys.tap = (if i = .priv ∧ s.fixed.dbgLock = true then .bypass else i)
    ∧ (u.tapSafe = true ↔ i = .extest ∨ i = .clamp ∨ i = .highz) ∧ (i = .sample ∨ i = .extest → u.sys.boundary = (s.begin t).boundaryNow)
    ∧ (i = .idcode → u.resp = leBytes 4 s.idcode) ∧ u.eng = s.eng ∧ u.mem = s.mem ∧ u.regs = s.regs := by
  have he : exec (.tapInstruction t i) s = .next (s.after t (fun r => r.tapTaken (r.tapActs i))) := by
    dsimp only [exec]
    unfold execTapInstruction
    exact always_after t s _ _ rfl
  obtain ⟨htap, heng, hmem, hregs⟩ := (s.begin t).tapTaken_rest ((s.begin t).tapActs i)
  refine ⟨_, he, htap.trans (State.tapActs_eq _ i), ?_, fun h => ?_, fun h => ?_, heng, hmem, hregs⟩
  · have hsafe : (s.after t (fun r => r.tapTaken (r.tapActs i))).sys.tap = (s.begin t).tapActs i := htap
    rw [State.tapSafe_iff, hsafe, State.tapActs_safe]
  · have hi : (s.begin t).tapActs i = i := State.tapActs_public _ i (by rcases h with rfl | rfl <;> decide)
    exact State.tapTaken_boundary (s.begin t) ((s.begin t).tapActs i) (hi.symm ▸ h)
  · subst h
    rfl

/-- Settles O6: each reset and power command at its moment, and what its effect leaves. -/
theorem powerAndReset : Obligations.PowerAndReset := by
  unfold Obligations.PowerAndReset
  refine ⟨coldReset_after, fun s t ns r hp => ?_, fun s t straps hc => ⟨resetRelease_after s t straps hc, fun hlow => ?_⟩, pllLock_runs, wake_after,
    vaonApply_acquires, vaonRemoved_loses, tapInstruction_taken⟩
  · obtain ⟨hlong, hshort, hin⟩ := railOutOfTolerance_after s t ns r hp
    exact ⟨fun ho => hlong ((railOutside_iff r).mpr ho), fun ho => hshort ((railOutside_iff r).mpr ho),
      fun ho => hin (Bool.eq_false_iff.mpr (fun h => ho ((railOutside_iff r).mp h)))⟩
  · refine always_unless t s (fun r => r.sys.power = .cold && r.railsGood) (fun r => _) ?_
    exact Bool.and_eq_false_iff.mpr (Or.inr (decide_eq_false (Nat.not_le.mpr hlow)))

end Sys2Proof.Machine

/-! PROOFS. What leaves the time, the fuses and the sequencers' states as they are: every effect that a lane settles by. -/

namespace Sys2Proof.Machine

/-- No lane's sequencer state is at this key. -/
def SeqFree (k : Nat) : Prop := ∀ m, m < 8 → k ≠ Fld.WCK_Ln_STAT_STATE.at m

theorem seqFree_low {k : Nat} (h : k < 0x64000) : SeqFree k := fun m _ => by simp only [Fld.at, Fld.WCK_Ln_STAT_STATE]; omega

theorem seqFree_high {k : Nat} (h : 0x65000 ≤ k) : SeqFree k := fun m hm => by simp only [Fld.at, Fld.WCK_Ln_STAT_STATE]; omega

/-- A lane's or a channel's field below the sequencers' windows. -/
theorem Fld.free_low {f : Fld} {n : Nat} (hn : n < 16) (h : f.addr + f.stride * 16 < 0x64000) : SeqFree (f.at n) :=
  seqFree_low (lt_of_le_of_lt (Nat.add_le_add_left (Nat.mul_le_mul_left f.stride hn.le) f.addr) h)

theorem Fld.free_high {f : Fld} {n : Nat} (h : 0x65000 ≤ f.addr) : SeqFree (f.at n) := seqFree_high (h.trans (Nat.le_add_right _ _))

/-- From `s` to `u` the time, the fuses and every sequencer's state are kept. -/
structure State.Steady (s u : State) : Prop where
  now : u.now = s.now
  fixed : u.fixed = s.fixed
  seq : ∀ m, m < 8 → u.live (Fld.WCK_Ln_STAT_STATE.at m) = s.live (Fld.WCK_Ln_STAT_STATE.at m)

namespace State.Steady

variable {s u w : State}

theorem refl (s : State) : s.Steady s := ⟨rfl, rfl, fun _ _ => rfl⟩

theorem trans (h : s.Steady u) (h' : u.Steady w) : s.Steady w :=
  ⟨h'.now.trans h.now, h'.fixed.trans h.fixed, fun m hm => (h'.seq m hm).trans (h.seq m hm)⟩

/-- A change beside the registers. -/
theorem change (h : s.Steady u) (hn : w.now = u.now) (hf : w.fixed = u.fixed) (hr : w.regs = u.regs) : s.Steady w :=
  h.trans ⟨hn, hf, fun _ _ => State.live_congr hr hf _⟩

/-! ### Registers -/

theorem setLive (h : s.Steady u) (k : Nat) (x : Word) (hk : SeqFree k) : s.Steady (u.setLive k x) :=
  h.trans ⟨rfl, rfl, fun m hm => State.live_setLive_other u k _ x (hk m hm).symm⟩

theorem setFld (h : s.Steady u) {f : Fld} {n v : Nat} (hk : SeqFree (f.at n)) : s.Steady (u.setFld f n v) := h.setLive _ _ hk

theorem setFlag (h : s.Steady u) {f : Fld} {n : Nat} {b : Bool} (hk : SeqFree (f.at n)) : s.Steady (u.setFlag f n b) := h.setLive _ _ hk

theorem setLaneBit (h : s.Steady u) {f : Fld} {i : Nat} {b : Bool} (hk : SeqFree (f.at 0)) : s.Steady (u.setLaneBit f i b) := h.setLive _ _ hk

theorem count (h : s.Steady u) {f : Fld} {n k : Nat} (hk : SeqFree (f.at n)) : s.Steady (u.count f n k) := h.setLive _ _ hk

/-! ### Choices and repetitions -/

theorem ite {c : Prop} {_ : Decidable c} {a b : State} (ha : s.Steady a) (hb : s.Steady b) : s.Steady (if c then a else b) := by
  split
  · exact ha
  · exact hb

theorem only (h : s.Steady u) {c : Bool} {f : State → State} (hf : u.Steady (f u)) : s.Steady (u.only c f) := by
  cases c
  · exact h
  · exact h.trans hf

theorem foldl {α : Type} (h : s.Steady u) {l : List α} {f : State → α → State} (hf : ∀ r : State, ∀ x ∈ l, r.Steady (f r x)) : s.Steady (l.foldl f u) := by
  induction l generalizing u with
  | nil => exact h
  | cons x l ih => exact ih (h.trans (hf u x List.mem_cons_self)) (fun r y hy => hf r y (List.mem_cons_of_mem x hy))

theorem each (h : s.Steady u) {us : List Nat} {f : Nat → State → State} (hf : ∀ r : State, ∀ n ∈ us, r.Steady (f n r)) : s.Steady (u.each us f) := h.foldl hf

/-- Both channels of a lane. -/
theorem each_pair (h : s.Steady u) {n : Nat} {f : Nat → State → State} (hn : n < 8) (hf : ∀ (r : State) c, c < 16 → r.Steady (f c r)) : s.Steady (u.each [2 * n, 2 * n + 1] f) :=
  h.each (fun r c hc => hf r c (by
    simp only [List.mem_cons, List.not_mem_nil, or_false] at hc
    omega))

/-! ### The working copies of a window (R435, R436, R449) -/

theorem coverChanged (h : s.Steady u) : s.Steady u.coverChanged :=
  (h.change (w := { u with sys := { u.sys with passDirty := true } }) rfl rfl rfl).setFlag (Fld.free_low (by decide) (by decide))

theorem takeLive (h : s.Steady u) {k : Nat} {x : Word} (hk : SeqFree k) : s.Steady (u.takeLive k x) := by
  unfold State.takeLive
  exact ite (h.setLive k x hk) (h.setLive k x hk).coverChanged

theorem pendClear (h : s.Steady u) (win : Nat) : s.Steady (u.pendClear win) := by
  unfold State.pendClear
  have hs {v : Nat} : s.Steady (u.setFld Fld.SYS_COMMIT_PEND 0 v) := h.setFld (Fld.free_low (by decide) (by decide))
  exact ite (ite (hs.change rfl rfl rfl) hs) h

theorem took (h : s.Steady u) (win unit : Nat) : s.Steady (u.took win unit) := by
  have hw {x : List (Nat × Nat)} : s.Steady { u with regs := { u.regs with wait := x } } := h.trans ⟨rfl, rfl, fun _ _ => rfl⟩
  unfold State.took
  exact ite hw (hw.pendClear win)

end State.Steady

/-- A register of window `win` that a boundary takes lies clear of the sequencers' states in each of its units. -/
def RegDef.clear (win : Nat) (r : RegDef) : Bool :=
  rwsMask r == 0 || r.count == 1 || decide (win * 0x10000 + r.off + r.stride * 16 < 0x64000)
    || (decide (r.stride % 0x200 = 0) && decide ((win * 0x10000 + r.off) % 0x200 ≠ 0x10))

theorem regs_clear {win : Nat} (h : win = 1 ∨ win = 2 ∨ win = 5 ∨ win = 6) : ∀ r ∈ regsOf win, r.clear win = true := by
  rcases h with rfl | rfl | rfl | rfl <;> decide

theorem RegDef.free {win u : Nat} {r : RegDef} (h : r.clear win = true) (hm : rwsMask r ≠ 0) (hc : r.count ≠ 1) (hu : u < 16) :
    SeqFree (win * 0x10000 + r.off + r.stride * u) := by
  simp only [RegDef.clear, Bool.or_eq_true, Bool.and_eq_true, beq_iff_eq, decide_eq_true_eq, hm, hc, false_or] at h
  rcases h with hlow | ⟨hstride, hoff⟩
  · exact seqFree_low (lt_of_le_of_lt (Nat.add_le_add_left (Nat.mul_le_mul_left r.stride hu.le) _) hlow)
  · obtain ⟨q, hq⟩ := Nat.dvd_of_mod_eq_zero hstride
    intro m _
    simp only [Fld.at, Fld.WCK_Ln_STAT_STATE, hq, Nat.mul_assoc]
    omega

namespace State.Steady

variable {s u w : State}

theorem takeReg (h : s.Steady u) {win n : Nat} {held : List Nat} {r : RegDef} (hn : n < 8) (hr : r.clear win = true) : s.Steady (u.takeReg win n held r) := by
  unfold State.takeReg
  dsimp only
  split
  · exact h
  next hm =>
    have hmask : rwsMask r ≠ 0 := fun h0 => hm (by rw [h0]; rfl)
    split
    · exact h.takeLive (seqFree_high (by simp only [laneKey]; omega))
    next hc =>
      refine h.each (fun v k hk => ?_)
      have hk' : k < 16 := by
        split at hk <;> simp only [List.mem_cons, List.not_mem_nil, or_false] at hk <;> omega
      exact ite (refl v) ((refl v).takeLive (RegDef.free hr hmask hc hk'))

theorem takeWindow (h : s.Steady u) {win n : Nat} {held : List Nat} (hn : n < 8) (hw : win = 1 ∨ win = 2 ∨ win = 5 ∨ win = 6) : s.Steady (u.takeWindow win n held) :=
  State.Steady.took (h.foldl (fun v r hr => (refl v).takeReg hn (regs_clear hw r hr))) win n

/-! ### Memory, the journal and reports (R315, R339, R346) -/

theorem drawn (h : s.Steady u) : s.Steady u.drawn := h.change rfl rfl rfl

theorem onPhx (h : s.Steady u) (n : Nat) (g : PhxLane → PhxLane) : s.Steady (u.onPhx n g) := h.change rfl rfl rfl

theorem onEngine (h : s.Steady u) (e : Nat) (g : Engine → Engine) : s.Steady (u.onEngine e g) := h.change rfl rfl rfl

theorem onOrx (h : s.Steady u) (c : Nat) (g : OrxCh → OrxCh) : s.Steady (u.onOrx c g) := h.change rfl rfl rfl

theorem onLane (h : s.Steady u) (n : Nat) (g : Lane → Lane) : s.Steady (u.onLane n g) := h.change rfl rfl rfl

theorem belSend (h : s.Steady u) (k : Nat) (b : List Byte) : s.Steady (u.belSend k b) :=
  h.change (State.belSend_now u k b) (State.belSend_fixed u k b) (State.belSend_regs u k b)

theorem mirror (h : s.Steady u) (a : Nat) (bs : List Byte) : s.Steady (u.mirror a bs) :=
  h.change (State.mirror_now u a bs) (State.mirror_fixed u a bs) (State.mirror_regs u a bs)

end State.Steady

/-- The counters of memory lie above the sequencers' states. -/
theorem state_not_memCounters (p : Nat) {m : Nat} (hm : m < 8) : Fld.WCK_Ln_STAT_STATE.at m ∉ memCounters p := by
  simp only [memCounters, Fld.at, Fld.WCK_Ln_STAT_STATE, Fld.MEM_SRABORT_CNT, Fld.MEM_SRWAKE_CNT, Fld.MEM_BURST_CNT, Fld.MEM_CE_CNT, List.mem_cons, List.not_mem_nil,
    or_false]
  omega

namespace State.Steady

variable {s u w : State}

theorem traffic (h : s.Steady u) {p : Nat} {ap write : Bool} {a n : Nat} : s.Steady (u.traffic p ap write a n) :=
  h.trans ⟨State.traffic_now .., State.traffic_fixed .., fun _ hm => State.live_traffic u p _ (state_not_memCounters p hm) ap write a n⟩

theorem portWrite (h : s.Steady u) {p : Nat} {ap : Bool} {a : Nat} {bs : List Byte} : s.Steady (u.portWrite p ap a bs) :=
  h.trans ⟨State.portWrite_now .., State.portWrite_fixed .., fun _ hm => State.live_portWrite u p _ (state_not_memCounters p hm) ap a bs⟩

theorem ringIn (h : s.Steady u) (q : Nat) (p : Producer) (img : List Byte) : s.Steady (u.ringIn q p img) := by
  unfold State.ringIn State.handIn State.writeRecord
  have hq {g : Queue → Queue} : s.Steady (u.onQueue q g) := h.change rfl rfl rfl
  exact ((((hq.portWrite).mirror _ _).portWrite).mirror _ _)

theorem countRefusal (h : s.Steady u) (r : Nat) : s.Steady (u.countRefusal r) := by
  unfold State.countRefusal
  have hc {f : Fld} (hf : 0x65000 ≤ f.addr) : s.Steady (u.count f 0 1) := h.count (Fld.free_high hf)
  exact ite (hc (by decide)) (ite (hc (by decide)) (ite (hc (by decide)) (hc (by decide))))

/-- A report, taken or refused. -/
theorem report (h : s.Steady u) (q : Nat) (img : List Byte) : s.Steady (u.report q img) :=
  h.trans ⟨State.report_now .., State.report_fixed .., fun m hm =>
    State.report_keep (fun r => r.live (Fld.WCK_Ln_STAT_STATE.at m)) (fun r q p img => ((refl r).ringIn q p img).seq m hm) (fun r c => ((refl r).countRefusal c).seq m hm)
      (fun r _ => ((refl r).count (Fld.free_high (by decide))).seq m hm) (fun _ _ => rfl) u q img⟩

theorem faultAt (h : s.Steady u) (win unit off detail kind : Nat) : s.Steady (u.faultAt win unit off detail kind) := h.report 61 _

end State.Steady

end Sys2Proof.Machine

/-! PROOFS. The settling of a lane keeps the time, the fuses and every sequencer's state (R107, R159, R268, R436). -/

namespace Sys2Proof.Machine

/-- A lane's field below the sequencers' windows. -/
theorem Fld.free_lane {f : Fld} {n : Nat} (hn : n < 8) (h : f.addr + f.stride * 16 < 0x64000) : SeqFree (f.at n) := Fld.free_low (by omega) h

/-- A field of a whole window below them. -/
theorem Fld.free_window {f : Fld} (h : f.addr + f.stride * 16 < 0x64000) : SeqFree (f.at 0) := Fld.free_low (by decide) h

/-- The engines bound to a lane are engines of the part. -/
theorem State.boundTo_lt (s : State) (n : Nat) : ∀ e ∈ s.boundTo n, e < 8 := fun _ he => (List.mem_range.mp (List.mem_filter.mp he).1).trans_le s.lanes_le

namespace State.Steady

variable {s u : State} {n : Nat}

/-! ### Launch and receive windows at a boundary (R107, R116, R436) -/

theorem setIapp (h : s.Steady u) (hn : n < 8) : s.Steady (u.setIapp n) := (h.setFld (Fld.free_lane hn (by decide))).drawn

theorem lanTake (h : s.Steady u) (hn : n < 8) : s.Steady (u.lanTake n) := by
  unfold State.lanTake
  have hw {held : List Nat} : s.Steady (u.takeWindow 1 n held) := h.takeWindow hn (by decide)
  exact ite ((ite hw (hw.onLane n _)).setIapp hn) h

theorem cmShow (h : s.Steady u) (hn : n < 8) : s.Steady (u.cmShow n) := h.each_pair hn (fun r _ hc => (refl r).setFlag (Fld.free_low hc (by decide)))

theorem orxTake (h : s.Steady u) (c was : Nat) : s.Steady (u.orxTake c was) := by
  unfold State.orxTake
  exact (ite (h.onOrx c _) (h.onOrx c _)).onOrx c _

theorem schedTake (h : s.Steady u) (hn : n < 8) : s.Steady (u.schedTake n) := by
  unfold State.schedTake
  refine ite (each_pair (setFlag ?_ (Fld.free_window (by decide))) hn (fun r c _ => (refl r).onOrx c _)) h
  exact h.change rfl rfl rfl

theorem orxLaneTake (h : s.Steady u) (hn : n < 8) : s.Steady (u.orxLaneTake n) := by
  unfold State.orxLaneTake
  exact State.Steady.schedTake (ite (((h.takeWindow hn (by decide)).each_pair hn (fun r c _ => (refl r).orxTake c _)).cmShow hn) h) hn

/-! ### Memory read for the shares of a checkpoint (R323, R346) -/

theorem backNow (h : s.Steady u) (b : Nat) : s.Steady (u.backNow b) := by
  unfold State.backNow
  exact ite (h.change rfl rfl rfl) h

theorem backDue (h : s.Steady u) (b : Nat) : s.Steady (u.backDue b) := by
  unfold State.backDue
  exact ite h (h.change rfl rfl rfl)

theorem uncorrectable (h : s.Steady u) (port b : Nat) : s.Steady (u.uncorrectable port b) :=
  State.Steady.report (((h.count (Fld.free_high (by decide))).setFld (Fld.free_high (by decide))).setFld (Fld.free_high (by decide))) 61 _

theorem burstMeets (h : s.Steady u) (port b ce : Nat) (ue newer : Bool) : s.Steady (u.burstMeets port b ce ue newer).1 := by
  have hc : s.Steady (u.only (decide (0 < ce)) (fun r => r.count Fld.MEM_CE_CNT 0 ce)) := h.only ((refl u).count (Fld.free_high (by decide)))
  unfold State.burstMeets
  dsimp only
  split
  · exact hc.uncorrectable port b
  · exact State.Steady.only (f := fun r => r.backDue b) hc ((refl _).backDue b)

theorem burstRead (h : s.Steady u) (port b : Nat) : s.Steady (u.burstRead port b).1 := (h.backNow b).burstMeets port b _ _ _

theorem portRead (h : s.Steady u) (port : Nat) (ap : Bool) (a k : Nat) : s.Steady (u.portRead port ap a k).1 := by
  have hall (bs : List Nat) (acc : State × Bool) (ha : s.Steady acc.1) :
      s.Steady (bs.foldl (fun acc b => ((acc.1.burstRead port b).1, acc.2 || (acc.1.burstRead port b).2)) acc).1 := by
    induction bs generalizing acc with
    | nil => exact ha
    | cons b bs ih => exact ih _ (ha.burstRead port b)
  unfold State.portRead
  dsimp only
  split
  · exact h.traffic
  · exact hall _ _ h.traffic

theorem sendShare (h : s.Steady u) (k no : Nat) (eng : Bool) (a len : Nat) : s.Steady (u.sendShare k no eng a len) := by
  have hread : s.Steady (u.dramRead 8 a len).1 := h.portRead 8 false a len
  unfold State.sendShare
  exact ite (h.change rfl rfl rfl) (ite hread (hread.foldl (fun r x _ => (refl r).belSend 5 _)))

theorem setStale (h : s.Steady u) (l : List (Nat × Nat)) : s.Steady (u.setStale l) :=
  (h.change (w := { u with twn := { u.twn with stale := l } }) rfl rfl rfl).setFlag (Fld.free_high (by decide))

theorem shareWait (h : s.Steady u) (l : List (Nat × Nat)) : s.Steady { u with twn := { u.twn with shareWait := l } } := h.change rfl rfl rfl

theorem shareReady (h : s.Steady u) (k : Nat) : s.Steady (u.shareReady k) := by
  unfold State.shareReady
  split
  · exact ite ((h.shareWait _).sendShare _ _ _ _ _) h
  · exact h

theorem ckptSend (h : s.Steady u) (k no : Nat) : s.Steady (u.ckptSend k no) := by
  have hblock {r : State} (hr : s.Steady r) : s.Steady (match r.twn.shareWait.find? (fun w => w.1 = k) with
      | some (_, b) => ({ r with twn := { r.twn with shareWait := r.twn.shareWait.filter (fun w => w.1 ≠ k) } }.sendShare k b true (r.engShareAddr k (b + 1))
          (128 * r.lenN k)).setStale ((k, b) :: r.twn.stale)
      | none => r) := by
    split
    · exact ((hr.shareWait _).sendShare _ _ _ _ _).setStale _
    · exact hr
  have hnext {r : State} (hr : s.Steady r) : s.Steady (if (r.ckptEngines k).isEmpty then r
      else { r with twn := { r.twn with shareWait := r.twn.shareWait ++ [(k, no)] } }.shareReady k) := ite hr ((hr.shareWait _).shareReady k)
  have hlast {r : State} (hr : s.Steady r) (c : Bool) (l : List (Nat × Nat)) : s.Steady (if c then r.setStale l else r) := ite (hr.setStale l) hr
  unfold State.ckptSend
  exact ite h (hlast (hnext (hblock (h.sendShare _ _ _ _ _))) _ _)

theorem ckptShare (h : s.Steady u) (k no : Nat) : s.Steady (u.ckptShare k no) := by
  unfold State.ckptShare
  refine ite h (State.Steady.portWrite ?_)
  exact h.change rfl rfl rfl

/-! ### Engines at a block's close (R176, R213) -/

theorem engTake (h : s.Steady u) (e : Nat) : s.Steady (u.engTake e) := by
  unfold State.engTake
  refine ite (took (onEngine (takeLive (takeLive h (Fld.free_high (by decide))) (seqFree_high ?_)) e _) 7 e) h
  simp only [engKey]
  omega

theorem onTach (h : s.Steady u) (k : Nat) (g : Tach → Tach) : s.Steady (u.onTach k g) := h.change rfl rfl rfl

theorem tachTake (h : s.Steady u) : s.Steady u.tachTake := by
  unfold State.tachTake
  refine ite (took (takeLive (takeLive (h.each (fun r k _ => ?_)) (seqFree_high (by decide))) (seqFree_high (by decide))) 7 100) h
  have hcopy {a b : Word} : r.Steady ((r.takeLive (Fld.ANV_Tt_CFG_FILT.at k) a).takeLive (Fld.ANV_Tt_TMO_TMO.at k) b) :=
    ((refl r).takeLive (Fld.free_high (by decide))).takeLive (Fld.free_high (by decide))
  have hstale {v : State} (hv : r.Steady v) {c : Bool} {g : Tach → Tach} : r.Steady (if c then (v.setFlag Fld.ANV_Tt_STAT_STALE k true).onTach k g else v) :=
    ite ((hv.setFlag (Fld.free_high (by decide))).onTach k g) hv
  have henable {v : State} (hv : r.Steady v) {c : Bool} {g : Tach → Tach} :
      r.Steady (if c then ((v.setFld Fld.ANV_Tt_WIDX_WIDX k 0).setFlag Fld.ANV_Tt_STAT_GAP k false).onTach k g else v) :=
    ite (((hv.setFld (Fld.free_high (by decide))).setFlag (Fld.free_high (by decide))).onTach k g) hv
  exact henable (hstale hcopy)

theorem engBlockClose (h : s.Steady u) (k : Nat) : s.Steady (u.engBlockClose k) := by
  unfold State.engBlockClose
  exact (tachTake (h.each (fun r e _ => (refl r).engTake e))).each (fun r e _ => (refl r).onEngine e _)

/-! ### Blocks of a lane (R166, R175 to R177, R180) -/

theorem beginBlock (h : s.Steady u) (hn : n < 8) (no : Nat) : s.Steady (u.beginBlock n no) := by
  have hb {g : PhxLane → PhxLane} : s.Steady (u.onPhx n g) := h.onPhx n g
  unfold State.beginBlock
  exact ite h (ite ((hb.count (Fld.free_lane hn (by decide))).setFld (Fld.free_lane hn (by decide))) hb)

theorem rowEvent (h : s.Steady u) (k : Nat) : s.Steady (u.rowEvent k) := h.each (fun r e _ => (refl r).onEngine e _)

theorem setPos (h : s.Steady u) (hn : n < 8) : s.Steady (u.setPos n) :=
  ((h.setFld (Fld.free_lane hn (by decide))).setFld (Fld.free_lane hn (by decide))).each (fun r e _ => (refl r).onEngine e _)

theorem posAll (h : s.Steady u) : s.Steady u.posAll := h.each (fun r _ hk => (refl r).setPos ((List.mem_range.mp hk).trans_le u.lanes_le))

theorem writeRow (h : s.Steady u) (k no slot g : Nat) (ws : List Nat) : s.Steady (u.writeRow k no slot g ws) := h.portWrite

theorem fillRows (h : s.Steady u) (hn : n < 8) (j : Nat) (all : Bool) : s.Steady (u.fillRows n j all) := by
  unfold State.fillRows
  refine ite h ?_
  extract_lets slots one before s1 s2
  have hone (r : State) (k : Nat) : r.Steady (one r k) := ite (refl r) ((refl r).foldl (fun v g _ => (refl v).writeRow n _ k _ _))
  have h2 : s.Steady s2 := State.Steady.setPos (((h.beginBlock hn _).foldl (fun r k _ => hone r k)).onPhx n _) hn
  exact ite (h2.rowEvent n) h2

theorem setBreak (h : s.Steady u) (hn : n < 8) (on : Bool) : s.Steady (u.setBreak n on) :=
  State.Steady.faultAt (((h.setFlag (Fld.free_lane hn (by decide))).setFlag (Fld.free_lane hn (by decide))).setLaneBit (Fld.free_window (by decide))) 5 n _ _ _

theorem breakOff (h : s.Steady u) (hn : n < 8) : s.Steady (u.breakOff n) := by
  unfold State.breakOff
  exact ite ((h.onPhx n _).setBreak hn false) (h.onPhx n _)

theorem closeBlock (h : s.Steady u) (hn : n < 8) (j : Nat) (early reissue : Bool) : s.Steady (u.closeBlock n j early reissue) := by
  have lane {f : Fld} (hf : f.addr + f.stride * 16 < 0x64000) : SeqFree (f.at n) := Fld.free_lane hn hf
  unfold State.closeBlock
  extract_lets l p b no mine stamped s1 m rtd lim res temps s2 s3 t0 img s4 s5 s6 s7 s8
  have h3 : s.Steady s3 := ((h.fillRows hn j reissue).setFlag (lane (by decide))).setFld (lane (by decide))
  have h5 : s.Steady s5 := (h3.portWrite.drawn).onPhx n _
  have h6 : s.Steady s6 := ite (h5.faultAt 5 n _ 0 1) h5
  have h8 : s.Steady s8 := (((h6.count (lane (by decide))).setPos hn).setFlag (lane (by decide))).setLaneBit (Fld.free_window (by decide))
  exact (((h8.engBlockClose n).posAll).ckptShare n no).ckptSend n no

theorem phxRestart (h : s.Steady u) (hn : n < 8) : s.Steady (u.phxRestart n) := by
  have lane {f : Fld} (hf : f.addr + f.stride * 16 < 0x64000) : SeqFree (f.at n) := Fld.free_lane hn hf
  unfold State.phxRestart
  extract_lets l
  split
  · exact h
  · extract_lets slot upto s1 s2 s3
    have h2 : s.Steady s2 := (h.foldl (fun r _ _ => (refl r).closeBlock hn _ true false)).onPhx n _
    have h3 : s.Steady s3 := (((h2.setFlag (lane (by decide))).setFlag (lane (by decide))).setLaneBit (Fld.free_window (by decide))).setFlag (lane (by decide))
    exact State.Steady.setPos (((h3.setFlag (lane (by decide))).setFlag (lane (by decide))).setLaneBit (Fld.free_window (by decide))) hn

theorem showDist (h : s.Steady u) (hn : n < 8) : s.Steady (u.showDist n) := (h.setFld (Fld.free_lane hn (by decide))).drawn

theorem phxTake (h : s.Steady u) (hn : n < 8) : s.Steady (u.phxTake n) := by
  unfold State.phxTake
  refine ite ?_ h
  extract_lets differs moved s0 s1 s2
  have h1 : s.Steady s1 := State.Steady.takeWindow (ite (h.phxRestart hn) h) hn (by decide)
  have h2 : s.Steady s2 := State.Steady.only (f := fun r => r.showDist n) (ite (h1.onPhx n _) h1) ((refl _).showDist hn)
  exact ite (h2.breakOff hn) h2

theorem boundaryTake (h : s.Steady u) (hn : n < 8) : s.Steady (u.boundaryTake n) := by
  have h1 : s.Steady (((u.lanTake n).orxLaneTake n).phxTake n) := ((h.lanTake hn).orxLaneTake hn).phxTake hn
  unfold State.boundaryTake
  exact ite (h1.takeWindow hn (by decide)) h1

/-! ### Down-converter paths (R145 to R159) -/

theorem ddcSettled (h : s.Steady u) : s.Steady u.ddcSettled := by
  have hkeys : ∀ a ∈ [0x40000, 0x40004, 0x40008, 0x42000, 0x42004] ++ (List.range 8).map (fun k => 0x40040 + 4 * k), a < 0x64000 := by decide
  unfold State.ddcSettled
  exact ite (h.foldl (fun r a ha => (refl r).takeLive (seqFree_low (hkeys a ha)))) h

variable {c b : Nat}

theorem onPath (h : s.Steady u) (c b : Nat) (g : DdcPath → DdcPath) : s.Steady (u.onPath c b g) := h.change rfl rfl rfl

theorem pathStat (h : s.Steady u) (hc : c < 16) : s.Steady (u.pathStat c) :=
  (((h.setFld (Fld.free_low hc (by decide))).setFld (Fld.free_low hc (by decide))).setFld (Fld.free_low hc (by decide))).setFld (Fld.free_window (by decide))

theorem pathRestart (h : s.Steady u) (hc : c < 16) (b at_ : Nat) : s.Steady (u.pathRestart c b at_) :=
  State.Steady.pathStat ((h.onPath c b _).count (Fld.free_window (by decide))) hc

theorem nco_free (hc : c < 16) (hb : b < 4) : SeqFree ((ncoFld b).at c) :=
  Fld.free_low hc (by simp only [ncoFld, Fld.DDC_Cn_NCO0_WORD]; omega)

theorem gdly_free (hc : c < 16) (hb : b < 4) : SeqFree ((gdlyFld b).at c) :=
  Fld.free_low hc (by simp only [gdlyFld, Fld.DDC_Cn_GDLY0_GDLY]; omega)

theorem pathTake (h : s.Steady u) (hc : c < 16) (hb : b < 4) (at_ : Nat) (copy filter coefs restart : Bool) : s.Steady (u.pathTake c b at_ copy filter coefs restart) := by
  have hend {v : State} (hv : s.Steady v) (x y : Bool) (g : DdcPath → DdcPath) :
      s.Steady (if x then v.pathRestart c b at_ else if y then (v.onPath c b g).pathStat c else v.pathStat c) :=
    ite (hv.pathRestart hc b at_) (ite ((hv.onPath c b g).pathStat hc) (hv.pathStat hc))
  unfold State.pathTake
  exact hend (((h.onPath c b _).takeLive (nco_free hc hb)).setFld (gdly_free hc hb)) _ _ _

theorem probeTake (h : s.Steady u) (hn : n < 8) (hb : b < 4) (at_ gen : Nat) (restart : Bool) : s.Steady (u.probeTake n b at_ gen restart) := by
  unfold State.probeTake
  extract_lets i copy filter coefs s1 ddc ddc1 mine ddc2 ddc3
  have h1 : s.Steady s1 := (h.pathTake (by omega) hb at_ copy filter coefs restart).pathTake (by omega) hb at_ copy filter coefs restart
  exact h1.change rfl rfl rfl

theorem ddcTake (h : s.Steady u) (hn : n < 8) (at_ : Nat) (restart : Bool) : s.Steady (u.ddcTake n at_ restart) := by
  have hprobes : ∀ b ∈ [0, 1, 2, 3], b < 4 := by decide
  unfold State.ddcTake
  extract_lets r0 s1
  have h1 : s.Steady s1 := ((h.each (fun r b hb => (refl r).probeTake hn (hprobes b hb) at_ _ restart)).ddcSettled).took 4 64
  exact ite h1 (h1.phxRestart hn)

/-! ### Ranges and tables (R75, R107, R116) -/

theorem noteConv (h : s.Steady u) (c at_ : Nat) : s.Steady (u.noteConv c at_) := h.change rfl rfl rfl

theorem applyRange (h : s.Steady u) (hc : c < 16) (at_ : Nat) : s.Steady (u.applyRange c at_) := by
  unfold State.applyRange
  exact ite h (((h.setFld (Fld.free_low hc (by decide))).count (Fld.free_low hc (by decide))).noteConv c at_)

theorem rangesFollow (h : s.Steady u) (hn : n < 8) : s.Steady (u.rangesFollow n) := (h.applyRange (by omega) _).applyRange (by omega) _

theorem tableSwitch (h : s.Steady u) (hn : n < 8) (hb : b < 4) : s.Steady (u.tableSwitch n b) := by
  have hclen : SeqFree ((clenFld b).at n) := Fld.free_lane hn (by simp only [clenFld, Fld.LAN_Ln_CLEN0_LEN]; omega)
  exact (((h.onLane n _).takeLive hclen).takeLive (Fld.free_lane hn (by decide))).setLaneBit (Fld.free_window (by decide))

theorem tablesNow (h : s.Steady u) (hn : n < 8) : s.Steady (u.tablesNow n) := by
  have htables : ∀ b ∈ [0, 1, 2, 3], b < 4 := by decide
  exact h.each (fun r b hb => (refl r).tableSwitch hn (htables b (List.mem_filter.mp hb).1))

/-- A lane that can have no boundary takes every pending copy at once. -/
theorem settleLane (h : s.Steady u) (hn : n < 8) : s.Steady (u.settleLane n) := by
  unfold State.settleLane
  refine ite h ?_
  extract_lets s1 geo s2
  have h1 : s.Steady s1 := ite (h.phxRestart hn) h
  have h2 : s.Steady s2 := State.Steady.only (f := fun r => r.rangesFollow n) (((h1.onLane n _).tablesNow hn).boundaryTake hn) ((refl _).rangesFollow hn)
  exact ite (h2.ddcTake hn _ true) h2

end State.Steady

end Sys2Proof.Machine

/-! PROOFS. Holds, the watchdog, the supervisor's restarts and the steps of hibernate (O7). -/

namespace Sys2Proof.Machine

/-! ### The hold, the watchdog, lockstep and the clock monitor (R25, R36 to R38, R466 to R468) -/

theorem warmResetHoldEnd_after (s : State) (t : Nat) (ok : Bool) (hp : s.sys.power = .hold) (hdue : s.sys.powerAt + 1024 * 8 ≤ (s.begin t).now) :
    exec (.warmResetHoldEnd t ok) s = .next (s.after t (fun r => r.warmEnd ok)) :=
  always_only t s (fun r => r.sys.power = .hold && decide (r.sys.powerAt + 1024 * pclk ≤ r.now)) (fun r => r.warmEnd ok)
    (Bool.and_eq_true_iff.mpr ⟨decide_eq_true hp, decide_eq_true hdue⟩)

theorem watchdogRefresh_after (s : State) (t t0 : Nat) (hr : s.Runs) (hh : s.sys.hearth = true) (hw : s.sys.wdog = some t0) :
    exec (.watchdogRefresh t) s = .next (s.after t (fun r => { r with sys := { r.sys with wdog := some r.now } })) :=
  clocked_only t s (fun r => r.sys.hearth && r.sys.wdog.isSome) (fun r => { r with sys := { r.sys with wdog := some r.now } }) hr
    (Bool.and_eq_true_iff.mpr ⟨hh, Option.isSome_iff_exists.mpr ⟨t0, hw⟩⟩)

theorem watchdogExpiry_after (s : State) (t t0 : Nat) (hr : s.Runs) (hw : s.sys.wdog = some t0) (hdue : t0 + 12500000 ≤ (s.begin t).now) :
    exec (.watchdogExpiry t) s = .next (s.after t (fun r => (r.quenchTrip [(5, none)]).warmBegin 5)) := by
  have hw' : (s.begin t).sys.wdog = some t0 := hw
  dsimp only [exec]
  unfold execWatchdogExpiry
  refine clocked_after t s _ _ hr ?_
  simp only [hw']
  exact State.only_pos _ _ _ (decide_eq_true hdue)

theorem lockstepMismatch_after (s : State) (t : Nat) (hr : s.Runs) (hh : s.sys.hearth = true) :
    exec (.lockstepMismatch t) s = .next (s.after t (fun r =>
      ((({ r with sys := { r.sys with hearth := false, hearthRestarts := r.sys.hearthRestarts + 1 } }.setFld Fld.SYS_RSTCAUSE_CAUSE 0 6).setFlag
        Fld.SYS_RSTCAUSE_CLKFAIL 0 false).faultAt 0 0xFF 0x210 0 3))) := by
  dsimp only [exec]
  unfold execLockstepMismatch
  refine clocked_after t s _ _ hr ?_
  exact State.only_pos _ _ _ hh

theorem clockMonitorCheck_after (s : State) (t : Nat) (ppm : Int) (lol : Bool) (hr : s.Runs) (h : 1000 < ppm ∨ ppm < -1000 ∨ lol = true) :
    exec (.clockMonitorCheck t ppm lol) s = .next (s.after t State.clockFail) := by
  refine ticking_only t s (fun _ => decide (1000 < ppm) || decide (ppm < -1000) || lol) State.clockFail hr ?_
  simpa only [Bool.or_eq_true, decide_eq_true_eq, or_assoc] using h

/-! ### Hearth is back (R36, R37, R463) -/

/-- Hearth runs again, and the duties that fell due meanwhile are its own to run. -/
def State.hearthBack (s : State) : State := { s with sys := { s.sys with hearth := true, deferred := [] } }

theorem State.hearthServes_eq (s : State) (c : Prop) [Decidable c] (hc : c ↔ s.flag Fld.TWN_CTRL_EN 0 = false ∧ s.role ≠ 0) (ds : List (Nat × Nat)) (hd : s.sys.deferred = ds) :
    s.hearthServes = (if c then s.hearthBack.twinOff else s.hearthBack).mailboxTake.runDuties ds := by
  have hcond : (!s.flag Fld.TWN_CTRL_EN 0 && decide (s.role ≠ 0)) = decide c := by
    rw [Bool.eq_iff_iff, Bool.and_eq_true, Bool.not_eq_true', decide_eq_true_eq, decide_eq_true_eq, hc]
  have hrole : s.hearthBack.only (!s.flag Fld.TWN_CTRL_EN 0 && decide (s.role ≠ 0)) State.twinOff = if c then s.hearthBack.twinOff else s.hearthBack := by
    rw [hcond]
    by_cases h : c
    · rw [if_pos h, decide_eq_true h, State.only_true]
    · rw [if_neg h, decide_eq_false h, State.only_false]
  rw [State.hearthServes, ← hd]
  exact congrArg (fun r : State => r.mailboxTake.runDuties s.sys.deferred) hrole

theorem State.fld_stage_other (s : State) (k : Nat) (f : Fld) (n : Nat) (h : f.at n ≠ Fld.SYS_BOOTSTAGE_STAGE.at 0) : (s.stage k).fld f n = s.fld f n :=
  State.fld_of_live (State.live_stage_other s k _ h)

/-- RUN set at READY before the restart: the watchdog is armed and RUN shown. -/
def State.runArmed (s : State) : State := { s with sys := { s.sys with wdog := some s.now } }.stage 6

theorem State.hearthUp_running (s : State) (h : s.flag Fld.SYS_CTRL_RUN 0 = true) : s.hearthUp = s.runArmed.hearthServes := by
  simp only [State.hearthUp, h, if_true]
  rfl

theorem hearthRestartDone_after (s : State) (t : Nat) (hr : s.Runs) (hh : s.sys.hearth = false) (h3 : 3 ≤ s.fld Fld.SYS_BOOTSTAGE_STAGE 0)
    (h15 : s.fld Fld.SYS_BOOTSTAGE_STAGE 0 < 15) :
    exec (.hearthRestartDone t) s = .next (s.after t (fun r =>
        let r0 := if s.fld Fld.SYS_BOOTSTAGE_STAGE 0 = 5 ∧ s.flag Fld.SYS_CTRL_RUN 0 = true then r.runArmed else r
        (if s.flag Fld.TWN_CTRL_EN 0 = false ∧ s.role ≠ 0 then r0.hearthBack.twinOff else r0.hearthBack).mailboxTake.runDuties s.sys.deferred)) := by
  have hgo : (!(s.begin t).sys.hearth && decide (3 ≤ (s.begin t).fld Fld.SYS_BOOTSTAGE_STAGE 0) && decide ((s.begin t).fld Fld.SYS_BOOTSTAGE_STAGE 0 < 15)) = true := by
    rw [State.fld_begin, decide_eq_true h3, decide_eq_true h15, State.begin_sys, hh]
    rfl
  have hten : (s.begin t).runArmed.flag Fld.TWN_CTRL_EN 0 = s.flag Fld.TWN_CTRL_EN 0 := by
    simp only [State.flag, State.runArmed, State.fld_stage_other _ 6 Fld.TWN_CTRL_EN 0 (by decide)]
    rfl
  have hrole : (s.begin t).runArmed.role = s.role := State.fld_stage_other _ 6 Fld.TWN_STAT_ROLE 0 (by decide)
  dsimp only [exec]
  unfold execHearthRestartDone
  refine clocked_after t s _ _ hr ?_
  refine (State.only_pos _ _ _ hgo).trans ?_
  by_cases hrun : s.fld Fld.SYS_BOOTSTAGE_STAGE 0 = 5 ∧ s.flag Fld.SYS_CTRL_RUN 0 = true
  · have hup := State.hearthServes_eq (s.begin t).runArmed (s.flag Fld.TWN_CTRL_EN 0 = false ∧ s.role ≠ 0) (by rw [hten, hrole]) s.sys.deferred rfl
    have hb : (decide ((s.begin t).fld Fld.SYS_BOOTSTAGE_STAGE 0 = 5) && (s.begin t).flag Fld.SYS_CTRL_RUN 0) = true :=
      Bool.and_eq_true_iff.mpr ⟨decide_eq_true hrun.1, hrun.2⟩
    simp only [if_pos hrun]
    exact (if_pos hb).trans ((State.hearthUp_running (s.begin t) hrun.2).trans hup)
  · have hb : ¬ (decide ((s.begin t).fld Fld.SYS_BOOTSTAGE_STAGE 0 = 5) && (s.begin t).flag Fld.SYS_CTRL_RUN 0) = true := fun h => by
      obtain ⟨h1, h2⟩ := Bool.and_eq_true_iff.mp h
      exact hrun ⟨of_decide_eq_true h1, h2⟩
    simp only [if_neg hrun]
    refine (if_neg hb).trans ?_
    exact State.hearthServes_eq (s.begin t) _ Iff.rfl s.sys.deferred rfl

/-! ### Hibernate: sequencers and engines stop at once (R470) -/

theorem State.each_range_succ (s : State) (k : Nat) (f : Nat → State → State) : s.each (List.range (k + 1)) f = f k (s.each (List.range k) f) := by
  simp only [State.each, List.range_succ, List.foldl_append, List.foldl_cons, List.foldl_nil]

/-- A stall at a cell ends with the stop and is counted. -/
def State.stallEnded (s : State) (n : Nat) : State :=
  if (s.wick n).wait = .cell then (s.count Fld.WCK_STALL_CNT n (s.dev - (s.wick n).next)).setFlag Fld.WCK_Ln_STAT_CELLSTALL n false else s

/-- A sequencer stopped, before its lane settles. -/
def State.wickHalted (s : State) (n : Nat) : State := ((s.setWick n wsStopped).setLaneBit Fld.WCK_CTRL_RUN n false).onWick n (fun w => { w with wait := .none })

theorem State.wickStop_eq (s : State) (n : Nat) : s.wickStop n = ((s.stallEnded n).wickHalted n).settleLane n := rfl

/-- Where a sequencer's state is kept is where no other one's is. -/
theorem seqState_ne {n m : Nat} (h : m ≠ n) : Fld.WCK_Ln_STAT_STATE.at m ≠ Fld.WCK_Ln_STAT_STATE.at n := by
  simp only [Fld.at, Fld.WCK_Ln_STAT_STATE]
  omega

/-- A window-wide mask lies apart from the sequencers' states. -/
theorem State.live_setLaneBit_low (s : State) (f : Fld) (i k : Nat) (b : Bool) (hf : f.addr + f.stride * 16 < 0x64000) (hk : 0x64000 ≤ k) :
    (s.setLaneBit f i b).live k = s.live k :=
  State.live_setLive_other _ _ _ _ (fun h => by
    simp only [Fld.at] at h
    omega)

theorem State.live_setWick (s : State) (n st k : Nat) (hk : 0x64000 ≤ k) : (s.setWick n st).live k = (s.setFld Fld.WCK_Ln_STAT_STATE n st).live k :=
  (State.live_setLaneBit_low _ Fld.WCK_STAT_ERROR n k _ (by decide) hk).trans (State.live_setLaneBit_low _ Fld.WCK_STAT_RUNNING n k _ (by decide) hk)

theorem seqState_ge (m : Nat) : 0x64000 ≤ Fld.WCK_Ln_STAT_STATE.at m := by
  simp only [Fld.at, Fld.WCK_Ln_STAT_STATE]
  omega

/-- The stop writes the sequencer's state and masks of the window. -/
theorem State.live_wickHalted (s : State) (n k : Nat) (hk : 0x64000 ≤ k) : (s.wickHalted n).live k = (s.setFld Fld.WCK_Ln_STAT_STATE n wsStopped).live k :=
  (State.live_congr (State.onWick_regs ..) (State.onWick_fixed ..) k).trans
    ((State.live_setLaneBit_low (s.setWick n wsStopped) Fld.WCK_CTRL_RUN n k _ (by decide) hk).trans (State.live_setWick s n wsStopped k hk))

@[simp] theorem State.wickHalted_now (s : State) (n : Nat) : (s.wickHalted n).now = s.now := by simp [State.wickHalted, State.setWick]

@[simp] theorem State.wickHalted_fixed (s : State) (n : Nat) : (s.wickHalted n).fixed = s.fixed := by simp [State.wickHalted, State.setWick]

theorem State.wickHalted_own (s : State) (n : Nat) : (s.wickHalted n).wickOn n = false := by
  have hst : (s.wickHalted n).fld Fld.WCK_Ln_STAT_STATE n = 0 :=
    (State.fld_of_live (State.live_wickHalted s n _ (seqState_ge n))).trans (State.fld_setFld_same s Fld.WCK_Ln_STAT_STATE n wsStopped ⟨by decide, by decide⟩)
  simp [State.wickOn, hst, wsRunning, wsWaiting]

theorem State.stallEnded_seq (s : State) (n : Nat) (hn : n < 8) : (s.stallEnded n).now = s.now ∧ (s.stallEnded n).fixed = s.fixed
    ∧ ∀ m, m ≠ n → (s.stallEnded n).live (Fld.WCK_Ln_STAT_STATE.at m) = s.live (Fld.WCK_Ln_STAT_STATE.at m) := by
  unfold State.stallEnded
  split
  · refine ⟨by simp, by simp, fun m hm => (State.live_setFlag_other _ Fld.WCK_Ln_STAT_CELLSTALL n _ _ (seqState_ne hm)).trans (State.live_count_other _ _ _ _ _ ?_)⟩
    simp only [Fld.at, Fld.WCK_Ln_STAT_STATE, Fld.WCK_STALL_CNT]
    omega
  · exact ⟨rfl, rfl, fun _ _ => rfl⟩

/-- A stopped sequencer is off, whatever its lane then takes; every other one is as it was. -/
theorem State.wickStop_seq (s : State) (n : Nat) (hn : n < 8) : (s.wickStop n).now = s.now ∧ (s.wickStop n).fixed = s.fixed
    ∧ ∀ m, m < 8 → (s.wickStop n).wickOn m = if m = n then false else s.wickOn m := by
  obtain ⟨hnow, hfix, hlive⟩ := s.stallEnded_seq n hn
  have hsettle := (State.Steady.refl ((s.stallEnded n).wickHalted n)).settleLane hn
  rw [State.wickStop_eq]
  refine ⟨hsettle.now.trans ((State.wickHalted_now _ n).trans hnow), hsettle.fixed.trans ((State.wickHalted_fixed _ n).trans hfix), fun m hm => ?_⟩
  rw [State.wickOn_of_live (hsettle.seq m hm)]
  by_cases h : m = n
  · rw [if_pos h, h]
    exact (s.stallEnded n).wickHalted_own n
  · rw [if_neg h]
    exact State.wickOn_of_live ((State.live_wickHalted _ n _ (seqState_ge m)).trans ((State.live_setLive_other _ _ _ _ (seqState_ne h)).trans (hlive m h)))

/-- The sequencers of the first lanes stopped, one after the other. -/
theorem State.wicksStopped (s : State) (k : Nat) (hk : k ≤ 8) :
    let u := s.each (List.range k) (fun n r => r.wickStop n)
    u.now = s.now ∧ u.fixed = s.fixed ∧ ∀ n, n < k → u.wickOn n = false := by
  induction k with
  | zero => exact ⟨rfl, rfl, fun n hn => absurd hn (Nat.not_lt_zero n)⟩
  | succ k ih =>
    obtain ⟨hnow, hfix, hoff⟩ := ih (by omega)
    intro u
    have hu : u = (s.each (List.range k) (fun n r => r.wickStop n)).wickStop k := State.each_range_succ s k _
    obtain ⟨hnow', hfix', hoff'⟩ := (s.each (List.range k) (fun n r => r.wickStop n)).wickStop_seq k (by omega)
    rw [hu]
    refine ⟨hnow'.trans hnow, hfix'.trans hfix, fun n hn => ?_⟩
    rw [hoff' n (by omega)]
    split
    · rfl
    next h => exact hoff n (by omega)

/-- An engine as hibernate leaves it. -/
def Engine.hibHalted (x : Engine) : Engine := { x with run := false, st := .halted }

/-- The first engines halted, one after the other. -/
theorem State.enginesHalted (s : State) (k : Nat) (hk : k ≤ 8) :
    let u := s.each (List.range k) (fun e r => r.onEngine e Engine.hibHalted)
    u.now = s.now ∧ u.fixed = s.fixed ∧ u.regs = s.regs ∧ ∀ e, e < k → (u.engine e).st = .halted ∧ (u.engine e).run = false := by
  induction k with
  | zero => exact ⟨rfl, rfl, rfl, fun e he => absurd he (Nat.not_lt_zero e)⟩
  | succ k ih =>
    obtain ⟨hnow, hfix, hregs, hhalt⟩ := ih (by omega)
    intro u
    have hu : u = (s.each (List.range k) (fun e r => r.onEngine e Engine.hibHalted)).onEngine k
        Engine.hibHalted := State.each_range_succ s k _
    rw [hu]
    refine ⟨hnow, hfix, hregs, fun e he => ?_⟩
    rw [State.engine_onEngine _ k e _ (by omega)]
    split
    · exact ⟨rfl, rfl⟩
    next h => exact hhalt e (by omega)

/-- Every sequencer stopped, then every engine. -/
def State.hibStopped (s : State) : State :=
  (s.each (List.range s.lanes) (fun n r => r.wickStop n)).each (List.range s.lanes) (fun e r => r.onEngine e Engine.hibHalted)

theorem State.hibStopped_rest (s : State) : s.hibStopped.now = s.now ∧ s.hibStopped.fixed = s.fixed
    ∧ (∀ e, e < s.lanes → (s.hibStopped.engine e).st = .halted ∧ (s.hibStopped.engine e).run = false) ∧ ∀ n, n < s.lanes → s.hibStopped.wickOn n = false := by
  obtain ⟨hnow, hfix, hoff⟩ := s.wicksStopped s.lanes s.lanes_le
  obtain ⟨hnow', hfix', hregs', hhalt⟩ := (s.each (List.range s.lanes) (fun n r => r.wickStop n)).enginesHalted s.lanes s.lanes_le
  exact ⟨hnow'.trans hnow, hfix'.trans hfix, hhalt, fun n hn => (State.wickOn_of_live (State.live_congr hregs' hfix' _)).trans (hoff n hn)⟩

/-- With Crucible empty the second step waits for a moment within 2 ms. -/
def State.hibWaits (s : State) (wake : Bool) : State :=
  let s2 := { s with cru := { State.reset.cru with kept := s.cru.kept } }.drawn
  { s2 with sys := { s2.sys with hibDue := some (s2.now + s.freeVal 1562000, wake) } }

theorem State.hibernate_eq (s : State) (src : Source) (wake : Bool) (hm : s.mayHibernate = true) (hd : s.sys.hibDue = none) :
    s.hibernate src 1 wake = s.hibStopped.hibWaits wake := by
  unfold State.hibernate
  rw [if_neg (by decide), if_neg (by rw [hm]; decide), if_neg (by rw [hd]; decide)]
  rfl

theorem State.hibWaits_rest (s : State) (wake : Bool) : ∃ d, d < 1562000 ∧ (s.hibWaits wake).sys.hibDue = some (s.now + d, wake) ∧ (s.hibWaits wake).fixed = s.fixed
    ∧ (s.hibWaits wake).eng = s.eng ∧ (s.hibWaits wake).regs = s.regs :=
  ⟨s.freeVal 1562000, Nat.mod_lt _ (by decide), rfl, rfl, rfl, rfl⟩

/-- Hibernate, where it applies, stops sequencers and engines at once and sets its second step at a moment within 2 ms. -/
theorem State.hibernate_stops (s : State) (src : Source) (wake : Bool) (hm : s.mayHibernate = true) (hd : s.sys.hibDue = none) (u : State)
    (hu : s.hibernate src 1 wake = u) : ∃ d, d < 1562000 ∧ u.sys.hibDue = some (s.now + d, wake) ∧ u.fixed = s.fixed
      ∧ (∀ e, e < s.lanes → (u.engine e).st = .halted ∧ (u.engine e).run = false) ∧ ∀ n, n < s.lanes → u.wickOn n = false := by
  rw [State.hibernate_eq s src wake hm hd] at hu
  subst hu
  obtain ⟨hnow, hfix, hhalt, hoff⟩ := s.hibStopped_rest
  obtain ⟨d, hd, hdue, hfix', heng, hregs⟩ := s.hibStopped.hibWaits_rest wake
  refine ⟨d, hd, hdue.trans (by rw [hnow]), hfix'.trans hfix, fun e he => ?_, fun n hn => (State.wickOn_of_live (State.live_congr hregs hfix' _)).trans (hoff n hn)⟩
  simpa only [State.engine, heng] using hhalt e he

theorem hibernate_after (s : State) (t : Nat) (src : Source) (wake : Bool) (hr : s.Runs) (hp : s.PairFree 0) (ha : (s.begin t).Admits src Fld.SYS_HIBCTRL_GO.addr) :
    exec (.hibernate t src wake) s = .next (s.after t (fun r => r.hibernate src 1 wake)) := by
  dsimp only [exec]
  unfold execHibernate
  refine ticking_after t s _ _ hr ?_
  exact (State.pairWhole_free (s.begin t) src Fld.SYS_HIBCTRL_GO.addr _ hp).trans (State.admit_of (s.begin t) src Fld.SYS_HIBCTRL_GO.addr 1 _ ha)

/-- While the second step is due, QUE refuses every submission. -/
theorem State.checkSubmit_hibernating (s : State) (q : Nat) (p : Producer) (img : List Byte) (h : s.sys.hibDue.isSome = true) : s.checkSubmit q p img = some resNotPerm := by
  unfold State.checkSubmit
  exact if_pos (by rw [h, Bool.or_true])

theorem hibernate_begins (s : State) (t : Nat) (src : Source) (wake : Bool) (hr : s.Runs) (hp : s.PairFree 0) (ha : (s.begin t).Admits src Fld.SYS_HIBCTRL_GO.addr)
    (hm : s.mayHibernate = true) (hnone : s.sys.hibDue = none) :
    ∃ u due, exec (.hibernate t src wake) s = .next u ∧ u.sys.hibDue = some (due, wake) ∧ u.now ≤ due ∧ due ≤ u.now + 1562500
      ∧ (∀ e, e < s.lanes → (u.engine e).st = .halted ∧ (u.engine e).run = false) ∧ (∀ n, n < s.lanes → u.wickOn n = false)
      ∧ (∀ q p img, u.checkSubmit q p img = some resNotPerm) := by
  obtain ⟨d, hd, hdue, hfix, hhalt, hoff⟩ := (s.begin t).hibernate_stops src wake hm hnone _ rfl
  have hdue' : (s.after t (fun r => r.hibernate src 1 wake)).sys.hibDue = some ((s.begin t).now + d, wake) := hdue
  have hnow : (s.after t (fun r => r.hibernate src 1 wake)).now = (s.begin t).now := rfl
  refine ⟨_, (s.begin t).now + d, hibernate_after s t src wake hr hp ha, hdue', ?_, ?_, hhalt, fun n hn => ?_, fun q p img => ?_⟩
  · rw [hnow]
    omega
  · rw [hnow]
    omega
  · exact (State.wickOn_of_live (State.live_after s t _ (fun r => r.hibernate src 1 wake) hfix)).trans (hoff n hn)
  · exact State.checkSubmit_hibernating _ q p img (by rw [hdue']; rfl)

theorem hibernate_refused (s : State) (t : Nat) (src : Source) (wake : Bool) (hr : s.Runs) (hp : s.PairFree 0) (ha : (s.begin t).Admits src Fld.SYS_HIBCTRL_GO.addr)
    (hm : s.mayHibernate = false) : exec (.hibernate t src wake) s = .next (s.after t (fun r => r.clamp src Fld.SYS_HIBCTRL_GO.addr 1 0 rsState 0 0)) := by
  have hm' : (s.begin t).mayHibernate = false := hm
  have he : (s.begin t).hibernate src 1 wake = (s.begin t).clamp src Fld.SYS_HIBCTRL_GO.addr 1 0 rsState 0 0 := by
    unfold State.hibernate
    rw [if_neg (by decide), if_pos (by rw [hm']; rfl)]
  rw [hibernate_after s t src wake hr hp ha, State.after, State.after, he]

/-! ### Hibernate: rails and gates at the samples of the feeds (R408, R470) -/

@[simp] theorem State.pwrShow_now (s : State) : s.pwrShow.now = s.now := by simp [State.pwrShow]

@[simp] theorem State.gateOff_now (s : State) (b : Bool) : (s.gateOff b).now = s.now := by simp [State.gateOff]

@[simp] theorem State.feedRelease_now (s : State) (b : Bool) : (s.feedRelease b).now = s.now := by simp [State.feedRelease]

@[simp] theorem State.feedAcquire_now (s : State) (b : Bool) : (s.feedAcquire b).now = s.now := by simp [State.feedAcquire]

@[simp] theorem State.acquireAtPower_now (s : State) : s.acquireAtPower.now = s.now := by
  unfold State.acquireAtPower
  split <;> simp

@[simp] theorem State.keptCheck_now (s : State) : s.keptCheck.now = s.now := by
  unfold State.keptCheck
  split
  · split <;> simp
  · rfl

@[simp] theorem State.dipSample_now (s : State) (b : Bool) : (s.dipSample b).now = s.now := by
  unfold State.dipSample
  dsimp only
  (repeat' split) <;> simp

@[simp] theorem State.sagSample_now (s : State) : s.sagSample.now = s.now := by
  unfold State.sagSample
  split
  · rfl
  · dsimp only
    (repeat' split) <;> simp

/-- A sample of the feeds takes no time. -/
theorem State.feedSample_now (s : State) (a b : Nat) : (s.feedSample a b).now = s.now := by
  unfold State.feedSample
  split <;> simp [State.sampleFeed]

/-- The second step of hibernate is due at a sample. -/
theorem feedSample_enters (s : State) (t a b due : Nat) (wake : Bool) (hd : ((s.begin t).feedSample a b).sys.hibDue = some (due, wake)) (hdue : due ≤ (s.begin t).now) :
    exec (.feedSample t a b) s = .next (s.after t (fun r => (r.feedSample a b).hibEnter wake)) := by
  have hnow := (s.begin t).feedSample_now a b
  have htick (r : State) (hr : r.sys.hibDue = some (due, wake)) (hle : due ≤ r.now) : r.hibTick = r.hibEnter wake := by
    simp only [State.hibTick, hr]
    exact State.only_pos _ _ _ (decide_eq_true hle)
  dsimp only [exec]
  unfold execFeedSample
  exact always_after t s _ _ (htick _ hd (by rw [hnow]; exact hdue))

/-- The rails go down, and the gates 10 ms later. -/
theorem State.hibEnter_down (s : State) : (s.hibEnter false).sys.power = .hib ∧ (s.hibEnter false).pwr.pwrEn = false
    ∧ (s.hibEnter false).pwr.gatesOff = some (s.now + 7812500) := by
  obtain ⟨hpow, hpwr, -⟩ := State.powerLost_rest { s with pwr := { s.pwr with pwrEn := false, gatesOff := some (s.now + 7812500) } } .hib
    (s.fld Fld.SYS_RSTCAUSE_CAUSE 0)
  have he : s.hibEnter false = { s with pwr := { s.pwr with pwrEn := false, gatesOff := some (s.now + 7812500) } }.powerLost .hib (s.fld Fld.SYS_RSTCAUSE_CAUSE 0) := by
    simp only [State.hibEnter, Bool.false_eq_true, if_false]
  rw [he]
  exact ⟨hpow, congrArg Pwr.pwrEn hpwr, congrArg Pwr.gatesOff hpwr⟩

/-- The third step is due at a sample while the device hibernates. -/
theorem feedSample_gates (s : State) (t a b due : Nat) (hp : s.sys.power = .hib) (hd : s.sys.hibDue = none) (hg : s.pwr.gatesOff = some due)
    (hdue : due ≤ (s.begin t).now) : ∃ u, exec (.feedSample t a b) s = .next u ∧ u.pwr.a.gate = false ∧ u.pwr.b.gate = false ∧ u.pwr.gatesOff = none := by
  have hsame : (s.begin t).feedSample a b = s.begin t := by
    have hp' : (s.begin t).sys.power = .hib := hp
    simp only [State.feedSample, hp']
  have htick : (s.begin t).hibTick = (s.begin t).hibGates := by
    have hd' : (s.begin t).sys.hibDue = none := hd
    have hg' : (s.begin t).pwr.gatesOff = some due := hg
    simp only [State.hibTick, hd', hg']
    exact State.only_pos _ _ _ (decide_eq_true hdue)
  have he : exec (.feedSample t a b) s = .next (s.after t State.hibGates) := by
    dsimp only [exec]
    unfold execFeedSample
    exact always_after t s _ _ ((congrArg State.hibTick hsame).trans htick)
  exact ⟨_, he, rfl, rfl, rfl⟩

/-- Settles O7: each step at its moment; the stop of sequencers and engines goes through all that their lanes then take. -/
theorem holdsAndSupervisor : Obligations.HoldsAndSupervisor :=
  ⟨warmResetHoldEnd_after, watchdogRefresh_after, watchdogExpiry_after, lockstepMismatch_after, hearthRestartDone_after, clockMonitorCheck_after,
    fun s t src wake hr hp ha => ⟨hibernate_begins s t src wake hr hp ha, hibernate_refused s t src wake hr hp ha⟩,
    fun s t a b due wake => by
      obtain ⟨hpow, hen, hgates⟩ := s.hibEnter_down
      exact ⟨feedSample_enters s t a b due wake, hpow, hen, hgates, rfl, feedSample_gates s t a b due⟩⟩

end Sys2Proof.Machine

/-! PROOFS. Enabling emission, and the guarded commands of Lantern (O31). -/

namespace Sys2Proof.Machine

/-! ### Pairs written whole -/

/-- A pair that nothing holds back and no lock turns away takes effect. -/
theorem State.pairWhole_admitted (s : State) (src : Source) (a : Nat) (v : Word) (f : State → State) (hp : s.PairFree (a / 0x10000)) (ha : s.Admits src a) :
    s.pairWhole src a (fun r => r.pastLocks src a v f) = f s :=
  (s.pairWhole_free src a _ hp).trans (s.admit_of src a v f ha)

/-! ### The start of a clear check (R93) -/

theorem State.laneOf_congr {s u : State} (h : u.lan = s.lan) (n : Nat) : u.laneOf n = s.laneOf n := by simp only [State.laneOf, h]

theorem State.quenchedLanes_congr {s u : State} (hf : u.fixed = s.fixed) (hl : u.lan = s.lan) : u.quenchedLanes = s.quenchedLanes := by
  have hlanes : u.lanes = s.lanes := by simp only [State.lanes, hf]
  rw [State.quenchedLanes, State.quenchedLanes, hlanes]
  exact List.filter_congr (fun n _ => by rw [State.laneOf_congr hl])

/-- BUSY shows and FAIL does not. -/
def State.clearBegun (s : State) : State := (s.setFlag Fld.LAN_STAT_QCLR_BUSY 0 true).setFlag Fld.LAN_STAT_QCLR_FAIL 0 false

/-- The check watches the lanes and the conditions that it finds, and samples those lanes' strings afresh. -/
def State.startClear (s : State) : State :=
  ({ s with lan := { s.lan with clearAt := some s.dev, clearLanes := s.quenchedLanes, clearBad := s.clearConditions } }).each s.quenchedLanes
    (fun n r => r.startSampling n)

theorem State.clearBegun_lan (s : State) : s.clearBegun.lan = s.lan := by simp [State.clearBegun]
theorem State.clearBegun_sys (s : State) : s.clearBegun.sys = s.sys := by simp [State.clearBegun]
theorem State.clearBegun_now (s : State) : s.clearBegun.now = s.now := by simp [State.clearBegun]
theorem State.clearBegun_fixed (s : State) : s.clearBegun.fixed = s.fixed := by simp [State.clearBegun]

theorem State.live_clearBegun (s : State) (k : Nat) (h : k ≠ Fld.LAN_STAT_QCLR_BUSY.at 0) : s.clearBegun.live k = s.live k :=
  (State.live_setFlag_other _ Fld.LAN_STAT_QCLR_FAIL 0 k _ h).trans (State.live_setFlag_other s _ 0 k _ h)

/-- What shows the check is no condition of it. -/
theorem State.clearConditions_clearBegun (s : State) : s.clearBegun.clearConditions = s.clearConditions := by
  have hfld (f : Fld) (h : f.at 0 ≠ Fld.LAN_STAT_QCLR_BUSY.at 0) : s.clearBegun.fld f 0 = s.fld f 0 := State.fld_of_live (s.live_clearBegun _ h)
  simp only [State.clearConditions, hfld Fld.SYS_CRC_CTRL_ACTION (by decide), hfld Fld.SYS_CRC_LIVE_CRC (by decide), hfld Fld.SYS_CRC_REF_REF (by decide),
    s.clearBegun_sys, s.clearBegun_now]

theorem State.quenchClear_eq (s : State) (src : Source) : s.quenchClear src =
    if s.lan.clearAt.isSome ∨ s.anyQuenched = false then s.clamp src Fld.LAN_QCLR_CLR.addr 1 0 rsState 0 0 else s.clearBegun.startClear := by
  have hdev : s.clearBegun.dev = s.dev := by simp only [State.dev, s.clearBegun_now, s.clearBegun_sys]
  have hlanes : s.clearBegun.quenchedLanes = s.quenchedLanes := State.quenchedLanes_congr s.clearBegun_fixed s.clearBegun_lan
  rw [State.startClear, s.clearConditions_clearBegun, hlanes, hdev]
  unfold State.quenchClear State.clearBegun
  exact if_congr (by simp) rfl rfl

section Pairs

variable (s : State) (t : Nat) (src : Source) (mask : Nat) (hr : s.Runs) (hp : s.PairFree 1)
include hr hp

theorem emitEnable_after (ha : (s.begin t).Admits src Fld.LAN_CTRL_EMIT_EN.addr) :
    exec (.emitEnable t src mask) s = .next (s.after t (fun r => r.emitWrite src (BitVec.ofNat 32 ((s.fld Fld.LAN_CTRL_EMIT_EN 0 ||| mask) % 256)))) := by
  dsimp only [exec]
  unfold execEmitEnable
  exact ticking_after t s _ _ hr (State.pairWhole_admitted (s.begin t) src Fld.LAN_CTRL_EMIT_EN.addr _ _ hp ha)

theorem emitDisable_after (ha : (s.begin t).Admits src Fld.LAN_CTRL_EMIT_EN.addr) :
    exec (.emitDisable t src mask) s = .next (s.after t (fun r => r.emitWrite src (BitVec.ofNat 32 (s.fld Fld.LAN_CTRL_EMIT_EN 0 &&& (255 - mask % 256))))) := by
  dsimp only [exec]
  unfold execEmitDisable
  exact ticking_after t s _ _ hr (State.pairWhole_admitted (s.begin t) src Fld.LAN_CTRL_EMIT_EN.addr _ _ hp ha)

theorem qforce_after (ha : (s.begin t).Admits src Fld.LAN_CTRL_EMIT_EN.addr) :
    exec (.qforce t src) s = .next (s.after t (fun r => r.quenchTrip [(7, none)])) := by
  dsimp only [exec]
  unfold execQforce
  exact ticking_after t s _ _ hr (State.pairWhole_admitted (s.begin t) src Fld.LAN_CTRL_QFORCE.addr _ _ hp ha)

/-- The bit CLR is turned away during a clear check and with no lane QUENCHED, and starts a clear check otherwise (R93). -/
theorem quenchClear_after (ha : (s.begin t).Admits src Fld.LAN_QCLR_CLR.addr) :
    exec (.quenchClear t src) s = .next (s.after t (fun r =>
      if s.lan.clearAt.isSome ∨ s.anyQuenched = false then r.clamp src Fld.LAN_QCLR_CLR.addr 1 0 rsState 0 0 else r.clearBegun.startClear)) := by
  dsimp only [exec]
  unfold execQuenchClear
  refine ticking_after t s _ _ hr ((State.pairWhole_admitted (s.begin t) src Fld.LAN_QCLR_CLR.addr _ _ hp ha).trans ?_)
  exact State.quenchClear_eq (s.begin t) src

end Pairs

/-! ### One lane (R81) -/

theorem State.laneOf_onLane (s : State) (n : Nat) (f : Lane → Lane) (hn : n < 8) : (s.onLane n f).laneOf n = f (s.laneOf n) := by
  simp [State.laneOf, State.onLane, Vector.getD, hn]

theorem State.cmShow_lan (s : State) (n : Nat) : (s.cmShow n).lan = s.lan := by simp [State.cmShow, State.each]

theorem State.clearFault_lan (s : State) (n : Nat) : (s.clearFault n).lan = s.lan := by simp [State.clearFault]

/-- A lane that enters a state is in it from now on; what shows it is in registers. -/
theorem State.laneOf_enterLane (s : State) (n : Nat) (st : LaneSt) (hn : n < 8) : (s.enterLane n st).laneOf n = { s.laneOf n with st := st, since := s.dev } := by
  rw [State.enterLane, State.laneOf_congr (State.cmShow_lan ..), State.laneOf_congr (State.setLaneBit_lan ..), State.laneOf_congr (State.setLaneBit_lan ..),
    s.laneOf_onLane n _ hn]

theorem State.laneOf_startSampling (s : State) (n : Nat) (hn : n < 8) :
    (s.startSampling n).laneOf n = { s.laneOf n with passA := 0, passB := 0, kindA := 0, kindB := 0, monHi := 0 } := by
  rw [State.startSampling, State.laneOf_congr (State.setFld_lan ..), State.laneOf_congr (State.setFld_lan ..), s.laneOf_onLane n _ hn]

/-- An OFF lane that is enabled is in CHECK, its samples counted from here. -/
theorem State.enableLane_off (s : State) (n : Nat) (hn : n < 8) (hoff : (s.laneOf n).st = .off) :
    ((s.enableLane n).laneOf n).st = .check ∧ ((s.enableLane n).laneOf n).passA = 0 ∧ ((s.enableLane n).laneOf n).passB = 0 := by
  rw [State.enableLane, if_pos hoff, State.laneOf_startSampling _ n hn, State.laneOf_enterLane _ n _ hn]
  exact ⟨rfl, rfl, rfl⟩

/-! ### A write of EMIT_EN (R82) -/

/-- The lowest bits of a word that has no others. -/
theorem bitsOf_low (hi : Nat) (w : Word) (h : w.toNat < 2 ^ (hi + 1)) : bitsOf hi 0 w = w.toNat := by
  rw [bitsOf, Nat.pow_zero, Nat.div_one]
  exact Nat.mod_eq_of_lt h

theorem bit_zero (n : Nat) : bit 0 n = false := by simp [bit]

/-- A number below 2^k other than 0 has a bit below k. -/
theorem exists_bit (v k : Nat) (hv : v < 2 ^ k) (h0 : v ≠ 0) : ∃ n, n < k ∧ bit v n = true := by
  obtain ⟨n, hn⟩ := Nat.exists_testBit_of_ne_zero h0
  refine ⟨n, (Nat.pow_lt_pow_iff_right (by decide)).mp ((Nat.ge_two_pow_of_testBit hn).trans_lt hv), ?_⟩
  rwa [Nat.testBit_eq_decide_div_mod_eq] at hn

theorem State.each_nil (s : State) (f : Nat → State → State) : s.each [] f = s := (rfl)

/-- Where something is asked for and nothing may be had, nothing asked for may be had, and not all that is asked for. -/
theorem filter_none (ns : List Nat) (asked may : Nat → Bool) (k : Nat) (hk : k ∈ ns) (hasked : asked k = true) (hno : ∀ n ∈ ns, may n = false) :
    (ns.filter asked).filter may = [] ∧ (ns.filter asked).all may = false := by
  refine ⟨List.filter_eq_nil_iff.mpr (fun n hn => ?_), List.all_eq_false.mpr ⟨k, List.mem_filter.mpr ⟨hk, hasked⟩, ?_⟩⟩
  · rw [hno n (List.mem_filter.mp hn).1]
    decide
  · rw [hno k hk]
    decide

/-- A write that asks for lanes of the part alone, none of which may be enabled, enables none and is reported. -/
theorem State.emitWrite_refused (s : State) (src : Source) (v : Word) (hv : v.toNat < 2 ^ s.lanes) (hold : s.fld Fld.LAN_CTRL_EMIT_EN 0 = 0) (h0 : v ≠ 0)
    (hno : ∀ n, n < 8 → (s.flag Fld.LAN_STAT_HSC_READY 0 && decide ((s.laneOf n).st ≠ .quenched)) = false) :
    s.emitWrite src v = s.clamp src Fld.LAN_CTRL_EMIT_EN.addr v (s.live Fld.LAN_CTRL_EMIT_EN.addr) rsState 0 7 := by
  have hlow : bitsOf 7 0 v = v.toNat := bitsOf_low 7 v (hv.trans_le (Nat.pow_le_pow_right (by decide) s.lanes_le))
  obtain ⟨k, hk, hbit⟩ := exists_bit v.toNat s.lanes hv (fun h => h0 (BitVec.eq_of_toNat_eq h))
  have hclear : (List.range s.lanes).filter (fun n => !bit v.toNat n && bit 0 n) = [] := by simp [bit_zero]
  obtain ⟨hset, hall⟩ := filter_none (List.range s.lanes) (fun n => bit v.toNat n && !bit 0 n)
    (fun n => s.flag Fld.LAN_STAT_HSC_READY 0 && decide ((s.laneOf n).st ≠ .quenched)) k (List.mem_range.mpr hk) (by simp only [hbit, bit_zero]; rfl)
    (fun n hn => hno n ((List.mem_range.mp hn).trans_le s.lanes_le))
  simp only [State.emitWrite, hlow, hold, hclear, hset, hall, State.each_nil, Nat.not_le.mpr hv, if_false, Bool.not_false, if_true]

/-- Settles O31: each pair is the write of its register, and that write asks each lane's state. -/
theorem emissionIsGated : Obligations.EmissionIsGated := by
  unfold Obligations.EmissionIsGated
  refine ⟨fun s t src mask hr hp => ⟨fun ha => ⟨emitEnable_after s t src mask hr hp ha, emitDisable_after s t src mask hr hp ha, qforce_after s t src hr hp ha⟩,
    quenchClear_after s t src hr hp⟩, State.enableLane_off, fun s src v hv hold h0 hno => s.emitWrite_refused src v hv hold h0 (fun n hn => ?_)⟩
  rcases hno with hready | hquenched
  · rw [hready, Bool.false_and]
  · rw [hquenched n hn, decide_eq_false (fun h => h rfl), Bool.and_false]

end Sys2Proof.Machine

/-! PROOFS. The end of a clear check (O33). -/

namespace Sys2Proof.Machine

/-- A clear check passes with no cause left and every string's samples taken. -/
theorem State.quenchClearEnd_eq (s : State) : s.quenchClearEnd =
    let m := s.lan.clearBad ||| s.clearConditions ||| s.clearStrings.1
    if m = 0 ∧ s.clearStrings.2 = true then
      let r1 := s.each s.quenchedLanes (fun n r => r.enterLane n .off)
      let r2 := r1.each (List.range s.lanes) (fun n r => r.clearFault n)
      ((({ r2 with lan := { r2.lan with clearAt := none, clearLanes := [], clearBad := 0, latch := none } }.setFlag Fld.LAN_STAT_QCLR_BUSY 0 false).setLive
        Fld.LAN_QCAUSE_FIRST.addr 0).setFld Fld.LAN_QTIME_LO_LO 0 0).setFld Fld.LAN_QTIME_HI_HI 0 0
    else s.clearFails m := by
  unfold State.quenchClearEnd
  exact if_congr (by simp) rfl rfl

/-- Settles O33: the check ends once its time is over, and its end asks for the causes and the strings' samples. -/
theorem quenchClears : Obligations.QuenchClears := by
  unfold Obligations.QuenchClears
  intro s t t0 hr hat hdue
  have hat' : (s.begin t).lan.clearAt = some t0 := hat
  dsimp only [exec]
  unfold execQclrCheckEnd
  refine ticking_after t s _ _ hr ?_
  simp only [hat']
  exact (State.only_pos _ _ _ (decide_eq_true hdue)).trans (s.begin t).quenchClearEnd_eq

end Sys2Proof.Machine

/-! PROOFS. String B's pulse, the chirp tables' copy, and a launch at its release tick (O34). -/

namespace Sys2Proof.Machine

/-! ### String B's pulse (R65, R66, R70, R84) -/

/-- Two changes of a lane that make the same of it as it stands. -/
theorem State.onLane_congr (s : State) (n : Nat) (f g : Lane → Lane) (h : f (s.laneOf n) = g (s.laneOf n)) : s.onLane n f = s.onLane n g := by
  simp only [State.onLane, h]

/-- A booster phase at its edge. -/
theorem boostEdge_reached (s : State) (t n : Nat) (hn : n < s.lanes) (b : BoostPhase) (hb : (s.laneOf n).boost = b) (hedge : (s.laneOf n).edge ≤ (s.begin t).dev) :
    (decide (n < (s.begin t).lanes) && decide (((s.begin t).laneOf n).boost = b) && decide (((s.begin t).laneOf n).edge ≤ (s.begin t).dev)) = true := by
  simp only [Bool.and_eq_true, decide_eq_true_eq]
  exact ⟨⟨hn, hb⟩, hedge⟩

section Booster

variable (s : State) (t n : Nat) (hr : s.Runs) (hn : n < s.lanes)
include hr hn

theorem boosterLead_after (e : Nat) (hst : (s.laneOf n).st = .emitting) (hkeep : (s.laneOf n).boost = .keep) (hpulse : (s.laneOf n).pulse = some e)
    (hdue : e ≤ (s.begin t).dev + 8 * s.fld Fld.LAN_Ln_STRB_LEAD n) :
    exec (.boosterLead t n) s = .next (s.after t (fun r => r.onLane n (fun l =>
      { l with boost := .lead, edge := e, divFrom := r.dev, divTo := none, peak := s.fld Fld.LAN_Ln_MON_IAPP n, pulse := none }))) := by
  have hlead : (s.begin t).boosterLead n = (s.begin t).leadStart n e false := by
    have hst' : ((s.begin t).laneOf n).st = .emitting := hst
    have hkeep' : ((s.begin t).laneOf n).boost = .keep := hkeep
    have hpulse' : ((s.begin t).laneOf n).pulse = some e := hpulse
    simp only [State.boosterLead, hst', hkeep', hpulse']
    exact if_pos hdue
  dsimp only [exec]
  unfold execBoosterLead
  refine ticking_after t s _ _ hr ((State.only_pos _ _ _ (decide_eq_true hn)).trans (hlead.trans (State.onLane_congr _ _ _ _ ?_)))
  have hkeep' : ((s.begin t).laneOf n).boost = .keep := hkeep
  simp only [hkeep', if_true, Bool.or_false, Bool.false_eq_true, if_false, State.fld_begin]

theorem boosterPulseStart_after (ua : Nat) (hlead : (s.laneOf n).boost = .lead) (hedge : (s.laneOf n).edge ≤ (s.begin t).dev) :
    exec (.boosterPulseStart t n ua) s = .next (s.after t (fun r =>
      (if s.dummy n = false ∧ 10 * ua < 9000 * (s.laneOf n).peak then
        r.setFld Fld.LAN_Ln_FAULT_LATE n (min 15 (r.fld Fld.LAN_Ln_FAULT_LATE n + 1)) else r).onLane n (fun l =>
          { l with boost := .pulse, divTo := some l.edge, edge := l.edge + r.fld Fld.LAN_Ln_PULSE_WIDTH n }))) := by
  dsimp only [exec]
  unfold execBoosterPulseStart
  refine ticking_after t s _ _ hr ((State.only_pos _ _ _ (boostEdge_reached s t n hn .lead hlead hedge)).trans ?_)
  refine congrArg (fun u : State => u.onLane n (fun l =>
    { l with boost := .pulse, divTo := some l.edge, edge := l.edge + (s.begin t).fld Fld.LAN_Ln_PULSE_WIDTH n })) (if_congr ?_ rfl rfl)
  simp only [Bool.and_eq_true, Bool.not_eq_true', decide_eq_true_eq]
  exact Iff.rfl

theorem boosterPulseEnd_after (hpulse : (s.laneOf n).boost = .pulse) (hedge : (s.laneOf n).edge ≤ (s.begin t).dev) :
    exec (.boosterPulseEnd t n) s = .next (s.after t (fun r =>
      r.onLane n (fun l => { l with boost := .tail, divFrom := l.edge, divTo := none, edge := l.edge + 8 * r.fld Fld.LAN_Ln_STRB_LEAD n }))) := by
  dsimp only [exec]
  unfold execBoosterPulseEnd
  exact ticking_after t s _ _ hr (State.only_pos _ _ _ (boostEdge_reached s t n hn .pulse hpulse hedge))

theorem boosterTailEnd_after (htail : (s.laneOf n).boost = .tail) (hedge : (s.laneOf n).edge ≤ (s.begin t).dev) :
    exec (.boosterTailEnd t n) s = .next (s.after t (fun r => r.onLane n (fun l => { l with boost := .keep, divTo := some l.edge }))) := by
  dsimp only [exec]
  unfold execBoosterTailEnd
  exact ticking_after t s _ _ hr (State.only_pos _ _ _ (boostEdge_reached s t n hn .tail htail hedge))

/-! ### Chirp tables and launches (R49, R75, R77) -/

theorem tableCopybackDone_after : exec (.tableCopybackDone t n) s = .next (s.after t (fun r =>
    (r.onLane n (fun l => { l with tblCopy := l.tblCopy.filter (fun c => r.dev < c.2) })).tblStat n)) := by
  dsimp only [exec]
  unfold execTableCopybackDone
  exact ticking_after t s _ _ hr (State.only_pos _ _ _ (decide_eq_true hn))

theorem launchRelease_after (c : Cell) (hc : dueCell (s.begin t).dev (s.laneOf n).cells = some c) :
    exec (.launchRelease t n) s = .next (s.after t (fun r => r.launch n c)) := by
  have hc' : dueCell (s.begin t).dev ((s.begin t).laneOf n).cells = some c := hc
  dsimp only [exec]
  unfold execLaunchRelease
  refine ticking_after t s _ _ hr ?_
  simp only [hc']
  exact State.only_pos _ _ _ (decide_eq_true hn)

end Booster

/-- The request that is due is the first of the least release among those whose tick has come. -/
theorem dueCell_eq_argmin (dev : Nat) (cells : List Cell) : dueCell dev cells = (cells.filter (fun c => c.rel ≤ dev)).argmin Cell.rel := by
  unfold dueCell List.argmin
  refine congrArg (fun f => (cells.filter (fun c => c.rel ≤ dev)).foldl f none) (funext₂ fun best c => ?_)
  cases best <;> rfl

theorem dueCell_first (dev : Nat) (cells : List Cell) (c : Cell) (h : dueCell dev cells = some c) :
    c ∈ cells ∧ c.rel ≤ dev ∧ ∀ d, d ∈ cells → d.rel ≤ dev → c.rel ≤ d.rel := by
  rw [dueCell_eq_argmin] at h
  obtain ⟨hmem, hrel⟩ := List.mem_filter.mp (List.argmin_mem h)
  exact ⟨hmem, of_decide_eq_true hrel, fun d hd hdue => List.le_of_mem_argmin (List.mem_filter.mpr ⟨hd, decide_eq_true hdue⟩) h⟩

/-- Settles O34: each phase of the booster at its edge, the copy's end, and the launch of the request that is due, which is the least by its release. -/
theorem launchAndBooster : Obligations.LaunchAndBooster :=
  ⟨⟨fun s t n e hr hn => boosterLead_after s t n hr hn e, fun s t n ua hr hn => boosterPulseStart_after s t n hr hn ua, boosterPulseEnd_after,
    boosterTailEnd_after, tableCopybackDone_after⟩, fun s t n c hr hn => launchRelease_after s t n hr hn c, dueCell_first⟩

end Sys2Proof.Machine

/-! PROOFS. Events of the strings, the monitor and the interlock (O32). -/

namespace Sys2Proof.Machine

/-! ### Strings (R68 to R71, R83) -/

theorem stringSample_after (s : State) (t : Nat) (xs : List StringSample) (hr : s.Runs) :
    exec (.stringSample t xs) s = .next (s.after t (fun r =>
      let o := xs.foldl (fun (acc : State × List Cause) x =>
        let o := acc.1.stringSample x
        (o.1, acc.2 ++ o.2)) (r, [])
      (o.1.quenchTrip o.2).each (List.range s.lanes) (fun n r => r.checkPass n))) := by
  dsimp only [exec]
  unfold execStringSample
  exact ticking_after t s _ _ hr rfl

/-- With no optical switch that still settles, the end of the ramp is EMITTING. -/
theorem State.rampADone_emits (s : State) (n : Nat) (hst : (s.laneOf n).st = .ramp) (hdue : (s.laneOf n).since + 2048 * pclk ≤ s.dev) (hosw : s.twn.oswAt = none) :
    s.rampADone n = s.startEmitting n := by
  have hend : (decide ((s.laneOf n).st = .ramp) && decide ((s.laneOf n).since + 2048 * pclk ≤ s.dev)) = true :=
    Bool.and_eq_true_iff.mpr ⟨decide_eq_true hst, decide_eq_true hdue⟩
  simp only [State.rampADone, hend, hosw, if_true]

theorem stringARampDone_after (s : State) (t n : Nat) (hr : s.Runs) (hn : n < s.lanes) (hst : (s.laneOf n).st = .ramp)
    (hdue : (s.laneOf n).since + 2048 * 8 ≤ (s.begin t).dev) (hosw : s.twn.oswAt = none) :
    exec (.stringARampDone t n) s = .next (s.after t (fun r => (r.enterLane n .emitting).onLane n (fun l => { l with monSum := 0, monCnt := 0 }))) := by
  dsimp only [exec]
  unfold execStringARampDone
  exact ticking_after t s _ _ hr ((State.only_pos _ _ _ (decide_eq_true hn)).trans ((s.begin t).rampADone_emits n hst hdue hosw))

/-- A string that carries current and is not under a clear check trips Quench where both edges are above the limit. -/
theorem State.overcurrent_trips (s : State) (n i1 i2 : Nat) (b : Bool) (hs : s.sampled n = true) (hd : s.dummy n = false) (hst : (s.laneOf n).st ≠ .quenched)
    (h1 : 5 * s.setpoint n b / 4 + 10000 < i1) (h2 : 5 * s.setpoint n b / 4 + 10000 < i2) :
    s.overcurrent n b i1 i2 =
      let flt := if b then Fld.LAN_Ln_FAULT_B_FLT else Fld.LAN_Ln_FAULT_A_FLT
      (s.setFld flt n (setBit (s.fld flt n) 2 true)).quenchTrip [(qOvercur, some (n, b))] := by
  have hcheck : s.underCheck n = false := by rw [State.underCheck, decide_eq_false hst, Bool.and_false]
  simp only [State.overcurrent, hs, hd, hcheck, decide_eq_true h1, decide_eq_true h2, Bool.false_eq_true, if_false, Bool.and_self, Bool.not_true, Bool.or_self]

/-- Only a QUENCHED lane is sampled or not by the moment. -/
theorem State.sampled_begin (s : State) (t n : Nat) (hst : (s.laneOf n).st ≠ .quenched) (hs : s.sampled n = true) : (s.begin t).sampled n = true := by
  have hlane : (s.begin t).laneOf n = s.laneOf n := State.laneOf_congr (s.begin_lan t) n
  unfold State.sampled at hs ⊢
  rw [hlane]
  cases h : (s.laneOf n).st with
  | quenched => exact absurd h hst
  | off => rw [h] at hs; exact hs
  | _ => rfl

theorem overcurrent_after (s : State) (t n i1 i2 : Nat) (b : Bool) (hr : s.Runs) (hn : n < s.lanes) (hs : s.sampled n = true) (hd : s.dummy n = false)
    (hst : (s.laneOf n).st ≠ .quenched) (h1 : 5 * (s.begin t).setpoint n b / 4 + 10000 < i1) (h2 : 5 * (s.begin t).setpoint n b / 4 + 10000 < i2) :
    exec (.overcurrent t n b i1 i2) s = .next (s.after t (fun r =>
      let flt := if b then Fld.LAN_Ln_FAULT_B_FLT else Fld.LAN_Ln_FAULT_A_FLT
      (r.setFld flt n (setBit (r.fld flt n) 2 true)).quenchTrip [(qOvercur, some (n, b))])) := by
  dsimp only [exec]
  unfold execOvercurrent
  exact ticking_after t s _ _ hr ((State.only_pos _ _ _ (decide_eq_true hn)).trans
    ((s.begin t).overcurrent_trips n i1 i2 b (s.sampled_begin t n hst hs) hd hst h1 h2))

/-- The check 2 µs after a trip, at its moment (R88). -/
theorem decayCheck_after (s : State) (t n ia ib due : Nat) (hr : s.Runs) (hn : n < s.lanes) (hat : (s.laneOf n).decayAt = some due) (hdue : due ≤ (s.begin t).dev) :
    exec (.decayCheck t n ia ib) s = .next (s.after t (fun r =>
      let r1 := r.onLane n (fun l => { l with decayAt := none })
      if s.dummy n = false ∧ (5000 ≤ ia ∨ 5000 ≤ ib) then r1.setFlag Fld.LAN_Ln_FAULT_DECAY_SLOW n true else r1)) := by
  have hat' : ((s.begin t).laneOf n).decayAt = some due := hat
  dsimp only [exec]
  unfold execDecayCheck
  refine ticking_after t s _ _ hr ?_
  simp only [hat']
  refine (State.only_pos _ _ _ (Bool.and_eq_true_iff.mpr ⟨decide_eq_true hn, decide_eq_true hdue⟩)).trans (if_congr ?_ rfl rfl)
  simp only [Bool.and_eq_true, Bool.not_eq_true', Bool.or_eq_true, decide_eq_true_eq]
  exact Iff.rfl

/-! ### The monitor (R72, R73) -/

theorem monitorWindowEnd_after (s : State) (t : Nat) (avs : List Nat) (hr : s.Runs) (hgrid : (s.begin t).dev % 8000 = 0) :
    exec (.monitorWindowEnd t avs) s = .next (s.after t (fun r =>
      let o := (List.range s.lanes).foldl (fun (acc : State × List Cause) n =>
        let o := acc.1.monitorWindow n (avs.getD n 0)
        (o.1, acc.2 ++ o.2)) (r, [])
      o.1.quenchTrip o.2)) := by
  dsimp only [exec]
  unfold execMonitorWindowEnd
  exact ticking_after t s _ _ hr (State.only_pos _ _ _ (decide_eq_true hgrid))

theorem apcUpdate_after (s : State) (t n : Nat) (hr : s.Runs) (hn : n < s.lanes) : exec (.apcUpdate t n) s = .next (s.after t (fun r => r.apcUpdate n)) := by
  dsimp only [exec]
  unfold execApcUpdate
  exact ticking_after t s _ _ hr (State.only_pos _ _ _ (decide_eq_true hn))

/-! ### The interlock (R85, R92, R94) -/

/-- The filtered state follows a level held for its time that it does not have yet. -/
theorem interlockChange_after (s : State) (t held : Nat) (high : Bool) (hr : s.Runs) (hheld : s.intlkFilter ≤ held) (hnew : s.sys.intlkOk ≠ high) :
    exec (.interlockChange t high held) s = .next (s.after t (fun r =>
      let r1 := { r with sys := { r.sys with intlkOk := high } }.setFlag Fld.LAN_STAT_INTLK_OPEN 0 (!high)
      if high then r1 else r1.quenchTrip [(qIntlk, none)])) := by
  dsimp only [exec]
  unfold execInterlockChange
  exact ticking_after t s _ _ hr (State.only_pos _ _ _ (Bool.and_eq_true_iff.mpr ⟨decide_eq_true hheld, decide_eq_true hnew⟩))

/-- Settles O32: each event at its moment, and its effect there. -/
theorem lanternEvents : Obligations.LanternEvents :=
  ⟨stringSample_after, stringARampDone_after, overcurrent_after, monitorWindowEnd_after, fun s t n hr hn _ => apcUpdate_after s t n hr hn, decayCheck_after,
    fun s t held hr hheld hok => interlockChange_after s t held false hr hheld (by rw [hok]; decide),
    fun s t held hr hheld hok => interlockChange_after s t held true hr hheld (by rw [hok]; decide)⟩

end Sys2Proof.Machine

/-! PROOFS. The lane sequencers' instructions (O27). -/

namespace Sys2Proof.Machine

/-! ### The instruction that is due -/

/-- An operand within its bits reaches the operation. -/
theorem State.wickDo_admitted (s : State) (n op hi arg : Nat) (f : State → Nat → State) (hat : s.wickAt n op = true) (harg : bitsOf 25 0 (s.wickWord n) = arg)
    (hfit : arg < 2 ^ (hi + 1)) : s.wickDo n op hi f = f s arg := by
  simp only [State.wickDo, hat, harg, hfit, if_true]

section Due

variable {s : State} {t n op arg : Nat} (h : s.WickAt t n op arg)
include h

/-- An instruction with an operand does at its moment what the operation does with it. -/
theorem wickDo_after (hi : Nat) (f : State → Nat → State) (g : State → State) (hfit : arg < 2 ^ (hi + 1)) (hfg : f (s.begin t) arg = g (s.begin t)) :
    clocked t s (fun r => r.wickDo n op hi f) = .next (s.after t g) :=
  clocked_after t s _ _ h.runs (((s.begin t).wickDo_admitted n op hi arg f h.due h.arg hfit).trans hfg)

/-- An instruction without an operand. -/
theorem wickBare_after (f g : State → State) (h0 : arg = 0) (hfg : f (s.begin t) = g (s.begin t)) :
    clocked t s (fun r => if r.wickAt n op then (if bitsOf 25 0 (r.wickWord n) = 0 then f r else r.wickFault n 1) else r) = .next (s.after t g) :=
  clocked_after t s _ _ h.runs ((if_pos h.due).trans ((if_pos (h.arg.trans h0)).trans hfg))

end Due

/-! ### Instructions of one tick (R254 to R260, R263) -/

section OneTick

variable (s : State) (t n arg : Nat)

theorem wckBlank_after (h : s.WickAt t n 3 arg) (hfit : arg < 2 ^ (12 + 1)) :
    exec (.wckBlank t n) s = .next (s.after t (fun r => r.wickTick n (r.wickNextPc n) (fun r => r.onWick n (fun x => { x with blank := arg })))) := by
  dsimp only [exec]
  unfold execWckBlank
  exact wickDo_after h 12 _ _ hfit rfl

theorem wckRange_after (h : s.WickAt t n 4 arg) (hfit : arg < 2 ^ (3 + 1)) :
    exec (.wckRange t n) s = .next (s.after t (fun r => r.wickTick n (r.wickNextPc n) (fun r => r.onWick n (fun x => { x with range := some (arg, x.next) })))) := by
  dsimp only [exec]
  unfold execWckRange
  exact wickDo_after h 3 _ _ hfit rfl

theorem wckJmp_after (h : s.WickAt t n 9 arg) (hfit : arg < 1024) : exec (.wckJmp t n) s = .next (s.after t (fun r => r.wickTick n arg (fun r => r))) := by
  dsimp only [exec]
  unfold execWckJmp
  exact wickDo_after h 9 _ _ hfit rfl

theorem wckTrig_after (h : s.WickAt t n 10 arg) (hfit : arg < 2 ^ (2 + 1)) :
    exec (.wckTrig t n) s = .next (s.after t (fun r =>
      r.wickTick n (r.wickNextPc n) (fun r => r.onWick n (fun x => { x with trigs := x.trigs ++ [(x.next + 1024, arg)] })))) := by
  dsimp only [exec]
  unfold execWckTrig
  exact wickDo_after h 2 _ _ hfit rfl

theorem wckTone_after (h : s.WickAt t n 11 arg) (hfit : arg < 2 ^ (15 + 1)) (h0 : arg ≠ 0) :
    exec (.wckTone t n) s = .next (s.after t (fun r =>
      r.wickTick n (r.wickNextPc n) (fun r => r.onWick n (fun x => { x with tone := addTone x.tone (x.next + 1024) arg })))) := by
  dsimp only [exec]
  unfold execWckTone
  exact wickDo_after h 15 _ _ hfit (if_neg h0)

end OneTick

theorem wckHalt_after (s : State) (t n : Nat) (h : s.WickAt t n 0 0) :
    exec (.wckHalt t n) s = .next (s.after t (fun r => (r.setFld Fld.WCK_Ln_PC_PC n (r.wickNextPc n % 1024)).wickStop n)) := by
  dsimp only [exec]
  unfold execWckHalt
  exact wickBare_after h _ _ rfl rfl

/-! ### LAUNCH (R77, R254, R258) -/

/-- A command leaves what its effect makes of its moment. -/
theorem State.after_congr (s : State) (t : Nat) {f g : State → State} (h : f (s.begin t) = g (s.begin t)) : s.after t f = s.after t g := by
  rw [State.after, State.after, h]

section Launch

variable (s : State) (t n b : Nat) (h : s.WickAt t n 2 b)
include h

/-- The LAUNCHes that come before it go first. -/
theorem wckLaunch_after : exec (.wckLaunch t n) s = .next (s.after t (fun r => (r.launchesFirst n (s.wick n).next).launchNow n)) := by
  have hnext : ((s.begin t).wick n).next = (s.wick n).next := rfl
  dsimp only [exec]
  unfold execWckLaunch
  exact clocked_after t s _ _ h.runs ((State.only_pos _ _ _ h.due).trans (congrArg (fun k => ((s.begin t).launchesFirst n k).launchNow n) hnext))

/-- With none before it, it is posted or stalls, by its probe's cell. -/
theorem wckLaunch_first (hfirst : (s.begin t).launchesBefore n (s.wick n).next = []) (hb : b < 4) :
    exec (.wckLaunch t n) s = .next (s.after t (fun r =>
      if (s.laneOf n).cells.any (fun c => c.probe = b) then
        ((r.setWick n wsWaiting).setFlag Fld.WCK_Ln_STAT_CELLSTALL n true).onWick n (fun x => { x with wait := .cell })
      else r.launchIssue n (s.wick n).next)) := by
  have hnow : ((s.begin t).launchesFirst n (s.wick n).next).launchNow n = (s.begin t).launchNow n := by rw [State.launchesFirst, hfirst, State.each_nil]
  refine (wckLaunch_after s t n b h).trans (congrArg Host.Outcome.next (s.after_congr t ?_))
  exact hnow.trans ((s.begin t).wickDo_admitted n 2 1 b _ h.due h.arg hb)

theorem wckLaunch_posts (hfirst : (s.begin t).launchesBefore n (s.wick n).next = []) (hb : b < 4) (hfree : (s.laneOf n).cells.all (fun c => c.probe ≠ b) = true) :
    exec (.wckLaunch t n) s = .next (s.after t (fun r => r.launchIssue n (s.wick n).next)) := by
  have hnone : ¬ (s.laneOf n).cells.any (fun c => c.probe = b) = true := by simpa using hfree
  simpa only [if_neg hnone] using wckLaunch_first s t n b h hfirst hb

theorem wckLaunch_stalls (hfirst : (s.begin t).launchesBefore n (s.wick n).next = []) (hb : b < 4) (hfull : (s.laneOf n).cells.any (fun c => c.probe = b) = true) :
    exec (.wckLaunch t n) s = .next (s.after t (fun r =>
      ((r.setWick n wsWaiting).setFlag Fld.WCK_Ln_STAT_CELLSTALL n true).onWick n (fun x => { x with wait := .cell }))) := by
  simpa only [if_pos hfull] using wckLaunch_first s t n b h hfirst hb

end Launch

/-! ### Loops (R257, R270) -/

/-- A LOOP opens its loop where fewer than four are open. -/
theorem wckLoop_opens (s : State) (t n k : Nat) (h : s.WickAt t n 7 k) (hk : k < 65536) (hdepth : (s.wick n).loops.length < 4) :
    exec (.wckLoop t n) s = .next (s.after t (fun r =>
      (r.setLoops n ((r.wickNextPc n % 1024, k) :: (s.wick n).loops)).setFld Fld.WCK_Ln_PC_PC n (r.wickNextPc n % 1024))) := by
  dsimp only [exec]
  unfold execWckLoop
  exact wickDo_after h 15 _ _ hk (if_neg (Nat.not_le.mpr hdepth))

theorem wckLoop_faults (s : State) (t n k : Nat) (h : s.WickAt t n 7 k) (hk : k < 65536) (hdepth : 4 ≤ (s.wick n).loops.length) :
    exec (.wckLoop t n) s = .next (s.after t (fun r => r.wickFault n 2)) := by
  dsimp only [exec]
  unfold execWckLoop
  exact wickDo_after h 15 _ _ hk (if_pos hdepth)

/-- An ENDL does at its moment what the end of a loop does. -/
theorem wckEndl_after (s : State) (t n : Nat) (g : State → State) (h : s.WickAt t n 8 0) (hend : (s.begin t).endLoop n = g (s.begin t)) :
    exec (.wckEndl t n) s = .next (s.after t g) := by
  dsimp only [exec]
  unfold execWckEndl
  exact wickBare_after h _ _ rfl hend

/-- The end of the innermost loop, away from its LOOP. -/
theorem State.endLoop_open (s : State) (n body left : Nat) (rest : List (Nat × Nat)) (hloops : (s.wick n).loops = (body, left) :: rest)
    (hbody : body ≠ s.fld Fld.WCK_Ln_PC_PC n) : s.endLoop n =
      if 0 < left then (s.setLoops n ((body, left - 1) :: rest)).setFld Fld.WCK_Ln_PC_PC n body
      else (s.setLoops n rest).setFld Fld.WCK_Ln_PC_PC n (s.wickNextPc n % 1024) := by
  simp only [State.endLoop, hloops, if_neg hbody]

theorem State.endLoop_faults (s : State) (n : Nat) (h : (s.wick n).loops = [] ∨ ∃ left rest, (s.wick n).loops = (s.fld Fld.WCK_Ln_PC_PC n, left) :: rest) :
    s.endLoop n = s.wickFault n 2 := by
  rcases h with hnone | ⟨left, rest, hown⟩
  · simp only [State.endLoop, hnone]
  · simp only [State.endLoop, hown, if_true]

/-- Settles O27: each instruction that is due does at its moment what its operation does with the operand. -/
theorem wickInstructions : Obligations.WickInstructions := by
  unfold Obligations.WickInstructions
  refine ⟨⟨?_, ?_, wckJmp_after, ?_, ?_, wckHalt_after, wckLaunch_after, wckLaunch_posts, wckLaunch_stalls⟩, wckLoop_opens, wckLoop_faults, ?_, ?_⟩
  · exact fun s t n arg h hfit _ => wckBlank_after s t n arg h hfit
  · exact fun s t n arg h hfit _ => wckRange_after s t n arg h hfit
  · exact fun s t n arg h hfit _ => wckTrig_after s t n arg h hfit
  · exact wckTone_after
  · exact fun s t n body left rest h hloops hbody => wckEndl_after s t n _ h ((s.begin t).endLoop_open n body left rest hloops hbody)
  · exact fun s t n h hloops => wckEndl_after s t n (fun r => r.wickFault n 2) h ((s.begin t).endLoop_faults n hloops)

end Sys2Proof.Machine

/-! PROOFS. Ranges, schedules and blanking of the receive channels (O35). -/

namespace Sys2Proof.Machine

/-! ### One channel -/

theorem State.orxCh_onOrx (s : State) (c : Nat) (f : OrxCh → OrxCh) (hc : c < 16) : (s.onOrx c f).orxCh c = f (s.orxCh c) := by
  simp [State.orxCh, State.onOrx, Vector.getD, hc]

/-- Two changes of a channel that make the same of it as it stands. -/
theorem State.onOrx_congr (s : State) (c : Nat) (f g : OrxCh → OrxCh) (h : f (s.orxCh c) = g (s.orxCh c)) : s.onOrx c f = s.onOrx c g := by
  simp only [State.onOrx, h]

theorem State.flag_of_fld {s u : State} {f : Fld} {n : Nat} (h : u.fld f n = s.fld f n) : u.flag f n = s.flag f n := by simp only [State.flag, h]

theorem State.orxCh_congr {s u : State} (h : u.orx = s.orx) (c : Nat) : u.orxCh c = s.orxCh c := by simp only [State.orxCh, h]

/-! ### Ranges (R99, R100, R102, R106) -/

section Channel

variable (s : State) (t c : Nat) (hr : s.Runs) (hc : c < 2 * s.lanes)
include hr hc

theorem rangeStepDecide_after (codes : List Int) (hmode : s.fld Fld.ORX_Cn_RANGE_MODE c ≠ 2) :
    exec (.rangeStepDecide t c codes) s = .next (s.after t (fun r => r.samples c (fun r a x => r.autoSample c a x) r.dev codes)) := by
  dsimp only [exec]
  unfold execRangeStepDecide
  exact ticking_after t s _ _ hr (State.only_pos _ _ _ (Bool.and_eq_true_iff.mpr ⟨decide_eq_true hc, decide_eq_true hmode⟩))

theorem overloadRise_after (codes : List Int) (hmode : s.fld Fld.ORX_Cn_RANGE_MODE c = 2) :
    exec (.overloadRise t c codes) s = .next (s.after t (fun r => r.samples c (fun r a x => r.overloadSample c a x) r.dev codes)) := by
  dsimp only [exec]
  unfold execOverloadRise
  exact ticking_after t s _ _ hr (State.only_pos _ _ _ (Bool.and_eq_true_iff.mpr ⟨decide_eq_true hc, decide_eq_true hmode⟩))

/-- What is decided for the channel takes its tick, and the range in force follows. -/
theorem rangeStepApply_after (f : OrxCh → OrxCh) (hf : (s.orxCh c).stepPast (s.begin t).dev = f (s.orxCh c)) :
    exec (.rangeStepApply t c) s = .next (s.after t (fun r => (r.onOrx c f).applyRange c r.dev)) := by
  dsimp only [exec]
  unfold execRangeStepApply
  refine ticking_after t s _ _ hr ((State.only_pos _ _ _ (decide_eq_true hc)).trans ?_)
  exact congrArg (fun u : State => u.applyRange c (s.begin t).dev) ((s.begin t).onOrx_congr c _ f hf)

/-! ### Schedules (R104) -/

/-- The entry that the stamp and the time name takes effect, and the range in force follows. -/
theorem scheduleEntryStart_after (k : Nat) (hk : (s.begin t).entryPast c (s.begin t).dev (s.orxCh c) = { s.orxCh c with entry := k }) :
    exec (.scheduleEntryStart t c) s = .next (s.after t (fun r => (r.onOrx c (fun x => { x with entry := k })).applyRange c r.dev)) := by
  dsimp only [exec]
  unfold execScheduleEntryStart
  refine ticking_after t s _ _ hr ((State.only_pos _ _ _ (decide_eq_true hc)).trans ?_)
  exact congrArg (fun u : State => u.applyRange c (s.begin t).dev) ((s.begin t).onOrx_congr c _ _ hk)

end Channel

/-- A step decided applies at its tick, on a channel that is not blanked, and the counts restart. -/
theorem OrxCh.stepPast_step (x : OrxCh) (g due at_ : Nat) (hstep : x.step = some (g, due)) (hdue : due ≤ at_) (hopen : x.blanked = false) :
    x.stepPast at_ = { x with loop := g, step := none, hiRun := 0, loRun := 0 } := by
  simp [OrxCh.stepPast, hstep, hdue, hopen]

/-- An overload rise likewise. -/
theorem OrxCh.stepPast_rise (x : OrxCh) (due at_ : Nat) (hstep : x.step = none) (hrise : x.rise = some due) (hdue : due ≤ at_) (hopen : x.blanked = false) :
    x.stepPast at_ = { x with offset := x.offset + 1, rise := none, hiRun := 0, loRun := 0 } := by
  simp [OrxCh.stepPast, hstep, hrise, hdue, hopen]

/-- The leading elements with a property are `k` when the first `k` have it and the one after them, if there is one, has not. -/
theorem length_takeWhile_eq {α : Type} (p : α → Bool) (l : List α) (k : Nat) (hk : k ≤ l.length) (hall : ∀ i x, i < k → l[i]? = some x → p x = true)
    (hstop : ∀ x, l[k]? = some x → p x = false) : (l.takeWhile p).length = k := by
  induction l generalizing k with
  | nil => exact (Nat.le_zero.mp hk).symm
  | cons x l ih =>
    cases k with
    | zero => rw [List.takeWhile_cons_of_neg (Bool.eq_false_iff.mp (hstop x rfl)), List.length_nil]
    | succ k =>
      rw [List.takeWhile_cons_of_pos (hall 0 x (Nat.succ_pos k) rfl), List.length_cons]
      exact congrArg (· + 1) (ih k (Nat.le_of_succ_le_succ hk) (fun i y hi hy => hall (i + 1) y (Nat.succ_lt_succ hi) hy) hstop)

/-- The schedule stands after the last entry whose START × 8 ticks have passed since the stamp. -/
theorem State.entryPast_eq (s : State) (c at_ t0 k : Nat) (x : OrxCh) (hmode : s.fld Fld.ORX_Cn_RANGE_MODE c = 2) (hfrom : x.from0 = some t0)
    (hk : ((s.schedule (c / 2) (s.fld Fld.ORX_Cn_STAT_ASCHED c)).tail.takeWhile (fun e => t0 + 8 * e.1 ≤ at_)).length = k) :
    s.entryPast c at_ x = { x with entry := k } := by
  simp only [State.entryPast, hfrom, hmode, if_true, hk]

/-! ### Blanking (R108) -/

section Blanking

variable (s : State) (t n e : Nat) (hr : s.Runs) (hn : n < s.lanes) (hend : (s.laneOf n).blankEnd = some e)
include hr hn hend

theorem blankWindowStart_after (hopen : (s.begin t).dev < e) :
    exec (.blankWindowStart t n) s = .next (s.after t (fun r => (r.blankOn (2 * n)).blankOn (2 * n + 1))) := by
  have hend' : ((s.begin t).laneOf n).blankEnd = some e := hend
  dsimp only [exec]
  unfold execBlankWindowStart
  refine ticking_after t s _ _ hr ((State.only_pos _ _ _ (decide_eq_true hn)).trans ?_)
  simp only [State.blankStart, hend']
  exact State.only_pos _ _ _ (decide_eq_true hopen)

theorem blankWindowEnd_after (hover : e ≤ (s.begin t).dev) :
    exec (.blankWindowEnd t n) s = .next (s.after t (fun r =>
      ((r.onLane n (fun l => { l with blankEnd := none })).blankOff (2 * n)).blankOff (2 * n + 1))) := by
  have hend' : ((s.begin t).laneOf n).blankEnd = some e := hend
  dsimp only [exec]
  unfold execBlankWindowEnd
  refine ticking_after t s _ _ hr ((State.only_pos _ _ _ (decide_eq_true hn)).trans ?_)
  simp only [State.blankStop, hend']
  exact State.only_pos _ _ _ (decide_eq_true hover)

end Blanking

/-! ### The range in force and its count (R99, R102) -/

theorem State.applyRange_same (s : State) (c d : Nat) (h : s.rangeOf c = s.fld Fld.ORX_Cn_STAT_RNG c) : s.applyRange c d = s := if_pos h

theorem State.applyRange_moves (s : State) (c d : Nat) (h : s.rangeOf c ≠ s.fld Fld.ORX_Cn_STAT_RNG c) :
    s.applyRange c d = ((s.setFld Fld.ORX_Cn_STAT_RNG c (s.rangeOf c)).count Fld.ORX_RSW_CNT c 1).noteConv c d := if_neg h

/-- The channels' status registers lie above every counter of the receivers. -/
theorem rswCnt_ne_stat (c : Nat) (hc : c < 16) : Fld.ORX_Cn_STAT_RNG.at c ≠ Fld.ORX_RSW_CNT.at c := by
  simp only [Fld.at, Fld.ORX_Cn_STAT_RNG, Fld.ORX_RSW_CNT]
  omega

theorem State.fld_noteConv (s : State) (c d : Nat) (f : Fld) (n : Nat) : (s.noteConv c d).fld f n = s.fld f n := (rfl)

theorem State.applyRange_counts (s : State) (c d : Nat) (hc : c < 16) (h : s.rangeOf c ≠ s.fld Fld.ORX_Cn_STAT_RNG c) (hrange : s.rangeOf c < 4) :
    (s.applyRange c d).fld Fld.ORX_Cn_STAT_RNG c = s.rangeOf c
      ∧ (s.applyRange c d).fld Fld.ORX_RSW_CNT c = (s.fld Fld.ORX_RSW_CNT c + 1) % 2 ^ 32 := by
  have hne := rswCnt_ne_stat c hc
  rw [s.applyRange_moves c d h, State.fld_noteConv, State.fld_noteConv]
  constructor
  · rw [State.count, State.fld_setFld_addr _ _ _ _ _ _ hne, State.fld_setFld_same _ _ _ _ ⟨by decide, by decide⟩]
    exact Nat.mod_eq_of_lt hrange
  · rw [State.count, State.fld_setFld_same _ _ _ _ ⟨by decide, by decide⟩, State.fld_setFld_addr _ _ _ _ _ _ hne.symm]
    rfl

end Sys2Proof.Machine

/-! PROOFS. The common-mode monitor, the schedule tables, and the receive channels' statement (O35). -/

namespace Sys2Proof.Machine

/-! ### Registers that a report leaves -/

/-- No register below the window of memory is one of its counters. -/
theorem below_memCounters (k : Nat) (h : k < 0x90000) : k ∉ memCounters 6 := by
  have hle : ∀ j, j ∈ memCounters 6 → 0x90000 ≤ j := by decide
  exact fun hk => absurd (hle k hk) (by omega)

section Low

variable (s : State) (k : Nat) (h : k < 0x90000)
include h

theorem State.live_ringIn_low (q : Nat) (p : Producer) (img : List Byte) : (s.ringIn q p img).live k = s.live k := by
  have hk := below_memCounters k h
  unfold State.ringIn State.handIn
  rw [State.live_writeRecord _ 6 k hk q rfl, State.live_congr (State.mirror_regs ..) (State.mirror_fixed ..), State.live_portWrite _ 6 k hk]
  rfl

theorem State.live_countQueue_low (f : Fld) (n : Nat) (hf : 0x90000 ≤ f.addr) : (s.count f 0 n).live k = s.live k :=
  State.live_count_other s f 0 n k (ne_of_lt (h.trans_le (hf.trans (Nat.le_add_right ..))))

theorem State.live_countRefusal_low (r : Nat) : (s.countRefusal r).live k = s.live k := by
  unfold State.countRefusal
  have hcount (f : Fld) (hf : 0x90000 ≤ f.addr) := s.live_countQueue_low k h f 1 hf
  split
  · exact hcount _ (by decide)
  · split
    · exact hcount _ (by decide)
    · split
      · exact hcount _ (by decide)
      · exact hcount _ (by decide)

/-- A report moves counters of memory and of the queues and no register below them. -/
theorem State.live_report_low (q : Nat) (img : List Byte) : (s.report q img).live k = s.live k :=
  State.report_keep (fun r => r.live k) (fun r => r.live_ringIn_low k h) (fun r => r.live_countRefusal_low k h)
    (fun r n => r.live_countQueue_low k h _ n (by decide)) (fun _ _ => rfl) s q img

theorem State.live_faultAt_low (win unit off detail kind : Nat) : (s.faultAt win unit off detail kind).live k = s.live k := s.live_report_low k h 61 _

end Low

/-! ### The common-mode monitor (R109, R110) -/

/-- What a window fails in: its sum below the lower limit or above the upper one, or its imbalance above the share allowed. -/
def State.cmMarks (s : State) (c p m : Nat) : Bool × Bool × Bool :=
  (decide (p + m < 2 * 10 * s.fld Fld.ORX_Cn_CMWIN_CM_LO c), decide (2 * 10 * s.fld Fld.ORX_Cn_CMWIN_CM_HI c < p + m),
    decide (s.fld Fld.ORX_Cn_CMWIN_IMB c * (p + m) < (max p m - min p m) * 100))

/-- It fails in one of them. -/
def State.cmFails (s : State) (c p m : Nat) : Bool := (s.cmMarks c p m).1 || (s.cmMarks c p m).2.1 || (s.cmMarks c p m).2.2

/-- The runs of failing and passing windows that a window makes. -/
def State.cmRuns (s : State) (c p m : Nat) : Nat × Nat :=
  if s.cmFails c p m then ((s.orxCh c).cmFail + 1, 0) else (0, (s.orxCh c).cmPass + 1)

theorem State.cmFails_iff (s : State) (c p m : Nat) : s.cmFails c p m = true ↔
    p + m < 20 * s.fld Fld.ORX_Cn_CMWIN_CM_LO c ∨ 20 * s.fld Fld.ORX_Cn_CMWIN_CM_HI c < p + m
      ∨ s.fld Fld.ORX_Cn_CMWIN_IMB c * (p + m) < (max p m - min p m) * 100 := by
  simp only [State.cmFails, State.cmMarks, Bool.or_eq_true, decide_eq_true_eq, or_assoc]

theorem State.cmActive_iff (s : State) (c : Nat) : s.cmActive c = true ↔ s.flag Fld.ORX_Cn_CMWIN_EN c = true ∧ (s.laneOf (c / 2)).st = .emitting := by
  simp only [State.cmActive, Bool.and_eq_true, decide_eq_true_eq]

/-- The averages of a window are shown. -/
def State.cmShown (s : State) (c ip0 im0 : Nat) : State :=
  ((s.setFld Fld.ORX_Cn_CMVAL_IP_DC c (min ip0 4095)).setFld Fld.ORX_Cn_CMVAL_IN_DC c (min im0 4095)).setFlag Fld.ORX_Cn_STAT_SERVO_LIM c
    (decide (1000 < max ip0 im0 - min ip0 im0))

/-- They are shown, and the runs of failing and passing windows take these lengths. -/
def State.cmCounted (s : State) (c ip0 im0 nf np : Nat) : State := (s.cmShown c ip0 im0).onOrx c (fun x => { x with cmFail := nf, cmPass := np })

/-- What a window fails in is marked. -/
def State.cmMarked (s : State) (c : Nat) (marks : Bool × Bool × Bool) : State :=
  let s := if marks.1 then s.setFlag Fld.ORX_Cn_STAT_CM_LOW c true else s
  let s := if marks.2.1 then s.setFlag Fld.ORX_Cn_STAT_CM_HIGH c true else s
  if marks.2.2 then s.setFlag Fld.ORX_Cn_STAT_IMB_FLT c true else s

/-- The marks go. -/
def State.cmUnmarked (s : State) (c : Nat) : State :=
  ((s.setFlag Fld.ORX_Cn_STAT_CM_LOW c false).setFlag Fld.ORX_Cn_STAT_CM_HIGH c false).setFlag Fld.ORX_Cn_STAT_IMB_FLT c false

/-- The fault is declared, or ends: shown, counted and reported. -/
def State.cmFault (s : State) (c : Nat) (on : Bool) (kind : Nat) : State :=
  ((s.setFlag Fld.ORX_Cn_STAT_CMFLT c on).count Fld.ORX_CMFLT_CNT 0 1).faultAt 2 c (0x4010 + 0x200 * c) 0 kind

/-- A window is judged on whether the fault stood and on the runs that it makes. -/
def State.cmJudged (s : State) (c : Nat) (was : Bool) (nf np : Nat) (marks : Bool × Bool × Bool) : State :=
  if was then (if 16 ≤ np then (s.cmUnmarked c).cmFault c false 2 else s.cmMarked c marks)
  else if 4 ≤ nf then (s.cmMarked c marks).cmFault c true 1
  else s

/-- From `s` to `u` the fuses, the channels beside their registers and the averages that channel `c` shows are kept, and at `u` its fault stands or not. -/
structure State.CmKeeps (c : Nat) (s u : State) (fault : Bool) : Prop where
  fixed : u.fixed = s.fixed
  channels : u.orx = s.orx
  shown : u.live (Fld.ORX_Cn_CMVAL_IP_DC.at c) = s.live (Fld.ORX_Cn_CMVAL_IP_DC.at c)
  fault : u.flag Fld.ORX_Cn_STAT_CMFLT c = fault

theorem State.CmKeeps.refl (c : Nat) (s : State) : State.CmKeeps c s s (s.flag Fld.ORX_Cn_STAT_CMFLT c) := ⟨rfl, rfl, rfl, rfl⟩

theorem State.CmKeeps.trans {c : Nat} {s u w : State} {a b : Bool} (h : State.CmKeeps c s u a) (h' : State.CmKeeps c u w b) : State.CmKeeps c s w b :=
  ⟨h'.fixed.trans h.fixed, h'.channels.trans h.channels, h'.shown.trans h.shown, h'.fault⟩

/-- The averages of a channel do not lie in its status register. -/
theorem cmval_ne_stat (c : Nat) : Fld.ORX_Cn_CMVAL_IP_DC.at c ≠ Fld.ORX_Cn_STAT_CMFLT.at c := by
  simp only [Fld.at, Fld.ORX_Cn_CMVAL_IP_DC, Fld.ORX_Cn_STAT_CMFLT]
  omega

/-- Another flag of the channel's status register. -/
theorem State.CmKeeps.mark {c : Nat} {s u : State} {a : Bool} (h : State.CmKeeps c s u a) (f : Fld) (b : Bool) (hat : f.at c = Fld.ORX_Cn_STAT_CMFLT.at c)
    (hfits : f.Fits) (hbits : 5 < f.lo ∨ f.hi < 5) : State.CmKeeps c s (u.setFlag f c b) a := by
  refine h.trans ⟨rfl, rfl, ?_, ?_⟩
  · exact State.live_setFlag_other u f c _ b (hat ▸ cmval_ne_stat c)
  · exact (State.flag_of_fld (State.fld_setFld_bits u f Fld.ORX_Cn_STAT_CMFLT c c _ hfits hbits)).trans h.fault

theorem State.CmKeeps.ite {c : Nat} {s u w : State} {a : Bool} (p : Bool) (hu : State.CmKeeps c s u a) (hw : State.CmKeeps c s w a) :
    State.CmKeeps c s (if p then u else w) a := by
  cases p
  · exact hw
  · exact hu

theorem State.cmMarked_keeps (s : State) (c : Nat) (marks : Bool × Bool × Bool) :
    State.CmKeeps c s (s.cmMarked c marks) (s.flag Fld.ORX_Cn_STAT_CMFLT c) := by
  have hlow := State.CmKeeps.ite marks.1 ((State.CmKeeps.refl c s).mark Fld.ORX_Cn_STAT_CM_LOW true rfl ⟨by decide, by decide⟩ (by decide)) (.refl c s)
  have hhigh := State.CmKeeps.ite marks.2.1 (hlow.mark Fld.ORX_Cn_STAT_CM_HIGH true rfl ⟨by decide, by decide⟩ (by decide)) hlow
  exact State.CmKeeps.ite marks.2.2 (hhigh.mark Fld.ORX_Cn_STAT_IMB_FLT true rfl ⟨by decide, by decide⟩ (by decide)) hhigh

theorem State.cmUnmarked_keeps (s : State) (c : Nat) : State.CmKeeps c s (s.cmUnmarked c) (s.flag Fld.ORX_Cn_STAT_CMFLT c) := by
  have hlow := (State.CmKeeps.refl c s).mark Fld.ORX_Cn_STAT_CM_LOW false rfl ⟨by decide, by decide⟩ (by decide)
  have hhigh := hlow.mark Fld.ORX_Cn_STAT_CM_HIGH false rfl ⟨by decide, by decide⟩ (by decide)
  exact hhigh.mark Fld.ORX_Cn_STAT_IMB_FLT false rfl ⟨by decide, by decide⟩ (by decide)

/-- A channel's registers lie beyond the receivers' counters and below the window of memory. -/
theorem orxCn_at {f : Fld} {c : Nat} (hc : c < 16) (hf : f.stride = 0x200 ∧ 0x24000 ≤ f.addr ∧ f.addr < 0x24200) :
    f.at c ≠ Fld.ORX_CMFLT_CNT.at 0 ∧ f.at c < 0x90000 := by
  obtain ⟨hstride, hlo, hhi⟩ := hf
  simp only [Fld.at, hstride, Fld.ORX_CMFLT_CNT]
  omega

theorem State.cmFault_keeps (s : State) (c : Nat) (on : Bool) (kind : Nat) (hc : c < 16) : State.CmKeeps c s (s.cmFault c on kind) on := by
  have hlive (f : Fld) (hf : f.stride = 0x200 ∧ 0x24000 ≤ f.addr ∧ f.addr < 0x24200) :
      (s.cmFault c on kind).live (f.at c) = (s.setFlag Fld.ORX_Cn_STAT_CMFLT c on).live (f.at c) := by
    obtain ⟨hcnt, hlow⟩ := orxCn_at hc hf
    exact (State.live_faultAt_low _ _ hlow ..).trans (State.live_count_other _ _ _ _ _ hcnt)
  refine ⟨?_, ?_, ?_, ?_⟩
  · simp [State.cmFault]
  · simp [State.cmFault]
  · exact (hlive _ (by decide)).trans (State.live_setFlag_other s _ c _ on (cmval_ne_stat c))
  · exact (State.flag_of_fld (State.fld_of_live (hlive Fld.ORX_Cn_STAT_CMFLT (by decide)))).trans
      (State.flag_setFlag_same s _ c on ⟨by decide, by decide⟩)

/-- Four failing windows declare the fault, and sixteen passing ones end it. -/
theorem State.cmJudged_keeps (s : State) (c nf np : Nat) (marks : Bool × Bool × Bool) (hc : c < 16) (was : Bool) (hwas : s.flag Fld.ORX_Cn_STAT_CMFLT c = was) :
    State.CmKeeps c s (s.cmJudged c was nf np marks) (if was then decide (np < 16) else decide (4 ≤ nf)) := by
  have hmark := s.cmMarked_keeps c marks
  cases was
  · by_cases hn : 4 ≤ nf
    · simpa [State.cmJudged, hn] using hmark.trans ((s.cmMarked c marks).cmFault_keeps c true 1 hc)
    · simpa [State.cmJudged, hn, hwas] using State.CmKeeps.refl c s
  · by_cases hn : 16 ≤ np
    · simpa [State.cmJudged, hn, Nat.not_lt.mpr hn] using (s.cmUnmarked_keeps c).trans ((s.cmUnmarked c).cmFault_keeps c false 2 hc)
    · simpa [State.cmJudged, hn, Nat.lt_of_not_le hn, hwas] using hmark

section Counted

variable (s : State) (c ip0 im0 nf np : Nat)

theorem State.cmCounted_shown : (s.cmCounted c ip0 im0 nf np).fld Fld.ORX_Cn_CMVAL_IP_DC c = min ip0 4095
    ∧ (s.cmCounted c ip0 im0 nf np).fld Fld.ORX_Cn_CMVAL_IN_DC c = min im0 4095 := by
  have hfits (v : Nat) : min v 4095 < 2 ^ 12 := by omega
  have hservo (u : State) (b : Bool) (f : Fld) (hf : f.at c = Fld.ORX_Cn_CMVAL_IP_DC.at c) : (u.setFlag Fld.ORX_Cn_STAT_SERVO_LIM c b).fld f c = u.fld f c :=
    State.fld_setFld_addr u _ f c c _ (hf ▸ cmval_ne_stat c)
  have hcounted (f : Fld) : (s.cmCounted c ip0 im0 nf np).fld f c = (s.cmShown c ip0 im0).fld f c :=
    State.fld_of_live (State.live_congr (State.onOrx_regs ..) (State.onOrx_fixed ..) _)
  rw [hcounted, hcounted, State.cmShown, hservo _ _ Fld.ORX_Cn_CMVAL_IP_DC rfl, hservo _ _ Fld.ORX_Cn_CMVAL_IN_DC rfl]
  constructor
  · rw [State.fld_setFld_bits _ _ _ _ _ _ ⟨by decide, by decide⟩ (by decide), State.fld_setFld_same _ _ _ _ ⟨by decide, by decide⟩]
    exact Nat.mod_eq_of_lt (hfits ip0)
  · rw [State.fld_setFld_same _ _ _ _ ⟨by decide, by decide⟩]
    exact Nat.mod_eq_of_lt (hfits im0)

theorem State.cmShown_lan : (s.cmShown c ip0 im0).lan = s.lan := by simp [State.cmShown]

theorem State.cmShown_orx : (s.cmShown c ip0 im0).orx = s.orx := by simp [State.cmShown]

theorem State.cmShown_flag : (s.cmShown c ip0 im0).flag Fld.ORX_Cn_STAT_CMFLT c = s.flag Fld.ORX_Cn_STAT_CMFLT c := by
  refine State.flag_of_fld ?_
  rw [State.cmShown, State.setFlag, State.fld_setFld_bits _ _ _ _ _ _ ⟨by decide, by decide⟩ (by decide),
    State.fld_setFld_addr _ Fld.ORX_Cn_CMVAL_IN_DC _ _ _ _ (cmval_ne_stat c).symm, State.fld_setFld_addr _ _ _ _ _ _ (cmval_ne_stat c).symm]

theorem State.cmCounted_flag : (s.cmCounted c ip0 im0 nf np).flag Fld.ORX_Cn_STAT_CMFLT c = s.flag Fld.ORX_Cn_STAT_CMFLT c :=
  (State.flag_of_fld (State.fld_of_live (State.live_congr (State.onOrx_regs ..) (State.onOrx_fixed ..) _))).trans (s.cmShown_flag c ip0 im0)

theorem State.cmCounted_fixed : (s.cmCounted c ip0 im0 nf np).fixed = s.fixed := by simp [State.cmCounted, State.cmShown]

theorem State.cmShown_active : (s.cmShown c ip0 im0).cmActive c = s.cmActive c := by
  have hval (f : Fld) (hf : f.at c = Fld.ORX_Cn_CMVAL_IP_DC.at c) : Fld.ORX_Cn_CMWIN_EN.at c ≠ f.at c := by
    rw [hf]
    simp only [Fld.at, Fld.ORX_Cn_CMWIN_EN, Fld.ORX_Cn_CMVAL_IP_DC]
    omega
  have hstat : Fld.ORX_Cn_CMWIN_EN.at c ≠ Fld.ORX_Cn_STAT_SERVO_LIM.at c := by
    simp only [Fld.at, Fld.ORX_Cn_CMWIN_EN, Fld.ORX_Cn_STAT_SERVO_LIM]
    omega
  have hen : (s.cmShown c ip0 im0).fld Fld.ORX_Cn_CMWIN_EN c = s.fld Fld.ORX_Cn_CMWIN_EN c := by
    rw [State.cmShown, State.setFlag, State.fld_setFld_addr _ _ _ _ _ _ hstat, State.fld_setFld_addr _ Fld.ORX_Cn_CMVAL_IN_DC _ _ _ _ (hval _ rfl),
      State.fld_setFld_addr _ _ _ _ _ _ (hval _ rfl)]
  rw [State.cmActive, State.cmActive, State.flag_of_fld hen, State.laneOf_congr (s.cmShown_lan c ip0 im0)]

theorem State.cmCounted_runs (hc : c < 16) : ((s.cmCounted c ip0 im0 nf np).orxCh c).cmFail = nf ∧ ((s.cmCounted c ip0 im0 nf np).orxCh c).cmPass = np := by
  rw [State.cmCounted, State.orxCh_onOrx _ _ _ hc]
  exact ⟨rfl, rfl⟩

end Counted

section Window

variable (s : State) (c ip0 im0 : Nat)

/-- A window as its steps: the averages are shown, the runs counted, and where the checks are active it is judged. -/
theorem State.cmWindow_eq : s.cmWindow c ip0 im0 =
    if !(s.cmShown c ip0 im0).cmActive c then s.cmCounted c ip0 im0 0 0
    else
      let k := s.cmMarks c (min ip0 4095) (min im0 4095)
      let fails := s.cmFails c (min ip0 4095) (min im0 4095)
      let nf := if fails then ((s.cmShown c ip0 im0).orxCh c).cmFail + 1 else 0
      let np := if fails then 0 else ((s.cmShown c ip0 im0).orxCh c).cmPass + 1
      (s.cmCounted c ip0 im0 nf np).cmJudged c (s.flag Fld.ORX_Cn_STAT_CMFLT c) nf np k := (rfl)

/-- A window without the checks breaks both runs. -/
theorem State.cmWindow_inactive (ha : s.cmActive c = false) : s.cmWindow c ip0 im0 = s.cmCounted c ip0 im0 0 0 := by
  have hshown : (!(s.cmShown c ip0 im0).cmActive c) = true := by rw [State.cmShown_active, ha]; rfl
  exact (s.cmWindow_eq c ip0 im0).trans (if_pos hshown)

/-- With the checks it is counted to the one run, which breaks the other, and judged. -/
theorem State.cmWindow_active (ha : s.cmActive c = true) (k : Nat × Nat) (hk : s.cmRuns c (min ip0 4095) (min im0 4095) = k) :
    s.cmWindow c ip0 im0 = (s.cmCounted c ip0 im0 k.1 k.2).cmJudged c (s.flag Fld.ORX_Cn_STAT_CMFLT c) k.1 k.2 (s.cmMarks c (min ip0 4095) (min im0 4095)) := by
  have hshown : (!(s.cmShown c ip0 im0).cmActive c) = false := by rw [State.cmShown_active, ha]; rfl
  have hx : (s.cmShown c ip0 im0).orxCh c = s.orxCh c := State.orxCh_congr (s.cmShown_orx c ip0 im0) c
  rw [s.cmWindow_eq c ip0 im0, ← hk]
  simp only [hshown, hx, Bool.false_eq_true, if_false, State.cmRuns, apply_ite]

end Window

/-- What a window that ends leaves: its averages `p` and `m` shown, the runs that it makes, and whether the fault stands. -/
structure State.CmResult (s u : State) (c p m nf np : Nat) (fault : Bool) : Prop where
  fixed : u.fixed = s.fixed
  ip : u.fld Fld.ORX_Cn_CMVAL_IP_DC c = p
  im : u.fld Fld.ORX_Cn_CMVAL_IN_DC c = m
  fails : (u.orxCh c).cmFail = nf
  passes : (u.orxCh c).cmPass = np
  fault : u.flag Fld.ORX_Cn_STAT_CMFLT c = fault

/-- A command leaves at its moment what its effect leaves. -/
theorem State.CmResult.after (s : State) (t : Nat) (f : State → State) {c p m nf np : Nat} {fault : Bool}
    (h : (s.begin t).CmResult (f (s.begin t)) c p m nf np fault) : s.CmResult (s.after t f) c p m nf np fault := by
  have hlive (k : Nat) : (s.after t f).live k = (f (s.begin t)).live k := s.live_after t k f h.fixed
  exact ⟨rfl, (State.fld_of_live (hlive _)).trans h.ip, (State.fld_of_live (hlive _)).trans h.im, h.fails, h.passes,
    (State.flag_of_fld (State.fld_of_live (hlive _))).trans h.fault⟩

section Result

variable (s : State) (c ip0 im0 : Nat) (hc : c < 16)
include hc

theorem State.cmCounted_result {nf np : Nat} {u : State} {fault : Bool} (h : State.CmKeeps c (s.cmCounted c ip0 im0 nf np) u fault) :
    s.CmResult u c (min ip0 4095) (min im0 4095) nf np fault := by
  obtain ⟨hip, him⟩ := s.cmCounted_shown c ip0 im0 nf np
  obtain ⟨hnf, hnp⟩ := s.cmCounted_runs c ip0 im0 nf np hc
  have hch := State.orxCh_congr h.channels c
  have hin : u.live (Fld.ORX_Cn_CMVAL_IN_DC.at c) = (s.cmCounted c ip0 im0 nf np).live (Fld.ORX_Cn_CMVAL_IN_DC.at c) := h.shown
  exact ⟨h.fixed.trans (s.cmCounted_fixed ..), (State.fld_of_live h.shown).trans hip, (State.fld_of_live hin).trans him, hch ▸ hnf, hch ▸ hnp, h.fault⟩

/-- Without the checks both runs are broken, and the fault stands as it did. -/
theorem State.cmWindow_breaks (ha : s.cmActive c = false) :
    s.CmResult (s.cmWindow c ip0 im0) c (min ip0 4095) (min im0 4095) 0 0 (s.flag Fld.ORX_Cn_STAT_CMFLT c) := by
  have hkeeps := State.CmKeeps.refl c (s.cmCounted c ip0 im0 0 0)
  rw [s.cmCounted_flag] at hkeeps
  rw [s.cmWindow_inactive c ip0 im0 ha]
  exact s.cmCounted_result c ip0 im0 hc hkeeps

theorem State.cmWindow_judges (ha : s.cmActive c = true) (k : Nat × Nat) (hk : s.cmRuns c (min ip0 4095) (min im0 4095) = k) :
    s.CmResult (s.cmWindow c ip0 im0) c (min ip0 4095) (min im0 4095) k.1 k.2
      (if s.flag Fld.ORX_Cn_STAT_CMFLT c then decide (k.2 < 16) else decide (4 ≤ k.1)) := by
  rw [s.cmWindow_active c ip0 im0 ha k hk]
  exact s.cmCounted_result c ip0 im0 hc (State.cmJudged_keeps _ c k.1 k.2 _ hc _ (s.cmCounted_flag ..))

/-- A failing window lengthens the failing run and breaks the passing one; the fourth in a row declares the fault. -/
theorem State.cmWindow_fails (ha : s.cmActive c = true) (hf : s.cmFails c (min ip0 4095) (min im0 4095) = true) :
    s.CmResult (s.cmWindow c ip0 im0) c (min ip0 4095) (min im0 4095) ((s.orxCh c).cmFail + 1) 0
      (s.flag Fld.ORX_Cn_STAT_CMFLT c || decide (3 ≤ (s.orxCh c).cmFail)) := by
  have hres := s.cmWindow_judges c ip0 im0 hc ha _ (if_pos hf)
  cases hflag : s.flag Fld.ORX_Cn_STAT_CMFLT c
  · simpa [hflag] using hres
  · simpa [hflag] using hres

/-- A passing window lengthens the passing run and breaks the failing one; the sixteenth in a row ends the fault. -/
theorem State.cmWindow_passes (ha : s.cmActive c = true) (hf : s.cmFails c (min ip0 4095) (min im0 4095) = false) :
    s.CmResult (s.cmWindow c ip0 im0) c (min ip0 4095) (min im0 4095) 0 ((s.orxCh c).cmPass + 1)
      (s.flag Fld.ORX_Cn_STAT_CMFLT c && decide ((s.orxCh c).cmPass + 1 < 16)) := by
  have hres := s.cmWindow_judges c ip0 im0 hc ha _ (if_neg (Bool.eq_false_iff.mp hf))
  cases hflag : s.flag Fld.ORX_Cn_STAT_CMFLT c
  · simpa [hflag] using hres
  · simpa [hflag] using hres

end Result

/-! ### The window's end and the schedule tables -/

theorem cmWindowEnd_after (s : State) (t c ip im : Nat) (hr : s.Runs) (hc : c < 2 * s.lanes) (hgrid : (s.begin t).dev % 8192 = 0) :
    exec (.cmWindowEnd t c ip im) s = .next (s.after t (fun r => r.cmWindow c ip im)) := by
  dsimp only [exec]
  unfold execCmWindowEnd
  exact ticking_after t s _ _ hr (State.only_pos _ _ _ (Bool.and_eq_true_iff.mpr ⟨decide_eq_true hc, decide_eq_true hgrid⟩))

/-- Away from the end of a window nothing happens. -/
theorem cmWindowEnd_early (s : State) (t c ip im : Nat) (hr : s.Runs) (hgrid : (s.begin t).dev % 8192 ≠ 0) :
    exec (.cmWindowEnd t c ip im) s = .next (s.begin t) := by
  dsimp only [exec]
  unfold execCmWindowEnd
  exact ticking_unless t s (fun r => c < 2 * r.lanes && decide (r.dev % (1024 * pclk) = 0)) _ hr
    (Bool.and_eq_false_iff.mpr (Or.inr (decide_eq_false hgrid)))

/-- A write to the schedule tables is staged, but for one while SCHPEND is set, which is reported with reason PENDING. -/
theorem scheduleTableWrite_after (s : State) (t : Nat) (src : Source) (addr val : Word) (hr : s.Runs) (hlo : 0x28000 ≤ addr.toNat) (hhi : addr.toNat < 0x29000)
    (ha : (s.begin t).Admits src addr.toNat) : exec (.scheduleTableWrite t src addr val) s = .next (s.after t (fun r =>
      let i := (addr.toNat - 0x28000) / 4
      if s.flag Fld.ORX_STAT_SCHPEND 0 then r.clamp src addr.toNat val (sget 0 s.orx.schedStg i) rsPending 0 31
      else ({ r with orx := { r.orx with schedStg := sput 0 r.orx.schedStg i (val &&& 0x8003FFFF), changed := true } }).markDirty 2)) := by
  dsimp only [exec]
  unfold execScheduleTableWrite
  refine ticking_after t s _ _ hr ((State.only_pos _ _ _ (Bool.and_eq_true_iff.mpr ⟨decide_eq_true hlo, decide_eq_true hhi⟩)).trans ?_)
  rw [(s.begin t).admit_of src addr.toNat val _ ha, State.scheduleWrite, State.flag_begin, State.begin_orx]

/-- The receivers' channels are at most the part's sixteen. -/
theorem State.channel_lt (s : State) {c : Nat} (hc : c < 2 * s.lanes) : c < 16 := by
  have hlanes := s.lanes_le
  omega

/-- The averages shown, the runs, and the fault declared or ended, as the rules say them of a window that ends. -/
def State.CmLeaves (s u : State) (c p m : Nat) (active fails : Prop) : Prop :=
  u.fld Fld.ORX_Cn_CMVAL_IP_DC c = p ∧ u.fld Fld.ORX_Cn_CMVAL_IN_DC c = m
    ∧ (¬ active → (u.orxCh c).cmFail = 0 ∧ (u.orxCh c).cmPass = 0)
    ∧ (active → fails → (u.orxCh c).cmFail = (s.orxCh c).cmFail + 1 ∧ (u.orxCh c).cmPass = 0
        ∧ (s.flag Fld.ORX_Cn_STAT_CMFLT c = false → (u.flag Fld.ORX_Cn_STAT_CMFLT c = true ↔ 3 ≤ (s.orxCh c).cmFail)))
    ∧ (active → ¬ fails → (u.orxCh c).cmFail = 0 ∧ (u.orxCh c).cmPass = (s.orxCh c).cmPass + 1
        ∧ (s.flag Fld.ORX_Cn_STAT_CMFLT c = true → (u.flag Fld.ORX_Cn_STAT_CMFLT c = false ↔ 15 ≤ (s.orxCh c).cmPass)))

theorem State.cmWindow_leaves (s : State) (t c ip0 im0 : Nat) (hc : c < 16) {active fails : Prop} (hactive : s.cmActive c = true ↔ active)
    (hfails : s.cmFails c (min ip0 4095) (min im0 4095) = true ↔ fails) :
    s.CmLeaves (s.after t (fun r => r.cmWindow c ip0 im0)) c (min ip0 4095) (min im0 4095) active fails := by
  rw [← hactive, ← hfails]
  cases ha : s.cmActive c
  · obtain ⟨-, hip, him, hnf, hnp, -⟩ := State.CmResult.after s t (fun r => r.cmWindow c ip0 im0) ((s.begin t).cmWindow_breaks c ip0 im0 hc ha)
    exact ⟨hip, him, fun _ => ⟨hnf, hnp⟩, fun h => absurd h Bool.false_ne_true, fun h => absurd h Bool.false_ne_true⟩
  · cases hf : s.cmFails c (min ip0 4095) (min im0 4095)
    · obtain ⟨-, hip, him, hnf, hnp, hflt⟩ := State.CmResult.after s t (fun r => r.cmWindow c ip0 im0) ((s.begin t).cmWindow_passes c ip0 im0 hc ha hf)
      refine ⟨hip, him, fun h => absurd rfl h, fun _ h => absurd h Bool.false_ne_true, fun _ _ => ⟨hnf, hnp, fun hflag => ?_⟩⟩
      rw [hflt, State.flag_begin, hflag, Bool.true_and, decide_eq_false_iff_not]
      exact Nat.not_lt.trans Nat.succ_le_succ_iff
    · obtain ⟨-, hip, him, hnf, hnp, hflt⟩ := State.CmResult.after s t (fun r => r.cmWindow c ip0 im0) ((s.begin t).cmWindow_fails c ip0 im0 hc ha hf)
      refine ⟨hip, him, fun h => absurd rfl h, fun _ _ => ⟨hnf, hnp, fun hflag => ?_⟩, fun _ h => absurd rfl h⟩
      rw [hflt, State.flag_begin, hflag, Bool.false_or, decide_eq_true_iff]
      exact Iff.rfl

/-- Settles O35: each event of a receive channel at its moment, the range in force and its count, a common-mode window, whose end is every 8,192 ticks of device time by
log entry 16, and the staging of the schedule tables. -/
theorem opticalReceive : Obligations.OpticalReceive := by
  unfold Obligations.OpticalReceive
  refine ⟨⟨⟨?_, ?_, ?_, ?_⟩, ?_⟩, ?_, scheduleTableWrite_after⟩
  · exact fun s t c codes hr hc => ⟨rangeStepDecide_after s t c hr hc codes, overloadRise_after s t c hr hc codes⟩
  · exact fun s t c g due hr hc hopen hdue =>
      ⟨fun hstep => rangeStepApply_after s t c hr hc _ ((s.orxCh c).stepPast_step g due _ hstep hdue hopen),
        fun hstep hrise => rangeStepApply_after s t c hr hc _ ((s.orxCh c).stepPast_rise due _ hstep hrise hdue hopen)⟩
  · intro s t c t0 k hr hc hmode hfrom es hpast hk hnext
    refine scheduleEntryStart_after s t c hr hc k ((s.begin t).entryPast_eq c _ t0 k _ hmode hfrom ?_)
    exact length_takeWhile_eq _ es k hk (fun i e hi he => decide_eq_true (hpast i e.1 e.2 hi he))
      (fun e he => decide_eq_false (Nat.not_le.mpr (hnext e.1 e.2 he)))
  · exact fun s t n e hr hn hend => ⟨blankWindowStart_after s t n e hr hn hend, blankWindowEnd_after s t n e hr hn hend⟩
  · exact fun s c d hc => ⟨s.applyRange_same c d, s.applyRange_counts c d hc⟩
  · exact fun s t c ip im hr hc => ⟨cmWindowEnd_early s t c ip im hr, fun hgrid =>
      ⟨_, cmWindowEnd_after s t c ip im hr hc hgrid, s.cmWindow_leaves t c ip im (s.channel_lt hc) (s.cmActive_iff c) (s.cmFails_iff c _ _)⟩⟩

end Sys2Proof.Machine

/-! PROOFS. Tone windows, triggers and captures of the sequencers (O30). -/

namespace Sys2Proof.Machine

/-! ### Tone windows (R135, R260) -/

section Tone

variable (s : State) (t n a b : Nat) (rest : List (Nat × Nat)) (hr : s.Runs) (hn : n < s.lanes) (htone : (s.wick n).tone = (a, b) :: rest)
include hr hn htone

theorem toneOn_after (hdue : a ≤ (s.begin t).dev) : exec (.toneOn t n) s = .next (s.after t (fun r => r.onWick n (fun x => { x with toneOn := true }))) := by
  have htone' : ((s.begin t).wick n).tone = (a, b) :: rest := htone
  dsimp only [exec]
  unfold execToneOn
  refine ticking_after t s _ _ hr ?_
  simp only [htone']
  exact State.only_pos _ _ _ (Bool.and_eq_true_iff.mpr ⟨decide_eq_true hn, decide_eq_true hdue⟩)

/-- A window that closes leaves the list, and its samples join the sums of the lane's two channels, the higher after the lower. -/
theorem toneOff_after (hon : (s.wick n).toneOn = true) (hdue : b ≤ (s.begin t).dev) :
    exec (.toneOff t n) s = .next (s.after t (fun r =>
      let r1 := r.onWick n (fun x => { x with tone := rest, toneOn := false })
      (r1.onHsc (2 * n) (fun h => { h with toneN := h.toneN + (b - max a h.toneFrom) })).onHsc (2 * n + 1)
        (fun h => { h with toneN := h.toneN + (b - max a h.toneFrom) }))) := by
  have htone' : ((s.begin t).wick n).tone = (a, b) :: rest := htone
  have hopen : (decide (n < s.lanes) && (s.wick n).toneOn) = true := by rw [hon, decide_eq_true hn]; rfl
  dsimp only [exec]
  unfold execToneOff
  refine ticking_after t s _ _ hr ?_
  simp only [htone']
  exact State.only_pos _ _ _ (Bool.and_eq_true_iff.mpr ⟨hopen, decide_eq_true hdue⟩)

end Tone

/-! ### Triggers and captures (R263, R264, R351) -/

/-- The earliest trigger leaves the list and acts at the action time that stands beside it. -/
theorem triggerAction_after (s : State) (t n a c : Nat) (rest : List (Nat × Nat)) (hr : s.Runs) (hn : n < s.lanes) (htrigs : (s.wick n).trigs = (a, c) :: rest)
    (hdue : a ≤ (s.begin t).dev) :
    exec (.triggerAction t n) s = .next (s.after t (fun r => (r.onWick n (fun x => { x with trigs := rest })).triggerAction n a c)) := by
  have htrigs' : ((s.begin t).wick n).trigs = (a, c) :: rest := htrigs
  dsimp only [exec]
  unfold execTriggerAction
  refine clocked_after t s _ _ hr ?_
  simp only [htrigs']
  exact State.only_pos _ _ _ (Bool.and_eq_true_iff.mpr ⟨decide_eq_true hn, decide_eq_true hdue⟩)

section Captures

variable (s : State) (t n : Nat) (samples : List Int) (c : Capture) (hr : s.Runs) (hn : n < s.lanes) (hcap : (s.wick n).capture = some c)
include hr hn hcap

theorem captureEnd_after (hdue : c.endsAt ≤ (s.begin t).dev) (hfull : (s.begin t).captured c = 4096 * c.len) (hfed : c.fed c.len samples = true) :
    exec (.captureEnd t n samples) s = .next (s.after t (fun r => r.captureEnd n c c.len samples false)) := by
  have hcap' : ((s.begin t).wick n).capture = some c := hcap
  have hover : (decide (n < s.lanes) && decide (c.endsAt ≤ (s.begin t).dev) && decide ((s.begin t).captured c = 4096 * c.len)) = true := by simp [hn, hdue, hfull]
  dsimp only [exec]
  unfold execCaptureEnd
  refine clocked_after t s _ _ hr ?_
  simp only [hcap']
  exact State.only_pos _ _ _ (Bool.and_eq_true_iff.mpr ⟨hover, hfed⟩)

/-- A capture is cut short once its source is more than 64 KiB ahead of what is written. -/
theorem captureTruncate_after (len : Nat) (hbehind : 4096 * len + 65536 < (s.begin t).captured c) (hfed : c.fed len samples = true) :
    exec (.captureTruncate t n len samples) s = .next (s.after t (fun r => r.captureEnd n c len samples true)) := by
  have hcap' : ((s.begin t).wick n).capture = some c := hcap
  have hcut : (decide (n < s.lanes) && decide (4096 * len + 65536 < (s.begin t).captured c)) = true := by simp [hn, hbehind]
  dsimp only [exec]
  unfold execCaptureTruncate
  refine clocked_after t s _ _ hr ?_
  simp only [hcap']
  exact State.only_pos _ _ _ (Bool.and_eq_true_iff.mpr ⟨hcut, hfed⟩)

end Captures

/-- Settles O30: each action at its time. The samples that a tone window adds when it closes are log entry 23. -/
theorem wickActions : Obligations.WickActions := by
  unfold Obligations.WickActions
  refine ⟨toneOn_after, ?_, triggerAction_after, ?_, ?_⟩
  · exact fun s t n a b rest hr hn htone => toneOff_after s t n a b rest hr hn htone
  · exact fun s t n samples c hr hn hcap => captureEnd_after s t n samples c hr hn hcap
  · exact fun s t n len samples c hr hn hcap => captureTruncate_after s t n samples c hr hn hcap len

end Sys2Proof.Machine

/-! PROOFS. The commands of the converters (O36). -/

namespace Sys2Proof.Machine

/-! ### Calibration and rotation by command (R123, R128) -/

section Commanded

variable (s : State) (t : Nat) (src : Source) (hr : s.Runs) (ha : (s.begin t).Admits src Fld.HSC_CALCMD_START.addr)
include hr ha

theorem hscCalibrate_after : exec (.hscCalibrate t src) s = .next (s.after t (fun r => r.calibrate src)) := by
  dsimp only [exec]
  unfold execHscCalibrate
  exact ticking_after t s _ _ hr ((s.begin t).admit_of src Fld.HSC_CALCMD_START.addr 1 _ ha)

/-- A rotation starts on each channel that the mask names, that can rotate, and where none runs. -/
theorem hscRotate_after (mask : Nat) : exec (.hscRotate t src mask) s = .next (s.after t (fun r =>
    r.each (List.range s.channels) (fun c r => r.only (bit (mask % 65536) c && r.canRotate c && r.phase c = 0) (fun r => r.startRotation c)))) := by
  dsimp only [exec]
  unfold execHscRotate
  exact ticking_after t s _ _ hr ((s.begin t).admit_of src Fld.HSC_CALCMD_START.addr _ _ ha)

end Commanded

/-- While a calibration runs, or a lane is not dark, CALCMD.START is reported and changes nothing. -/
theorem State.calibrate_refused (s : State) (src : Source) (h : s.flag Fld.HSC_STAT_CALBUSY 0 = true ∨ s.lanesDark = false) :
    s.calibrate src = s.clamp src Fld.HSC_CALCMD_START.addr 1 0 rsState 0 0 := by
  refine if_pos (Bool.or_eq_true_iff.mpr (h.imp_right fun hlit => ?_))
  rw [hlit, Bool.not_false]

/-! ### Manual selection (R140) -/

/-- The part's channels are at most sixteen. -/
theorem State.channels_le (s : State) : s.channels ≤ 16 := Nat.mul_le_mul_left 2 s.lanes_le

/-- The manual selection of a channel that the part has is not fused off. -/
theorem State.fusedOff_hscMan (s : State) (c : Nat) (hc : c < s.channels) : fusedOff s.fixed (Fld.HSC_MAN_Cn_EN.at c) c = false := by
  have hlimit : unitLimit s.fixed (Fld.HSC_MAN_Cn_EN.at c / 0x10000) (Fld.HSC_MAN_Cn_EN.at c % 0x10000) = s.channels := by
    have hle := s.channels_le
    have hwin : Fld.HSC_MAN_Cn_EN.at c / 0x10000 = 3 := by
      simp only [Fld.at, Fld.HSC_MAN_Cn_EN]
      omega
    rw [hwin]
    rfl
  simp only [fusedOff, hlimit, decide_eq_false (Nat.not_le.mpr hc), Bool.and_false]

/-- A selection of two different slices, neither of them retired, is staged where expert space is open to its source. -/
theorem State.manWrite_staged (s : State) (src : Source) (c : Nat) (val : Word) (hc : c < s.channels) (hexpert : src ≠ .twin → s.flag Fld.SYS_CTRL_EXPERT_EN 0 = true)
    (hne : bitsOf 2 1 val ≠ bitsOf 4 3 val) (h0 : bitsOf 2 1 val < 3) (h1 : bitsOf 4 3 val < 3)
    (hgood0 : bit (s.fld Fld.HSC_Cn_SLICE_RETIRED c) (bitsOf 2 1 val) = false) (hgood1 : bit (s.fld Fld.HSC_Cn_SLICE_RETIRED c) (bitsOf 4 3 val) = false) :
    s.manWrite src c val = (s.setStaged (Fld.HSC_MAN_Cn_EN.at c) (val &&& 0x1F)).markDirty 3 := by
  have hopen : (decide (src ≠ .twin) && !s.flag Fld.SYS_CTRL_EXPERT_EN 0) = false := by
    by_cases htwin : src = .twin
    · simp [htwin]
    · simp [hexpert htwin]
  simp only [State.manWrite, hopen, s.fusedOff_hscMan c hc, hne, Nat.not_le.mpr h0, Nat.not_le.mpr h1, hgood0, hgood1, decide_false, Bool.or_false, Bool.false_eq_true,
    if_false]

theorem hscManWrite_after (s : State) (t : Nat) (src : Source) (c : Nat) (val : Word) (hr : s.Runs) (hc : c < s.channels)
    (ha : (s.begin t).Admits src (Fld.HSC_MAN_Cn_EN.at c)) (g : State → State) (hg : (s.begin t).manWrite src c val = g (s.begin t)) :
    exec (.hscManWrite t src c val) s = .next (s.after t g) := by
  dsimp only [exec]
  unfold execHscManWrite
  refine ticking_after t s _ _ hr ((State.only_pos _ _ _ (decide_eq_true (hc.trans_le s.channels_le))).trans ?_)
  exact ((s.begin t).admit_of src _ val _ ha).trans hg

theorem trimSweepStart_after (s : State) (t temp : Nat) (hr : s.Runs) : exec (.trimSweepStart t temp) s = .next (s.after t (fun r => r.sweepStart temp)) := by
  dsimp only [exec]
  unfold execTrimSweepStart
  exact ticking_after t s _ _ hr rfl

/-- Settles O36: the commands at their moment, the refusal of a calibration, and a manual selection that is staged. -/
theorem converterCommands : Obligations.ConverterCommands := by
  unfold Obligations.ConverterCommands
  refine ⟨fun s t src hr ha => ⟨hscCalibrate_after s t src hr ha, hscRotate_after s t src hr ha⟩, State.calibrate_refused, ?_, ?_⟩
  · exact fun s t src c val hr hc ha hexpert hne h0 h1 hgood0 hgood1 =>
      hscManWrite_after s t src c val hr hc ha _ ((s.begin t).manWrite_staged src c val hc hexpert hne h0 h1 hgood0 hgood1)
  · exact trimSweepStart_after

end Sys2Proof.Machine

/-! PROOFS. The phases of a converter rotation, its failure checks and its diagnostics (O37). -/

namespace Sys2Proof.Machine

/-! ### Phases (R127 to R131) -/

/-- A rotation that falls due while Hearth runs, on a channel that can rotate and neither rotates nor is diagnosed, starts. -/
theorem State.rotationDue_starts (s : State) (c : Nat) (hcan : s.canRotate c = true) (hhearth : s.sys.hearth = true) (hphase : s.phase c = 0)
    (hdiag : (s.hscCh c).diag = none) : s.rotationDue c = s.startRotation c := by
  simp [State.rotationDue, hcan, hhearth, hphase, hdiag]

theorem rotationStart_after (s : State) (t c : Nat) (hr : s.Runs) (hc : c < s.channels) (hrun : s.flag Fld.SYS_CTRL_RUN 0 = true) (hcan : s.canRotate c = true)
    (hhearth : s.sys.hearth = true) (hphase : s.phase c = 0) (hdiag : (s.hscCh c).diag = none) (hnow : (s.begin t).rotationNow c = true) :
    exec (.rotationStart t c) s = .next (s.after t (fun r => r.startRotation c)) := by
  have hdue : (decide (c < s.channels) && s.flag Fld.SYS_CTRL_RUN 0 && (s.begin t).rotationNow c) = true := by simp [hc, hrun, hnow]
  dsimp only [exec]
  unfold execRotationStart
  exact ticking_after t s _ _ hr ((State.only_pos _ _ _ hdue).trans ((s.begin t).rotationDue_starts c hcan hhearth hphase hdiag))

section Phases

variable (s : State) (t c : Nat) (hr : s.Runs)
include hr

theorem trimPhaseEnd_after (hover : (s.begin t).phaseOver c 1 = true) :
    exec (.trimPhaseEnd t c) s = .next (s.after t (fun r =>
      (r.setPhase c 2 (r.dev + 262144 * 8)).onHsc c (fun h =>
        { h with trimmed := if h.trimOld then h.trimmed else setBit h.trimmed (r.spare c) true, trimOld := false }))) := by
  dsimp only [exec]
  unfold execTrimPhaseEnd
  exact ticking_only t s (fun r => r.phaseOver c 1) _ hr hover

theorem shadow0End_after (sh : Shadow) (hover : (s.begin t).phaseOver c 2 = true) :
    exec (.shadow0End t c sh) s = .next (s.after t (fun r =>
      let w := r.faulted c (r.spare c) (r.sliceIn c 0) sh
      (r.setPhase c 3 ((r.hscCh c).due + (1024 + 262144) * 8)).onHsc c (fun h =>
        { h with sh0 := w, measBy := r.spare c, meas := r.measured c 0 w ++ h.meas.filter (fun e => 3 ≤ e.1) }))) := by
  dsimp only [exec]
  unfold execShadow0End
  exact ticking_only t s (fun r => r.phaseOver c 2) _ hr hover

theorem shadow1End_after (sh : Shadow) (hover : (s.begin t).phaseOver c 3 = true) :
    exec (.shadow1End t c sh) s = .next (s.after t (fun r =>
      let w := r.faulted c (r.spare c) (r.sliceIn c 1) sh
      (r.setPhase c 4 ((r.hscCh c).due + 4096 * 8)).onHsc c (fun h =>
        { h with sh1 := w, ramping := false, measBy := r.spare c, meas := r.measured c 1 w ++ h.meas.filter (fun e => e.1 < 3) }))) := by
  dsimp only [exec]
  unfold execShadow1End
  exact ticking_only t s (fun r => r.phaseOver c 3) _ hr hover

/-- The estimation ends once, before its ramp, with every tone sample that the channel has gathered. -/
theorem estimationDone_after (tone : List ToneSum) (hover : (s.begin t).phaseOver c 4 = true) (hramp : (s.hscCh c).ramping = false)
    (htone : (tone.map (·.n)).sum = (s.begin t).toneSamples c) :
    exec (.estimationDone t c tone) s = .next (s.after t (fun r => r.estimate c tone)) := by
  have hdone : ((s.begin t).phaseOver c 4 && !(s.hscCh c).ramping && decide ((tone.map (·.n)).sum = (s.begin t).toneSamples c)) = true := by
    simp [hover, hramp, htone]
  dsimp only [exec]
  unfold execEstimationDone
  exact ticking_after t s _ _ hr (State.only_pos _ _ _ hdone)

/-- The spare takes the position that this rotation replaces, and the slice that it replaces becomes the spare. -/
theorem sliceSwap_after (hc : c < s.channels) (hphase : s.phase c = 5) :
    exec (.sliceSwap t c) s = .next (s.after t (fun r =>
      let p := 1 - (r.hscCh c).last.getD 1
      ((((r.setSlice c p (r.spare c)).setFld Fld.HSC_Cn_SLICE_SPARE c (r.sliceIn c p)).onHsc c (fun h => { h with last := some p, swapped := some (r.dev, p) })).count
        Fld.HSC_ROT_CNT 0 1).endRotation c)) := by
  dsimp only [exec]
  unfold execSliceSwap
  exact ticking_after t s _ _ hr (State.only_pos _ _ _ (Bool.and_eq_true_iff.mpr ⟨decide_eq_true hc, decide_eq_true hphase⟩))

/-! ### Checks and diagnostics (R136, R137) -/

theorem sliceCheckWindow_after (seen : List (Nat × Nat)) (pair : Shadow) (hc : c < s.channels) (hlong : 16384 * 8 ≤ (s.begin t).dev)
    (hbusy : s.flag Fld.HSC_STAT_CALBUSY 0 = false) (hup : s.flag Fld.HSC_Cn_SLICE_DOWN c = false) :
    exec (.sliceCheckWindow t c seen pair) s = .next (s.after t (fun r => r.checkWindow c seen pair)) := by
  have hchecked : (decide (c < s.channels) && decide (16384 * 8 ≤ (s.begin t).dev) && !s.flag Fld.HSC_STAT_CALBUSY 0 && !s.flag Fld.HSC_Cn_SLICE_DOWN c) = true := by
    simp [hc, hlong, hbusy, hup]
  dsimp only [exec]
  unfold execSliceCheckWindow
  exact ticking_after t s _ _ hr (State.only_pos _ _ _ hchecked)

theorem sliceDiagEnd_after (due : Nat) (p0 p1 : Shadow) (hc : c < s.channels) (hdiag : (s.hscCh c).diag = some due) (hdue : due ≤ (s.begin t).dev) :
    exec (.sliceDiagEnd t c p0 p1) s = .next (s.after t (fun r => r.diagEnd c due p0 p1)) := by
  have hdiag' : ((s.begin t).hscCh c).diag = some due := hdiag
  dsimp only [exec]
  unfold execSliceDiagEnd
  refine ticking_after t s _ _ hr ?_
  simp only [hdiag']
  exact State.only_pos _ _ _ (Bool.and_eq_true_iff.mpr ⟨decide_eq_true hc, decide_eq_true hdue⟩)

end Phases

/-- Settles O37: each phase ends at its moment with its effect, and so do a check window and a diagnostic. The position that a first rotation replaces and the check
windows at any tick are log entry 18. -/
theorem converterRotation : Obligations.ConverterRotation := by
  unfold Obligations.ConverterRotation
  refine ⟨rotationStart_after, trimPhaseEnd_after, ?_, ?_, ?_, sliceSwap_after, ?_, ?_⟩
  · exact fun s t c sh hr => shadow0End_after s t c hr sh
  · exact fun s t c sh hr => shadow1End_after s t c hr sh
  · exact fun s t c tone hr => estimationDone_after s t c hr tone
  · exact fun s t c seen pair hr => sliceCheckWindow_after s t c hr seen pair
  · exact fun s t c due p0 p1 hr hc => sliceDiagEnd_after s t c hr due p0 p1 hc

end Sys2Proof.Machine

/-! PROOFS. A restart of a phase lane leaves the sub-band paths and the registers of their windows as they are (R159, R177). -/

namespace Sys2Proof.Machine

/-- The registers from the launch side to the sequencers but for those of PHX: no restart of a lane writes one of them. -/
def PathSide (k : Nat) : Prop := (0x10000 ≤ k ∧ k < 0x50000) ∨ (0x60000 ≤ k ∧ k < 0x70000)

/-- The registers beyond the sequencers, and the engines' copies. -/
theorem pathSide_high {k : Nat} (h : 0x70000 ≤ k) : ¬ PathSide k := fun hk => by rcases hk with hk | hk <;> omega

/-- A field of a system register. -/
theorem Fld.aside_sys {f : Fld} {n : Nat} (h : f.stride = 0 ∧ f.addr < 0x10000) : ¬ PathSide (f.at n) := fun hk => by
  simp only [PathSide, Fld.at, h.1, Nat.zero_mul] at hk
  omega

/-- A field of PHX, in one of its lanes. -/
theorem Fld.aside_phx {f : Fld} {n : Nat} (hn : n < 8) (h : 0x50000 ≤ f.addr ∧ f.addr + f.stride * 8 < 0x60000) : ¬ PathSide (f.at n) := fun hk => by
  have hle : f.stride * n ≤ f.stride * 8 := Nat.mul_le_mul_left f.stride hn.le
  simp only [PathSide, Fld.at] at hk
  omega

theorem Fld.aside_high {f : Fld} {n : Nat} (h : 0x70000 ≤ f.addr) : ¬ PathSide (f.at n) := pathSide_high (h.trans (Nat.le_add_right _ _))

/-- From `s` to `u` the fuses, DDC beside its registers, and the registers of its side are kept. -/
structure State.KeepsPaths (s u : State) : Prop where
  fixed : u.fixed = s.fixed
  ddc : u.ddc = s.ddc
  live : ∀ k, PathSide k → u.live k = s.live k

namespace State.KeepsPaths

variable {s u w : State} {n : Nat}

theorem refl (s : State) : s.KeepsPaths s := ⟨rfl, rfl, fun _ _ => rfl⟩

theorem trans (h : s.KeepsPaths u) (h' : u.KeepsPaths w) : s.KeepsPaths w :=
  ⟨h'.fixed.trans h.fixed, h'.ddc.trans h.ddc, fun k hk => (h'.live k hk).trans (h.live k hk)⟩

/-- A change beside the registers and DDC. -/
theorem change (h : s.KeepsPaths u) (hf : w.fixed = u.fixed) (hd : w.ddc = u.ddc) (hr : w.regs = u.regs) : s.KeepsPaths w :=
  h.trans ⟨hf, hd, fun _ _ => State.live_congr hr hf _⟩

/-! ### Registers, choices and repetitions -/

theorem setLive (h : s.KeepsPaths u) (k : Nat) (x : Word) (hk : ¬ PathSide k) : s.KeepsPaths (u.setLive k x) :=
  h.trans ⟨rfl, rfl, fun _ hj => State.live_setLive_other u k _ x (fun e => hk (e ▸ hj))⟩

theorem setFld (h : s.KeepsPaths u) {f : Fld} {n v : Nat} (hk : ¬ PathSide (f.at n)) : s.KeepsPaths (u.setFld f n v) := h.setLive _ _ hk

theorem setFlag (h : s.KeepsPaths u) {f : Fld} {n : Nat} {b : Bool} (hk : ¬ PathSide (f.at n)) : s.KeepsPaths (u.setFlag f n b) := h.setLive _ _ hk

theorem setLaneBit (h : s.KeepsPaths u) {f : Fld} {i : Nat} {b : Bool} (hk : ¬ PathSide (f.at 0)) : s.KeepsPaths (u.setLaneBit f i b) := h.setLive _ _ hk

theorem count (h : s.KeepsPaths u) {f : Fld} {n k : Nat} (hk : ¬ PathSide (f.at n)) : s.KeepsPaths (u.count f n k) := h.setLive _ _ hk

theorem ite {c : Prop} {_ : Decidable c} {a b : State} (ha : s.KeepsPaths a) (hb : s.KeepsPaths b) : s.KeepsPaths (if c then a else b) := by
  split
  · exact ha
  · exact hb

theorem only (h : s.KeepsPaths u) {c : Bool} {f : State → State} (hf : u.KeepsPaths (f u)) : s.KeepsPaths (u.only c f) := by
  cases c
  · exact h
  · exact h.trans hf

theorem foldl {α : Type} (h : s.KeepsPaths u) {l : List α} {f : State → α → State} (hf : ∀ r : State, ∀ x ∈ l, r.KeepsPaths (f r x)) :
    s.KeepsPaths (l.foldl f u) := by
  induction l generalizing u with
  | nil => exact h
  | cons x l ih => exact ih (h.trans (hf u x List.mem_cons_self)) (fun r y hy => hf r y (List.mem_cons_of_mem x hy))

theorem each (h : s.KeepsPaths u) {us : List Nat} {f : Nat → State → State} (hf : ∀ r : State, ∀ n ∈ us, r.KeepsPaths (f n r)) : s.KeepsPaths (u.each us f) :=
  h.foldl hf

theorem onPhx (h : s.KeepsPaths u) (n : Nat) (g : PhxLane → PhxLane) : s.KeepsPaths (u.onPhx n g) := h.change rfl rfl rfl

theorem onEngine (h : s.KeepsPaths u) (e : Nat) (g : Engine → Engine) : s.KeepsPaths (u.onEngine e g) := h.change rfl rfl rfl

theorem onTach (h : s.KeepsPaths u) (k : Nat) (g : Tach → Tach) : s.KeepsPaths (u.onTach k g) := h.change rfl rfl rfl

theorem drawn (h : s.KeepsPaths u) : s.KeepsPaths u.drawn := h.change rfl rfl rfl

/-! ### Working copies (R435, R447) -/

theorem coverChanged (h : s.KeepsPaths u) : s.KeepsPaths u.coverChanged :=
  (h.change (w := { u with sys := { u.sys with passDirty := true } }) rfl rfl rfl).setFlag (Fld.aside_sys (by decide))

theorem takeLive (h : s.KeepsPaths u) {k : Nat} {x : Word} (hk : ¬ PathSide k) : s.KeepsPaths (u.takeLive k x) := by
  unfold State.takeLive
  exact ite (h.setLive k x hk) (h.setLive k x hk).coverChanged

theorem took (h : s.KeepsPaths u) (win unit : Nat) : s.KeepsPaths (u.took win unit) := by
  have hw {x : List (Nat × Nat)} : s.KeepsPaths { u with regs := { u.regs with wait := x } } := h.trans ⟨rfl, rfl, fun _ _ => rfl⟩
  have hclear {v : State} (hv : s.KeepsPaths v) : s.KeepsPaths (v.pendClear win) := by
    have hs {x : Nat} : s.KeepsPaths (v.setFld Fld.SYS_COMMIT_PEND 0 x) := hv.setFld (Fld.aside_sys (by decide))
    unfold State.pendClear
    exact ite (ite (hs.change rfl rfl rfl) hs) hv
  unfold State.took
  exact ite hw (hclear hw)

end State.KeepsPaths

/-- The counters of memory lie beyond the registers of the paths' side. -/
theorem pathSide_not_memCounters (p : Nat) {k : Nat} (hk : PathSide k) : k ∉ memCounters p := by
  simp only [memCounters, Fld.at, Fld.MEM_SRABORT_CNT, Fld.MEM_SRWAKE_CNT, Fld.MEM_BURST_CNT, Fld.MEM_CE_CNT, List.mem_cons, List.not_mem_nil, or_false]
  rcases hk with hk | hk <;> omega

theorem PathSide.low {k : Nat} (hk : PathSide k) : k < 0x90000 := by rcases hk with hk | hk <;> omega

namespace State.KeepsPaths

variable {s u : State} {n : Nat}

/-! ### Memory, reports and shares of a checkpoint (R315, R323, R339, R346, R421) -/

theorem portWrite (h : s.KeepsPaths u) {p : Nat} {ap : Bool} {a : Nat} {bs : List Byte} : s.KeepsPaths (u.portWrite p ap a bs) :=
  h.trans ⟨State.portWrite_fixed .., State.portWrite_ddc .., fun _ hk => State.live_portWrite u p _ (pathSide_not_memCounters p hk) ap a bs⟩

theorem traffic (h : s.KeepsPaths u) {p : Nat} {ap write : Bool} {a n : Nat} : s.KeepsPaths (u.traffic p ap write a n) :=
  h.trans ⟨State.traffic_fixed .., State.traffic_ddc .., fun _ hk => State.live_traffic u p _ (pathSide_not_memCounters p hk) ap write a n⟩

theorem report (h : s.KeepsPaths u) (q : Nat) (img : List Byte) : s.KeepsPaths (u.report q img) :=
  h.trans ⟨State.report_fixed .., State.report_ddc .., fun k hk => State.live_report_low u k hk.low q img⟩

theorem faultAt (h : s.KeepsPaths u) (win unit off detail kind : Nat) : s.KeepsPaths (u.faultAt win unit off detail kind) := h.report 61 _

theorem belSend (h : s.KeepsPaths u) (k : Nat) (b : List Byte) : s.KeepsPaths (u.belSend k b) :=
  h.change (State.belSend_fixed u k b) (State.belSend_ddc u k b) (State.belSend_regs u k b)

theorem backNow (h : s.KeepsPaths u) (b : Nat) : s.KeepsPaths (u.backNow b) := by
  unfold State.backNow
  exact ite (h.change rfl rfl rfl) h

theorem backDue (h : s.KeepsPaths u) (b : Nat) : s.KeepsPaths (u.backDue b) := by
  unfold State.backDue
  exact ite h (h.change rfl rfl rfl)

theorem uncorrectable (h : s.KeepsPaths u) (port b : Nat) : s.KeepsPaths (u.uncorrectable port b) :=
  State.KeepsPaths.report (((h.count (Fld.aside_high (by decide))).setFld (Fld.aside_high (by decide))).setFld (Fld.aside_high (by decide))) 61 _

theorem burstRead (h : s.KeepsPaths u) (port b : Nat) : s.KeepsPaths (u.burstRead port b).1 := by
  have hmeets {v : State} (hv : s.KeepsPaths v) (ce : Nat) (ue newer : Bool) : s.KeepsPaths (v.burstMeets port b ce ue newer).1 := by
    have hc : s.KeepsPaths (v.only (decide (0 < ce)) (fun r => r.count Fld.MEM_CE_CNT 0 ce)) := hv.only ((refl v).count (Fld.aside_high (by decide)))
    unfold State.burstMeets
    dsimp only
    split
    · exact hc.uncorrectable port b
    · exact State.KeepsPaths.only (f := fun r => r.backDue b) hc ((refl _).backDue b)
  exact hmeets (h.backNow b) _ _ _

theorem portRead (h : s.KeepsPaths u) (port : Nat) (ap : Bool) (a k : Nat) : s.KeepsPaths (u.portRead port ap a k).1 := by
  have hall (bs : List Nat) (acc : State × Bool) (ha : s.KeepsPaths acc.1) :
      s.KeepsPaths (bs.foldl (fun acc b => ((acc.1.burstRead port b).1, acc.2 || (acc.1.burstRead port b).2)) acc).1 := by
    induction bs generalizing acc with
    | nil => exact ha
    | cons b bs ih => exact ih _ (ha.burstRead port b)
  unfold State.portRead
  dsimp only
  split
  · exact h.traffic
  · exact hall _ _ h.traffic

theorem sendShare (h : s.KeepsPaths u) (k no : Nat) (eng : Bool) (a len : Nat) : s.KeepsPaths (u.sendShare k no eng a len) := by
  have hread : s.KeepsPaths (u.dramRead 8 a len).1 := h.portRead 8 false a len
  unfold State.sendShare
  exact ite (h.change rfl rfl rfl) (ite hread (hread.foldl (fun r x _ => (refl r).belSend 5 _)))

theorem setStale (h : s.KeepsPaths u) (l : List (Nat × Nat)) : s.KeepsPaths (u.setStale l) :=
  (h.change (w := { u with twn := { u.twn with stale := l } }) rfl rfl rfl).setFlag (Fld.aside_high (by decide))

theorem shareWait (h : s.KeepsPaths u) (l : List (Nat × Nat)) : s.KeepsPaths { u with twn := { u.twn with shareWait := l } } := h.change rfl rfl rfl

theorem shareReady (h : s.KeepsPaths u) (k : Nat) : s.KeepsPaths (u.shareReady k) := by
  unfold State.shareReady
  split
  · exact ite ((h.shareWait _).sendShare _ _ _ _ _) h
  · exact h

theorem ckptSend (h : s.KeepsPaths u) (k no : Nat) : s.KeepsPaths (u.ckptSend k no) := by
  unfold State.ckptSend
  refine ite h ?_
  extract_lets s1 twn1 s2 twn2 s3 ck
  have h1 : s.KeepsPaths s1 := h.sendShare _ _ _ _ _
  have h2 : s.KeepsPaths s2 := by
    subst s2
    split
    · exact ((h1.shareWait _).sendShare _ _ _ _ _).setStale _
    · exact h1
  have h3 : s.KeepsPaths s3 := ite h2 ((h2.shareWait _).shareReady k)
  exact ite (h3.setStale _) h3

theorem ckptShare (h : s.KeepsPaths u) (k no : Nat) : s.KeepsPaths (u.ckptShare k no) := by
  unfold State.ckptShare
  refine ite h (State.KeepsPaths.portWrite ?_)
  exact h.change rfl rfl rfl

/-! ### Engines at a block's close (R176, R213, R219) -/

theorem engTake (h : s.KeepsPaths u) (e : Nat) : s.KeepsPaths (u.engTake e) := by
  have hcopy : ¬ PathSide (engKey e Fld.ANV_CKBASE_BASE.addr) := pathSide_high (by simp only [engKey]; omega)
  unfold State.engTake
  exact ite ((((h.takeLive (Fld.aside_high (by decide))).takeLive hcopy).onEngine e _).took 7 e) h

theorem tachTake (h : s.KeepsPaths u) : s.KeepsPaths u.tachTake := by
  unfold State.tachTake
  refine ite ?_ h
  extract_lets one s1
  have hone (r : State) (k : Nat) : r.KeepsPaths (one k r) := by
    subst one
    beta_reduce
    extract_lets a b stale enable v1 v2
    have hv1 : r.KeepsPaths v1 := ((refl r).takeLive (Fld.aside_high (by decide))).takeLive (Fld.aside_high (by decide))
    have hv2 : r.KeepsPaths v2 := ite ((hv1.setFlag (Fld.aside_high (by decide))).onTach k _) hv1
    exact ite (((hv2.setFld (Fld.aside_high (by decide))).setFlag (Fld.aside_high (by decide))).onTach k _) hv2
  have h1 : s.KeepsPaths s1 := h.each (fun r k _ => hone r k)
  exact ((h1.takeLive (pathSide_high (by decide))).takeLive (pathSide_high (by decide))).took 7 100

theorem engBlockClose (h : s.KeepsPaths u) (k : Nat) : s.KeepsPaths (u.engBlockClose k) := by
  unfold State.engBlockClose
  exact (tachTake (h.each (fun r e _ => (refl r).engTake e))).each (fun r e _ => (refl r).onEngine e _)

/-! ### Blocks of a lane, and its restart (R175 to R177, R180) -/

theorem rowEvent (h : s.KeepsPaths u) (k : Nat) : s.KeepsPaths (u.rowEvent k) := h.each (fun r e _ => (refl r).onEngine e _)

theorem setPos (h : s.KeepsPaths u) (hn : n < 8) : s.KeepsPaths (u.setPos n) :=
  ((h.setFld (Fld.aside_phx hn (by decide))).setFld (Fld.aside_phx hn (by decide))).each (fun r e _ => (refl r).onEngine e _)

theorem posAll (h : s.KeepsPaths u) : s.KeepsPaths u.posAll := h.each (fun r _ hk => (refl r).setPos ((List.mem_range.mp hk).trans_le u.lanes_le))

theorem beginBlock (h : s.KeepsPaths u) (hn : n < 8) (no : Nat) : s.KeepsPaths (u.beginBlock n no) := by
  have hb {g : PhxLane → PhxLane} : s.KeepsPaths (u.onPhx n g) := h.onPhx n g
  unfold State.beginBlock
  exact ite h (ite ((hb.count (Fld.aside_phx hn (by decide))).setFld (Fld.aside_phx hn (by decide))) hb)

theorem writeRow (h : s.KeepsPaths u) (k no slot g : Nat) (ws : List Nat) : s.KeepsPaths (u.writeRow k no slot g ws) := h.portWrite

theorem fillRows (h : s.KeepsPaths u) (hn : n < 8) (j : Nat) (all : Bool) : s.KeepsPaths (u.fillRows n j all) := by
  unfold State.fillRows
  refine ite h ?_
  extract_lets slots one before s1 s2
  have hone (r : State) (k : Nat) : r.KeepsPaths (one r k) := ite (refl r) ((refl r).foldl (fun v g _ => (refl v).writeRow n _ k _ _))
  have h2 : s.KeepsPaths s2 := State.KeepsPaths.setPos (((h.beginBlock hn _).foldl (fun r k _ => hone r k)).onPhx n _) hn
  exact ite (h2.rowEvent n) h2

theorem closeBlock (h : s.KeepsPaths u) (hn : n < 8) (j : Nat) (early reissue : Bool) : s.KeepsPaths (u.closeBlock n j early reissue) := by
  have lane {f : Fld} (hf : 0x50000 ≤ f.addr ∧ f.addr + f.stride * 8 < 0x60000) : ¬ PathSide (f.at n) := Fld.aside_phx hn hf
  unfold State.closeBlock
  extract_lets l p b no mine stamped s1 m rtd lim res temps s2 s3 t0 img s4 s5 s6 s7 s8
  have h3 : s.KeepsPaths s3 := ((h.fillRows hn j reissue).setFlag (lane (by decide))).setFld (lane (by decide))
  have h5 : s.KeepsPaths s5 := (h3.portWrite.drawn).onPhx n _
  have h6 : s.KeepsPaths s6 := ite (h5.faultAt 5 n _ 0 1) h5
  have h8 : s.KeepsPaths s8 := (((h6.count (lane (by decide))).setPos hn).setFlag (lane (by decide))).setLaneBit (Fld.aside_phx (by decide) (by decide))
  exact (((h8.engBlockClose n).posAll).ckptShare n no).ckptSend n no

theorem phxRestart (h : s.KeepsPaths u) (hn : n < 8) : s.KeepsPaths (u.phxRestart n) := by
  have lane {f : Fld} (hf : 0x50000 ≤ f.addr ∧ f.addr + f.stride * 8 < 0x60000) : ¬ PathSide (f.at n) := Fld.aside_phx hn hf
  have window {f : Fld} (hf : 0x50000 ≤ f.addr ∧ f.addr + f.stride * 8 < 0x60000) : ¬ PathSide (f.at 0) := Fld.aside_phx (by decide) hf
  unfold State.phxRestart
  extract_lets l
  split
  · exact h
  · extract_lets slot upto s1 s2 s3
    have h2 : s.KeepsPaths s2 := (h.foldl (fun r _ _ => (refl r).closeBlock hn _ true false)).onPhx n _
    have h3 : s.KeepsPaths s3 := (((h2.setFlag (lane (by decide))).setFlag (lane (by decide))).setLaneBit (window (by decide))).setFlag (lane (by decide))
    exact State.KeepsPaths.setPos (((h3.setFlag (lane (by decide))).setFlag (lane (by decide))).setLaneBit (window (by decide))) hn

end State.KeepsPaths

end Sys2Proof.Machine

/-! PROOFS. What a path takes at a boundary, and restarts (R159 to R163). -/

namespace Sys2Proof.Machine

/-! ### One path -/

theorem State.path_congr {s u : State} (h : u.ddc.path = s.ddc.path) (c b : Nat) : u.path c b = s.path c b := by simp only [State.path, h]

section Access

variable (s : State) (c b : Nat) (f : DdcPath → DdcPath)

theorem State.path_onPath_same (hc : c < 16) (hb : b < 4) : (s.onPath c b f).path c b = f (s.path c b) := by
  have hin : 4 * c + b < 64 := by omega
  simp [State.path, State.onPath, Vector.getD, hin]

/-- No two paths share an entry. -/
theorem State.path_onPath_other (c' b' : Nat) (hb : b < 4) (hb' : b' < 4) (hne : ¬ (c' = c ∧ b' = b)) : (s.onPath c b f).path c' b' = s.path c' b' := by
  have hkey : 4 * c + b ≠ 4 * c' + b' := by omega
  simp [State.path, State.onPath, Vector.getD, Array.getD_eq_getD_getElem?, Array.getElem?_setIfInBounds_ne hkey]

end Access

/-- From `s` to `u` only path `b` of channel `c`, the registers of DDC and those of SYS, and the marks of the configuration CRC, may differ. -/
structure State.PathOnly (c b : Nat) (s u : State) : Prop where
  dev : u.dev = s.dev
  fixed : u.fixed = s.fixed
  pending : u.regs.pending = s.regs.pending
  upper : ∀ k, 0x50000 ≤ k → u.live k = s.live k
  ddc : ∃ ps, u.ddc = { s.ddc with path := ps }
  paths : ∀ c' b', b < 4 → b' < 4 → ¬ (c' = c ∧ b' = b) → u.path c' b' = s.path c' b'
  eng : u.eng = s.eng
  que : u.que = s.que
  mem : u.mem = s.mem
  phx : u.phx = s.phx
  wck : u.wck = s.wck

namespace State.PathOnly

variable {s u w : State} {c b : Nat}

theorem refl (c b : Nat) (s : State) : s.PathOnly c b s := ⟨rfl, rfl, rfl, fun _ _ => rfl, ⟨_, rfl⟩, fun _ _ _ _ _ => rfl, rfl, rfl, rfl, rfl, rfl⟩

theorem trans (h : State.PathOnly c b s u) (h' : State.PathOnly c b u w) : State.PathOnly c b s w where
  dev := h'.dev.trans h.dev
  fixed := h'.fixed.trans h.fixed
  pending := h'.pending.trans h.pending
  upper k hk := (h'.upper k hk).trans (h.upper k hk)
  ddc := by
    obtain ⟨ps, hps⟩ := h.ddc
    obtain ⟨qs, hqs⟩ := h'.ddc
    exact ⟨qs, by rw [hqs, hps]⟩
  paths c' b' hb hb' hne := (h'.paths c' b' hb hb' hne).trans (h.paths c' b' hb hb' hne)
  eng := h'.eng.trans h.eng
  que := h'.que.trans h.que
  mem := h'.mem.trans h.mem
  phx := h'.phx.trans h.phx
  wck := h'.wck.trans h.wck

/-! ### Registers of DDC and SYS -/

theorem setLive (h : State.PathOnly c b s u) (k : Nat) (x : Word) (hk : k < 0x50000) : State.PathOnly c b s (u.setLive k x) :=
  h.trans ⟨rfl, rfl, rfl, fun j hj => State.live_setLive_other u k j x (by omega), ⟨_, rfl⟩, fun _ _ _ _ _ => rfl, rfl, rfl, rfl, rfl, rfl⟩

theorem setFld (h : State.PathOnly c b s u) {f : Fld} {n v : Nat} (hk : f.at n < 0x50000) : State.PathOnly c b s (u.setFld f n v) := h.setLive _ _ hk

theorem setFlag (h : State.PathOnly c b s u) {f : Fld} {n : Nat} {x : Bool} (hk : f.at n < 0x50000) : State.PathOnly c b s (u.setFlag f n x) := h.setLive _ _ hk

theorem count (h : State.PathOnly c b s u) {f : Fld} {n k : Nat} (hk : f.at n < 0x50000) : State.PathOnly c b s (u.count f n k) := h.setLive _ _ hk

theorem takeLive (h : State.PathOnly c b s u) {k : Nat} {x : Word} (hk : k < 0x50000) : State.PathOnly c b s (u.takeLive k x) := by
  have hcover {v : State} (hv : State.PathOnly c b s v) : State.PathOnly c b s v.coverChanged :=
    State.PathOnly.setFlag (u := { v with sys := { v.sys with passDirty := true } })
      (hv.trans ⟨rfl, rfl, rfl, fun _ _ => rfl, ⟨_, rfl⟩, fun _ _ _ _ _ => rfl, rfl, rfl, rfl, rfl, rfl⟩) (by decide)
  unfold State.takeLive
  split
  · exact h.setLive k x hk
  · exact hcover (h.setLive k x hk)

theorem onPath (h : State.PathOnly c b s u) (f : DdcPath → DdcPath) : State.PathOnly c b s (u.onPath c b f) :=
  h.trans ⟨rfl, rfl, rfl, fun _ _ => rfl, ⟨_, rfl⟩, fun c' b' hb hb' hne => u.path_onPath_other c b f c' b' hb hb' hne, rfl, rfl, rfl, rfl, rfl⟩

/-! ### Restarts and what a path takes (R159 to R163) -/

/-- The registers of a channel's paths lie in DDC's window. -/
theorem stat_at (hc : c < 16) {f : Fld} (hf : f.addr + f.stride * 16 < 0x50000) : f.at c < 0x50000 :=
  lt_of_le_of_lt (Nat.add_le_add_left (Nat.mul_le_mul_left f.stride hc.le) f.addr) hf

theorem pathStat (h : State.PathOnly c b s u) (hc : c < 16) : State.PathOnly c b s (u.pathStat c) :=
  (((h.setFld (stat_at hc (by decide))).setFld (stat_at hc (by decide))).setFld (stat_at hc (by decide))).setFld (stat_at (c := 0) (by decide) (by decide))

theorem pathRestart (h : State.PathOnly c b s u) (hc : c < 16) (at_ : Nat) : State.PathOnly c b s (u.pathRestart c b at_) :=
  State.PathOnly.pathStat ((h.onPath _).count (stat_at (c := 0) (by decide) (by decide))) hc

end State.PathOnly

/-! ### What a path holds after it has taken its changes (R144, R159, R160) -/

theorem State.pathStat_ddc (s : State) (c : Nat) : (s.pathStat c).ddc = s.ddc := by simp only [State.pathStat, State.setFld_ddc]

theorem State.path_pathStat (s : State) (c c' b' : Nat) : (s.pathStat c).path c' b' = s.path c' b' := State.path_congr (congrArg Ddc.path (s.pathStat_ddc c)) c' b'

/-- A path that restarts at `at_`, on a device at time `dev`: its stages are empty, its outputs carry SETTLE for the fill length, and no earlier input enters. -/
def DdcPath.restarted (p : DdcPath) (dev at_ : Nat) : DdcPath :=
  { p.emptied with settle := fillLen p, settleFrom := at_ + 1, next := 0, sat := 0, rankWin := p.win, rankK := p.k, from_ := at_,
                   out := if dev ≤ p.out then p.out else dev / 8 * 8 + 8 }

theorem State.path_pathRestart (s : State) (c b at_ : Nat) (hc : c < 16) (hb : b < 4) :
    (s.pathRestart c b at_).path c b = (s.path c b).restarted s.dev at_ := by
  unfold State.pathRestart
  rw [State.path_pathStat, State.path_congr (congrArg Ddc.path (State.count_ddc ..)), s.path_onPath_same c b _ hc hb]
  rfl

/-- How a path's changes end: it restarts, or stops, or goes on; whether it runs and how many taps it has is as it was taken. -/
theorem State.path_ending (s : State) (c b at_ : Nat) (hc : c < 16) (hb : b < 4) (restarts stops : Bool) (u : State)
    (hu : (if restarts then s.pathRestart c b at_ else if stops then (s.onPath c b (fun p => { p.emptied with cur := none, prev := [] })).pathStat c
      else s.pathStat c) = u) :
    (u.path c b).run = (s.path c b).run ∧ (u.path c b).taps = (s.path c b).taps ∧ State.PathOnly c b s u := by
  subst hu
  have hkeep := State.PathOnly.refl c b s
  split
  · rw [s.path_pathRestart c b at_ hc hb]
    exact ⟨rfl, rfl, hkeep.pathRestart hc at_⟩
  · split
    · rw [State.path_pathStat, s.path_onPath_same c b _ hc hb]
      exact ⟨rfl, rfl, (hkeep.onPath _).pathStat hc⟩
    · rw [State.path_pathStat]
      exact ⟨rfl, rfl, hkeep.pathStat hc⟩

theorem nco_at {c b : Nat} (hc : c < 16) (hb : b < 4) : (ncoFld b).at c < 0x50000 := by
  simp only [Fld.at, ncoFld, Fld.DDC_Cn_NCO0_WORD]
  omega

theorem gdly_at {c b : Nat} (hc : c < 16) (hb : b < 4) : (gdlyFld b).at c < 0x50000 := by
  simp only [Fld.at, gdlyFld, Fld.DDC_Cn_GDLY0_GDLY]
  omega

theorem State.takeLive_ddc (s : State) (k : Nat) (w : Word) : (s.takeLive k w).ddc = s.ddc := by
  unfold State.takeLive
  split
  · rfl
  · exact State.coverChanged_ddc _

/-- What a path takes: whether it runs follows its lane's EN bit and the probes in use, a converted filter brings its tap count, and nothing but the path and the registers
of DDC and SYS changes. -/
theorem State.pathTake_spec (s : State) (c b at_ : Nat) (copy filter coefs restart : Bool) (hc : c < 16) (hb : b < 4) :
    let u := s.pathTake c b at_ copy filter coefs restart
    (u.path c b).run = ((if copy then bit (s.pfld Fld.DDC_CTRL_EN 0) (c / 2) else (s.path c b).en) && decide (b < s.fld Fld.WCK_Ln_PROBES_P (c / 2)))
      ∧ (u.path c b).taps = (if filter then 2 * s.pfld (tapsFld b) (c / 2) else (s.path c b).taps) ∧ State.PathOnly c b s u := by
  unfold State.pathTake
  extract_lets n p en run word newNco set xg win k taps newSet newMf newWin p1 f due p2 s1 s2 changed
  have hddc : s2.ddc = (s.onPath c b (fun _ => p2)).ddc := (State.setFld_ddc ..).trans (State.takeLive_ddc ..)
  have hpath : s2.path c b = p2 := (State.path_congr (congrArg Ddc.path hddc) c b).trans (s.path_onPath_same c b _ hc hb)
  have h2 : State.PathOnly c b s s2 := (((State.PathOnly.refl c b s).onPath _).takeLive (nco_at hc hb)).setFld (gdly_at hc hb)
  obtain ⟨hrun, htaps, hend⟩ := s2.path_ending c b at_ hc hb (run && (!p.run || (restart && changed))) (!run) _ rfl
  exact ⟨hrun.trans (congrArg DdcPath.run hpath), htaps.trans (congrArg DdcPath.taps hpath), h2.trans hend⟩

/-! ### What both channels of a lane take for a probe (R159, R162) -/

namespace State.PathOnly

variable {s u : State} {c b : Nat}

theorem pfld (h : State.PathOnly c b s u) (f : Fld) (n : Nat) : u.pfld f n = s.pfld f n := by
  simp only [State.pfld, State.pend, h.pending, h.fixed]

/-- The registers beyond DDC read as they did. -/
theorem fld (h : State.PathOnly c b s u) {f : Fld} {n : Nat} (hf : 0x50000 ≤ f.addr) : u.fld f n = s.fld f n :=
  State.fld_of_live (h.upper _ (hf.trans (Nat.le_add_right _ _)))

theorem due (h : State.PathOnly c b s u) : u.ddc.due = s.ddc.due := by
  obtain ⟨ps, hps⟩ := h.ddc
  rw [hps]

theorem filt (h : State.PathOnly c b s u) : u.ddc.filt = s.ddc.filt := by
  obtain ⟨ps, hps⟩ := h.ddc
  rw [hps]

end State.PathOnly

/-- From `s` to `u` the fuses, the launches whose boundary is to come, and the registers beyond DDC are kept. -/
structure State.KeepsDue (s u : State) : Prop where
  fixed : u.fixed = s.fixed
  due : u.ddc.due = s.ddc.due
  upper : ∀ k, 0x50000 ≤ k → u.live k = s.live k

theorem State.KeepsDue.refl (s : State) : s.KeepsDue s := ⟨rfl, rfl, fun _ _ => rfl⟩

theorem State.KeepsDue.trans {s u w : State} (h : s.KeepsDue u) (h' : u.KeepsDue w) : s.KeepsDue w :=
  ⟨h'.fixed.trans h.fixed, h'.due.trans h.due, fun k hk => (h'.upper k hk).trans (h.upper k hk)⟩

theorem State.PathOnly.keepsDue {c b : Nat} {s u : State} (h : State.PathOnly c b s u) : s.KeepsDue u := ⟨h.fixed, h.due, h.upper⟩

/-- What a probe waits for: the committed copy, a converted filter that is ready, converted custom coefficients. -/
def State.takesCopy (s : State) (i gen : Nat) : Bool := s.ddc.wait.contains i && decide (s.ddc.commitGen ≤ gen)
def State.takesFilter (s : State) (i gen : Nat) : Bool := s.ddc.filt.contains i && s.ddc.mfGen.any (fun e => e.1 = i && decide (e.2 ≤ gen))
def State.takesCoefs (s : State) (i gen : Nat) : Bool :=
  s.ddc.cust.contains i && decide (s.ddc.custGen ≤ gen) && !s.ddc.conv.any (fun e => e.1 = 8)

/-- The two channels' paths of a probe after both have taken what it waits for. -/
def State.probePaths (s : State) (n b at_ gen : Nat) (restart : Bool) : State :=
  let i := 4 * n + b
  (s.pathTake (2 * n) b at_ (s.takesCopy i gen) (s.takesFilter i gen) (s.takesCoefs i gen) restart).pathTake (2 * n + 1) b at_ (s.takesCopy i gen)
    (s.takesFilter i gen) (s.takesCoefs i gen) restart

/-- What a probe has taken it waits for no more; nothing else follows its paths. -/
theorem State.probeTake_eq (s : State) (n b at_ gen : Nat) (restart : Bool) :
    ∃ ddc, s.probeTake n b at_ gen restart = { s.probePaths n b at_ gen restart with ddc := ddc }
    ∧ ddc.path = (s.probePaths n b at_ gen restart).ddc.path ∧ ddc.due = (s.probePaths n b at_ gen restart).ddc.due
    ∧ (s.takesFilter (4 * n + b) gen = true → ddc.filt = (s.probePaths n b at_ gen restart).ddc.filt.filter (fun k => k ≠ 4 * n + b)) := by
  unfold State.probeTake
  extract_lets i copy filter coefs s1 ddc ddc1 mine ddc2 ddc3
  have h1 : ddc1.path = ddc.path ∧ ddc1.due = ddc.due ∧ ddc1.filt = ddc.filt := by
    subst ddc1
    split <;> exact ⟨rfl, rfl, rfl⟩
  have h2 : ddc2.path = ddc1.path ∧ ddc2.due = ddc1.due ∧ (filter = true → ddc2.filt = ddc1.filt.filter (fun k => k ≠ i)) := by
    subst ddc2
    split
    · exact ⟨rfl, rfl, fun _ => rfl⟩
    next hf => exact ⟨rfl, rfl, fun h => absurd h hf⟩
  have h3 : ddc3.path = ddc2.path ∧ ddc3.due = ddc2.due ∧ ddc3.filt = ddc2.filt := by
    subst ddc3
    split <;> exact ⟨rfl, rfl, rfl⟩
  obtain ⟨hpath1, hdue1, hfilt1⟩ := h1
  obtain ⟨hpath2, hdue2, hfilt2⟩ := h2
  obtain ⟨hpath3, hdue3, hfilt3⟩ := h3
  exact ⟨ddc3, rfl, hpath3.trans (hpath2.trans hpath1), hdue3.trans (hdue2.trans hdue1),
    fun h => hfilt3.trans ((hfilt2 h).trans (congrArg (List.filter (fun k => k ≠ i)) hfilt1))⟩

section Probe

variable (s : State) (n b at_ gen : Nat) (restart : Bool) (hn : n < 8) (hb : b < 4)
include hn hb

/-- Whether a path of the probe runs, and its taps. -/
theorem State.probePaths_spec (c : Nat) (hc : c = 2 * n ∨ c = 2 * n + 1) :
    let u := s.probePaths n b at_ gen restart
    (u.path c b).run = ((if s.takesCopy (4 * n + b) gen then bit (s.pfld Fld.DDC_CTRL_EN 0) n else (s.path c b).en) && decide (b < s.fld Fld.WCK_Ln_PROBES_P n))
      ∧ (u.path c b).taps = (if s.takesFilter (4 * n + b) gen then 2 * s.pfld (tapsFld b) n else (s.path c b).taps) := by
  have hlane : 2 * n / 2 = n ∧ (2 * n + 1) / 2 = n := by omega
  have hx := s.pathTake_spec (2 * n) b at_ (s.takesCopy (4 * n + b) gen) (s.takesFilter (4 * n + b) gen) (s.takesCoefs (4 * n + b) gen) restart (by omega) hb
  obtain ⟨hrunx, htapsx, honlyx⟩ := hx
  have hy := (s.pathTake (2 * n) b at_ (s.takesCopy (4 * n + b) gen) (s.takesFilter (4 * n + b) gen) (s.takesCoefs (4 * n + b) gen) restart).pathTake_spec
    (2 * n + 1) b at_ (s.takesCopy (4 * n + b) gen) (s.takesFilter (4 * n + b) gen) (s.takesCoefs (4 * n + b) gen) restart (by omega) hb
  obtain ⟨hruny, htapsy, honlyy⟩ := hy
  rw [hlane.1] at hrunx htapsx
  rw [hlane.2, honlyx.pfld, honlyx.fld (by decide), honlyx.paths (2 * n + 1) b hb hb (by omega)] at hruny
  rw [hlane.2, honlyx.pfld, honlyx.paths (2 * n + 1) b hb hb (by omega)] at htapsy
  rcases hc with rfl | rfl
  · have hkept := honlyy.paths (2 * n) b hb hb (by omega)
    exact ⟨(congrArg DdcPath.run hkept).trans hrunx, (congrArg DdcPath.taps hkept).trans htapsx⟩
  · exact ⟨hruny, htapsy⟩

theorem State.probePaths_keeps : s.KeepsDue (s.probePaths n b at_ gen restart) ∧ (s.probePaths n b at_ gen restart).ddc.filt = s.ddc.filt := by
  have hx := (s.pathTake_spec (2 * n) b at_ (s.takesCopy (4 * n + b) gen) (s.takesFilter (4 * n + b) gen) (s.takesCoefs (4 * n + b) gen) restart (by omega) hb).2.2
  have hy := ((s.pathTake (2 * n) b at_ (s.takesCopy (4 * n + b) gen) (s.takesFilter (4 * n + b) gen) (s.takesCoefs (4 * n + b) gen) restart).pathTake_spec
    (2 * n + 1) b at_ (s.takesCopy (4 * n + b) gen) (s.takesFilter (4 * n + b) gen) (s.takesCoefs (4 * n + b) gen) restart (by omega) hb).2.2
  exact ⟨hx.keepsDue.trans hy.keepsDue, hy.filt.trans hx.filt⟩

theorem State.probeTake_keeps : s.KeepsDue (s.probeTake n b at_ gen restart) := by
  obtain ⟨ddc, heq, -, hdue, -⟩ := s.probeTake_eq n b at_ gen restart
  have hpaths := (s.probePaths_keeps n b at_ gen restart hn hb).1
  rw [heq]
  exact hpaths.trans ⟨rfl, hdue, fun _ _ => rfl⟩

theorem State.probeTake_run (c : Nat) (hc : c = 2 * n ∨ c = 2 * n + 1) : ((s.probeTake n b at_ gen restart).path c b).run =
    ((if s.takesCopy (4 * n + b) gen then bit (s.pfld Fld.DDC_CTRL_EN 0) n else (s.path c b).en) && decide (b < s.fld Fld.WCK_Ln_PROBES_P n)) := by
  obtain ⟨ddc, heq, hpath, -, -⟩ := s.probeTake_eq n b at_ gen restart
  have hsame := State.path_congr (s := s.probePaths n b at_ gen restart) (u := s.probeTake n b at_ gen restart) (by rw [heq]; exact hpath) c b
  rw [hsame]
  exact (s.probePaths_spec n b at_ gen restart hn hb c hc).1

/-- A ready filter that a probe takes is waited for no more, and brings its tap count to both channels. -/
theorem State.probeTake_filter (g : Nat) (hfilt : s.ddc.filt.contains (4 * n + b) = true) (hready : (4 * n + b, g) ∈ s.ddc.mfGen) (hgen : g ≤ gen) :
    let u := s.probeTake n b at_ gen restart
    u.ddc.filt = s.ddc.filt.filter (fun i => i ≠ 4 * n + b) ∧ (u.path (2 * n) b).taps = 2 * s.pfld (tapsFld b) n
      ∧ (u.path (2 * n + 1) b).taps = 2 * s.pfld (tapsFld b) n := by
  have htakes : s.takesFilter (4 * n + b) gen = true :=
    Bool.and_eq_true_iff.mpr ⟨hfilt, List.any_eq_true.mpr ⟨_, hready, by simp [hgen]⟩⟩
  obtain ⟨ddc, heq, hpath, -, hleft⟩ := s.probeTake_eq n b at_ gen restart
  have hsame (c : Nat) := State.path_congr (s := s.probePaths n b at_ gen restart) (u := s.probeTake n b at_ gen restart) (by rw [heq]; exact hpath) c b
  have htaps (c : Nat) (hc : c = 2 * n ∨ c = 2 * n + 1) : ((s.probeTake n b at_ gen restart).path c b).taps = 2 * s.pfld (tapsFld b) n := by
    rw [hsame, (s.probePaths_spec n b at_ gen restart hn hb c hc).2, if_pos htakes]
  refine ⟨?_, htaps _ (.inl rfl), htaps _ (.inr rfl)⟩
  rw [heq]
  exact (hleft htakes).trans (congrArg _ (s.probePaths_keeps n b at_ gen restart hn hb).2)

end Probe

/-! ### Every running path restarts (R160) -/

/-- What the effect on each unit of a list keeps. -/
theorem State.each_members (R : State → State → Prop) (hrefl : ∀ s, R s s) (htrans : ∀ s u w, R s u → R u w → R s w) (f : Nat → State → State)
    (us : List Nat) (h : ∀ m ∈ us, ∀ s, R s (f m s)) (s : State) : R s (s.each us f) := by
  induction us generalizing s with
  | nil => exact hrefl s
  | cons m us ih => exact htrans _ _ _ (h m List.mem_cons_self s) (ih (fun k hk => h k (List.mem_cons_of_mem m hk)) (f m s))

/-- Of effects that are each made once, the one on unit `n` alone moves what the others keep. -/
theorem State.each_once (R : State → State → Prop) (hrefl : ∀ s, R s s) (htrans : ∀ s u w, R s u → R u w → R s w) (f : Nat → State → State)
    (n : Nat) (us : List Nat) (hn : n ∈ us) (hnodup : us.Nodup) (hother : ∀ m ∈ us, m ≠ n → ∀ s, R s (f m s)) (s : State) : ∃ v, R s v ∧ R (f n v) (s.each us f) := by
  obtain ⟨before, behind, rfl⟩ := List.append_of_mem hn
  rw [List.nodup_append] at hnodup
  obtain ⟨-, hbehind, hsplit⟩ := hnodup
  refine ⟨s.each before f, State.each_members R hrefl htrans f before (fun m hm => hother m (List.mem_append_left _ hm) (hsplit m hm n List.mem_cons_self)) s, ?_⟩
  have heach : s.each (before ++ n :: behind) f = (f n (s.each before f)).each behind f := List.foldl_append
  rw [heach]
  exact State.each_members R hrefl htrans f behind
    (fun m hm => hother m (List.mem_append_right _ (List.mem_cons_of_mem n hm)) (fun e => (List.nodup_cons.mp hbehind).1 (e ▸ hm))) _

/-- Path `b` of channel `c` and the device's time are as they were. -/
def State.PathStands (c b : Nat) (s u : State) : Prop := u.path c b = s.path c b ∧ u.dev = s.dev

theorem State.PathStands.refl (c b : Nat) (s : State) : State.PathStands c b s s := ⟨rfl, rfl⟩

theorem State.PathStands.trans {c b : Nat} (s u w : State) (h : State.PathStands c b s u) (h' : State.PathStands c b u w) : State.PathStands c b s w :=
  ⟨h'.1.trans h.1, h'.2.trans h.2⟩

/-- A running path restarts. -/
def State.restartRunning (s : State) (c b : Nat) : State := s.only (s.path c b).run (fun r => r.pathRestart c b r.dev)

/-- The restart of another path leaves this one. -/
theorem State.restartRunning_stands (s : State) (c b c' b' : Nat) (hc' : c' < 16) (hb : b < 4) (hb' : b' < 4) (hne : ¬ (c = c' ∧ b = b')) :
    State.PathStands c b s (s.restartRunning c' b') := by
  unfold State.restartRunning
  cases (s.path c' b').run
  · exact State.PathStands.refl c b s
  · have h := (State.PathOnly.refl c' b' s).pathRestart hc' s.dev
    exact ⟨h.paths c b hb' hb hne, h.dev⟩

theorem State.allRestart_eq (s : State) : s.allRestart = s.each (List.range s.channels) (fun c r => r.each [0, 1, 2, 3] (fun b r => r.restartRunning c b)) := (rfl)

/-- A path restarts as it stood, once. -/
theorem State.path_allRestart (s : State) (c b : Nat) (hc : c < s.channels) (hb : b < 4) :
    s.allRestart.path c b = if (s.path c b).run then (s.path c b).restarted s.dev s.dev else s.path c b := by
  have hle : s.channels ≤ 16 := s.channels_le
  have hprobes : ∀ m ∈ [0, 1, 2, 3], m < 4 := by decide
  have hlt (m : Nat) (hm : m ∈ List.range s.channels) : m < 16 := (List.mem_range.mp hm).trans_le hle
  have hmem : b ∈ [0, 1, 2, 3] := by simp; omega
  obtain ⟨v, ⟨hpathv, hdevv⟩, hout, -⟩ := State.each_once (State.PathStands c b) (State.PathStands.refl c b) State.PathStands.trans
    (fun c r => r.each [0, 1, 2, 3] (fun b r => r.restartRunning c b)) c (List.range s.channels) (List.mem_range.mpr hc) List.nodup_range
    (fun m hm hne => State.each_members _ (State.PathStands.refl c b) State.PathStands.trans _ _
      (fun k hk r => r.restartRunning_stands c b m k (hlt m hm) hb (hprobes k hk) (fun e => hne e.1.symm))) s
  obtain ⟨w, ⟨hpathw, hdevw⟩, hin, -⟩ := State.each_once (State.PathStands c b) (State.PathStands.refl c b) State.PathStands.trans
    (fun b r => r.restartRunning c b) b [0, 1, 2, 3] hmem (by decide)
    (fun m hm hne r => r.restartRunning_stands c b c m (by omega) hb (hprobes m hm) (fun e => hne e.2.symm)) v
  rw [State.allRestart_eq, hout, hin, State.restartRunning, hpathw, hpathv]
  cases hrun : (s.path c b).run
  · exact hpathw.trans hpathv
  · rw [State.only_true, State.path_pathRestart _ _ _ _ (by omega) hb, hpathw, hpathv, hdevw, hdevv]
    rfl

end Sys2Proof.Machine

/-! PROOFS. A launch's boundary: its frame begins on the probe's paths (R146, R159, R163). -/

namespace Sys2Proof.Machine

/-! ### What stands for one path (R145, R146) -/

/-- From `s` to `u` path `b` of channel `c`, its NCO word and PHREF, lane `n`'s frame length, the fuses and the launches whose boundary is to come are kept. -/
structure State.Alike (n c b : Nat) (s u : State) : Prop where
  fixed : u.fixed = s.fixed
  due : u.ddc.due = s.ddc.due
  path : u.path c b = s.path c b
  nco : u.live ((ncoFld b).at c) = s.live ((ncoFld b).at c)
  phref : u.live ((phrefFld b).at c) = s.live ((phrefFld b).at c)
  len : u.live (Fld.WCK_Ln_FRAME_N.at n) = s.live (Fld.WCK_Ln_FRAME_N.at n)

namespace State.Alike

variable {s u w : State} {n c b : Nat}

theorem trans (h : State.Alike n c b s u) (h' : State.Alike n c b u w) : State.Alike n c b s w :=
  ⟨h'.fixed.trans h.fixed, h'.due.trans h.due, h'.path.trans h.path, h'.nco.trans h.nco, h'.phref.trans h.phref, h'.len.trans h.len⟩

theorem lenN (h : State.Alike n c b s u) : u.lenN n = s.lenN n := State.fld_of_live h.len

theorem phrefFld (h : State.Alike n c b s u) : u.fld (phrefFld b) c = s.fld (phrefFld b) c := State.fld_of_live h.phref

theorem ncoAt (h : State.Alike n c b s u) (t : Nat) : u.ncoAt c b t = s.ncoAt c b t := by
  simp only [State.ncoAt, h.path, State.fld_of_live h.nco]

end State.Alike

theorem State.KeepsPaths.alike {s u : State} {n c b : Nat} (h : s.KeepsPaths u) (hn : n < 8) (hc : c < 16) (hb : b < 4) : State.Alike n c b s u where
  fixed := h.fixed
  due := congrArg Ddc.due h.ddc
  path := State.path_congr (congrArg Ddc.path h.ddc) c b
  nco := h.live _ (by simp only [PathSide, Fld.at, ncoFld, Fld.DDC_Cn_NCO0_WORD]; omega)
  phref := h.live _ (by simp only [PathSide, Fld.at, phrefFld, Fld.DDC_Cn_PHREF0_PHREF]; omega)
  len := h.live _ (by simp only [PathSide, Fld.at, Fld.WCK_Ln_FRAME_N]; omega)

/-- What a command's effect leaves of a path, the command leaves. -/
theorem State.alike_after (s : State) (t : Nat) (f : State → State) (n c b : Nat) (h : (f (s.begin t)).fixed = s.fixed) :
    State.Alike n c b (f (s.begin t)) (s.after t f) :=
  ⟨h.symm, rfl, rfl, s.live_after t _ f h, s.live_after t _ f h, s.live_after t _ f h⟩

/-! ### The frame of a launch (R27, R146, R163) -/

/-- The frame of a launch on path `b` of channel `c`. -/
def State.launchFrame (s : State) (n : Nat) (d : DdcDue) (c : Nat) : DdcFrame :=
  ⟨d.stamp, wholeDelay (pathDelay (s.path c d.probe)), (d.blank + 7) / 8, s.ncoAt c d.probe (d.stamp + 48), s.lenN n⟩

/-- A path takes a new frame; those before it can still be placed in while their outputs are on the way. -/
def DdcPath.takeFrame (p : DdcPath) (f : DdcFrame) (at_ : Nat) : DdcPath := { p with cur := some f, prev := p.live at_ }

/-- A running path of the launch's probe records PHREF and begins its frame. -/
def State.beginFrame (s : State) (n : Nat) (d : DdcDue) (c : Nat) : State :=
  if (s.path c d.probe).run then
    (s.setFld (phrefFld d.probe) c (s.ncoAt c d.probe (d.stamp + 48))).onPath c d.probe (fun p => p.takeFrame (s.launchFrame n d c) (d.stamp + 48))
  else s

theorem State.onPath_due (s : State) (c b : Nat) (f : DdcPath → DdcPath) : (s.onPath c b f).ddc.due = s.ddc.due := (rfl)

theorem State.path_setFld (s : State) (f : Fld) (n v c b : Nat) : (s.setFld f n v).path c b = s.path c b := (rfl)

theorem State.live_onPath (s : State) (c b k : Nat) (f : DdcPath → DdcPath) : (s.onPath c b f).live k = s.live k := (rfl)

theorem wrapInt_lt (n : Nat) (x : Int) : wrapInt n x < 2 ^ n := by
  have hpos : (0 : Int) < ((2 ^ n : Nat) : Int) := Int.natCast_pos.mpr (Nat.two_pow_pos n)
  have hlt := Int.emod_lt_of_pos x hpos
  unfold wrapInt
  omega

/-- An accumulator has 32 bits. -/
theorem State.ncoAt_lt (s : State) (c b t : Nat) : s.ncoAt c b t < 2 ^ 32 := by
  unfold State.ncoAt
  dsimp only
  split
  · exact Nat.mod_lt _ (Nat.two_pow_pos 32)
  · exact wrapInt_lt 32 _

/-- PHREF is no register of a path's NCO, of another channel's PHREF or of a sequencer's frame. -/
theorem phref_ne {b c : Nat} (hb : b < 4) : (∀ c', (ncoFld b).at c' ≠ (phrefFld b).at c) ∧ (∀ c', c' ≠ c → (phrefFld b).at c' ≠ (phrefFld b).at c)
    ∧ ∀ n, Fld.WCK_Ln_FRAME_N.at n ≠ (phrefFld b).at c := by
  simp only [Fld.at, ncoFld, phrefFld, Fld.DDC_Cn_NCO0_WORD, Fld.DDC_Cn_PHREF0_PHREF, Fld.WCK_Ln_FRAME_N]
  exact ⟨fun c' => by omega, fun c' hne => by omega, fun n => by omega⟩

section Frame

variable (s : State) (n : Nat) (d : DdcDue) (c : Nat)

/-- A register apart from PHREF of the channel. -/
theorem State.live_beginFrame (k : Nat) (hk : k ≠ (phrefFld d.probe).at c) : (s.beginFrame n d c).live k = s.live k := by
  unfold State.beginFrame
  split
  · exact (State.live_onPath ..).trans (State.live_setLive_other s _ k _ hk)
  · rfl

theorem State.beginFrame_fixed : (s.beginFrame n d c).fixed = s.fixed := by
  unfold State.beginFrame
  split
  · rw [State.onPath_fixed, State.setFld_fixed]
  · rfl

theorem State.beginFrame_due : (s.beginFrame n d c).ddc.due = s.ddc.due := by
  unfold State.beginFrame
  split
  · rw [State.onPath_due, State.setFld_ddc]
  · rfl

theorem State.path_beginFrame_other (hb : d.probe < 4) (c' : Nat) (hne : c' ≠ c) : (s.beginFrame n d c).path c' d.probe = s.path c' d.probe := by
  unfold State.beginFrame
  split
  · rw [State.path_onPath_other _ c d.probe _ c' d.probe hb hb (fun e => hne e.1), State.path_setFld]
  · rfl

theorem State.path_beginFrame_same (hb : d.probe < 4) (hc : c < 16) : (s.beginFrame n d c).path c d.probe =
    if (s.path c d.probe).run then (s.path c d.probe).takeFrame (s.launchFrame n d c) (d.stamp + 48) else s.path c d.probe := by
  unfold State.beginFrame
  split
  · rw [State.path_onPath_same _ c d.probe _ hc hb, State.path_setFld]
  · rfl

/-- The frame of one channel leaves another channel's path alone. -/
theorem State.beginFrame_alike (hb : d.probe < 4) (c' : Nat) (hne : c' ≠ c) : State.Alike n c' d.probe s (s.beginFrame n d c) := by
  obtain ⟨hnco, hphref, hlen⟩ := phref_ne (c := c) hb
  exact ⟨s.beginFrame_fixed n d c, s.beginFrame_due n d c, s.path_beginFrame_other n d c hb c' hne, s.live_beginFrame n d c _ (hnco c'),
    s.live_beginFrame n d c _ (hphref c' hne), s.live_beginFrame n d c _ (hlen n)⟩

/-- A running path shows its frame and PHREF, and goes on. -/
theorem State.beginFrame_begins (hb : d.probe < 4) (hc : c < 16) (hrun : (s.path c d.probe).run = true) :
    let u := s.beginFrame n d c
    (u.path c d.probe).cur = some (u.launchFrame n d c) ∧ u.fld (phrefFld d.probe) c = u.ncoAt c d.probe (d.stamp + 48) := by
  intro u
  obtain ⟨hnco, -, hlen⟩ := phref_ne (c := c) hb
  have hpath : u.path c d.probe = (s.path c d.probe).takeFrame (s.launchFrame n d c) (d.stamp + 48) :=
    (s.path_beginFrame_same n d c hb hc).trans (if_pos hrun)
  have hword : u.fld (ncoFld d.probe) c = s.fld (ncoFld d.probe) c := State.fld_of_live (s.live_beginFrame n d c _ (hnco c))
  have hlen' : u.lenN n = s.lenN n := State.fld_of_live (s.live_beginFrame n d c _ (hlen n))
  have hacc : u.ncoAt c d.probe (d.stamp + 48) = s.ncoAt c d.probe (d.stamp + 48) := by
    simp only [State.ncoAt, hword, hpath, DdcPath.takeFrame]
  have hframe : u.launchFrame n d c = s.launchFrame n d c := by simp only [State.launchFrame, hacc, hlen', hpath, pathDelay, DdcPath.takeFrame]
  have hphref : u.fld (phrefFld d.probe) c = s.ncoAt c d.probe (d.stamp + 48) % 2 ^ 32 := by
    have hwrite : u.live ((phrefFld d.probe).at c) = (s.setFld (phrefFld d.probe) c (s.ncoAt c d.probe (d.stamp + 48))).live ((phrefFld d.probe).at c) := by
      simp only [u, State.beginFrame, hrun, if_true, State.live_onPath]
    exact (State.fld_of_live hwrite).trans (State.fld_setFld_same s _ c _ ⟨Nat.zero_le 31, Nat.le_refl 31⟩)
  exact ⟨hframe ▸ congrArg DdcPath.cur hpath, by rw [hphref, hacc, Nat.mod_eq_of_lt (s.ncoAt_lt c d.probe _)]⟩

end Frame

end Sys2Proof.Machine

/-! PROOFS. What a boundary takes, and what it leaves on its lane's paths (R146, R159, R163). -/

namespace Sys2Proof.Machine

/-! ### What a boundary takes first (R58, R60, R159) -/

/-- A launch whose boundary has come is due no more. -/
def State.dueGone (s : State) (d : DdcDue) : State := { s with ddc := { s.ddc with due := s.ddc.due.filter (fun e => e ≠ d) } }

/-- The probes whose changes a launch brings take them; a change of geometry under way holds them back. -/
def State.dueTaken (s : State) (n : Nat) (d : DdcDue) : State :=
  if (s.laneOf n).geo.isSome then s.dueGone d
  else ((s.dueGone d).each (if d.all_ then [0, 1, 2, 3] else [d.probe]) (fun b r => r.probeTake n b (d.stamp + 48) d.gen false)).ddcSettled.took 4 64

/-- The launches that are due stand, and so do DDC beside its registers and the registers beyond it. -/
def State.DdcStands (s u : State) : Prop := s.KeepsDue u ∧ u.ddc = s.ddc

theorem State.DdcStands.refl (s : State) : s.DdcStands s := ⟨State.KeepsDue.refl s, rfl⟩

theorem State.DdcStands.trans (s u w : State) (h : s.DdcStands u) (h' : u.DdcStands w) : s.DdcStands w := ⟨h.1.trans h'.1, h'.2.trans h.2⟩

/-- A change beside the registers and DDC. -/
theorem State.DdcStands.change {s u w : State} (h : s.DdcStands u) (hf : w.fixed = u.fixed) (hd : w.ddc = u.ddc) (hr : w.regs = u.regs) : s.DdcStands w :=
  ⟨h.1.trans ⟨hf, congrArg Ddc.due hd, fun k _ => State.live_congr hr hf k⟩, hd.trans h.2⟩

theorem State.setFld_stands (s : State) (f : Fld) (n v : Nat) (h : f.at n < 0x50000) : s.DdcStands (s.setFld f n v) :=
  ⟨((State.PathOnly.refl 0 0 s).setFld h).keepsDue, rfl⟩

theorem State.ddcSettled_stands (s : State) : s.DdcStands s.ddcSettled := by
  have hkeys : ∀ a ∈ [0x40000, 0x40004, 0x40008, 0x42000, 0x42004] ++ (List.range 8).map (fun k => 0x40040 + 4 * k), a < 0x50000 := by decide
  unfold State.ddcSettled
  split
  · exact State.each_members State.DdcStands State.DdcStands.refl State.DdcStands.trans (fun a r => r.takeLive a (r.pend a)) _
      (fun a ha r => ⟨((State.PathOnly.refl 0 0 r).takeLive (hkeys a ha)).keepsDue, r.takeLive_ddc a _⟩) s
  · exact State.DdcStands.refl s

theorem State.pendClear_stands (s : State) (win : Nat) : s.DdcStands (s.pendClear win) := by
  have hset {v : Nat} : s.DdcStands (s.setFld Fld.SYS_COMMIT_PEND 0 v) := s.setFld_stands _ _ _ (by decide)
  unfold State.pendClear
  split
  · extract_lets s1
    split
    · exact State.DdcStands.change (u := s1) hset rfl rfl rfl
    · exact hset
  · exact State.DdcStands.refl s

theorem State.took_stands (s : State) (win unit : Nat) : s.DdcStands (s.took win unit) := by
  have hwait {x : List (Nat × Nat)} : s.DdcStands { s with regs := { s.regs with wait := x } } := ⟨⟨rfl, rfl, fun _ _ => rfl⟩, rfl⟩
  unfold State.took
  extract_lets w regs s1
  split
  · exact hwait
  · exact State.DdcStands.trans _ _ _ hwait (s1.pendClear_stands win)

section Taken

variable (s : State) (n : Nat) (d : DdcDue)

theorem State.dueTaken_keeps (hn : n < 8) (hb : d.probe < 4) : (s.dueTaken n d).fixed = s.fixed ∧ (s.dueTaken n d).ddc.due = s.ddc.due.filter (fun e => e ≠ d)
    ∧ (s.dueTaken n d).lenN n = s.lenN n := by
  have hprobes : ∀ b ∈ (if d.all_ then [0, 1, 2, 3] else [d.probe]), b < 4 := by
    cases d.all_ <;> simp [hb]
  unfold State.dueTaken
  split
  · exact ⟨rfl, rfl, rfl⟩
  · have hprobe := State.each_members State.KeepsDue State.KeepsDue.refl (fun _ _ _ => State.KeepsDue.trans)
      (fun b r => r.probeTake n b (d.stamp + 48) d.gen false) _ (fun b hb' r => r.probeTake_keeps n b _ _ false hn (hprobes b hb')) (s.dueGone d)
    have hall := hprobe.trans ((State.ddcSettled_stands _).1.trans (State.took_stands _ 4 64).1)
    have hframe : 0x50000 ≤ Fld.WCK_Ln_FRAME_N.at n := (show 0x50000 ≤ Fld.WCK_Ln_FRAME_N.addr by decide).trans (Nat.le_add_right _ _)
    exact ⟨hall.fixed, hall.due, State.fld_of_live (s := s.dueGone d) (hall.upper _ hframe)⟩

/-- A change of geometry holds every change back. -/
theorem State.path_dueTaken_held (hgeo : (s.laneOf n).geo ≠ none) (c b : Nat) : (s.dueTaken n d).path c b = s.path c b := by
  obtain ⟨g, hg⟩ := Option.ne_none_iff_exists'.mp hgeo
  simp only [State.dueTaken, hg, Option.isSome_some, if_true]
  rfl

/-- The launch of a probe alone brings that probe its changes. -/
theorem State.run_dueTaken (hn : n < 8) (hb : d.probe < 4) (hall : d.all_ = false) (hgeo : (s.laneOf n).geo = none) (c : Nat) (hc : c = 2 * n ∨ c = 2 * n + 1) :
    ((s.dueTaken n d).path c d.probe).run =
      ((if s.takesCopy (4 * n + d.probe) d.gen then bit (s.pfld Fld.DDC_CTRL_EN 0) n else (s.path c d.probe).en)
        && decide (d.probe < s.fld Fld.WCK_Ln_PROBES_P n)) := by
  have hone (r : State) (f : Nat → State → State) : r.each [d.probe] f = f d.probe r := (rfl)
  simp only [State.dueTaken, hgeo, hall, Option.isSome_none, Bool.false_eq_true, if_false, hone]
  rw [State.path_congr (congrArg Ddc.path (State.took_stands _ 4 64).2), State.path_congr (congrArg Ddc.path (State.ddcSettled_stands _).2)]
  exact State.probeTake_run _ n d.probe _ _ false hn hb c hc

end Taken

/-! ### A boundary as its steps -/

/-- A report of channels that take no part leaves every path. -/
theorem State.noteOut_keeps (s : State) (n : Nat) (hn : n < 8) (f : PhxFrame) : s.KeepsPaths (s.noteOut n f) := by
  have lane {f : Fld} (hf : 0x50000 ≤ f.addr ∧ f.addr + f.stride * 8 < 0x60000) : ¬ PathSide (f.at n) := Fld.aside_phx hn hf
  unfold State.noteOut
  extract_lets x y s1
  have h1 : s.KeepsPaths s1 := (State.KeepsPaths.refl s).onPhx n _
  have hflag {f : Fld} (r : State) (hf : ¬ PathSide (f.at n)) : r.KeepsPaths (r.setFlag f n true) := (State.KeepsPaths.refl r).setFlag hf
  refine State.KeepsPaths.ite (State.KeepsPaths.refl s) (h1.only ?_)
  exact ((State.KeepsPaths.refl s1).only (hflag s1 (lane (by decide)))).only (hflag _ (lane (by decide)))

/-- Before the frames begin, and after, only the phase side of the lane follows: a restart of it, references that clear, and channels that take no part. -/
theorem State.pathBoundary_steps (s : State) (n : Nat) (d : DdcDue) (hn : n < 8) (hd : s.ddc.due.find? (fun d => d.lane = n) = some d) (hdue : d.stamp + 48 ≤ s.dev) :
    ∃ v, (s.dueTaken n d).KeepsPaths v ∧ ((v.beginFrame n d (2 * n)).beginFrame n d (2 * n + 1)).KeepsPaths (s.pathBoundary n) := by
  unfold State.pathBoundary
  split
  next hnone => exact absurd (hd.symm.trans hnone) (Option.some_ne_none d)
  next e he =>
    obtain rfl : d = e := Option.some.inj (hd.symm.trans he)
    rw [if_neg (Nat.not_lt.mpr hdue)]
    extract_lets b at_ ddc0 s0 hold nco r0 s1 s2 s3 one s4
    have hbegin (r : State) (c : Nat) : one r c = r.beginFrame n d c := (rfl)
    have h1 : (s.dueTaken n d).KeepsPaths s1 := State.KeepsPaths.refl _
    have h2 : (s.dueTaken n d).KeepsPaths s2 := State.KeepsPaths.ite h1 (h1.phxRestart hn)
    have hclear : (s.dueTaken n d).KeepsPaths (s2.clearRefs n d.stamp) := h2.change rfl rfl rfl
    have h3 : (s.dueTaken n d).KeepsPaths s3 := State.KeepsPaths.ite (hclear.onPhx n _) h2
    have h4 : s4 = (s3.beginFrame n d (2 * n)).beginFrame n d (2 * n + 1) := by rw [← hbegin, ← hbegin]
    refine ⟨s3, h3, ?_⟩
    rw [← h4]
    refine ((State.KeepsPaths.refl s4).onPhx n _).each (fun r k _ => ?_)
    split
    · exact r.noteOut_keeps n hn _
    · exact State.KeepsPaths.refl r

section Boundary

variable (s : State) (n : Nat) (d : DdcDue) (hn : n < 8) (hb : d.probe < 4) (hd : s.ddc.due.find? (fun d => d.lane = n) = some d) (hdue : d.stamp + 48 ≤ s.dev)
include hn hb hd hdue

/-- As far as one of the lane's channels goes, a boundary is what its probe takes and then its frame. -/
theorem State.pathBoundary_channel (c : Nat) (hc : c = 2 * n ∨ c = 2 * n + 1) :
    ∃ x, State.Alike n c d.probe (s.dueTaken n d) x ∧ State.Alike n c d.probe (x.beginFrame n d c) (s.pathBoundary n) := by
  obtain ⟨v, hv, hend⟩ := s.pathBoundary_steps n d hn hd hdue
  have hc16 : c < 16 := by omega
  rcases hc with rfl | rfl
  · exact ⟨v, hv.alike hn hc16 hb, ((v.beginFrame n d (2 * n)).beginFrame_alike n d _ hb _ (by omega)).trans (hend.alike hn hc16 hb)⟩
  · exact ⟨v.beginFrame n d (2 * n), (hv.alike hn hc16 hb).trans (v.beginFrame_alike n d _ hb _ (by omega)), hend.alike hn hc16 hb⟩

theorem State.pathBoundary_fixed_due : (s.pathBoundary n).fixed = s.fixed ∧ (s.pathBoundary n).ddc.due = s.ddc.due.filter (fun e => e ≠ d) := by
  obtain ⟨x, hx, hend⟩ := s.pathBoundary_channel n d hn hb hd hdue (2 * n) (.inl rfl)
  obtain ⟨hfix, hgone, -⟩ := s.dueTaken_keeps n d hn hb
  exact ⟨hend.fixed.trans ((x.beginFrame_fixed n d _).trans (hx.fixed.trans hfix)), hend.due.trans ((x.beginFrame_due n d _).trans (hx.due.trans hgone))⟩

/-- A path runs after its boundary as it does once its probe has taken its changes, and a running path shows the launch's frame and its PHREF. -/
theorem State.pathBoundary_path (u : State) (c : Nat) (hc : c = 2 * n ∨ c = 2 * n + 1) (hu : State.Alike n c d.probe (s.pathBoundary n) u) :
    (u.path c d.probe).run = ((s.dueTaken n d).path c d.probe).run
      ∧ ((u.path c d.probe).run = true →
        (u.path c d.probe).cur = some ⟨d.stamp, wholeDelay (pathDelay (u.path c d.probe)), (d.blank + 7) / 8, u.ncoAt c d.probe (d.stamp + 48), s.lenN n⟩
        ∧ u.fld (phrefFld d.probe) c = u.ncoAt c d.probe (d.stamp + 48)) := by
  have hc16 : c < 16 := by omega
  obtain ⟨x, hx, hend⟩ := s.pathBoundary_channel n d hn hb hd hdue c hc
  have hy := hend.trans hu
  have hpath := x.path_beginFrame_same n d c hb hc16
  have hrun : (u.path c d.probe).run = (x.path c d.probe).run := by
    rw [hy.path, hpath]
    split <;> rfl
  have hlen : (x.beginFrame n d c).lenN n = s.lenN n := by
    have hframe := State.fld_of_live (x.live_beginFrame n d c _ ((phref_ne hb).2.2 n))
    exact hframe.trans (hx.lenN.trans (s.dueTaken_keeps n d hn hb).2.2)
  refine ⟨hrun.trans (congrArg DdcPath.run hx.path), fun hruns => ?_⟩
  obtain ⟨hcur, hphref⟩ := x.beginFrame_begins n d c hb hc16 (hrun.symm.trans hruns)
  rw [hy.path, hy.ncoAt, hy.phrefFld]
  exact ⟨hcur.trans (by rw [State.launchFrame, hlen]), hphref⟩

end Boundary

theorem pathBoundary_early (s : State) (t n : Nat) (d : DdcDue) (hr : s.Runs) (hn : n < s.lanes) (hd : s.ddc.due.find? (fun d => d.lane = n) = some d)
    (hdue : (s.begin t).dev < d.stamp + 48) : exec (.pathBoundary t n) s = .next (s.after t (fun r => r)) := by
  have hd' : (s.begin t).ddc.due.find? (fun d => d.lane = n) = some d := hd
  dsimp only [exec]
  unfold execPathBoundary
  refine ticking_after t s _ _ hr ((State.only_pos _ _ _ (decide_eq_true hn)).trans ?_)
  unfold State.pathBoundary
  rw [hd']
  exact if_pos hdue

theorem pathBoundary_after (s : State) (t n : Nat) (hr : s.Runs) (hn : n < s.lanes) :
    exec (.pathBoundary t n) s = .next (s.after t (fun r => r.pathBoundary n)) := by
  dsimp only [exec]
  unfold execPathBoundary
  exact ticking_after t s _ _ hr (State.only_pos _ _ _ (decide_eq_true hn))

/-- What a launch's boundary leaves on its lane's two channels. -/
theorem pathBoundary_leaves (s : State) (t n : Nat) (d : DdcDue) (hr : s.Runs) (hn : n < s.lanes) (hd : s.ddc.due.find? (fun d => d.lane = n) = some d) (hb : d.probe < 4)
    (hdue : d.stamp + 48 ≤ (s.begin t).dev) :
    ∃ u, exec (.pathBoundary t n) s = .next u ∧ u.ddc.due = s.ddc.due.filter (fun e => e ≠ d)
      ∧ ∀ c, c = 2 * n ∨ c = 2 * n + 1 →
        let p := s.path c d.probe
        let q := u.path c d.probe
        (d.all_ = false → (s.laneOf n).geo = none → q.run =
          ((if s.ddc.wait.contains (4 * n + d.probe) && decide (s.ddc.commitGen ≤ d.gen) then bit (s.pfld Fld.DDC_CTRL_EN 0) n else p.en)
            && decide (d.probe < s.fld Fld.WCK_Ln_PROBES_P n)))
        ∧ ((s.laneOf n).geo ≠ none → q.run = p.run)
        ∧ (q.run = true → q.cur = some ⟨d.stamp, wholeDelay (pathDelay q), (d.blank + 7) / 8, u.ncoAt c d.probe (d.stamp + 48), s.lenN n⟩
          ∧ u.fld (phrefFld d.probe) c = u.ncoAt c d.probe (d.stamp + 48)) := by
  have hn8 : n < 8 := hn.trans_le s.lanes_le
  obtain ⟨hfix, hgone⟩ := (s.begin t).pathBoundary_fixed_due n d hn8 hb hd hdue
  refine ⟨_, pathBoundary_after s t n hr hn, hgone, fun c hc => ?_⟩
  obtain ⟨hrun, hframe⟩ := (s.begin t).pathBoundary_path n d hn8 hb hd hdue _ c hc (s.alike_after t (fun r => r.pathBoundary n) n c d.probe hfix)
  exact ⟨fun hall hgeo => hrun.trans ((s.begin t).run_dueTaken n d hn8 hb hall hgeo c hc),
    fun hgeo => hrun.trans (congrArg DdcPath.run ((s.begin t).path_dueTaken_held n d hgeo c d.probe)), hframe⟩

end Sys2Proof.Machine

/-! PROOFS. The outputs of a path (R143, R146, R151, R155 to R158). -/

namespace Sys2Proof.Machine

/-! ### Samples enter a path (R143, R147) -/

/-- The path `p` with what its stages hold replaced. -/
def DdcPath.holding (p : DdcPath) (dl1 dl2 dl3 dlm : List IQ) : DdcPath := { p with dl1 := dl1, dl2 := dl2, dl3 := dl3, dlm := dlm }

/-- The path `p` with its next output due at `o`. -/
def DdcPath.dueAt (p : DdcPath) (o : Nat) : DdcPath := { p with out := o }

/-- A sample moves what the stages of its path hold and nothing else. -/
theorem DdcPath.feed_holds (p : DdcPath) (k : Nat) (x : Int) (acc : Nat) : ∃ a b c m, (p.feed k x acc).1 = p.holding a b c m := by
  simp only [DdcPath.feed]
  split
  · exact ⟨_, _, _, _, rfl⟩
  · split
    · exact ⟨_, _, _, _, rfl⟩
    · split <;> exact ⟨_, _, _, _, rfl⟩

theorem DdcPath.stage_dueAt (p : DdcPath) (o k : Nat) (x : IQ) : (p.dueAt o).stage k x = ((p.stage k x).1.dueAt o, (p.stage k x).2) := by
  unfold DdcPath.stage
  split <;> rfl

/-- What a sample does to a path does not hang on when the next output is due. -/
theorem DdcPath.feed_dueAt (p : DdcPath) (o k : Nat) (x : Int) (acc : Nat) : (p.dueAt o).feed k x acc = (((p.feed k x acc).1).dueAt o, (p.feed k x acc).2) := by
  simp only [DdcPath.feed, DdcPath.stage_dueAt]
  split
  · rfl
  · split
    · rfl
    · split <;> rfl

/-- The samples enter one after another, with the count of what saturated. -/
def feedNext (xs : List (Int × Nat)) (acc : Nat → Nat) (r : DdcPath × Nat) (k : Nat) : DdcPath × Nat :=
  let o := r.1.feed k (normalised (xs.getD k (0, 3)).1 (xs.getD k (0, 3)).2) (acc k)
  (o.1, r.2 + o.2)

theorem DdcPath.feedAll_eq (p : DdcPath) (xs : List (Int × Nat)) (acc : Nat → Nat) : p.feedAll xs acc = (List.range 8).foldl (feedNext xs acc) (p, 0) := (rfl)

theorem DdcPath.feedAll_holds (p : DdcPath) (xs : List (Int × Nat)) (acc : Nat → Nat) : ∃ a b c m, (p.feedAll xs acc).1 = p.holding a b c m := by
  have hfold (ks : List Nat) (r : DdcPath × Nat) (hr : ∃ a b c m, r.1 = p.holding a b c m) : ∃ a b c m, (ks.foldl (feedNext xs acc) r).1 = p.holding a b c m := by
    induction ks generalizing r with
    | nil => exact hr
    | cons k ks ih =>
      obtain ⟨a, b, c, m, hr⟩ := hr
      obtain ⟨a', b', c', m', hk⟩ := r.1.feed_holds k (normalised (xs.getD k (0, 3)).1 (xs.getD k (0, 3)).2) (acc k)
      exact ih _ ⟨a', b', c', m', hk.trans (by rw [hr]; rfl)⟩
  exact hfold _ _ ⟨_, _, _, _, rfl⟩

theorem DdcPath.feedAll_dueAt (p : DdcPath) (o : Nat) (xs : List (Int × Nat)) (acc : Nat → Nat) :
    (p.dueAt o).feedAll xs acc = (((p.feedAll xs acc).1).dueAt o, (p.feedAll xs acc).2) := by
  have hfold (ks : List Nat) (r : DdcPath × Nat) :
      ks.foldl (feedNext xs acc) (r.1.dueAt o, r.2) = (((ks.foldl (feedNext xs acc) r).1).dueAt o, (ks.foldl (feedNext xs acc) r).2) := by
    induction ks generalizing r with
    | nil => rfl
    | cons k ks ih =>
      have hnext : feedNext xs acc (r.1.dueAt o, r.2) k = ((feedNext xs acc r k).1.dueAt o, (feedNext xs acc r k).2) := by
        simp only [feedNext, DdcPath.feed_dueAt]
      rw [List.foldl_cons, List.foldl_cons, hnext]
      exact ih (feedNext xs acc r k)
  exact hfold _ (p, 0)

/-- Only eight samples enter. -/
theorem DdcPath.feedAll_congr (p : DdcPath) (xs ys : List (Int × Nat)) (acc : Nat → Nat) (h : ∀ k, k < 8 → xs.getD k (0, 3) = ys.getD k (0, 3)) :
    p.feedAll xs acc = p.feedAll ys acc := by
  rw [p.feedAll_eq, p.feedAll_eq]
  refine List.foldl_ext _ _ _ (fun r k hk => ?_)
  simp only [feedNext, h k (List.mem_range.mp hk)]

/-! ### The frame of an output (R27, R50, R163) -/

/-- An output is placed at the point of its frame that its emergence gives. -/
theorem pointIn_some (t : Nat) (cut : Option Nat) (fs : List DdcFrame) (f : DdcFrame) (k : Nat) (h : pointIn t cut fs = some (f, k)) :
    f.start + 8 * k ≤ t ∧ t < f.start + 8 * k + 8 ∧ k < f.n := by
  induction fs generalizing cut with
  | nil => exact absurd h (by simp [pointIn])
  | cons g rest ih =>
    have hplace (c : Bool) (i : Nat) (hi : (if (decide (i < g.n) && c) = true then some (g, i) else none) = some (f, k)) : g = f ∧ i = k ∧ i < g.n := by
      split at hi
      next hin =>
        obtain ⟨hf, hk⟩ := Prod.mk.inj (Option.some.inj hi)
        exact ⟨hf, hk, of_decide_eq_true (Bool.and_eq_true_iff.mp hin).1⟩
      · exact absurd hi (by simp)
    unfold pointIn at h
    by_cases hstart : g.start ≤ t
    · rw [if_pos hstart] at h
      obtain ⟨rfl, rfl, hlt⟩ := hplace _ _ h
      omega
    · rw [if_neg hstart] at h
      exact ih _ h

theorem DdcPath.reach_frames (p : DdcPath) (t : Nat) : (p.reach t).frames = p.frames := by
  simp only [DdcPath.reach]
  split <;> split <;> rfl

theorem DdcPath.reach_dueAt (p : DdcPath) (o t : Nat) : (p.dueAt o).reach t = (p.reach t).dueAt o := by
  have hp : (p.dueAt o).next = p.next ∧ (p.dueAt o).nextFrom = p.nextFrom ∧ (p.dueAt o).rankFrom = p.rankFrom ∧ (p.dueAt o).win = p.win := ⟨rfl, rfl, rfl, rfl⟩
  obtain ⟨hnext, hfrom, hrank, hwin⟩ := hp
  simp only [DdcPath.reach, hnext, hfrom, hrank, hwin]
  split <;> split <;> rfl

/-- Whether a path runs, where its samples begin and when its next output is due do not hang on the changes that it reaches. -/
theorem DdcPath.reach_keeps (p : DdcPath) (t : Nat) : (p.reach t).run = p.run ∧ (p.reach t).out = p.out := by
  simp only [DdcPath.reach]
  split <;> split <;> exact ⟨rfl, rfl⟩

/-! ### The rank filter (R155) -/

/-- Without the filter an output passes as it is. -/
theorem rankOut_off (p : DdcPath) (x : RankIn) (hist : List RankIn) (hoff : p.rankWin = 0) (hx : hist.head? = some x) : rankOut p hist = some (x, false) := by
  simp [rankOut, hoff, hx]

/-- A window with members has one of median rank. -/
theorem medianOf_isSome (hist : List RankIn) (h : hist ≠ []) : ∃ m, medianOf hist = some m := by
  have hpos : 0 < hist.length := List.length_pos_iff.mpr h
  have hlen : (hist.reverse.insertionSort (fun a b => magEst8 a.i a.q ≤ magEst8 b.i b.q)).length = hist.length := by
    rw [List.length_insertionSort, List.length_reverse]
  have hmid : hist.length / 2 < (hist.reverse.insertionSort (fun a b => magEst8 a.i a.q ≤ magEst8 b.i b.q)).length := by omega
  have hmem := (List.mem_insertionSort (fun a b : RankIn => magEst8 a.i a.q ≤ magEst8 b.i b.q)).mp (List.getElem_mem hmid)
  unfold medianOf
  dsimp only
  rw [List.getElem?_eq_getElem hmid]
  exact Option.isSome_iff_exists.mp (List.find?_isSome.mpr ⟨_, hmem, decide_eq_true rfl⟩)

/-- A full window gives an output. -/
theorem rankOut_isSome (p : DdcPath) (hist : List RankIn) (hfull : hist.length = max 1 p.rankWin) : ∃ o, rankOut p hist = some o := by
  have hne : hist ≠ [] := List.length_pos_iff.mp (by omega)
  have hmid : rankDelay p.rankWin < hist.length := by
    unfold rankDelay
    split <;> omega
  obtain ⟨m, hm⟩ := medianOf_isSome hist hne
  unfold rankOut
  split
  · exact ⟨_, by rw [List.head?_eq_some_head hne]; rfl⟩
  · rw [List.getElem?_eq_getElem hmid, hm]
    dsimp only
    split <;> exact ⟨_, rfl⟩

/-- The window with a further member, all of which the first one fills. -/
def rankNext (win : Nat) (x : RankIn) (hist : List RankIn) : List RankIn :=
  if hist.isEmpty then List.replicate (max 1 win) x else (x :: hist).take (max 1 win)

theorem rankNext_head (win : Nat) (x : RankIn) (hist : List RankIn) : (rankNext win x hist).head? = some x := by
  have hpos : max 1 win ≠ 0 := by omega
  unfold rankNext
  split
  · simp [List.head?_replicate, hpos]
  · simp [List.head?_take, hpos]

theorem rankNext_length (win : Nat) (x : RankIn) (hist : List RankIn) (h : hist = [] ∨ hist.length = max 1 win) : (rankNext win x hist).length = max 1 win := by
  unfold rankNext
  split
  · exact List.length_replicate
  next hne =>
    rcases h with rfl | hlen
    · exact absurd rfl hne
    · rw [List.length_take, List.length_cons, hlen]
      omega

/-! ### One output (R143, R146, R158) -/

/-- In `u` the path has delivered `x` as its output at `t`, from the samples `xs`. -/
structure State.Delivers (s : State) (c b t : Nat) (xs : List (Int × Nat)) (u : State) (x : Sample) : Prop where
  only : State.PathOnly c b s u
  out : (u.path c b).out = (s.path c b).out
  run : (u.path c b).run = (s.path c b).run
  word : (u.path c b).word = outputWord b x
  blank : x.blank = (framePoint (s.path c b) t).elim false (fun h => decide (h.2 < h.1.blank))
  value : ((s.path c b).reach t).rankWin = 0 → (s.path c b).from_ + 8 ≤ t → ∀ f k, framePoint (s.path c b) t = some (f, k) → x.med = false ∧ (x.i, x.q) =
    (rotateBack ((((s.path c b).reach t).feedAll xs (fun i => s.ncoAt c b (t + i - 8))).1.matched (s.binsOf (c / 2) b)).1 f.phref).1

/-- A path delivers one output at `t`, which is placed at the point of its frame. -/
theorem State.pathOutput_delivers (s : State) (c b t : Nat) (xs : List (Int × Nat)) (hc : c < 16) (hb : b < 4)
    (hfull : ((s.path c b).reach t).hist = [] ∨ ((s.path c b).reach t).hist.length = max 1 ((s.path c b).reach t).rankWin) :
    ∃ u x, s.pathOutput c b t xs = (u, (framePoint (s.path c b) t).map (fun h => (x, h.1, h.2))) ∧ s.Delivers c b t xs u x := by
  unfold State.pathOutput
  extract_lets since ys fed p mf place rot x hist p1 s1 here blank
  obtain ⟨dl1, dl2, dl3, dlm, hfed⟩ : ∃ a b' c' m, p = ((s.path c b).reach t).holding a b' c' m := DdcPath.feedAll_holds ..
  have hmf : mf = fed.1.matched (s.binsOf (c / 2) b) := rfl
  clear_value p
  have hkept : p.frames = ((s.path c b).reach t).frames ∧ p.rankWin = ((s.path c b).reach t).rankWin ∧ p.hist = ((s.path c b).reach t).hist
      ∧ p.run = ((s.path c b).reach t).run ∧ p.out = ((s.path c b).reach t).out := by
    rw [hfed]
    exact ⟨rfl, rfl, rfl, rfl, rfl⟩
  obtain ⟨hframes, hwin, hhist, hruns, houts⟩ := hkept
  have hpoint (t' : Nat) : framePoint p t' = framePoint (s.path c b) t' := congrArg (pointIn t' none) (hframes.trans ((s.path c b).reach_frames t))
  have hnext : hist = rankNext p.rankWin x p.hist := rfl
  obtain ⟨⟨o, med⟩, ho⟩ := rankOut_isSome p1 hist (rankNext_length _ x _ (by rw [hhist, hwin]; exact hfull))
  rw [ho]
  dsimp -zeta only
  extract_lets y s2 s3
  have hsat : (Fld.DDC_SAT_CNT).at c < 0x50000 := State.PathOnly.stat_at hc (by decide)
  have hcount : (Fld.DDC_MED_CNT).at c < 0x50000 := State.PathOnly.stat_at hc (by decide)
  have h1 : State.PathOnly c b s s1 := (State.PathOnly.refl c b s).count hsat
  have h2 : State.PathOnly c b s s2 := by
    subst s2
    split
    · exact h1.count hcount
    · exact h1
  have hpath : s3.path c b = { p1 with settle := if p1.settleFrom ≤ t then p1.settle - 1 else p1.settle, sat := p1.sat - 1, word := outputWord b y } :=
    (State.path_pathStat ..).trans (s2.path_onPath_same c b _ hc hb)
  obtain ⟨hrun, hout⟩ := (s.path c b).reach_keeps t
  refine ⟨s3, y, by rw [← hpoint], (h2.onPath _).pathStat hc, ?_, ?_, congrArg DdcPath.word hpath, ?_, ?_⟩
  · exact (congrArg DdcPath.out hpath).trans (houts.trans hout)
  · exact (congrArg DdcPath.run hpath).trans (hruns.trans hrun)
  · rw [← hpoint]
    change blank = here.elim false _
    subst blank
    cases here <;> rfl
  · intro hoff hsince f k hfk
    have hys : fed = ((s.path c b).reach t).feedAll xs (fun i => s.ncoAt c b (t + i - 8)) := by
      refine DdcPath.feedAll_congr _ _ _ _ (fun k hk => ?_)
      have hlate : ¬ t + k < (s.path c b).from_ + 8 := by omega
      simp [ys, since, hk, hlate]
    have hplace : place = some (f, k) := by
      rw [← hfk, ← hpoint]
      simp only [place, hwin, hoff]
      rfl
    have hturn : rot = rotateBack mf.1 f.phref := by simp only [rot, hplace]
    have hx := rankOut_off p1 x hist (hwin.trans hoff) (by rw [hnext]; exact rankNext_head ..)
    obtain ⟨hox, hmed⟩ := Prod.mk.inj (Option.some.inj (ho.symm.trans hx))
    have hval : (o.i, o.q) = (rotateBack mf.1 f.phref).1 := by rw [hox, ← hturn]
    exact ⟨hmed, by rw [← hys, ← hmf]; exact hval⟩

end Sys2Proof.Machine

/-! PROOFS. Tables, conversions and the outputs of the sub-band paths as instructions (R143, R146, R158, R162, R167). -/

namespace Sys2Proof.Machine

/-! ### Table writes (R162, R167) -/

section Tables

variable (s : State) (src : Source) (a : Nat) (val : Word)

/-- A bin of the addressed lane's spectra is staged, or kept while the lane's conversion is pending. -/
theorem State.spectrumWrite_bin (hlo : 0x48000 ≤ a) (hhi : a < 0x4A000) : s.spectrumWrite src a val =
    (let n := s.fld Fld.DDC_TBLPAGE_LANE 0
     let i := n * 2048 + (a - 0x48000) / 4
     if s.laneBit Fld.DDC_STAT_MFPEND n then s.clamp src a val (sget 0 s.ddc.specStg i) rsPending 0 31
     else ({ s with ddc := { s.ddc with
         specStg := sput 0 s.ddc.specStg i val
         specChanged := if s.ddc.specChanged.contains (i / 512) then s.ddc.specChanged else s.ddc.specChanged ++ [i / 512] } }).markDirty 4) := by
  have hoff : a % 0x10000 - 0x8000 = a - 0x48000 ∧ a % 0x10000 < 0xA000 := by omega
  unfold State.spectrumWrite
  dsimp only
  rw [if_pos hoff.2, hoff.1]

/-- A write between the ranges of the custom coefficients has no effect. -/
theorem State.spectrumWrite_between (hlo : 0x4A000 ≤ a) (hhi : a < 0x4D000) (hr : customRange (a % 0x10000) = false) : s.spectrumWrite src a val = s := by
  have hoff : ¬ a % 0x10000 < 0xA000 := by omega
  unfold State.spectrumWrite
  dsimp only
  rw [if_neg hoff, if_neg (by rw [hr]; decide)]

/-- A custom tap is staged where expert space is open to its source and no conversion of the set is pending. -/
theorem State.spectrumWrite_tap (hlo : 0x4A000 ≤ a) (hhi : a < 0x4D000) (hr : customRange (a % 0x10000) = true) : s.spectrumWrite src a val =
    (let i := a % 0x10000 / 4
     if src ≠ .twin ∧ s.flag Fld.SYS_CTRL_EXPERT_EN 0 = false then s.clamp src a val (sget 0 s.ddc.coefStg i) rsExpert 0 31
     else if s.flag Fld.DDC_STAT_XPEND 0 then s.clamp src a val (sget 0 s.ddc.coefStg i) rsPending 0 31
     else ({ s with ddc := { s.ddc with
         coefStg := sput 0 s.ddc.coefStg i (BitVec.ofNat 32 (wrapInt 32 (signed 18 val.toNat)))
         coefChanged := true } }).markDirty 4) := by
  have hoff : ¬ a % 0x10000 < 0xA000 := by omega
  have hexpert : ((decide (src ≠ .twin) && !s.flag Fld.SYS_CTRL_EXPERT_EN 0) = true) = (src ≠ .twin ∧ s.flag Fld.SYS_CTRL_EXPERT_EN 0 = false) := by simp
  unfold State.spectrumWrite
  dsimp only
  rw [if_neg hoff, if_pos hr]
  simp only [hexpert]

end Tables

theorem spectrumWrite_after (s : State) (t : Nat) (src : Source) (addr val : Word) (g : State → State) (hr : s.Runs) (hlo : 0x48000 ≤ addr.toNat)
    (hhi : addr.toNat < 0x4D000) (ha : (s.begin t).Admits src addr.toNat) (hg : (s.begin t).spectrumWrite src addr.toNat val = g (s.begin t)) :
    exec (.spectrumWrite t src addr val) s = .next (s.after t g) := by
  dsimp only [exec]
  unfold execSpectrumWrite
  refine ticking_after t s _ _ hr ((State.only_pos _ _ _ (by simp [hlo, hhi])).trans ?_)
  exact ((s.begin t).admit_of src _ val _ ha).trans hg

/-! ### Conversions (R162) -/

/-- A conversion that is due. -/
theorem State.conversionDone_due (s : State) (unit at_ : Nat) (hfind : s.ddc.conv.find? (fun e => e.1 = unit) = some (unit, at_)) (hdue : at_ ≤ s.dev) :
    s.conversionDone unit =
      (let g := s.ddc.gen + 1
       let ready := (s.ddc.filt.filter (fun i => i / 4 = unit && !s.ddc.mfGen.any (fun e => e.1 = i))).map (fun i => (i, g))
       let r1 := { s with ddc := { s.ddc with
           conv := s.ddc.conv.filter (fun e => e.1 ≠ unit)
           gen := g
           mfGen := s.ddc.mfGen ++ ready
           custGen := if unit = 8 then g else s.ddc.custGen } }
       if unit = 8 then r1.setFlag Fld.DDC_STAT_XPEND 0 false else r1.setLaneBit Fld.DDC_STAT_MFPEND unit false) := by
  unfold State.conversionDone
  rw [hfind]
  exact if_neg (Nat.not_lt.mpr hdue)

/-- What follows a condition, as a Boolean and as a proposition. -/
theorem State.only_eq_ite (s : State) (p : Prop) [Decidable p] (c : Bool) (f : State → State) (h : c = true ↔ p) : s.only c f = if p then f s else s := by
  by_cases hp : p
  · rw [if_pos hp, State.only_pos _ _ _ (h.mpr hp)]
  · cases c
    · exact (if_neg hp).symm
    · exact absurd (h.mp rfl) hp

theorem mfConversionDone_after (s : State) (t unit at_ : Nat) (hr : s.Runs) (hfind : s.ddc.conv.find? (fun e => e.1 = unit) = some (unit, at_))
    (hdue : at_ ≤ (s.begin t).dev) :
    exec (.mfConversionDone t unit) s = .next (s.after t (fun r =>
      let g := r.ddc.gen + 1
      let ready := (r.ddc.filt.filter (fun i => i / 4 = unit && !r.ddc.mfGen.any (fun e => e.1 = i))).map (fun i => (i, g))
      let r1 := { r with ddc := { r.ddc with
          conv := r.ddc.conv.filter (fun e => e.1 ≠ unit)
          gen := g
          mfGen := r.ddc.mfGen ++ ready
          custGen := if unit = 8 then g else r.ddc.custGen } }
      (if unit = 8 then r1.setFlag Fld.DDC_STAT_XPEND 0 false else r1.setLaneBit Fld.DDC_STAT_MFPEND unit false).each (List.range s.lanes)
        (fun n r => if n = unit ∨ unit = 8 then r.settleLane n else r))) := by
  have hsettle : (fun n (r : State) => r.only (n = unit || unit = 8) (fun r => r.settleLane n)) = fun n r => if n = unit ∨ unit = 8 then r.settleLane n else r :=
    funext fun n => funext fun r => r.only_eq_ite _ _ _ (by simp)
  dsimp only [exec]
  unfold execMfConversionDone
  refine ticking_after t s _ _ hr ?_
  unfold State.conversionTake
  rw [(s.begin t).conversionDone_due unit at_ hfind hdue, hsettle]
  rfl

/-- A lane that can have a boundary waits for it. -/
theorem State.settleLane_waits (s : State) (n : Nat) (h : s.canBoundary n = true) : s.settleLane n = s := if_pos h

/-! ### Outputs (R143, R158) -/

/-- The state in which path `b` of channel `c` delivers the output due now from the channel's samples `xs`; its next output is due in eight ticks. -/
def State.atOutput (s : State) (c b : Nat) (xs : List (Int × Nat)) : State :=
  (s.onHsc c (fun h => { h with eight := some (s.dev, xs) })).onPath c b (fun p => { p with out := s.dev + 8 })

/-- What follows an output: a capture takes it, and it is placed. -/
def State.passOn (s : State) (c b : Nat) (place : Option (Sample × DdcFrame × Nat)) : State :=
  match place with
  | some (x, f, k) => (s.captureOutput c b).placeSample c f.stamp k x
  | none => s.captureOutput c b

section AtOutput

variable (s : State) (c b : Nat) (xs : List (Int × Nat))

theorem State.path_atOutput (hc : c < 16) (hb : b < 4) : (s.atOutput c b xs).path c b = (s.path c b).dueAt (s.dev + 8) :=
  (s.onHsc c (fun h => { h with eight := some (s.dev, xs) })).path_onPath_same c b _ hc hb

theorem State.ncoAt_atOutput (hc : c < 16) (hb : b < 4) (i : Nat) : (s.atOutput c b xs).ncoAt c b i = s.ncoAt c b i := by
  have hword : (s.atOutput c b xs).fld (ncoFld b) c = s.fld (ncoFld b) c := State.fld_of_live (State.live_onPath ..)
  simp only [State.ncoAt, hword, s.path_atOutput c b xs hc hb, DdcPath.dueAt]

theorem State.captureOutput_keeps : (s.captureOutput c b).ddc = s.ddc ∧ (s.captureOutput c b).eng = s.eng ∧ (s.captureOutput c b).que = s.que
    ∧ (s.captureOutput c b).mem = s.mem ∧ (s.captureOutput c b).phx = s.phx ∧ (s.captureOutput c b).fixed = s.fixed := by
  unfold State.captureOutput
  extract_lets w
  split
  · split <;> exact ⟨rfl, rfl, rfl, rfl, rfl, rfl⟩
  · exact ⟨rfl, rfl, rfl, rfl, rfl, rfl⟩

/-- The frames of a lane take an output by what they are. -/
theorem State.placeSample_phx (u : State) (h : u.phx = s.phx) (stamp k : Nat) (x : Sample) :
    (u.placeSample c stamp k x).phx = (s.placeSample c stamp k x).phx := by
  have hlane : u.phxOf (c / 2) = s.phxOf (c / 2) := by simp only [State.phxOf, h]
  simp only [State.placeSample, State.onPhx, h, hlane]

end AtOutput

section Delivered

variable (s : State) (c b : Nat) (place : Option (Sample × DdcFrame × Nat))

/-- Neither a capture nor the placing moves the paths, the engines, the queue or the memories; only a placed output reaches the phase side. -/
theorem State.passOn_keeps : (s.passOn c b place).ddc = s.ddc ∧ (s.passOn c b place).eng = s.eng ∧ (s.passOn c b place).que = s.que
    ∧ (s.passOn c b place).mem = s.mem := by
  obtain ⟨hddc, heng, hque, hmem, -, -⟩ := s.captureOutput_keeps c b
  rcases place with _ | ⟨x, f, k⟩ <;> exact ⟨hddc, heng, hque, hmem⟩

theorem State.passOn_phx (v : State) (hv : s.phx = v.phx) :
    (place = none → (s.passOn c b place).phx = v.phx) ∧ ∀ x f k, place = some (x, f, k) → (s.passOn c b place).phx = (v.placeSample c f.stamp k x).phx := by
  obtain ⟨-, -, -, -, hphx, -⟩ := s.captureOutput_keeps c b
  refine ⟨?_, ?_⟩
  · rintro rfl
    exact hphx.trans hv
  · rintro x f k rfl
    exact State.placeSample_phx v c _ (hphx.trans hv) _ _ _

end Delivered

/-- The state once path `b` of channel `c` has delivered the output due now. -/
def State.delivered (s : State) (c b : Nat) (xs : List (Int × Nat)) : State :=
  ((s.atOutput c b xs).pathOutput c b s.dev xs).1.passOn c b ((s.atOutput c b xs).pathOutput c b s.dev xs).2

/-- What an output that is due leaves. -/
theorem State.delivered_spec (s : State) (c b : Nat) (xs : List (Int × Nat)) (hc : c < 16) (hb : b < 4)
    (hfull : ((s.path c b).reach s.dev).hist = [] ∨ ((s.path c b).reach s.dev).hist.length = max 1 ((s.path c b).reach s.dev).rankWin) :
    ∃ x, let u := s.delivered c b xs
      (u.path c b).out = s.dev + 8 ∧ (u.path c b).run = (s.path c b).run ∧ (u.path c b).word = outputWord b x ∧ u.eng = s.eng ∧ u.que = s.que ∧ u.mem = s.mem
      ∧ (framePoint (s.path c b) s.dev = none → u.phx = s.phx ∧ x.blank = false)
      ∧ ∀ f k, framePoint (s.path c b) s.dev = some (f, k) → x.blank = decide (k < f.blank) ∧ u.phx = (s.placeSample c f.stamp k x).phx
        ∧ (((s.path c b).reach s.dev).rankWin = 0 → (s.path c b).from_ + 8 ≤ s.dev → x.med = false ∧ (x.i, x.q) =
          (rotateBack ((((s.path c b).reach s.dev).feedAll xs (fun i => s.ncoAt c b (s.dev + i - 8))).1.matched (s.binsOf (c / 2) b)).1 f.phref).1) := by
  have hpath := s.path_atOutput c b xs hc hb
  have hreach : ((s.atOutput c b xs).path c b).reach s.dev = ((s.path c b).reach s.dev).dueAt (s.dev + 8) := by rw [hpath, DdcPath.reach_dueAt]
  have hpoint : framePoint ((s.atOutput c b xs).path c b) s.dev = framePoint (s.path c b) s.dev := (congrArg (fun p => framePoint p s.dev) hpath).trans rfl
  have hfed : (((s.atOutput c b xs).path c b).reach s.dev).feedAll xs (fun i => (s.atOutput c b xs).ncoAt c b (s.dev + i - 8))
      = ((((s.path c b).reach s.dev).feedAll xs (fun i => s.ncoAt c b (s.dev + i - 8))).1.dueAt (s.dev + 8),
        (((s.path c b).reach s.dev).feedAll xs (fun i => s.ncoAt c b (s.dev + i - 8))).2) := by
    simp only [hreach, s.ncoAt_atOutput c b xs hc hb]
    exact DdcPath.feedAll_dueAt ..
  obtain ⟨v, x, hout, hd⟩ := (s.atOutput c b xs).pathOutput_delivers c b s.dev xs hc hb (by rw [hreach]; exact hfull)
  have hu : s.delivered c b xs = v.passOn c b ((framePoint (s.path c b) s.dev).map (fun h => (x, h.1, h.2))) := by rw [State.delivered, hout, hpoint]
  obtain ⟨hddc, heng, hque, hmem⟩ := v.passOn_keeps c b ((framePoint (s.path c b) s.dev).map (fun h => (x, h.1, h.2)))
  obtain ⟨hnone, hsome⟩ := v.passOn_phx c b ((framePoint (s.path c b) s.dev).map (fun h => (x, h.1, h.2))) s hd.only.phx
  have hend := State.path_congr (congrArg Ddc.path hddc) c b
  refine ⟨x, ?_⟩
  rw [hu]
  dsimp only
  rw [hend]
  refine ⟨?_, ?_, hd.word, heng.trans hd.only.eng, hque.trans hd.only.que, hmem.trans hd.only.mem, fun h => ⟨?_, ?_⟩,
    fun f k hfk => ⟨?_, ?_, fun hoff hsince => ?_⟩⟩
  · rw [hd.out, hpath]
    rfl
  · rw [hd.run, hpath]
    rfl
  · exact hnone (by rw [h]; rfl)
  · rw [hd.blank, hpoint, h]
    rfl
  · rw [hd.blank, hpoint, hfk]
    rfl
  · exact hsome x f k (by rw [hfk]; rfl)
  · have hval := hd.value (by rw [hreach]; exact hoff) (by rw [hpath]; exact hsince) f k (hpoint.trans hfk)
    rw [hfed] at hval
    exact hval

/-- An output before its time is none. -/
theorem ddcOutput_early (s : State) (t c b : Nat) (k0 k1 k2 : List Int) (hr : s.Runs) (hout : (s.begin t).dev ≠ (s.path c b).out) :
    exec (.ddcOutput t c b k0 k1 k2) s = .next (s.after t (fun r => r)) := by
  dsimp only [exec]
  unfold execDdcOutput
  have hnot : (decide (c < s.channels) && decide (b < 4) && ((s.begin t).path c b).run && decide ((s.begin t).dev = ((s.begin t).path c b).out)) = false :=
    Bool.and_eq_false_iff.mpr (.inr (decide_eq_false hout))
  exact ticking_after t s _ _ hr ((congrArg (State.only _ · _) hnot).trans (State.only_false _ _))

theorem ddcOutput_after (s : State) (t c b : Nat) (k0 k1 k2 : List Int) (hr : s.Runs) (hc : c < s.channels) (hb : b < 4) (hrun : (s.path c b).run = true)
    (hout : (s.begin t).dev = (s.path c b).out) :
    exec (.ddcOutput t c b k0 k1 k2) s = .next (s.after t (fun r => r.delivered c b (r.eightFor c r.dev [k0, k1, k2]))) := by
  have hdue : (decide (c < (s.begin t).channels) && decide (b < 4) && ((s.begin t).path c b).run && decide ((s.begin t).dev = ((s.begin t).path c b).out)) = true := by
    simp only [Bool.and_eq_true, decide_eq_true_eq]
    exact ⟨⟨⟨hc, hb⟩, hrun⟩, hout⟩
  dsimp only [exec]
  unfold execDdcOutput
  exact ticking_after t s _ _ hr ((State.only_pos _ _ _ hdue).trans rfl)

/-- A running path delivers its output at the moment it is due. -/
theorem ddcOutput_delivers (s : State) (t c b : Nat) (k0 k1 k2 : List Int) (hr : s.Runs) (hc : c < s.channels) (hb : b < 4) (hrun : (s.path c b).run = true)
    (hout : (s.begin t).dev = (s.path c b).out)
    (hfull : ((s.path c b).reach (s.begin t).dev).hist = []
      ∨ ((s.path c b).reach (s.begin t).dev).hist.length = max 1 ((s.path c b).reach (s.begin t).dev).rankWin) :
    ∃ u x, exec (.ddcOutput t c b k0 k1 k2) s = .next u ∧ (u.path c b).out = (s.begin t).dev + 8 ∧ (u.path c b).run = true
      ∧ (u.path c b).word = outputWord b x ∧ u.eng = s.eng ∧ u.que = s.que ∧ u.mem = s.mem
      ∧ (framePoint (s.path c b) (s.begin t).dev = none → u.phx = s.phx ∧ x.blank = false)
      ∧ ∀ f k, framePoint (s.path c b) (s.begin t).dev = some (f, k) →
        f.stamp + 48 + 8 * f.gdly + 8 * k ≤ (s.begin t).dev ∧ (s.begin t).dev < f.stamp + 48 + 8 * f.gdly + 8 * k + 8 ∧ k < f.n
        ∧ x.blank = decide (k < f.blank) ∧ u.phx = (s.placeSample c f.stamp k x).phx
        ∧ (((s.path c b).reach (s.begin t).dev).rankWin = 0 → (s.path c b).from_ + 8 ≤ (s.begin t).dev → x.med = false ∧ (x.i, x.q) =
          (rotateBack ((((s.path c b).reach (s.begin t).dev).feedAll ((s.begin t).eightFor c (s.begin t).dev [k0, k1, k2])
            (fun i => s.ncoAt c b ((s.begin t).dev + i - 8))).1.matched (s.binsOf (c / 2) b)).1 f.phref).1) := by
  have hend := ddcOutput_after s t c b k0 k1 k2 hr hc hb hrun hout
  obtain ⟨x, hspec⟩ := (s.begin t).delivered_spec c b ((s.begin t).eightFor c (s.begin t).dev [k0, k1, k2]) (hc.trans_le s.channels_le) hb hfull
  unfold State.after at hend
  dsimp only at hend
  generalize (s.begin t).delivered c b ((s.begin t).eightFor c (s.begin t).dev [k0, k1, k2]) = v at hspec hend
  obtain ⟨hout', hrun', hword, heng, hque, hmem, hnone, hsome⟩ := hspec
  refine ⟨_, x, hend, hout', hrun'.trans hrun, hword, heng, hque, hmem, hnone, fun f k hfk => ?_⟩
  obtain ⟨hfrom, hto, hpoints⟩ := pointIn_some _ none _ f k hfk
  exact ⟨hfrom, hto, hpoints, hsome f k hfk⟩

end Sys2Proof.Machine

/-! PROOFS. A calibration's end and the restart of a phase lane (R123, R125, R160, R177). -/

namespace Sys2Proof.Machine

/-! ### Flags beside the one that is written -/

/-- A flag keeps its value where another field is written whose bits are not its own. -/
theorem State.flag_setFld_bits (s : State) (f g : Fld) (u w v : Nat) (hf : f.Fits) (hd : g.hi < f.lo ∨ f.hi < g.lo) : (s.setFld f u v).flag g w = s.flag g w :=
  State.flag_of_fld (s.fld_setFld_bits f g u w v hf hd)

/-- A flag of another register keeps its value. -/
theorem State.flag_setFld_addr (s : State) (f g : Fld) (u w v : Nat) (h : g.at w ≠ f.at u) : (s.setFld f u v).flag g w = s.flag g w :=
  State.flag_of_fld (s.fld_setFld_addr f g u w v h)

/-! ### The end of a calibration (R123) -/

/-- Before it is due a calibration goes on. -/
theorem State.calDone_early (s : State) (ttrim t0 : Nat) (slices : List (Int × Int × Int)) (hsince : s.hsc.calSince = some t0) (hearly : s.dev < t0 + 1171875 * 8) :
    s.calDone ttrim slices = s := by
  unfold State.calDone
  rw [hsince]
  exact if_pos hearly

/-- A calibration that ends is not busy. -/
theorem State.calDone_idle (s : State) (ttrim t0 : Nat) (slices : List (Int × Int × Int)) (hsince : s.hsc.calSince = some t0) (hdue : t0 + 1171875 * 8 ≤ s.dev) :
    (s.calDone ttrim slices).flag Fld.HSC_STAT_CALBUSY 0 = false := by
  unfold State.calDone
  rw [hsince]
  dsimp -zeta only
  rw [if_neg (show ¬ s.dev < t0 + 1171875 * pclk from Nat.not_lt.mpr hdue)]
  extract_lets s1 fail hsc1 s2 s3 s4
  have h2 : s2.flag Fld.HSC_STAT_CALBUSY 0 = false :=
    (State.flag_setFld_bits _ Fld.HSC_STAT_CALFAIL Fld.HSC_STAT_CALBUSY 0 0 _ ⟨by decide, by decide⟩ (by decide)).trans
      (State.flag_setFlag_same _ _ 0 false ⟨by decide, by decide⟩)
  have h3 : s3.flag Fld.HSC_STAT_CALBUSY 0 = s2.flag Fld.HSC_STAT_CALBUSY 0 := by
    refine (State.flag_setFld_addr _ Fld.HSC_CAL_COUNT Fld.HSC_STAT_CALBUSY 0 0 _ (by decide)).trans ?_
    refine (State.flag_setFld_bits _ Fld.HSC_STAT_TTRIM Fld.HSC_STAT_CALBUSY 0 0 _ ⟨by decide, by decide⟩ (by decide)).trans ?_
    refine (State.flag_setFld_addr _ Fld.LAN_STAT_HSC_READY Fld.HSC_STAT_CALBUSY 0 0 _ (by decide)).trans ?_
    exact State.flag_setFld_bits _ Fld.HSC_STAT_READY Fld.HSC_STAT_CALBUSY 0 0 _ ⟨by decide, by decide⟩ (by decide)
  have h4 : s4.flag Fld.HSC_STAT_CALBUSY 0 = s3.flag Fld.HSC_STAT_CALBUSY 0 :=
    (State.flag_setFld_addr _ Fld.HSC_CAL_TIME_NS Fld.HSC_STAT_CALBUSY 0 0 _ (by decide)).trans
      (State.flag_setFld_addr _ Fld.HSC_CAL_TIME_S Fld.HSC_STAT_CALBUSY 0 0 _ (by decide))
  have hreport : (s4.calReport 3 0xFF 1 (s4.fld Fld.HSC_CAL_COUNT 0) s.ptpSec s.ptpNs (b2n fail) ttrim).flag Fld.HSC_STAT_CALBUSY 0 = s4.flag Fld.HSC_STAT_CALBUSY 0 :=
    State.flag_of_fld (State.fld_of_live (State.live_report_low s4 _ (by decide) 60 _))
  exact hreport.trans (h4.trans (h3.trans h2))

section CalDone

variable (s : State) (t ttrim t0 : Nat) (slices : List (Int × Int × Int)) (hr : s.Runs) (hsince : s.hsc.calSince = some t0)
include hr hsince

theorem hscCalDone_early (hearly : (s.begin t).dev < t0 + 1171875 * 8) : exec (.hscCalDone t ttrim slices) s = .next (s.after t (fun r => r)) := by
  dsimp only [exec]
  unfold execHscCalDone
  refine ticking_after t s _ _ hr ?_
  dsimp only
  rw [(s.begin t).calDone_early ttrim t0 slices hsince hearly]
  exact if_neg (by simp)

/-- A completed calibration restarts every running path and every lane. -/
theorem hscCalDone_due (hbusy : s.flag Fld.HSC_STAT_CALBUSY 0 = true) (hdue : t0 + 1171875 * 8 ≤ (s.begin t).dev) :
    exec (.hscCalDone t ttrim slices) s = .next (s.after t (fun r =>
      (r.calDone ttrim slices).allRestart.each (List.range s.lanes) (fun n r => r.phxRestart n))) := by
  dsimp only [exec]
  unfold execHscCalDone
  refine ticking_after t s _ _ hr (if_pos ?_)
  rw [(s.begin t).calDone_idle ttrim t0 slices hsince hdue, State.flag_begin, hbusy]
  rfl

end CalDone

/-! ### The restart of a phase lane (R177) -/

/-- From `s` to `u` the lanes' phase sides and every register but lane `n`'s position are kept. -/
def State.PosOnly (n : Nat) (s u : State) : Prop := u.phx = s.phx ∧ ∀ k, k ≠ Fld.PHX_Ln_BLKPOS_SLOT.at n → u.live k = s.live k

theorem State.PosOnly.refl (n : Nat) (s : State) : State.PosOnly n s s := ⟨rfl, fun _ _ => rfl⟩

theorem State.PosOnly.trans (n : Nat) (s u w : State) (h : State.PosOnly n s u) (h' : State.PosOnly n u w) : State.PosOnly n s w :=
  ⟨h'.1.trans h.1, fun k hk => (h'.2 k hk).trans (h.2 k hk)⟩

section PhxRestart

variable (s : State) (n : Nat)

theorem State.setPos_only : State.PosOnly n s (s.setPos n) := by
  have hfld (r : State) (f : Fld) (v : Nat) (hf : f.at n = Fld.PHX_Ln_BLKPOS_SLOT.at n) : State.PosOnly n r (r.setFld f n v) :=
    ⟨State.setFld_phx .., fun k hk => State.live_setLive_other r _ k _ (hf ▸ hk)⟩
  unfold State.setPos
  extract_lets d s1
  have h1 : State.PosOnly n s s1 := State.PosOnly.trans n _ _ _ (hfld s Fld.PHX_Ln_BLKPOS_SLOT d.1 rfl) (hfld _ Fld.PHX_Ln_BLKPOS_BLK _ rfl)
  refine State.PosOnly.trans n _ _ _ h1 (State.each_rel _ (State.PosOnly.refl n) (State.PosOnly.trans n) _ (fun e r => ?_) _ s1)
  exact ⟨State.onEngine_phx .., fun k _ => State.live_congr (State.onEngine_regs ..) (State.onEngine_fixed ..) k⟩

theorem State.phxOf_onPhx_same (f : PhxLane → PhxLane) (hn : n < 8) : (s.onPhx n f).phxOf n = f (s.phxOf n) := by
  simp [State.phxOf, State.onPhx, Vector.getD, hn]

/-- The flags of a lane that restarts: it is idle and its values are relative; nothing of PHX beside the registers is moved. -/
def State.restartFlags (s : State) (n : Nat) : State :=
  ((((((s.setFlag Fld.PHX_Ln_STAT_IDLE n true).setFlag Fld.PHX_Ln_STAT_STARTING n false).setLaneBit Fld.PHX_STAT_STARTING n false).setFlag
    Fld.PHX_Ln_STAT_SLOTCOLL n false).setFlag Fld.PHX_Ln_STAT_RELATIVE n true).setFlag Fld.PHX_Ln_STAT_ANCH_STALE n false).setLaneBit Fld.PHX_STAT_ANCHORED n false

theorem State.restartFlags_phx : (s.restartFlags n).phx = s.phx := by
  simp only [State.restartFlags, State.setLaneBit_phx, State.setFlag_phx]

theorem State.restartFlags_flags : (s.restartFlags n).flag Fld.PHX_Ln_STAT_IDLE n = true ∧ (s.restartFlags n).flag Fld.PHX_Ln_STAT_RELATIVE n = true := by
  have hbits (r : State) (f g : Fld) (b : Bool) (hf : f.lo ≤ f.hi ∧ f.hi ≤ 31) (hd : g.hi < f.lo ∨ f.hi < g.lo) : (r.setFlag f n b).flag g n = r.flag g n :=
    r.flag_setFld_bits f g n n _ hf hd
  have hlane (r : State) (f g : Fld) (b : Bool) (hf : f.stride = 0 ∧ f.addr < g.addr) : (r.setLaneBit f n b).flag g n = r.flag g n := by
    refine r.flag_setFld_addr f g 0 n _ (Nat.ne_of_gt ?_)
    simp only [Fld.at, hf.1]
    omega
  refine ⟨?_, ?_⟩
  · rw [State.restartFlags, hlane _ _ _ _ (by decide), hbits _ _ _ _ (by decide) (by decide), hbits _ _ _ _ (by decide) (by decide),
      hbits _ _ _ _ (by decide) (by decide), hlane _ _ _ _ (by decide), hbits _ _ _ _ (by decide) (by decide)]
    exact State.flag_setFlag_same _ _ n true ⟨by decide, by decide⟩
  · rw [State.restartFlags, hlane _ _ _ _ (by decide), hbits _ _ _ _ (by decide) (by decide)]
    exact State.flag_setFlag_same _ _ n true ⟨by decide, by decide⟩

/-- The phase side of a lane after a restart as at first use. -/
def PhxLane.restarted (l : PhxLane) : PhxLane :=
  { PhxLane.reset with clearGen := l.clearGen, begun := l.begun, asked := l.asked, evalN := l.evalN, below := l.below, above := l.above }

/-- A lane with a grid closes its blocks, and begins anew. -/
theorem State.phxRestart_eq (g : Nat) (hg : (s.phxOf n).grid = some g) : ∃ v : State, s.phxRestart n = ((v.onPhx n PhxLane.restarted).restartFlags n).setPos n := by
  unfold State.phxRestart
  extract_lets l
  have hl : l.grid = some g := hg
  rw [hl]
  exact ⟨_, rfl⟩

/-- A lane with a grid that restarts has none, no frames and no points, is idle, and its values are relative. -/
theorem State.phxRestart_leaves (hn : n < 8) (g : Nat) (hg : (s.phxOf n).grid = some g) :
    let u := s.phxRestart n
    (u.phxOf n).grid = none ∧ (u.phxOf n).frames = [] ∧ (u.phxOf n).pts = [] ∧ u.flag Fld.PHX_Ln_STAT_IDLE n = true
      ∧ u.flag Fld.PHX_Ln_STAT_RELATIVE n = true := by
  obtain ⟨v, hv⟩ := s.phxRestart_eq n g hg
  obtain ⟨hphx, hlive⟩ := ((v.onPhx n PhxLane.restarted).restartFlags n).setPos_only n
  obtain ⟨hidle, hrel⟩ := (v.onPhx n PhxLane.restarted).restartFlags_flags n
  have hlane : (s.phxRestart n).phxOf n = (v.phxOf n).restarted := by
    rw [hv, ← v.phxOf_onPhx_same n PhxLane.restarted hn]
    simp only [State.phxOf, hphx, State.restartFlags_phx]
  have hstat : Fld.PHX_Ln_STAT_IDLE.at n ≠ Fld.PHX_Ln_BLKPOS_SLOT.at n := by
    simp only [Fld.at, Fld.PHX_Ln_STAT_IDLE, Fld.PHX_Ln_BLKPOS_SLOT]
    omega
  dsimp only
  rw [hlane, hv]
  exact ⟨rfl, rfl, rfl, (State.flag_of_fld (State.fld_of_live (hlive _ hstat))).trans hidle,
    (State.flag_of_fld (f := Fld.PHX_Ln_STAT_RELATIVE) (State.fld_of_live (hlive _ hstat))).trans hrel⟩

end PhxRestart

/-! ### The sub-band paths -/

/-- A running path that a restart of all meets restarts; a stopped one stays as it is. -/
theorem State.allRestart_paths (s : State) (c b : Nat) (hc : c < s.channels) (hb : b < 4) :
    ((s.path c b).run = true → let q := s.allRestart.path c b
      q.dl1 = [] ∧ q.dl2 = [] ∧ q.dl3 = [] ∧ q.dlm = [] ∧ q.hist = [] ∧ q.settle = fillLen (s.path c b) ∧ q.from_ = s.dev)
    ∧ ((s.path c b).run = false → s.allRestart.path c b = s.path c b) := by
  rw [s.path_allRestart c b hc hb]
  refine ⟨fun hrun => ?_, fun hstop => if_neg (by simp [hstop])⟩
  rw [if_pos hrun]
  exact ⟨rfl, rfl, rfl, rfl, rfl, rfl, rfl⟩

/-- Settles O38: every clause is a lemma on its instruction or its shared operation. That an output's value is the exact sum is the model's choice (log entry 14, R156),
and so is what log entry 17 adds: a custom tap is stored with its sign extended and no report, and an output outside every frame is passed on unrotated. -/
theorem downconversion : Obligations.Downconversion := by
  unfold Obligations.Downconversion
  refine ⟨?_, ?_, mfConversionDone_after, State.settleLane_waits, ?_, ?_, ?_, ?_, State.allRestart_paths, ?_⟩
  · exact fun s t src addr val hr hlo hhi ha =>
      spectrumWrite_after s t src addr val _ hr hlo (hhi.trans (by decide)) ha ((s.begin t).spectrumWrite_bin src addr.toNat val hlo hhi)
  · intro s t src addr val hr hlo hhi ha
    have hfrom : 0x48000 ≤ addr.toNat := Nat.le_trans (by decide) hlo
    exact ⟨fun hbetween => spectrumWrite_after s t src addr val _ hr hfrom hhi ha ((s.begin t).spectrumWrite_between src addr.toNat val hlo hhi hbetween),
      fun hrange => spectrumWrite_after s t src addr val _ hr hfrom hhi ha ((s.begin t).spectrumWrite_tap src addr.toNat val hlo hhi hrange)⟩
  · exact fun s n b at_ gen g restart hn hb hfilt hready hgen => s.probeTake_filter n b at_ gen restart hn hb g hfilt hready hgen
  · exact fun s t n d hr hn hd hb => ⟨pathBoundary_early s t n d hr hn hd, pathBoundary_leaves s t n d hr hn hd hb⟩
  · exact fun s t c b k0 k1 k2 hr hc hb hrun => ⟨ddcOutput_early s t c b k0 k1 k2 hr, ddcOutput_delivers s t c b k0 k1 k2 hr hc hb hrun⟩
  · exact fun s t ttrim t0 slices hr hsince hbusy =>
      ⟨hscCalDone_early s t ttrim t0 slices hr hsince, hscCalDone_due s t ttrim t0 slices hr hsince hbusy⟩
  · exact fun s n g hn hg => s.phxRestart_leaves n (hn.trans_le s.lanes_le) g hg

end Sys2Proof.Machine

/-! PROOFS. The samples of a frame, and a point's unwrapping (R168, R169, R172, R174). -/

namespace Sys2Proof.Machine

/-! ### A lane's phase side -/

theorem State.phxOf_congr {s u : State} (h : u.phx = s.phx) (n : Nat) : u.phxOf n = s.phxOf n := by simp only [State.phxOf, h]

theorem PhxLane.pt_setPt (l : PhxLane) (i j : Nat) (p : Pt) : (l.setPt i p).pt j = if j = i then p else l.pt j := sget_sput ..

theorem PhxLane.onAcc_pts (l : PhxLane) (later : Bool) (f : BlockAcc → BlockAcc) : (l.onAcc later f).pts = l.pts := by cases later <;> rfl

theorem Pt.add_phi (p : Pt) (later : Bool) (phi : Int) (k : Rat) : (p.add later phi k).phi = p.phi := by cases later <;> rfl

/-! ### Unwrapping (R172) -/

/-- The map to one turn: the result lies within half a turn of zero and differs by whole turns. -/
theorem wrapLsb_turn (x : Int) : -4096 ≤ wrapLsb x ∧ wrapLsb x ≤ 4095 ∧ 8192 ∣ x - wrapLsb x := by
  have hmod : (x % 8192).toNat % 8192 = (x % 8192).toNat := Nat.mod_eq_of_lt (by omega)
  simp only [wrapLsb, wrapInt, signed, Nat.reducePow, Nat.cast_ofNat, hmod]
  split <;> omega

section Unwrap

variable (pt : Pt) (p otc : Nat) (psi : Int) (pred1 : Bool)

/-- The phase that a referenced point predicts for its next sample. -/
def Pt.predicted (pt : Pt) (pred1 : Bool) : Int := if pred1 then 2 * pt.phi - pt.prev else pt.phi

theorem unwrapStep_first (h : pt.ref0 = false) :
    unwrapStep pt .measure 0 p psi pred1 otc = ({ pt with phi := psi, prev := psi, ref0 := true }, some psi, false, false, false) := by
  simp [unwrapStep, h]

theorem unwrapStep_measure (h : pt.ref0 = true) :
    unwrapStep pt .measure 0 p psi pred1 otc =
      ({ pt with prev := pt.phi, phi := phi48 (pt.predicted pred1 + wrapLsb (psi - pt.predicted pred1)), fills := 0, gap := 0 },
        some (phi48 (pt.predicted pred1 + wrapLsb (psi - pt.predicted pred1))), false, false, decide (64 < pt.gap)) := by
  simp [unwrapStep, h, Pt.predicted]

theorem unwrapStep_fill (h : pt.ref0 = true) :
    unwrapStep pt .fill 0 p psi pred1 otc = if pt.fills + 1 < p
      then ({ pt with prev := pt.phi, phi := phi48 (pt.predicted pred1), fills := pt.fills + 1, gap := pt.gap + 1 }, some (phi48 (pt.predicted pred1)), true, false, false)
      else ({ pt with gap := pt.gap + 1 }, none, false, true, false) := by
  simp [unwrapStep, h, Pt.predicted]

/-- A sample that has a value has its point's phase. -/
theorem unwrapStep_value (act : PhaseAct) (b : Nat) (phi : Int) (h : (unwrapStep pt act b p psi pred1 otc).2.1 = some phi) :
    (unwrapStep pt act b p psi pred1 otc).1.phi = phi := by
  generalize hstep : unwrapStep pt act b p psi pred1 otc = r at h ⊢
  unfold unwrapStep at hstep
  split at hstep
  · split at hstep <;> subst hstep
    · exact Option.some.inj h
    · cases h
  · extract_lets at hstep
    (repeat' split at hstep) <;> subst hstep
    · exact Option.some.inj h
    · exact Option.some.inj h
    · cases h

end Unwrap

/-! ### One sample (R172, R174) -/

/-- The word of a sample is INVALID or that of the point's phase as it is then. -/
theorem State.formSample_word (s : State) (n : Nat) (f : PhxFrame) (i : Nat) (hn : n < 8) :
    (s.formSample n f i).2.2 = 0x8000 ∨ (s.formSample n f i).2.2 = phaseWord ((((s.formSample n f i).1.phxOf n).pt i).phi) := by
  unfold State.formSample
  split
  · exact .inl rfl
  extract_lets r0 r find a b act l u pt s1 s2
  have hpt : ((s2.phxOf n).pt i) = pt := by
    have hacc : s1.phxOf n = ((r.1.ptWrite n i pt).phxOf n).onAcc (s.laterSlot n f.slot) _ := State.phxOf_onPhx_same _ n _ hn
    have hwrite : (r.1.ptWrite n i pt).phxOf n = (r.1.phxOf n).setPt i pt :=
      (State.phxOf_congr (State.eccStrike_phx ..) n).trans (State.phxOf_onPhx_same _ n _ hn)
    have hpts : (s2.phxOf n).pts = ((r.1.phxOf n).setPt i pt).pts := by
      rw [State.phxOf_congr (u := s2) (s := s1) (by simp only [s2, State.count_phx]), hacc, PhxLane.onAcc_pts, hwrite]
    rw [PhxLane.pt, hpts]
    exact (PhxLane.pt_setPt _ i i pt).trans (if_pos rfl)
  rw [hpt]
  cases hv : u.2.1 with
  | none => exact .inl rfl
  | some phi =>
    refine .inr (congrArg phaseWord ?_)
    have hphi : u.1.phi = phi := unwrapStep_value _ _ _ _ _ _ _ phi hv
    simp only [pt, hv, Pt.add_phi, hphi]

/-! ### The next sample of a frame (R168) -/

section Next

variable (s : State) (n b : Nat) (f : PhxFrame)

/-- What forms when the next sample of a frame is due. -/
def State.nextSample (s : State) (n : Nat) (f : PhxFrame) : State :=
  let kept (l : List (Nat × Sample)) := l.filter (fun e => f.next ≤ e.1)
  let q := (s.noteOut n f).formSample n f f.next
  let f1 := { q.2.1 with next := f.next + 1, row := q.2.2 :: q.2.1.row, x := kept q.2.1.x, y := kept q.2.1.y }
  if (f.next + 1) % 32 = 0 then (q.1.rowDone n f1).onPhx n (fun l => l.putFrame { f1 with row := [] }) else q.1.onPhx n (fun l => l.putFrame f1)

/-- The frame after a sample in its last points. -/
def PhxFrame.passed (f : PhxFrame) : PhxFrame :=
  { f with next := f.next + 1, row := 0x8000 :: f.row, x := f.x.filter (fun e => f.next ≤ e.1), y := f.y.filter (fun e => f.next ≤ e.1) }

theorem State.phaseSample_early (hf : (s.phxOf n).frameOf b = some f) (h : s.dev < f.stamp + 48 + 8 * f.gdly + 8 * (f.next + f.g) + 96) : s.phaseSample n b = s := by
  simp only [State.phaseSample, hf, if_pos h]

theorem State.phaseSample_due (hf : (s.phxOf n).frameOf b = some f) (h : f.stamp + 48 + 8 * f.gdly + 8 * (f.next + f.g) + 96 ≤ s.dev) :
    s.phaseSample n b = s.nextSample n f := by
  simp only [State.phaseSample, hf, if_neg (Nat.not_lt.mpr h)]
  rfl

/-- The note of channels that take no part moves the lane's accounts alone, beside registers. -/
theorem State.noteOut_rest (hn : n < 8) : (∃ a a', (s.noteOut n f).phxOf n = { s.phxOf n with acc := a, later := a' })
    ∧ (s.noteOut n f).mem = s.mem ∧ (s.noteOut n f).eng = s.eng := by
  have hflag (r : State) (c : Bool) (g : Fld) : (r.only c (fun v => v.setFlag g n true)).phx = r.phx ∧ (r.only c (fun v => v.setFlag g n true)).mem = r.mem
      ∧ (r.only c (fun v => v.setFlag g n true)).eng = r.eng := by
    cases c <;> exact ⟨rfl, rfl, rfl⟩
  have hacc (l : PhxLane) (later : Bool) (g : BlockAcc → BlockAcc) : ∃ a a', l.onAcc later g = { l with acc := a, later := a' } := by
    cases later
    · exact ⟨g l.acc, l.later, rfl⟩
    · exact ⟨l.acc, g l.later, rfl⟩
  unfold State.noteOut
  extract_lets x y s1
  have h1 : (∃ a a', s1.phxOf n = { s.phxOf n with acc := a, later := a' }) ∧ s1.mem = s.mem ∧ s1.eng = s.eng := by
    obtain ⟨a, a', ha⟩ := hacc (s.phxOf n) (s.laterSlot n f.slot) (fun a => { a with exMask := a.exMask ||| (b2n x + 2 * b2n y) })
    exact ⟨⟨a, a', (State.phxOf_onPhx_same s n _ hn).trans ha⟩, rfl, rfl⟩
  by_cases hout : (!x && !y) = true
  · rw [if_pos hout]
    exact ⟨⟨_, _, rfl⟩, rfl, rfl⟩
  · rw [if_neg hout]
    cases decide ((s.phxOf n).lastStamp = some f.stamp)
    · exact h1
    · obtain ⟨hphx, hmem, heng⟩ := hflag s1 x Fld.PHX_Ln_STAT_XEXCL
      obtain ⟨hphx', hmem', heng'⟩ := hflag (s1.only x (fun v => v.setFlag Fld.PHX_Ln_STAT_XEXCL n true)) y Fld.PHX_Ln_STAT_YEXCL
      obtain ⟨⟨a, a', ha⟩, hm, he⟩ := h1
      exact ⟨⟨a, a', (State.phxOf_congr (hphx'.trans hphx) n).trans ha⟩, hmem'.trans (hmem.trans hm), heng'.trans (heng.trans he)⟩

/-- In the last points of a frame the sample is INVALID, and the frame goes on to its next point; no point's state, memory or engine is touched. -/
theorem State.nextSample_passed (hn : n < 8) (hf : (s.phxOf n).frameOf b = some f) (hlast : f.n ≤ f.next + f.g) (hrow : (f.next + 1) % 32 ≠ 0) (hmore : f.next + 1 ≠ f.n) :
    ((s.nextSample n f).phxOf n).pts = (s.phxOf n).pts ∧ (s.nextSample n f).mem = s.mem ∧ (s.nextSample n f).eng = s.eng
      ∧ f.passed ∈ ((s.nextSample n f).phxOf n).frames := by
  obtain ⟨⟨a, a', hlane⟩, hmem, heng⟩ := s.noteOut_rest n f hn
  have hnext : s.nextSample n f = (s.noteOut n f).onPhx n (fun l => l.putFrame f.passed) := by
    simp only [State.nextSample, State.formSample, if_pos hlast, if_neg hrow]
    rfl
  have hput : (s.nextSample n f).phxOf n = { s.phxOf n with acc := a, later := a', frames := (s.phxOf n).frames.map (fun g => if g.stamp = f.stamp then f.passed else g) } := by
    rw [hnext, State.phxOf_onPhx_same _ n _ hn, hlane, PhxLane.putFrame, if_neg (show ¬ f.passed.next = f.passed.n from hmore)]
    rfl
  refine ⟨by rw [hput], by rw [hnext]; exact hmem, by rw [hnext]; exact heng, ?_⟩
  rw [hput]
  exact List.mem_map.mpr ⟨f, List.mem_of_find?_eq_some hf, if_pos rfl⟩

variable (t : Nat) (hr : s.Runs) (hn : n < s.lanes) (hb : b < 4)
include hr hn hb

theorem phaseSample_after (g : State → State) (h : (s.begin t).phaseSample n b = g (s.begin t)) : exec (.phaseSample t n b) s = .next (s.after t g) := by
  dsimp only [exec]
  unfold execPhaseSample
  refine clocked_after t s _ _ hr ((State.only_pos _ _ _ ?_).trans h)
  exact Bool.and_eq_true_iff.mpr ⟨decide_eq_true hn, decide_eq_true hb⟩

end Next

/-- A frame's next sample waits for its tick, and then forms; in the frame's last points it is INVALID. -/
theorem phaseSample_forms (s : State) (t n b : Nat) (f : PhxFrame) (hr : s.Runs) (hn : n < s.lanes) (hb : b < 4) (hf : (s.phxOf n).frameOf b = some f) :
    let due := f.stamp + 48 + 8 * f.gdly + 8 * (f.next + f.g) + 96
    ((s.begin t).dev < due → exec (.phaseSample t n b) s = .next (s.after t (fun r => r)))
    ∧ (due ≤ (s.begin t).dev → exec (.phaseSample t n b) s = .next (s.after t (fun r => r.nextSample n f))
      ∧ (f.n ≤ f.next + f.g → (f.next + 1) % 32 ≠ 0 → f.next + 1 ≠ f.n →
        ∃ u, exec (.phaseSample t n b) s = .next u ∧ (u.phxOf n).pts = (s.phxOf n).pts ∧ u.mem = s.mem ∧ u.eng = s.eng ∧ f.passed ∈ (u.phxOf n).frames)) := by
  refine ⟨fun hearly => phaseSample_after s n b t hr hn hb (fun r => r) ((s.begin t).phaseSample_early n b f hf hearly), fun hdue => ?_⟩
  have hexec := phaseSample_after s n b t hr hn hb (fun r => r.nextSample n f) ((s.begin t).phaseSample_due n b f hf hdue)
  exact ⟨hexec, fun hlast hrow hmore => ⟨_, hexec, (s.begin t).nextSample_passed n b f (hn.trans_le s.lanes_le) hf hlast hrow hmore⟩⟩

end Sys2Proof.Machine

/-! PROOFS. Idle lanes, errors of point states, and the trace end (R178, R181). -/

namespace Sys2Proof.Machine

/-! ### Idle lanes and lost points (R178) -/

section Lane

variable (s : State) (t n : Nat) (hr : s.Runs) (hn : n < s.lanes)
include hr hn

theorem laneIdle_after (a : Nat) (hlast : (s.phxOf n).lastStamp = some a) (hold : a + 8 * s.lenN n < (s.begin t).dev) :
    exec (.laneIdle t n) s = .next (s.after t (fun r => r.setFlag Fld.PHX_Ln_STAT_IDLE n true)) := by
  dsimp only [exec]
  unfold execLaneIdle
  refine clocked_only t s _ _ hr (Bool.and_eq_true_iff.mpr ⟨decide_eq_true hn, ?_⟩)
  have hbegin : ((s.begin t).phxOf n).lastStamp = some a := hlast
  rw [hbegin]
  exact decide_eq_true hold

theorem pointStateEcc_after (i : Nat) (hi : i < s.lenN n) : exec (.pointStateEcc t n i) s = .next (s.after t (fun r => r.pointLost n i)) := by
  dsimp only [exec]
  unfold execPointStateEcc
  exact clocked_only t s _ _ hr (Bool.and_eq_true_iff.mpr ⟨decide_eq_true hn, decide_eq_true hi⟩)

theorem traceEndEval_after (heval : 256 ≤ (s.phxOf n).evalN) (hst : (s.laneOf n).st = .emitting) :
    exec (.traceEndEval t n) s = .next (s.after t (fun r => r.traceEval n)) := by
  dsimp only [exec]
  unfold execTraceEndEval
  exact clocked_only t s _ _ hr (Bool.and_eq_true_iff.mpr ⟨Bool.and_eq_true_iff.mpr ⟨decide_eq_true hn, decide_eq_true heval⟩, decide_eq_true hst⟩)

end Lane

/-! ### The last point that meets a condition -/

theorem getLast?_filter_range_none (m : Nat) (p : Nat → Bool) (h : ∀ i, i < m → p i = false) : ((List.range m).filter p).getLast? = none := by
  have hnil : (List.range m).filter p = [] := List.filter_eq_nil_iff.mpr (fun i hi => by simp [h i (List.mem_range.mp hi)])
  rw [hnil, List.getLast?_nil]

theorem getLast?_filter_range (m i : Nat) (p : Nat → Bool) (hi : i < m) (hp : p i = true) (hlast : ∀ j, i < j → j < m → p j = false) :
    ((List.range m).filter p).getLast? = some i := by
  induction m with
  | zero => omega
  | succ m ih =>
    rw [List.range_succ, List.filter_append]
    rcases Nat.lt_succ_iff_lt_or_eq.mp hi with hlt | rfl
    · rw [List.filter_cons_of_neg (by simp [hlast m hlt (Nat.lt_succ_self m)]), List.filter_nil, List.append_nil]
      exact ih hlt (fun j hj hjm => hlast j hj (Nat.lt_succ_of_lt hjm))
    · rw [List.filter_cons_of_pos hp, List.filter_nil, List.getLast?_append, List.getLast?_singleton]
      rfl

/-! ### The trace end (R181) -/

/-- The mean magnitude of point `i` in code. -/
def PhxLane.avgMag (l : PhxLane) (i : Nat) : Rat := if (l.pt i).magN = 0 then 0 else ((l.pt i).mag : Rat) / (l.pt i).magN / 65536

/-- The mean magnitude of the eight points up to `i`. -/
def PhxLane.mean8 (l : PhxLane) (i : Nat) : Rat := ((List.range 8).map (fun k => l.avgMag (i - k))).sum / 8

/-- How many points of a lane form samples: those below N - g. -/
def State.formingPoints (s : State) (n : Nat) : Nat := s.lenN n - s.laneFld n Fld.PHX_GAUGE_G

/-- The trace is lit at a point that forms samples: the eight points up to it reach twice the fade threshold on average. -/
def State.lit (s : State) (n i : Nat) : Prop := 7 ≤ i ∧ i < s.formingPoints n ∧ 2 * (s.laneFld n Fld.PHX_FADE_TH_TH : Rat) ≤ (s.phxOf n).mean8 i

/-- The condition on the threshold alone. -/
def State.reaches (s : State) (n i : Nat) : Bool := decide (2 * (s.laneFld n Fld.PHX_FADE_TH_TH : Rat) ≤ (s.phxOf n).mean8 i)

/-- The last point at which the trace is lit. -/
def State.lastLit (s : State) (n : Nat) : Option Nat := ((List.range (s.formingPoints n)).filter (fun i => decide (7 ≤ i) && s.reaches n i)).getLast?

/-- The trace is lit at the last point that forms samples. -/
def State.litToEnd (s : State) (n : Nat) : Bool := decide (7 ≤ s.formingPoints n - 1) && s.reaches n (s.formingPoints n - 1)

/-- The trace end in its registers. -/
def State.showEnd (s : State) (n : Nat) (dark atEnd : Bool) (e : Nat) : State :=
  ((((s.setFld Fld.PHX_Ln_BREAK_END n (if dark then 0 else e)).setFlag Fld.PHX_Ln_BREAK_VALID n (!dark)).setFlag Fld.PHX_Ln_BREAK_NONE n (atEnd && !dark)).setFlag
    Fld.PHX_Ln_BREAK_DARK n dark).setFlag Fld.PHX_Ln_STAT_NOEND n (atEnd && !dark)

/-- The level beyond the end in its register. -/
def State.showFloor (s : State) (n : Nat) (x : Rat) : State := (s.setFld Fld.PHX_Ln_FLOOR_FLOOR n (s.openRound x).toNat).drawn

/-- A lane's averages begin a new period. -/
def PhxLane.evalBegun (l : PhxLane) : PhxLane := { l with evalN := l.evalN - 256, pts := l.pts.map (fun e => (e.1, { e.2 with mag := 0, magN := 0 })) }

section TraceEnd

variable (s : State) (n : Nat)

/-- With no break to look for, an evaluation shows the end, its distance and the level beyond it, and the averages begin anew. -/
theorem State.traceEval_eq (hoff : s.flag Fld.PHX_Ln_ENDREF_EN n = false) :
    ∃ x, s.traceEval n = (((s.showEnd n (s.lastLit n).isNone (s.litToEnd n) (if s.litToEnd n then s.lenN n - 1 else (s.lastLit n).getD 0)).showDist n).showFloor n x).onPhx n
      PhxLane.evalBegun := by
  unfold State.traceEval
  extract_lets l g len th avg mean8 ok last found atEnd end_ dark tail floor_ s1 s1' s2 reset s3
  rw [if_pos (by rw [hoff]; rfl)]
  exact ⟨floor_, rfl⟩

theorem State.showEnd_fields (dark atEnd : Bool) (e : Nat) :
    (s.showEnd n dark atEnd e).fld Fld.PHX_Ln_BREAK_END n = (if dark then 0 else e) % 2 ^ 16 ∧ (s.showEnd n dark atEnd e).flag Fld.PHX_Ln_BREAK_VALID n = !dark
      ∧ (s.showEnd n dark atEnd e).flag Fld.PHX_Ln_BREAK_NONE n = (atEnd && !dark) ∧ (s.showEnd n dark atEnd e).flag Fld.PHX_Ln_BREAK_DARK n = dark := by
  have hbits (r : State) (f g : Fld) (b : Bool) (hf : f.lo ≤ f.hi ∧ f.hi ≤ 31) (hd : g.hi < f.lo ∨ f.hi < g.lo) : (r.setFlag f n b).fld g n = r.fld g n :=
    r.fld_setFld_bits f g n n _ hf hd
  have hstat (r : State) (b : Bool) (g : Fld) (hg : g.stride = 0x200 ∧ g.addr = 0x54004) : (r.setFlag Fld.PHX_Ln_STAT_NOEND n b).fld g n = r.fld g n :=
    r.fld_setFld_addr _ g n n _ (by simp only [Fld.at, hg, Fld.PHX_Ln_STAT_NOEND]; omega)
  unfold State.showEnd
  refine ⟨?_, ?_, ?_, ?_⟩
  · rw [hstat _ _ _ (by decide), hbits _ _ _ _ (by decide) (by decide), hbits _ _ _ _ (by decide) (by decide), hbits _ _ _ _ (by decide) (by decide)]
    exact State.fld_setFld_same _ _ n _ ⟨by decide, by decide⟩
  · refine (State.flag_of_fld (hstat _ _ Fld.PHX_Ln_BREAK_VALID (by decide))).trans ?_
    refine (State.flag_of_fld ((hbits _ Fld.PHX_Ln_BREAK_DARK Fld.PHX_Ln_BREAK_VALID _ (by decide) (by decide)).trans
      (hbits _ Fld.PHX_Ln_BREAK_NONE Fld.PHX_Ln_BREAK_VALID _ (by decide) (by decide)))).trans ?_
    exact State.flag_setFlag_same _ _ n _ ⟨by decide, by decide⟩
  · refine (State.flag_of_fld (hstat _ _ Fld.PHX_Ln_BREAK_NONE (by decide))).trans ?_
    refine (State.flag_of_fld (hbits _ Fld.PHX_Ln_BREAK_DARK Fld.PHX_Ln_BREAK_NONE _ (by decide) (by decide))).trans ?_
    exact State.flag_setFlag_same _ _ n _ ⟨by decide, by decide⟩
  · exact (State.flag_of_fld (hstat _ _ Fld.PHX_Ln_BREAK_DARK (by decide))).trans (State.flag_setFlag_same _ _ n _ ⟨by decide, by decide⟩)

/-- What a lane's register of the trace end shows. -/
structure State.EndShown (n : Nat) (v : State) (dark atEnd : Bool) (e : Nat) : Prop where
  isDark : v.flag Fld.PHX_Ln_BREAK_DARK n = dark
  isValid : v.flag Fld.PHX_Ln_BREAK_VALID n = !dark
  isNone : v.flag Fld.PHX_Ln_BREAK_NONE n = atEnd
  isEnd : v.fld Fld.PHX_Ln_BREAK_END n = e % 2 ^ 16

theorem State.EndShown.of_live {n : Nat} {v w : State} {dark atEnd : Bool} {e : Nat} (h : State.EndShown n v dark atEnd e)
    (hl : w.live (Fld.PHX_Ln_BREAK_END.at n) = v.live (Fld.PHX_Ln_BREAK_END.at n)) : State.EndShown n w dark atEnd e :=
  ⟨(State.flag_of_fld (State.fld_of_live (f := Fld.PHX_Ln_BREAK_DARK) hl)).trans h.isDark, (State.flag_of_fld (State.fld_of_live (f := Fld.PHX_Ln_BREAK_VALID) hl)).trans h.isValid,
    (State.flag_of_fld (State.fld_of_live (f := Fld.PHX_Ln_BREAK_NONE) hl)).trans h.isNone, (State.fld_of_live hl).trans h.isEnd⟩

theorem State.live_showDist (k : Nat) (h : k ≠ Fld.PHX_Ln_BRKDIST_DIST.at n) : (s.showDist n).live k = s.live k :=
  (State.live_congr (State.drawn_regs _) (State.drawn_fixed _) k).trans (State.live_setLive_other s _ k _ h)

theorem State.live_showFloor (x : Rat) (k : Nat) (h : k ≠ Fld.PHX_Ln_FLOOR_FLOOR.at n) : (s.showFloor n x).live k = s.live k :=
  (State.live_congr (State.drawn_regs _) (State.drawn_fixed _) k).trans (State.live_setLive_other s _ k _ h)

theorem State.traceEval_fixed (hoff : s.flag Fld.PHX_Ln_ENDREF_EN n = false) : (s.traceEval n).fixed = s.fixed := by
  obtain ⟨x, hx⟩ := s.traceEval_eq n hoff
  simp [hx, State.showFloor, State.showDist, State.showEnd]

theorem State.traceEval_lane (hn : n < 8) (hoff : s.flag Fld.PHX_Ln_ENDREF_EN n = false) : (s.traceEval n).phxOf n = (s.phxOf n).evalBegun := by
  obtain ⟨x, hx⟩ := s.traceEval_eq n hoff
  rw [hx, State.phxOf_onPhx_same _ n _ hn]
  exact congrArg _ (State.phxOf_congr (by simp [State.showFloor, State.showDist, State.showEnd]) n)

theorem State.traceEval_shows (hoff : s.flag Fld.PHX_Ln_ENDREF_EN n = false) :
    State.EndShown n (s.traceEval n) (s.lastLit n).isNone (s.litToEnd n && !(s.lastLit n).isNone)
      (if (s.lastLit n).isNone then 0 else if s.litToEnd n then s.lenN n - 1 else (s.lastLit n).getD 0) := by
  obtain ⟨x, hx⟩ := s.traceEval_eq n hoff
  generalize (if s.litToEnd n then s.lenN n - 1 else (s.lastLit n).getD 0) = e at hx ⊢
  obtain ⟨hend, hvalid, hnone, hdark⟩ := s.showEnd_fields n (s.lastLit n).isNone (s.litToEnd n) e
  refine State.EndShown.of_live ⟨hdark, hvalid, hnone, hend⟩ ?_
  have hfloor : Fld.PHX_Ln_BREAK_END.at n ≠ Fld.PHX_Ln_FLOOR_FLOOR.at n := by simp [Fld.at, Fld.PHX_Ln_FLOOR_FLOOR, Fld.PHX_Ln_BREAK_END]
  have hdist : Fld.PHX_Ln_BREAK_END.at n ≠ Fld.PHX_Ln_BRKDIST_DIST.at n := by simp [Fld.at, Fld.PHX_Ln_BRKDIST_DIST, Fld.PHX_Ln_BREAK_END]
  rw [hx, State.live_congr (State.onPhx_regs ..) (State.onPhx_fixed ..), State.live_showFloor _ n x _ hfloor, State.live_showDist _ n _ hdist]

/-! ### Where the end lies (R181) -/

theorem State.lit_iff (i : Nat) : s.lit n i ↔ i < s.formingPoints n ∧ (decide (7 ≤ i) && s.reaches n i) = true := by
  simp only [State.lit, State.reaches, Bool.and_eq_true, decide_eq_true_eq]
  tauto

theorem State.lastLit_dark (h : ∀ i, ¬ s.lit n i) : s.lastLit n = none :=
  getLast?_filter_range_none _ _ (fun i hi => Bool.eq_false_iff.mpr (fun hp => h i ((s.lit_iff n i).mpr ⟨hi, hp⟩)))

theorem State.lastLit_eq (i : Nat) (hi : s.lit n i) (hlast : ∀ j, i < j → ¬ s.lit n j) : s.lastLit n = some i := by
  obtain ⟨hlt, hp⟩ := (s.lit_iff n i).mp hi
  exact getLast?_filter_range _ i _ hlt hp (fun j hj hjm => Bool.eq_false_iff.mpr (fun hp => hlast j hj ((s.lit_iff n j).mpr ⟨hjm, hp⟩)))

/-- The trace is lit to its end exactly where its last lit point is the last that forms samples. -/
theorem State.litToEnd_iff (i : Nat) (hi : s.lit n i) (hlast : ∀ j, i < j → ¬ s.lit n j) : s.litToEnd n = true ↔ i + 1 = s.formingPoints n := by
  obtain ⟨hlt, hp⟩ := (s.lit_iff n i).mp hi
  constructor
  · intro hend
    by_contra hne
    exact hlast (s.formingPoints n - 1) (by omega) ((s.lit_iff n _).mpr ⟨by omega, hend⟩)
  · intro he
    obtain rfl : i = s.formingPoints n - 1 := by omega
    exact hp

/-- On a dark lane an evaluation shows no end. -/
theorem State.traceEval_dark (hoff : s.flag Fld.PHX_Ln_ENDREF_EN n = false) (h : ∀ i, ¬ s.lit n i) : State.EndShown n (s.traceEval n) true false 0 := by
  have hshow := s.traceEval_shows n hoff
  rw [s.lastLit_dark n h] at hshow
  simpa using hshow

/-- On a lit lane it shows the last lit point, and N - 1 where that is the last point that forms samples. -/
theorem State.traceEval_lit (hoff : s.flag Fld.PHX_Ln_ENDREF_EN n = false) (i : Nat) (hi : s.lit n i) (hlast : ∀ j, i < j → ¬ s.lit n j) :
    State.EndShown n (s.traceEval n) false (decide (i + 1 = s.formingPoints n)) (if i + 1 = s.formingPoints n then s.lenN n - 1 else i) := by
  have hshow := s.traceEval_shows n hoff
  have hend : s.litToEnd n = decide (i + 1 = s.formingPoints n) := Bool.eq_iff_iff.mpr ((s.litToEnd_iff n i hi hlast).trans decide_eq_true_iff.symm)
  rw [s.lastLit_eq n i hi hlast, hend] at hshow
  simpa using hshow

end TraceEnd

/-- After 256 launches of probe 0 a lane that emits shows its trace end, and its averages begin anew. -/
theorem traceEndEval_shows (s : State) (t n : Nat) (hr : s.Runs) (hn : n < s.lanes) (heval : 256 ≤ (s.phxOf n).evalN) (hst : (s.laneOf n).st = .emitting)
    (hoff : s.flag Fld.PHX_Ln_ENDREF_EN n = false) :
    ∃ u, exec (.traceEndEval t n) s = .next u ∧ (u.phxOf n).evalN = (s.phxOf n).evalN - 256 ∧ (∀ e, e ∈ (u.phxOf n).pts → e.2.mag = 0 ∧ e.2.magN = 0)
      ∧ ((∀ i, ¬ s.lit n i) → State.EndShown n u true false 0)
      ∧ (∀ i, s.lit n i → (∀ j, i < j → ¬ s.lit n j) →
        State.EndShown n u false (decide (i + 1 = s.formingPoints n)) (if i + 1 = s.formingPoints n then s.lenN n - 1 else i)) := by
  have hlane : (s.after t (fun r => r.traceEval n)).phxOf n = (s.phxOf n).evalBegun := (s.begin t).traceEval_lane n (hn.trans_le s.lanes_le) hoff
  have hlive {dark atEnd : Bool} {e : Nat} (h : State.EndShown n ((s.begin t).traceEval n) dark atEnd e) : State.EndShown n (s.after t (fun r => r.traceEval n)) dark atEnd e :=
    h.of_live (s.live_after t _ _ ((s.begin t).traceEval_fixed n hoff))
  refine ⟨_, traceEndEval_after s t n hr hn heval hst, by rw [hlane]; rfl, ?_, fun hdark => hlive ((s.begin t).traceEval_dark n hoff hdark),
    fun i hi hlast => hlive ((s.begin t).traceEval_lit n hoff i hi hlast)⟩
  intro e he
  rw [hlane] at he
  obtain ⟨x, -, rfl⟩ := List.mem_map.mp he
  exact ⟨rfl, rfl⟩

end Sys2Proof.Machine

/-! PROOFS. A block's close as a command, and one point at a close (R176, R183, R186). -/

namespace Sys2Proof.Machine

section Close

variable (s : State) (t n g : Nat) (hr : s.Runs) (hgrid : (s.phxOf n).grid = some g)
include hr hgrid

theorem blockClose_early (hearly : (s.begin t).dev < g + s.interval n * (s.lenP n + ((s.phxOf n).block + 1) * s.lenB n - 1) + s.interval n + 8 * s.lenN n + 4096) :
    exec (.blockClose t n) s = .next (s.after t (fun r => r)) := by
  have hgrid' : ((s.begin t).phxOf n).grid = some g := hgrid
  dsimp only [exec]
  unfold execBlockClose
  refine clocked_after t s _ _ hr (if_neg ?_)
  simp only [State.closeDue, hgrid', Bool.and_eq_true, decide_eq_true_eq, not_and]
  exact fun _ => Nat.not_le.mpr hearly

theorem blockClose_due (hn : n < s.lanes)
    (hdue : g + s.interval n * (s.lenP n + ((s.phxOf n).block + 1) * s.lenB n - 1) + s.interval n + 8 * s.lenN n + 4096 ≤ (s.begin t).dev) :
    exec (.blockClose t n) s = .next (s.after t (fun r => r.blockClose n)) := by
  have hgrid' : ((s.begin t).phxOf n).grid = some g := hgrid
  dsimp only [exec]
  unfold execBlockClose
  refine clocked_only t s _ _ hr (Bool.and_eq_true_iff.mpr ⟨decide_eq_true hn, ?_⟩)
  simp only [State.closeDue, hgrid']
  exact decide_eq_true hdue

end Close

/-! ### One point (R183, R186) -/

section Point

variable (p : Pt) (rtd drift base : Rat)

/-- On a lane that is not anchored the anchor and the drift play no part. -/
theorem closePoint_relative (rebase : Bool) : closePoint p false rebase rtd drift = closePoint p false rebase 0 0 := by
  simp [closePoint]

theorem closePoint_theta (hbase : p.base = some base) (hcnt : p.cnt ≠ 0) :
    (closePoint p false false rtd drift).2 = some ((p.sumPK - base * p.sumK) / p.cnt) := by
  simp [closePoint, hcnt, hbase, Pt.theta]

theorem closePoint_anchored (hbase : p.base = some base) (hcnt : p.cnt ≠ 0) :
    (closePoint p true false rtd drift).2 = some (p.tbase.getD rtd + (p.sumPK - base * p.sumK) / p.cnt - drift) := by
  simp [closePoint, hcnt, hbase, Pt.theta]

/-- The sums of the block after it stand in their place. -/
theorem closePoint_later (anchored rebase : Bool) :
    (closePoint p anchored rebase rtd drift).1.sumPK = p.laterPK ∧ (closePoint p anchored rebase rtd drift).1.cnt = p.laterCnt := by
  unfold closePoint
  extract_lets clear b t out
  have hclear (q : Pt) (h : q.laterPK = p.laterPK ∧ q.laterCnt = p.laterCnt) : (clear q).sumPK = p.laterPK ∧ (clear q).cnt = p.laterCnt := h
  (repeat' split) <;> exact hclear _ ⟨rfl, rfl⟩

end Point

/-! ### The registers that a close goes by -/

/-- The registers that lane `n`'s close reads beside its own counters: its block number and anchor settings, the region of its records, the state and size of external
memory, and the twin's role. -/
def closeReads (n : Nat) : List Nat :=
  [Fld.PHX_BLK_CNT.at n, Fld.PHX_Ln_REFCH_EN.at n, laneKey n Fld.PHX_TEMPBASE_BASE.addr, Fld.MEM_STAT_READY.at 0, Fld.MEM_GEOM_WIDTH.addr, Fld.TWN_STAT_ROLE.at 0,
    Fld.TWN_CTRL_EN.at 0]

/-- Registers clear of these: the system's, the other counters of PHX, the engines' and tachometers', the counters of memory, and the engines' copies. -/
theorem closeReads_clear {n k : Nat} (hn : n < 8) (h : k < 0x50680 ∨ (0x506A0 ≤ k ∧ k < 0x54000) ∨ (0x54000 ≤ k ∧ k < 0x56000 ∧ k % 0x200 ≠ 0) ∨ (0x60000 ≤ k ∧ k < 0x90000)
    ∨ (0x90600 ≤ k ∧ k < 0xE0000) ∨ 0x900000 ≤ k) : k ∉ closeReads n := by
  simp only [closeReads, Fld.at, laneKey, Fld.PHX_BLK_CNT, Fld.PHX_Ln_REFCH_EN, Fld.PHX_TEMPBASE_BASE, Fld.MEM_STAT_READY, Fld.MEM_GEOM_WIDTH, Fld.TWN_STAT_ROLE,
    Fld.TWN_CTRL_EN, List.mem_cons, List.not_mem_nil, or_false]
  omega

/-- A field of a lane's status registers in PHX. -/
theorem closeReads_lane {n m : Nat} {f : Fld} (hn : n < 8) (hm : m < 8) (h : f.stride = 0x200 ∧ 0x54000 < f.addr ∧ f.addr < 0x54200) : f.at m ∉ closeReads n := by
  refine closeReads_clear hn (.inr (.inr (.inl ?_)))
  simp only [Fld.at, h]
  omega

/-- A counter of memory, for the ports of PHX. -/
theorem closeReads_memCounters {n p : Nat} (hn : n < 8) (hp : p < 12) : ∀ k ∈ closeReads n, k ∉ memCounters p := by
  intro k hk hmem
  refine closeReads_clear hn (.inr (.inr (.inr (.inr (.inl ?_))))) hk
  simp only [memCounters, Fld.at, Fld.MEM_SRABORT_CNT, Fld.MEM_SRWAKE_CNT, Fld.MEM_BURST_CNT, Fld.MEM_CE_CNT, List.mem_cons, List.not_mem_nil, or_false] at hmem
  omega

/-! ### What writes of external memory leave beside the registers' values -/

/-- From `s` to `u` the copies that wait to be taken and the writes that wait at their ports are kept. -/
def State.SameWaits (s u : State) : Prop := u.regs.wait = s.regs.wait ∧ u.memc.waiting = s.memc.waiting

theorem State.SameWaits.trans (s u w : State) (h : s.SameWaits u) (h' : u.SameWaits w) : s.SameWaits w := ⟨h'.1.trans h.1, h'.2.trans h.2⟩

theorem State.SameWaits.refl (s : State) : s.SameWaits s := ⟨rfl, rfl⟩

theorem State.setLive_waits (s : State) (k : Nat) (w : Word) : s.SameWaits (s.setLive k w) := ⟨rfl, rfl⟩

theorem State.onChan_waits (s : State) (c : Nat) (f : MemChan → MemChan) : s.SameWaits (s.onChan c f) := ⟨rfl, rfl⟩

theorem State.eccClear_waits (s : State) (target key k : Nat) : s.SameWaits (s.eccClear target key k) := ⟨rfl, rfl⟩

theorem State.burst_waits (s : State) (p : Nat) : s.SameWaits (s.burst p) := by
  unfold State.burst
  extract_lets u b
  exact State.SameWaits.trans s { s with memc := { s.memc with used := _, held := _ } } _ ⟨rfl, rfl⟩ (State.setLive_waits ..)

theorem State.served_waits (s : State) (p : Nat) (ap write : Bool) (a : Nat) : s.SameWaits (s.served p ap write a) := by
  have harrival (c now : Nat) : s.SameWaits (s.srArrival c now) := by
    unfold State.srArrival
    split
    · exact .refl s
    · split
      · exact (s.onChan_waits c _).trans _ _ _ (State.setLive_waits ..)
      · exact (s.onChan_waits c _).trans _ _ _ (by
          unfold State.only
          split
          · exact State.setLive_waits ..
          · exact .refl _)
  exact ((harrival _ _).trans _ _ _ (State.onChan_waits ..)).trans _ _ _ (State.burst_waits ..)

theorem State.traffic_waits (s : State) (p : Nat) (ap write : Bool) (a k : Nat) : s.SameWaits (s.traffic p ap write a k) :=
  State.each_rel State.SameWaits State.SameWaits.refl State.SameWaits.trans _ (fun b r => r.served_waits p ap write b) _ s

theorem State.writeBytes_waits (s : State) (a : Nat) (bs : List Byte) : s.SameWaits (s.writeBytes a bs) := by
  have hedge (r : State) (k : Nat) : r.SameWaits (if r.eccAt 0 (8 * k) = 1 then (r.eccClear 0 (8 * k) 8).count Fld.MEM_CE_CNT 0 1 else r) := by
    split
    · exact (r.eccClear_waits ..).trans _ _ _ (State.setLive_waits ..)
    · exact .refl r
  have hover (r : State) (k : Nat) : r.SameWaits (r.eccOver 0 a k Fld.MEM_CE_CNT) := by
    unfold State.eccOver
    extract_lets first last s1 edge
    have h1 : r.SameWaits s1 := by
      subst s1
      split
      · exact r.eccClear_waits ..
      · exact .refl r
    exact (h1.trans _ _ _ (hedge s1 _)).trans _ _ _ (hedge _ _)
  have hwritten (r : State) (k : Nat) : r.SameWaits (r.dramWritten a k) := by
    unfold State.dramWritten
    split
    · exact .refl r
    · exact (hover r k).trans _ _ _ ⟨by rw [State.eccStrike_regs], by rw [State.eccStrike_memc]⟩
  unfold State.writeBytes
  split
  · exact .refl s
  · exact State.SameWaits.trans s (s.storeBytes a bs) _ ⟨by rw [State.storeBytes_regs], by rw [State.storeBytes_memc]⟩ (hwritten _ _)

/-- With external memory ready and no write waiting a write of the device's own masters is carried out. -/
theorem State.portWrite_ready (s : State) (p : Nat) (ap : Bool) (a : Nat) (bs : List Byte) (hready : s.flag Fld.MEM_STAT_READY 0 = true) (hwait : s.memc.waiting = []) :
    s.portWrite p ap a bs = ((s.traffic p ap true a bs.length).backOff a bs.length).writeBytes a bs := by
  have hfree : s.behindWaiting a bs.length = false := by simp [State.behindWaiting, hwait]
  simp only [State.portWrite, hready, hfree, Bool.not_false, Bool.and_self, if_true]

theorem State.portWrite_waits (s : State) (p : Nat) (ap : Bool) (a : Nat) (bs : List Byte) : (s.portWrite p ap a bs).regs.wait = s.regs.wait := by
  unfold State.portWrite
  split
  · exact (State.writeBytes_waits _ a bs).1.trans (s.traffic_waits p ap true a bs.length).1
  · rfl

/-- Its bytes are then read back. -/
theorem State.readByte_portWrite (s : State) (p : Nat) (ap : Bool) (a i : Nat) (bs : List Byte) (hp : p < 12) (hready : s.flag Fld.MEM_STAT_READY 0 = true)
    (hwait : s.memc.waiting = []) (hend : a + bs.length ≤ s.dramEnd) (hi : i < bs.length) : (s.portWrite p ap a bs).readByte (a + i) = bs[i] := by
  rw [s.portWrite_ready p ap a bs hready hwait]
  refine State.readByte_writeBytes_inside _ a i bs hi (hend.trans (Nat.le_of_eq ?_))
  have hgeom : Fld.MEM_GEOM_WIDTH.addr ∈ closeReads 0 := by decide
  exact (State.dramEnd_congr (by simp) (State.live_traffic s p _ (closeReads_memCounters (by decide) hp _ hgeom) ap true a _)).symm

end Sys2Proof.Machine

/-! PROOFS. What the steps of a block's close keep of what it goes by (R32, R176, R213, R214, R219). -/

namespace Sys2Proof.Machine

/-! ### Engines that wait for nothing (R214) -/

theorem bit_eq_testBit (w i : Nat) : bit w i = w.testBit i := by rw [bit, Nat.testBit_eq_decide_div_mod_eq]

/-- An engine that waits for nothing stays so, bound as it is, with a BLK event still pending. -/
def Engine.Idles (x y : Engine) : Prop := x.wait = .none → y.bound = x.bound ∧ y.wait = .none ∧ (bit x.evt.toNat 1 = true → bit y.evt.toNat 1 = true)

theorem Engine.Idles.refl (x : Engine) : x.Idles x := fun h => ⟨rfl, h, id⟩

theorem Engine.Idles.trans {x y z : Engine} (h : x.Idles y) (h' : y.Idles z) : x.Idles z := fun hx => by
  obtain ⟨hbound, hwait, hevt⟩ := h hx
  obtain ⟨hbound', hwait', hevt'⟩ := h' hwait
  exact ⟨hbound'.trans hbound, hwait', hevt' ∘ hevt⟩

theorem Engine.raise_none (x : Engine) (i : Nat) (h : x.wait = .none) : x.raise i = { x with evt := x.evt ||| BitVec.ofNat 8 (2 ^ i) } := by
  simp only [Engine.raise, Engine.tryWait, h]

theorem Engine.raise_idles (x : Engine) (i : Nat) : x.Idles (x.raise i) := fun h => by
  rw [x.raise_none i h]
  refine ⟨rfl, h, fun hbit => ?_⟩
  rw [bit_eq_testBit] at hbit ⊢
  rw [BitVec.toNat_or, Nat.testBit_or, hbit, Bool.true_or]

theorem Engine.raise_block (x : Engine) (h : x.wait = .none) : bit (x.raise 1).evt.toNat 1 = true := by
  rw [x.raise_none 1 h, bit_eq_testBit, BitVec.toNat_or, Nat.testBit_or]
  exact Bool.or_eq_true_iff.mpr (.inr (by decide))

/-- From `s` to `u` what a close of lane `n`'s block goes by is kept: the fuses, the registers it reads, the copies and writes that wait, the lane's phase side but for the
account of its rows, and idle engines where no copy waits for the engines. -/
structure State.KeepsBlock (n : Nat) (s u : State) : Prop where
  fixed : u.fixed = s.fixed
  live : ∀ k ∈ closeReads n, u.live k = s.live k
  wait : ∀ w ∈ u.regs.wait, w ∈ s.regs.wait
  waiting : s.flag Fld.MEM_STAT_READY 0 = true → s.memc.waiting = [] → u.memc.waiting = []
  lane : ∃ a b, u.phxOf n = { s.phxOf n with begun := a, rows := b }
  engine : (∀ w ∈ s.regs.wait, w.1 ≠ 7) → ∀ e, (s.engine e).Idles (u.engine e)

namespace State.KeepsBlock

variable {s u w : State} {n : Nat}

theorem refl (n : Nat) (s : State) : State.KeepsBlock n s s :=
  ⟨rfl, fun _ _ => rfl, fun _ h => h, fun _ h => h, ⟨_, _, rfl⟩, fun _ _ => .refl _⟩

theorem ready (h : State.KeepsBlock n s u) : u.flag Fld.MEM_STAT_READY 0 = s.flag Fld.MEM_STAT_READY 0 :=
  State.flag_of_fld (State.fld_of_live (h.live _ (by simp [closeReads])))

theorem trans (h : State.KeepsBlock n s u) (h' : State.KeepsBlock n u w) : State.KeepsBlock n s w where
  fixed := h'.fixed.trans h.fixed
  live k hk := (h'.live k hk).trans (h.live k hk)
  wait x hx := h.wait x (h'.wait x hx)
  waiting hready hnone := h'.waiting (h.ready.trans hready) (h.waiting hready hnone)
  lane := by
    obtain ⟨a, b, hl⟩ := h.lane
    obtain ⟨a', b', hl'⟩ := h'.lane
    exact ⟨a', b', by rw [hl', hl]⟩
  engine hno e := (h.engine hno e).trans (h'.engine (fun x hx => hno x (h.wait x hx)) e)

/-- A change of what a close does not go by. -/
theorem change (h : State.KeepsBlock n s u) (hf : w.fixed = u.fixed) (hr : w.regs = u.regs) (hm : w.memc = u.memc) (hp : w.phx = u.phx) (he : w.eng = u.eng) :
    State.KeepsBlock n s w :=
  h.trans ⟨hf, fun k _ => State.live_congr hr hf k, fun _ hx => hr ▸ hx, fun _ hx => (congrArg MemCtl.waiting hm).trans hx,
    ⟨_, _, State.phxOf_congr hp n⟩, fun _ e => by rw [State.engine_of_eng he e]; exact .refl _⟩

/-! ### Registers, choices and repetitions -/

theorem setLive (h : State.KeepsBlock n s u) (k : Nat) (x : Word) (hk : k ∉ closeReads n) : State.KeepsBlock n s (u.setLive k x) :=
  h.trans ⟨rfl, fun _ hj => State.live_setLive_other u k _ x (fun e => hk (e ▸ hj)), fun _ hx => hx, fun _ hx => hx, ⟨_, _, rfl⟩, fun _ _ => .refl _⟩

theorem setFld (h : State.KeepsBlock n s u) {f : Fld} {m v : Nat} (hk : f.at m ∉ closeReads n) : State.KeepsBlock n s (u.setFld f m v) := h.setLive _ _ hk

theorem setFlag (h : State.KeepsBlock n s u) {f : Fld} {m : Nat} {b : Bool} (hk : f.at m ∉ closeReads n) : State.KeepsBlock n s (u.setFlag f m b) := h.setLive _ _ hk

theorem setLaneBit (h : State.KeepsBlock n s u) {f : Fld} {i : Nat} {b : Bool} (hk : f.at 0 ∉ closeReads n) : State.KeepsBlock n s (u.setLaneBit f i b) := h.setLive _ _ hk

theorem count (h : State.KeepsBlock n s u) {f : Fld} {m k : Nat} (hk : f.at m ∉ closeReads n) : State.KeepsBlock n s (u.count f m k) := h.setLive _ _ hk

theorem ite {c : Prop} {_ : Decidable c} {a b : State} (ha : State.KeepsBlock n s a) (hb : State.KeepsBlock n s b) : State.KeepsBlock n s (if c then a else b) := by
  split
  · exact ha
  · exact hb

theorem foldl {α : Type} (h : State.KeepsBlock n s u) {l : List α} {f : State → α → State} (hf : ∀ r : State, ∀ x ∈ l, State.KeepsBlock n r (f r x)) :
    State.KeepsBlock n s (l.foldl f u) := by
  induction l generalizing u with
  | nil => exact h
  | cons x l ih => exact ih (h.trans (hf u x List.mem_cons_self)) (fun r y hy => hf r y (List.mem_cons_of_mem x hy))

theorem each (h : State.KeepsBlock n s u) {us : List Nat} {f : Nat → State → State} (hf : ∀ r : State, ∀ m ∈ us, State.KeepsBlock n r (f m r)) :
    State.KeepsBlock n s (u.each us f) := h.foldl hf

/-- A change of the account of the lane's rows. -/
theorem onPhx (h : State.KeepsBlock n s u) (hn : n < 8) {g : PhxLane → PhxLane} (hg : ∀ l, ∃ a b, g l = { l with begun := a, rows := b }) :
    State.KeepsBlock n s (u.onPhx n g) := by
  obtain ⟨a, b, hl⟩ := hg (u.phxOf n)
  exact h.trans ⟨rfl, fun _ _ => rfl, fun _ hx => hx, fun _ hx => hx, ⟨a, b, (State.phxOf_onPhx_same u n g hn).trans hl⟩, fun _ _ => .refl _⟩

theorem onEngine (h : State.KeepsBlock n s u) {e : Nat} (he : e < 8) {g : Engine → Engine} (hg : ∀ x : Engine, x.Idles (g x)) : State.KeepsBlock n s (u.onEngine e g) :=
  h.trans ⟨rfl, fun _ _ => rfl, fun _ hx => hx, fun _ hx => hx, ⟨_, _, rfl⟩, fun _ k => by
    rw [State.engine_onEngine u e k g he]
    split
    next hk => exact hk ▸ hg _
    next => exact .refl _⟩

/-- An engine takes a copy that waited for the engines. -/
theorem taking (h : State.KeepsBlock n s u) {i : Nat} (hw : (7, i) ∈ s.regs.wait) (e : Nat) (g : Engine → Engine) : State.KeepsBlock n s (u.onEngine e g) where
  fixed := h.fixed
  live := h.live
  wait := h.wait
  waiting := h.waiting
  lane := h.lane
  engine hno := absurd rfl (hno _ hw)

theorem drawn (h : State.KeepsBlock n s u) : State.KeepsBlock n s u.drawn := h.change rfl rfl rfl rfl rfl

theorem onTach (h : State.KeepsBlock n s u) (k : Nat) (g : Tach → Tach) : State.KeepsBlock n s (u.onTach k g) := h.change rfl rfl rfl rfl rfl

theorem portWrite (h : State.KeepsBlock n s u) (hn : n < 8) {p : Nat} (hp : p < 12) {ap : Bool} {a : Nat} {bs : List Byte} :
    State.KeepsBlock n s (u.portWrite p ap a bs) :=
  h.trans ⟨State.portWrite_fixed .., fun k hk => State.live_portWrite u p k (closeReads_memCounters hn hp k hk) ap a bs,
    fun _ hx => (State.portWrite_waits ..) ▸ hx,
    fun hready hnone => by
      rw [u.portWrite_ready p ap a bs hready hnone]
      exact (State.writeBytes_waits _ a bs).2.trans ((u.traffic_waits p ap true a bs.length).2.trans hnone),
    ⟨_, _, State.phxOf_congr (State.portWrite_phx ..) n⟩, fun _ e => by rw [State.engine_of_eng (State.portWrite_eng ..) e]; exact .refl _⟩

/-! ### Working copies (R435, R447) -/

theorem coverChanged (h : State.KeepsBlock n s u) (hn : n < 8) : State.KeepsBlock n s u.coverChanged :=
  (h.change (w := { u with sys := { u.sys with passDirty := true } }) rfl rfl rfl rfl rfl).setFlag (closeReads_clear hn (.inl (by decide)))

theorem takeLive (h : State.KeepsBlock n s u) (hn : n < 8) {k : Nat} {x : Word} (hk : k ∉ closeReads n) : State.KeepsBlock n s (u.takeLive k x) := by
  unfold State.takeLive
  exact ite (h.setLive k x hk) ((h.setLive k x hk).coverChanged hn)

theorem took (h : State.KeepsBlock n s u) (hn : n < 8) (win unit : Nat) : State.KeepsBlock n s (u.took win unit) := by
  have hw : State.KeepsBlock n s { u with regs := { u.regs with wait := u.regs.wait.filter (fun e => e ≠ (win, unit)) } } :=
    h.trans ⟨rfl, fun _ _ => rfl, fun _ hx => List.mem_of_mem_filter hx, fun _ hx => hx, ⟨_, _, rfl⟩, fun _ _ => .refl _⟩
  have hclear {v : State} (hv : State.KeepsBlock n s v) : State.KeepsBlock n s (v.pendClear win) := by
    have hs {x : Nat} : State.KeepsBlock n s (v.setFld Fld.SYS_COMMIT_PEND 0 x) := hv.setFld (closeReads_clear hn (.inl (by decide)))
    unfold State.pendClear
    exact ite (ite (hs.change rfl rfl rfl rfl rfl) hs) hv
  unfold State.took
  exact ite hw (hclear hw)

/-! ### Engines and tachometers at a block's close (R213, R214, R219) -/

theorem engTake (h : State.KeepsBlock n s u) (hn : n < 8) {e : Nat} (he : e < 8) : State.KeepsBlock n s (u.engTake e) := by
  refine h.trans ?_
  unfold State.engTake
  split
  next hwaits =>
    have hw : (7, e) ∈ u.regs.wait := by simpa [State.waits] using hwaits
    have hbind : Fld.ANV_En_BIND_LANE.at e ∉ closeReads n :=
      closeReads_clear hn (.inr (.inr (.inr (.inl (by simp only [Fld.at, Fld.ANV_En_BIND_LANE]; omega)))))
    have hcopy : engKey e Fld.ANV_CKBASE_BASE.addr ∉ closeReads n := closeReads_clear hn (by simp only [engKey]; omega)
    exact (((((refl n u).takeLive hn hbind).takeLive hn hcopy).taking hw e _)).took hn 7 e
  next => exact refl n u

theorem tachTake (h : State.KeepsBlock n s u) (hn : n < 8) : State.KeepsBlock n s u.tachTake := by
  have hreg {k : Nat} {f : Fld} (hk : k < 8) (hf : f.stride = 0x40 ∧ 0x70000 ≤ f.addr ∧ f.addr < 0x7F000) : f.at k ∉ closeReads n :=
    closeReads_clear hn (.inr (.inr (.inr (.inl (by simp only [Fld.at, hf]; omega)))))
  have hctrl {k : Nat} (hk : 0x70000 ≤ k ∧ k < 0x80000) : k ∉ closeReads n := closeReads_clear hn (by omega)
  unfold State.tachTake
  refine ite ?_ h
  extract_lets one s1
  have hone (r : State) (k : Nat) (hk : k < 8) : State.KeepsBlock n r (one k r) := by
    subst one
    beta_reduce
    extract_lets a b stale enable v1 v2
    have hv1 : State.KeepsBlock n r v1 := ((refl n r).takeLive hn (hreg hk (by decide))).takeLive hn (hreg hk (by decide))
    have hv2 : State.KeepsBlock n r v2 := ite ((hv1.setFlag (hreg hk (by decide))).onTach k _) hv1
    exact ite (((hv2.setFld (hreg hk (by decide))).setFlag (hreg hk (by decide))).onTach k _) hv2
  have h1 : State.KeepsBlock n s s1 := h.each (fun r k hk => hone r k (List.mem_range.mp hk))
  exact ((h1.takeLive hn (hctrl (by decide))).takeLive hn (hctrl (by decide))).took hn 7 100

theorem raised (h : State.KeepsBlock n s u) (m i : Nat) : State.KeepsBlock n s (u.each (u.boundTo m) (fun e r => r.onEngine e (fun x => x.raise i))) :=
  h.each (fun r e he => (refl n r).onEngine (u.boundTo_lt m e he) (fun x => x.raise_idles i))

theorem takes (h : State.KeepsBlock n s u) (hn : n < 8) (m : Nat) : State.KeepsBlock n s (u.each (u.boundTo m) (fun e r => r.engTake e)).tachTake :=
  tachTake (h.each (fun r e he => (refl n r).engTake hn (u.boundTo_lt m e he))) hn

theorem engBlockClose (h : State.KeepsBlock n s u) (hn : n < 8) (m : Nat) : State.KeepsBlock n s (u.engBlockClose m) := (h.takes hn m).raised m 1

/-! ### Rows and positions (R28, R32, R176, R224) -/

theorem setPos (h : State.KeepsBlock n s u) (hn : n < 8) {m : Nat} (hm : m < 8) : State.KeepsBlock n s (u.setPos m) :=
  ((h.setFld (closeReads_lane hn hm (by decide))).setFld (closeReads_lane hn hm (by decide))).each
    (fun r e he => (refl n r).onEngine (u.boundTo_lt m e he) (fun x => fun hx => ⟨rfl, hx, id⟩))

theorem posAll (h : State.KeepsBlock n s u) (hn : n < 8) : State.KeepsBlock n s u.posAll :=
  h.each (fun r _ hm => (refl n r).setPos hn ((List.mem_range.mp hm).trans_le u.lanes_le))

theorem beginBlock (h : State.KeepsBlock n s u) (hn : n < 8) (no : Nat) : State.KeepsBlock n s (u.beginBlock n no) := by
  have hb : State.KeepsBlock n s (u.onPhx n (fun l => { l with begun := some no })) := h.onPhx hn (fun l => ⟨some no, l.rows, rfl⟩)
  have hovr : Fld.PHX_OVR_CNT.at n ∉ closeReads n := closeReads_clear hn (.inl (by simp only [Fld.at, Fld.PHX_OVR_CNT]; omega))
  unfold State.beginBlock
  exact ite h (ite ((hb.count hovr).setFld (closeReads_lane hn hn (by decide))) hb)

theorem fillRows (h : State.KeepsBlock n s u) (hn : n < 8) (j : Nat) (all : Bool) : State.KeepsBlock n s (u.fillRows n j all) := by
  unfold State.fillRows
  refine ite h ?_
  extract_lets slots one before s1 s2
  have hone (r : State) (k : Nat) : State.KeepsBlock n r (one r k) := ite (refl n r) ((refl n r).foldl (fun v g _ => (refl n v).portWrite hn (by decide)))
  have h2 : State.KeepsBlock n s s2 :=
    (((h.beginBlock hn _).foldl (fun r k _ => hone r k)).onPhx hn (fun l => ⟨l.begun, _, rfl⟩)).setPos hn hn
  exact ite (h2.raised n 0) h2

end State.KeepsBlock

end Sys2Proof.Machine

/-! PROOFS. The close of a block on a lane in relative mode (R176, R183, R186, R189). -/

namespace Sys2Proof.Machine

/-! ### Records (R189) -/

theorem leBytes_length (n v : Nat) : (leBytes n v).length = n := by
  induction n generalizing v with
  | zero => rfl
  | succ n ih => rw [leBytes, List.length_cons, ih]

theorem flatMap_leBytes_length (n : Nat) (ws : List Nat) : (ws.flatMap (leBytes n)).length = n * ws.length := by
  induction ws with
  | nil => rfl
  | cons w ws ih => rw [List.flatMap_cons, List.length_append, leBytes_length, ih, List.length_cons, Nat.mul_add, Nat.mul_one, Nat.add_comm]

/-- The bytes of word `i` stand at `n` times `i`. -/
theorem getElem?_flatMap_leBytes (n : Nat) (ws : List Nat) (i k : Nat) (hk : k < n) :
    (ws.flatMap (leBytes n))[n * i + k]? = ws[i]?.bind (fun w => (leBytes n w)[k]?) := by
  induction ws generalizing i with
  | nil => simp
  | cons w ws ih =>
    rw [List.flatMap_cons]
    cases i with
    | zero => rw [List.getElem?_append_left (by rw [leBytes_length]; omega)]; simp
    | succ i =>
      have hidx : n * (i + 1) + k - n = n * i + k := by rw [Nat.mul_add]; omega
      rw [List.getElem?_append_right (by rw [leBytes_length, Nat.mul_add]; omega), leBytes_length, hidx, ih]
      simp

/-- A record is 64 bytes of head and then its temperatures. -/
theorem State.blockRecord_eq (s : State) (n no stamped : Nat) (first partial_ reissue : Bool) (t0 : Nat) (drift : Rat) (stale : Bool) (temps : List Nat) :
    ∃ head, head.length = 64 ∧ s.blockRecord n no stamped first partial_ reissue t0 drift stale temps = head ++ temps.flatMap (leBytes 4) := by
  unfold State.blockRecord
  extract_lets l flags k head pts
  exact ⟨head ++ leBytes 4 (crc32c (head ++ pts)), by simp only [head, List.length_append, leBytes_length], rfl⟩

/-! ### The points after a close (R183) -/

/-- Each of the first points takes its new state. -/
theorem sget_foldl_sput {β : Type} [DecidableEq β] (d : β) (g : Nat → β) (l : List (Nat × β)) (m i : Nat) :
    sget d (((List.range m).map (fun i => (i, g i))).foldl (fun acc e => sput d acc e.1 e.2) l) i = if i < m then g i else sget d l i := by
  induction m with
  | zero => simp
  | succ m ih =>
    rw [List.range_succ, List.map_append, List.foldl_append, List.map_singleton, List.foldl_cons, List.foldl_nil, sget_sput, ih]
    by_cases him : i = m
    · rw [if_pos him, if_pos (by omega), him]
    · rw [if_neg him]
      exact if_congr (by omega) rfl rfl

/-- A point of a lane in relative mode at a close. -/
def State.closedPoint (s : State) (n i : Nat) : Pt × Option Rat := closePoint ((s.phxOf n).pt i) false ((s.phxOf n).fresh || (s.phxOf n).rebaseNext) 0 0

/-- The temperature word of a point at a close: INVALID in the last G points. -/
def State.closedWord (s : State) (n i : Nat) : Nat :=
  if s.lenN n - s.laneFld n Fld.PHX_GAUGE_G ≤ i then 0x80000000 else tempWord (s.closedPoint n i).2

/-- The record's temperatures. -/
def State.closedWords (s : State) (n : Nat) : List Nat := (List.range (s.lenN n)).map (s.closedWord n)

/-! ### What follows the record (R176, R213, R214, R224) -/

/-- The lane shows its position, and starts no more. -/
def State.closeShown (s : State) (n : Nat) : State := ((s.setPos n).setFlag Fld.PHX_Ln_STAT_STARTING n false).setLaneBit Fld.PHX_STAT_STARTING n false

/-- The bound engines take their copies and get BLK, and every lane's position follows. -/
def State.closeTold (s : State) (n : Nat) : State := ((s.closeShown n).engBlockClose n).posAll

section Told

variable (s : State) (n : Nat)

theorem State.closeShown_keeps (hn : n < 8) : State.KeepsBlock n s (s.closeShown n) :=
  (((State.KeepsBlock.refl n s).setPos hn hn).setFlag (closeReads_lane hn hn (by decide))).setLaneBit (closeReads_clear hn (.inl (by decide)))

theorem State.closeTold_keeps (hn : n < 8) : State.KeepsBlock n s (s.closeTold n) := (((s.closeShown_keeps n hn).engBlockClose hn n)).posAll hn

theorem State.each_mem (us : List Nat) (f : Nat → State → State) (hf : ∀ k r, (f k r).mem = r.mem) : (s.each us f).mem = s.mem :=
  State.each_rel (fun s u => u.mem = s.mem) (fun _ => rfl) (fun _ _ _ h h' => h'.trans h) f hf us s

theorem State.setPos_mem : (s.setPos n).mem = s.mem := by
  unfold State.setPos
  extract_lets d s1
  exact (s1.each_mem _ _ (fun e r => State.onEngine_mem r e _)).trans ((State.setFld_mem ..).trans (State.setFld_mem ..))

theorem State.takeLive_mem (k : Nat) (w : Word) : (s.takeLive k w).mem = s.mem := by
  unfold State.takeLive
  split
  · exact State.setLive_mem ..
  · exact (State.coverChanged_mem _).trans (State.setLive_mem ..)

theorem State.took_mem (win unit : Nat) : (s.took win unit).mem = s.mem := by
  have hclear (r : State) : (r.pendClear win).mem = r.mem := by
    unfold State.pendClear
    extract_lets s1
    have h1 : s1.mem = r.mem := State.setFld_mem ..
    (repeat' split)
    · exact h1
    · exact h1
    · rfl
  unfold State.took
  extract_lets w regs s1
  split
  · rfl
  · exact hclear s1

theorem State.engTake_mem (e : Nat) : (s.engTake e).mem = s.mem := by
  unfold State.engTake
  split
  · exact (State.took_mem ..).trans ((State.onEngine_mem ..).trans ((State.takeLive_mem ..).trans (State.takeLive_mem ..)))
  · rfl

theorem State.tachTake_mem : s.tachTake.mem = s.mem := by
  unfold State.tachTake
  split
  · extract_lets one s1
    have h1 : s1.mem = s.mem := by
      refine s.each_mem _ one (fun k r => ?_)
      subst one
      beta_reduce
      extract_lets a b stale enable v1 v2
      have hv1 : v1.mem = r.mem := (State.takeLive_mem ..).trans (State.takeLive_mem ..)
      have hv2 : v2.mem = r.mem := by
        subst v2
        split
        · exact (State.onTach_mem ..).trans ((State.setFlag_mem ..).trans hv1)
        · exact hv1
      split
      · exact (State.onTach_mem ..).trans ((State.setFlag_mem ..).trans ((State.setFld_mem ..).trans hv2))
      · exact hv2
    exact (State.took_mem ..).trans ((State.takeLive_mem ..).trans ((State.takeLive_mem ..).trans h1))
  · rfl

theorem State.closeTold_mem : (s.closeTold n).mem = s.mem := by
  have hshown : (s.closeShown n).mem = s.mem := (State.setLaneBit_mem ..).trans ((State.setFlag_mem ..).trans (s.setPos_mem n))
  refine (State.each_mem _ _ _ (fun k r => r.setPos_mem k)).trans ((State.each_mem _ _ _ (fun e r => State.onEngine_mem r e _)).trans ?_)
  exact (State.tachTake_mem _).trans ((State.each_mem _ _ _ (fun e r => r.engTake_mem e)).trans hshown)

/-- With no copy waiting for the engines, each idle engine bound to the lane has a BLK event. -/
theorem State.closeTold_raises (hn : n < 8) (hno : ∀ w ∈ s.regs.wait, w.1 ≠ 7) (e : Nat) (he : e < s.lanes) (hbound : (s.engine e).bound = some n)
    (hidle : (s.engine e).wait = .none) : bit ((s.closeTold n).engine e).evt.toNat 1 = true := by
  have htakes := (s.closeShown_keeps n hn).takes hn n
  generalize hv : ((s.closeShown n).each ((s.closeShown n).boundTo n) (fun e r => r.engTake e)).tachTake = v at htakes
  obtain ⟨hbound', hidle', -⟩ := htakes.engine hno e hidle
  have hmem : e ∈ v.boundTo n := List.mem_filter.mpr ⟨List.mem_range.mpr (by rw [State.lanes, htakes.fixed]; exact he), decide_eq_true (hbound'.trans hbound)⟩
  obtain ⟨r, hr, hafter⟩ := State.each_once (State.KeepsBlock n) (State.KeepsBlock.refl n) (fun _ _ _ h h' => h.trans h') (fun e r => r.onEngine e (fun x => x.raise 1)) e
    (v.boundTo n) hmem (List.nodup_range.filter _) (fun m hm _ r => (State.KeepsBlock.refl n r).onEngine (v.boundTo_lt n m hm) (fun x => x.raise_idles 1)) v
  have hno' : ∀ w ∈ v.regs.wait, w.1 ≠ 7 := fun w hw => hno w (htakes.wait w hw)
  have hidler : (r.engine e).wait = .none := (hr.engine hno' e hidle').2.1
  have hraised : (r.onEngine e (fun x => x.raise 1)).engine e = (r.engine e).raise 1 := by rw [State.engine_onEngine _ _ _ _ (v.boundTo_lt n e hmem), if_pos rfl]
  have hno'' : ∀ w ∈ (r.onEngine e (fun x => x.raise 1)).regs.wait, w.1 ≠ 7 := fun w hw => hno' w (hr.wait w hw)
  have hend : State.KeepsBlock n (r.onEngine e (fun x => x.raise 1)) (s.closeTold n) := by
    have htold : s.closeTold n = (v.each (v.boundTo n) (fun e r => r.onEngine e (fun x => x.raise 1))).posAll := by rw [← hv]; rfl
    rw [htold]
    exact hafter.posAll hn
  refine (hend.engine hno'' e ?_).2.2 ?_
  · rw [hraised]
    exact (Engine.raise_idles _ 1 hidler).2.1
  · rw [hraised]
    exact Engine.raise_block _ hidler

end Told

end Sys2Proof.Machine

/-! PROOFS. What a block's close on a lane in relative mode leaves, and the statement of its family (O39). -/

namespace Sys2Proof.Machine

/-! ### The close as its steps (R176, R183, R189) -/

theorem State.ckptShare_off (s : State) (n no : Nat) (h : s.flag Fld.TWN_CTRL_EN 0 = false) : s.ckptShare n no = s := by
  unfold State.ckptShare
  exact if_pos (by rw [h]; rfl)

theorem State.ckptSend_off (s : State) (n no : Nat) (h : s.role ≠ 1) : s.ckptSend n no = s := by
  unfold State.ckptSend
  exact if_pos (by simp [h])

/-- The lane after a close: the next block is open, and its points have their new states. -/
def State.ClosesLane (s : State) (n : Nat) (g : PhxLane → PhxLane) : Prop :=
  ∀ l, (g l).block = l.block + 1
    ∧ (g l).pts = ((List.range (s.lenN n)).map (fun i => (i, (s.closedPoint n i).1))).foldl (fun acc e => sput Pt.reset acc e.1 e.2) l.pts

/-- The lane after a close, with the block counted. -/
def State.blockCounted (s : State) (n : Nat) (g : PhxLane → PhxLane) : State := (s.onPhx n g).count Fld.PHX_BLK_CNT n 1

section Counted

variable (s : State) (n : Nat) (g : PhxLane → PhxLane)

theorem State.phxOf_blockCounted (hn : n < 8) : (s.blockCounted n g).phxOf n = g (s.phxOf n) :=
  (State.phxOf_congr (State.count_phx ..) n).trans (State.phxOf_onPhx_same s n g hn)

theorem State.live_blockCounted (k : Nat) (hk : k ≠ Fld.PHX_BLK_CNT.at n) : (s.blockCounted n g).live k = s.live k :=
  (State.live_count_other _ _ n 1 k hk).trans (State.live_congr (State.onPhx_regs ..) (State.onPhx_fixed ..) k)

theorem State.fld_blockCounted : (s.blockCounted n g).fld Fld.PHX_BLK_CNT n = (s.fld Fld.PHX_BLK_CNT n + 1) % 2 ^ 32 := by
  have hcount : (s.onPhx n g).fld Fld.PHX_BLK_CNT n = s.fld Fld.PHX_BLK_CNT n :=
    State.fld_of_live (State.live_congr (State.onPhx_regs ..) (State.onPhx_fixed ..) _)
  rw [State.blockCounted, State.count, State.fld_setFld_same _ _ _ _ ⟨by decide, by decide⟩, hcount]
  rfl

theorem State.blockCounted_rest : (s.blockCounted n g).fixed = s.fixed ∧ (s.blockCounted n g).eng = s.eng ∧ (s.blockCounted n g).mem = s.mem := by
  simp [State.blockCounted]

theorem State.blockCounted_waits : (s.blockCounted n g).regs.wait = s.regs.wait := ((s.onPhx n g).setLive_waits _ _).1

end Counted

section CloseBlock

variable (s : State) (n j : Nat) (hn : n < 8)

/-- The record of a close, written by the state in which its rows are complete. -/
def State.recordWritten (s v : State) (n j : Nat) (head : List Byte) : State :=
  (v.portWrite 10 false (s.blockRecAddr n (s.blockNo n j)) (head ++ (s.closedWords n).flatMap (leBytes 4))).drawn

theorem State.KeepsBlock.blockRecAddr {s v : State} {n : Nat} (h : State.KeepsBlock n s v) (no : Nat) : v.blockRecAddr n no = s.blockRecAddr n no := by
  have hbase : v.live (laneKey n Fld.PHX_TEMPBASE_BASE.addr) = s.live (laneKey n Fld.PHX_TEMPBASE_BASE.addr) := h.live _ (by simp [closeReads])
  simp only [State.blockRecAddr, State.laneFld, hbase, State.lanes, h.fixed]

/-- A lane that is not anchored and has no reference closes with neither drift nor a report of its coil. -/
theorem State.closeMode_relative (href : s.flag Fld.PHX_Ln_REFCH_EN n = false) (hanch : (s.phxOf n).anchored = false) :
    (s.closeMode n).1 = false ∧ (s.closeMode n).2.1 = ((s.phxOf n).fresh || (s.phxOf n).rebaseNext) ∧ (s.closeMode n).2.2.2.2 = false := by
  simp [State.closeMode, href, hanch]

include hn

theorem State.closeBlock_steps (href : s.flag Fld.PHX_Ln_REFCH_EN n = false) (hanch : (s.phxOf n).anchored = false) (hrole : s.role ≠ 1)
    (htwin : s.flag Fld.TWN_CTRL_EN 0 = false) :
    ∃ v head g, State.KeepsBlock n s v ∧ head.length = 64 ∧ s.ClosesLane n g
      ∧ s.closeBlock n j false false = ((s.recordWritten v n j head).blockCounted n g).closeTold n := by
  unfold State.closeBlock
  extract_lets l p b no mine stamped s1 m rtd lim res temps s2 s3 t0 rec_ s4 s5 s6 s7 s8
  have h1 : State.KeepsBlock n s s1 := (State.KeepsBlock.refl n s).fillRows hn j false
  have h3 : State.KeepsBlock n s s3 := (h1.setFlag (closeReads_lane hn hn (by decide))).setFld (closeReads_lane hn hn (by decide))
  obtain ⟨hanchored, hrebase, hcoil⟩ : m.1 = false ∧ m.2.1 = ((s.phxOf n).fresh || (s.phxOf n).rebaseNext) ∧ m.2.2.2.2 = false := by
    obtain ⟨a, b, hl⟩ := h1.lane
    have href1 : s1.flag Fld.PHX_Ln_REFCH_EN n = false := (State.flag_of_fld (State.fld_of_live (h1.live _ (by simp [closeReads])))).trans href
    have hmode := s1.closeMode_relative n href1 (by rw [hl]; exact hanch)
    rw [hl] at hmode
    exact hmode
  have hres : res = (List.range (s.lenN n)).map (fun i => (i, s.closedPoint n i)) :=
    List.map_congr_left (fun i _ => by rw [hanchored, closePoint_relative, hrebase]; rfl)
  have htemps : temps = s.closedWords n := by
    simp only [temps, hres, List.map_map, State.closedWords, Function.comp_def, lim]
    exact List.map_congr_left (fun i _ => rfl)
  obtain ⟨head, hlen, hrec⟩ := s3.blockRecord_eq n no stamped (j = 0) (false || decide (stamped < b)) false t0 m.2.2.1 m.2.2.2.1 temps
  have h4 : s4 = s.recordWritten s3 n j head := by
    simp only [s4, rec_, hrec, htemps, h3.blockRecAddr, State.recordWritten, no]
  have h6 : s6 = s5 := if_neg (by simp [hcoil])
  have hkeep : State.KeepsBlock n s s4 := by
    rw [h4]
    exact (h3.portWrite hn (by decide)).drawn
  obtain ⟨g, hg, h5⟩ : ∃ g, s.ClosesLane n g ∧ s5 = s4.onPhx n g := by
    refine ⟨_, fun l' => ⟨rfl, ?_⟩, rfl⟩
    simp only [hres, List.foldl_map]
  have hend : (s8.engBlockClose n).posAll = (s4.blockCounted n g).closeTold n := by
    simp only [State.closeTold, State.closeShown, State.blockCounted, s8, s7, h6, h5]
  have hlive {k : Nat} (hk : k ∈ closeReads n) (hblk : k ≠ Fld.PHX_BLK_CNT.at n) : ((s4.blockCounted n g).closeTold n).live k = s.live k :=
    ((State.closeTold_keeps _ n hn).live k hk).trans ((s4.live_blockCounted n g k hblk).trans (hkeep.live k hk))
  have hblk (k : Nat) (hk : 0x60000 ≤ k) : k ≠ Fld.PHX_BLK_CNT.at n := by
    simp only [Fld.at, Fld.PHX_BLK_CNT]
    omega
  have hshare : ((s4.blockCounted n g).closeTold n).flag Fld.TWN_CTRL_EN 0 = false :=
    (State.flag_of_fld (State.fld_of_live (hlive (by simp [closeReads]) (hblk _ (by decide))))).trans htwin
  have hsend : ((s4.blockCounted n g).closeTold n).role ≠ 1 := fun h =>
    hrole ((State.fld_of_live (hlive (by simp [closeReads]) (hblk _ (by decide)))).symm.trans h)
  refine ⟨s3, head, g, h3, hlen, hg, ?_⟩
  rw [hend, State.ckptShare_off _ n no hshare, State.ckptSend_off _ n no hsend, h4]

end CloseBlock

/-! ### What a close leaves (R176, R183, R189, R214) -/

theorem State.KeepsBlock.dramEnd {s v : State} {n : Nat} (h : State.KeepsBlock n s v) : v.dramEnd = s.dramEnd :=
  State.dramEnd_congr h.fixed (h.live _ (by simp [closeReads]))

theorem State.KeepsBlock.recordWritten {s v : State} {n : Nat} (h : State.KeepsBlock n s v) (hn : n < 8) (j : Nat) (head : List Byte) :
    State.KeepsBlock n s (s.recordWritten v n j head) := (h.portWrite hn (by decide)).drawn

/-- The bytes of a temperature in a record that has been written. -/
theorem State.readByte_recordWritten (s v : State) (n j : Nat) (head : List Byte) (hv : State.KeepsBlock n s v) (hlen : head.length = 64)
    (hready : s.flag Fld.MEM_STAT_READY 0 = true) (hwait : s.memc.waiting = []) (hend : s.blockRecAddr n (s.blockNo n j) + 64 + 4 * s.lenN n ≤ s.dramEnd)
    (i k : Nat) (hi : i < s.lenN n) (hk : k < 4) :
    (s.recordWritten v n j head).readByte (s.blockRecAddr n (s.blockNo n j) + 64 + 4 * i + k) = (leBytes 4 (s.closedWord n i)).getD k 0 := by
  unfold State.recordWritten
  generalize s.blockRecAddr n (s.blockNo n j) = a at hend ⊢
  generalize hbs : head ++ (s.closedWords n).flatMap (leBytes 4) = bs
  have hbslen : bs.length = 64 + 4 * s.lenN n := by
    rw [← hbs, List.length_append, hlen, flatMap_leBytes_length, State.closedWords, List.length_map, List.length_range]
  have hidx : 64 + (4 * i + k) < bs.length := by omega
  have hbyte : bs[64 + (4 * i + k)]? = (leBytes 4 (s.closedWord n i))[k]? := by
    rw [← hbs, List.getElem?_append_right (by omega), hlen, Nat.add_sub_cancel_left, getElem?_flatMap_leBytes 4 _ i k hk, State.closedWords, List.getElem?_map,
      List.getElem?_range hi]
    rfl
  have hread := v.readByte_portWrite 10 false a (64 + (4 * i + k)) bs (by decide) (hv.ready.trans hready) (hv.waiting hready hwait) (by rw [hv.dramEnd]; omega) hidx
  have haddr : a + 64 + 4 * i + k = a + (64 + (4 * i + k)) := by omega
  rw [haddr, State.readByte_congr (State.drawn_mem _) (State.dramEnd_congr (State.drawn_fixed _) (State.live_congr (State.drawn_regs _) (State.drawn_fixed _) _)), hread,
    List.getD_eq_getElem?_getD, ← hbyte, List.getElem?_eq_getElem hidx]
  rfl

/-- A block that closes on a lane in relative mode is counted, its points begin anew, its record holds their temperatures, and the engines bound to the lane get BLK. -/
theorem State.closeBlock_leaves (s : State) (n j : Nat) (hn : n < s.lanes) (href : s.flag Fld.PHX_Ln_REFCH_EN n = false) (hanch : (s.phxOf n).anchored = false)
    (hrole : s.role ≠ 1) (htwin : s.flag Fld.TWN_CTRL_EN 0 = false) (hready : s.flag Fld.MEM_STAT_READY 0 = true) (hwait : s.memc.waiting = [])
    (hend : s.blockRecAddr n (s.blockNo n j) + 64 + 4 * s.lenN n ≤ s.dramEnd) :
    let u := s.closeBlock n j false false
    (u.phxOf n).block = (s.phxOf n).block + 1 ∧ u.fld Fld.PHX_BLK_CNT n = (s.fld Fld.PHX_BLK_CNT n + 1) % 2 ^ 32
      ∧ (∀ i, i < s.lenN n → (u.phxOf n).pt i = (s.closedPoint n i).1 ∧ ∀ k, k < 4 →
        u.readByte (s.blockRecAddr n (s.blockNo n j) + 64 + 4 * i + k) = (leBytes 4 (s.closedWord n i)).getD k 0)
      ∧ ((∀ w, w ∈ s.regs.wait → w.1 ≠ 7) → ∀ e, e < s.lanes → (s.engine e).bound = some n → (s.engine e).wait = .none → bit (u.engine e).evt.toNat 1 = true) := by
  have hn8 : n < 8 := hn.trans_le s.lanes_le
  obtain ⟨v, head, g, hv, hlen, hg, hclose⟩ := s.closeBlock_steps n j hn8 href hanch hrole htwin
  have hread := s.readByte_recordWritten v n j head hv hlen hready hwait hend
  have hw : State.KeepsBlock n s (s.recordWritten v n j head) := hv.recordWritten hn8 j head
  generalize s.recordWritten v n j head = w at hclose hread hw
  have hu : State.KeepsBlock n (w.blockCounted n g) ((w.blockCounted n g).closeTold n) := State.closeTold_keeps _ n hn8
  have hmem := (w.blockCounted n g).closeTold_mem n
  have hphx := w.phxOf_blockCounted n g hn8
  have hlive := w.live_blockCounted n g
  have hcount := w.fld_blockCounted n g
  obtain ⟨hfixed, heng, hmemy⟩ := w.blockCounted_rest n g
  have hwaits := w.blockCounted_waits n g
  generalize w.blockCounted n g = y at *
  have hgeom : Fld.MEM_GEOM_WIDTH.addr ≠ Fld.PHX_BLK_CNT.at n := by
    simp only [Fld.at, Fld.PHX_BLK_CNT, Fld.MEM_GEOM_WIDTH]
    omega
  have hdram : (y.closeTold n).dramEnd = w.dramEnd := hu.dramEnd.trans (State.dramEnd_congr hfixed (hlive _ hgeom))
  obtain ⟨a, b, hlane⟩ := hw.lane
  obtain ⟨a', b', hlane'⟩ := hu.lane
  obtain ⟨hblock, hpts⟩ := hg (w.phxOf n)
  dsimp only
  rw [hclose]
  refine ⟨?_, ?_, fun i hi => ⟨?_, fun k hk => ?_⟩, fun hno e he hbound hidle => ?_⟩
  · rw [hlane', hphx]
    exact hblock.trans (by rw [hlane])
  · rw [State.fld_of_live (hu.live _ (by simp [closeReads])), hcount, State.fld_of_live (hw.live _ (by simp [closeReads]))]
  · rw [hlane', hphx, PhxLane.pt, hpts, sget_foldl_sput, if_pos hi]
  · rw [State.readByte_congr (hmem.trans hmemy) hdram]
    exact hread i k hi hk
  · obtain ⟨hboundw, hidlew, -⟩ := hw.engine hno e hidle
    have hengy : y.engine e = w.engine e := State.engine_of_eng heng e
    refine y.closeTold_raises n hn8 (fun x hx => hno x (hw.wait x (hwaits ▸ hx))) e (by rw [State.lanes, hfixed, hw.fixed]; exact he) ?_ ?_
    · rw [hengy, hboundw, hbound]
    · rw [hengy, hidlew]

/-- Settles O39: every clause is a lemma on its instruction or its shared operation. That the trace end lies below N - g is the model's choice (log entry 37, R181 names no
bound); so are the wrap of a phase beyond its 48 bits (log entry 56, R172) and the exact sums behind means and temperatures (log entry 15). -/
theorem phaseExtraction : Obligations.PhaseExtraction := by
  unfold Obligations.PhaseExtraction
  refine ⟨?_, ?_, ?_, ?_, ?_, ?_, ?_, ?_, ?_⟩
  · exact fun s t n b f hr hn hb hf => phaseSample_forms s t n b f hr hn hb hf
  · exact fun s n f i hn => s.formSample_word n f i (hn.trans_le s.lanes_le)
  · refine fun pt p otc psi pred1 => ⟨unwrapStep_first pt p otc psi pred1, fun href => ⟨wrapLsb_turn _, ?_, ?_⟩⟩
    · exact unwrapStep_measure pt p otc psi pred1 href
    · exact unwrapStep_fill pt p otc psi pred1 href
  · exact fun s t n g hr hn hgrid => ⟨blockClose_early s t n g hr hgrid, blockClose_due s t n g hr hgrid hn⟩
  · exact fun s n j hn href hanch hrole htwin hready hwait hend => s.closeBlock_leaves n j hn href hanch hrole htwin hready hwait hend
  · exact fun p rebase rtd drift base hcnt hbase => ⟨closePoint_theta p rtd drift base hbase hcnt, closePoint_anchored p rtd drift base hbase hcnt,
      closePoint_later p rtd drift rebase rebase⟩
  · exact fun s t n a hr hn hlast hold => laneIdle_after s t n hr hn a hlast hold
  · exact fun s t n i hr hn hi => pointStateEcc_after s t n hr hn i hi
  · intro s t n hr hn heval hst
    refine ⟨traceEndEval_after s t n hr hn heval hst, fun hoff => ?_⟩
    obtain ⟨u, hu, hevalN, hpts, hdark, hlit⟩ := traceEndEval_shows s t n hr hn heval hst hoff
    refine ⟨u, hu, hevalN, hpts, fun hnone => ?_, fun i hi hlast => ?_⟩
    · obtain ⟨isDark, isValid, -, isEnd⟩ := hdark hnone
      exact ⟨isDark, isValid, isEnd⟩
    · obtain ⟨isDark, isValid, isNone, isEnd⟩ := hlit i hi hlast
      refine ⟨isDark, isValid, fun hbefore => ?_, fun hat => ?_⟩
      · have hne : ¬ i + 1 = s.formingPoints n := Nat.ne_of_lt hbefore
        rw [if_neg hne] at isEnd
        exact ⟨isEnd, isNone.trans (decide_eq_false hne)⟩
      · have heq : i + 1 = s.formingPoints n := hat
        rw [if_pos heq] at isEnd
        exact ⟨isEnd, isNone.trans (decide_eq_true heq)⟩

end Sys2Proof.Machine

/-! PROOFS. The pointer instructions of an engine (O10), and loads and stores at an address (R195 to R197). -/

namespace Sys2Proof.Machine

/-! ### Instructions of the pointer file (R237) -/

/-- An instruction of the pointer file whose word names kind `k` retires with its effect for that kind (R205, R237). -/
theorem ptrFile_retires {c : Nat → Nat → Instr} {op k : Nat} {f : Nat → Nat → Engine → Engine}
    (hc : ∀ s t e, exec (c t e) s = ptrFile op t e s (fun w => f (wFn w) w)) : Retires c op k (f k) := by
  have hkind : Retires c op k (fun w => f (wFn w) w) := by
    intro s t e w h
    rw [hc]
    exact anv_at h t (fun _ => true) rfl _
  refine hkind.congr (fun w x hw => ?_)
  obtain ⟨-, hfn, -⟩ := legal_row hw
  rw [hfn]

/-- Settles O10: each instruction is `anv` with its effect, and the function of a legal word is the kind of register it names. -/
theorem pointerInstructions : Obligations.PointerInstructions := by
  unfold Obligations.PointerInstructions
  refine ⟨fun k _ => ⟨?_, ?_, ?_⟩, ?_, ?_⟩
  · exact ptrFile_retires (f := fun k w x => x.setPtr k (wD w) (x.sreg (wA w))) (fun _ _ _ => rfl)
  · exact ptrFile_retires (f := fun k w x => x.setPtr k (wD w) (BitVec.ofNat 32 (wImm w))) (fun _ _ _ => rfl)
  · exact ptrFile_retires (f := fun k w x => x.setS (wD w) (x.ptrReg k (wA w))) (fun _ _ _ => rfl)
  · exact anvEng_retires execPmod (fun _ _ _ => rfl) (fun _ _ _ => rfl)
  · exact anvEng_retires execPstep (fun _ _ _ => rfl) (fun _ _ _ => rfl)

/-! ### Loads at an address (R195 to R197) -/

/-- A load that meets no fault: the bytes are read, an error of one bit is corrected, and the effect follows. -/
theorem State.loading_of {s : State} {e a n align : Nat} (h : s.DataAt e a n align) (f : Nat → State → State) :
    s.loading e a n align f = f ((s.engine e).load a n) (s.dataRead e a n) := by
  obtain ⟨hin, hal, hsound⟩ := h
  simp [State.loading, Nat.not_le.mpr hin, hal, hsound, State.dataRead]

/-- A load or a store out of place is an ADDR fault. -/
theorem State.loading_outside {s : State} {e a n align : Nat} (h : 0x80000 ≤ a ∨ a % align ≠ 0) (f : Nat → State → State) :
    s.loading e a n align f = s.anvFault e 2 := by
  simp only [State.loading, Bool.or_eq_true, decide_eq_true_eq, h, if_true]

theorem State.storing_outside {s : State} {e a align : Nat} (h : 0x80000 ≤ a ∨ a % align ≠ 0) (f : State → State) : s.storing e a align f = s.anvFault e 2 := by
  simp only [State.storing, Bool.or_eq_true, decide_eq_true_eq, h, if_true]

/-- A load that meets a double-bit error is an ECC fault. -/
theorem State.loading_poisoned {s : State} {e a n align : Nat} (hin : a < 0x80000) (hal : a % align = 0) (hbad : s.eccRange 1 (engBase e + a) n = 2)
    (f : Nat → State → State) : s.loading e a n align f = s.anvFault e 5 := by
  simp [State.loading, Nat.not_le.mpr hin, hal, hbad]

/-- A store in place. -/
theorem State.storing_of {s : State} {e a align : Nat} (hin : a < 0x80000) (hal : a % align = 0) (f : State → State) : s.storing e a align f = f s := by
  simp [State.storing, Nat.not_le.mpr hin, hal]

end Sys2Proof.Machine

/-! PROOFS. The multiply-accumulate instructions (O13). -/

namespace Sys2Proof.Machine

/-! ### Multiply-accumulate (R240) -/

/-- The product of a lane's low or high halves. -/
def halfProd (lo : Bool) (a b : Vec) (j : Nat) : Int := if lo then a.lo j * b.lo j else a.hi j * b.hi j

/-- A dot form as one sum: what is kept of the accumulator and both products of a lane with their sign (R240). -/
def Engine.dotSum (keep : Int) (w : Nat) (a b : Vec) (x : Engine) : Engine :=
  x.setAccs w [wD w] (fun _ j => (if keep = 0 then 0 else (x.acc (wD w)).int j) + (if keep = -1 then -1 else 1) * (halfProd true a b j + halfProd false a b j))

/-- A pair form as one sum for each accumulator of the pair (R240). -/
def Engine.pairSum (keep : Int) (w : Nat) (a b : Vec) (x : Engine) : Engine :=
  x.setAccs w [wD w, wD w + 1] (fun k j => (if keep = 0 then 0 else (x.acc k).int j) + (if keep = -1 then -1 else 1) * halfProd (k = wD w) a b j)

theorem Engine.dotMac_eq {keep : Int} (hk : keep = 0 ∨ keep = 1 ∨ keep = -1) (x : Engine) (w : Nat) (a b : Vec) : x.dotMac w keep a b = x.dotSum keep w a b := by
  refine congrArg (x.setAccs w [wD w]) (funext fun _ => funext fun j => ?_)
  rcases hk with rfl | rfl | rfl <;> simp [dot, halfProd]

theorem Engine.pairMac_eq {keep : Int} (hk : keep = 0 ∨ keep = 1 ∨ keep = -1) (x : Engine) (w : Nat) (a b : Vec) :
    x.pairMac w keep a b = x.pairSum keep w a b := by
  refine congrArg (x.setAccs w [wD w, wD w + 1]) (funext fun k => funext fun j => ?_)
  by_cases hd : k = wD w <;> rcases hk with rfl | rfl | rfl <;> simp [pairMul, halfProd, hd]

/-- A register form retires with its sum of vA and vB. -/
theorem vmac_retires {c : Nat → Nat → Instr} {fn : Nat} {f : Engine → Nat → Vec → Vec → Engine} {g : Nat → Vec → Vec → Engine → Engine}
    (hc : ∀ s t e, exec (c t e) s = vmac fn t e s f) (hfg : ∀ x w a b, f x w a b = g w a b x) :
    Retires c 0x12 fn (fun w x => g w (x.vec (wA w)) (x.vec (wB w)) x) :=
  (anvEng_retires (f := fun w x => f x w (x.vec (wA w)) (x.vec (wB w))) (fun t e s => vmac fn t e s f) hc (fun _ _ _ => rfl)).congr
    (fun w x _ => hfg x w _ _)

/-- A memory form whose two accesses meet no fault: both rows are read, a tick is lost when they share a bank, and the sum and the updates of P and Q follow
(R196, R230, R240). -/
theorem vmacm_at {c : Nat → Nat → Instr} {fn : Nat} {f : Engine → Nat → Vec → Vec → Engine} {g : Nat → Vec → Vec → Engine → Engine}
    (hc : ∀ s t e, exec (c t e) s = vmacm fn t e s f) (hfg : ∀ x w a b, f x w a b = g w a b x)
    {s : State} {t e w n : Nat} (h : s.EngineAt e w 0x13 fn) (hn : n = if wV w then 2 else 64)
    (hp : ((s.begin t).fetched e).DataAt e ((s.engine e).ea (wP w)) 64 64)
    (hq : (((s.begin t).fetched e).dataRead e ((s.engine e).ea (wP w)) 64).DataAt e ((s.engine e).ea (wQ w)) n n) :
    exec (c t e) s = .next (s.after t (fun r =>
      let a := (s.engine e).ea (wP w)
      let b := (s.engine e).ea (wQ w)
      let q := (s.engine e).load b n
      ((((r.fetched e).dataRead e a 64).dataRead e b n).only (a / 64 % 8 = b / 64 % 8) (fun r => r.count Fld.ANV_STALL_CNT e 1)).finish e (fun x =>
        ((g w (rowVec ((s.engine e).load a 64)) (if wV w then vecOf (fun _ => joinHalves q q) else rowVec q) x).postMod (wU w) (wP w)).postMod (wUq w) (wQ w)))) := by
  subst hn
  rw [hc, vmacm, anv_at h t _ (by simp)]
  refine congrArg _ (s.after_congr t ?_)
  dsimp only
  rw [State.fetched_engine, State.begin_engine, State.loading_of hp, State.loading_of hq]
  simp only [State.fetched_engine, State.dataRead_engine, State.begin_engine, hfg, bankOf]
  rfl

/-- Settles O13: the register forms are `vmac` and the memory forms `vmacm`, each with the sum of its dot or pair form. -/
theorem multiplyAccumulate : Obligations.MultiplyAccumulate := by
  unfold Obligations.MultiplyAccumulate
  intro prod Dot Pair Regs Rows
  have dotReg {c : Nat → Nat → Instr} {fn : Nat} {keep : Int} (hk : keep = 0 ∨ keep = 1 ∨ keep = -1)
      (hc : ∀ s t e, exec (c t e) s = vmac fn t e s (fun x w a b => x.dotMac w keep a b)) : Regs c fn (Dot keep) :=
    vmac_retires (g := Engine.dotSum keep) hc (Engine.dotMac_eq hk)
  have pairReg {c : Nat → Nat → Instr} {fn : Nat} {keep : Int} (hk : keep = 0 ∨ keep = 1 ∨ keep = -1)
      (hc : ∀ s t e, exec (c t e) s = vmac fn t e s (fun x w a b => x.pairMac w keep a b)) : Regs c fn (Pair keep) :=
    vmac_retires (g := Engine.pairSum keep) hc (Engine.pairMac_eq hk)
  have dotRow {c : Nat → Nat → Instr} {fn : Nat} {keep : Int} (hk : keep = 0 ∨ keep = 1 ∨ keep = -1)
      (hc : ∀ s t e, exec (c t e) s = vmacm fn t e s (fun x w a b => x.dotMac w keep a b)) : Rows c fn (Dot keep) :=
    fun s t e w n h hn hp hq => vmacm_at (g := Engine.dotSum keep) hc (Engine.dotMac_eq hk) h hn hp hq
  have pairRow {c : Nat → Nat → Instr} {fn : Nat} {keep : Int} (hk : keep = 0 ∨ keep = 1 ∨ keep = -1)
      (hc : ∀ s t e, exec (c t e) s = vmacm fn t e s (fun x w a b => x.pairMac w keep a b)) : Rows c fn (Pair keep) :=
    fun s t e w n h hn hp hq => vmacm_at (g := Engine.pairSum keep) hc (Engine.pairMac_eq hk) h hn hp hq
  exact ⟨dotReg (by decide) (fun _ _ _ => rfl), dotReg (by decide) (fun _ _ _ => rfl), dotReg (by decide) (fun _ _ _ => rfl),
    pairReg (by decide) (fun _ _ _ => rfl), pairReg (by decide) (fun _ _ _ => rfl), pairReg (by decide) (fun _ _ _ => rfl),
    dotRow (by decide) (fun _ _ _ => rfl), dotRow (by decide) (fun _ _ _ => rfl), dotRow (by decide) (fun _ _ _ => rfl),
    pairRow (by decide) (fun _ _ _ => rfl), pairRow (by decide) (fun _ _ _ => rfl), pairRow (by decide) (fun _ _ _ => rfl)⟩

end Sys2Proof.Machine

/-! PROOFS. Loads and stores of data memory through a pointer (O15). -/

namespace Sys2Proof.Machine

/-! ### Loads and stores (R195 to R197, R235, R236, R247) -/

/-- The value of 16 bits, as 32 bits of two's complement. -/
theorem ofNat_wrapInt_signed (v : Nat) : BitVec.ofNat 32 (wrapInt 32 (signed 16 v)) = (BitVec.ofNat 16 v).signExtend 32 := by
  have hsigned : signed 16 v = (BitVec.ofNat 16 v).toInt := by
    simp only [signed, BitVec.toInt_eq_toNat_cond, BitVec.toNat_ofNat]
  rw [hsigned, BitVec.signExtend]
  exact BitVec.eq_of_toNat_eq (by simpa [wrapInt, BitVec.toNat_ofInt] using Int.emod_lt_of_pos _ (by decide))

/-- The instruction loads `n` bytes through pointer P, takes them with the effect `f`, and updates the pointer. -/
def PointerLoad (c : Nat → Nat → Instr) (op fn n : Nat) (f : Nat → Nat → Engine → Engine) : Prop :=
  ∀ s t e, exec (c t e) s = vmem op fn t e s (fun w a s => s.loading e a n n (fun v s => s.finish e (fun x => (f w v x).postMod (wU w) (wP w))))

theorem sld_pointerLoad : PointerLoad .sld 0x03 0 4 (fun w v x => x.setS (wD w) (BitVec.ofNat 32 v)) := fun _ _ _ => rfl

theorem sldh_pointerLoad : PointerLoad .sldh 0x03 1 2 (fun w v x => x.setS (wD w) ((BitVec.ofNat 16 v).signExtend 32)) := by
  simp only [PointerLoad, ← ofNat_wrapInt_signed]
  exact fun _ _ _ => rfl

theorem vld_pointerLoad : PointerLoad .vld 0x20 0 64 (fun w v x => x.setLanes w (fun j => plainLane ((rowVec v).lane j))) := fun _ _ _ => rfl

theorem vldbH_pointerLoad : PointerLoad .vldbH 0x22 0 2 (fun w v x => x.setLanes w (fun _ => plainLane (joinHalves v v))) := fun _ _ _ => rfl

theorem vldbW_pointerLoad : PointerLoad .vldbW 0x22 1 4 (fun w v x => x.setLanes w (fun _ => plainLane (BitVec.ofNat 32 v))) := fun _ _ _ => rfl

/-- Such a load that meets no fault: what it loads, then the pointer's update. -/
theorem PointerLoad.at {c : Nat → Nat → Instr} {op fn n : Nat} {f : Nat → Nat → Engine → Engine} (hc : PointerLoad c op fn n f)
    {s : State} {t e w : Nat} (h : s.EngineAt e w op fn) (hd : ((s.begin t).fetched e).DataAt e ((s.engine e).ea (wP w)) n n) :
    exec (c t e) s = .next (s.after t (fun r =>
      ((r.fetched e).dataRead e ((s.engine e).ea (wP w)) n).finish e (fun x => (f w ((s.engine e).load ((s.engine e).ea (wP w)) n) x).postMod (wU w) (wP w)))) := by
  rw [hc, vmem, anv_at h t _ (by simp)]
  refine congrArg _ (s.after_congr t ?_)
  rw [State.fetched_engine, State.begin_engine, State.loading_of hd, State.fetched_engine, State.begin_engine]

/-- A store through pointer P in place: its bytes, then the pointer's update. -/
theorem pointerStore_at {c : Nat → Nat → Instr} {op fn n : Nat} {f : Nat → Nat → Nat → Engine → State → State}
    (hc : ∀ s t e, exec (c t e) s = vmem op fn t e s (fun w a s => s.storing e a n (fun s =>
      (f e w a (s.engine e) s).finish e (fun x => x.postMod (wU w) (wP w)))))
    {s : State} {t e w : Nat} (h : s.EngineAt e w op fn) (hin : (s.engine e).ea (wP w) < 0x80000) (hal : (s.engine e).ea (wP w) % n = 0) :
    exec (c t e) s = .next (s.after t (fun r =>
      (f e w ((s.engine e).ea (wP w)) (s.engine e) (r.fetched e)).finish e (fun x => x.postMod (wU w) (wP w)))) := by
  rw [hc, vmem, anv_at h t _ (by simp)]
  refine congrArg _ (s.after_congr t ?_)
  rw [State.fetched_engine, State.begin_engine, State.storing_of hin hal, State.fetched_engine, State.begin_engine]

/-- Settles O15: every load reads what its pointer presents, and every store writes there. -/
theorem loadsAndStores : Obligations.LoadsAndStores := by
  unfold Obligations.LoadsAndStores
  intro Loads Stores
  refine ⟨?_, ?_, ?_, ?_, ?_, ?_, ?_, ?_⟩
  · exact fun s t e w => sld_pointerLoad.at
  · exact fun s t e w => sldh_pointerLoad.at
  · exact fun s t e w h => pointerStore_at (f := fun e w a x r => r.dstore e a (leBytes 4 (x.sreg (wD w)).toNat)) (fun _ _ _ => rfl) h
  · exact fun s t e w h => pointerStore_at (f := fun e w a x r => r.dstore e a (leBytes 2 (x.sreg (wD w)).toNat)) (fun _ _ _ => rfl) h
  · exact fun s t e w => vld_pointerLoad.at
  · exact fun s t e w => vldbH_pointerLoad.at
  · exact fun s t e w => vldbW_pointerLoad.at
  · exact fun s t e w h => pointerStore_at
      (f := fun e w a x r => r.each (lanes16.filter (x.active w)) (fun j r => r.dstore e (a + 4 * j) (leBytes 4 ((x.vec (wD w)).lane j).toNat))) (fun _ _ _ => rfl) h

end Sys2Proof.Machine

/-! PROOFS. Engine faults, and writes of an engine's control register (O16). -/

namespace Sys2Proof.Machine

/-! ### Faults of an engine's accesses (R196, R197, R203) -/

/-- The instruction begins with a load of `n` bytes at what its pointer P presents. -/
def FirstLoads (c : Nat → Nat → Instr) (op fn n : Nat) : Prop :=
  ∃ f : Nat → Nat → State → State, (∀ s t e, exec (c t e) s = anv op (fun m => m = fn) t e s (f e))
    ∧ ∀ e w s, ∃ g, f e w s = s.loading e ((s.engine e).ea (wP w)) n n g

section Access

variable {c : Nat → Nat → Instr} {op fn n : Nat} {s : State} {t e w : Nat}

/-- Such an instruction faults with ADDR when its address is out of place. -/
theorem FirstLoads.outside (hc : FirstLoads c op fn n) (h : s.EngineAt e w op fn) (ho : 0x80000 ≤ (s.engine e).ea (wP w) ∨ (s.engine e).ea (wP w) % n ≠ 0) :
    exec (c t e) s = .next (s.after t (fun r => (r.fetched e).anvFault e 2)) := by
  obtain ⟨f, hf, hload⟩ := hc
  rw [hf, anv_at h t _ (by simp)]
  refine congrArg _ (s.after_congr t ?_)
  obtain ⟨g, hg⟩ := hload e w ((s.begin t).fetched e)
  rw [hg]
  rw [State.fetched_engine, State.begin_engine, State.loading_outside ho]

/-- It faults with ECC when it meets a double-bit error there. -/
theorem FirstLoads.poisoned (hc : FirstLoads c op fn n) (h : s.EngineAt e w op fn) (hin : (s.engine e).ea (wP w) < 0x80000)
    (hal : (s.engine e).ea (wP w) % n = 0) (hbad : ((s.begin t).fetched e).eccRange 1 (engBase e + (s.engine e).ea (wP w)) n = 2) :
    exec (c t e) s = .next (s.after t (fun r => (r.fetched e).anvFault e 5)) := by
  obtain ⟨f, hf, hload⟩ := hc
  rw [hf, anv_at h t _ (by simp)]
  refine congrArg _ (s.after_congr t ?_)
  obtain ⟨g, hg⟩ := hload e w ((s.begin t).fetched e)
  rw [hg]
  rw [State.fetched_engine, State.begin_engine, State.loading_poisoned hin hal hbad]

/-- A store through pointer P faults with ADDR when that is out of place. -/
theorem pointerStore_outside {f : Nat → Nat → Nat → State → State}
    (hc : ∀ s t e, exec (c t e) s = vmem op fn t e s (fun w a s => s.storing e a n (f e w a)))
    (h : s.EngineAt e w op fn) (ho : 0x80000 ≤ (s.engine e).ea (wP w) ∨ (s.engine e).ea (wP w) % n ≠ 0) :
    exec (c t e) s = .next (s.after t (fun r => (r.fetched e).anvFault e 2)) := by
  rw [hc, vmem, anv_at h t _ (by simp)]
  refine congrArg _ (s.after_congr t ?_)
  rw [State.fetched_engine, State.begin_engine, State.storing_outside ho]

end Access

/-! ### Writes of the control register (R198 to R200, R203, R224) -/

/-- A write of an engine's control register that no lock turns away. -/
theorem onCtrl_at {s : State} {t e : Nat} {src : Source} (val : Nat) (hr : s.Runs) (he : e < s.lanes)
    (ha : (s.begin t).Admits src (Fld.ANV_En_CTRL_RUN.at e)) : onCtrl t src e val s = .next (s.after t (fun r => r.engCtrl src e (BitVec.ofNat 32 val))) := by
  refine clocked_after t s _ _ hr ?_
  have hlanes : e < (s.begin t).lanes := he
  rw [State.only_pos _ _ _ (decide_eq_true (he.trans_le s.lanes_le)), State.admit_of _ _ _ _ _ ha, State.withEngine, if_pos hlanes]

/-- Engines set twice are as the second change says, and an engine set to itself is unchanged. -/
theorem State.setEngine_setEngine (s : State) (e : Nat) (x y : Engine) : (s.setEngine e x).setEngine e y = s.setEngine e y := by
  simp [State.setEngine]

theorem State.setEngine_self (s : State) {e : Nat} (he : e < 8) : s.setEngine e (s.engine e) = s := by
  have hv : s.eng.setIfInBounds e (s.eng.getD e (Engine.reset e)) = s.eng := by
    ext i hi
    by_cases h : e = i
    · subst h; simp [Vector.getD, he]
    · simp [h]
  rw [State.setEngine, State.engine, hv]

/-- An engine changed twice is changed by both in turn. -/
theorem State.onEngine_onEngine (s : State) {e : Nat} (he : e < 8) (f g : Engine → Engine) : (s.onEngine e f).onEngine e g = s.onEngine e (fun x => g (f x)) := by
  rw [State.onEngine, State.engine_onEngine _ _ _ _ he, if_pos rfl, State.onEngine, State.setEngine_setEngine, State.onEngine]

/-- A change that leaves the engine as it is leaves the state. -/
theorem State.onEngine_same (s : State) {e : Nat} (he : e < 8) {f : Engine → Engine} (h : f (s.engine e) = s.engine e) : s.onEngine e f = s := by
  rw [State.onEngine, h, s.setEngine_self he]

/-- Changes that agree on the engine are one. -/
theorem State.onEngine_congr (s : State) {e : Nat} {f g : Engine → Engine} (h : f (s.engine e) = g (s.engine e)) : s.onEngine e f = s.onEngine e g := by
  rw [State.onEngine, h, State.onEngine]

/-- RUN written 0 asks nothing of an engine that is HALTED or in ERROR. -/
theorem State.engHaltReq_idle (s : State) {e : Nat} (he : e < 8) (h : (s.engine e).st = .halted ∨ (s.engine e).st = .error) : s.engHaltReq e = s :=
  s.onEngine_same he (by rcases h with h | h <;> rw [h])

/-- CLRERR alone returns an engine from ERROR to HALTED. -/
theorem State.engCtrl_clrerr (s : State) {e : Nat} (he : e < 8) (src : Source) (h : (s.engine e).st = .error) :
    s.engCtrl src e 8 = s.onEngine e (fun x => { x with st := .halted, err := 0 }) := by
  have hclear : s.engClrErr e = s.onEngine e (fun x => { x with st := .halted, err := 0 }) := s.onEngine_congr (by rw [if_pos h])
  have hst : ((s.engClrErr e).engine e).st = .halted := by rw [hclear, State.engine_onEngine _ _ _ _ he, if_pos rfl]
  change (s.engClrErr e).engHaltReq e = _
  rw [State.engHaltReq_idle _ he (.inl hst), hclear]

/-- An illegal word is an ILLEGAL fault, and a double-bit error of its fetch an ECC fault (R197, R227). -/
theorem illegalInstruction_faults {s : State} {t e : Nat} (hr : s.Runs) (he : e < s.lanes) (hi : (s.engine e).issuing = true) (hw : anvDecode (s.anvWord e) = none) :
    exec (.illegalInstruction t e) s = .next (s.after t (fun r =>
      if s.eccAt 2 (engBase e + 8 * (s.engine e).pc) = 2 then r.anvFault e 5 else (r.eccCorrect 2 (engBase e + 8 * (s.engine e).pc) 8).anvFault e 1)) := by
  have hat : (decide (e < (s.begin t).lanes) && ((s.begin t).engine e).issuing && (anvDecode ((s.begin t).anvWord e)).isNone) = true := by
    simp only [Bool.and_eq_true, decide_eq_true_eq]
    exact ⟨⟨he, hi⟩, Option.isNone_iff_eq_none.mpr hw⟩
  change execIllegalInstruction t e s = _
  unfold execIllegalInstruction
  refine (clocked_only t s (fun r => decide (e < r.lanes) && (r.engine e).issuing && (anvDecode (r.anvWord e)).isNone) _ hr hat).trans ?_
  exact congrArg _ (s.after_congr t (by dsimp only; rfl))

/-! ### Instructions that begin with a load (R240, R244, R247) -/

theorem PointerLoad.firstLoads {c : Nat → Nat → Instr} {op fn n : Nat} {f : Nat → Nat → Engine → Engine} (hc : PointerLoad c op fn n f) : FirstLoads c op fn n :=
  ⟨_, fun s t e => (hc s t e).trans (by unfold vmem; exact rfl), fun _ _ _ => ⟨_, rfl⟩⟩

theorem vmacm_firstLoads {c : Nat → Nat → Instr} {fn : Nat} {f : Engine → Nat → Vec → Vec → Engine} 
    (hc : ∀ s t e, exec (c t e) s = vmacm fn t e s f) : FirstLoads c 0x13 fn 64 :=
  ⟨_, fun s t e => (hc s t e).trans (by unfold vmacm; exact rfl), fun _ _ _ => ⟨_, rfl⟩⟩

theorem cbflym_firstLoads {c : Nat → Nat → Instr} {fn : Nat} {conj : Bool} 
    (hc : ∀ s t e, exec (c t e) s = cbflym fn conj t e s) : FirstLoads c 0x16 fn 64 :=
  ⟨_, fun s t e => (hc s t e).trans (by unfold cbflym; exact rfl), fun _ _ _ => ⟨_, rfl⟩⟩

/-- Settles O16: a fault precedes every effect of its instruction, stops the engine where it stands, and CLRERR alone ends it. -/
theorem engineFaults : Obligations.EngineFaults := by
  unfold Obligations.EngineFaults
  refine ⟨?_, ?_, fun s t e => illegalInstruction_faults, ?_⟩
  · intro OutOfPlace Poisoned
    have hsld := sld_pointerLoad.firstLoads
    have hsldh := sldh_pointerLoad.firstLoads
    have hvld := vld_pointerLoad.firstLoads
    have hvldbH := vldbH_pointerLoad.firstLoads
    have hvldbW := vldbW_pointerLoad.firstLoads
    have hmac2 : FirstLoads .vmac2Mem 0x13 0 64 := vmacm_firstLoads (f := fun x w a b => x.dotMac w 1 a b) (fun _ _ _ => rfl)
    have hmsu2 : FirstLoads .vmsu2Mem 0x13 1 64 := vmacm_firstLoads (f := fun x w a b => x.dotMac w (-1) a b) (fun _ _ _ => rfl)
    have hmul2 : FirstLoads .vmul2Mem 0x13 2 64 := vmacm_firstLoads (f := fun x w a b => x.dotMac w 0 a b) (fun _ _ _ => rfl)
    have hmacp : FirstLoads .vmacpMem 0x13 3 64 := vmacm_firstLoads (f := fun x w a b => x.pairMac w 1 a b) (fun _ _ _ => rfl)
    have hmsup : FirstLoads .vmsupMem 0x13 4 64 := vmacm_firstLoads (f := fun x w a b => x.pairMac w (-1) a b) (fun _ _ _ => rfl)
    have hmulp : FirstLoads .vmulpMem 0x13 5 64 := vmacm_firstLoads (f := fun x w a b => x.pairMac w 0 a b) (fun _ _ _ => rfl)
    have hfly : FirstLoads .cbflym 0x16 0 64 := cbflym_firstLoads (fun _ _ _ => rfl)
    have hflyc : FirstLoads .cbflymc 0x16 1 64 := cbflym_firstLoads (fun _ _ _ => rfl)
    have outside {c : Nat → Nat → Instr} {op fn n : Nat} (hc : FirstLoads c op fn n) : OutOfPlace c op fn n := fun s t e w => hc.outside
    have poisoned {c : Nat → Nat → Instr} {op fn n : Nat} (hc : FirstLoads c op fn n) : Poisoned c op fn n := fun s t e w => hc.poisoned
    have hsst : OutOfPlace .sst 0x03 2 4 := fun s t e w => pointerStore_outside
      (f := fun e w a s => (s.dstore e a (leBytes 4 ((s.engine e).sreg (wD w)).toNat)).finish e (fun x => x.postMod (wU w) (wP w))) (fun _ _ _ => rfl)
    have hssth : OutOfPlace .ssth 0x03 3 2 := fun s t e w => pointerStore_outside
      (f := fun e w a s => (s.dstore e a (leBytes 2 ((s.engine e).sreg (wD w)).toNat)).finish e (fun x => x.postMod (wU w) (wP w))) (fun _ _ _ => rfl)
    have hvst : OutOfPlace .vst 0x21 0 64 := fun s t e w => pointerStore_outside
      (f := fun e w a s => (s.each (lanes16.filter ((s.engine e).active w)) (fun j r => r.dstore e (a + 4 * j) (leBytes 4 (((s.engine e).vec (wD w)).lane j).toNat))).finish e
        (fun x => x.postMod (wU w) (wP w))) (fun _ _ _ => rfl)
    exact ⟨outside hsld, outside hsldh, hsst, hssth, outside hvld, hvst, outside hvldbH, outside hvldbW, outside hfly, outside hflyc,
      outside hmac2, outside hmsu2, outside hmul2, outside hmacp, outside hmsup, outside hmulp,
      poisoned hsld, poisoned hsldh, poisoned hvld, poisoned hvldbH, poisoned hvldbW, poisoned hfly, poisoned hflyc,
      poisoned hmac2, poisoned hmsu2, poisoned hmul2, poisoned hmacp, poisoned hmsup, poisoned hmulp⟩
  · intro s e code he hfly
    have hown (k : Nat) := s.anvFault_engine e code k he hfly
    have hself := hown e
    rw [if_pos rfl] at hself
    refine ⟨?_, ?_, ?_, ?_, ?_, ?_, ?_, ?_, ?_, ?_, ?_, fun k hk => (hown k).trans (if_neg hk)⟩ <;> rw [hself]
    rfl
  · intro s t src e hr he ha hst
    exact (onCtrl_at 8 hr he ha).trans (congrArg _ (s.after_congr t (State.engCtrl_clrerr _ (he.trans_le s.lanes_le) src hst)))

end Sys2Proof.Machine

/-! PROOFS. REP and HALT (O18). -/

namespace Sys2Proof.Machine

/-! ### The device time at an instruction (R26, R197) -/

theorem State.eccCorrect_dev (s : State) (a b n : Nat) : (s.eccCorrect a b n).dev = s.dev := by
  unfold State.eccCorrect
  split
  · simp [State.dev, State.eccClear]
  · rfl

theorem State.dmaStall_dev (s : State) (e w : Nat) : (s.dmaStall e w).dev = s.dev := by
  simp only [State.dmaStall, State.only]
  split <;> simp [State.dev]

@[simp] theorem State.fetched_dev (s : State) (e : Nat) : (s.fetched e).dev = s.dev := (State.dmaStall_dev ..).trans (State.eccCorrect_dev ..)

/-! ### REP and HALT (R202, R249, R250) -/

/-- The instructions that may not follow REP. -/
theorem repBanned_of {w op fn : Nat} (hw : anvDecode w = some (op, fn))
    (h : op = 0x30 ∨ op = 0x31 ∨ op = 0x32 ∨ (op = 0x25 ∧ fn ≤ 1) ∨ (op = 0x24 ∧ fn ≤ 1) ∨ ((op = 0x08 ∨ op = 0x09) ∧ (fn = 2 ∨ fn = 3))) : repBanned w = true := by
  rw [repBanned, hw]
  simp only [Bool.or_eq_true, Bool.and_eq_true, decide_eq_true_eq]
  omega

/-- A REP before such an instruction is a REPBODY fault. -/
theorem State.repeat_banned (s : State) {e : Nat} (n : Nat) (h : repBanned ((s.engine e).word (((s.engine e).pc + 1) % 8192)) = true) :
    s.repeat e n = s.anvFault e 3 := if_pos h

/-- A REP before another instruction makes its iterations the next ones issued. -/
theorem State.repeat_of (s : State) {e : Nat} (n : Nat) (h : repBanned ((s.engine e).word (((s.engine e).pc + 1) % 8192)) = false) :
    s.repeat e n = (s.onEngine e (fun x => { x with pc := (x.pc + 1) % 8192, rep := some ⟨n, 0⟩, loop := n })).count Fld.ANV_BUSY_CNT e 1 :=
  if_neg (by rw [h]; decide)

section Flow

variable {s : State} {t e w : Nat}

theorem rep_at (h : s.EngineAt e w 0x31 0) : exec (.rep t e) s = .next (s.after t (fun r => (r.fetched e).repeat e (w % 65536 + 1))) := by
  have hcnt : wCnt w = w % 65536 := by simp [wCnt, wordBits]
  rw [← hcnt]
  change execRep t e s = _
  rw [execRep, anv_at h t _ (by simp)]

/-- A count of 0 or above 65,536 is ILLEGAL. -/
theorem repReg_at (h : s.EngineAt e w 0x31 1) : exec (.repReg t e) s = .next (s.after t (fun r =>
    if ((s.engine e).sreg (wD w)).toNat = 0 ∨ 65536 < ((s.engine e).sreg (wD w)).toNat then (r.fetched e).anvFault e 1
    else (r.fetched e).repeat e ((s.engine e).sreg (wD w)).toNat)) := by
  change execRepReg t e s = _
  rw [execRepReg, anv_at h t _ (by simp)]
  refine congrArg _ (s.after_congr t ?_)
  simp only [State.fetched_engine, State.begin_engine, Bool.or_eq_true, decide_eq_true_eq]

/-- A REP that is not executed leaves the engine in ERROR at the REP. -/
theorem State.repeat_banned_engine (s : State) {e : Nat} (he : e < 8) (hfly : (s.engine e).fly = []) (n : Nat)
    (hban : repBanned ((s.engine e).word (((s.engine e).pc + 1) % 8192)) = true) :
    ((s.repeat e n).engine e).st = .error ∧ ((s.repeat e n).engine e).err = 3 ∧ ((s.repeat e n).engine e).errPc = (s.engine e).pc
      ∧ ((s.repeat e n).engine e).pc = (s.engine e).pc ∧ ((s.repeat e n).engine e).rep = none := by
  have hfault := s.anvFault_engine e 3 e he hfly
  rw [if_pos rfl] at hfault
  rw [s.repeat_banned n hban, hfault]
  exact ⟨rfl, rfl, rfl, rfl, rfl⟩

/-- What an instruction has set is noted beside the registers that steer issue. -/
theorem Engine.stamped_issue (x : Engine) (d : Nat) :
    (x.stamped d).rep = x.rep ∧ (x.stamped d).haltReq = x.haltReq ∧ (x.stamped d).pc = x.pc ∧ (x.stamped d).stepping = x.stepping := by
  simp only [Engine.stamped, Engine.stored]
  split <;> exact ⟨rfl, rfl, rfl, rfl⟩

/-- At its last iteration, or without a REP, an instruction retires at a boundary, where a requested halt takes effect. -/
theorem Engine.retire_halts (x : Engine) (hrep : ∀ r, x.rep = some r → r.left ≤ 1) (hh : x.haltReq = true) :
    x.retire.st = .halted ∧ x.retire.pc = (x.pc + 1) % 8192 ∧ x.retire.rep = none := by
  unfold Engine.retire
  split
  next h => simp [Engine.boundary, hh, h]
  next r h => simp [Engine.boundary, hh, hrep r h]

/-- An iteration before the last leaves the engine at its instruction. -/
theorem Engine.retire_iterates (x : Engine) {left idx : Nat} (hrep : x.rep = some ⟨left, idx⟩) (hl : ¬ left ≤ 1) :
    x.retire = { x with rep := some ⟨left - 1, idx + 1⟩, loop := left - 1 } := by
  simp [Engine.retire, hrep, hl]

/-- HALT on its engine: a halt request, but for an iteration before the last. -/
def Engine.halted (x : Engine) : Engine :=
  match x.rep with
  | none => { x with haltReq := true }
  | some r => if r.left ≤ 1 then { x with haltReq := true } else x

/-- A HALT that is not repeated, or in its last iteration, halts the engine after itself. -/
theorem Engine.halted_retire (x : Engine) (d : Nat) (hrep : ∀ r, x.rep = some r → r.left ≤ 1) :
    (x.halted.stamped d).retire.st = .halted ∧ (x.halted.stamped d).retire.pc = (x.pc + 1) % 8192 ∧ (x.halted.stamped d).retire.rep = none := by
  have hhalt : x.halted = { x with haltReq := true } := by
    unfold Engine.halted
    split
    · rfl
    next r h => exact if_pos (hrep r h)
  obtain ⟨hr, hh, hp, -⟩ := x.halted.stamped_issue d
  obtain ⟨hst, hpc, hnone⟩ := (x.halted.stamped d).retire_halts (fun r h => hrep r (by rw [← h, hr, hhalt])) (by rw [hh, hhalt])
  have hsame : x.halted.pc = x.pc := by rw [hhalt]
  exact ⟨hst, by rw [hpc, hp, hsame], hnone⟩

/-- Before the last iteration it does nothing. -/
theorem Engine.halted_iterates (x : Engine) (d : Nat) {left idx : Nat} (hrep : x.rep = some ⟨left, idx⟩) (hl : ¬ left ≤ 1) :
    (x.halted.stamped d).retire = { x.stamped d with rep := some ⟨left - 1, idx + 1⟩, loop := left - 1 } := by
  have hhalt : x.halted = x := by simp [Engine.halted, hrep, hl]
  rw [hhalt, (x.stamped d).retire_iterates ((x.stamped_issue d).1.trans hrep) hl]

/-- The engine after a HALT. -/
theorem halt_engine (h : s.EngineAt e w 0x33 1) (hfly : (s.engine e).fly = []) :
    ∃ u, exec (.halt t e) s = .next u ∧ u.engine e = ((s.engine e).halted.stamped (s.begin t).dev).retire := by
  have hret : Retires .halt 0x33 1 (fun _ x => x.halted) := anvEng_retires execHalt (fun _ _ _ => rfl) (fun _ _ _ => rfl)
  refine ⟨_, hret s t e w h, ?_⟩
  have hfly' : (s.engine e).halted.fly = [] := by
    unfold Engine.halted
    split
    · exact hfly
    · split <;> exact hfly
  rw [State.after_engine, State.finish_engine _ _ _ _ (h.unit.trans_le s.lanes_le) (by simpa using hfly'), if_pos rfl]
  simp

end Flow

/-- Settles O18: REP looks at the word after it, and HALT asks for the halt at its last iteration. -/
theorem repeatInstructions : Obligations.Repeat := by
  unfold Obligations.Repeat
  refine ⟨⟨?_, ?_, ?_⟩, ?_, ?_⟩
  · intro s t e w fn op' fn' hfn h hfly hcount hnext hbody
    have he := h.unit.trans_le s.lanes_le
    have hban : repBanned ((((s.begin t).fetched e).engine e).word (((((s.begin t).fetched e).engine e).pc + 1) % 8192)) = true := by
      simpa using repBanned_of hnext hbody
    have herror (n : Nat) := ((s.begin t).fetched e).repeat_banned_engine he (by simpa using hfly) n hban
    simp only [State.fetched_engine, State.begin_engine] at herror
    obtain rfl | rfl : fn = 0 ∨ fn = 1 := by omega
    · exact ⟨_, rep_at h, herror _⟩
    · obtain ⟨hpos, hmax⟩ := hcount rfl
      refine ⟨_, repReg_at h, ?_⟩
      rw [State.after_engine, if_neg (by omega)]
      exact herror _
  · intro s t e w left idx h hfly hrep
    obtain ⟨u, hu, hx⟩ := halt_engine (t := t) h hfly
    refine ⟨u, hu, ?_⟩
    rw [hx]
    split
    next hl => exact (s.engine e).halted_retire _ (fun r hr => by rw [hrep] at hr; cases hr; exact hl)
    next hl => exact (s.engine e).halted_iterates _ hrep hl
  · intro s t e w h hfly hrep
    obtain ⟨u, hu, hx⟩ := halt_engine (t := t) h hfly
    obtain ⟨hst, hpc, -⟩ := (s.engine e).halted_retire (s.begin t).dev (fun r hr => by rw [hrep] at hr; cases hr)
    exact ⟨u, hu, by rw [hx]; exact ⟨hst, hpc⟩⟩
  · intro s t e w h hban
    rw [rep_at h]
    refine congrArg _ (s.after_congr t ?_)
    rw [State.repeat_of _ _ (by simpa using hban)]
  · intro s t e w h hban n
    rw [repReg_at h]
    refine congrArg _ (s.after_congr t ?_)
    rw [State.repeat_of _ _ (by simpa using hban)]

end Sys2Proof.Machine

/-! PROOFS. WAIT and the events that end it (O19). -/

namespace Sys2Proof.Machine

/-! ### WAIT (R199, R214, R251) -/

/-- A WAIT for events that begins. -/
def Engine.waits (x : Engine) (mask rd : Nat) : Engine := { x with st := .waiting, wait := .event mask rd }

/-- A masked event that is pending ends the wait: it is cleared and reported, and the instruction is done (R251). -/
theorem Engine.tryWait_some (x : Engine) {mask rd i : Nat} (hw : x.wait = .event mask rd)
    (hi : firstBit (x.evt.toNat &&& mask) [0, 1, 2, 4, 5, 6, 7] = some i) :
    x.tryWait = (({ x with evt := x.evt &&& ~~~ BitVec.ofNat 8 (2 ^ i) }).setS rd (BitVec.ofNat 32 i)).boundary (x.pc + 1) := by
  simp only [Engine.tryWait, hw, hi]

/-- With no masked event pending it goes on. -/
theorem Engine.tryWait_none (x : Engine) {mask rd : Nat} (hw : x.wait = .event mask rd)
    (hi : firstBit (x.evt.toNat &&& mask) [0, 1, 2, 4, 5, 6, 7] = none) : x.tryWait = x := by
  simp only [Engine.tryWait, hw, hi]

/-- Writing a scalar leaves what steers issue. -/
theorem Engine.setS_issue (x : Engine) (i : Nat) (v : Word) :
    (x.setS i v).haltReq = x.haltReq ∧ (x.setS i v).stepping = x.stepping ∧ (x.setS i v).evt = x.evt ∧ (x.setS i v).pc = x.pc := by
  unfold Engine.setS
  split <;> exact ⟨rfl, rfl, rfl, rfl⟩

/-- A scalar but s0 reads what was written. -/
theorem Engine.sreg_setS (x : Engine) {i : Nat} (v : Word) (h0 : i ≠ 0) (hi : i < 32) : (x.setS i v).sreg i = v := by
  simp [Engine.sreg, Engine.setS, h0, Vector.getD, hi]

/-- A boundary that nothing asks to halt at: the run goes on. -/
theorem Engine.boundary_runs (x : Engine) (pc : Nat) (hh : x.haltReq = false) (hs : x.stepping = false) :
    x.boundary pc = { x with pc := pc % 8192, st := .running, wait := .none } := by
  simp [Engine.boundary, hh, hs]

/-- The end of a wait by event `i`, when no halt is asked for: the run goes on after the WAIT, with the event cleared and reported (R214, R251). -/
theorem Engine.tryWait_runs (x : Engine) {mask rd i : Nat} (hw : x.wait = .event mask rd) (hh : x.haltReq = false) (hs : x.stepping = false)
    (hi : firstBit (x.evt.toNat &&& mask) [0, 1, 2, 4, 5, 6, 7] = some i) :
    x.tryWait.st = .running ∧ x.tryWait.pc = (x.pc + 1) % 8192 ∧ x.tryWait.evt = x.evt &&& ~~~ BitVec.ofNat 8 (2 ^ i)
      ∧ (rd ≠ 0 → rd < 32 → x.tryWait.sreg rd = BitVec.ofNat 32 i) := by
  obtain ⟨hhalt, hstep, hevt, -⟩ := ({ x with evt := x.evt &&& ~~~ BitVec.ofNat 8 (2 ^ i) }).setS_issue rd (BitVec.ofNat 32 i)
  rw [x.tryWait_some hw hi, Engine.boundary_runs _ _ (hhalt.trans hh) (hstep.trans hs)]
  exact ⟨rfl, rfl, hevt, fun h0 h32 => Engine.sreg_setS _ _ h0 h32⟩

/-- The engine after a WAIT: it waits, unless an event ends that at once; with a halt asked for it does not wait but halts (DESIGN CHOICE 24, R199). -/
theorem wait_engine {s : State} {t e w : Nat} (h : s.EngineAt e w 0x32 0) :
    ∃ u, exec (.wait t e) s = .next u ∧ u.engine e =
      let y := ((s.engine e).waits (wImm w) (wD w)).tryWait
      if y.st = .waiting && y.haltReq then { y with st := .halted, run := false, haltReq := false, stepping := false, wait := .none } else y := by
  refine ⟨_, (show exec (.wait t e) s = execWait t e s from rfl).trans (anv_at h t _ (by simp) _), ?_⟩
  rw [State.after_engine, State.count_engine, State.engine_onEngine _ _ _ _ (h.unit.trans_le s.lanes_le), if_pos rfl, State.fetched_engine]
  rfl

/-- The only bit of a mask is its first. -/
theorem firstBit_of_only {m i : Nat} {l : List Nat} (hl : i ∈ l) (hi : bit m i = true) (ho : ∀ j ∈ l, j ≠ i → bit m j = false) : firstBit m l = some i := by
  induction l with
  | nil => cases hl
  | cons j l ih =>
    by_cases hj : j = i
    · rw [firstBit, hj, if_pos hi]
    · rw [firstBit, ho j List.mem_cons_self hj, if_neg (by decide)]
      exact ih ((List.mem_cons.mp hl).resolve_left (Ne.symm hj)) (fun k hk => ho k (List.mem_cons_of_mem j hk))

/-- Of an engine with no event pending, the event that is raised is the one that a WAIT for it finds. -/
theorem firstBit_raised {mask i : Nat} (hi : i < 8) (h3 : i ≠ 3) (hm : bit mask i = true) :
    firstBit (((0 : BitVec 8) ||| BitVec.ofNat 8 (2 ^ i)).toNat &&& mask) [0, 1, 2, 4, 5, 6, 7] = some i := by
  have hpow : ((0 : BitVec 8) ||| BitVec.ofNat 8 (2 ^ i)).toNat = 2 ^ i := by
    have : 2 ^ i < 2 ^ 8 := Nat.pow_lt_pow_right (by decide) hi
    simpa using this
  rw [hpow]
  rw [bit_eq_testBit] at hm
  refine firstBit_of_only (by simp; omega) ?_ (fun j _ hj => ?_)
  · simp [bit_eq_testBit, hm]
  · simp [bit_eq_testBit, Ne.symm hj]

/-- A legal word names scalar D within the register file. -/
theorem wD_lt (w : Nat) : wD w < 32 := Nat.mod_lt _ (by decide)

/-- Settles O19: a WAIT is `tryWait` at its issue and at each event raised. That a WAIT issued under a halt request halts with its PC at itself is the model's choice
(log entry 24). -/
theorem waitForEvents : Obligations.WaitForEvents := by
  unfold Obligations.WaitForEvents
  refine ⟨?_, ?_, ?_⟩
  · intro s t e w i h hh hs hi
    obtain ⟨u, hu, hx⟩ := wait_engine (t := t) h
    obtain ⟨hst, hpc, hevt, hrd⟩ := ((s.engine e).waits (wImm w) (wD w)).tryWait_runs rfl hh hs hi
    refine ⟨u, hu, ?_⟩
    simp only [hst] at hx
    rw [hx]
    exact ⟨hst, hpc, hevt, fun h0 => hrd h0 (wD_lt w)⟩
  · intro s t e w h hi
    obtain ⟨u, hu, hx⟩ := wait_engine (t := t) h
    refine ⟨u, hu, ?_⟩
    have hnone := ((s.engine e).waits (wImm w) (wD w)).tryWait_none rfl hi
    rw [hx, hnone]
    cases hh : (s.engine e).haltReq <;> simp [Engine.waits, hh]
  · intro x mask rd i hw hi hm h3 hevt hh hs
    have hfirst : firstBit ((x.evt ||| BitVec.ofNat 8 (2 ^ i)).toNat &&& mask) [0, 1, 2, 4, 5, 6, 7] = some i := by
      rw [hevt]
      exact firstBit_raised hi h3 hm
    obtain ⟨hst, hpc, hclear, -⟩ := ({ x with evt := x.evt ||| BitVec.ofNat 8 (2 ^ i) }).tryWait_runs hw hh hs hfirst
    refine ⟨hst, hpc, hclear.trans ?_⟩
    rw [hevt]
    ext j hj
    simp

end Sys2Proof.Machine

/-! PROOFS. Writes of ANV_En_CTRL by the state they meet (O22). -/

namespace Sys2Proof.Machine

/-! ### Writes of ANV_En_CTRL by the state they meet (R199, R200, R224) -/

section Control

variable (s : State) {e : Nat} (src : Source)

theorem State.engRun_halted (h : (s.engine e).st = .halted) :
    s.engRun src e = s.onEngine e (fun x => { x with st := .running, run := true, haltReq := false, stepping := false }) := by simp only [State.engRun, h]

theorem State.engRun_error (h : (s.engine e).st = .error) : s.engRun src e = s.clamp src (Fld.ANV_En_CTRL_RUN.at e) 1 0 rsState 0 0 := by
  simp only [State.engRun, h]

/-- RUN written 0 asks a running engine to halt. -/
theorem State.engHaltReq_running (h : (s.engine e).st = .running) : s.engHaltReq e = s.onEngine e (fun x => { x with haltReq := true }) :=
  s.onEngine_congr (by rw [h])

/-- It ends the wait of a waiting one. -/
theorem State.engHaltReq_waiting (h : (s.engine e).st = .waiting) :
    s.engHaltReq e = s.onEngine e (fun x => { x with st := .halted, run := false, haltReq := false, stepping := false, wait := .none }) :=
  s.onEngine_congr (by rw [h])

theorem State.engStep_halted (h : (s.engine e).st = .halted) :
    s.engStep e = s.onEngine e (fun x => { x with st := .running, run := false, stepping := true }) := s.onEngine_congr (by rw [if_pos h])

/-- What RESET keeps of an engine (DESIGN CHOICE 24: ERR and ERRPC go too). -/
def Engine.restart (x : Engine) (e : Nat) : Engine :=
  { Engine.reset e with imem := x.imem, dmem := x.dmem, bound := x.bound, cken := x.cken, posSlot := x.posSlot, posBlk := x.posBlk }

/-- RESET alone from HALTED or ERROR. -/
theorem State.engCtrl_reset (he : e < 8) (h : (s.engine e).st = .halted ∨ (s.engine e).st = .error) :
    s.engCtrl src e 4 = s.setEngine e ((s.engine e).restart e) := by
  have hreset : s.engReset src e = s.setEngine e ((s.engine e).restart e) := if_pos (by simpa using h)
  change (s.engReset src e).engHaltReq e = _
  rw [hreset]
  refine State.engHaltReq_idle _ he (.inl ?_)
  rw [State.engine_setEngine _ _ _ _ he, if_pos rfl]
  rfl

/-- RESET alone from another state is reported, and its RUN of 0 is heard. -/
theorem State.engCtrl_reset_refused (h : (s.engine e).st ≠ .halted) (h' : (s.engine e).st ≠ .error) :
    s.engCtrl src e 4 = (s.clamp src (Fld.ANV_En_CTRL_RESET.at e) 4 0 rsState 2 2).engHaltReq e := by
  have hreset : s.engReset src e = s.clamp src (Fld.ANV_En_CTRL_RESET.at e) 4 0 rsState 2 2 := if_neg (by simpa using ⟨h, h'⟩)
  change (s.engReset src e).engHaltReq e = _
  rw [hreset]

@[simp] theorem State.clamp_engine (a : Nat) (v w : Word) (r lo hi k : Nat) : (s.clamp src a v w r lo hi).engine k = s.engine k :=
  State.engine_of_eng (State.clamp_eng ..) k

/-- A halt that was asked for takes effect at a boundary. -/
theorem engineHalt_at {t : Nat} (hr : s.Runs) (he : e < 8) (hst : (s.engine e).st = .running) (hh : (s.engine e).haltReq = true)
    (hrep : (s.engine e).rep = none) (hw : (s.engine e).wait = .none) :
    exec (.engineHalt t e) s = .next (s.after t (fun r => r.onEngine e (fun x => { x with st := .halted, run := false, haltReq := false, stepping := false }))) := by
  change execEngineHalt t e s = _
  unfold execEngineHalt
  exact clocked_only t s (fun r => e < 8 && (r.engine e).st = .running && (r.engine e).haltReq && (r.engine e).atBoundary) _ hr
    (by simp [he, hst, hh, hrep, hw, Engine.atBoundary])

end Control

/-- Settles O22: each command is a write of the control register, whose effect is that of the state it meets. That RESET clears ERR and ERRPC and keeps the binding is
the model's choice (log entry 24). -/
theorem engineControl : Obligations.EngineControl := by
  unfold Obligations.EngineControl
  intro s t src e hr hlanes ha x
  have he : e < 8 := hlanes.trans_le s.lanes_le
  have write (val : Nat) {f : State → State} (hf : (s.begin t).engCtrl src e (BitVec.ofNat 32 val) = f (s.begin t)) :
      onCtrl t src e val s = .next (s.after t f) := (onCtrl_at val hr hlanes ha).trans (congrArg _ (s.after_congr t hf))
  have refused (h : x.st ≠ .halted) (h' : x.st ≠ .error) := (s.begin t).engCtrl_reset_refused src h h'
  refine ⟨fun h => ?_, fun h => ?_, fun h => ?_, fun h => ?_, engineHalt_at s hr he, fun h => ?_, fun h => ?_, fun h => ?_, fun h => ?_⟩
  · exact write 1 ((s.begin t).engRun_halted src h)
  · exact write 1 ((s.begin t).engRun_error src h)
  · exact write 0 ((s.begin t).engHaltReq_running h)
  · exact write 0 ((s.begin t).engHaltReq_waiting h)
  · refine write 2 ?_
    change ((s.begin t).engHaltReq e).engStep e = _
    rw [(s.begin t).engHaltReq_idle he (.inl h)]
    exact (s.begin t).engStep_halted h
  · exact write 4 ((s.begin t).engCtrl_reset src he h)
  · exact write 4 ((refused (by simp [h]) (by simp [h])).trans (State.engHaltReq_running _ (by rw [State.clamp_engine]; exact h)))
  · exact write 4 ((refused (by simp [h]) (by simp [h])).trans (State.engHaltReq_waiting _ (by rw [State.clamp_engine]; exact h)))

end Sys2Proof.Machine

/-! PROOFS. Effects on memory, the queues, the twin link and the registers leave the rest of the device. -/

namespace Sys2Proof.Machine

/-! ### What neither memory nor the engines hold -/

/-- The parts of the device that no engine's instruction concerns, whatever it does to the engines, to memory, to the queues and to the registers. -/
def State.bystanders (s : State) :=
  (s.lan, s.wck, s.orx, s.hsc, s.ddc, s.phx, s.aux, s.pwr, s.net, s.tach, s.cru, s.ptp, s.boot, s.tx, s.resp)

/-- From `s` to `u` those parts and the engines are as they were: an effect on memory, the queues, the twin link or the registers alone. -/
structure State.Clear (s u : State) : Prop where
  rest : u.bystanders = s.bystanders
  eng : u.eng = s.eng

namespace State.Clear

variable {s u w : State}

theorem refl (s : State) : s.Clear s := ⟨rfl, rfl⟩

theorem trans (h : s.Clear u) (h' : u.Clear w) : s.Clear w := ⟨h'.rest.trans h.rest, h'.eng.trans h.eng⟩

theorem setFld (h : s.Clear u) (f : Fld) (n v : Nat) : s.Clear (u.setFld f n v) := h.trans ⟨rfl, rfl⟩

theorem count (h : s.Clear u) (f : Fld) (n k : Nat) : s.Clear (u.count f n k) := h.trans ⟨rfl, rfl⟩

theorem onQueue (h : s.Clear u) (q : Nat) (g : Queue → Queue) : s.Clear (u.onQueue q g) := h.trans ⟨rfl, rfl⟩

theorem ite {c : Prop} {_ : Decidable c} {a b : State} (ha : s.Clear a) (hb : s.Clear b) : s.Clear (if c then a else b) := by
  split
  · exact ha
  · exact hb

theorem only (h : s.Clear u) {c : Bool} {f : State → State} (hf : u.Clear (f u)) : s.Clear (u.only c f) := by
  cases c
  · exact h
  · exact h.trans hf

theorem each (h : s.Clear u) {us : List Nat} {f : Nat → State → State} (hf : ∀ n r, State.Clear r (f n r)) : s.Clear (u.each us f) :=
  h.trans (State.each_rel State.Clear refl (fun _ _ _ => trans) f hf us u)

/-- Memory's traffic, the journal's writes and the mirror. -/
theorem portWrite (h : s.Clear u) (p : Nat) (ap : Bool) (a : Nat) (bs : List Byte) : s.Clear (u.portWrite p ap a bs) := h.trans ⟨by simp [bystanders], by simp⟩

theorem belSend (h : s.Clear u) (k : Nat) (b : List Byte) : s.Clear (u.belSend k b) := h.trans ⟨by simp [bystanders], by simp⟩

theorem mirror (h : s.Clear u) (a : Nat) (bs : List Byte) : s.Clear (u.mirror a bs) := h.trans ⟨by simp [bystanders], by simp⟩

theorem fault (h : s.Clear u) (win unit off value detail kind : Nat) : s.Clear (u.fault win unit off value detail kind) := h.trans ⟨by simp [bystanders], by simp⟩

theorem uncorrectable (h : s.Clear u) (port b : Nat) : s.Clear (u.uncorrectable port b) := (((h.count _ _ _).setFld _ _ _).setFld _ _ _).fault _ _ _ _ _ _

theorem dramWrite (h : s.Clear u) (port : Nat) (ap : Bool) (a : Nat) (bs : List Byte) : s.Clear (u.dramWrite port ap a bs) := by
  have hmerge : s.Clear (u.mergeRead port a bs.length) := by
    unfold State.mergeRead
    exact ite h (h.each (fun n r => (refl r).uncorrectable port _))
  exact hmerge.portWrite port ap a bs

theorem backNow (h : s.Clear u) (b : Nat) : s.Clear (u.backNow b) := by
  unfold State.backNow
  exact ite (h.trans ⟨rfl, rfl⟩) h

theorem backDue (h : s.Clear u) (b : Nat) : s.Clear (u.backDue b) := by
  unfold State.backDue
  exact ite h (h.trans ⟨rfl, rfl⟩)

theorem burstMeets (h : s.Clear u) (port b ce : Nat) (ue newer : Bool) : s.Clear (u.burstMeets port b ce ue newer).1 := by
  have hcount : s.Clear (u.only (decide (0 < ce)) (fun r => r.count Fld.MEM_CE_CNT 0 ce)) := h.only ((refl u).count _ _ _)
  unfold State.burstMeets
  dsimp only
  split
  · exact hcount.uncorrectable port b
  · exact State.Clear.only (f := fun r => r.backDue b) hcount ((refl _).backDue b)

/-- A read of memory may correct, count and report, and nothing else. -/
theorem portRead (h : s.Clear u) (port : Nat) (ap : Bool) (a n : Nat) : s.Clear (u.portRead port ap a n).1 := by
  have htraffic : s.Clear (u.traffic port ap false a n) := h.trans ⟨by simp [bystanders], by simp⟩
  have hbursts (bs : List Nat) (acc : State × Bool) (ha : s.Clear acc.1) :
      s.Clear (bs.foldl (fun acc b => ((acc.1.burstRead port b).1, acc.2 || (acc.1.burstRead port b).2)) acc).1 := by
    induction bs generalizing acc with
    | nil => exact ha
    | cons b bs ih => exact ih _ ((ha.backNow b).burstMeets port b _ _ _)
  unfold State.portRead
  dsimp only
  split
  · exact htraffic
  · exact hbursts _ _ htraffic

/-- The tachometers are among them. -/
theorem tach (h : s.Clear u) : u.tach = s.tach := by
  have hrest := h.rest
  simp only [bystanders, Prod.mk.injEq] at hrest
  obtain ⟨-, -, -, -, -, -, -, -, -, htach, -⟩ := hrest
  exact htach

end State.Clear

@[simp] theorem State.dramWrite_tach (s : State) (port : Nat) (ap : Bool) (a : Nat) (bs : List Byte) : (s.dramWrite port ap a bs).tach = s.tach :=
  ((State.Clear.refl s).dramWrite port ap a bs).tach

@[simp] theorem State.dramWrite_eng (s : State) (port : Nat) (ap : Bool) (a : Nat) (bs : List Byte) : (s.dramWrite port ap a bs).eng = s.eng :=
  ((State.Clear.refl s).dramWrite port ap a bs).eng

end Sys2Proof.Machine

/-! PROOFS. Tachometer edges and timeouts (O24). -/

namespace Sys2Proof.Machine

/-! ### Tachometers (R216 to R218) -/

/-- A tachometer input after a change of it. -/
theorem State.tachOf_onTach (s : State) {k : Nat} (hk : k < 8) (f : Tach → Tach) : (s.onTach k f).tachOf k = f (s.tachOf k) := by
  simp [State.tachOf, State.onTach, Vector.getD, hk]

theorem State.tachOf_of_tach {s u : State} (h : u.tach = s.tach) (k : Nat) : u.tachOf k = s.tachOf k := by rw [State.tachOf, h, State.tachOf]

section Tachometer

variable (s : State) {t k held : Nat} {level lost : Bool}

/-- A level that has held its filter's time is an edge's. -/
theorem tachEdge_at (hr : s.Runs) (hk : k < 8) (hf : 8 * s.fld Fld.ANV_Tt_CFG_FILT k ≤ held) :
    exec (.tachEdge t k ⟨level, held⟩ lost) s = .next (s.after t (fun r => r.tachEdge k level held lost)) :=
  ticking_only t s (fun r => k < 8 && decide (8 * r.fld Fld.ANV_Tt_CFG_FILT k ≤ held)) (fun r => r.tachEdge k level held lost) hr (by simp [hk, hf])

/-- A level that has not changes nothing. -/
theorem tachEdge_early (hr : s.Runs) (hf : held < 8 * s.fld Fld.ANV_Tt_CFG_FILT k) : exec (.tachEdge t k ⟨level, held⟩ lost) s = .next (s.begin t) :=
  ticking_unless t s (fun r => k < 8 && decide (8 * r.fld Fld.ANV_Tt_CFG_FILT k ≤ held)) (fun r => r.tachEdge k level held lost) hr (by simp [hf])

/-- An edge of the kind that is not selected moves LEVEL alone. -/
theorem State.tachEdge_other : s.tachEdge k (s.flag Fld.ANV_Tt_CFG_EDGE k) held lost = s.setFlag Fld.ANV_Tt_STAT_LEVEL k (s.flag Fld.ANV_Tt_CFG_EDGE k) :=
  if_pos (by simp)

/-- An edge of the selected kind is stamped at the first tick of its level, and is the input's latest. -/
theorem State.tachEdge_selected (hk : k < 8) (he : level ≠ s.flag Fld.ANV_Tt_CFG_EDGE k) (hl : s.flag Fld.ANV_Tt_STAT_LEVEL k ≠ level) :
    let u := s.tachEdge k level held lost
    (u.tachOf k).last = s.dev ∧ (u.tachOf k).edges = ((s.dev - held) :: (s.tachOf k).edges).take (s.fld Fld.ANV_Tt_CFG_PPR k + 1) ∧ u.eng = s.eng := by
  intro u
  have hmoves : ¬ (s.flag Fld.ANV_Tt_STAT_LEVEL k = level || level = s.flag Fld.ANV_Tt_CFG_EDGE k) = true := by simp [he, hl]
  simp only [u, State.tachEdge, if_neg hmoves]
  split <;> split <;> (try split) <;> simp [State.tachOf, State.onTach, Vector.getD, hk]

/-- A timeout clears the speed and sets STALE. -/
theorem tachTimeout_at (hr : s.Runs) (hk : k < 8) (hd : (s.tachOf k).last + s.fld Fld.ANV_Tt_TMO_TMO k * 65536 * 8 ≤ (s.begin t).dev) :
    exec (.tachTimeout t k) s = .next (s.after t (fun r =>
      ((r.setFld Fld.ANV_Tt_SPEED_SPEED k 0).setFlag Fld.ANV_Tt_STAT_STALE k true).onTach k (fun x => { x with edges := [], fresh := 0 }))) :=
  ticking_only t s (fun r => k < 8 && decide ((r.tachOf k).last + r.fld Fld.ANV_Tt_TMO_TMO k * 65536 * pclk ≤ r.dev)) _ hr (by
    simp only [Bool.and_eq_true, decide_eq_true_eq]
    exact ⟨hk, hd⟩)

end Tachometer

/-- Settles O24: an edge is `tachEdge` once its level has held, and a timeout clears what the edges had given. -/
theorem tachometers : Obligations.Tachometers := by
  unfold Obligations.Tachometers
  refine ⟨fun s t k held level lost => tachEdge_early s, fun s t k held lost hr hk hf => ?_, fun s t k held level lost hr hk hf he hl => ?_, fun s t k => tachTimeout_at s⟩
  · exact (tachEdge_at s hr hk hf).trans (congrArg _ (s.after_congr t (s.begin t).tachEdge_other))
  · exact ⟨_, tachEdge_at s hr hk hf, (s.begin t).tachEdge_selected hk he hl⟩

end Sys2Proof.Machine

/-! PROOFS. Host accesses to an engine's memories (O23). -/

namespace Sys2Proof.Machine

/-! ### Host accesses to an engine's memories (R194 to R197) -/

/-- The block of instruction memory, and that of data memory. -/
theorem memUnit_at {a e o : Nat} (ha : a = 0x01000000 + 0x100000 * e + o) (ho : o < 0x100000) : memUnit a = (e, o) := by
  simp only [memUnit, Prod.mk.injEq]
  omega

section HostAccess

variable {s : State} {t e k : Nat} {src : Source} {addr val : Word}

theorem imemWrite_at (hr : s.Runs) (he : e < s.lanes) (hk : k < 0x4000) (ha : addr.toNat = 0x01000000 + 0x100000 * e + 4 * k) (hadm : (s.begin t).Admits src addr.toNat) :
    exec (.imemWrite t src addr val) s = .next (s.after t (fun r =>
      if (s.engine e).st = .halted ∨ (s.engine e).st = .error then
        (r.setEngine e { s.engine e with imem := sput 0 (s.engine e).imem k val }).eccWrite 2 (engBase e) (4 * k) 4
      else r.clamp src addr.toNat val (sget 0 (s.engine e).imem k) rsState 0 31)) := by
  have he8 := he.trans_le s.lanes_le
  have hunit : memUnit addr.toNat = (e, 4 * k) := memUnit_at ha (by omega)
  have hin : (0x01000000 ≤ addr.toNat && addr.toNat < 0x01800000 && addr.toNat % 0x100000 < 0x10000) = true := by
    simp only [Bool.and_eq_true, decide_eq_true_eq]
    omega
  refine (ticking_only t s (fun _ => 0x01000000 ≤ addr.toNat && addr.toNat < 0x01800000 && addr.toNat % 0x100000 < 0x10000)
    (fun r => r.pastLocks src addr.toNat val (fun r => r.imemWrite src addr.toNat val)) hr hin).trans (congrArg _ (s.after_congr t ?_))
  have hlanes : e < (s.begin t).lanes := he
  have hword : 4 * k / 4 = k := by omega
  have hbyte : k * 4 = 4 * k := by omega
  rw [State.admit_of _ _ _ _ _ hadm]
  simp only [State.imemWrite, hunit, State.withEngine, hlanes, if_true, hword, hbyte, State.begin_engine, Bool.or_eq_true, decide_eq_true_eq]

/-- A word of data memory lies in the blocks that host accesses to data memory reach. -/
theorem dmemAddr_in (he : e < s.lanes) (hk : k < 0x20000) (ha : addr.toNat = 0x01080000 + 0x100000 * e + 4 * k) :
    (0x01000000 ≤ addr.toNat && addr.toNat < 0x01800000 && 0x80000 ≤ addr.toNat % 0x100000) = true := by
  have he8 := he.trans_le s.lanes_le
  simp only [Bool.and_eq_true, decide_eq_true_eq]
  omega

/-- Such a word's engine and offset, by the offset's word of data memory. -/
theorem dmemUnit_at (hk : k < 0x20000) (ha : addr.toNat = 0x01080000 + 0x100000 * e + 4 * k) :
    ∃ o, memUnit addr.toNat = (e, o) ∧ (o - 0x80000) / 4 * 4 = 4 * k ∧ ¬ o < 0x10000 ∧ ¬ o < 0x80000 := by
  refine ⟨addr.toNat - 0x01000000 - 0x100000 * e, memUnit_at ?_ ?_, ?_, ?_, ?_⟩ <;> omega

/-- An access to data memory at such an address. -/
theorem dmemHostAccess_at {write : Bool} (hr : s.Runs)
    (hin : (0x01000000 ≤ addr.toNat && addr.toNat < 0x01800000 && 0x80000 ≤ addr.toNat % 0x100000) = true) :
    execDmemHostAccess t src addr val write s = .next (s.after t (fun r =>
      if write then r.pastLocks src addr.toNat val (fun r => r.dmemWrite src addr.toNat val)
      else { (r.memRead addr.toNat).1 with resp := leBytes 4 (r.memRead addr.toNat).2.toNat })) := by
  unfold execDmemHostAccess
  refine ticking_after t s _ _ hr ?_
  rw [State.only_pos _ _ _ hin]

theorem dmemWrite_at (hr : s.Runs) (he : e < s.lanes) (hk : k < 0x20000) (ha : addr.toNat = 0x01080000 + 0x100000 * e + 4 * k) (hadm : (s.begin t).Admits src addr.toNat) :
    exec (.dmemHostAccess t src addr val true) s = .next (s.after t (fun r =>
      ((r.hostStall e).onEngine e (fun x => x.store (4 * k) (leBytes 4 val.toNat))).eccWrite 1 (engBase e) (4 * k) 4)) := by
  obtain ⟨o, hunit, hbyte, hdata, hbeyond⟩ := dmemUnit_at hk ha
  refine (dmemHostAccess_at hr (dmemAddr_in he hk ha)).trans (congrArg _ (s.after_congr t ?_))
  have hlanes : e < (s.begin t).lanes := he
  rw [if_pos rfl, State.admit_of _ _ _ _ _ hadm]
  simp only [State.dmemWrite, hunit, State.withEngine, hlanes, if_true, hbyte]

/-- A host access may take a tick from the engine, and changes nothing but the counter of such ticks and the free values. -/
theorem State.hostStall_rest (s : State) (e : Nat) :
    (s.hostStall e).eng = s.eng ∧ (s.hostStall e).mem = s.mem ∧ (s.hostStall e).sys = s.sys := by
  unfold State.hostStall State.only
  split <;> simp

/-- A number of `n` bytes. -/
theorem leNat_lt (bs : List Byte) : leNat bs < 256 ^ bs.length := by
  induction bs with
  | nil => exact Nat.one_pos
  | cons b bs ih =>
    have hb := b.isLt
    simp only [leNat, List.length_cons, Nat.pow_succ]
    omega

theorem Engine.bytes_length (x : Engine) (a n : Nat) : (x.bytes a n).length = n := by
  induction n generalizing a with
  | zero => rfl
  | succ n ih => simp [Engine.bytes, ih]

theorem Engine.load_lt (x : Engine) (a n : Nat) : x.load a n < 256 ^ n := by
  have h := leNat_lt (x.bytes a n)
  rwa [x.bytes_length] at h

theorem dmemRead_at (hr : s.Runs) (he : e < s.lanes) (hk : k < 0x20000) (ha : addr.toNat = 0x01080000 + 0x100000 * e + 4 * k)
    (hecc : s.eccAt 1 (engBase e + 4 * k) = 0) :
    ∃ u, exec (.dmemHostAccess t src addr val false) s = .next u ∧ u.resp = leBytes 4 ((s.engine e).load (4 * k) 4) ∧ u.eng = s.eng ∧ u.mem = s.mem := by
  refine ⟨_, dmemHostAccess_at hr (dmemAddr_in he hk ha), ?_⟩
  obtain ⟨o, hunit, hbyte, hdata, hbeyond⟩ := dmemUnit_at hk ha
  have hlanes : ¬ (s.begin t).lanes ≤ e := Nat.not_le.mpr he
  obtain ⟨heng, hmem, hsys⟩ := (s.begin t).hostStall_rest e
  have hsound : ((s.begin t).hostStall e).eccAt 1 (engBase e + 4 * k) = 0 := by
    rw [State.eccAt, State.eccRange, hsys]
    exact hecc
  have hread : (s.begin t).memRead addr.toNat = ((s.begin t).hostStall e, BitVec.ofNat 32 ((s.engine e).load (4 * k) 4)) := by
    simp only [State.memRead, hunit, hlanes, hdata, hbeyond, decide_false, Bool.and_false, Bool.or_false, Bool.not_false, State.only_true, hbyte,
      hsound, State.engine_of_eng heng, State.begin_engine, if_false, Bool.false_eq_true]
  simp only [State.after, Bool.false_eq_true, if_false, hread]
  exact ⟨congrArg (leBytes 4) (BitVec.toNat_ofNat _ _ |>.trans (Nat.mod_eq_of_lt ((s.engine e).load_lt (4 * k) 4))), heng, hmem⟩

end HostAccess
end Sys2Proof.Machine

/-! PROOFS. The end of a transfer (O23). -/

namespace Sys2Proof.Machine

/-! ### The end of a transfer (R197, R210 to R214, R324) -/

/-- An event may end a WAIT; it changes no channel and no flag. -/
theorem Engine.raise_flags (x : Engine) (i : Nat) : (x.raise i).dma = x.dma ∧ (x.raise i).dmaErr = x.dmaErr := by
  unfold Engine.raise Engine.tryWait Engine.setS Engine.boundary
  dsimp only
  split
  · split
    · split <;> split <;> exact ⟨rfl, rfl⟩
    · exact ⟨rfl, rfl⟩
  · exact ⟨rfl, rfl⟩

/-- A channel after a change of it. -/
theorem Engine.chan_onDma (x : Engine) {c : Nat} (hc : c < 4) (f : Dma → Dma) : (x.onDma c f).chan c = f (x.chan c) := by
  simp [Engine.chan, Engine.onDma, Vector.getD, hc]

/-- Bytes stored in data memory change no channel. -/
@[simp] theorem Engine.store_dma (x : Engine) (a : Nat) (bs : List Byte) : (x.store a bs).dma = x.dma := by
  induction bs generalizing x a with
  | nil => rfl
  | cons b bs ih => rw [Engine.store, ih]

/-- The errors of an engine's memories are no part of its registers. -/
@[simp] theorem State.eccWrite_eng (s : State) (target base key n : Nat) : (s.eccWrite target base key n).eng = s.eng := by simp [State.eccWrite]

/-- A fold whose steps each keep a projection of the first component keeps it. -/
theorem foldl_fst_keep {α β γ : Type} (p : State → γ) (g : State × β → α → State × β) (h : ∀ acc x, p (g acc x).1 = p acc.1) (l : List α) (acc : State × β) :
    p (l.foldl g acc).1 = p acc.1 := by
  induction l generalizing acc with
  | nil => rfl
  | cons x l ih => exact (ih _).trans (h acc x)

section Rows

variable (s : State) {e : Nat} (d : Dma)

/-- The rows of a transfer as they are read from DRAM leave the engines. -/
theorem State.dmaFetch_eng (r : Nat) : (s.dmaFetch e d r).1.eng = s.eng := by
  unfold State.dmaFetch
  refine foldl_fst_keep (·.eng) _ (fun acc _ => ?_) _ _
  exact ((State.Clear.refl acc.1).portRead _ _ _ _).eng

/-- A beat changes no channel. -/
theorem State.dmaBeat_dma (he : e < 8) (r k : Nat) : ((s.dmaBeat e d r k).engine e).dma = (s.engine e).dma := by
  unfold State.dmaBeat
  dsimp only
  split
  · rw [State.engine_of_eng ((State.dramWrite_eng ..).trans (State.eccCorrect_eng ..))]
  · rw [State.engine_of_eng (State.eccWrite_eng ..), State.engine_onEngine _ _ _ _ he, if_pos rfl, Engine.store_dma]

/-- Nor do the rows of a transfer. -/
theorem State.dmaRows_dma (he : e < 8) (n r : Nat) : ((s.dmaRows e d n r).1.engine e).dma = (s.engine e).dma := by
  have hbeats (s : State) (r : Nat) : (((List.range (d.len / 64)).foldl (fun s k => s.dmaBeat e d r k) s).engine e).dma = (s.engine e).dma :=
    foldl_keep (fun s => (s.engine e).dma) _ (fun s k => s.dmaBeat_dma d he r k) _ s
  induction n generalizing s r with
  | zero => rfl
  | succ n ih =>
    unfold State.dmaRows
    dsimp only
    split
    · split
      · rfl
      · rw [ih, hbeats]
    · split
      · rw [State.engine_of_eng (s.dmaFetch_eng d r)]
      · rw [ih, hbeats, State.engine_of_eng (s.dmaFetch_eng d r)]

end Rows

section Transfer

variable {s : State} {t e c : Nat}

/-- A transfer waits for MEM. -/
theorem dmaComplete_waits (hr : s.Runs) (hm : s.flag Fld.MEM_STAT_READY 0 = false) : exec (.dmaComplete t e c) s = .next (s.begin t) :=
  (clocked_run t s _ hr).trans (always_unless t s (fun r => e < 8 && c < 4 && r.flag Fld.MEM_STAT_READY 0) (fun r => r.dmaComplete e c) (by simp [hm]))

theorem dmaComplete_at (hr : s.Runs) (he : e < 8) (hc : c < 4) (hm : s.flag Fld.MEM_STAT_READY 0 = true) :
    exec (.dmaComplete t e c) s = .next (s.after t (fun r => r.dmaComplete e c)) :=
  clocked_only t s (fun r => e < 8 && c < 4 && r.flag Fld.MEM_STAT_READY 0) (fun r => r.dmaComplete e c) hr (by simp [he, hc, hm])

/-- A tile read's buffer was reclaimed: the lane's open block is two blocks or more ahead (R212). -/
def State.reclaims (s : State) (d : Dma) : Bool :=
  d.tile && decide (2 ≤ (s.openBlock d.lane + 65536 - d.block % 65536) % 65536 ∧ (s.openBlock d.lane + 65536 - d.block % 65536) % 65536 < 32768)

/-- What the end of a transfer leaves on its engine. -/
def Engine.endTransfer (x : Engine) (c dev : Nat) (recl bad : Bool) (rows : Nat) : Engine :=
  { x.onDma c (fun d => { d with busy := false, done := !bad, reclaimed := recl, err := bad, code := if bad then (if d.out then 5 else 6) else 0, rows := rows }) with
    recl := x.recl || recl, dmaErr := x.dmaErr || bad }.markSet dev (8 * b2n recl + 4 * b2n bad)

/-- Its channel then. -/
theorem Engine.chan_endTransfer (x : Engine) (hc : c < 4) (dev : Nat) (recl bad : Bool) (rows : Nat) :
    (x.endTransfer c dev recl bad rows).chan c = { x.chan c with
      busy := false, done := !bad, reclaimed := recl, err := bad, code := if bad then (if (x.chan c).out then 5 else 6) else 0, rows := rows } :=
  x.chan_onDma hc (fun d =>
    { d with busy := false, done := !bad, reclaimed := recl, err := bad, code := if bad then (if d.out then 5 else 6) else 0, rows := rows })

/-- A transfer in progress moves its rows, ends on its engine, and raises its event. -/
theorem State.dmaComplete_busy (s : State) (hb : ((s.engine e).chan c).busy = true) :
    let d := (s.engine e).chan c
    let m := s.dmaRows e d d.rows 0
    let r := m.1.onEngine e (fun x => x.endTransfer c s.dev (s.reclaims d) (decide (0 < m.2)) m.2)
    s.dmaComplete e c = (if s.reclaims d then r.count Fld.ANV_RECL_CNT e 1 else r).onEngine e (fun x => x.raise (4 + c)) := by
  have hrecl : (((s.engine e).chan c).tile && decide (2 ≤ (s.openBlock ((s.engine e).chan c).lane + 65536 - ((s.engine e).chan c).block % 65536) % 65536
      ∧ (s.openBlock ((s.engine e).chan c).lane + 65536 - ((s.engine e).chan c).block % 65536) % 65536 < 32768)) = s.reclaims ((s.engine e).chan c) := rfl
  simp only [State.dmaComplete, hb, Bool.not_true, Bool.false_eq_true, if_false, hrecl, Engine.endTransfer]

/-- A transfer that ends at a failing row: its channel shows the rows left and the code (R197, R210, R324). -/
theorem State.dmaComplete_failed (s : State) (he : e < 8) (hc : c < 4) (hb : ((s.engine e).chan c).busy = true)
    (hleft : 0 < (s.dmaRows e ((s.engine e).chan c) ((s.engine e).chan c).rows 0).2) :
    ((s.dmaComplete e c).engine e).dmaErr = true
      ∧ let x := ((s.dmaComplete e c).engine e).chan c
        x.busy = false ∧ x.done = false ∧ x.err = true ∧ x.rows = (s.dmaRows e ((s.engine e).chan c) ((s.engine e).chan c).rows 0).2
          ∧ x.code = if ((s.engine e).chan c).out then 5 else 6 := by
  have hcount (r : State) (b : Bool) : (if b then r.count Fld.ANV_RECL_CNT e 1 else r).engine e = r.engine e := by cases b <;> simp
  have hraise (y : Engine) : (y.raise (4 + c)).dmaErr = y.dmaErr ∧ (y.raise (4 + c)).chan c = y.chan c :=
    ⟨(y.raise_flags (4 + c)).2, by rw [Engine.chan, (y.raise_flags (4 + c)).1, Engine.chan]⟩
  rw [s.dmaComplete_busy hb, State.engine_onEngine _ _ _ _ he, if_pos rfl, hcount, State.engine_onEngine _ _ _ _ he, if_pos rfl, (hraise _).1, (hraise _).2]
  have hmoved : ((s.dmaRows e ((s.engine e).chan c) ((s.engine e).chan c).rows 0).1.engine e).chan c = (s.engine e).chan c := by
    rw [Engine.chan, s.dmaRows_dma _ he, Engine.chan]
  refine ⟨by simp [Engine.endTransfer, Engine.markSet, hleft], ?_⟩
  simp [Engine.chan_endTransfer _ hc, hmoved, hleft]

/-- A transfer that moves every row (R210, R212, R214). -/
theorem State.dmaComplete_done (s : State) (hb : ((s.engine e).chan c).busy = true)
    (hleft : (s.dmaRows e ((s.engine e).chan c) ((s.engine e).chan c).rows 0).2 = 0) :
    let d := (s.engine e).chan c
    let recl := s.reclaims d
    let r := (s.dmaRows e d d.rows 0).1.onEngine e (fun x =>
      { x.onDma c (fun d => { d with busy := false, done := true, reclaimed := recl, err := false, code := 0, rows := 0 }) with
        recl := x.recl || recl }.markSet s.dev (if recl then 8 else 0))
    s.dmaComplete e c = (if recl then r.count Fld.ANV_RECL_CNT e 1 else r).onEngine e (fun x => x.raise (4 + c)) := by
  intro d recl r
  have hend : r = (s.dmaRows e d d.rows 0).1.onEngine e (fun x => x.endTransfer c s.dev recl false 0) := by
    refine State.onEngine_congr _ ?_
    cases hr : recl <;> simp [Engine.endTransfer, b2n, Engine.onDma]
  rw [s.dmaComplete_busy hb, hend]
  simp only [hleft, lt_irrefl, decide_false]
  rfl

end Transfer

/-- Settles O23. That a completion with ERRCODE 5 sets ASTAT.DMAERR as one with ERRCODE 6 does is the model's choice (log entry 25). -/
theorem engineMemoriesAndTransfers : Obligations.EngineMemoriesAndTransfers := by
  unfold Obligations.EngineMemoriesAndTransfers
  refine ⟨⟨fun s t src addr val e k => imemWrite_at, fun s t src addr val e k => dmemWrite_at, fun s t src addr val e k => dmemRead_at⟩,
    fun s t e c => dmaComplete_waits, fun s t e c hr he hc hm hb => ⟨fun hleft => ?_, fun hleft => ?_⟩⟩
  · exact ⟨_, dmaComplete_at hr he hc hm, (s.begin t).dmaComplete_failed he hc hb hleft⟩
  · exact (dmaComplete_at hr he hc hm).trans (congrArg _ (s.after_congr t ((s.begin t).dmaComplete_done hb hleft)))

end Sys2Proof.Machine

/-! PROOFS. The DMA and queue instructions of an engine (O21). -/

namespace Sys2Proof.Machine

/-! ### DMA and queue instructions (R209, R210, R220, R221, R248) -/

section QueueWork

variable {s : State} {t e w : Nat}

/-- DMAST at a descriptor in place: it waits for its channel, and then starts the transfer. -/
theorem dmast_at (h : s.EngineAt e w 0x24 0) (hal : ((s.engine e).sreg (wA w)).toNat % 32 = 0)
    (hd : ((s.begin t).fetched e).DataAt e ((s.engine e).sreg (wA w)).toNat 32 32) :
    exec (.dmast t e) s = .next (s.after t (fun r0 =>
      let a := ((s.engine e).sreg (wA w)).toNat
      let r := r0.fetched e
      if ((s.engine e).chan (wC w)).busy then r.chanWait e
      else (((r.dataRead e a 32).dmaStart e (wC w) (dmaOf ((s.engine e).bytes a 32))).count Fld.ANV_STALL_CNT e ((r.dataRead e a 32).chanWaited e)).finish e id)) := by
  change execDmast t e s = _
  rw [execDmast, anv_at h t _ (by simp)]
  refine congrArg _ (s.after_congr t ?_)
  have hin : ¬ 0x80000 ≤ ((s.engine e).sreg (wA w)).toNat := Nat.not_le.mpr hd.inside
  simp only [State.fetched_engine, State.begin_engine, hin, hal, decide_false, ne_eq, not_true_eq_false, Bool.or_self, Bool.false_eq_true, if_false]
  refine congrArg _ ?_
  rw [State.loading_of hd, State.dataRead_engine, State.fetched_engine, State.begin_engine]

/-- DMAWT and DMARD give the channel's status, the first once the channel is free. -/
theorem dmawt_at (h : s.EngineAt e w 0x24 1) :
    exec (.dmawt t e) s = .next (s.after t (fun r => if ((s.engine e).chan (wC w)).busy then (r.fetched e).chanWait e
      else (r.fetched e).finish e (fun x => x.setS (wD w) (x.chan (wC w)).word))) := by
  change execDmawt t e s = _
  rw [execDmawt, anv_at h t _ (by simp)]
  refine congrArg _ (s.after_congr t ?_)
  rw [State.fetched_engine, State.begin_engine, State.dmaStatus]

theorem dmard_at (h : s.EngineAt e w 0x24 2) :
    exec (.dmard t e) s = .next (s.after t (fun r => (r.fetched e).finish e (fun x => x.setS (wD w) (x.chan (wC w)).word))) := by
  change execDmard t e s = _
  rw [execDmard, anv_at h t _ (by simp)]
  rfl

/-- A transfer out of data memory is in progress. -/
theorem Engine.sending_iff (x : Engine) : x.dma.toList.any (fun d => d.busy && d.out) = true ↔ ∃ c, c < 4 ∧ (x.chan c).busy = true ∧ (x.chan c).out = true := by
  simp only [List.any_eq_true, Bool.and_eq_true, Vector.mem_toList_iff, Vector.mem_iff_getElem]
  constructor
  · rintro ⟨d, ⟨c, hc, rfl⟩, hd⟩
    exact ⟨c, hc, by simpa [Engine.chan, Vector.getD, hc] using hd⟩
  · rintro ⟨c, hc, hd⟩
    exact ⟨_, ⟨c, hc, rfl⟩, by simpa [Engine.chan, Vector.getD, hc] using hd⟩

/-- POST at a descriptor in place: it waits while a transfer out of data memory is in progress, and else hands the descriptor over. -/
theorem post_at (h : s.EngineAt e w 0x25 0) (hd : ((s.begin t).fetched e).DataAt e ((s.engine e).sreg (wA w)).toNat 64 64) :
    exec (.post t e) s = .next (s.after t (fun r =>
      if (s.engine e).dma.toList.any (fun d => d.busy && d.out) then (r.fetched e).chanWait e
      else ((r.fetched e).dataRead e ((s.engine e).sreg (wA w)).toNat 64).post e (((s.engine e).sreg (wB w)).toNat % 64) (wD w)
        ((s.engine e).bytes ((s.engine e).sreg (wA w)).toNat 64))) := by
  change execPost t e s = _
  rw [execPost, anv_at h t _ (by simp)]
  refine congrArg _ (s.after_congr t ?_)
  simp only [State.fetched_engine, State.begin_engine, hd.inside, hd.aligned, decide_true, Bool.and_true]
  refine congrArg _ ?_
  rw [State.loading_of hd, State.dataRead_engine, State.fetched_engine, State.begin_engine]

/-- TAKE at a place for the descriptor, and DONE. -/
theorem take_at (h : s.EngineAt e w 0x25 1) (hin : ((s.engine e).sreg (wA w)).toNat < 0x80000) (hal : ((s.engine e).sreg (wA w)).toNat % 64 = 0) :
    exec (.take t e) s = .next (s.after t (fun r0 =>
      let a := ((s.engine e).sreg (wA w)).toNat
      let r := r0.fetched e
      match if r.flag Fld.QUE_CTRL_EN 0 then (r.queue e).untaken else none with
      | some d => ((r.take e d.seq).dstore e a d.img).finish e (fun x => x.setS (wD w) (BitVec.ofNat 32 d.seq))
      | none => r.finish e (fun x => x.setS (wD w) 0x80000000))) := by
  change execTake t e s = _
  rw [execTake, anv_at h t _ (by simp)]
  refine congrArg _ (s.after_congr t ?_)
  dsimp only
  rw [State.fetched_engine, State.begin_engine, State.storing_of hin hal] <;> rfl

theorem done_at (h : s.EngineAt e w 0x25 2) :
    exec (.done t e) s = .next (s.after t (fun r0 =>
      let seq := ((s.engine e).sreg (wA w)).toNat
      let r := r0.fetched e
      if (r.queue e).entries.any (fun d => d.seq = seq && d.taken && !d.done) then (r.done e seq).finish e (fun x => x.setS (wD w) 0)
      else r.finish e (fun x => x.setS (wD w) 0x80000004))) := by
  change execDone t e s = _
  rw [execDone, anv_at h t _ (by simp)]
  refine congrArg _ (s.after_congr t ?_)
  dsimp only
  rw [State.fetched_engine, State.begin_engine]

end QueueWork

/-- Settles O21. That TAKE gives no task while QUE_CTRL.EN is clear (log entry 25), and that a POST's checks set aside what it overtakes (log entry 12), are the model's
choices. -/
theorem dmaAndQueueWork : Obligations.DmaAndQueueWork := by
  unfold Obligations.DmaAndQueueWork
  refine ⟨fun s t e w h => dmast_at h, fun s t e w => dmawt_at, fun s t e w => dmard_at, ?_, fun s t e w h => take_at h, fun s t e w => done_at⟩
  intro s t e w h a q img hd
  refine ⟨fun hidle => ?_, fun c hc hb ho => ?_⟩
  · refine (post_at h hd).trans (congrArg _ (s.after_congr t ?_))
    have hnone : (s.engine e).dma.toList.any (fun d => d.busy && d.out) = false := by
      rw [Bool.eq_false_iff]
      intro hs
      obtain ⟨c, hc, hb, ho⟩ := (s.engine e).sending_iff.mp hs
      rw [hidle c hc hb] at ho
      cases ho
    rw [if_neg (by rw [hnone]; decide)]
    rfl
  · refine (post_at h hd).trans (congrArg _ (s.after_congr t ?_))
    rw [if_pos ((s.engine e).sending_iff.mpr ⟨c, hc, hb, ho⟩)]

end Sys2Proof.Machine

/-! PROOFS. Effects that end beside one engine or within it (R193). -/

namespace Sys2Proof.Machine

/-! ### Effects beside one engine (R193) -/

theorem State.engine_onEngine_ne (s : State) {e k : Nat} (h : k ≠ e) (f : Engine → Engine) : (s.onEngine e f).engine k = s.engine k := by
  simp [State.onEngine, State.setEngine, State.engine, Vector.getD, Array.getD_eq_getD_getElem?, Ne.symm h]

/-- From `s` to `u` nothing that is not an engine's changes but memory, the queues, the twin link and the registers; of the engines, those other than `e` that meet `p`
are as they were. -/
structure State.Beside (p : Engine → Prop) (e : Nat) (s u : State) : Prop where
  rest : u.bystanders = s.bystanders
  others : ∀ k, k ≠ e → p (s.engine k) → u.engine k = s.engine k

namespace State.Beside

variable {p : Engine → Prop} {e : Nat} {s u w : State}

theorem refl (s : State) : State.Beside p e s s := ⟨rfl, fun _ _ _ => rfl⟩

theorem trans (h : State.Beside p e s u) (h' : State.Beside p e u w) : State.Beside p e s w :=
  ⟨h'.rest.trans h.rest, fun k hk hp => (h'.others k hk (by rwa [h.others k hk hp])).trans (h.others k hk hp)⟩

theorem of_clear (h : s.Clear u) : State.Beside p e s u := ⟨h.rest, fun k _ _ => State.engine_of_eng h.eng k⟩

theorem onEngine (s : State) (f : Engine → Engine) : State.Beside p e s (s.onEngine e f) := ⟨rfl, fun _ hk _ => s.engine_onEngine_ne hk f⟩

theorem weaken (h : State.Beside (fun _ => True) e s u) : State.Beside p e s u := ⟨h.rest, fun k hk _ => h.others k hk trivial⟩

end State.Beside

/-- From `s` to `u` engine `e` alone changes, with registers and errors of its memories: not memory, the queues or the twin link. -/
structure State.Inside (e : Nat) (s u : State) : Prop where
  beside : State.Beside (fun _ => True) e s u
  mem : u.mem = s.mem
  que : u.que = s.que
  twn : u.twn = s.twn

namespace State.Inside

variable {e : Nat} {s u w : State}

theorem refl (s : State) : State.Inside e s s := ⟨.refl s, rfl, rfl, rfl⟩

theorem trans (h : State.Inside e s u) (h' : State.Inside e u w) : State.Inside e s w :=
  ⟨h.beside.trans h'.beside, h'.mem.trans h.mem, h'.que.trans h.que, h'.twn.trans h.twn⟩

theorem onEngine (h : State.Inside e s u) (f : Engine → Engine) : State.Inside e s (u.onEngine e f) := h.trans ⟨.onEngine u f, rfl, rfl, rfl⟩

theorem count (h : State.Inside e s u) (f : Fld) (n k : Nat) : State.Inside e s (u.count f n k) :=
  h.trans ⟨.of_clear ((State.Clear.refl u).count f n k), rfl, rfl, rfl⟩

theorem only (h : State.Inside e s u) {c : Bool} {f : State → State} (hf : State.Inside e u (f u)) : State.Inside e s (u.only c f) := by
  cases c
  · exact h
  · exact h.trans hf

theorem ite {c : Prop} {_ : Decidable c} {a b : State} (ha : State.Inside e s a) (hb : State.Inside e s b) : State.Inside e s (if c then a else b) := by
  split
  · exact ha
  · exact hb

/-- Errors corrected, made good or struck are none of these. -/
theorem eccCorrect (h : State.Inside e s u) (t a n : Nat) : State.Inside e s (u.eccCorrect t a n) := by
  have hclear : State.Inside e s (u.eccClear t a n) := h.trans ⟨.of_clear ⟨rfl, rfl⟩, rfl, rfl, rfl⟩
  unfold State.eccCorrect
  exact ite (hclear.count _ _ _) h

theorem eccWrite (h : State.Inside e s u) (t b a n : Nat) : State.Inside e s (u.eccWrite t b a n) :=
  h.trans ⟨.of_clear ⟨by simp [State.eccWrite, State.bystanders], by simp⟩, by simp [State.eccWrite], by simp [State.eccWrite], by simp [State.eccWrite]⟩

theorem fetched (h : State.Inside e s u) : State.Inside e s (u.fetched e) := by
  have hdrawn {r : State} : State.Inside e r r.drawn := ⟨.of_clear ⟨rfl, rfl⟩, rfl, rfl, rfl⟩
  unfold State.fetched State.dmaStall
  exact (h.eccCorrect _ _ _).only (hdrawn.count _ _ _)

theorem dstore (h : State.Inside e s u) (a : Nat) (bs : List Byte) : State.Inside e s (u.dstore e a bs) := (h.onEngine _).eccWrite _ _ _ _

theorem flyStore (h : State.Inside e s u) : State.Inside e s (u.flyStore e) := by
  unfold State.flyStore
  split
  · exact h
  · exact ((h.onEngine _).dstore _ _).dstore _ _

theorem flyFlush (h : State.Inside e s u) : State.Inside e s (u.flyFlush e) := h.flyStore.flyStore

/-- An instruction that retires or jumps changes its engine alone. -/
theorem finish (h : State.Inside e s u) (f : Engine → Engine) : State.Inside e s (u.finish e f) := by
  have hlate {r : State} : State.Inside e r (r.flyLate e) := (refl r).only ((refl r).onEngine _)
  unfold State.finish
  exact ((ite ((h.onEngine _).trans hlate).flyFlush (h.onEngine _)).onEngine _).count _ _ _

theorem jumpTo (h : State.Inside e s u) (pc : Nat) (f : Engine → Engine) : State.Inside e s (u.jumpTo e pc f) := (h.onEngine _).count _ _ _

end State.Inside

/-- From `s` to `u` engine `e` alone changes, or it has faulted, which is reported. -/
structure State.Ends (e : Nat) (s u : State) : Prop where
  beside : State.Beside (fun _ => True) e s u
  kept : (u.engine e).st ≠ .error → u.mem = s.mem ∧ u.que = s.que ∧ u.twn = s.twn

namespace State.Ends

variable {e : Nat} {s u w : State}

theorem of_inside (h : State.Inside e s u) : State.Ends e s u := ⟨h.beside, fun _ => ⟨h.mem, h.que, h.twn⟩⟩

theorem after (h : State.Inside e s u) (h' : State.Ends e u w) : State.Ends e s w :=
  ⟨h.beside.trans h'.beside, fun hst => ⟨(h'.kept hst).1.trans h.mem, (h'.kept hst).2.1.trans h.que, (h'.kept hst).2.2.trans h.twn⟩⟩

theorem ite {c : Prop} {_ : Decidable c} {a b : State} (ha : State.Ends e s a) (hb : State.Ends e s b) : State.Ends e s (if c then a else b) := by
  split
  · exact ha
  · exact hb

/-- A fault stores the results that wait, stops the engine in ERROR and is reported. -/
theorem anvFault (s : State) (he : e < 8) (code : Nat) : State.Ends e s (s.anvFault e code) := by
  have hstop {r : State} (code : Nat) : State.Beside (fun _ => True) e r (r.engFault e code) :=
    (State.Beside.onEngine r _).trans (.of_clear ((State.Clear.refl _).fault _ _ _ _ _ _))
  refine ⟨(State.Inside.refl s).flyFlush.beside.trans (hstop code), fun hst => absurd ?_ hst⟩
  rw [State.anvFault, State.engFault_engine _ _ _ _ he, if_pos rfl]

theorem loading (s : State) (he : e < 8) (a n align : Nat) {f : Nat → State → State} (hf : ∀ v r, State.Ends e r (f v r)) :
    State.Ends e s (s.loading e a n align f) := by
  unfold State.loading
  exact ite (anvFault s he 2) (ite (anvFault s he 5) (after ((State.Inside.refl s).eccCorrect _ _ _) (hf _ _)))

theorem storing (s : State) (he : e < 8) (a align : Nat) {f : State → State} (hf : ∀ r, State.Ends e r (f r)) : State.Ends e s (s.storing e a align f) := by
  unfold State.storing
  exact ite (anvFault s he 2) (hf s)

end State.Ends

/-! ### What an instruction command can do -/

section Issue

variable {s u : State} {t e op : Nat} {q : Nat → Bool} {f : Nat → State → State}

/-- A command of an instruction leaves the state at its moment but for the time, or faults in the fetch, or has the instruction's effect on the fetched state. -/
theorem anv_cases (h : anv op q t e s f = .next u) : ∃ v, u = (s.begin t).carry v ∧
    (v = s.begin t ∨ (e < 8 ∧ (v = (s.begin t).anvFault e 5 ∨ ∃ w, v = f w ((s.begin t).fetched e)))) := by
  unfold anv clocked at h
  split at h
  · refine ⟨_, (Host.Outcome.next.inj h).symm, ?_⟩
    unfold State.only
    dsimp only
    split
    next hc =>
      have he : e < s.lanes := by simp only [Bool.and_eq_true, decide_eq_true_eq] at hc; exact hc.1
      have he8 := he.trans_le s.lanes_le
      split
      · split
        · split
          · exact .inr ⟨he8, .inl rfl⟩
          · exact .inr ⟨he8, .inr ⟨_, rfl⟩⟩
        · exact .inl rfl
      · exact .inl rfl
    · exact .inl rfl
  · exact ⟨s.begin t, by rw [State.carry_self]; exact (Host.Outcome.next.inj h).symm, .inl rfl⟩

/-- An instruction whose effect ends beside its engine does. -/
theorem anv_beside {p : Engine → Prop} (h : anv op q t e s f = .next u) (hf : e < 8 → ∀ w r, State.Beside p e r (f w r)) : State.Beside p e s u := by
  obtain ⟨v, rfl, hv⟩ := anv_cases h
  have hmoment : State.Beside p e (s.begin t) v → State.Beside p e s ((s.begin t).carry v) := fun hv => ⟨hv.rest, hv.others⟩
  obtain rfl | ⟨he, rfl | ⟨w, rfl⟩⟩ := hv
  · exact hmoment (.refl _)
  · exact hmoment (State.Ends.anvFault _ he 5).beside.weaken
  · exact hmoment ((State.Inside.refl _).fetched.beside.weaken.trans (hf he w _))

theorem anv_ends (h : anv op q t e s f = .next u) (hf : e < 8 → ∀ w r, State.Ends e r (f w r)) : State.Ends e s u := by
  obtain ⟨v, rfl, hv⟩ := anv_cases h
  have hmoment : State.Ends e (s.begin t) v → State.Ends e s ((s.begin t).carry v) := fun hv => ⟨⟨hv.beside.rest, hv.beside.others⟩, hv.kept⟩
  obtain rfl | ⟨he, rfl | ⟨w, rfl⟩⟩ := hv
  · exact hmoment (.of_inside (.refl _))
  · exact hmoment (.anvFault _ he 5)
  · exact hmoment (.after (State.Inside.refl _).fetched (hf he w _))

end Issue

end Sys2Proof.Machine

/-! PROOFS. Submissions, completions and shares leave the other engines, but for those that a POST holds (R338). -/

namespace Sys2Proof.Machine

/-! ### Submissions, completions and shares (R220 to R222, R338 to R342, R421) -/

namespace State.Clear

variable {s u : State}

theorem writeRecord (h : s.Clear u) (q : Nat) : s.Clear (u.writeRecord q) := (h.portWrite _ _ _ _).mirror _ _

theorem handIn (h : s.Clear u) (q : Nat) (p : Producer) (edge : Nat) (img : List Byte) : s.Clear (u.handIn q p edge img) :=
  ((h.onQueue _ _).portWrite _ _ _ _).mirror _ _

theorem countRefusal (h : s.Clear u) (r : Nat) : s.Clear (u.countRefusal r) := by
  unfold State.countRefusal
  exact ite (h.count _ _ _) (ite (h.count _ _ _) (ite (h.count _ _ _) (h.count _ _ _)))

theorem mirrorPayload (h : s.Clear u) (q : Nat) (img : List Byte) : s.Clear (u.mirrorPayload q img) := by
  unfold State.mirrorPayload
  dsimp only
  split
  · split
    · exact h.portRead _ _ _ _
    · exact (h.portRead _ _ _ _).mirror _ _
  · exact h

theorem take (h : s.Clear u) (q seq : Nat) : s.Clear (u.take q seq) := ((h.onQueue _ _).setFld _ _ _).writeRecord q

theorem done (h : s.Clear u) (q seq : Nat) : s.Clear (u.done q seq) :=
  only (f := fun r => r.writeRecord q) (h.onQueue q _) ((refl _).writeRecord q)

/-- A change of the twin link's own state. -/
theorem onTwn (h : s.Clear u) (x : Twin) : s.Clear { u with twn := x } := h.trans ⟨rfl, rfl⟩

theorem sendShare (h : s.Clear u) (n no : Nat) (eng : Bool) (a len : Nat) : s.Clear (u.sendShare n no eng a len) := by
  have hsegments {α : Type} (l : List α) {f : State → α → State} (hf : ∀ r x, State.Clear r (f r x)) (v : State) : State.Clear v (l.foldl f v) := by
    induction l generalizing v with
    | nil => exact refl v
    | cons x l ih => exact (hf v x).trans (ih _)
  have hread := h.portRead 8 false a len
  unfold State.sendShare
  exact ite (h.onTwn _) (ite hread (hread.trans (hsegments _ (fun r x => (refl r).belSend _ _) _)))

theorem shareReady (h : s.Clear u) (n : Nat) : s.Clear (u.shareReady n) := by
  unfold State.shareReady
  split
  · exact ite ((h.onTwn _).sendShare _ _ _ _ _) h
  · exact h

end State.Clear

theorem State.engine_onEngine_fixed (s : State) (k : Nat) (f : Engine → Engine) (h : f (s.engine k) = s.engine k) : (s.onEngine k f).engine k = s.engine k := by
  by_cases hk : k < 8
  · rw [State.engine_onEngine _ _ _ _ hk, if_pos rfl, h]
  · simp [State.onEngine, State.setEngine, State.engine, Vector.getD, Array.getD_eq_getD_getElem?, hk]

/-- An engine that no POST holds. -/
def Engine.unposted (x : Engine) : Prop := ∀ q rd, x.wait ≠ .post q rd

namespace State.Beside

variable {e : Nat} {s u : State}

/-- A submission turned away may end the POST of another engine. -/
theorem turnAway (s : State) (q : Nat) (p : Producer) (r : Nat) (img : List Byte) : State.Beside Engine.unposted e s (s.turnAway q p r img) := by
  have hcount {v : State} : State.Clear v (v.countRefusal r) := (State.Clear.refl v).countRefusal r
  cases p with
  | host =>
    have hdup (c : Prop) [Decidable c] (f : Fld) (k x : Nat) : State.Clear s (if c then s.setFld f k x else s) := State.Clear.ite ((State.Clear.refl s).setFld _ _ _) (.refl s)
    exact .of_clear ((((hdup _ _ _ _).setFld _ _ _).setFld _ _ _).countRefusal r)
  | engine k =>
    refine (State.Beside.of_clear hcount).trans ⟨rfl, fun j _ hj => ?_⟩
    by_cases hjk : j = k
    · subst hjk
      have hsame (w : Word) : ((s.countRefusal r).engine j).postResult w = (s.countRefusal r).engine j := by
        unfold Engine.postResult
        split
        next q rd hw => exact absurd hw (hj q rd)
        · rfl
      exact State.engine_onEngine_fixed _ j _ (hsame _)
    · exact State.engine_onEngine_ne _ hjk _
  | wick k => exact .of_clear (hcount.count _ _ _)
  | device =>
    have hreport : s.Clear { s with que := { s.que with reports := s.que.reports ++ [(q, img)] } } := ⟨rfl, rfl⟩
    exact .of_clear (hreport.countRefusal r)
  | mgmt port smac sip sport ctr =>
    have hturned : s.Clear { s with que := { s.que with turned := s.que.turned ++ [(.mgmt port smac sip sport ctr, r, (s.dupOf q img).getD 0)] } } := ⟨rfl, rfl⟩
    exact .of_clear (hturned.countRefusal r)

theorem enterRing (s : State) (q : Nat) (p : Producer) (img : List Byte) : State.Beside Engine.unposted e s (s.enterRing q p img) := by
  have hlate (l : List Inflight) (v : State) : State.Beside Engine.unposted e v (l.foldl (fun s f =>
      match s.checkSubmit q f.prod f.img with
      | none => s.handIn q f.prod f.edge f.img
      | some r => s.turnAway q f.prod r f.img) v) := by
    induction l generalizing v with
    | nil => exact .refl v
    | cons f l ih =>
      refine State.Beside.trans ?_ (ih _)
      dsimp only
      split
      · exact .of_clear ((State.Clear.refl v).handIn _ _ _ _)
      · exact turnAway v _ _ _ _
  unfold State.enterRing
  dsimp only
  split
  · exact .of_clear (((State.Clear.refl s).handIn _ _ _ _).writeRecord q)
  · have haside : State.Beside Engine.unposted e s ((s.setAside q p).handIn q p (s.now / pclk) img) :=
      .of_clear (((State.Clear.refl s).onQueue _ _).handIn _ _ _ _)
    exact (haside.trans (hlate _ _)).trans (.of_clear ((State.Clear.refl _).writeRecord q))

theorem finish (h : State.Beside Engine.unposted e s u) (f : Engine → Engine) : State.Beside Engine.unposted e s (u.finish e f) :=
  h.trans ((State.Inside.refl u).finish f).beside.weaken

/-- A POST may be refused, or its submission may overtake others and end their engines' POSTs. -/
theorem post (s : State) (q rd : Nat) (img : List Byte) : State.Beside Engine.unposted e s (s.post e q rd img) := by
  unfold State.post
  split
  · exact finish (.of_clear ((State.Clear.refl s).countRefusal _)) _
  · have haccept : State.Beside Engine.unposted e s (s.startAccept q (.engine e) img) :=
      (enterRing s q (.engine e) img).trans (.of_clear ((State.Clear.refl _).mirrorPayload q img))
    exact (haccept.trans (.onEngine _ _)).trans (.of_clear ((State.Clear.refl _).count _ _ _))

end State.Beside

end Sys2Proof.Machine

/-! PROOFS. Each kind of engine instruction ends beside its engine (R193, R203). -/

namespace Sys2Proof.Machine

/-! ### Each kind of engine instruction -/

/-- A load or a store whose address is wrong faults, which concerns its own engine only. -/
theorem loading_beside {p : Engine → Prop} {e : Nat} (s : State) (he : e < 8) (a n align : Nat) {f : Nat → State → State} (hf : ∀ v r, State.Beside p e r (f v r)) :
    State.Beside p e s (s.loading e a n align f) := by
  unfold State.loading
  split
  · exact (State.Ends.anvFault s he 2).beside.weaken
  · split
    · exact (State.Ends.anvFault s he 5).beside.weaken
    · exact ((State.Inside.refl s).eccCorrect _ _ _).beside.weaken.trans (hf _ _)

theorem storing_beside {p : Engine → Prop} {e : Nat} (s : State) (he : e < 8) (a align : Nat) {f : State → State} (hf : ∀ r, State.Beside p e r (f r)) :
    State.Beside p e s (s.storing e a align f) := by
  unfold State.storing
  split
  · exact (State.Ends.anvFault s he 2).beside.weaken
  · exact hf s

section Kinds

variable {s u : State} {t e : Nat}

theorem anvEng_ends {op fn : Nat} {f : Nat → Engine → Engine} (h : anvEng op fn t e s f = .next u) : State.Ends e s u :=
  anv_ends h (fun _ _ r => .of_inside ((State.Inside.refl r).finish _))

theorem ptrFile_ends {op : Nat} {f : Nat → Engine → Engine} (h : ptrFile op t e s f = .next u) : State.Ends e s u :=
  anv_ends h (fun _ _ r => .of_inside ((State.Inside.refl r).finish _))

/-- The families whose instructions compute in their engine and retire. -/
theorem salu_ends {fn : Nat} (h : salu fn t e s = .next u) : State.Ends e s u := anvEng_ends h

theorem salui_ends {fn : Nat} (h : salui fn t e s = .next u) : State.Ends e s u := anvEng_ends h

theorem vop_ends {op fn : Nat} {f : Nat → Vec → Vec → Nat → Nat → LaneOut} (h : vop op fn t e s f = .next u) : State.Ends e s u := anvEng_ends h

theorem vmac_ends {fn : Nat} {f : Engine → Nat → Vec → Vec → Engine} (h : vmac fn t e s f = .next u) : State.Ends e s u := anvEng_ends h

theorem cmul_ends {conj : Bool} {fn : Nat} (h : cmul conj fn t e s = .next u) : State.Ends e s u := vop_ends h

theorem cmac_ends {conj : Bool} {fn : Nat} (h : cmac conj fn t e s = .next u) : State.Ends e s u := anvEng_ends h

theorem vcmp_ends {fn : Nat} {f : Vec → Vec → Nat → Bool} (h : vcmp fn t e s f = .next u) : State.Ends e s u := anvEng_ends h

theorem kop_ends {fn : Nat} {f : BitVec 16 → BitVec 16 → BitVec 16} (h : kop fn t e s f = .next u) : State.Ends e s u := anvEng_ends h

/-- The two rows of a memory form. -/
theorem vmacm_ends {fn : Nat} {f : Engine → Nat → Vec → Vec → Engine} (h : vmacm fn t e s f = .next u) : State.Ends e s u :=
  anv_ends h (fun he _ r => .loading r he _ _ _ (fun _ r => .loading r he _ _ _ (fun _ r =>
    .of_inside (State.Inside.finish ((State.Inside.refl r).only ((State.Inside.refl r).count _ _ _)) _))))

theorem cbflym_ends {fn : Nat} {conj : Bool} (h : cbflym fn conj t e s = .next u) : State.Ends e s u := by
  refine anv_ends h (fun he _ r => .loading r he _ _ _ (fun _ r => .loading r he _ _ _ (fun _ r => .of_inside (State.Inside.finish ?_ _))))
  exact State.Inside.only (f := fun s => s.flyStore e) (State.Inside.only (f := fun s => s.count Fld.ANV_STALL_CNT e 1) (.refl r) ((State.Inside.refl r).count _ _ _))
    (State.Inside.refl _).flyStore

theorem branch_ends {fn : Nat} {cond : Word → Bool} (h : branch fn t e s cond = .next u) : State.Ends e s u :=
  anv_ends h (fun _ _ r => .of_inside (.ite ((State.Inside.refl r).jumpTo _ _) ((State.Inside.refl r).jumpTo _ _)))

theorem smem_ends {fn : Nat} {f : Nat → Nat → State → State} (h : smem fn t e s f = .next u) (hf : e < 8 → ∀ w a r, State.Ends e r (f w a r)) : State.Ends e s u :=
  anv_ends h (fun he _ r => hf he _ _ r)

theorem vmem_ends {op fn : Nat} {f : Nat → Nat → State → State} (h : vmem op fn t e s f = .next u) (hf : e < 8 → ∀ w a r, State.Ends e r (f w a r)) : State.Ends e s u :=
  anv_ends h (fun he _ r => hf he _ _ r)

theorem vst_ends (h : execVst t e s = .next u) : State.Ends e s u := by
  refine vmem_ends h (fun he w a r => .storing r he a 64 (fun r => .of_inside (State.Inside.finish ?_ _)))
  exact State.each_rel (State.Inside e) .refl (fun _ _ _ => .trans) _ (fun j r => (State.Inside.refl r).dstore _ _) _ r

theorem repeat_ends (he : e < 8) (n : Nat) : State.Ends e s (s.repeat e n) := by
  unfold State.repeat
  exact .ite (.anvFault s he 3) (.of_inside (((State.Inside.refl s).onEngine _).count _ _ _))

/-- A channel that is waited for or started, and the ticks of the wait. -/
theorem State.Inside.chanWait (h : State.Inside e s u) : State.Inside e s (u.chanWait e) := h.onEngine _

theorem State.Inside.dmaStart (h : State.Inside e s u) (c : Nat) (d : Dma) : State.Inside e s (u.dmaStart e c d) := by
  unfold State.dmaStart
  split
  · exact h.onEngine _
  · exact h.onEngine _

theorem dmast_ends (h : execDmast t e s = .next u) : State.Ends e s u := by
  refine anv_ends h (fun he w r => .ite (.anvFault r he 4) (.ite (.of_inside (State.Inside.refl r).chanWait) (.loading r he _ _ _ (fun _ r => .of_inside ?_))))
  exact (((State.Inside.refl r).dmaStart (wC w) _).count _ _ _).finish id

/-- A word that is no instruction faults, or the double-bit error of its fetch does. -/
theorem illegalInstruction_ends (h : execIllegalInstruction t e s = .next u) : State.Ends e s u := by
  unfold execIllegalInstruction clocked at h
  split at h
  · obtain rfl := Host.Outcome.next.inj h
    have hmoment {v : State} (hv : State.Ends e (s.begin t) v) : State.Ends e s ((s.begin t).carry v) := ⟨⟨hv.beside.rest, hv.beside.others⟩, hv.kept⟩
    refine hmoment ?_
    unfold State.only
    dsimp only
    split
    next hc =>
      have he : e < s.lanes := by simp only [Bool.and_eq_true, decide_eq_true_eq] at hc; exact hc.1.1
      exact .ite (.anvFault _ (he.trans_le s.lanes_le) 5) (.after ((State.Inside.refl _).eccCorrect _ _ _) (.anvFault _ (he.trans_le s.lanes_le) 1))
    · exact .of_inside (.refl _)
  · obtain rfl := Host.Outcome.next.inj h
    exact .of_inside ⟨⟨rfl, fun _ _ _ => rfl⟩, rfl, rfl, rfl⟩

end Kinds

end Sys2Proof.Machine

/-! PROOFS. What no instruction of an engine changes (O25). -/

namespace Sys2Proof.Machine

/-! ### What no instruction of an engine changes (O25) -/

section Frame

variable {s u : State} {t e : Nat} {c : Instr}

/-- But for the queue instructions and SWR, an engine's instruction changes its engine alone or faults. -/
theorem anvil_ends (hc : c.anvil = some (t, e)) (hpost : c ≠ .post t e) (htake : c ≠ .take t e) (hdone : c ≠ .done t e) (hswr : c ≠ .swr t e)
    (h : exec c s = .next u) : State.Ends e s u := by
  cases c
  all_goals dsimp only [exec] at h
  case add | sub | and | or | xor | shl | shr | sar | min | max | minu | maxu | mul | mulh | slt | sltu | cls | clz => cases hc; exact salu_ends h
  case addi | subi | andi | ori | xori | shli | shri | sari | mini | maxi | minui | maxui | muli | mulhi | slti | sltui | clsi | clzi => cases hc; exact salui_ends h
  case pset | pseti | pget => cases hc; exact ptrFile_ends h
  case vadd | vsub | vaddh | vsubh | vand | vor | vxor | vmin | vmax | vminh | vmaxh | vabs | vabsh | vshl | vsar | vsarh | vmov | vswaph | vmulh | vmulw | vmuli
      | cmag2 | cconj => cases hc; exact vop_ends h
  case vmac2 | vmsu2 | vmul2 | vmacp | vmsup | vmulp => cases hc; exact vmac_ends h
  case cmul | cmulc => cases hc; exact cmul_ends h
  case cmac | cmacc => cases hc; exact cmac_ends h
  case vcmpeq | vcmpne | vcmplt | vcmple | vcmpgt | vcmpge | vtinv => cases hc; exact vcmp_ends h
  case kand | kor | kxor | kandn | knot => cases hc; exact kop_ends h
  case pmod | pstep | vbcst | vbcsth | vsel | vext | vmulhb | aclr | amov | aadd | vpack | vnarw | ared | cmag2a | kfrom | kto | kpop | nop | halt | bxadv => cases hc; exact anvEng_ends h
  case vmac2Mem | vmsu2Mem | vmul2Mem | vmacpMem | vmsupMem | vmulpMem =>
    cases hc
    exact vmacm_ends h
  case cbflym | cbflymc =>
    cases hc
    exact cbflym_ends h
  case beqz | bnez | bltz | bgez =>
    cases hc
    exact branch_ends h
  case jmp | call | jr | dbnz =>
    cases hc
    exact anv_ends h (fun _ _ r => .of_inside ((State.Inside.refl r).jumpTo _ _))
  case sld | sldh =>
    cases hc
    exact smem_ends h (fun he _ _ r => .loading r he _ _ _ (fun _ r => .of_inside ((State.Inside.refl r).finish _)))
  case sst | ssth =>
    cases hc
    exact smem_ends h (fun he _ _ r => .storing r he _ _ (fun r => .of_inside (((State.Inside.refl r).dstore _ _).finish _)))
  case vld | vldbH | vldbW =>
    cases hc
    exact vmem_ends h (fun he _ _ r => .loading r he _ _ _ (fun _ r => .of_inside ((State.Inside.refl r).finish _)))
  case vst => cases hc; exact vst_ends h
  case dmast => cases hc; exact dmast_ends h
  case dmawt =>
    cases hc
    exact anv_ends h (fun _ _ r => .ite (.of_inside (State.Inside.refl r).chanWait) (.of_inside ((State.Inside.refl r).finish _)))
  case dmard | srd =>
    cases hc
    exact anv_ends h (fun _ _ r => .of_inside ((State.Inside.refl r).finish _))
  case rep => cases hc; exact anv_ends h (fun he _ _ => repeat_ends he _)
  case repReg =>
    cases hc
    exact anv_ends h (fun he _ r => .ite (.anvFault r he 1) (repeat_ends he _))
  case wait =>
    cases hc
    exact anv_ends h (fun _ _ r => .of_inside (((State.Inside.refl r).onEngine _).count _ _ _))
  case illegalInstruction => cases hc; exact illegalInstruction_ends h
  case post => cases hc; exact absurd rfl hpost
  case take => cases hc; exact absurd rfl htake
  case done => cases hc; exact absurd rfl hdone
  case swr => cases hc; exact absurd rfl hswr
  all_goals cases hc

/-- Of the queue instructions, POST concerns its own engine and those that a POST holds. -/
theorem post_beside (h : execPost t e s = .next u) : State.Beside Engine.unposted e s u := by
  refine anv_beside h (fun he w r => ?_)
  dsimp only
  split
  · exact (State.Inside.refl r).chanWait.beside.weaken
  · exact loading_beside r he _ _ _ (fun _ r => .post r _ _ _)

/-- TAKE and DONE concern their own queue and engine. -/
theorem take_beside (h : execTake t e s = .next u) : State.Beside (fun _ => True) e s u := by
  refine anv_beside h (fun he w r => storing_beside r he _ _ (fun r => ?_))
  split
  next d _ => exact (State.Beside.of_clear ((State.Clear.refl r).take e d.seq)).trans ((State.Inside.refl _).dstore _ _ |>.finish _).beside
  · exact ((State.Inside.refl r).finish _).beside

theorem done_beside (h : execDone t e s = .next u) : State.Beside (fun _ => True) e s u := by
  refine anv_beside h (fun he w r => ?_)
  dsimp only
  split
  · exact (State.Beside.of_clear ((State.Clear.refl r).done e _)).trans ((State.Inside.refl _).finish _).beside
  · exact ((State.Inside.refl r).finish _).beside

/-- A checkpoint's SWR may send the lane's share. -/
theorem swr_beside (h : execSwr t e s = .next u) : State.Beside (fun _ => True) e s u := by
  refine anv_beside h (fun he w r => ?_)
  dsimp only
  split
  next n _ => exact ((State.Inside.refl r).finish _).beside.trans (.of_clear ((State.Clear.refl _).shareReady n))
  · exact ((State.Inside.refl r).finish _).beside

/-- The engines that an instruction leaves as they were: the others, but for those that a POST holds while one overtakes it (R338). -/
theorem anvil_rest (hc : c.anvil = some (t, e)) (h : exec c s = .next u) :
    u.bystanders = s.bystanders ∧ ∀ k, k ≠ e → (c ≠ .post t e ∨ (s.engine k).unposted) → u.engine k = s.engine k := by
  have hrest {v : State} (hv : State.Beside (fun _ => True) e s v) :
      v.bystanders = s.bystanders ∧ ∀ k, k ≠ e → (c ≠ .post t e ∨ (s.engine k).unposted) → v.engine k = s.engine k :=
    ⟨hv.rest, fun k hk _ => hv.others k hk trivial⟩
  by_cases hpost : c = .post t e
  · have hp := post_beside (t := t) (e := e) (s := s) (u := u) (by subst hpost; exact h)
    exact ⟨hp.rest, fun k hk hun => hp.others k hk (hun.resolve_left (not_not_intro hpost))⟩
  · by_cases htake : c = .take t e
    · exact hrest (take_beside (t := t) (by subst htake; exact h))
    · by_cases hdone : c = .done t e
      · exact hrest (done_beside (t := t) (by subst hdone; exact h))
      · by_cases hswr : c = .swr t e
        · exact hrest (swr_beside (t := t) (by subst hswr; exact h))
        · exact hrest (anvil_ends hc hpost htake hdone hswr h).beside

end Frame

/-- Settles O25: an instruction's effect ends beside its engine, and within it unless it faults or is one of the four that hand something over. -/
theorem engineInstructionFrame : Obligations.EngineInstructionFrame := by
  intro c s u t e hc h
  obtain ⟨hrest, hothers⟩ := anvil_rest hc h
  simp only [State.bystanders, Prod.mk.injEq] at hrest
  obtain ⟨hlan, hwck, horx, hhsc, hddc, hphx, haux, hpwr, hnet, htach, hcru, hptp, hboot, htx, hresp⟩ := hrest
  exact ⟨hlan, hwck, horx, hhsc, hddc, hphx, haux, hpwr, hnet, htach, hcru, hptp, hboot, htx, hresp, hothers,
    fun hpost htake hdone hswr => (anvil_ends hc hpost htake hdone hswr h).kept⟩

end Sys2Proof.Machine

/-! PROOFS. The canonical form of the memories: what writes them, and the engines' operations (O58). -/

namespace Sys2Proof.Machine

/-! ### The canonical form of the memories (R194, R267, R304) -/

/-- An engine's memories are canonical. -/
structure Engine.Formed (x : Engine) : Prop where
  imem : swf 0 x.imem = true
  dmem : swf 0 x.dmem = true

/-- A sequencer's program is canonical. -/
structure Wick.Formed (w : Wick) : Prop where
  prog : swf 0 w.prog = true

/-- Memory, the engines' memories and the sequencers' programs are canonical. -/
structure State.Formed (s : State) : Prop where
  mem : Memory.wf s.mem = true
  eng : ∀ x ∈ s.eng, x.Formed
  wck : ∀ w ∈ s.wck, w.Formed

theorem State.formed_iff (s : State) : s.Formed ↔ s.wf = true := by
  simp only [State.wf, Bool.and_eq_true, Vector.all_eq_true_iff_forall_mem]
  exact ⟨fun h => ⟨⟨h.mem, fun x hx => ⟨(h.eng x hx).imem, (h.eng x hx).dmem⟩⟩, fun w hw => (h.wck w hw).prog⟩,
    fun ⟨⟨hm, he⟩, hw⟩ => ⟨hm, fun x hx => ⟨(he x hx).1, (he x hx).2⟩, fun w hx => ⟨hw w hx⟩⟩⟩

theorem forall_mem_setIfInBounds {α : Type} {n i : Nat} {v : Vector α n} {x : α} {p : α → Prop} (h : ∀ y ∈ v, p y) (hx : p x) :
    ∀ y ∈ v.setIfInBounds i x, p y := by
  intro y hy
  obtain hy | rfl := Array.mem_or_eq_of_mem_setIfInBounds hy.val
  · exact h y ⟨hy⟩
  · exact hx

/-- The state that the outcome leaves, if it leaves one, is formed. -/
def Lands (o : Out) : Prop := ∀ u, o = .next u → u.Formed

namespace Engine.Formed

variable {x y : Engine}

/-- A change beside the memories. -/
theorem same (h : x.Formed) (hi : y.imem = x.imem) (hd : y.dmem = x.dmem) : y.Formed := ⟨hi ▸ h.imem, hd ▸ h.dmem⟩

theorem ite {c : Prop} {_ : Decidable c} {a b : Engine} (ha : a.Formed) (hb : b.Formed) : (if c then a else b).Formed := by
  split
  · exact ha
  · exact hb

theorem getD_map {α : Type} {o : Option α} {f : α → Engine} (h : x.Formed) (hf : ∀ a, (f a).Formed) : ((o.map f).getD x).Formed := by
  cases o with
  | none => exact h
  | some a => exact hf a

theorem reset {e : Nat} : (Engine.reset e).Formed := ⟨rfl, rfl⟩

theorem store {a : Nat} {bs : List Byte} (h : x.Formed) :
    (x.store a bs).Formed := ⟨by rw [Engine.store_imem]; exact h.imem, Engine.store_wf x a bs h.dmem⟩

theorem putImem {k : Nat} {v : Word} (h : x.Formed) :
    Engine.Formed { x with imem := sput 0 x.imem k v } := ⟨swf_sput _ _ _ _ h.imem, h.dmem⟩

theorem foldl {α : Type} (h : x.Formed) {l : List α} {f : Engine → α → Engine} (hf : ∀ (r : Engine) (a : α), r.Formed → (f r a).Formed) :
    (l.foldl f x).Formed := by
  induction l generalizing x with
  | nil => exact h
  | cons a l ih => exact ih (hf x a h)

theorem markSet {d mask : Nat} (h : x.Formed) : (x.markSet d mask).Formed := h.same rfl rfl

theorem setS {i : Nat} {w : Word} (h : x.Formed) : (x.setS i w).Formed := ite h (h.same rfl rfl)

theorem boundary {pc : Nat} (h : x.Formed) : (x.boundary pc).Formed := ite (h.same rfl rfl) (h.same rfl rfl)

theorem tryWait (h : x.Formed) : (x.tryWait).Formed := by
  unfold Engine.tryWait
  split
  · split
    · exact .boundary (.setS (h.same rfl rfl))
    · exact h
  · exact h

theorem raise {i : Nat} (h : x.Formed) : (x.raise i).Formed := .tryWait (h.same rfl rfl)

theorem postResult {r : Word} (h : x.Formed) : (x.postResult r).Formed := by
  unfold Engine.postResult
  split
  · exact h.setS.boundary
  · exact h

theorem onDma {c : Nat} {f : Dma → Dma} (h : x.Formed) : (x.onDma c f).Formed := h.same rfl rfl

theorem bump {k : Nat} {step : Word} (h : x.Formed) : (x.bump k step).Formed := h.same rfl rfl

theorem postMod {u : Bool} {k : Nat} (h : x.Formed) : (x.postMod u k).Formed := ite h.bump h

theorem setPtr {kind k : Nat} {w : Word} (h : x.Formed) : (x.setPtr kind k w).Formed := by
  unfold Engine.setPtr
  split
  · exact h.same rfl rfl
  · exact h.same rfl rfl
  · exact h.same rfl rfl
  · exact h.same rfl rfl
  · exact h.same rfl rfl

theorem setK {i : Nat} {b : BitVec 16} (h : x.Formed) : (x.setK i b).Formed := h.same rfl rfl

theorem lowerHead {h' : Nat} (h : x.Formed) : (x.lowerHead h').Formed := h.same rfl rfl

theorem setLanes {w : Nat} {f : Nat → LaneOut} (h : x.Formed) :
    (x.setLanes w f).Formed := ite (.lowerHead (h.same rfl rfl)) (h.same rfl rfl)

theorem accFlags {x' : List (Nat × Nat)} (h : x.Formed) : (x.accFlags x').Formed := by
  unfold Engine.accFlags
  split
  · exact h
  · exact ite (h.same rfl rfl) (h.same rfl rfl)

theorem setAccs {w : Nat} {accs : List Nat} {f : Nat → Nat → Int} (h : x.Formed) :
    (x.setAccs w accs f).Formed := .accFlags (h.foldl (fun _ _ hr => hr.same rfl rfl))

theorem clearAov (h : x.Formed) : (x.clearAov).Formed := h.same rfl rfl

theorem clearAstat {w : Word} (h : x.Formed) : (x.clearAstat w).Formed := (ite h.clearAov h).same rfl rfl

theorem stored {d : Nat} (h : x.Formed) : (x.stored d).Formed := ite (h.same rfl rfl) h

theorem stamped {d : Nat} (h : x.Formed) : (x.stamped d).Formed := h.stored.same rfl rfl

theorem hostAstat {d : Nat} {w : Word} (h : x.Formed) : (x.hostAstat d w).Formed := by
  unfold Engine.hostAstat
  dsimp only
  split
  · exact ite (h.clearAstat.same rfl rfl) h.clearAstat
  · exact h.clearAstat

theorem retire (h : x.Formed) : (x.retire).Formed := by
  unfold Engine.retire
  split
  · exact h.boundary
  · exact ite (.boundary (h.same rfl rfl)) (h.same rfl rfl)

theorem dotMac {w : Nat} {keep : Int} {a b : Vec} (h : x.Formed) : (x.dotMac w keep a b).Formed := h.setAccs

theorem pairMac {w : Nat} {keep : Int} {a b : Vec} (h : x.Formed) : (x.pairMac w keep a b).Formed := h.setAccs

theorem butterfly {w : Nat} {conj : Bool} {ta ba : Nat} {a b : Vec} (h : x.Formed) :
    (x.butterfly w conj ta ba a b).Formed := .setS (.postMod (.postMod (h.same rfl rfl)))

end Engine.Formed

theorem Wick.Formed.reset : Wick.reset.Formed := ⟨rfl⟩

theorem Wick.Formed.same {w v : Wick} (h : w.Formed) (hp : v.prog = w.prog) : v.Formed := ⟨hp ▸ h.prog⟩

theorem Wick.Formed.ite {c : Prop} {_ : Decidable c} {a b : Wick} (ha : a.Formed) (hb : b.Formed) : (if c then a else b).Formed := by
  split
  · exact ha
  · exact hb

namespace State.Formed

variable {s u : State}

/-- A change beside these memories. -/
theorem same (h : s.Formed) (hm : u.mem = s.mem) (he : u.eng = s.eng) (hw : u.wck = s.wck) : u.Formed :=
  ⟨hm ▸ h.mem, he ▸ h.eng, hw ▸ h.wck⟩

/-- A state that has these memories, whatever else is put in. -/
theorem beside {now : Nat} {pending : List Instr} {fixed : Fixed} {regs : Regs} {sys : Sys} {boot : Boot} {que : Que}
    {pwr : Pwr} {tach : Vector Tach 8} {lan : Lantern} {orx : Orx} {hsc : Hsc} {ptp : Ptp} {ddc : Ddc}
    {phx : Vector PhxLane 8} {twn : Twin} {aux : Aux} {memc : MemCtl} {cru : Cru} {net : Net} {tx : List TxFrame}
    {resp : List Byte} {free : Nat}
    (h : s.Formed) :
    (State.mk now pending fixed regs sys boot s.mem que pwr s.eng tach lan s.wck
      orx hsc ptp ddc phx twn aux memc cru net tx resp free).Formed :=
  ⟨h.mem, h.eng, h.wck⟩

/-! ### Choices and repetitions -/

theorem ite {c : Prop} {_ : Decidable c} {a b : State} (ha : a.Formed) (hb : b.Formed) : (if c then a else b).Formed := by
  split
  · exact ha
  · exact hb

theorem ite_fst {α : Type} {c : Prop} {_ : Decidable c} {a b : State × α} (ha : a.1.Formed) (hb : b.1.Formed) :
    (if c then a else b).1.Formed := by
  split
  · exact ha
  · exact hb

theorem pair {α : Type} {x : α} (h : s.Formed) : (s, x).1.Formed := h

theorem getD_map {α : Type} {o : Option α} {f : α → State} (h : s.Formed) (hf : ∀ a, (f a).Formed) : ((o.map f).getD s).Formed := by
  cases o with
  | none => exact h
  | some a => exact hf a

theorem only {c : Bool} {f : State → State} (h : s.Formed) (hf : ∀ r : State, r.Formed → (f r).Formed) : (s.only c f).Formed := by
  cases c
  · exact h
  · exact hf s h

theorem foldl {α : Type} {l : List α} {f : State → α → State} (h : s.Formed) (hf : ∀ (r : State) (x : α), r.Formed → (f r x).Formed) :
    (l.foldl f s).Formed := by
  induction l generalizing s with
  | nil => exact h
  | cons x l ih => exact ih (hf s x h)

/-- A repetition that collects something beside the state. -/
theorem foldl_fst {α β : Type} {l : List α} {a : State × β} {f : State × β → α → State × β} (h : a.1.Formed)
    (hf : ∀ (a : State × β) (x : α), a.1.Formed → (f a x).1.Formed) : (l.foldl f a).1.Formed := by
  induction l generalizing a with
  | nil => exact h
  | cons x l ih => exact ih (hf a x h)

theorem each {us : List Nat} {f : Nat → State → State} (h : s.Formed) (hf : ∀ (n : Nat) (r : State), r.Formed → (f n r).Formed) :
    (s.each us f).Formed :=
  h.foldl (fun r n hr => hf n r hr)

/-! ### Outcomes -/

theorem lands_next (h : s.Formed) : Lands (.next s) := fun _ hu => Host.Outcome.next.inj hu ▸ h

theorem lands_ite {c : Prop} {_ : Decidable c} {a b : Out} (ha : Lands a) (hb : Lands b) : Lands (if c then a else b) := by
  split
  · exact ha
  · exact hb

/-! ### What writes these memories -/

theorem reset : State.reset.Formed := by
  refine ⟨rfl, fun x hx => ?_, fun w hw => ?_⟩
  · simp only [State.reset, Vector.mem_mk, List.mem_toArray, List.mem_cons, List.not_mem_nil, or_false] at hx
    obtain rfl | rfl | rfl | rfl | rfl | rfl | rfl | rfl := hx <;> exact .reset
  · obtain ⟨-, rfl⟩ := Vector.mem_replicate.mp hw
    exact .reset

theorem writeByte {a : Nat} {b : Byte} (h : s.Formed) : (s.writeByte a b).Formed := by
  unfold State.writeByte
  exact ite ⟨swf_sput _ _ _ _ h.mem, h.eng, h.wck⟩ h

theorem storeBytes {a : Nat} {bs : List Byte} (h : s.Formed) : (s.storeBytes a bs).Formed := by
  induction bs generalizing s a with
  | nil => exact h
  | cons b bs ih => exact ih h.writeByte

theorem engine {e : Nat} (h : s.Formed) : (s.engine e).Formed := by
  by_cases he : e < 8
  · have hget : s.engine e = s.eng[e] := by simp [State.engine, Vector.getD, he]
    exact hget ▸ h.eng _ (Vector.getElem_mem he)
  · have hget : s.engine e = Engine.reset e := by simp [State.engine, Vector.getD, he]
    exact hget ▸ .reset

theorem setEngine {e : Nat} {x : Engine} (h : s.Formed) (hx : x.Formed) : (s.setEngine e x).Formed :=
  ⟨h.mem, forall_mem_setIfInBounds h.eng hx, h.wck⟩

theorem onEngine {e : Nat} {f : Engine → Engine} (h : s.Formed) (hf : ∀ x : Engine, x.Formed → (f x).Formed) : (s.onEngine e f).Formed :=
  h.setEngine (hf _ h.engine)

theorem wick {n : Nat} (h : s.Formed) : (s.wick n).Formed := by
  by_cases hn : n < 8
  · have hget : s.wick n = s.wck[n] := by simp [State.wick, Vector.getD, hn]
    exact hget ▸ h.wck _ (Vector.getElem_mem hn)
  · have hget : s.wick n = Wick.reset := by simp [State.wick, Vector.getD, hn]
    exact hget ▸ .reset

theorem onWick {n : Nat} {f : Wick → Wick} (h : s.Formed) (hf : ∀ w : Wick, w.Formed → (f w).Formed) : (s.onWick n f).Formed :=
  ⟨h.mem, h.eng, forall_mem_setIfInBounds h.wck (hf _ h.wick)⟩

end State.Formed
end Sys2Proof.Machine

/-! PROOFS. The memories keep their form (O58): queues and reports. -/

namespace Sys2Proof.Machine

namespace State.Formed

variable {s : State}

/-! ### The named operations -/

theorem begin {t : Nat} (h : s.Formed) : (s.begin t).Formed := h.beside

theorem carry {s0 : State} (h : s.Formed) : (s0.carry s).Formed := h.beside

theorem clocked {t : Nat} {f : State → State} (h : s.Formed) (hf : ∀ r : State, r.Formed → (f r).Formed) :
    Lands (Machine.clocked t s f) := by
  unfold Machine.clocked
  exact lands_ite (lands_next (.carry (hf _ h.begin))) (lands_next h.begin)

theorem ticking {t : Nat} {f : State → State} (h : s.Formed) (hf : ∀ r : State, r.Formed → (f r).Formed) :
    Lands (Machine.ticking t s f) := by
  unfold Machine.ticking
  exact lands_ite (lands_next (.carry (hf _ h.begin))) (lands_next h.begin)

theorem always {t : Nat} {f : State → State} (h : s.Formed) (hf : ∀ r : State, r.Formed → (f r).Formed) :
    Lands (Machine.always t s f) := lands_next (.carry (hf _ h.begin))

theorem setLive {k : Nat} {w : Word} (h : s.Formed) : (s.setLive k w).Formed := h.beside

theorem setStaged {a : Nat} {w : Word} (h : s.Formed) : (s.setStaged a w).Formed := h.beside

theorem setPend {a : Nat} {w : Word} (h : s.Formed) : (s.setPend a w).Formed := h.beside

theorem setFld {f : Fld} {u v : Nat} (h : s.Formed) : (s.setFld f u v).Formed := h.setLive

theorem setFlag {f : Fld} {u : Nat} {b : Bool} (h : s.Formed) : (s.setFlag f u b).Formed := h.setFld

theorem setLaneBit {f : Fld} {i : Nat} {b : Bool} (h : s.Formed) : (s.setLaneBit f i b).Formed := h.setFld

theorem count {f : Fld} {u k : Nat} (h : s.Formed) : (s.count f u k).Formed := h.setFld

theorem setOnEdge {a mask : Nat} (h : s.Formed) : (s.setOnEdge a mask).Formed := h.beside

theorem hwSet {f : Fld} {u : Nat} (h : s.Formed) : (s.hwSet f u).Formed := h.setFlag.setOnEdge

theorem drawn (h : s.Formed) : s.drawn.Formed := h.beside

theorem eccClear {target key n : Nat} (h : s.Formed) : (s.eccClear target key n).Formed := h.beside

theorem eccStrike {target base key n : Nat} (h : s.Formed) : (s.eccStrike target base key n).Formed := by
  unfold State.eccStrike
  split
  · exact ite h.beside h
  · exact h

theorem eccOver {target a n : Nat} {f : Fld} (h : s.Formed) : (s.eccOver target a n f).Formed := by
  unfold State.eccOver
  extract_lets _ _ s1 edge
  have hedge : ∀ (r : State) (x1 : Nat), r.Formed → (edge r x1).Formed := fun _ _ hr => ite hr.eccClear.count hr
  exact hedge _ _ (hedge _ _ (ite h.eccClear h))

theorem eccWrite {target base key n : Nat} (h : s.Formed) : (s.eccWrite target base key n).Formed := h.eccOver.eccStrike

theorem eccCorrect {target key n : Nat} (h : s.Formed) : (s.eccCorrect target key n).Formed := ite h.eccClear.count h

theorem dramWritten {a n : Nat} (h : s.Formed) : (s.dramWritten a n).Formed := ite h h.eccOver.eccStrike

theorem writeBytes {a : Nat} {bs : List Byte} (h : s.Formed) : (s.writeBytes a bs).Formed := ite h h.storeBytes.dramWritten

theorem onQueue {q : Nat} {f : Queue → Queue} (h : s.Formed) : (s.onQueue q f).Formed := h.beside

/-! ### Ports of the memory controller -/

theorem onChan {c : Nat} {f : MemChan → MemChan} (h : s.Formed) : (s.onChan c f).Formed := h.beside

theorem burst {p : Nat} (h : s.Formed) : (s.burst p).Formed := h.beside.count

theorem srExit {c at_ now : Nat} (h : s.Formed) : (s.srExit c at_ now).Formed := by
  unfold State.srExit
  exact h.onChan

theorem srArrival {c now : Nat} (h : s.Formed) : (s.srArrival c now).Formed := by
  unfold State.srArrival
  split
  · exact h
  · exact ite h.onChan.count (h.srExit.only (fun _ hr => hr.count))

theorem access {p : Nat} {ap write : Bool} {a : Nat} (h : s.Formed) : (s.access p ap write a).Formed := by
  unfold State.access
  exact h.srArrival.onChan

theorem served {p : Nat} {ap write : Bool} {a : Nat} (h : s.Formed) : (s.served p ap write a).Formed := h.access.burst

theorem traffic {p : Nat} {ap write : Bool} {a n : Nat} (h : s.Formed) :
    (s.traffic p ap write a n).Formed := h.each (fun _ _ hr => hr.served)

theorem backOff {a n : Nat} (h : s.Formed) : (s.backOff a n).Formed := h.beside

theorem portWrite {p : Nat} {ap : Bool} {a : Nat} {bs : List Byte} (h : s.Formed) :
    (s.portWrite p ap a bs).Formed := ite h.traffic.backOff.writeBytes h.beside

/-! ### Work queues -/

theorem belSend {kind : Nat} {body : List Byte} (h : s.Formed) : (s.belSend kind body).Formed := ite h.beside.drawn h

theorem mirror {a : Nat} {bs : List Byte} (h : s.Formed) : (s.mirror a bs).Formed := ite (h.foldl (fun _ _ hr => hr.belSend)) h

theorem countRefusal {r : Nat} (h : s.Formed) : (s.countRefusal r).Formed := ite h.count (ite h.count (ite h.count h.count))

theorem writeRecord {q : Nat} (h : s.Formed) : (s.writeRecord q).Formed := h.portWrite.mirror

theorem handIn {q : Nat} {p : Producer} {edge : Nat} {img : List Byte} (h : s.Formed) :
    (s.handIn q p edge img).Formed := h.onQueue.portWrite.mirror

theorem setAside {q : Nat} {p : Producer} (h : s.Formed) : (s.setAside q p).Formed := h.onQueue

theorem hostRefused {q r : Nat} {img : List Byte} (h : s.Formed) :
    (s.hostRefused q r img).Formed := (ite h.setFld h).setFld.setFlag.countRefusal

theorem turnAway {q : Nat} {p : Producer} {r : Nat} {img : List Byte} (h : s.Formed) : (s.turnAway q p r img).Formed := by
  unfold State.turnAway
  split
  · exact h.hostRefused
  · exact h.countRefusal.onEngine (fun _ hr => hr.postResult)
  · exact h.countRefusal.count
  · exact h.beside.countRefusal
  · exact h.beside.countRefusal

theorem ringIn {q : Nat} {p : Producer} {img : List Byte} (h : s.Formed) : (s.ringIn q p img).Formed := h.handIn.writeRecord

theorem enterRing {q : Nat} {p : Producer} {img : List Byte} (h : s.Formed) : (s.enterRing q p img).Formed := by
  unfold State.enterRing
  refine ite h.ringIn (.writeRecord (h.setAside.handIn.foldl (fun _ _ hr => ?_)))
  split
  · exact hr.handIn
  · exact hr.turnAway

theorem setOverQuota {q : Nat} (h : s.Formed) : (s.setOverQuota q).Formed := ite h.setFlag h

theorem take {q seq : Nat} (h : s.Formed) : (s.take q seq).Formed := h.onQueue.setFld.writeRecord

theorem done {q seq : Nat} (h : s.Formed) : (s.done q seq).Formed := h.onQueue.only (fun _ hr => hr.writeRecord)

theorem mailboxTake (h : s.Formed) : s.mailboxTake.Formed := by
  unfold State.mailboxTake
  refine ite ?_ h
  split
  · exact h.take
  · exact h

theorem rewriteImage {q : Nat} {f : Inflight} (h : s.Formed) : (s.rewriteImage q f).Formed := h.only (fun _ hr => hr.portWrite.mirror)

theorem slotWrite {q k : Nat} {img : List Byte} (h : s.Formed) : (s.slotWrite q k img).1.Formed := by
  unfold State.slotWrite
  dsimp only
  split
  · exact ite_fst (ite_fst h.beside.drawn.drawn h.beside) h
  · exact h

theorem accept {q : Nat} (h : s.Formed) : (s.accept q).Formed := by
  unfold State.accept
  split
  · exact h
  · extract_lets _ _ _ _ w _ s1 s2 s3 s4
    have hs2 : s2.Formed := h.rewriteImage.slotWrite.onQueue.setFld.setFld.setFld.count
    have hs4 : s4.Formed := by
      unfold s4
      split
      · exact (ite hs2.count.setFlag hs2).setFld.setFlag
      · exact (ite hs2.count.setFlag hs2).onEngine (fun _ hr => hr.postResult)
      · exact ite hs2.count.setFlag hs2
    exact ((ite (hs4.onEngine (fun _ hr => hr.raise)) hs4).only (fun _ hr => hr.done)).only (fun _ hr => hr.mailboxTake)

theorem devicePost {q : Nat} {p : Producer} {img : List Byte} (h : s.Formed) : (s.devicePost q p img).1.Formed := by
  unfold State.devicePost
  split
  · exact h.enterRing
  · exact h.countRefusal

theorem report {q : Nat} {img : List Byte} (h : s.Formed) : (s.report q img).Formed := by
  unfold State.report
  dsimp only
  split
  · exact h.ringIn
  · refine ite (.beside ?_) (.count ?_)
    · split
      · exact h.countRefusal
      · exact h
    · split
      · exact h.countRefusal
      · exact h

theorem retryReports (h : s.Formed) : s.retryReports.Formed := by
  unfold State.retryReports
  refine ite h ?_
  extract_lets r
  have hr : r.1.Formed := foldl_fst h (fun _ _ hr => ite_fst hr (ite_fst hr.ringIn hr))
  exact hr.beside

theorem fault {win unit off value detail kind : Nat} (h : s.Formed) : (s.fault win unit off value detail kind).Formed := h.report

theorem faultAt {win unit off detail kind : Nat} (h : s.Formed) : (s.faultAt win unit off detail kind).Formed := h.fault

theorem uncorrectable {port b : Nat} (h : s.Formed) : (s.uncorrectable port b).Formed := h.count.setFld.setFld.fault

theorem backNow {b : Nat} (h : s.Formed) : (s.backNow b).Formed := ite h.eccClear.beside h

theorem backDue {b : Nat} (h : s.Formed) : (s.backDue b).Formed := ite h h.beside

theorem burstMeets {port b ce : Nat} {ue newer : Bool} (h : s.Formed) : (s.burstMeets port b ce ue newer).1.Formed :=
  ite_fst ((h.only (fun _ hr => hr.count)).uncorrectable) ((h.only (fun _ hr => hr.count)).only (fun _ hr => hr.backDue))

theorem burstRead {port b : Nat} (h : s.Formed) : (s.burstRead port b).1.Formed := h.backNow.burstMeets

theorem portRead {port : Nat} {ap : Bool} {a n : Nat} (h : s.Formed) : (s.portRead port ap a n).1.Formed :=
  ite_fst h.traffic (foldl_fst h.traffic (fun _ _ hr => hr.burstRead))

theorem dramRead {port a n : Nat} (h : s.Formed) : (s.dramRead port a n).1.Formed := h.portRead

theorem mergeRead {port a n : Nat} (h : s.Formed) : (s.mergeRead port a n).Formed := ite h (h.each (fun _ _ hr => hr.uncorrectable))

theorem dramWrite {port : Nat} {ap : Bool} {a : Nat} {bs : List Byte} (h : s.Formed) :
    (s.dramWrite port ap a bs).Formed := h.mergeRead.portWrite

theorem mirrorPayload {q : Nat} {img : List Byte} (h : s.Formed) :
    (s.mirrorPayload q img).Formed := ite (ite h.portRead h.portRead.mirror) h

theorem startAccept {q : Nat} {p : Producer} {img : List Byte} (h : s.Formed) : (s.startAccept q p img).Formed := h.enterRing.mirrorPayload

theorem payloadsDue (h : s.Formed) : s.payloadsDue.Formed := h.each (fun _ _ hr => hr.foldl (fun _ _ hv => hv.mirrorPayload))

theorem clamp {src : Source} {addr : Nat} {written applied : Word} {reason lo hi : Nat} (h : s.Formed) :
    (s.clamp src addr written applied reason lo hi).Formed :=
  h.count.hwSet.report

theorem calReport {win ch kind count sec ns fails temp : Nat} (h : s.Formed) :
    (s.calReport win ch kind count sec ns fails temp).Formed := h.report

theorem finishRun {q : Nat} (h : s.Formed) : (s.finishRun q).Formed := by
  unfold State.finishRun
  dsimp only
  split
  · exact h
  · exact (ite h.onQueue.setFld.setFld.setFld.setOverQuota.setFlag h.onQueue.setFld.setFld.setFld.setOverQuota).retryReports

theorem setRetain {q : Nat} (h : s.Formed) : (s.setRetain q).Formed := h.setFlag

theorem restream {q : Nat} (h : s.Formed) : (s.restream q).Formed := h.onQueue.setRetain

theorem showQueue {q : Nat} (h : s.Formed) : (s.showQueue q).Formed := h.setOverQuota.setFlag.setRetain

theorem loseQueue {q acc tail rnext : Nat} (h : s.Formed) :
    (s.loseQueue q acc tail rnext).Formed := h.onQueue.setFld.setFld.setFld.setFld.setFld.showQueue.writeRecord

theorem rebuildQueue {payloads : List (Nat × Nat)} {takeover : Bool} {q : Nat} (h : s.Formed) :
    (s.rebuildQueue payloads takeover q).1.Formed := by
  unfold State.rebuildQueue
  extract_lets _ rd s1 _ _ _ _ _ _ _ _ _ _ _ _ s2
  have hs1 : s1.Formed := h.portRead
  have hs2 : s2.Formed := hs1.each (fun _ _ hr => hr.portRead)
  clear_value s2 s1
  refine ite_fst (.pair hs1.onQueue.setFld) (ite_fst (.pair hs1.drawn.drawn.loseQueue) (ite_fst (.pair hs1.loseQueue) (ite_fst (.pair hs1.loseQueue) ?_)))
  split
  · exact hs2.loseQueue
  · extract_lets _ ring _ _ _ s3
    have hring : ring.1.Formed := foldl_fst hs2 (fun _ _ hr => hr.slotWrite)
    have hs3 : s3.Formed := hring.onQueue.onQueue.setFld.setFld.setFld.setFld.setFld.setFld.count.showQueue.only (fun _ hr => hr.writeRecord)
    exact .pair (ite (hs3.onEngine (fun _ hr => hr.raise)) hs3)

theorem lossReport {q : Nat} {l : Nat × Nat} (h : s.Formed) : (s.lossReport q l).Formed := h.fault

theorem rebuildQueues {payloads : List (Nat × Nat)} {takeover : Bool} (h : s.Formed) : (s.rebuildQueues payloads takeover).Formed := by
  unfold State.rebuildQueues
  extract_lets s1 r
  have hr : r.1.Formed := foldl_fst (h.setFlag.each (fun _ _ hr => hr.setFlag)) (fun _ _ hr => hr.rebuildQueue)
  exact (hr.setFlag.foldl (fun _ _ hr => hr.lossReport)).retryReports

theorem hostSubmit {q : Nat} {img : List Byte} (h : s.Formed) : (s.hostSubmit q img).Formed := by
  unfold State.hostSubmit
  split
  · exact h.setFlag.startAccept
  · exact h.hostRefused

theorem waitRebuild {q : Nat} {p : Producer} {img : List Byte} (h : s.Formed) : (s.waitRebuild q p img).Formed := h.beside

theorem doorbell {src : Source} {q : Nat} (h : s.Formed) : (s.doorbell src q).Formed := ite h.clamp (ite h.setFlag.waitRebuild h.hostSubmit)

theorem hostDone {q seq : Nat} (h : s.Formed) : (s.hostDone q seq).Formed := by
  unfold State.hostDone
  split
  · exact ite h.done.setFlag h.setFlag
  · exact h.setFlag

theorem execCompletionFinal {t q : Nat} (h : s.Formed) :
    Lands (execCompletionFinal t q s) := h.clocked (fun _ hr => hr.only (fun _ hv => hv.finishRun))

theorem mailboxEnd (h : s.Formed) : s.mailboxEnd.Formed := by
  unfold State.mailboxEnd
  split
  · exact h.only (fun _ hr => hr.done.mailboxTake)
  · exact h

theorem execMailboxJobEnd {t : Nat} (h : s.Formed) : Lands (execMailboxJobEnd t s) := h.clocked (fun _ hr => hr.mailboxEnd)

end State.Formed

end Sys2Proof.Machine

/-! PROOFS. The memories keep their form (O58): registers, converters and the receive front end. -/

namespace Sys2Proof.Machine

namespace State.Formed

variable {s : State}

/-! ### Register reads and writes -/

theorem beginHold (h : s.Formed) : s.beginHold.Formed := h.beside.setFlag

theorem coverChanged (h : s.Formed) : s.coverChanged.Formed := h.beside.setFlag

theorem takeLive {k : Nat} {w : Word} (h : s.Formed) : (s.takeLive k w).Formed := ite h.setLive h.setLive.coverChanged

theorem clampAll {src : Source} {a : Nat} {written applied : Word} {fs : List (FieldDef × Option Nat)} (h : s.Formed) :
    (s.clampAll src a written applied fs).Formed := by
  induction fs generalizing s with
  | nil => exact h
  | cons x fs ih =>
    obtain ⟨fd, r⟩ := x
    cases r with
    | none => exact ih h
    | some r => exact ih h.clamp

theorem markDirty {win : Nat} (h : s.Formed) : (s.markDirty win).Formed := h.setFld

theorem plainWrite {src : Source} {a : Nat} {val : Word} (h : s.Formed) : (s.plainWrite src a val).Formed := by
  unfold State.plainWrite
  split
  · exact h
  · refine ite h.clamp ?_
    extract_lets _ _ _ s1 _ s2
    have hs2 : s2.Formed := ite (ite h.setStaged.markDirty h) ((ite h.setStaged.markDirty h).setLive)
    exact (ite hs2.coverChanged.beginHold hs2).clampAll

theorem pastLocksAs {native : Bool} {src : Source} {a : Nat} {val : Word} {f : State → State} (h : s.Formed)
    (hf : ∀ r : State, r.Formed → (f r).Formed) :
    (s.pastLocksAs native src a val f).Formed :=
  ite h (ite h.clamp (ite h.clamp (ite h.clamp (hf _ h))))

theorem pastLocks {src : Source} {a : Nat} {val : Word} {f : State → State} (h : s.Formed) (hf : ∀ r : State, r.Formed → (f r).Formed) :
    (s.pastLocks src a val f).Formed :=
  h.pastLocksAs hf

theorem closePair {win : Nat} (h : s.Formed) : (s.closePair win).Formed := h.beside

theorem guardFault (h : s.Formed) : s.guardFault.Formed := h.hwSet.count

theorem guardExpire {win : Nat} (h : s.Formed) : (s.guardExpire win).Formed := by
  unfold State.guardExpire
  split
  · exact ite h.closePair.guardFault h
  · exact h

theorem pairWhole {src : Source} {a : Nat} {f : State → State} (h : s.Formed) (hf : ∀ r : State, r.Formed → (f r).Formed) :
    (s.pairWhole src a f).Formed := by
  unfold State.pairWhole
  dsimp only
  split
  · exact hf _ h.guardExpire
  · exact ite (hf _ h.guardExpire.closePair.guardFault) h.guardExpire

/-! ### The sample path of the slice converters -/

theorem onHsc {c : Nat} {f : HscCh → HscCh} (h : s.Formed) : (s.onHsc c f).Formed := h.beside

theorem noteConv {c at_ : Nat} (h : s.Formed) : (s.noteConv c at_).Formed := h.onHsc

theorem setCor {c k kind : Nat} {v : Int} (h : s.Formed) : (s.setCor c k kind v).Formed := h.setFld.noteConv

theorem hscSample {c at_ : Nat} {code : Int} (h : s.Formed) : (s.hscSample c at_ code).Formed := by
  unfold State.hscSample
  exact (ite h h.count).onHsc

/-! ### The optical receive front end -/

theorem onLane {n : Nat} {f : Lane → Lane} (h : s.Formed) : (s.onLane n f).Formed := h.beside

theorem onOrx {c : Nat} {f : OrxCh → OrxCh} (h : s.Formed) : (s.onOrx c f).Formed := h.beside

theorem applyRange {c at_ : Nat} (h : s.Formed) : (s.applyRange c at_).Formed := ite h h.setFld.count.noteConv

theorem autoSample {c at_ : Nat} {code : Int} (h : s.Formed) :
    (s.autoSample c at_ code).Formed := ite (ite h.count h) ((ite h.count h).onOrx)

theorem overloadSample {c at_ : Nat} {code : Int} (h : s.Formed) : (s.overloadSample c at_ code).Formed :=
  ite (ite h.count h) (ite ((ite h.count h).onOrx.count.setFlag) ((ite h.count h).onOrx))

theorem stepAt {c at_ : Nat} (h : s.Formed) : (s.stepAt c at_).Formed := h.onOrx.applyRange

theorem reachAt {c at_ : Nat} (h : s.Formed) : (s.reachAt c at_).Formed := h.onOrx.applyRange

theorem samples {c : Nat} {f : State → Nat → Int → State} {at_ : Nat} {xs : List Int} (h : s.Formed)
    (hf : ∀ (r : State) (x1 : Nat) (x2 : Int), r.Formed → (f r x1 x2).Formed) : (s.samples c f at_ xs).Formed := by
  induction xs generalizing s at_ with
  | nil => exact h
  | cons x xs ih => exact ih (hf _ _ _ h.reachAt.hscSample)

theorem execRangeStepDecide {t c : Nat} {codes : List Int} (h : s.Formed) : Lands (execRangeStepDecide t c codes s) :=
  h.ticking (fun _ hr => hr.only (fun _ hv => hv.samples (fun _ _ _ hw => hw.autoSample)))

theorem execOverloadRise {t c : Nat} {codes : List Int} (h : s.Formed) : Lands (execOverloadRise t c codes s) :=
  h.ticking (fun _ hr => hr.only (fun _ hv => hv.samples (fun _ _ _ hw => hw.overloadSample)))

theorem stepApply {c : Nat} (h : s.Formed) : (s.stepApply c).Formed := h.stepAt

theorem execRangeStepApply {t c : Nat} (h : s.Formed) :
    Lands (execRangeStepApply t c s) := h.ticking (fun _ hr => hr.only (fun _ hv => hv.stepApply))

theorem entryStart {c : Nat} (h : s.Formed) : (s.entryStart c).Formed := h.onOrx.applyRange

theorem execScheduleEntryStart {t c : Nat} (h : s.Formed) :
    Lands (execScheduleEntryStart t c s) := h.ticking (fun _ hr => hr.only (fun _ hv => hv.entryStart))

theorem blankOn {c : Nat} (h : s.Formed) : (s.blankOn c).Formed := (ite h.setFlag h).onOrx.applyRange

theorem blankOff {c : Nat} (h : s.Formed) : (s.blankOff c).Formed := h.onOrx.applyRange

theorem blankStart {n : Nat} (h : s.Formed) : (s.blankStart n).Formed := by
  unfold State.blankStart
  split
  · exact h.only (fun _ hr => hr.blankOn.blankOn)
  · exact h

theorem execBlankWindowStart {t n : Nat} (h : s.Formed) :
    Lands (execBlankWindowStart t n s) := h.ticking (fun _ hr => hr.only (fun _ hv => hv.blankStart))

theorem blankStop {n : Nat} (h : s.Formed) : (s.blankStop n).Formed := by
  unfold State.blankStop
  split
  · exact h.only (fun _ hr => hr.onLane.blankOff.blankOff)
  · exact h

theorem execBlankWindowEnd {t n : Nat} (h : s.Formed) :
    Lands (execBlankWindowEnd t n s) := h.ticking (fun _ hr => hr.only (fun _ hv => hv.blankStop))

theorem orxStamp {c stamp : Nat} {range : Option (Nat × Nat)} (h : s.Formed) : (s.orxStamp c stamp range).Formed := by
  unfold State.orxStamp
  exact h.setFld.setFlag.onOrx

theorem rangesFollow {n : Nat} (h : s.Formed) : (s.rangesFollow n).Formed := h.applyRange.applyRange

theorem orxTake {c was : Nat} (h : s.Formed) : (s.orxTake c was).Formed := by
  unfold State.orxTake
  exact (ite h.onOrx h.onOrx).onOrx

theorem schedTake {n : Nat} (h : s.Formed) : (s.schedTake n).Formed := ite (h.beside.setFlag.each (fun _ _ hr => hr.onOrx)) h

theorem scheduleWrite {src : Source} {a : Nat} {val : Word} (h : s.Formed) :
    (s.scheduleWrite src a val).Formed := ite h.clamp h.beside.markDirty

theorem execScheduleTableWrite {t : Nat} {src : Source} {addr val : Word} (h : s.Formed) :
    Lands (execScheduleTableWrite t src addr val s) :=
  h.ticking (fun _ hr => hr.only (fun _ hv => hv.pastLocks (fun _ hw => hw.scheduleWrite)))

theorem cmShow {n : Nat} (h : s.Formed) : (s.cmShow n).Formed := h.each (fun _ _ hr => hr.setFlag)

theorem cmWindow {c ip0 im0 : Nat} (h : s.Formed) : (s.cmWindow c ip0 im0).Formed := by
  unfold State.cmWindow
  extract_lets _ _ s1 _ _ _ _ _ _ _ s2 mark
  have hmark : ∀ r : State, r.Formed → (mark r).Formed := by
    unfold mark
    intro _ hr
    extract_lets s' s''
    have hs'' : s''.Formed := ite ((ite hr.setFlag hr).setFlag) (ite hr.setFlag hr)
    exact ite hs''.setFlag hs''
  exact ite h.setFld.setFld.setFlag.onOrx (ite (ite h.setFld.setFld.setFlag.onOrx.setFlag.setFlag.setFlag.setFlag.count.faultAt (hmark _ h.setFld.setFld.setFlag.onOrx))
    (ite ((hmark _ h.setFld.setFld.setFlag.onOrx).setFlag.count.faultAt) h.setFld.setFld.setFlag.onOrx))

theorem execCmWindowEnd {t c ip im : Nat} (h : s.Formed) :
    Lands (execCmWindowEnd t c ip im s) := h.ticking (fun _ hr => hr.only (fun _ hv => hv.cmWindow))

/-! ### Calibration of the converters -/

theorem setPhase {c p due : Nat} (h : s.Formed) : (s.setPhase c p due).Formed := h.setFld.onHsc

theorem setSlice {c p k : Nat} (h : s.Formed) : (s.setSlice c p k).Formed := (ite h.setFld h.setFld).noteConv

theorem setScale {c v : Nat} (h : s.Formed) : (s.setScale c v).Formed := h.setFld.noteConv

theorem setDown {c : Nat} {v : Bool} (h : s.Formed) : (s.setDown c v).Formed := h.setFlag.noteConv

theorem setDefer (h : s.Formed) : s.setDefer.Formed := h.setFlag

theorem startRotation {c : Nat} (h : s.Formed) : (s.startRotation c).Formed := ite h.onHsc.setDefer.setPhase h.onHsc.setDefer.setPhase

theorem sweepCheck (h : s.Formed) :
    s.sweepCheck.Formed := ite ((h.each (fun _ _ hr => hr.setFlag)).setFlag.count.setFld.setFld.setFld.calReport) h

theorem deferRotation {c : Nat} (h : s.Formed) : (s.deferRotation c).Formed := ite h h.beside

theorem dropWaits (h : s.Formed) : s.dropWaits.Formed := (h.each (fun _ _ hr => hr.onHsc)).beside.setDefer.sweepCheck

theorem endRotation {c : Nat} (h : s.Formed) : (s.endRotation c).Formed :=
  ite (ite h.setPhase.onHsc.sweepCheck.startRotation h.setPhase.onHsc.sweepCheck.deferRotation) h.setPhase.onHsc.sweepCheck

theorem cancelRotation {c : Nat} (h : s.Formed) : (s.cancelRotation c).Formed := h.setPhase.onHsc.setFld

theorem setDegraded {c : Nat} (h : s.Formed) : (s.setDegraded c).Formed := h.setFld

theorem spareTakes {c p : Nat} (h : s.Formed) : (s.spareTakes c p).Formed := by
  unfold State.spareTakes
  extract_lets _ _ load
  have hload : ∀ (r : State) (x1 : Nat), r.Formed → (load r x1).Formed := by
    unfold load
    intro _ _ hr
    split
    · exact hr.setCor
    · exact hr
  exact (hload _ _ (hload _ _ (hload _ _ h))).setSlice.setFld.setFlag

theorem updateManual {c : Nat} (h : s.Formed) : (s.updateManual c).Formed := ite h.takeLive.setStaged.setPend h

theorem unswap {c : Nat} (h : s.Formed) : (s.unswap c).Formed := by
  unfold State.unswap
  split
  · exact h.only (fun _ hr => hr.setSlice.setFld.setFld.onHsc)
  · exact h

theorem retire {c k since : Nat} (h : s.Formed) : (s.retire c k since).Formed := by
  unfold State.retire
  extract_lets s' s1
  have hs1 : s1.Formed := h.unswap.cancelRotation.setFld.count
  exact ite h.unswap ((ite hs1.setFld.setFlag (ite hs1.spareTakes.onHsc hs1.setDown)).setDegraded.updateManual.faultAt.dropWaits)

theorem rampTo {c i : Nat} (h : s.Formed) : (s.rampTo c i).Formed := by
  unfold State.rampTo
  exact (h.foldl (fun _ _ hr => (ite hr.setScale hr.setCor).drawn)).onHsc

theorem rampDone {c : Nat} (h : s.Formed) : (s.rampDone c).Formed := ite h.setFld.setPhase.onHsc h.setFld.endRotation

theorem rampStep {c : Nat} (h : s.Formed) : (s.rampStep c).Formed := ite (ite h.rampTo.rampDone h.rampTo) h

theorem rampFinish {c : Nat} (h : s.Formed) : (s.rampFinish c).Formed := ite h.rampTo.rampDone h

theorem newScale {c : Nat} {amp : Rat} (h : s.Formed) : (s.newScale c amp).1.Formed := by
  unfold State.newScale
  extract_lets _ hold s0 _ _ s1 s2
  have hhold : ∀ (r : State) (x1 : Bool), r.Formed → (hold r x1).Formed := fun _ _ hr => hr.setFlag.only (fun _ hv => hv.faultAt)
  have hs0 : s0.Formed := h.setFlag
  have hs2 : s2.Formed := hs0.setFlag.setFlag.setFld.drawn
  exact ite_fst h (ite_fst h.setFlag (ite_fst (.pair (hhold _ _ hs0)) (ite_fst (.pair (hhold _ _ hs0)) (ite_fst (.pair (hhold _ _ hs0)) (.pair hs2.setFld.drawn.onHsc)))))

theorem estimate {c : Nat} {tone : List ToneSum} (h : s.Formed) : (s.estimate c tone).Formed := by
  unfold State.estimate
  extract_lets _ _ _ _ _ s0 _ _ s1 s2 sc _ _ s3
  have hs2 : s2.Formed := h.drawn.onHsc.drawn.setFlag.foldl (fun _ _ hr => hr.setCor)
  have hs3 : s3.Formed := by
    unfold s3
    split
    · exact (ite_fst hs2.newScale hs2).setFld
    · exact ite_fst hs2.newScale hs2
  split
  · exact h.drawn.onHsc.drawn.each (fun _ _ hr => hr.retire)
  · exact ite hs3.onHsc hs3.onHsc.rampFinish

theorem calibrate {src : Source} (h : s.Formed) : (s.calibrate src).Formed :=
  ite h.clamp ((h.each (fun _ _ hr => hr.cancelRotation.setPhase.setFlag.onHsc)).beside.setDefer.setFlag.setFlag.setFlag.setFlag)

theorem execHscCalibrate {t : Nat} {src : Source} (h : s.Formed) :
    Lands (execHscCalibrate t src s) := h.ticking (fun _ hr => hr.pastLocks (fun _ hv => hv.calibrate))

theorem calChannel {c : Nat} {m : List (Int × Int × Int)} (h : s.Formed) : (s.calChannel c m).Formed := by
  unfold State.calChannel
  extract_lets _ _ _ _ _ _ load
  have hload : ∀ (r : State) (x1 : Nat), r.Formed → (load r x1).Formed := by
    unfold load
    intro _ _ hr
    split
    · exact hr.setCor.setCor.setCor
    · exact hr
  exact ((((((hload _ _ (hload _ _ (hload _ _ h))).setSlice.setSlice.setFld.setFld).setFlag.setDown.setDegraded).setScale.setFld.setFlag.setPhase).onHsc.setFlag
    ).count).updateManual.each (fun _ _ hr => hr.faultAt)

theorem calDone {ttrim : Nat} {slices : List (Int × Int × Int)} (h : s.Formed) : (s.calDone ttrim slices).Formed := by
  unfold State.calDone
  split
  · exact h
  · exact ite h ((h.each (fun _ _ hr => hr.calChannel)).beside.setFlag.setFlag.setFlag.setFlag.setFld.count.setFld.setFld.calReport)

theorem rotateNow {mask : Nat} (h : s.Formed) : (s.rotateNow mask).Formed := h.each (fun _ _ hr => hr.only (fun _ hv => hv.startRotation))

theorem execHscRotate {t : Nat} {src : Source} {mask : Nat} (h : s.Formed) : Lands (execHscRotate t src mask s) :=
  h.ticking (fun _ hr => hr.pastLocks (fun _ hv => hv.rotateNow))

theorem rotationDue {c : Nat} (h : s.Formed) :
    (s.rotationDue c).Formed := ite h (ite h.deferRotation.onHsc.setDefer (ite h.startRotation h.onHsc.setDefer))

theorem execRotationStart {t c : Nat} (h : s.Formed) :
    Lands (execRotationStart t c s) := h.ticking (fun _ hr => hr.only (fun _ hv => hv.rotationDue))

theorem execTrimPhaseEnd {t c : Nat} (h : s.Formed) :
    Lands (execTrimPhaseEnd t c s) := h.ticking (fun _ hr => hr.only (fun _ hv => hv.setPhase.onHsc))

theorem execShadow0End {t c : Nat} {sh : Shadow} (h : s.Formed) :
    Lands (execShadow0End t c sh s) := h.ticking (fun _ hr => hr.only (fun _ hv => hv.setPhase.onHsc))

theorem execShadow1End {t c : Nat} {sh : Shadow} (h : s.Formed) :
    Lands (execShadow1End t c sh s) := h.ticking (fun _ hr => hr.only (fun _ hv => hv.setPhase.onHsc))

theorem execEstimationDone {t c : Nat} {tone : List ToneSum} (h : s.Formed) : Lands (execEstimationDone t c tone s) :=
  h.ticking (fun _ hr => hr.only (fun _ hv => hv.estimate))

theorem swapSlice {c : Nat} (h : s.Formed) : (s.swapSlice c).Formed := h.setSlice.setFld.onHsc.count.endRotation

theorem execSliceSwap {t c : Nat} (h : s.Formed) : Lands (execSliceSwap t c s) := h.ticking (fun _ hr => hr.only (fun _ hv => hv.swapSlice))

theorem startDiag {c : Nat} (h : s.Formed) : (s.startDiag c).Formed := ite h ((ite h.setPhase h).setFlag.onHsc)

theorem checkWindow {c : Nat} {seen : List (Nat × Nat)} {pair : Shadow} (h : s.Formed) : (s.checkWindow c seen pair).Formed :=
  ite (h.each (fun _ _ hr => hr.only (fun _ hv => hv.retire))) (ite ((ite h.setCor.setCor h).setFlag) (ite ((ite h.setCor.setCor h).startDiag) (ite h.setCor.setCor h)))

theorem execSliceCheckWindow {t c : Nat} {seen : List (Nat × Nat)} {pair : Shadow} (h : s.Formed) :
    Lands (execSliceCheckWindow t c seen pair s) :=
  h.ticking (fun _ hr => hr.only (fun _ hv => hv.checkWindow))

theorem diagEnd {c due : Nat} {pos0 pos1 : Shadow} (h : s.Formed) : (s.diagEnd c due pos0 pos1).Formed := by
  unfold State.diagEnd
  dsimp only
  split
  · exact h.setFlag.onHsc.retire
  · exact h.setFlag.onHsc.retire
  · exact h.setFlag.onHsc.retire.setFlag
  · exact ite h.setFlag.onHsc (ite h.setFlag.onHsc.startRotation h.setFlag.onHsc.onHsc.setDefer)

theorem execSliceDiagEnd {t c : Nat} {pos0 pos1 : Shadow} (h : s.Formed) : Lands (execSliceDiagEnd t c pos0 pos1 s) := by
  unfold Machine.execSliceDiagEnd
  refine h.ticking (fun _ hr => ?_)
  split
  · exact hr.only (fun _ hv => hv.diagEnd)
  · exact hr

theorem sweepStart {temp : Nat} (h : s.Formed) : (s.sweepStart temp).Formed :=
  ite (ite (ite h.setFld h.setFld.beside) ((h.setFld.beside.setFlag.each (fun _ _ hr => hr.onHsc)).sweepCheck)) h.setFld

theorem execTrimSweepStart {t temp : Nat} (h : s.Formed) : Lands (execTrimSweepStart t temp s) := h.ticking (fun _ hr => hr.sweepStart)

theorem manWrite {src : Source} {c : Nat} {val : Word} (h : s.Formed) : (s.manWrite src c val).Formed :=
  ite h.clamp (ite h.clamp (ite h.setStaged.markDirty.clamp h.setStaged.markDirty))

theorem execHscManWrite {t : Nat} {src : Source} {c : Nat} {val : Word} (h : s.Formed) : Lands (execHscManWrite t src c val s) :=
  h.ticking (fun _ hr => hr.only (fun _ hv => hv.pastLocks (fun _ hw => hw.manWrite)))

theorem manTake {c : Nat} (h : s.Formed) : (s.manTake c).Formed :=
  ite h (ite ((ite h.updateManual h.setSlice.setSlice.setFld).cancelRotation.setPhase) (ite h.setPhase h))

theorem hscTake (h : s.Formed) : s.hscTake.Formed := (h.each (fun _ _ hr => hr.manTake.only (fun _ hv => hv.onHsc))).dropWaits

/-! ### Downconversion -/

theorem onPath {c b : Nat} {f : DdcPath → DdcPath} (h : s.Formed) : (s.onPath c b f).Formed := h.beside

theorem pathStat {c : Nat} (h : s.Formed) : (s.pathStat c).Formed := h.setFld.setFld.setFld.setFld

theorem pathRestart {c b at_ : Nat} (h : s.Formed) : (s.pathRestart c b at_).Formed := h.onPath.count.pathStat

theorem allRestart (h : s.Formed) :
    s.allRestart.Formed := h.each (fun _ _ hr => hr.each (fun _ _ hv => hv.only (fun _ hw => hw.pathRestart)))

theorem pathTake {c b at_ : Nat} {copy filter coefs restart : Bool} (h : s.Formed) :
    (s.pathTake c b at_ copy filter coefs restart).Formed :=
  ite h.onPath.takeLive.setFld.pathRestart (ite h.onPath.takeLive.setFld.onPath.pathStat h.onPath.takeLive.setFld.pathStat)

theorem probeTake {n b at_ gen : Nat} {restart : Bool} (h : s.Formed) :
    (s.probeTake n b at_ gen restart).Formed := h.pathTake.pathTake.beside

theorem ddcSettled (h : s.Formed) : s.ddcSettled.Formed := ite (h.foldl (fun _ _ hr => hr.takeLive)) h

theorem startConversion {tapsChanged : List Nat} (h : s.Formed) : (s.startConversion tapsChanged).Formed := by
  unfold State.startConversion
  extract_lets _ _ _ _ _ _ _ _ _ _ s1 s2
  have hs2 : s2.Formed := h.beside.each (fun _ _ hr => hr.setLaneBit)
  exact ite hs2 hs2.setFlag

theorem conversionDone {unit : Nat} (h : s.Formed) : (s.conversionDone unit).Formed := by
  unfold State.conversionDone
  split
  · exact h
  · exact ite h (ite h.beside.setFlag h.beside.setLaneBit)

theorem spectrumWrite {src : Source} {a : Nat} {val : Word} (h : s.Formed) : (s.spectrumWrite src a val).Formed :=
  ite (ite h.clamp h.beside.markDirty) (ite (ite h.clamp (ite h.clamp h.beside.markDirty)) h)

theorem execSpectrumWrite {t : Nat} {src : Source} {addr val : Word} (h : s.Formed) : Lands (execSpectrumWrite t src addr val s) :=
  h.ticking (fun _ hr => hr.only (fun _ hv => hv.pastLocks (fun _ hw => hw.spectrumWrite)))

theorem pathOutput {c b t : Nat} {xs : List (Int × Nat)} (h : s.Formed) : (s.pathOutput c b t xs).1.Formed := by
  unfold State.pathOutput
  extract_lets
  split
  · exact .pair h.count.onPath
  · exact .pair (ite h.count.count h.count).onPath.pathStat

end State.Formed

end Sys2Proof.Machine

/-! PROOFS. The memories keep their form (O58): engines and their instructions. -/

namespace Sys2Proof.Machine

namespace State.Formed

variable {s : State}

/-! ### The engines apart from their instructions -/

theorem pendClear {win : Nat} (h : s.Formed) : (s.pendClear win).Formed := ite (ite h.setFld.beside h.setFld) h

theorem took {win unit : Nat} (h : s.Formed) : (s.took win unit).Formed := ite h.beside h.beside.pendClear

theorem engFault {e code : Nat} (h : s.Formed) : (s.engFault e code).Formed := .fault (h.onEngine (fun _ hr => hr.same rfl rfl))

theorem engRun {src : Source} {e : Nat} (h : s.Formed) : (s.engRun src e).Formed := by
  unfold State.engRun
  dsimp only
  split
  · exact h.onEngine (fun _ hr => hr.same rfl rfl)
  · exact h.clamp
  · exact h

theorem engHaltReq {e : Nat} (h : s.Formed) : (s.engHaltReq e).Formed := by
  unfold State.engHaltReq
  refine h.onEngine (fun _ hr => ?_)
  split
  · exact hr.same rfl rfl
  · exact hr.same rfl rfl
  · exact hr

theorem engReset {src : Source} {e : Nat} (h : s.Formed) : (s.engReset src e).Formed := ite (h.setEngine (h.engine.same rfl rfl)) h.clamp

theorem engClrErr {e : Nat} (h : s.Formed) : (s.engClrErr e).Formed := by
  unfold State.engClrErr
  exact h.onEngine (fun _ hr => .ite (hr.same rfl rfl) hr)

theorem engStep {e : Nat} (h : s.Formed) : (s.engStep e).Formed := by
  unfold State.engStep
  exact h.onEngine (fun _ hr => .ite (hr.same rfl rfl) hr)

theorem withEngine {src : Source} {addr e : Nat} {val : Word} {f : State → State} (h : s.Formed)
    (hf : ∀ r : State, r.Formed → (f r).Formed) :
    (s.withEngine src addr e val f).Formed :=
  ite (hf _ h) h.clamp

theorem engCtrl {src : Source} {e : Nat} {val : Word} (h : s.Formed) : (s.engCtrl src e val).Formed := by
  unfold State.engCtrl
  extract_lets _ s1 s2
  have hs2 : s2.Formed := ite ((ite h.engClrErr h).engReset) (ite h.engClrErr h)
  exact ite ((ite hs2.engRun hs2.engHaltReq).engStep) (ite hs2.engRun hs2.engHaltReq)

theorem onCtrl {t : Nat} {src : Source} {e val : Nat} (h : s.Formed) : Lands (onCtrl t src e val s) :=
  h.clocked (fun _ hr => hr.only (fun _ hv => hv.pastLocks (fun _ hw => hw.withEngine (fun _ h3 => h3.engCtrl))))

theorem execEngineHalt {t e : Nat} (h : s.Formed) : Lands (execEngineHalt t e s) :=
  h.clocked (fun _ hr => hr.only (fun _ hv => hv.onEngine (fun _ hw => hw.same rfl rfl)))

theorem engPcWrite {src : Source} {e : Nat} {val : Word} (h : s.Formed) :
    (s.engPcWrite src e val).Formed := ite (h.onEngine (fun _ hr => hr.same rfl rfl)) h.clamp

theorem imemWrite {src : Source} {a : Nat} {val : Word} (h : s.Formed) : (s.imemWrite src a val).Formed := by
  unfold State.imemWrite
  extract_lets u
  clear_value u
  refine h.withEngine (fun r hr => ?_)
  extract_lets x
  have hx : x.Formed := hr.engine
  clear_value x
  exact ite (hr.setEngine hx.putImem).eccWrite hr.clamp

theorem execImemWrite {t : Nat} {src : Source} {addr val : Word} (h : s.Formed) : Lands (execImemWrite t src addr val s) :=
  h.ticking (fun _ hr => hr.only (fun _ hv => hv.pastLocks (fun _ hw => hw.imemWrite)))

theorem hostStall {e : Nat} (h : s.Formed) : (s.hostStall e).Formed := h.only (fun _ hr => hr.drawn.count)

theorem dmemWrite {src : Source} {a : Nat} {val : Word} (h : s.Formed) : (s.dmemWrite src a val).Formed :=
  h.withEngine (fun _ hr => (hr.hostStall.onEngine (fun _ hv => hv.store)).eccWrite)

theorem memRead {a : Nat} (h : s.Formed) : (s.memRead a).1.Formed := by
  unfold State.memRead
  extract_lets _ _ _ _ s1
  have hs1 : s1.Formed := h.only (fun _ hr => hr.hostStall)
  refine ite_fst h ?_
  generalize s1.eccAt _ _ = k
  split
  · exact .pair hs1
  · exact .pair hs1.eccCorrect
  · exact .pair hs1.drawn.drawn.count.faultAt

theorem execDmemHostAccess {t : Nat} {src : Source} {addr val : Word} {write : Bool} (h : s.Formed) :
    Lands (execDmemHostAccess t src addr val write s) :=
  h.ticking (fun _ hr => hr.only (fun _ hv => ite (hv.pastLocks (fun _ hw => hw.dmemWrite)) hv.memRead.beside))

theorem dmaBeat {e : Nat} {d : Dma} {r k : Nat} (h : s.Formed) :
    (s.dmaBeat e d r k).Formed := ite h.eccCorrect.dramWrite ((h.onEngine (fun _ hr => hr.store)).eccWrite)

theorem dmaFetch {e : Nat} {d : Dma} {r : Nat} (h : s.Formed) : (s.dmaFetch e d r).1.Formed := foldl_fst h (fun _ _ hr => hr.portRead)

theorem dmaRows {e : Nat} {d : Dma} {n r : Nat} (h : s.Formed) : (s.dmaRows e d n r).1.Formed := by
  induction n generalizing s r with
  | zero => exact h
  | succ n ih =>
    unfold State.dmaRows
    exact ite_fst (ite_fst h (ih (h.foldl (fun _ _ hr => hr.dmaBeat)))) (ite_fst h.dmaFetch (ih (h.dmaFetch.foldl (fun _ _ hr => hr.dmaBeat))))

theorem dmaComplete {e c : Nat} (h : s.Formed) : (s.dmaComplete e c).Formed := by
  unfold State.dmaComplete
  extract_lets _ r _ _ _ s1
  have hs1 : s1.Formed := h.dmaRows.onEngine (fun _ hr => .markSet (hr.same rfl rfl))
  exact ite h ((ite hs1.count hs1).onEngine (fun _ hr => hr.raise))

theorem execDmaComplete {t e c : Nat} (h : s.Formed) :
    Lands (execDmaComplete t e c s) := h.clocked (fun _ hr => hr.only (fun _ hv => hv.dmaComplete))

theorem engTake {e : Nat} (h : s.Formed) :
    (s.engTake e).Formed := ite (.took (h.takeLive.takeLive.onEngine (fun _ hr => hr.same rfl rfl))) h

theorem onTach {k : Nat} {f : Tach → Tach} (h : s.Formed) : (s.onTach k f).Formed := h.beside

theorem tachTake (h : s.Formed) : s.tachTake.Formed := by
  unfold State.tachTake
  refine ite ?_ h
  extract_lets one
  have hone : ∀ (x0 : Nat) (r : State), r.Formed → (one x0 r).Formed := by
    unfold one
    intro _ _ hr
    extract_lets _ _ _ _ s1' s2
    have hs2 : s2.Formed := ite hr.takeLive.takeLive.setFlag.onTach hr.takeLive.takeLive
    exact ite hs2.setFld.setFlag.onTach hs2
  exact (h.each hone).takeLive.takeLive.took

theorem rowEvent {n : Nat} (h : s.Formed) : (s.rowEvent n).Formed := h.each (fun _ _ hr => hr.onEngine (fun _ hv => hv.raise))

theorem engBlockClose {n : Nat} (h : s.Formed) : (s.engBlockClose n).Formed :=
  (h.each (fun _ _ hr => hr.engTake)).tachTake.each (fun _ _ hr => hr.onEngine (fun _ hv => hv.raise))

theorem tachEdge {k : Nat} {level : Bool} {held : Nat} {lost : Bool} (h : s.Formed) : (s.tachEdge k level held lost).Formed := by
  unfold State.tachEdge
  extract_lets s0 _ _ _ _ s1 _ _ s3 s2
  have hs1 : s1.Formed := h.setFlag.count.setFld.setFld.onTach
  have hs2 : s2.Formed := ite ((ite hs1.setFlag hs1.dramWrite).setFld.onTach) hs1
  refine ite h.setFlag ?_
  split
  · exact hs2.setFld.drawn.setFlag
  · exact hs2

theorem execTachEdge {t k : Nat} {level : TachLevel} {lost : Bool} (h : s.Formed) : Lands (execTachEdge t k level lost s) :=
  h.ticking (fun _ hr => hr.only (fun _ hv => hv.tachEdge))

theorem execTachTimeout {t k : Nat} (h : s.Formed) :
    Lands (execTachTimeout t k s) := h.ticking (fun _ hr => hr.only (fun _ hv => hv.setFld.setFlag.onTach))

/-! ### Issue and retirement of instructions, and the scalar, pointer and predicate ones -/

theorem dstore {e a : Nat} {bs : List Byte} (h : s.Formed) : (s.dstore e a bs).Formed := (h.onEngine (fun _ hr => hr.store)).eccWrite

theorem flyStore {e : Nat} (h : s.Formed) : (s.flyStore e).Formed := by
  unfold State.flyStore
  split
  · exact h
  · refine ((h.onEngine (fun x hx => ?_)).dstore).dstore
    extract_lets y
    have hy : y.Formed := .stored (hx.same rfl rfl)
    exact hy.getD_map (fun _ => hy.lowerHead)

theorem flyFlush {e : Nat} (h : s.Formed) : (s.flyFlush e).Formed := h.flyStore.flyStore

theorem flyLate {e : Nat} (h : s.Formed) : (s.flyLate e).Formed := h.only (fun _ hr => hr.onEngine (fun _ hv => hv.same rfl rfl))

theorem anvFault {e code : Nat} (h : s.Formed) : (s.anvFault e code).Formed := h.flyFlush.engFault

theorem finish {e : Nat} {f : Engine → Engine} (h : s.Formed) (hf : ∀ r : Engine, r.Formed → (f r).Formed) : (s.finish e f).Formed := by
  unfold State.finish
  extract_lets _ s1
  have hs1 : s1.Formed := h.onEngine (fun _ hr => (hf _ hr).stamped)
  exact ((ite hs1.flyLate.flyFlush hs1).onEngine (fun _ hr => hr.retire)).count

theorem jumpTo {e pc : Nat} {f : Engine → Engine} (h : s.Formed) (hf : ∀ r : Engine, r.Formed → (f r).Formed) : (s.jumpTo e pc f).Formed :=
  (h.onEngine (fun _ hr => (hf _ hr).boundary)).count

theorem dmaStall {e w : Nat} (h : s.Formed) : (s.dmaStall e w).Formed := by
  unfold State.dmaStall
  exact h.only (fun _ hr => hr.drawn.count)

theorem anv {op : Nat} {fn : Nat → Bool} {t e : Nat} {f : Nat → State → State} (h : s.Formed)
    (hf : ∀ (x0 : Nat) (r : State), r.Formed → (f x0 r).Formed) :
    Lands (anv op fn t e s f) := by
  unfold Machine.anv
  refine h.clocked (fun _ hr => hr.only (fun _ hv => ?_))
  split
  · exact ite (ite hv.anvFault (hf _ _ hv.eccCorrect.dmaStall)) hv
  · exact hv

theorem anvEng {op fn t e : Nat} {f : Nat → Engine → Engine} (h : s.Formed) (hf : ∀ (x0 : Nat) (r : Engine), r.Formed → (f x0 r).Formed) :
    Lands (anvEng op fn t e s f) :=
  h.anv (fun _ _ hr => hr.finish (fun _ hv => hf _ _ hv))

theorem execIllegalInstruction {t e : Nat} (h : s.Formed) : Lands (execIllegalInstruction t e s) :=
  h.clocked (fun _ hr => hr.only (fun _ hv => ite hv.anvFault hv.eccCorrect.anvFault))

theorem loading {e a n align : Nat} {f : Nat → State → State} (h : s.Formed) (hf : ∀ (x0 : Nat) (r : State), r.Formed → (f x0 r).Formed) :
    (s.loading e a n align f).Formed :=
  ite h.anvFault (ite h.anvFault (hf _ _ h.eccCorrect))

theorem storing {e a align : Nat} {f : State → State} (h : s.Formed) (hf : ∀ r : State, r.Formed → (f r).Formed) :
    (s.storing e a align f).Formed :=
  ite h.anvFault (hf _ h)

theorem salu {fn t e : Nat} (h : s.Formed) : Lands (salu fn t e s) := h.anvEng (fun _ _ hr => hr.setS)

theorem salui {fn t e : Nat} (h : s.Formed) : Lands (salui fn t e s) := h.anvEng (fun _ _ hr => hr.setS)

theorem smem {fn t e : Nat} {f : Nat → Nat → State → State} (h : s.Formed)
    (hf : ∀ (x0 x1 : Nat) (r : State), r.Formed → (f x0 x1 r).Formed) :
    Lands (smem fn t e s f) :=
  h.anv (fun _ _ hr => hf _ _ _ hr)

theorem execSld {t e : Nat} (h : s.Formed) :
    Lands (execSld t e s) := h.smem (fun _ _ _ hr => hr.loading (fun _ _ hv => hv.finish (fun _ hw => hw.setS.postMod)))

theorem execSldh {t e : Nat} (h : s.Formed) :
    Lands (execSldh t e s) := h.smem (fun _ _ _ hr => hr.loading (fun _ _ hv => hv.finish (fun _ hw => hw.setS.postMod)))

theorem execSst {t e : Nat} (h : s.Formed) :
    Lands (execSst t e s) := h.smem (fun _ _ _ hr => hr.storing (fun _ hv => hv.dstore.finish (fun _ hw => hw.postMod)))

theorem execSsth {t e : Nat} (h : s.Formed) :
    Lands (execSsth t e s) := h.smem (fun _ _ _ hr => hr.storing (fun _ hv => hv.dstore.finish (fun _ hw => hw.postMod)))

theorem ptrFile {op t e : Nat} {f : Nat → Engine → Engine} (h : s.Formed) (hf : ∀ (x0 : Nat) (r : Engine), r.Formed → (f x0 r).Formed) :
    Lands (ptrFile op t e s f) :=
  h.anv (fun _ _ hr => hr.finish (fun _ hv => hf _ _ hv))

theorem execPset {t e : Nat} (h : s.Formed) : Lands (execPset t e s) := h.ptrFile (fun _ _ hr => hr.setPtr)

theorem execPseti {t e : Nat} (h : s.Formed) : Lands (execPseti t e s) := h.ptrFile (fun _ _ hr => hr.setPtr)

theorem execPget {t e : Nat} (h : s.Formed) : Lands (execPget t e s) := h.ptrFile (fun _ _ hr => hr.setS)

theorem execPmod {t e : Nat} (h : s.Formed) : Lands (execPmod t e s) := h.anvEng (fun _ _ hr => hr.postMod)

theorem execPstep {t e : Nat} (h : s.Formed) : Lands (execPstep t e s) := h.anvEng (fun _ _ hr => hr.bump)

theorem kop {fn t e : Nat} {f : BitVec 16 → BitVec 16 → BitVec 16} (h : s.Formed) :
    Lands (kop fn t e s f) := h.anvEng (fun _ _ hr => hr.setK)

theorem execKfrom {t e : Nat} (h : s.Formed) : Lands (execKfrom t e s) := h.anvEng (fun _ _ hr => hr.setK)

/-! ### The vector instructions -/

theorem vop {op fn t e : Nat} {f : Nat → Vec → Vec → Nat → Nat → LaneOut} (h : s.Formed) :
    Lands (vop op fn t e s f) := h.anvEng (fun _ _ hr => hr.setLanes)

theorem vmac {fn t e : Nat} {f : Engine → Nat → Vec → Vec → Engine}
    (h : s.Formed) (hf : ∀ (r : Engine) (x1 : Nat) (x2 x3 : Vec), r.Formed → (f r x1 x2 x3).Formed) :
    Lands (vmac fn t e s f) :=
  h.anvEng (fun _ _ hr => hf _ _ _ _ hr)

theorem vmacm {fn t e : Nat} {f : Engine → Nat → Vec → Vec → Engine}
    (h : s.Formed) (hf : ∀ (r : Engine) (x1 : Nat) (x2 x3 : Vec), r.Formed → (f r x1 x2 x3).Formed) :
    Lands (vmacm fn t e s f) :=
  h.anv (fun _ _ hr => hr.loading (fun _ _ hv => hv.loading (fun _ _ hw => (hw.only (fun _ h3 => h3.count)).finish (fun _ h3 => (hf _ _ _ _ h3).postMod.postMod))))

theorem execAred {t e : Nat} (h : s.Formed) : Lands (execAred t e s) := h.anvEng (fun _ _ hr => .setS (hr.same rfl rfl))

theorem cmul {c : Bool} {fn t e : Nat} (h : s.Formed) : Lands (cmul c fn t e s) := h.vop

theorem cmac {c : Bool} {fn t e : Nat} (h : s.Formed) : Lands (cmac c fn t e s) := h.anvEng (fun _ _ hr => hr.setAccs)

theorem execCmag2a {t e : Nat} (h : s.Formed) : Lands (execCmag2a t e s) := h.anvEng (fun _ _ hr => hr.dotMac)

theorem vcmp {fn t e : Nat} {f : Vec → Vec → Nat → Bool} (h : s.Formed) : Lands (vcmp fn t e s f) := h.anvEng (fun _ _ hr => hr.setK)

/-! ### Vector loads and stores, the butterfly, and DMA and queue instructions -/

theorem vmem {op fn t e : Nat} {f : Nat → Nat → State → State} (h : s.Formed)
    (hf : ∀ (x0 x1 : Nat) (r : State), r.Formed → (f x0 x1 r).Formed) :
    Lands (vmem op fn t e s f) :=
  h.anv (fun _ _ hr => hf _ _ _ hr)

theorem execVst {t e : Nat} (h : s.Formed) : Lands (execVst t e s) :=
  h.vmem (fun _ _ _ hr => hr.storing (fun _ hv => (hv.each (fun _ _ hw => hw.dstore)).finish (fun _ hw => hw.postMod)))

theorem cbflym {fn : Nat} {conj : Bool} {t e : Nat} (h : s.Formed) : Lands (cbflym fn conj t e s) :=
  h.anv (fun _ _ hr => hr.loading (fun _ _ hv => hv.loading (fun _ _ hw => ((hw.only (fun _ h3 => h3.count)).only (fun _ h3 => h3.flyStore)).finish
    (fun _ h3 => h3.butterfly))))

theorem dmaStart {e c : Nat} {d : Dma} (h : s.Formed) : (s.dmaStart e c d).Formed := by
  unfold State.dmaStart
  split
  · exact h.onEngine (fun _ hr => hr.onDma)
  · exact h.onEngine (fun _ hr => .raise (.markSet (hr.same rfl rfl)))

theorem chanWait {e : Nat} (h : s.Formed) : (s.chanWait e).Formed := by
  unfold State.chanWait
  refine h.onEngine (fun _ hr => ?_)
  split
  · exact hr.same rfl rfl
  · exact hr

theorem execDmast {t e : Nat} (h : s.Formed) : Lands (execDmast t e s) :=
  h.anv (fun _ _ hr => ite hr.anvFault (ite hr.chanWait (hr.loading (fun _ _ hv => hv.dmaStart.count.finish (fun _ hw => hw)))))

theorem dmaStatus {e w : Nat} (h : s.Formed) : (s.dmaStatus e w).Formed := h.finish (fun _ hr => hr.setS)

theorem execDmawt {t e : Nat} (h : s.Formed) : Lands (execDmawt t e s) := h.anv (fun _ _ hr => ite hr.chanWait hr.dmaStatus)

theorem execDmard {t e : Nat} (h : s.Formed) : Lands (execDmard t e s) := h.anv (fun _ _ hr => hr.dmaStatus)

theorem post {e q rd : Nat} {img : List Byte} (h : s.Formed) : (s.post e q rd img).Formed := by
  unfold State.post
  split
  · exact h.countRefusal.finish (fun _ hr => hr.setS)
  · exact .count (h.startAccept.onEngine (fun _ hr => hr.same rfl rfl))

theorem execPost {t e : Nat} (h : s.Formed) :
    Lands (execPost t e s) := h.anv (fun _ _ hr => ite hr.chanWait (hr.loading (fun _ _ hv => hv.post)))

theorem execTake {t e : Nat} (h : s.Formed) : Lands (execTake t e s) := by
  unfold Machine.execTake
  refine h.anv (fun _ _ hr => hr.storing (fun _ hv => ?_))
  split
  · exact hv.take.dstore.finish (fun _ hw => hw.setS)
  · exact hv.finish (fun _ hw => hw.setS)

theorem execDone {t e : Nat} (h : s.Formed) :
    Lands (execDone t e s) := h.anv (fun _ _ hr => ite (hr.done.finish (fun _ hv => hv.setS)) (hr.finish (fun _ hv => hv.setS)))

end State.Formed

end Sys2Proof.Machine

/-! PROOFS. The memories keep their form (O58): phase extraction, the launch side, emission and sequencers. -/

namespace Sys2Proof.Machine

namespace State.Formed

variable {s : State}

/-! ### Phase and temperature extraction -/

theorem onPhx {n : Nat} {f : PhxLane → PhxLane} (h : s.Formed) : (s.onPhx n f).Formed := h.beside

theorem writeRow {n no k g : Nat} {ws : List Nat} (h : s.Formed) : (s.writeRow n no k g ws).Formed := h.portWrite

theorem pointLost {n i : Nat} (h : s.Formed) : (s.pointLost n i).Formed := h.onPhx.count.faultAt

theorem ptRead {n i : Nat} (h : s.Formed) : (s.ptRead n i).Formed := by
  unfold State.ptRead
  split
  · exact h
  · exact h.eccClear
  · exact h.eccClear.pointLost

theorem ptWrite {n i : Nat} {p : Pt} (h : s.Formed) : (s.ptWrite n i p).Formed := h.onPhx.eccStrike

theorem combinePoint {n : Nat} {f : PhxFrame} {i : Nat} (h : s.Formed) : (s.combinePoint n f i).1.Formed := h.ptRead.ptWrite

theorem combineTo {n : Nat} {f : PhxFrame} {upto : Nat} (h : s.Formed) :
    (s.combineTo n f upto).1.Formed := foldl_fst h (fun _ _ hr => hr.combinePoint)

theorem formSample {n : Nat} {f : PhxFrame} {i : Nat} (h : s.Formed) :
    (s.formSample n f i).1.Formed := ite_fst h h.combineTo.ptRead.ptWrite.onPhx.count.count.count

theorem setPos {n : Nat} (h : s.Formed) :
    (s.setPos n).Formed := h.setFld.setFld.each (fun _ _ hr => hr.onEngine (fun _ hv => hv.same rfl rfl))

theorem posAll (h : s.Formed) : s.posAll.Formed := h.each (fun _ _ hr => hr.setPos)

theorem beginBlock {n no : Nat} (h : s.Formed) : (s.beginBlock n no).Formed := ite h (ite h.onPhx.count.setFld h.onPhx)

theorem rowDone {n : Nat} {f : PhxFrame} (h : s.Formed) : (s.rowDone n f).Formed := by
  unfold State.rowDone
  extract_lets _ _ _ _ s1 s2
  have hs2 : s2.Formed := h.beginBlock.writeRow.onPhx.setPos
  exact ite (ite hs2.rowEvent hs2) h.beginBlock.writeRow

theorem noteOut {n : Nat} {f : PhxFrame} (h : s.Formed) : (s.noteOut n f).Formed :=
  ite h (h.onPhx.only (fun _ hr => (hr.only (fun _ hv => hv.setFlag)).only (fun _ hv => hv.setFlag)))

theorem phaseSample {n b : Nat} (h : s.Formed) : (s.phaseSample n b).Formed := by
  unfold State.phaseSample
  split
  · exact h
  · exact ite h (ite h.noteOut.formSample.rowDone.onPhx h.noteOut.formSample.onPhx)

theorem execPhaseSample {t n b : Nat} (h : s.Formed) :
    Lands (execPhaseSample t n b s) := h.clocked (fun _ hr => hr.only (fun _ hv => hv.phaseSample))

theorem placeSample {c stamp i : Nat} {x : Sample} (h : s.Formed) : (s.placeSample c stamp i x).Formed := by
  unfold State.placeSample
  exact h.onPhx

theorem captureOutput {c b : Nat} (h : s.Formed) : (s.captureOutput c b).Formed := by
  unfold State.captureOutput
  dsimp only
  split
  · exact ite ⟨h.mem, h.eng, forall_mem_setIfInBounds h.wck ((h.wick (n := c / 2)).same rfl)⟩ h
  · exact h

theorem execDdcOutput {t c b : Nat} {k0 k1 k2 : List Int} (h : s.Formed) : Lands (execDdcOutput t c b k0 k1 k2 s) := by
  unfold Machine.execDdcOutput
  refine h.ticking (fun _ hr => hr.only (fun _ hv => ?_))
  extract_lets _ s0 r s1
  have hs1 : s1.Formed := hv.onHsc.onPath.pathOutput.captureOutput
  split
  · exact hs1.placeSample
  · exact hs1

theorem fillRows {n j : Nat} {all : Bool} (h : s.Formed) : (s.fillRows n j all).Formed := by
  unfold State.fillRows
  extract_lets _ _ _ _ _ s0 one _ s1 s2
  have hs2 : s2.Formed := ((h.beginBlock.foldl (fun _ _ hr => ite hr (hr.foldl (fun _ _ hv => hv.writeRow)))).onPhx).setPos
  exact ite h (ite hs2.rowEvent hs2)

theorem ckptShare {n no : Nat} (h : s.Formed) : (s.ckptShare n no).Formed := ite h h.beside.portWrite

theorem sendShare {n no : Nat} {eng : Bool} {a len : Nat} (h : s.Formed) : (s.sendShare n no eng a len).Formed :=
  ite h.beside (ite h.dramRead (h.dramRead.foldl (fun _ _ hr => hr.belSend)))

theorem sendHeld (h : s.Formed) : s.sendHeld.Formed := h.beside.foldl (fun _ _ hr => hr.sendShare)

theorem setStale {l : List (Nat × Nat)} (h : s.Formed) : (s.setStale l).Formed := h.beside.setFlag

theorem shareReady {n : Nat} (h : s.Formed) : (s.shareReady n).Formed := by
  unfold State.shareReady
  split
  · exact ite h.beside.sendShare h
  · exact h

theorem ckptSend {n no : Nat} (h : s.Formed) : (s.ckptSend n no).Formed := by
  unfold State.ckptSend
  refine ite h ?_
  extract_lets s1 _ s2
  have hs2 : s2.Formed := by
    unfold s2
    split
    · exact h.sendShare.beside.sendShare.setStale
    · exact h.sendShare
  exact ite ((ite hs2 hs2.beside.shareReady).setStale) (ite hs2 hs2.beside.shareReady)

theorem closeBlock {n j : Nat} {early reissue : Bool} (h : s.Formed) : (s.closeBlock n j early reissue).Formed := by
  unfold State.closeBlock
  extract_lets _ _ _ _ _ _ s1 _ _ _ _ _ s2 s3 _ _ s4 s5
  have hs5 : s5.Formed := h.fillRows.setFlag.setFld.portWrite.drawn.onPhx
  exact (((ite hs5.faultAt hs5).count.setPos).setFlag.setLaneBit).engBlockClose.posAll.ckptShare.ckptSend

theorem phxRestart {n : Nat} (h : s.Formed) : (s.phxRestart n).Formed := by
  unfold State.phxRestart
  dsimp only
  split
  · exact h
  · exact (h.foldl (fun _ _ hr => hr.closeBlock)).onPhx.setFlag.setFlag.setLaneBit.setFlag.setFlag.setFlag.setLaneBit.setPos

theorem clearRefs {n stamp : Nat} (h : s.Formed) : (s.clearRefs n stamp).Formed := by
  unfold State.clearRefs
  exact h.onPhx

theorem askAnchor {n no : Nat} (h : s.Formed) : (s.askAnchor n no).1.Formed := by
  unfold State.askAnchor
  exact ite_fst h (.pair h.onPhx)

theorem phxStamp {n b stamp : Nat} (h : s.Formed) : (s.phxStamp n b stamp).1.Formed := by
  unfold State.phxStamp
  extract_lets _ _ s1 s2 s3
  have hs3 : s3.Formed := (ite (ite h.phxRestart h) ((ite h.phxRestart h).onPhx.setFlag.setLaneBit)).setFlag.only (fun _ hr => hr.clearRefs)
  exact ite_fst hs3.onPhx.setFlag (ite_fst hs3.onPhx.setFlag.setFlag.askAnchor hs3.onPhx.setFlag.setFlag)

theorem execLaneIdle {t n : Nat} (h : s.Formed) : Lands (execLaneIdle t n s) := h.clocked (fun _ hr => hr.only (fun _ hv => hv.setFlag))

theorem execPointStateEcc {t n i : Nat} (h : s.Formed) :
    Lands (execPointStateEcc t n i s) := h.clocked (fun _ hr => hr.only (fun _ hv => hv.pointLost))

theorem pathBoundary {n : Nat} (h : s.Formed) : (s.pathBoundary n).Formed := by
  unfold State.pathBoundary
  split
  · exact h
  · refine ite h ?_
    extract_lets _ _ _ s0 _ _ _ s1 s2 s3 one
    have hs1 : s1.Formed := ite h.beside ((h.beside.each (fun _ _ hr => hr.probeTake)).ddcSettled.took)
    have hone : ∀ (r : State) (x1 : Nat), r.Formed → (one r x1).Formed := fun _ _ hr => ite hr.setFld.onPath hr
    refine (hone _ _ (hone _ _ (ite ((ite hs1 hs1.phxRestart).clearRefs.onPhx) (ite hs1 hs1.phxRestart)))).onPhx.each (fun _ _ hr => ?_)
    split
    · exact hr.noteOut
    · exact hr

theorem execPathBoundary {t n : Nat} (h : s.Formed) :
    Lands (execPathBoundary t n s) := h.ticking (fun _ hr => hr.only (fun _ hv => hv.pathBoundary))

theorem execHscCalDone {t ttrim : Nat} {slices : List (Int × Int × Int)} (h : s.Formed) : Lands (execHscCalDone t ttrim slices s) :=
  h.ticking (fun _ hr => ite (hr.calDone.allRestart.each (fun _ _ hv => hv.phxRestart)) hr.calDone)

theorem setBreak {n : Nat} {on : Bool} (h : s.Formed) : (s.setBreak n on).Formed := h.setFlag.setFlag.setLaneBit.faultAt

theorem showDist {n : Nat} (h : s.Formed) : (s.showDist n).Formed := h.setFld.drawn

theorem traceEval {n : Nat} (h : s.Formed) : (s.traceEval n).Formed := by
  unfold State.traceEval
  extract_lets _ _ _ _ _ _ _ _ _ _ _ _ _ _ s1 s1' s2 _ s3
  have hs3 : s3.Formed := h.setFld.setFlag.setFlag.setFlag.setFlag.showDist.setFld.drawn.onPhx
  exact ite hs3 (ite hs3.onPhx.setBreak (ite hs3.onPhx.setBreak hs3.onPhx))

theorem execTraceEndEval {t n : Nat} (h : s.Formed) :
    Lands (execTraceEndEval t n s) := h.clocked (fun _ hr => hr.only (fun _ hv => hv.traceEval))

theorem evalDiscard {n : Nat} (h : s.Formed) : (s.evalDiscard n).Formed := h.onPhx

theorem breakOff {n : Nat} (h : s.Formed) : (s.breakOff n).Formed := ite h.onPhx.setBreak h.onPhx

theorem anchorResult {n tag : Nat} {ohms : ℚ} (h : s.Formed) :
    (s.anchorResult n tag ohms).Formed := ite h.onPhx h.onPhx.setFld.setFlag.setLaneBit.drawn

/-! ### Branches, repeat, wait and special registers -/

theorem branch {fn t e : Nat} {cond : Word → Bool} (h : s.Formed) : Lands (branch fn t e s cond) :=
  h.anv (fun _ _ hr => ite (hr.jumpTo (fun _ hv => hv)) (hr.jumpTo (fun _ hv => hv)))

theorem execJmp {t e : Nat} (h : s.Formed) : Lands (execJmp t e s) := h.anv (fun _ _ hr => hr.jumpTo (fun _ hv => hv))

theorem execCall {t e : Nat} (h : s.Formed) : Lands (execCall t e s) := h.anv (fun _ _ hr => hr.jumpTo (fun _ hv => hv.setS))

theorem execJr {t e : Nat} (h : s.Formed) : Lands (execJr t e s) := h.anv (fun _ _ hr => hr.jumpTo (fun _ hv => hv))

theorem execDbnz {t e : Nat} (h : s.Formed) : Lands (execDbnz t e s) := h.anv (fun _ _ hr => hr.jumpTo (fun _ hv => hv.setS))

theorem repeat_ {e n : Nat} (h : s.Formed) : (s.repeat e n).Formed := ite h.anvFault (.count (h.onEngine (fun _ hr => hr.same rfl rfl)))

theorem execRep {t e : Nat} (h : s.Formed) : Lands (execRep t e s) := h.anv (fun _ _ hr => hr.repeat_)

theorem execRepReg {t e : Nat} (h : s.Formed) : Lands (execRepReg t e s) := h.anv (fun _ _ hr => ite hr.anvFault hr.repeat_)

theorem execWait {t e : Nat} (h : s.Formed) : Lands (execWait t e s) := by
  refine h.anv (fun _ _ hr => .count (hr.onEngine (fun x hx => ?_)))
  extract_lets y
  have hy : y.Formed := .tryWait (hx.same rfl rfl)
  exact .ite (hy.same rfl rfl) hy

theorem execNop {t e : Nat} (h : s.Formed) : Lands (execNop t e s) := h.anvEng (fun _ _ hr => hr)

theorem execHalt {t e : Nat} (h : s.Formed) : Lands (execHalt t e s) := by
  unfold Machine.execHalt
  refine h.anvEng (fun _ _ hr => ?_)
  split
  · exact hr.same rfl rfl
  · exact .ite (hr.same rfl rfl) hr

theorem execSrd {t e : Nat} (h : s.Formed) : Lands (execSrd t e s) := h.anv (fun _ _ hr => hr.finish (fun _ hv => .setS (hv.same rfl rfl)))

theorem execSwr {t e : Nat} (h : s.Formed) : Lands (execSwr t e s) := by
  unfold Machine.execSwr
  refine h.anv (fun _ _ hr => ?_)
  extract_lets s1
  have hs1 : s1.Formed := by
    unfold s1
    refine hr.finish (fun _ hv => ?_)
    dsimp only
    split
    · exact hv.same rfl rfl
    · exact hv.clearAstat
    · exact hv.same rfl rfl
  split
  · exact hs1.shareReady
  · exact hs1

theorem execBxadv {t e : Nat} (h : s.Formed) : Lands (execBxadv t e s) := h.anvEng (fun _ _ hr => hr.same rfl rfl)

/-! ### The launch side -/

theorem setWick {n st : Nat} (h : s.Formed) : (s.setWick n st).Formed := h.setFld.setLaneBit.setLaneBit

theorem takeReg {win n : Nat} {held : List Nat} {r : RegDef} (h : s.Formed) : (s.takeReg win n held r).Formed :=
  ite h (ite h.takeLive (h.each (fun _ _ hr => ite hr hr.takeLive)))

theorem takeWindow {win n : Nat} {held : List Nat} (h : s.Formed) :
    (s.takeWindow win n held).Formed := (h.foldl (fun _ _ hr => hr.takeReg)).took

theorem tblStat {n : Nat} (h : s.Formed) : (s.tblStat n).Formed := h.setLaneBit

theorem tableSwitch {n b : Nat} (h : s.Formed) : (s.tableSwitch n b).Formed := by
  unfold State.tableSwitch
  extract_lets _ s1 put
  have hput : ∀ (r : State) (x1 : Fld), r.Formed → (put r x1).Formed := fun _ _ hr => hr.takeLive
  exact (hput _ _ (hput _ _ h.onLane)).tblStat

theorem setIapp {n : Nat} (h : s.Formed) : (s.setIapp n).Formed := h.setFld.drawn

theorem lanTake {n : Nat} (h : s.Formed) : (s.lanTake n).Formed := ite ((ite h.takeWindow h.takeWindow.onLane).setIapp) h

theorem orxLaneTake {n : Nat} (h : s.Formed) :
    (s.orxLaneTake n).Formed := (ite ((h.takeWindow.each (fun _ _ hr => hr.orxTake)).cmShow) h).schedTake

theorem phxTake {n : Nat} (h : s.Formed) : (s.phxTake n).Formed := by
  unfold State.phxTake
  refine ite ?_ h
  extract_lets _ _ s0 s1 s2
  have hs1 : s1.Formed := (ite h.phxRestart h).takeWindow
  have hs2 : s2.Formed := (ite hs1.onPhx hs1).only (fun _ hr => hr.showDist)
  exact ite hs2.breakOff hs2

theorem ddcTake {n at_ : Nat} {restart : Bool} (h : s.Formed) : (s.ddcTake n at_ restart).Formed := by
  unfold State.ddcTake
  extract_lets _ s1
  have hs1 : s1.Formed := (h.each (fun _ _ hr => hr.probeTake)).ddcSettled.took
  exact ite hs1 hs1.phxRestart

theorem boundaryTake {n : Nat} (h : s.Formed) :
    (s.boundaryTake n).Formed := ite h.lanTake.orxLaneTake.phxTake.takeWindow h.lanTake.orxLaneTake.phxTake

theorem tablesNow {n : Nat} (h : s.Formed) : (s.tablesNow n).Formed := h.each (fun _ _ hr => hr.tableSwitch)

theorem geoSwitch {n : Nat} (h : s.Formed) : (s.geoSwitch n).Formed := h.phxRestart.onLane.tablesNow.boundaryTake

theorem settleLane {n : Nat} (h : s.Formed) : (s.settleLane n).Formed := by
  unfold State.settleLane
  refine ite h ?_
  extract_lets s1 _ s2
  have hs2 : s2.Formed := (ite h.phxRestart h).onLane.tablesNow.boundaryTake.only (fun _ hr => hr.rangesFollow)
  exact ite hs2.ddcTake hs2

theorem conversionTake {unit : Nat} (h : s.Formed) :
    (s.conversionTake unit).Formed := h.conversionDone.each (fun _ _ hr => hr.only (fun _ hv => hv.settleLane))

theorem execMfConversionDone {t unit : Nat} (h : s.Formed) :
    Lands (execMfConversionDone t unit s) := h.ticking (fun _ hr => hr.conversionTake)

theorem suppressed {n b : Nat} (h : s.Formed) : (s.suppressed n b).Formed := h.setFlag.setFld.count

theorem delayed {n b d : Nat} (h : s.Formed) : (s.delayed n b d).Formed := h.setFlag.setFld.setFld.count.setFld

theorem fixRelease {n b at_ req newGeo : Nat} (h : s.Formed) : (s.fixRelease n b at_ req newGeo).Formed := h.onLane.beside.delayed

theorem request {n b at_ req : Nat} (h : s.Formed) : (s.request n b at_ req).Formed := by
  unfold State.request
  refine ite h.suppressed ?_
  split
  · exact ite h.suppressed h.fixRelease
  · exact ite (ite h.suppressed h.fixRelease) (ite h.suppressed (ite (ite h.fixRelease.onLane h.fixRelease) (ite h.onLane.fixRelease h.onLane.suppressed)))

theorem geoBegin {n : Nat} (h : s.Formed) : (s.geoBegin n).Formed := ite h.onLane h

theorem wickGo {n pc next : Nat} (h : s.Formed) : (s.wickGo n pc next).Formed := h.setFld.setWick.onWick (fun _ hr => hr.same rfl)

theorem launchIssue {n at_ : Nat} (h : s.Formed) : (s.launchIssue n at_).Formed := h.request.wickGo

theorem wickFault {n code : Nat} (h : s.Formed) : (s.wickFault n code).Formed := h.setWick.setFld.setLaneBit.settleLane.faultAt

theorem wickDo {n op hi : Nat} {f : State → Nat → State} (h : s.Formed) (hf : ∀ (r : State) (x1 : Nat), r.Formed → (f r x1).Formed) :
    (s.wickDo n op hi f).Formed :=
  ite (ite (hf _ _ h) h.wickFault) h

theorem wickWake {n : Nat} {w : WckWait} (h : s.Formed) : (s.wickWake n w).Formed := ite (h.setWick.onWick (fun _ hr => hr.same rfl)) h

theorem setLoops {n : Nat} {ls : List (Nat × Nat)} (h : s.Formed) : (s.setLoops n ls).Formed := .setFld (h.onWick (fun _ hr => hr.same rfl))

theorem endLoop {n : Nat} (h : s.Formed) : (s.endLoop n).Formed := by
  unfold State.endLoop
  split
  · exact h.wickFault
  · exact ite h.wickFault (ite h.setLoops.setFld h.setLoops.setFld)

theorem beginLoop {n k : Nat} (h : s.Formed) : (s.beginLoop n k).Formed := ite h.wickFault h.setLoops.setFld

theorem wickReady {n k : Nat} (h : s.Formed) : (s.wickReady n k).Formed := by
  induction k with
  | zero => exact h.wickWake.wickWake
  | succ k ih =>
    unfold State.wickReady
    exact ite (ih.wickDo (fun _ _ hr => hr.beginLoop)) (ite (ih.wickDo (fun _ _ hr => ite hr.endLoop hr.wickFault)) ih)

theorem launchNow {n : Nat} (h : s.Formed) :
    (s.launchNow n).Formed := h.wickDo (fun _ _ hr => ite (hr.setWick.setFlag.onWick (fun _ hv => hv.same rfl)) hr.launchIssue)

theorem launchesFirst {n at_ : Nat} (h : s.Formed) : (s.launchesFirst n at_).Formed := h.each (fun _ _ hr => hr.wickReady.launchNow)

theorem stallEnd {n b : Nat} (h : s.Formed) : (s.stallEnd n b).Formed := ite h.count.setFlag.launchIssue h

theorem stallTurn {n b : Nat} (h : s.Formed) : (s.stallTurn n b).Formed := ite h.launchesFirst.stallEnd h

theorem discardCells {n : Nat} (h : s.Formed) : (s.discardCells n).Formed := h.onLane.foldl (fun _ _ hr => hr.suppressed.stallEnd)

/-! ### Emitter drive and Quench -/

theorem enterLane {n : Nat} {st : LaneSt} (h : s.Formed) : (s.enterLane n st).Formed := h.onLane.setLaneBit.setLaneBit.cmShow

theorem stopLane {n : Nat} {st : LaneSt} (h : s.Formed) :
    (s.stopLane n st).Formed := h.enterLane.discardCells.rampFinish.rampFinish.settleLane

theorem startEmitting {n : Nat} (h : s.Formed) : (s.startEmitting n).Formed := h.enterLane.onLane

theorem fence (h : s.Formed) : s.fence.Formed := h.beside.setFld.each (fun _ _ hr => hr.only (fun _ hv => hv.stopLane))

theorem releaseLease {reason : Nat} (h : s.Formed) : (s.releaseLease reason).Formed := ite h.fence.beside.setFlag h

theorem quenchLane {s0 : State} {n : Nat} (h : s0.Formed) : (s0.quenchLane n).Formed := by
  unfold State.quenchLane
  exact h.onLane.setLaneBit.stopLane.evalDiscard.onLane

theorem addCauses {m : Nat} (h : s.Formed) : (s.addCauses m).Formed := h.setFld

theorem nameCause {cs : List Cause} (h : s.Formed) : (s.nameCause cs).Formed := h.setFld.setFlag.setFlag

theorem quenchTrip {cs : List Cause} (h : s.Formed) : (s.quenchTrip cs).Formed := by
  unfold State.quenchTrip
  refine ite h ?_
  extract_lets _ _ _ s0 _ s1
  have hs1 : s1.Formed := ite (h.addCauses.only (fun _ hr => hr.setFld.nameCause)) h.drawn.setFld.setFld.setFld.setFld.beside.nameCause
  exact ite (ite hs1.beside hs1) ((((ite hs1.beside hs1).each (fun _ _ hr => hr.quenchLane)).only (fun _ hr => hr.count)).releaseLease)

theorem execQforce {t : Nat} {src : Source} (h : s.Formed) : Lands (execQforce t src s) :=
  h.ticking (fun _ hr => hr.pairWhole (fun _ hv => hv.pastLocks (fun _ hw => hw.quenchTrip)))

theorem clearFault {n : Nat} (h : s.Formed) : (s.clearFault n).Formed := h.setFld.setFld.setFlag.setFlag.setFlag.setFld

theorem startSampling {n : Nat} (h : s.Formed) : (s.startSampling n).Formed := h.onLane.setFld.setFld

theorem enableLane {n : Nat} (h : s.Formed) :
    (s.enableLane n).Formed := ite h.setLaneBit.clearFault.enterLane.startSampling h.setLaneBit.clearFault

theorem disableLane {n : Nat} (h : s.Formed) : (s.disableLane n).Formed := ite h.setLaneBit h.setLaneBit.stopLane

theorem emitWrite {src : Source} {val : Word} (h : s.Formed) : (s.emitWrite src val).Formed := by
  unfold State.emitWrite
  extract_lets _ _ _ _ _ s1 s2
  have hs2 : s2.Formed := (h.each (fun _ _ hr => hr.disableLane)).each (fun _ _ hr => hr.enableLane)
  exact ite hs2.clamp (ite hs2.clamp hs2)

theorem lanCtrl {src : Source} {val : Word} (h : s.Formed) : (s.lanCtrl src val).Formed := ite h.emitWrite.quenchTrip h.emitWrite

theorem execEmitEnable {t : Nat} {src : Source} {mask : Nat} (h : s.Formed) : Lands (execEmitEnable t src mask s) :=
  h.ticking (fun _ hr => hr.pairWhole (fun _ hv => hv.pastLocks (fun _ hw => hw.emitWrite)))

theorem execEmitDisable {t : Nat} {src : Source} {mask : Nat} (h : s.Formed) : Lands (execEmitDisable t src mask s) :=
  h.ticking (fun _ hr => hr.pairWhole (fun _ hv => hv.pastLocks (fun _ hw => hw.emitWrite)))

theorem qcfgWrite {src : Source} {val : Word} (h : s.Formed) : (s.qcfgWrite src val).Formed := ite h.setFld.setFld.clamp h.setFld.setFld

theorem stringSample {x : StringSample} (h : s.Formed) : (s.stringSample x).1.Formed := by
  unfold State.stringSample
  refine ite_fst h ?_
  dsimp only
  split
  · exact h.onLane.setFld
  · exact ite_fst h.onLane.setFld.setFld h.onLane.setFld

theorem checkPass {n : Nat} (h : s.Formed) : (s.checkPass n).Formed := ite h.enterLane h

theorem stringSamples {xs : List StringSample} (h : s.Formed) : (s.stringSamples xs).Formed := by
  unfold State.stringSamples
  extract_lets r
  have hr : r.1.Formed := foldl_fst h (fun _ _ hr => hr.stringSample)
  exact hr.quenchTrip.each (fun _ _ hr => hr.checkPass)

theorem execStringSample {t : Nat} {samples : List StringSample} (h : s.Formed) :
    Lands (execStringSample t samples s) := h.ticking (fun _ hr => hr.stringSamples)

theorem rampADone {n : Nat} (h : s.Formed) : (s.rampADone n).Formed := by
  unfold State.rampADone
  refine ite ?_ h
  split
  · exact ite h.enterLane h.startEmitting
  · exact h.startEmitting

theorem execStringARampDone {t n : Nat} (h : s.Formed) :
    Lands (execStringARampDone t n s) := h.ticking (fun _ hr => hr.only (fun _ hv => hv.rampADone))

theorem clearFails {m : Nat} (h : s.Formed) : (s.clearFails m).Formed := h.beside.setFlag.setFlag.addCauses

theorem overcurrent {n : Nat} {b : Bool} {i1 i2 : Nat} (h : s.Formed) :
    (s.overcurrent n b i1 i2).Formed := ite h (ite h.setFld.clearFails h.setFld.quenchTrip)

theorem execOvercurrent {t n : Nat} {b : Bool} {i1 i2 : Nat} (h : s.Formed) : Lands (execOvercurrent t n b i1 i2 s) :=
  h.ticking (fun _ hr => hr.only (fun _ hv => hv.overcurrent))

theorem monitorWindow {n avg0 : Nat} (h : s.Formed) : (s.monitorWindow n avg0).1.Formed := by
  unfold State.monitorWindow
  exact ite_fst h (ite_fst (ite h.beside h) (ite_fst (.pair h.onLane.setFlag) (.pair h.onLane)))

theorem execMonitorWindowEnd {t : Nat} {averages : List Nat} (h : s.Formed) : Lands (execMonitorWindowEnd t averages s) := by
  unfold Machine.execMonitorWindowEnd
  exact h.ticking (fun _ hr => hr.only (fun _ hv => (foldl_fst hv (fun _ _ hw => .pair hw.monitorWindow)).quenchTrip))

theorem apcUpdate {n : Nat} (h : s.Formed) :
    (s.apcUpdate n).Formed := ite h (ite h.setFld.drawn.onLane.setIapp.setFlag.quenchTrip h.setFld.drawn.onLane.setIapp)

theorem execApcUpdate {t n : Nat} (h : s.Formed) : Lands (execApcUpdate t n s) := h.ticking (fun _ hr => hr.only (fun _ hv => hv.apcUpdate))

theorem execDecayCheck {t n ia ib : Nat} (h : s.Formed) : Lands (execDecayCheck t n ia ib s) := by
  unfold Machine.execDecayCheck
  refine h.ticking (fun _ hr => ?_)
  split
  · exact hr.only (fun _ hv => ite hv.onLane.setFlag hv.onLane)
  · exact hr

theorem execInterlockChange {t : Nat} {high : Bool} {held : Nat} (h : s.Formed) : Lands (execInterlockChange t high held s) :=
  h.ticking (fun _ hr => hr.only (fun _ hv => ite hv.beside.setFlag hv.beside.setFlag.quenchTrip))

theorem clearWatch (h : s.Formed) : s.clearWatch.Formed := ite h.beside h

theorem quenchClear {src : Source} (h : s.Formed) :
    (s.quenchClear src).Formed := ite h.clamp (h.setFlag.setFlag.beside.each (fun _ _ hr => hr.startSampling))

theorem execQuenchClear {t : Nat} {src : Source} (h : s.Formed) : Lands (execQuenchClear t src s) :=
  h.ticking (fun _ hr => hr.pairWhole (fun _ hv => hv.pastLocks (fun _ hw => hw.quenchClear)))

theorem quenchClearEnd (h : s.Formed) : s.quenchClearEnd.Formed :=
  ite (((h.each (fun _ _ hr => hr.enterLane)).each (fun _ _ hr => hr.clearFault)).beside.setFlag.setLive.setFld.setFld) h.clearFails

theorem execQclrCheckEnd {t : Nat} (h : s.Formed) : Lands (execQclrCheckEnd t s) := by
  unfold Machine.execQclrCheckEnd
  refine h.ticking (fun _ hr => ?_)
  split
  · exact hr.only (fun _ hv => hv.quenchClearEnd)
  · exact hr

theorem leadStart {n edge : Nat} {fromCell : Bool} (h : s.Formed) : (s.leadStart n edge fromCell).Formed := h.onLane

theorem boosterLead {n : Nat} (h : s.Formed) : (s.boosterLead n).Formed := by
  unfold State.boosterLead
  refine ite h ?_
  split
  · exact ite h.leadStart h
  · split
    · exact ite h.leadStart h
    · exact h

theorem execBoosterLead {t n : Nat} (h : s.Formed) :
    Lands (execBoosterLead t n s) := h.ticking (fun _ hr => hr.only (fun _ hv => hv.boosterLead))

theorem execBoosterPulseStart {t n ua : Nat} (h : s.Formed) : Lands (execBoosterPulseStart t n ua s) :=
  h.ticking (fun _ hr => hr.only (fun _ hv => (ite hv.setFld hv).onLane))

theorem execBoosterPulseEnd {t n : Nat} (h : s.Formed) :
    Lands (execBoosterPulseEnd t n s) := h.ticking (fun _ hr => hr.only (fun _ hv => hv.onLane))

theorem execBoosterTailEnd {t n : Nat} (h : s.Formed) :
    Lands (execBoosterTailEnd t n s) := h.ticking (fun _ hr => hr.only (fun _ hv => hv.onLane))

theorem chirpPut {src : Source} {n a k : Nat} {val old : Word} (h : s.Formed) :
    (s.chirpPut src n a k val old).Formed := ite h.clamp h.onLane.markDirty

theorem chirpWrite {src : Source} {a : Nat} {val : Word} (h : s.Formed) : (s.chirpWrite src a val).Formed := h.chirpPut

theorem execTableCopybackDone {t n : Nat} (h : s.Formed) :
    Lands (execTableCopybackDone t n s) := h.ticking (fun _ hr => hr.only (fun _ hv => hv.onLane.tblStat))

theorem lanCommit (h : s.Formed) : s.lanCommit.Formed := (h.beside.each (fun _ _ hr => hr.only (fun _ hv => hv.onLane.tblStat))).takeLive

/-! ### The sequencers -/

theorem wickStop {n : Nat} (h : s.Formed) :
    (s.wickStop n).Formed := .settleLane ((ite h.count.setFlag h).setWick.setLaneBit.onWick (fun _ hr => hr.same rfl))

theorem wickStart {n : Nat} (h : s.Formed) : (s.wickStart n).Formed := .drawn (h.setWick.setLaneBit.setFld.onWick (fun _ hr => hr.same rfl))

theorem wckCtrl {src : Source} {val : Word} (h : s.Formed) : (s.wckCtrl src val).Formed := by
  unfold State.wckCtrl
  extract_lets _ _ _ _ _ _ s1 _ s2 s3 _ s4
  have hs3 : s3.Formed := ((h.each (fun _ _ hr => hr.setWick.setFld)).each (fun _ _ hr => hr.wickStart)).each (fun _ _ hr => hr.only (fun _ hv => hv.wickStop))
  have hs4 : s4.Formed := ite hs3.clamp (ite hs3.clamp hs3)
  exact ite hs4.clamp hs4

theorem wckCtrlBit {src : Source} {run clr : Nat} (h : s.Formed) : (s.wckCtrlBit src run clr).Formed := h.pastLocks (fun _ hr => hr.wckCtrl)

theorem wickProgWrite {src : Source} {a : Nat} {val : Word} (h : s.Formed) : (s.wickProgWrite src a val).Formed := by
  unfold State.wickProgWrite
  exact ite h.clamp (ite h.clamp (h.onWick (fun _ hw => ⟨swf_sput _ _ _ _ hw.prog⟩)))

theorem wickPcWrite {src : Source} {n : Nat} {val : Word} (h : s.Formed) :
    (s.wickPcWrite src n val).Formed := ite h.clamp (ite h.clamp h.setFld)

theorem execWickProgramWrite {t : Nat} {src : Source} {addr val : Word} (h : s.Formed) : Lands (execWickProgramWrite t src addr val s) :=
  h.ticking (fun _ hr => ite (hr.pastLocks (fun _ hv => hv.wickProgWrite)) (ite (hr.pastLocks (fun _ hv => hv.wickPcWrite)) hr))

theorem wickTick {n pc : Nat} {f : State → State} (h : s.Formed) (hf : ∀ r : State, r.Formed → (f r).Formed) :
    (s.wickTick n pc f).Formed := (hf _ h).wickGo

theorem wickPark {n : Nat} {w : WckWait} {next : Nat} (h : s.Formed) :
    (s.wickPark n w next).Formed := h.setFld.setWick.onWick (fun _ hr => hr.same rfl)

theorem execWckHalt {t n : Nat} (h : s.Formed) :
    Lands (execWckHalt t n s) := h.clocked (fun _ hr => ite (ite hr.setFld.wickStop hr.wickFault) hr)

theorem execWckWait {t n : Nat} (h : s.Formed) :
    Lands (execWckWait t n s) := h.clocked (fun _ hr => hr.wickDo (fun _ _ hv => ite hv.wickFault hv.wickPark))

theorem execWaitExpiry {t n : Nat} (h : s.Formed) : Lands (execWaitExpiry t n s) := h.clocked (fun _ hr => hr.wickWake)

theorem execWckLaunch {t n : Nat} (h : s.Formed) :
    Lands (execWckLaunch t n s) := h.clocked (fun _ hr => hr.only (fun _ hv => hv.launchesFirst.launchNow))

theorem execWckAlign {t n : Nat} (h : s.Formed) :
    Lands (execWckAlign t n s) := h.clocked (fun _ hr => hr.wickDo (fun _ _ hv => hv.wickPark))

theorem execAlignGridTick {t n : Nat} (h : s.Formed) : Lands (execAlignGridTick t n s) := h.clocked (fun _ hr => hr.wickWake)

theorem execWckPps {t n : Nat} (h : s.Formed) : Lands (execWckPps t n s) :=
  h.clocked (fun _ hr => ite (ite (hr.wickPark.onWick (fun _ hv => hv.same rfl)) hr.wickFault) hr)

theorem wickPps {stamp : Nat} (h : s.Formed) : (s.wickPps stamp).Formed :=
  h.each (fun _ _ hr => hr.only (fun _ hv => hv.setWick.setFlag.onWick (fun _ hw => hw.same rfl)))

theorem execPpsTimeout {t n : Nat} (h : s.Formed) :
    Lands (execPpsTimeout t n s) := h.clocked (fun _ hr => hr.only (fun _ hv => hv.wickWake.setFlag.faultAt))

theorem execWckLoop {t n : Nat} (h : s.Formed) : Lands (execWckLoop t n s) := h.clocked (fun _ hr => hr.wickDo (fun _ _ hv => hv.beginLoop))

theorem execWckEndl {t n : Nat} (h : s.Formed) : Lands (execWckEndl t n s) := h.clocked (fun _ hr => ite (ite hr.endLoop hr.wickFault) hr)

theorem execWckJmp {t n : Nat} (h : s.Formed) :
    Lands (execWckJmp t n s) := h.clocked (fun _ hr => hr.wickDo (fun _ _ hv => hv.wickTick (fun _ hw => hw)))

theorem execWckTone {t n : Nat} (h : s.Formed) : Lands (execWckTone t n s) :=
  h.clocked (fun _ hr => hr.wickDo (fun _ _ hv => ite hv.wickFault (hv.wickTick (fun _ hw => hw.onWick (fun _ h3 => h3.same rfl)))))

theorem execWickUndefinedOperation {t n : Nat} (h : s.Formed) :
    Lands (execWickUndefinedOperation t n s) := h.clocked (fun _ hr => hr.only (fun _ hv => hv.wickFault))

theorem execToneOn {t n : Nat} (h : s.Formed) : Lands (execToneOn t n s) := by
  unfold Machine.execToneOn
  refine h.ticking (fun _ hr => ?_)
  split
  · exact hr.only (fun _ hv => hv.onWick (fun _ hw => hw.same rfl))
  · exact hr

theorem execToneOff {t n : Nat} (h : s.Formed) : Lands (execToneOff t n s) := by
  unfold Machine.execToneOff
  refine h.ticking (fun _ hr => ?_)
  split
  · exact hr.only (fun _ hv => .each (hv.onWick (fun _ hw => hw.same rfl)) (fun _ _ hw => hw.onHsc))
  · exact hr

theorem trigEvent {n code outcome src action len base : Nat} {trunc : Bool} (h : s.Formed) :
    (s.trigEvent n code outcome src action len base trunc).Formed :=
  ite h.devicePost h.devicePost.count

theorem triggerAction {n action code : Nat} (h : s.Formed) : (s.triggerAction n action code).Formed :=
  ite h.count.trigEvent (ite (h.count.setFlag.setFlag.onWick (fun _ hr => hr.same rfl)) h.count.trigEvent)

theorem execTriggerAction {t n : Nat} (h : s.Formed) : Lands (execTriggerAction t n s) := by
  unfold Machine.execTriggerAction
  refine h.clocked (fun _ hr => ?_)
  split
  · exact hr.only (fun _ hv => .triggerAction (hv.onWick (fun _ hw => hw.same rfl)))
  · exact hr

theorem captureEnd {n : Nat} {c : Capture} {len : Nat} {samples : List Int} {trunc : Bool} (h : s.Formed) :
    (s.captureEnd n c len samples trunc).Formed :=
  .trigEvent (h.dramWrite.setFlag.onWick (fun _ hr => hr.same rfl))

theorem execCaptureEnd {t n : Nat} {samples : List Int} (h : s.Formed) : Lands (execCaptureEnd t n samples s) := by
  unfold Machine.execCaptureEnd
  refine h.clocked (fun _ hr => ?_)
  split
  · exact hr.only (fun _ hv => hv.captureEnd)
  · exact hr

theorem execCaptureTruncate {t n len : Nat} {samples : List Int} (h : s.Formed) : Lands (execCaptureTruncate t n len samples s) := by
  unfold Machine.execCaptureTruncate
  refine h.clocked (fun _ hr => ?_)
  split
  · exact hr.only (fun _ hv => hv.captureEnd)
  · exact hr

end State.Formed

end Sys2Proof.Machine

/-! PROOFS. The memories keep their form (O58): auxiliary measurement, the memory controller, compression and the ports. -/

namespace Sys2Proof.Machine

namespace State.Formed

variable {s : State}

/-! ### Auxiliary measurement -/

theorem onAux {f : Aux → Aux} (h : s.Formed) : (s.onAux f).Formed := h.beside

theorem setCalf {k : Nat} {w : Word} (h : s.Formed) : (s.setCalf k w).Formed := h.onAux

theorem auxOpen {fuel : Nat} (h : s.Formed) : (s.auxOpen fuel).Formed := by
  induction fuel generalizing s with
  | zero => exact h
  | succ fuel ih =>
    unfold State.auxOpen
    split
    · exact h
    · exact ite h (ih h.onAux)

theorem auxAdvance (h : s.Formed) : s.auxAdvance.Formed := h.auxOpen

theorem auxLate {old : State} (h : s.Formed) : (s.auxLate old).Formed := ite h.onAux.auxAdvance h

theorem auxTag {src bits : Nat} (h : s.Formed) : (s.auxTag src bits).Formed := ite h.onAux.beside h.onAux

theorem auxShow {src : Nat} (h : s.Formed) : (s.auxShow src).Formed := h.setFld

theorem auxOff (h : s.Formed) : s.auxOff.Formed := h.onAux.auxShow.setFlag.setFlag.setFlag

theorem auxStart {j : AuxJob} {t0 : Nat} (h : s.Formed) : (s.auxStart j t0).Formed := h.onAux.auxShow.setFlag.setFlag.setFlag

theorem seqEnd (h : s.Formed) : s.seqEnd.Formed := h.onAux.setLive.setStaged

theorem seqGo {k t0 : Nat} (h : s.Formed) : (s.seqGo k t0).Formed := by
  unfold State.seqGo
  dsimp only
  split
  · exact ite h.seqEnd h.onAux.setFld.auxStart
  · exact ite h h.seqEnd

theorem injDeliver {q : AuxReq} {val : Int} {tag : Nat} {ohms : ℚ} (h : s.Formed) : (s.injDeliver q val tag ohms).Formed :=
  h.onAux.each (fun _ _ hr => hr.only (fun _ hv => hv.anchorResult))

theorem injOff {q : AuxReq} (h : s.Formed) : (s.injOff q).Formed := h.injDeliver

theorem calStart {t0 : Nat} (h : s.Formed) : (s.calStart t0).Formed := h.auxOff.onAux.setFlag.setFld.setFld

theorem refWait (h : s.Formed) : s.refWait.Formed := h.setFlag

theorem auxNext {k t0 fuel : Nat} (h : s.Formed) : (s.auxNext k t0 fuel).Formed := by
  induction fuel generalizing s with
  | zero => exact h
  | succ fuel ih =>
    unfold State.auxNext
    refine ite h ?_
    dsimp only
    split
    · exact ite h (ite (ih h.onAux.injOff) h.onAux.auxStart.onAux)
    · exact ite (ite h.calStart h) (ite h.seqGo h)

theorem auxResume (h : s.Formed) : s.auxResume.Formed := h.auxNext.refWait

theorem entryAbort (h : s.Formed) : s.entryAbort.Formed := h.auxOff.onAux.count

theorem auxRequest {src lanes : Nat} (h : s.Formed) : (s.auxRequest src lanes).Formed :=
  ite h.auxAdvance.onAux (ite h.auxAdvance.injOff ((ite h.auxAdvance.onAux.entryAbort h.auxAdvance.onAux).auxResume))

theorem seqStart (h : s.Formed) : s.seqStart.Formed := ite h (ite h.onAux.setFld.auxNext.refWait h.onAux.setFld.refWait)

theorem seqStop (h : s.Formed) : s.seqStop.Formed := ite h.onAux.auxOff.auxResume h.onAux.refWait

theorem putSeqRun {on : Bool} (h : s.Formed) : (s.putSeqRun on).Formed := h.setStaged.setLive.setPend

theorem execSeqStart {t : Nat} (h : s.Formed) : Lands (execSeqStart t s) := h.clocked (fun _ hr => hr.putSeqRun.seqStart)

theorem execSeqStop {t : Nat} (h : s.Formed) : Lands (execSeqStop t s) := h.clocked (fun _ hr => hr.putSeqRun.auxAdvance.seqStop)

theorem injWrite {src : Source} {val : Word} (h : s.Formed) : (s.injWrite src val).Formed := ite h.clamp (ite h.auxRequest h)

theorem execInjectRequest {t : Nat} {src : Source} {k : Nat} (h : s.Formed) : Lands (execInjectRequest t src k s) :=
  h.clocked (fun _ hr => hr.pastLocks (fun _ hv => hv.injWrite))

theorem refReady (h : s.Formed) : s.refReady.Formed := by
  unfold State.refReady
  split
  · exact ite h h.auxAdvance.onAux.setFlag.auxLate.auxResume
  · exact h

theorem execRefReady {t : Nat} (h : s.Formed) : Lands (execRefReady t s) := h.clocked (fun _ hr => hr.refReady)

theorem auxBreak (h : s.Formed) : s.auxBreak.Formed := by
  unfold State.auxBreak
  split
  · exact h
  · exact h.auxOff.onAux.setFlag.setFld
  · extract_lets _ s1
    have hs1 : s1.Formed := by
      unfold s1
      split
      · exact h.auxTag
      · exact h
    exact hs1.auxOff.onAux

theorem calCommand {cause : Nat} (h : s.Formed) : (s.calCommand cause).Formed := by
  unfold State.calCommand
  refine ite h ?_
  extract_lets s' _ s1 s2
  have hs2 : s2.Formed := h.auxAdvance.onAux.setFld.setFld
  exact ite hs2.refWait ((ite hs2.entryAbort hs2).auxResume)

theorem execAuxCalibrate {t : Nat} {src : Source} (h : s.Formed) :
    Lands (execAuxCalibrate t src s) := h.clocked (fun _ hr => hr.pastLocks (fun _ hv => hv.calCommand))

theorem auxTemp {temp : Nat} (h : s.Formed) :
    (s.auxTemp temp).Formed := ite (ite h.setFld.calCommand (ite h.setFld h.setFld.beside)) h.setFld

theorem execAuxTempCheck {t temp : Nat} (h : s.Formed) :
    Lands (execAuxTempCheck t temp s) := h.clocked (fun _ hr => hr.only (fun _ hv => hv.auxTemp))

theorem auxStep {st nxt : AuxStage} {len : State → AuxJob → Nat} {f : State → AuxJob → State}
    (h : s.Formed) (hf : ∀ (r : State) (x1 : AuxJob), r.Formed → (f r x1).Formed) :
    (s.auxStep st nxt len f).Formed := by
  unfold State.auxStep
  split
  · exact ite (hf _ _ h.onAux) h
  · exact h

theorem execDischargeStart {t : Nat} (h : s.Formed) :
    Lands (execDischargeStart t s) := h.clocked (fun _ hr => hr.auxStep (fun _ _ hv => hv))

theorem execDischargeEnd {t : Nat} (h : s.Formed) : Lands (execDischargeEnd t s) := h.clocked (fun _ hr => hr.auxStep (fun _ _ hv => hv))

theorem execSettleEnd {t : Nat} (h : s.Formed) :
    Lands (execSettleEnd t s) := h.clocked (fun _ hr => hr.auxStep (fun _ _ hv => hv.onAux.auxAdvance))

theorem windowEnd {s0 : State} {raw : Int} (h : s0.Formed) : (s0.windowEnd raw).Formed := by
  unfold State.windowEnd
  dsimp only
  split
  · exact ite h.auxAdvance h.auxAdvance.onAux.count.drawn
  · exact h.auxAdvance

theorem execWindowEnd {t : Nat} {raw : Int} (h : s.Formed) : Lands (execWindowEnd t raw s) := h.clocked (fun _ hr => hr.windowEnd)

theorem resultPut {j : AuxJob} (h : s.Formed) : (s.resultPut j).Formed := by
  unfold State.resultPut
  extract_lets _ _ _ _ s1 _ s2
  have hs2 : s2.Formed := ite h.onAux.beside.setFld.drawn h.onAux
  split
  · exact hs2.injDeliver.count
  · exact hs2

theorem auxOver {j : AuxJob} {t0 : Nat} (h : s.Formed) : (s.auxOver j t0).Formed := (ite h.auxOff h.auxOff.onAux).auxNext.refWait

theorem connectOff {j : AuxJob} (h : s.Formed) : (s.connectOff j).Formed := by
  unfold State.connectOff
  split
  · exact h.injOff.auxOver
  · exact h.auxOver

theorem execSourceConnect {t : Nat} (h : s.Formed) : Lands (execSourceConnect t s) :=
  h.clocked (fun _ hr => hr.auxStep (fun _ _ hv => ite hv.connectOff hv.auxShow.onAux))

theorem execResultWrite {t : Nat} (h : s.Formed) : Lands (execResultWrite t s) := by
  unfold Machine.execResultWrite
  refine h.clocked (fun _ hr => ?_)
  split
  · exact hr.only (fun _ hv => hv.resultPut.auxOver)
  · exact hr

theorem leadOne {c b : Nat} {fails : Bool} (h : s.Formed) : (s.leadOne c b fails).Formed :=
  ite ((ite h.onAux.setFlag.setFld.count h.onAux.setFlag.setFld.count.onAux).faultAt) (ite h.onAux.setFlag.count.faultAt h.onAux)

theorem leadCheck {s0 : State} {amp : Nat} {limit : Bool} {sns inp : List Nat} (h : s0.Formed) :
    (s0.leadCheck amp limit sns inp).Formed := by
  unfold State.leadCheck
  dsimp only
  split
  · exact h.auxAdvance
  · exact ite h.auxAdvance ((ite ((ite h.auxAdvance.leadOne.leadOne h.auxAdvance).leadOne) (ite h.auxAdvance.leadOne.leadOne h.auxAdvance)).leadOne)

theorem execLeadCheck {t amp : Nat} {limit : Bool} {sns inp : List Nat} (h : s.Formed) : Lands (execLeadCheck t amp limit sns inp s) :=
  h.clocked (fun _ hr => hr.leadCheck)

theorem mainsFreq {per : Nat} (h : s.Formed) :
    (s.mainsFreq per).Formed :=
    ite h.setFld.beside.setFlag.faultAt (ite h.setFld.beside.setFlag.faultAt h.setFld.beside)

theorem lineEdge {s0 : State} {rising : Bool} (h : s0.Formed) : (s0.lineEdge rising).Formed := by
  unfold State.lineEdge
  refine ite h.auxAdvance ?_
  dsimp only
  split
  · exact h.auxAdvance.onAux
  · exact ite h.auxAdvance.onAux.onAux ((ite h.auxAdvance.onAux.onAux.setFld.setFlag.faultAt h.auxAdvance.onAux.onAux.setFld).mainsFreq)

theorem execLinesyncEdge {t : Nat} {rising : Bool} (h : s.Formed) :
    Lands (execLinesyncEdge t rising s) := h.clocked (fun _ hr => hr.lineEdge)

theorem execLinesyncLost {t : Nat} (h : s.Formed) :
    Lands (execLinesyncLost t s) := h.clocked (fun _ hr => hr.only (fun _ hv => hv.auxAdvance.onAux.setFlag.faultAt))

theorem calStore {codes : List (Int × Int)} {c : Nat} {vref : ℚ} {r : Nat} (h : s.Formed) : (s.calStore codes c vref r).Formed := by
  unfold State.calStore
  extract_lets _ put
  have hput : ∀ (r : State) (x1 : Nat) (x2 : ℚ), r.Formed → (put r x1 x2).Formed := fun _ _ _ hr => hr.setCalf.drawn
  exact hput _ _ _ (hput _ _ _ (hput _ _ _ (hput _ _ _ h)))

theorem auxCalDone {codes : List (Int × Int)} (h : s.Formed) : (s.auxCalDone codes).Formed :=
  ((h.each (fun _ _ hr => hr.calStore.calStore)).auxOff.onAux.setFlag.setFld.setFld.setFlag.count.setFld.setFld.each (fun _ _ hr => hr.faultAt)).calReport.auxResume

theorem calStep {s0 : State} {a b : Int} (h : s0.Formed) : (s0.calStep a b).Formed := by
  unfold State.calStep
  dsimp only
  split
  · exact ite h.auxAdvance (ite h.auxAdvance.onAux h.auxAdvance.auxCalDone)
  · exact h.auxAdvance

theorem execAuxCalStepEnd {t : Nat} {a b : Int} (h : s.Formed) : Lands (execAuxCalStepEnd t a b s) := h.clocked (fun _ hr => hr.calStep)

theorem execResultAgeStale {t src : Nat} (h : s.Formed) :
    Lands (execResultAgeStale t src s) := h.clocked (fun _ hr => ite hr.auxTag (hr.only (fun _ hv => hv.onAux)))

theorem auxRead {a : Nat} (h : s.Formed) : (s.auxRead a).1.Formed := ite_fst h.setLive (ite_fst h.setLive h.setLive)

theorem execAuxResultRead {t : Nat} {addr : Word} (h : s.Formed) :
    Lands (execAuxResultRead t addr s) := h.ticking (fun _ hr => hr.only (fun _ hv => hv.auxRead.beside))

theorem calfWrite {src : Source} {a : Nat} {val : Word} (h : s.Formed) : (s.calfWrite src a val).Formed := ite h.clamp h.auxAdvance.setCalf

theorem seqWrite {src : Source} {a : Nat} {val : Word} (h : s.Formed) :
    (s.seqWrite src a val).Formed := ite h.onAux.markDirty.clamp h.onAux.markDirty

theorem excSwitch {j : AuxJob} (h : s.Formed) : (s.excSwitch j).Formed := ite h.auxTag.connectOff h.auxTag.onAux

theorem auxCommit {old : State} (h : s.Formed) : (s.auxCommit old).Formed := by
  unfold State.auxCommit
  extract_lets s1 _ s2 s2' s' s3 _ s4 s5 _ s5'
  have hs2 : s2.Formed := by
    unfold s2
    split
    · exact ite h.onAux.excSwitch h.onAux
    · exact h.onAux
  have hs3 : s3.Formed := ite (ite hs2 hs2.onAux) (ite ((ite hs2 hs2.onAux).onAux) (((ite hs2 hs2.onAux).onAux).setFld))
  have hs4 : s4.Formed := ite hs3.onAux (ite hs3.onAux.setFlag.auxBreak hs3)
  have hs5' : s5'.Formed := (ite hs4.auxBreak hs4).auxLate
  exact (ite hs5' (ite hs5'.seqStart (ite hs5'.seqStop hs5'))).auxResume

theorem launchTake {n : Nat} {c : Cell} (h : s.Formed) : (s.launchTake n c).Formed :=
  ite (h.only (fun _ hr => hr.geoSwitch)) (ite h.boundaryTake.tableSwitch h.boundaryTake)

theorem launchStamp {n : Nat} {c : Cell} (h : s.Formed) : (s.launchStamp n c).Formed := h.onLane.count

theorem anchorStamp {n b stamp : Nat} (h : s.Formed) : (s.anchorStamp n b stamp).Formed := ite h (ite h.phxStamp.auxRequest h.phxStamp)

theorem blockClose {n : Nat} (h : s.Formed) : (s.blockClose n).Formed := ite h.closeBlock.askAnchor.auxRequest h.closeBlock.askAnchor

theorem execBlockClose {t n : Nat} (h : s.Formed) :
    Lands (execBlockClose t n s) := h.clocked (fun _ hr => hr.only (fun _ hv => hv.blockClose))

theorem launch {n : Nat} {c : Cell} (h : s.Formed) : (s.launch n c).Formed := by
  unfold State.launch
  extract_lets s0 s1 s2 s3 _ _ _ s4 s5 _ s6
  have hs5 : s5.Formed := (((h.onLane.launchTake.launchStamp.orxStamp.orxStamp.only (fun _ hr => hr.rangesFollow)).anchorStamp).beside).rampStep.rampStep.stallTurn
  have hs6 : s6.Formed := by
    unfold s6
    split
    · exact hs5.beside.setFld
    · exact hs5
  exact hs6.settleLane

theorem execLaunchRelease {t n : Nat} (h : s.Formed) : Lands (execLaunchRelease t n s) := by
  unfold Machine.execLaunchRelease
  refine h.ticking (fun _ hr => ?_)
  split
  · exact hr.only (fun _ hv => hv.launch)
  · exact hr

/-! ### The memory controller -/

theorem latency {p l : Nat} (h : s.Formed) : (s.latency p l).Formed := h.only (fun _ hr => hr.count)

theorem acceptWrite {r : MemReq} {now : Nat} (h : s.Formed) : (s.acceptWrite r now).Formed := h.mergeRead.backOff.writeBytes.latency

theorem enqueue {r : MemReq} {now : Nat} (h : s.Formed) : (s.enqueue r now).Formed := by
  unfold State.enqueue
  exact (ite h.acceptWrite h.backNow).onChan

theorem acceptWaiting {now : Nat} (h : s.Formed) : (s.acceptWaiting now).Formed := by
  unfold State.acceptWaiting
  extract_lets r
  have hr : r.1.Formed := foldl_fst h (fun _ _ hr => ite_fst hr.enqueue hr)
  exact hr.beside

theorem memRequest {r : MemReq} (h : s.Formed) : (s.memRequest r).Formed := ite h.beside.srArrival.acceptWaiting h.beside

theorem execMemRequest {t port addr : Nat} {half ap : Bool} {data : Option (List Byte)} (h : s.Formed) :
    Lands (execMemRequest t port addr half ap data s) :=
  h.ticking (fun _ hr => hr.only (fun _ hv => hv.memRequest))

theorem cellError {err a : Nat} (h : s.Formed) : (s.cellError err a).Formed := h.only (fun _ hr => hr.beside)

theorem serve {c now err : Nat} {r : MemReq} (h : s.Formed) : (s.serve c now err r).Formed :=
  ite h.onChan.burst ((h.onChan.burst.only (fun _ hr => hr.cellError)).burstMeets.beside.latency)

theorem issueFor {c now err : Nat} {r : MemReq} (h : s.Formed) : (s.issueFor c now err r).Formed := by
  unfold State.issueFor
  dsimp only
  split
  · exact ite h.serve h.onChan
  · exact h.onChan

theorem refreshAll {c now : Nat} (h : s.Formed) : (s.refreshAll c now).Formed := h.onChan.setFld

theorem commandSlot {c now err : Nat} (h : s.Formed) : (s.commandSlot c now err).Formed := by
  unfold State.commandSlot
  refine ite h (ite h.refreshAll (ite (.getD_map h (fun _ => h.access.backNow)) ?_))
  split
  · exact h
  · exact h.issueFor.acceptWaiting

theorem execMemCommandSlot {t c : Nat} {half : Bool} {err : Nat} (h : s.Formed) : Lands (execMemCommandSlot t c half err s) :=
  h.ticking (fun _ hr => hr.only (fun _ hv => hv.commandSlot))

theorem refreshRate (h : s.Formed) : s.refreshRate.Formed := h.setFlag

theorem execRefreshDue {t c : Nat} {temps : Word} (h : s.Formed) : Lands (execRefreshDue t c temps s) :=
  h.ticking (fun _ hr => hr.only (fun _ hv => hv.setLive.refreshRate.onChan.setFld))

theorem execSelfRefreshEntry {t c : Nat} (h : s.Formed) :
    Lands (execSelfRefreshEntry t c s) := h.ticking (fun _ hr => hr.only (fun _ hv => hv.onChan))

theorem execBudgetWindowEnd {t : Nat} (h : s.Formed) :
    Lands (execBudgetWindowEnd t s) := h.ticking (fun _ hr => hr.only (fun _ hv => hv.beside))

theorem wakeFor {c now : Nat} (h : s.Formed) : (s.wakeFor c now).Formed := by
  unfold State.wakeFor
  split
  · exact h.srExit
  · exact h

theorem execZqcs {t c temp : Nat} (h : s.Formed) :
    Lands (execZqcs t c temp s) := h.ticking (fun _ hr => hr.only (fun _ hv => hv.wakeFor.onChan))

theorem deferRetrain (h : s.Formed) : s.deferRetrain.Formed := ite h h.beside

theorem execRetrainSlot {t c temp : Nat} {work : SlotWork} {last : Bool} (h : s.Formed) : Lands (execRetrainSlot t c temp work last s) :=
  h.ticking (fun _ hr => ite (hr.only (fun _ hr => hr.deferRetrain)) (hr.only (fun _ hr =>
    only (.getD_map hr.wakeFor.onChan.setFlag (fun _ => hr.wakeFor.onChan.setFlag.setFld)) (fun _ hr => hr.setFld.count))))

theorem execScrubRead {t err : Nat} (h : s.Formed) : Lands (execScrubRead t err s) :=
  h.ticking (fun _ hr => hr.only (fun _ hv => ite hv.cellError.portRead.beside hv.cellError.portRead.beside.count))

theorem trained {c : Nat} {vref : List Nat} (h : s.Formed) : (s.trained c vref).Formed := h.setFlag.setFld

theorem memReady {vref : List Nat} {temp : Nat} (h : s.Formed) : (s.memReady vref temp).Formed :=
  (h.beside.each (fun _ _ hr => hr.trained.onChan)).setFlag.setFld.acceptWaiting

theorem trainFail {c step : Nat} (h : s.Formed) : (s.trainFail c step).Formed := h.setFld.setFld.faultAt

/-! ### Crucible -/

theorem ctxLoad {img : List Byte} (h : s.Formed) : (s.ctxLoad img).1.Formed := by
  unfold State.ctxLoad
  refine ite_fst h (ite_fst h.dramRead ?_)
  split
  · exact h.dramRead
  · exact h.dramRead

theorem keepPartial {img : List Byte} {fin : Bool} {bits : List Bool} (h : s.Formed) : (s.keepPartial img fin bits).Formed := ite h.beside h

theorem ctxSave {img : List Byte} {c : CtxRec} (h : s.Formed) : (s.ctxSave img c).Formed := ite h.dramWrite h

theorem compressJob {q seq : Nat} {img : List Byte} (h : s.Formed) : (s.compressJob q seq img).1.Formed := by
  have hload : (s.ctxLoad img).1.Formed := h.ctxLoad
  unfold State.compressJob
  split
  next s1 st hs => rw [hs] at hload; exact hload
  next s1 c hs =>
    rw [hs] at hload
    extract_lets _ _ r
    have hr : r.1.Formed := hload.dramRead
    clear_value r
    exact ite_fst (.pair hr.dramWrite) (ite_fst (.pair hr.dramWrite) (.pair (hr.dramWrite.only (fun _ hr => hr.ctxSave))))

theorem decompressJob {q seq : Nat} {img : List Byte} (h : s.Formed) : (s.decompressJob q seq img).1.Formed := by
  have hload : (s.ctxLoad img).1.Formed := h.ctxLoad
  unfold State.decompressJob
  split
  next s1 st hs => rw [hs] at hload; exact hload
  next s1 c hs =>
    rw [hs] at hload
    exact ite_fst hload.dramRead.dramWrite.ctxSave.keepPartial hload.dramRead.dramWrite

theorem cruStat (h : s.Formed) : s.cruStat.Formed := h.setLive

theorem cruRun {unit q seq : Nat} {img : List Byte} (h : s.Formed) : (s.cruRun unit q seq img).Formed := by
  unfold State.cruRun
  extract_lets _ r src'
  have hsrc' : src'.Formed := ite_fst h (ite_fst h (ite_fst h.compressJob h.decompressJob))
  exact (ite hsrc'.beside hsrc'.beside).cruStat

theorem cruTake {unit : Nat} (h : s.Formed) : (s.cruTake unit).Formed := by
  unfold State.cruTake
  refine ite h ?_
  split
  · exact h
  · extract_lets s1 _ s2
    have hs1 : s1.Formed := h.take
    have hs2 : s2.Formed := ite hs1.beside hs1.beside
    clear_value s2
    exact ite (ite hs2.beside hs2.beside).cruStat hs2.cruRun

theorem execCompress {t : Nat} (h : s.Formed) : Lands (execCompress t s) := h.clocked (fun _ hr => hr.cruTake)

theorem execDecompress {t : Nat} (h : s.Formed) : Lands (execDecompress t s) := h.clocked (fun _ hr => hr.cruTake)

theorem kib {f : Fld} {n : Nat} (h : s.Formed) : (s.kib f n).Formed := h.count.drawn

theorem cruResume {unit : Nat} (h : s.Formed) : (s.cruResume unit).Formed := by
  unfold State.cruResume
  split
  · exact h
  · split
    · exact h.only (fun _ hr => hr.cruRun)
    · exact h

theorem cruEnd {unit : Nat} (h : s.Formed) : (s.cruEnd unit).Formed := by
  unfold State.cruEnd
  split
  · exact h
  · extract_lets s1 s2 s3 s4 s5
    have hs5 : s5.Formed := (((ite ((ite h.faultAt h.dramWrite).count.kib.kib) ((ite h.faultAt h.dramWrite).count.kib)).only (fun _ hr => hr.count)).only
      (fun _ hr => hr.setFld.setFld.setFld.setFld.setOnEdge)).done
    exact (ite hs5.beside hs5.beside).cruResume.cruStat

theorem execCruJobEnd {t unit : Nat} (h : s.Formed) :
    Lands (execCruJobEnd t unit s) := h.clocked (fun _ hr => hr.only (fun _ hv => hv.cruEnd))

/-! ### Stream transport -/

theorem send {n cls dmac dip dport : Nat} {body : List Byte} (h : s.Formed) :
    (s.send n cls dmac dip dport body).Formed := ite h.beside.count h

theorem sendStream {q : Nat} {body : List Byte} (h : s.Formed) : (s.sendStream q body).Formed := h.each (fun _ _ hr => hr.send)

theorem formFrame {q : Nat} {recs : List (Entry × Nat)} (h : s.Formed) : (s.formFrame q recs).Formed := by
  unfold State.formFrame
  extract_lets _ _ _ _ _ _ _ _ _ _ read s0 s1 s2
  have hs2 : s2.Formed := (((h.foldl (fun _ _ hr => ite hr hr.portRead)).each (fun _ _ hr => hr.onQueue.setFld)).onQueue).sendStream.setRetain
  exact ite (hs2.each (fun _ _ hr => hr.done)) hs2

theorem execMstFrameSend {t q : Nat} (h : s.Formed) :
    Lands (execMstFrameSend t q s) := h.clocked (fun _ hr => hr.only (fun _ hv => hv.formFrame))

theorem execMstFlushTimeout {t q : Nat} (h : s.Formed) :
    Lands (execMstFlushTimeout t q s) := h.clocked (fun _ hr => hr.only (fun _ hv => hv.formFrame))

theorem withhold {q : Nat} {e : Entry} (h : s.Formed) : (s.withhold q e).Formed := h.onQueue.setFld.done.onQueue.setRetain.faultAt

theorem streamSettle {q : Nat} (h : s.Formed) : (s.streamSettle q).Formed := by
  unfold State.streamSettle
  dsimp only
  split
  · refine ite ?_ h
    split
    · exact h.withhold
    · exact h.restream
  · exact ite h.onQueue h

theorem execPayloadUnreadable {t q : Nat} {ue : Bool} (h : s.Formed) : Lands (execPayloadUnreadable t q ue s) := by
  unfold Machine.execPayloadUnreadable
  refine h.clocked (fun _ hr => hr.only (fun _ hv => ?_))
  split
  · extract_lets _ _ _ s1
    have hs1 : s1.Formed := hv.only (fun _ hw => hw.beside)
    exact ite ((ite hs1 hs1.dramRead).onQueue.streamSettle) hv
  · exact hv

theorem ackStream {q seq bitmap : Nat} (h : s.Formed) : (s.ackStream q seq bitmap).Formed := by
  unfold State.ackStream
  extract_lets _ _ _ _ _ s1 s2 s3
  have hs3 : s3.Formed := (h.onQueue.foldl (fun _ _ hr => hr.sendStream.count)).foldl (fun _ _ hr => hr.done)
  exact (ite hs3.setFlag hs3).setRetain.streamSettle

theorem rxDrop (h : s.Formed) : s.rxDrop.Formed := h.count

theorem receive {n : Nat} {vid : Option Nat} {f : State → State} (h : s.Formed) (hf : ∀ r : State, r.Formed → (f r).Formed) :
    (s.receive n vid f).Formed :=
  ite h (ite h.rxDrop (hf _ h))

theorem execMstAck {t n : Nat} {vid : Option Nat} {frame : List Byte} (h : s.Formed) : Lands (execMstAck t n vid frame s) := by
  unfold Machine.execMstAck
  refine h.clocked (fun _ hr => hr.receive (fun _ hv => ite (hv.only (fun _ hw => hw.rxDrop)) (ite ?_ hv)))
  split
  · exact hv.ackStream
  · exact hv

theorem execMstRto {t q seq : Nat} (h : s.Formed) : Lands (execMstRto t q seq s) := by
  unfold Machine.execMstRto
  refine h.clocked (fun _ hr => ?_)
  split
  · exact hr.only (fun _ hv => ite hv.onQueue.sendStream.count.setFlag.faultAt hv.onQueue.sendStream.count)
  · exact hr

/-! ### The Ethernet ports and the clock -/

theorem setActive (h : s.Formed) : s.setActive.Formed := h.setFlag

theorem setLink {n speed : Nat} (h : s.Formed) : (s.setLink n speed).Formed := h.setFlag.setFld.setFlag.setFld.beside.setActive

theorem execLinkUp {t n speed : Nat} (h : s.Formed) :
    Lands (execLinkUp t n speed s) := h.ticking (fun _ hr => hr.only (fun _ hv => hv.setLink))

theorem execLinkDown {t n : Nat} (h : s.Formed) : Lands (execLinkDown t n s) := h.ticking (fun _ hr => hr.only (fun _ hv => hv.setLink))

theorem execSpeedTryTimeout {t n : Nat} (h : s.Formed) :
    Lands (execSpeedTryTimeout t n s) := h.ticking (fun _ hr => hr.only (fun _ hv => hv.beside))

theorem execRxFrameDrop {t n : Nat} {vid : Option Nat} {dst : Nat} {kind : RxKind} (h : s.Formed) :
    Lands (execRxFrameDrop t n vid dst kind s) :=
  h.ticking (fun _ hr => hr.receive (fun _ hv => hv.only (fun _ hw => hw.rxDrop)))

theorem reply {n dip : Nat} {body : List Byte} (h : s.Formed) : (s.reply n dip body).Formed := h.send.drawn

theorem execArpRequest {t n : Nat} {vid : Option Nat} {smac sip target : Nat} (h : s.Formed) :
    Lands (execArpRequest t n vid smac sip target s) :=
  h.ticking (fun _ hr => hr.receive (fun _ hv => hv.only (fun _ hw => hw.reply)))

theorem execNeighbourSolicitation {t n : Nat} {vid : Option Nat} {smac sip target : Nat} (h : s.Formed) :
    Lands (execNeighbourSolicitation t n vid smac sip target s) :=
  h.ticking (fun _ hr => hr.receive (fun _ hv => hv.only (fun _ hw => hw.reply)))

theorem setPtp {base rate : Int} (h : s.Formed) : (s.setPtp base rate).Formed := h.beside.beside

theorem sendPtp {event : Bool} {body : List Byte} (h : s.Formed) : (s.sendPtp event body).Formed := h.send.drawn

theorem delayReq (h : s.Formed) : s.delayReq.Formed := h.beside.drawn.sendPtp

theorem execPtpSyncRx {t port : Nat} {udp : Bool} {dom seq origin : Nat} {twoStep : Bool} (h : s.Formed) :
    Lands (execPtpSyncRx t port udp dom seq origin twoStep s) :=
  h.ticking (fun _ hr => hr.only (fun _ hv => hv.beside.drawn.only (fun _ hw => hw.delayReq)))

theorem execPtpFollowUpRx {t port : Nat} {udp : Bool} {dom seq origin : Nat} (h : s.Formed) :
    Lands (execPtpFollowUpRx t port udp dom seq origin s) := by
  unfold Machine.execPtpFollowUpRx
  refine h.ticking (fun _ hr => hr.only (fun _ hv => ?_))
  split
  · exact ite hv.beside.delayReq hv
  · exact hv

theorem servo {off : Int} (h : s.Formed) : (s.servo off).Formed := by
  unfold State.servo
  extract_lets s1 s2 _ _ _ s3
  have hs3 : s3.Formed := (ite h.setFld.setPtp h.setFld.setPtp.drawn).beside
  exact ite hs3.setFlag (ite hs3.setFlag hs3)

theorem execPtpDelayRespRx {t port : Nat} {udp : Bool} {dom seq t4 : Nat} (h : s.Formed) :
    Lands (execPtpDelayRespRx t port udp dom seq t4 s) := by
  unfold Machine.execPtpDelayRespRx
  refine h.ticking (fun _ hr => hr.only (fun _ hv => ?_))
  split
  · exact ite hv.beside.drawn.servo hv
  · exact hv

theorem execPtpSyncTx {t : Nat} (h : s.Formed) : Lands (execPtpSyncTx t s) :=
  h.ticking (fun _ hr => hr.only (fun _ hv => (ite hv.drawn.sendPtp hv.drawn.sendPtp.sendPtp).beside))

theorem execPtpDelayReqRx {t port : Nat} {udp : Bool} {dom seq peer : Nat} (h : s.Formed) :
    Lands (execPtpDelayReqRx t port udp dom seq peer s) :=
  h.ticking (fun _ hr => hr.only (fun _ hv => hv.drawn.sendPtp))

theorem execPtpSyncTimeout {t : Nat} (h : s.Formed) :
    Lands (execPtpSyncTimeout t s) := h.ticking (fun _ hr => hr.only (fun _ hv => hv.setFlag.beside))

theorem ppsLatch (h : s.Formed) : s.ppsLatch.Formed := h.setFld.setFld.setFld.setFld.setFld.count.wickPps

theorem discipline (h : s.Formed) : s.discipline.Formed := by
  unfold State.discipline
  refine ite h ?_
  split
  · exact h.setPtp
  · exact h.setPtp

theorem ppsInEdge (h : s.Formed) : s.ppsInEdge.Formed := ite h.discipline.beside.setFlag h.discipline.beside.setFlag.ppsLatch

theorem execPpsEdge {t : Nat} {pin rising : Bool} (h : s.Formed) : Lands (execPpsEdge t pin rising s) :=
  h.ticking (fun _ hr => ite (hr.only (fun _ hv => hv.ppsInEdge)) (hr.only (fun _ hv => hv.beside.ppsLatch)))

theorem execPpsinTimeout {t : Nat} (h : s.Formed) : Lands (execPpsinTimeout t s) := by
  unfold Machine.execPpsinTimeout
  refine h.ticking (fun _ hr => ?_)
  split
  · exact hr.only (fun _ hv => hv.setFlag)
  · exact hr

theorem execSecondBoundary {t : Nat} (h : s.Formed) :
    Lands (execSecondBoundary t s) := h.ticking (fun _ hr => hr.only (fun _ hv => hv.beside))

theorem execPpsOutEnd {t : Nat} (h : s.Formed) : Lands (execPpsOutEnd t s) := by
  unfold Machine.execPpsOutEnd
  refine h.ticking (fun _ hr => ?_)
  split
  · exact hr.only (fun _ hv => hv.beside)
  · exact hr

theorem linkCommit {old : State} {n : Nat} (h : s.Formed) :
    (s.linkCommit old n).Formed := ite (h.only (fun _ hr => hr.setLink)) (h.only (fun _ hr => hr.beside))

theorem netCommit {old : State} (h : s.Formed) : (s.netCommit old).Formed :=
  ((h.each (fun _ _ hr => hr.linkCommit)).setFlag.setActive.only (fun _ hr => hr.faultAt)).only (fun _ hr => hr.beside)

theorem mgmtAnswer {c : Client} {op result : Nat} {data : List Byte} (h : s.Formed) : (s.mgmtAnswer c op result data).Formed := h.send

theorem frameSubmit {c : Client} {q : Nat} {img : List Byte} (h : s.Formed) : (s.frameSubmit c q img).Formed := by
  unfold State.frameSubmit
  split
  · exact h.startAccept
  · exact h.countRefusal.mgmtAnswer

theorem acceptAnswer {seq : Nat} {x : Producer} (h : s.Formed) : (s.acceptAnswer seq x).Formed := by
  unfold State.acceptAnswer
  split
  · exact h.mgmtAnswer
  · exact h

theorem resubmit (h : s.Formed) : s.resubmit.Formed := by
  unfold State.resubmit
  refine h.beside.foldl (fun _ _ hr => ?_)
  split
  · exact hr.frameSubmit
  · exact hr.hostSubmit

end State.Formed

end Sys2Proof.Machine

/-! PROOFS. The memories keep their form (O58): the lease, commits and resets. -/

namespace Sys2Proof.Machine

namespace State.Formed

variable {s : State}

/-! ### The always-on domain -/

theorem onFeed {b : Bool} {f : Feed → Feed} (h : s.Formed) : (s.onFeed b f).Formed := h.beside

theorem pwrShow (h : s.Formed) : s.pwrShow.Formed := h.setFlag.setFlag.setFlag.setFlag.setFlag.setFlag.setFlag.setFlag.setFld.setFld

theorem feedAcquire {b : Bool} (h : s.Formed) : (s.feedAcquire b).Formed := h.onFeed.beside.pwrShow

theorem gateOff {b : Bool} (h : s.Formed) : (s.gateOff b).Formed := h.onFeed.pwrShow

theorem acquireAtPower (h : s.Formed) : s.acquireAtPower.Formed := by
  unfold State.acquireAtPower
  split
  · exact h.feedAcquire.beside
  · exact h.beside

theorem feedRelease {b : Bool} (h : s.Formed) : (s.feedRelease b).Formed := h.gateOff.beside.pwrShow.count

theorem sampleFeed {b : Bool} {mv : Nat} (h : s.Formed) : (s.sampleFeed b mv).Formed := h.onFeed

theorem dipSample {b : Bool} (h : s.Formed) :
    (s.dipSample b).Formed := ite (ite h.onFeed.count.setFld.setFld h.onFeed) (ite h.onFeed h.onFeed)

theorem keptCheck (h : s.Formed) : s.keptCheck.Formed := by
  unfold State.keptCheck
  split
  · exact ite h.feedRelease h
  · exact h

theorem sagSample (h : s.Formed) : s.sagSample.Formed := by
  unfold State.sagSample
  split
  · exact h
  · exact ite h (ite h.onFeed.beside (ite h.onFeed.keptCheck (ite h.onFeed (ite h.onFeed.count.feedRelease h.onFeed.count.beside.pwrShow.faultAt))))

theorem feedSample {mvA mvB : Nat} (h : s.Formed) : (s.feedSample mvA mvB).Formed := by
  unfold State.feedSample
  split
  · exact h
  · exact h
  · exact h.onFeed.onFeed.acquireAtPower
  · exact h.sampleFeed.sampleFeed.dipSample.dipSample.sagSample.keptCheck.pwrShow
  · exact h.sampleFeed.sampleFeed.dipSample.dipSample.sagSample.keptCheck.pwrShow
  · exact h.onFeed.onFeed

theorem execFeedQualified {t : Nat} {b : Bool} (h : s.Formed) : Lands (execFeedQualified t b s) := by
  unfold Machine.execFeedQualified
  refine h.always (fun _ hr => ?_)
  split
  · exact hr.only (fun _ hv => hv.onFeed.pwrShow.keptCheck)
  · exact hr

theorem feedRenew {readBack : Bool} (h : s.Formed) : (s.feedRenew readBack).Formed := by
  unfold State.feedRenew
  split
  · exact (h.only (fun _ hr => hr.onFeed.pwrShow)).only (fun _ hr => hr.beside)
  · exact h

theorem feedStop (h : s.Formed) : s.feedStop.Formed := by
  unfold State.feedStop
  split
  · exact h.only (fun _ hr => hr.gateOff)
  · exact h

theorem feedExpiry (h : s.Formed) : s.feedExpiry.Formed := by
  unfold State.feedExpiry
  split
  · refine h.only (fun _ hr => ?_)
    split
    · exact hr.feedAcquire
    · exact hr.feedAcquire
  · exact h

theorem execReleaseConfirmed {t lowAt : Nat} (h : s.Formed) : Lands (execReleaseConfirmed t lowAt s) := by
  unfold Machine.execReleaseConfirmed
  refine h.always (fun _ hr => ?_)
  split
  · exact hr.only (fun _ hv => hv.feedAcquire.setFlag)
  · exact hr

theorem execNoconfTimeout {t : Nat} (h : s.Formed) : Lands (execNoconfTimeout t s) := by
  unfold Machine.execNoconfTimeout
  refine h.always (fun _ hr => ?_)
  split
  · exact hr.only (fun _ hv => hv.onFeed.beside.pwrShow.setFlag.count.faultAt)
  · exact hr

theorem switchback {src : Source} {val : Word} (h : s.Formed) : (s.switchback src val).Formed := ite h (ite h.feedRelease h.clamp)

theorem execFeedSwitchback {t : Nat} {src : Source} {toB : Bool} (h : s.Formed) : Lands (execFeedSwitchback t src toB s) :=
  h.ticking (fun _ hr => hr.pairWhole (fun _ hv => hv.pastLocks (fun _ hw => hw.switchback)))

theorem pwrCtrl {val : Word} (h : s.Formed) : (s.pwrCtrl val).Formed := h.setFld.beside

theorem pwrCommit (h : s.Formed) : s.pwrCommit.Formed := h.beside

/-! ### The twin lease -/

theorem onTwn {f : Twin → Twin} (h : s.Formed) : (s.onTwn f).Formed := h.beside

theorem showEligible (h : s.Formed) : s.showEligible.Formed := ite h.setFlag h

theorem rampArmed (h : s.Formed) : s.rampArmed.Formed := h.each (fun _ _ hr => hr.only (fun _ hv => hv.enterLane))

theorem armLanes (h : s.Formed) : s.armLanes.Formed := h.each (fun _ _ hr => hr.only (fun _ hv => hv.stopLane))

theorem linkDown (h : s.Formed) : s.linkDown.Formed := by
  unfold State.linkDown
  extract_lets s0 s1
  have hs1 : s1.Formed := ite h.onTwn.setFlag.count.faultAt h.onTwn
  exact ite hs1.beside hs1

theorem mirrorQueue {q : Nat} (h : s.Formed) : (s.mirrorQueue q).Formed := by
  unfold State.mirrorQueue
  refine ite h ?_
  extract_lets _ _ s1
  have hs1 : s1.Formed := h.foldl (fun _ _ hr => hr.mirrorPayload)
  exact ((ite hs1 (hs1.foldl (fun _ _ hr => ite hr.portRead hr.portRead.mirror))).foldl (fun _ _ hr => hr.mirror)).mirror

theorem setUnmirrored {on : Bool} (h : s.Formed) : (s.setUnmirrored on).Formed := h.setFlag.setFlag

theorem mirrorAgain (h : s.Formed) : s.mirrorAgain.Formed := ite h.beside.setUnmirrored h

theorem linkBack (h : s.Formed) : s.linkBack.Formed := ite ((h.beside.each (fun _ _ hr => hr.mirrorQueue)).onTwn.mirrorAgain.retryReports) h

theorem linkHeard (h : s.Formed) : s.linkHeard.Formed := ite h.onTwn.setFlag.linkBack h.onTwn.setFlag

theorem setBelLane {k : Nat} {on : Bool} (h : s.Formed) : (s.setBelLane k on).Formed := h.onTwn.setFlag

theorem belLoss {k : Nat} (h : s.Formed) : (s.belLoss k).Formed := ite h.setBelLane h.setBelLane.linkDown

theorem execBellowsLaneLoss {t k : Nat} (h : s.Formed) :
    Lands (execBellowsLaneLoss t k s) := h.ticking (fun _ hr => hr.only (fun _ hv => hv.belLoss))

theorem execBellowsLaneLock {t k : Nat} (h : s.Formed) :
    Lands (execBellowsLaneLock t k s) := h.ticking (fun _ hr => hr.only (fun _ hv => hv.setBelLane.linkBack))

theorem execBellowsResend {t seq : Nat} (h : s.Formed) : Lands (execBellowsResend t seq s) := by
  unfold Machine.execBellowsResend
  refine h.clocked (fun _ hr => ?_)
  split
  · exact hr.only (fun _ hv => ite hv.linkDown (hv.only (fun _ hw => hw.onTwn)))
  · exact hr

theorem execMirrorWaitTimeout {t : Nat} (h : s.Formed) : Lands (execMirrorWaitTimeout t s) := by
  unfold Machine.execMirrorWaitTimeout
  refine h.clocked (fun _ hr => ?_)
  split
  · exact hr.only (fun _ hv => hv.beside.setUnmirrored.faultAt.retryReports)
  · exact hr

theorem execPathSilence {t : Nat} {line : Bool} (h : s.Formed) : Lands (execPathSilence t line s) :=
  h.ticking (fun _ hr => ite (hr.only (fun _ hv => hv.setFlag.count.faultAt)) (hr.only (fun _ hv => hv.linkDown)))

theorem execLeaseInPulse {t width : Nat} (h : s.Formed) :
    Lands (execLeaseInPulse t width s) := h.ticking (fun _ hr => hr.only (fun _ hv => hv.onTwn.setFlag))

theorem twinRenewed (h : s.Formed) : s.twinRenewed.Formed := h.onTwn

theorem execLeaseOutPulse {t : Nat} {readBack : Bool} (h : s.Formed) : Lands (execLeaseOutPulse t readBack s) :=
  h.clocked (fun _ hr => hr.only (fun _ hv => ite hv.onTwn.twinRenewed hv.onTwn))

theorem twinRenew (h : s.Formed) : s.twinRenew.Formed := h.only (fun _ hr => ite hr.onTwn.belSend.twinRenewed hr.onTwn.belSend)

theorem oswLow (h : s.Formed) : s.oswLow.Formed := by
  unfold State.oswLow
  split
  · exact h.onTwn.belSend
  · exact h

theorem execLeaseRenewal {t : Nat} {twin readBack : Bool} (h : s.Formed) : Lands (execLeaseRenewal t twin readBack s) :=
  h.ticking (fun _ hr => ite ((hr.only (fun _ hv => hv.oswLow)).twinRenew) hr.feedRenew)

theorem execLeaseStop {t : Nat} {twin : Bool} (h : s.Formed) : Lands (execLeaseStop t twin s) :=
  h.always (fun _ hr => hr.only (fun _ hv => ite (hv.only (fun _ hw => hw.fence)) hv.feedStop))

theorem answerFenced {q : Nat} {f : Inflight} (h : s.Formed) : (State.answerFenced q s f).Formed := by
  unfold State.answerFenced
  split
  · exact h.countRefusal.onEngine (fun _ hr => hr.postResult)
  · exact h.countRefusal.setFld.setFlag
  · exact h.countRefusal

theorem dropJournal (h : s.Formed) : s.dropJournal.Formed :=
  (h.each (fun _ _ hr => (hr.foldl (fun _ _ hv => hv.answerFenced)).onQueue.setFld.setFld.setFld.setFld.setFld.setFld.showQueue)).portWrite

theorem becomeStandby {epoch dev : Nat} (h : s.Formed) : (s.becomeStandby epoch dev).Formed :=
  (h.armLanes.dropJournal.setFld.setFld.each (fun _ _ hr => hr.setFld)).onTwn.beside.setFlag.setFlag.showEligible

theorem becomeSingle (h : s.Formed) : s.becomeSingle.Formed := h.beside.setUnmirrored.onTwn.setFlag.setFld.rampArmed

theorem twinAcquire (h : s.Formed) :
    s.twinAcquire.Formed := h.count.setFld.setFlag.beside.onTwn.each (fun _ _ hr => hr.only (fun _ hv => hv.restream))

theorem loadLane {n : Nat} (h : s.Formed) :
    (s.loadLane n).Formed := ite h.setFld (ite h.portRead.setFld h.portRead.setFld.onPhx.setFld.setFlag.setFlag.setLaneBit.setPos)

theorem reissue {n k : Nat} (h : s.Formed) : (s.reissue n k).Formed := by
  induction k generalizing s with
  | zero => exact h
  | succ k ih =>
    unfold State.reissue
    exact ite (ih h.rowEvent.closeBlock) h

theorem laneReport {n before : Nat} (h : s.Formed) : (s.laneReport n before).Formed := h.fault

theorem takeover {cause : Nat} (h : s.Formed) : (s.takeover cause).Formed :=
  (h.twinAcquire.onTwn.setFlag.count.rampArmed.rebuildQueues.mailboxTake.each (fun _ _ hr => hr.loadLane)).drawn.fault.each
    (fun _ _ hr => hr.only (fun _ hv => hv.reissue.laneReport))

theorem resume (h : s.Formed) : s.resume.Formed := h.twinAcquire.rampArmed.onTwn

theorem twinExpiry (h : s.Formed) : s.twinExpiry.Formed := h.only (fun _ hr => ite hr.takeover (ite hr.resume.count hr))

theorem execLeaseExpiryAcquire {t : Nat} {twin : Bool} (h : s.Formed) : Lands (execLeaseExpiryAcquire t twin s) :=
  lands_ite (h.clocked (fun _ hr => hr.twinExpiry)) (h.always (fun _ hr => hr.only (fun _ hv => hv.feedExpiry)))

theorem execOswSettled {t : Nat} (h : s.Formed) : Lands (execOswSettled t s) := by
  unfold Machine.execOswSettled
  refine h.clocked (fun _ hr => ?_)
  split
  · exact hr.only (fun _ hv => hv.onTwn.each (fun _ _ hw => hw.only (fun _ h3 => h3.startEmitting)))
  · exact hr

theorem execRelease {t epoch reason : Nat} (h : s.Formed) : Lands (execRelease t epoch reason s) :=
  h.clocked (fun _ hr => hr.only (fun _ hv => ite hv.linkHeard.takeover (ite hv.linkHeard.setFld.resume.count hv.linkHeard)))

theorem twinOff (h : s.Formed) : s.twinOff.Formed := h.releaseLease.becomeSingle.setFlag.setFlag.setFlag.setFlag

theorem twinCtrl {src : Source} {val : Word} (h : s.Formed) :
    (s.twinCtrl src val).Formed := ite h.clamp (ite h.setFlag.onTwn (ite (ite h.setFlag.twinOff h.setFlag) h))

theorem execPairingListenEnd {t : Nat} (h : s.Formed) : Lands (execPairingListenEnd t s) := by
  unfold Machine.execPairingListenEnd
  refine h.clocked (fun _ hr => ?_)
  split
  · exact hr.only (fun _ hv => hv.twinAcquire)
  · exact hr

theorem hbRenew {epoch lease dev : Nat} (h : s.Formed) :
    (s.hbRenew epoch lease dev).Formed := (ite h.onTwn.setFld.beside.setFlag h.onTwn.setFld).showEligible.belSend

theorem hbConflict {epoch dev : Nat} {strap : Bool} {serial : Nat} (h : s.Formed) : (s.hbConflict epoch dev strap serial).Formed :=
  ite h.becomeStandby (ite h (ite (ite h.becomeStandby h) (ite h.setFlag.becomeStandby h.setFlag)))

theorem heartbeat {epoch lease dev : Nat} {strap : Bool} {part serial : Nat} (h : s.Formed) :
    (s.heartbeat epoch lease dev strap part serial).Formed := by
  unfold State.heartbeat
  refine ite ((ite h.linkHeard.becomeSingle h.linkHeard).setFlag) ?_
  split
  · exact ite h.linkHeard.becomeStandby.hbRenew h.linkHeard
  · exact ite (ite h.linkHeard.hbConflict.hbRenew h.linkHeard.hbConflict) h.linkHeard
  · exact h.linkHeard.hbRenew
  · exact ite h.linkHeard.onTwn.becomeStandby.hwSet.count.faultAt.hbRenew h.linkHeard.onTwn

theorem execHeartbeat {t epoch lease dev : Nat} {strap : Bool} {part serial : Nat} (h : s.Formed) :
    Lands (execHeartbeat t epoch lease dev strap part serial s) :=
  h.clocked (fun _ hr => hr.only (fun _ hv => hv.heartbeat))

theorem ckptReport {n j : Nat} (h : s.Formed) : (s.ckptReport n j).Formed := ite h h.setFld.count.setStale.onTwn

theorem status {epoch : Nat} {eligible : Bool} {blocks : List Nat} (h : s.Formed) : (s.status epoch eligible blocks).Formed := by
  unfold State.status
  extract_lets s0 _ s1 s2
  have hs2 : s2.Formed := (h.linkHeard.onTwn.setFlag.each (fun _ _ hr => hr.ckptReport)).mirrorAgain
  exact ite (ite hs2 (ite hs2.onTwn.setFlag.faultAt (ite hs2.releaseLease hs2))) (ite h.linkHeard.onTwn.resume h.linkHeard.onTwn)

theorem twinSwitchback {src : Source} {val : Word} (h : s.Formed) : (s.twinSwitchback src val).Formed :=
  ite h (ite (ite h.onTwn.setFlag.releaseLease h.onTwn.setFlag) h.clamp)

theorem execTwinSwitchback {t : Nat} {src : Source} (h : s.Formed) : Lands (execTwinSwitchback t src s) :=
  h.ticking (fun _ hr => hr.pairWhole (fun _ hv => hv.pastLocks (fun _ hw => hw.twinSwitchback)))

theorem syncCheck (h : s.Formed) : s.syncCheck.Formed := ite h.setFlag.showEligible h

theorem execJournal {t addr : Nat} {bytes : List Byte} {payload : Option (Nat × Nat)} {last : Bool} (h : s.Formed) :
    Lands (execJournal t addr bytes payload last s) :=
  h.clocked (fun _ hr => hr.only (fun _ hv => hv.linkHeard.dramWrite.onTwn.syncCheck))

theorem checkpoint {n blk off : Nat} {eng : Bool} {bytes : List Byte} (h : s.Formed) : (s.checkpoint n blk off eng bytes).Formed :=
  ite h (ite h.dramWrite.onTwn.setFld.onTwn.syncCheck h.dramWrite.onTwn)

theorem execCheckpoint {t n blk off : Nat} {eng : Bool} {bytes : List Byte} (h : s.Formed) :
    Lands (execCheckpoint t n blk off eng bytes s) :=
  h.clocked (fun _ hr => hr.only (fun _ hv => hv.linkHeard.checkpoint))

/-! ### Reads of the control bus -/

theorem rcRead {a : Nat} (h : s.Formed) : (s.rcRead a).1.Formed := h.setLive

theorem apertureRead {a : Nat} (h : s.Formed) : (s.apertureRead a).1.Formed := ite_fst h (ite_fst h.dramRead.drawn.drawn h.dramRead)

theorem apertureWrite {a : Nat} {val : Word} (h : s.Formed) : (s.apertureWrite a val).1.Formed := ite_fst h h.dramWrite

theorem busRead {src : Source} {a : Nat} (h : s.Formed) : (s.busRead src a).1.Formed := by
  unfold State.busRead
  extract_lets _ rc
  have hrc : ∀ (r : State × Word), r.1.Formed → (rc r).1.Formed := fun _ hr => ite_fst hr.setLive hr
  exact ite_fst h (ite_fst h (ite_fst (ite_fst (hrc _ h.rcRead) (ite_fst h.beside (ite_fst h.auxRead h)))
    (ite_fst (ite_fst (hrc _ h.rcRead) h) (ite_fst h.memRead (ite_fst h.apertureRead h)))))

theorem answer {src : Source} {a : Nat} (h : s.Formed) : (s.answer src a).Formed := h.busRead.beside

theorem execRcRead {t : Nat} {src : Source} {addr : Word} (h : s.Formed) :
    Lands (execRcRead t src addr s) := h.ticking (fun _ hr => hr.only (fun _ hv => hv.answer))

theorem execUptimeLoRead {t : Nat} {src : Source} (h : s.Formed) : Lands (execUptimeLoRead t src s) := h.ticking (fun _ hr => hr.answer)

theorem snapshot (h : s.Formed) : s.snapshot.Formed := h.beside

/-! ### Commits -/

theorem commitSet {f : Fld} {u v reason : Nat} (h : s.Formed) : (s.commitSet f u v reason).Formed := ite h h.setStaged.clamp

theorem commitKeep {f : Fld} {u : Nat} {forbidden : Bool} (h : s.Formed) : (s.commitKeep f u forbidden).Formed := ite h.commitSet h

theorem fitBase {f : Fld} {size : Nat} (h : s.Formed) : (s.fitBase f size).Formed := h.commitSet

theorem checkLan (h : s.Formed) : s.checkLan.Formed := h.each (fun _ _ hr => hr.commitSet.commitSet.commitSet)

theorem checkSchedule {sch : Nat} (h : s.Formed) : (s.checkSchedule sch).Formed := ite h.clamp h

theorem checkOrx (h : s.Formed) :
    s.checkOrx.Formed := (h.each (fun _ _ hr => hr.commitSet.commitSet.commitSet)).each (fun _ _ hr => hr.checkSchedule)

theorem fitTemp (h : s.Formed) : s.fitTemp.Formed := ite h h.commitSet

theorem fitCoil {n : Nat} (h : s.Formed) : (s.fitCoil n).Formed := h.commitSet

theorem checkPhx {old : State} (h : s.Formed) :
    (s.checkPhx old).Formed := h.commitKeep.commitSet.commitKeep.fitBase.commitKeep.fitTemp.each (fun _ _ hr => hr.fitCoil)

theorem checkWck (h : s.Formed) : s.checkWck.Formed := h.fitBase.each (fun _ _ hr => ite hr.commitSet hr)

theorem checkAux (h : s.Formed) : s.checkAux.Formed := h.each (fun _ _ hr => hr.commitSet)

theorem checkMem {old : State} (h : s.Formed) : (s.checkMem old).Formed := by
  unfold State.checkMem
  extract_lets _ s1
  have hs1 : s1.Formed := h.commitKeep.commitKeep.commitKeep
  exact (ite hs1.commitSet hs1).foldl (fun _ _ hr => hr.commitKeep.commitSet)

theorem ringKeep {q reason : Nat} (h : s.Formed) : (s.ringKeep q reason).Formed := h.setStaged.setStaged.clamp

theorem checkRing {old : State} {q : Nat} (h : s.Formed) : (s.checkRing old q).Formed := ite h (ite h.ringKeep (ite h.ringKeep h))

theorem checkQuota {old : State} {q : Nat} (h : s.Formed) : (s.checkQuota old q).Formed := ite h.commitSet.clamp.setFlag h.commitSet

theorem checkCfg {old : State} {q : Nat} (h : s.Formed) :
    (s.checkCfg old q).Formed := (ite h.commitKeep.commitKeep.commitSet h.commitKeep.commitKeep).commitKeep

theorem ringSettle {old : State} {k : Nat} (h : s.Formed) : (s.ringSettle old k).Formed := by
  induction k generalizing s with
  | zero => exact h
  | succ k ih =>
    unfold State.ringSettle
    split
    · exact ih h.ringKeep.checkQuota
    · exact h

theorem streamKeep {q : Nat} (h : s.Formed) : (s.streamKeep q).Formed := h.commitSet.commitSet

theorem streamSettleAll {k : Nat} (h : s.Formed) : (s.streamSettleAll k).Formed := by
  induction k generalizing s with
  | zero => exact h
  | succ k ih =>
    unfold State.streamSettleAll
    exact ite h (ih (h.each (fun _ _ hr => hr.streamKeep)))

theorem checkQue {old : State} (h : s.Formed) : (s.checkQue old).Formed :=
  (h.commitKeep.fitBase.each (fun _ _ hr => hr.checkRing.checkQuota.checkCfg)).ringSettle.streamSettleAll

theorem checkCru {old : State} (h : s.Formed) : (s.checkCru old).Formed := h.commitKeep.fitBase

theorem checkNet (h : s.Formed) : s.checkNet.Formed := h.foldl (fun _ _ hr => hr.commitSet)

theorem checkPwr (h : s.Formed) : s.checkPwr.Formed := ite h.commitSet h

theorem commitChecks {old : State} {w : Nat} (h : s.Formed) : (s.commitChecks old w).Formed := by
  unfold State.commitChecks
  split
  · exact h.checkLan
  · exact h.checkOrx
  · exact h.checkPhx
  · exact h.checkWck
  · exact h.fitBase
  · exact h.checkAux
  · exact h.checkMem
  · exact h.checkQue
  · exact h.checkCru
  · exact h.checkNet
  · exact h.checkPwr
  · exact h.fitBase
  · exact h

theorem toPending {w : Nat} (h : s.Formed) : (s.toPending w).Formed := h.beside

theorem applyWindow {w : Nat} (h : s.Formed) :
    (s.applyWindow w).Formed := h.foldl (fun _ _ hr => ite hr (hr.each (fun _ _ hv => ite hv hv.takeLive)))

theorem pendSet {w : Nat} {units : List Nat} (h : s.Formed) : (s.pendSet w units).Formed := h.beside.setFld

theorem orxCommit {old : State} (h : s.Formed) : (s.orxCommit old).Formed := by
  unfold State.orxCommit
  extract_lets s1
  have hs1 : s1.Formed := h.each (fun _ _ hr => ite hr hr.onOrx)
  exact ite hs1.beside.setFlag hs1

theorem ddcCommit {old : State} (h : s.Formed) : (s.ddcCommit old).Formed := h.beside.startConversion

theorem anvCommit (h : s.Formed) : s.anvCommit.Formed := by
  unfold State.anvCommit
  extract_lets s1
  have hs1 : s1.Formed := (h.each (fun _ _ hr => hr.engTake)).posAll
  exact ite hs1 hs1.tachTake

theorem queCommit {old : State} (h : s.Formed) : (s.queCommit old).Formed := by
  unfold State.queCommit
  extract_lets one
  have hone : ∀ (x0 : Nat) (r : State), r.Formed → (one x0 r).Formed := by
    unfold one
    intro _ _ hr
    extract_lets _ s1' s2
    have hs2 : s2.Formed := ite ((ite hr hr.setFld.setFld).setFlag) (ite hr hr.setFld.setFld)
    exact ite hs2.restream hs2
  exact ite ((h.each hone).retryReports.mailboxTake) (h.each hone)

theorem memCommit (h : s.Formed) : s.memCommit.Formed := h.setFld.refreshRate

theorem commitApply {old : State} {w : Nat} (h : s.Formed) : (s.commitApply old w).Formed := by
  unfold State.commitApply
  dsimp only
  split
  · exact h.pendSet.lanCommit
  · exact h.pendSet.orxCommit
  · exact h.applyWindow.hscTake
  · exact h.pendSet.ddcCommit
  · exact h.pendSet
  · exact h.pendSet.each (fun _ _ hr => hr.geoBegin)
  · exact h.pendSet.anvCommit
  · exact h.auxAdvance.applyWindow.auxCommit
  · exact h.applyWindow.memCommit
  · exact h.applyWindow.queCommit
  · exact h.applyWindow.netCommit
  · exact h.applyWindow.pwrCommit
  · exact h.applyWindow

theorem commitWindow {old : State} {w : Nat} (h : s.Formed) : (s.commitWindow old w).Formed := by
  unfold State.commitWindow
  extract_lets s1 s2
  have hs2 : s2.Formed := h.commitChecks.toPending.setFld
  exact (ite hs2.beginHold hs2).commitApply

theorem sendConfig {ws : List Nat} (h : s.Formed) : (s.sendConfig ws).Formed := ite (h.foldl (fun _ _ hr => hr.belSend)) h

theorem commitAll {ws : List Nat} (h : s.Formed) :
    (s.commitAll ws).Formed := ((h.each (fun _ _ hr => hr.commitWindow)).each (fun _ _ hr => hr.settleLane)).sendConfig

theorem commitMeets {src : Source} {ws : List Nat} {f : State → State} (h : s.Formed) (hf : ∀ r : State, r.Formed → (f r).Formed) :
    (s.commitMeets src ws f).Formed :=
  (hf _ (h.foldl (fun _ _ hr => hr.setStaged))).foldl (fun _ _ hr => hr.setStaged.markDirty)

theorem commitWrite {src : Source} {val : Word} (h : s.Formed) : (s.commitWrite src val).Formed :=
  ite h (ite (h.beside.count.foldl (fun _ _ hr => hr.clamp)) (h.beside.count.commitMeets (fun _ hr => hr.commitAll)))

theorem forceAll {f : Fld} {u v : Nat} (h : s.Formed) : (s.forceAll f u v).Formed :=
  ite (h.setStaged.setPend.setLive.each (fun _ _ hr => hr.setLive)) h.setStaged.setPend.setLive

theorem legacyLanesOnly (h : s.Formed) :
    s.legacyLanesOnly.Formed :=
    h.each (fun _ _ hr => (hr.only (fun _ hv => hv.disableLane)).only (fun _ hv => hv.wickStop))

theorem legacyFix {on : Bool} (h : s.Formed) : (s.legacyFix on).Formed := by
  unfold State.legacyFix
  extract_lets s1 s2 s3
  have hs3 : s3.Formed := ((h.each (fun _ _ hr => hr.forceAll)).forceAll).forceAll
  exact (ite hs3.setFlag.legacyLanesOnly hs3).setFlag

theorem legacyFilter {n : Nat} (h : s.Formed) : (s.legacyFilter n).Formed := h.beside.setStaged.setPend

theorem legacyCommit {src : Source} {val : Word} (h : s.Formed) : (s.legacyCommit src val).Formed := by
  unfold State.legacyCommit
  extract_lets _ _ s1 _ _ s2
  have hs2 : s2.Formed := h.beside.count.beside.commitMeets (fun _ hr => hr.commitAll)
  exact ite (h.beside.count.foldl (fun _ _ hr => hr.clamp)) (ite hs2 ((hs2.each (fun _ _ hr => hr.legacyFilter)).startConversion))

theorem sendCopies {synced : Bool} (h : s.Formed) :
    (s.sendCopies synced).Formed := ite h (ite h.onTwn (ite h (h.onTwn.sendConfig.each (fun _ _ hr => hr.mirrorQueue))))

theorem execStatus {t epoch : Nat} {synced eligible : Bool} {blocks : List Nat} (h : s.Formed) :
    Lands (execStatus t epoch synced eligible blocks s) :=
  h.clocked (fun _ hr => hr.only (fun _ hv => hv.status.sendCopies))

/-! ### Resets and power -/

theorem stage {k : Nat} (h : s.Formed) : (s.stage k).Formed := h.setFld

theorem tstReset (h : s.Formed) : s.tstReset.Formed := h.beside

theorem pwrKept (h : s.Formed) : s.pwrKept.Formed := h.setFld.setLive.setStaged

theorem coldReset {cause : Nat} : (s.coldReset cause).Formed := reset.beside.pwrKept.setFld.setFlag.setFlag.pwrShow

theorem execColdReset {low : ResetLow} (h : s.Formed) : Lands (execColdReset low s) := h.always (fun _ hr => hr.only (fun _ _ => coldReset))

theorem execRailOutOfTolerance {t : Nat} {rail : RailLevel} {ns : Nat} (h : s.Formed) : Lands (execRailOutOfTolerance t rail ns s) :=
  h.always (fun _ hr => hr.only (fun _ hv => hv.beside.only (fun _ _ => coldReset)))

theorem execResetRelease {t straps : Nat} (h : s.Formed) : Lands (execResetRelease t straps s) := by
  unfold Machine.execResetRelease
  refine h.always (fun _ hr => hr.only (fun _ hv => ?_))
  extract_lets _ s1 s2
  have hs2 : s2.Formed := hv.beside.setFld.setFlag.setFlag
  exact (ite hs2.legacyFix hs2).stage

theorem verifyStart (h : s.Formed) : s.verifyStart.Formed := ite h.beside.setFlag.stage.setFld.setFlag h.beside.setFlag.stage

theorem execPllLock {t : Nat} (h : s.Formed) : Lands (execPllLock t s) :=
  h.always (fun _ hr => hr.only (fun _ hv => ite hv.beside.verifyStart hv.beside.verifyStart.quenchTrip))

theorem clockFail (h : s.Formed) : s.clockFail.Formed := by
  unfold State.clockFail
  extract_lets s1 _ _ s2
  have hs2 : s2.Formed := (h.quenchTrip.setFlag.each (fun _ _ hr => hr.onLane)).beside
  split
  · exact hs2.gateOff
  · exact hs2

theorem execClockMonitorCheck {t : Nat} {ppm : Int} {lossOfLock : Bool} (h : s.Formed) : Lands (execClockMonitorCheck t ppm lossOfLock s) :=
  h.ticking (fun _ hr => hr.only (fun _ hv => hv.clockFail))

theorem auxWarm (h : s.Formed) : s.auxWarm.Formed := h.auxAdvance.auxOff.onAux.setFlag.setFlag.setFld

theorem wickWarm {n : Nat} (h : s.Formed) : (s.wickWarm n).Formed := h.wickStop.setFld.setFld.onWick (fun _ hr => hr.same rfl)

theorem engWarm {e : Nat} (h : s.Formed) : (s.engWarm e).Formed := h.onEngine (fun _ hr => hr.same rfl rfl)

theorem warmBegin {cause : Nat} (h : s.Formed) : (s.warmBegin cause).Formed := by
  unfold State.warmBegin
  extract_lets _ s1 s2
  have hs2 : s2.Formed := (ite h.setFld.setFlag.count.count h.setFld.setFlag.count).tstReset
  exact (((((((((ite hs2.setFlag.coverChanged hs2).each (fun _ _ hr => hr.wickWarm)).each (fun _ _ hr => hr.phxRestart)).each
    (fun _ _ hr => hr.engWarm)).auxWarm).beside).setFlag.setFlag.setFld.setFld.setFlag).each (fun _ _ hr => hr.settleLane)).setFlag).beside

theorem cutSubmit {q : Nat} (h : s.Formed) : (s.cutSubmit q).Formed := ite h h.drawn.onQueue.portWrite

theorem queWarm (h : s.Formed) : s.queWarm.Formed :=
  (ite (h.each (fun _ _ hr => hr.onQueue)) ((h.each (fun _ _ hr => hr.cutSubmit)).rebuildQueues)).each (fun _ _ hr => hr.setFlag.only (fun _ hv => hv.restream))

theorem runDuty {d : Nat × Nat} (h : s.Formed) : (s.runDuty d).Formed := by
  unfold State.runDuty
  split
  · exact h.rotationDue
  · exact h.calCommand
  · exact h.sweepStart
  · exact h.only (fun _ hr => hr.setFlag)

theorem runDuties {ds : List (Nat × Nat)} (h : s.Formed) : (s.runDuties ds).Formed := h.foldl (fun _ _ hr => hr.runDuty)

theorem hearthServes (h : s.Formed) : s.hearthServes.Formed := (h.beside.only (fun _ hr => hr.twinOff)).mailboxTake.runDuties

theorem hearthUp (h : s.Formed) : s.hearthUp.Formed := h.beside.stage.hearthServes

theorem warmEnd {imageOk : Bool} (h : s.Formed) : (s.warmEnd imageOk).Formed := by
  unfold State.warmEnd
  extract_lets _ s1 s2 s3
  have hs1 : s1.Formed := h.beside.queWarm.setFlag.resubmit
  have hs3 : s3.Formed := ite ((ite hs1.seqStart hs1).fence) (ite hs1.seqStart hs1)
  exact ite hs3.retryReports.hearthUp hs3.verifyStart

theorem execWarmResetHoldEnd {t : Nat} {imageOk : Bool} (h : s.Formed) : Lands (execWarmResetHoldEnd t imageOk s) :=
  h.always (fun _ hr => hr.only (fun _ hv => hv.warmEnd))

theorem execWatchdogRefresh {t : Nat} (h : s.Formed) :
    Lands (execWatchdogRefresh t s) := h.clocked (fun _ hr => hr.only (fun _ hv => hv.beside))

theorem execWatchdogExpiry {t : Nat} (h : s.Formed) : Lands (execWatchdogExpiry t s) := by
  unfold Machine.execWatchdogExpiry
  refine h.clocked (fun _ hr => ?_)
  split
  · exact hr.only (fun _ hv => hv.quenchTrip.warmBegin)
  · exact hr

theorem execLockstepMismatch {t : Nat} (h : s.Formed) :
    Lands (execLockstepMismatch t s) := h.clocked (fun _ hr => hr.only (fun _ hv => hv.beside.setFld.setFlag.faultAt))

theorem execHearthRestartDone {t : Nat} (h : s.Formed) : Lands (execHearthRestartDone t s) :=
  h.clocked (fun _ hr => hr.only (fun _ hv => ite hv.hearthUp hv.hearthServes))

theorem powerLost {p : Power} {cause : Nat} : (s.powerLost p cause).Formed := coldReset.beside

theorem hibernate {src : Source} {val : Word} {wakeHigh : Bool} (h : s.Formed) : (s.hibernate src val wakeHigh).Formed :=
  ite h (ite h.clamp (ite h (.beside (.drawn (.beside ((h.each (fun _ _ hr => hr.wickStop)).each (fun _ _ hr => hr.onEngine (fun _ hv => hv.same rfl rfl))))))))

theorem hibEnter {wakeHigh : Bool} : (s.hibEnter wakeHigh).Formed := ite coldReset powerLost

theorem hibGates (h : s.Formed) : s.hibGates.Formed := h.beside

theorem hibTick (h : s.Formed) : s.hibTick.Formed := by
  unfold State.hibTick
  split
  · exact h.only (fun _ _ => hibEnter)
  · split
    · exact h.only (fun _ hr => hr.hibGates)
    · exact h

theorem execFeedSample {t mvA mvB : Nat} (h : s.Formed) : Lands (execFeedSample t mvA mvB s) := h.always (fun _ hr => hr.feedSample.hibTick)

theorem execHibernate {t : Nat} {src : Source} {wakeHigh : Bool} (h : s.Formed) : Lands (execHibernate t src wakeHigh s) :=
  h.ticking (fun _ hr => hr.pairWhole (fun _ hv => hv.pastLocks (fun _ hw => hw.hibernate)))

theorem feedsSeen {mvA mvB : Nat} (h : s.Formed) : (s.feedsSeen mvA mvB).Formed := h.beside

theorem execWake {t highUs mvA mvB : Nat} (h : s.Formed) : Lands (execWake t highUs mvA mvB s) :=
  h.always (fun _ hr => hr.only (fun _ _ => coldReset.feedsSeen.acquireAtPower))

theorem execVaonApply {t mvA mvB : Nat} (h : s.Formed) : Lands (execVaonApply t mvA mvB s) :=
  h.always (fun _ hr => hr.only (fun _ _ => coldReset.feedsSeen.acquireAtPower))

theorem execVaonRemoved {t : Nat} (h : s.Formed) : Lands (execVaonRemoved t s) := h.always (fun _ _ => powerLost)

theorem execTapInstruction {t : Nat} {instr : TapInstr} (h : s.Formed) : Lands (execTapInstruction t instr s) :=
  h.always (fun _ hr => (ite ((ite hr.beside hr).beside) (ite hr.beside hr)).beside)

end State.Formed

end Sys2Proof.Machine

/-! PROOFS. The memories keep their form (O58): writes of the control bus, boot and the host. -/

namespace Sys2Proof.Machine

namespace State.Formed

variable {s : State}

/-! ### The test window -/

theorem dummyWrite {src : Source} {val : Word} (h : s.Formed) :
    (s.dummyWrite src val).Formed := ite (ite h.setFld.setFld h.setFld) ((ite h.setFld.setFld h.setFld).clamp)

theorem emitFaultWrite {src : Source} {val : Word} (h : s.Formed) : (s.emitFaultWrite src val).Formed := by
  unfold State.emitFaultWrite
  extract_lets _ _ _ _ bad s1 s2
  have hs2 : s2.Formed := ite h.setFld.setFld.setFld h.setFld.setFld.setFld.clamp
  clear_value s2 s1 bad
  cases bad with
  | none => exact hs2
  | some r => exact ite hs2 hs2.clamp

theorem eccWriteReg {src : Source} {a : Nat} {val : Word} (h : s.Formed) :
    (s.eccWriteReg src a val).Formed := ite h.plainWrite.beside h.plainWrite

theorem dropWrite {src : Source} {a : Nat} {val : Word} (h : s.Formed) : (s.dropWrite src a val).Formed :=
  h.plainWrite.each (fun _ _ hr => hr.only (fun _ hv => hv.belLoss))

theorem tstWrite {src : Source} {a : Nat} {val : Word} (h : s.Formed) : (s.tstWrite src a val).Formed := by
  unfold State.tstWrite
  split
  · exact h.dropWrite
  · exact h.eccWriteReg
  · exact h.dummyWrite
  · exact h.emitFaultWrite
  · exact h.plainWrite

/-! ### Writes of the control bus -/

theorem sysWrite {src : Source} {a : Nat} {val : Word} (h : s.Formed) : (s.sysWrite src a val).Formed :=
  ite h.commitWrite (ite (h.only (fun _ hr => hr.snapshot)) (ite h.plainWrite.clearWatch h.plainWrite))

theorem hscWrite {src : Source} {a : Nat} {val : Word} (h : s.Formed) : (s.hscWrite src a val).Formed :=
  ite (ite ((ite h.calibrate h).rotateNow) (ite h.calibrate h)) (ite h.manWrite h.plainWrite)

theorem wckWrite {src : Source} {a : Nat} {val : Word} (h : s.Formed) : (s.wckWrite src a val).Formed :=
  ite (h.only (fun _ hr => hr.wckCtrl)) (ite h.wickPcWrite (ite h.wickProgWrite h.plainWrite))

theorem anvWrite {src : Source} {a : Nat} {val : Word} (h : s.Formed) : (s.anvWrite src a val).Formed :=
  ite (h.withEngine (fun _ hr => ite hr (ite hr.engCtrl (ite hr.engPcWrite (hr.onEngine (fun _ hv => hv.hostAstat)))))) h.plainWrite

theorem auxWrite {src : Source} {a : Nat} {val : Word} (h : s.Formed) : (s.auxWrite src a val).Formed :=
  ite (h.only (fun _ hr => hr.injWrite)) (ite (h.only (fun _ hr => hr.calCommand)) (ite h.seqWrite (ite h.calfWrite h.plainWrite)))

theorem queWrite {src : Source} {a : Nat} {val : Word} (h : s.Formed) : (s.queWrite src a val).Formed :=
  ite h.plainWrite (ite (ite h.clamp (h.only (fun _ hr => hr.doorbell))) (ite h.hostDone (ite (ite h.clamp h.setLive) h.plainWrite)))

theorem netWrite {src : Source} {a : Nat} {val : Word} (h : s.Formed) :
    (s.netWrite src a val).Formed := ite (h.only (fun _ hr => hr.beside)) (ite h.beside h.plainWrite)

theorem winWrite {src : Source} {a : Nat} {val : Word} (h : s.Formed) : (s.winWrite src a val).Formed := by
  unfold State.winWrite
  refine ite h.clamp ?_
  split
  · exact h.sysWrite
  · exact ite h.chirpWrite h.plainWrite
  · exact ite h.scheduleWrite h.plainWrite
  · exact h.hscWrite
  · exact ite h.spectrumWrite h.plainWrite
  · exact h.wckWrite
  · exact h.anvWrite
  · exact h.auxWrite
  · exact h.queWrite
  · exact h.netWrite
  · exact h.tstWrite
  · exact h.plainWrite

theorem meets {src : Source} {a : Nat} {f : State → State} (h : s.Formed) (hf : ∀ r : State, r.Formed → (f r).Formed) :
    (s.meets src a f).Formed := by
  unfold State.meets
  dsimp only
  split
  · exact (ite ((hf _ h).setLive.setStaged) (hf _ h)).beside
  · exact hf _ h

theorem apply {native : Bool} {src : Source} {a : Nat} {val : Word} (h : s.Formed) : (s.apply native src a val).Formed :=
  ite (ite (h.pastLocksAs (fun _ hr => hr.meets (fun _ hv => hv.winWrite))) h) (ite (ite (h.pastLocksAs (fun _ hr => hr.imemWrite))
    (ite (h.pastLocksAs (fun _ hr => hr.dmemWrite)) h)) (ite h.apertureWrite h))

theorem covering {a : Nat} {f : State → State} (h : s.Formed) (hf : ∀ r : State, r.Formed → (f r).Formed) : (s.covering a f).Formed := by
  unfold State.covering
  dsimp only
  split
  · exact ite ((hf _ h).coverChanged.beginHold) (hf _ h)
  · exact hf _ h

theorem sysRun (h : s.Formed) : s.sysRun.Formed := ite h.setFlag.hearthUp h.setFlag

theorem setExpert {on : Bool} (h : s.Formed) : (s.setExpert on).Formed := ite h.setFlag h.setFlag.tstReset

theorem setLegacy {src : Source} {on : Bool} (h : s.Formed) : (s.setLegacy src on).Formed := (ite h.twinCtrl h).legacyFix

theorem sysCtrl {src : Source} {val : Word} (h : s.Formed) : (s.sysCtrl src val).Formed := by
  unfold State.sysCtrl
  extract_lets _ _ _ s1 s2 s3 s4
  have hs2 : s2.Formed := ite ((ite h.sysRun h).setLegacy) (ite h.sysRun h)
  have hs4 : s4.Formed := ite ((ite hs2.setExpert hs2).clamp) (ite hs2.setExpert hs2)
  exact ite ((ite hs4.clamp hs4).warmBegin) (ite hs4.clamp hs4)

theorem crcRef {val : Word} (h : s.Formed) : (s.crcRef val).Formed := h.beside.setLive.setFlag.clearWatch

theorem guardApply {src : Source} {a : Nat} {val : Word} (h : s.Formed) : (s.guardApply src a val).Formed := by
  unfold State.guardApply
  refine h.covering (fun _ hr => ?_)
  split
  · exact hr.sysCtrl
  · exact hr.crcRef
  · exact hr.drawn.hibernate
  · exact hr.lanCtrl
  · exact hr.qcfgWrite
  · exact hr.only (fun _ hv => hv.quenchClear)
  · exact hr.pwrCtrl
  · exact hr.switchback
  · exact hr.twinCtrl
  · exact hr.twinSwitchback
  · exact hr

theorem pairDone {native : Bool} {src : Source} {a : Nat} {val : Word} (h : s.Formed) : (s.pairDone native src a val).Formed :=
  h.pastLocksAs (fun _ hr => hr.meets (fun _ hv => hv.guardApply))

theorem applyTarget {src : Source} {addr : Nat} {val : Word} {x : Target} (h : s.Formed) : (s.applyTarget src addr val x).Formed := by
  unfold State.applyTarget
  split
  · exact h.apply
  · exact h.legacyCommit
  · exact h.chirpPut
  · exact h

theorem freshWrite {src : Source} {addr : Nat} {val : Word} {tg : Target} (h : s.Formed) : (s.freshWrite src addr val tg).Formed := by
  unfold State.freshWrite
  split
  · exact ite h.beside (ite h.guardFault h.applyTarget)
  · exact h.applyTarget

theorem secondWrite {g : Guard} {src : Source} {addr : Nat} {val : Word} {tg : Target} (h : s.Formed) :
    (s.secondWrite g src addr val tg).Formed := by
  unfold State.secondWrite
  dsimp only
  split
  · exact ite (ite h.closePair.pairDone h.closePair.guardFault) h.closePair.guardFault.freshWrite
  · exact h.closePair.guardFault.freshWrite

theorem busStep {src : Source} {a : Nat} {val : Word} (h : s.Formed) : (s.busStep src a val).Formed := by
  unfold State.busStep
  dsimp only
  split
  · exact h.freshWrite
  · exact h.secondWrite

theorem busSteps {src : Source} {ws : List (Nat × Word)} (h : s.Formed) : (s.busSteps src ws).Formed := h.foldl (fun _ _ hr => hr.busStep)

theorem drain {k : Nat} (h : s.Formed) : (s.drain k).Formed := by
  induction k generalizing s with
  | zero => exact h
  | succ k ih =>
    unfold State.drain
    split
    · exact ih (ite h.beside.guardFault h.beside.busSteps)
    · exact h

theorem guardTick (h : s.Formed) : s.guardTick.Formed := (h.each (fun _ _ hr => hr.guardExpire)).drain

theorem busUnit {src : Source} {ws : List (Nat × Word)} (h : s.Formed) :
    (s.busUnit src ws).Formed := ite h ((ite h.guardTick.beside h.guardTick.busSteps).drain)

theorem busWrite {src : Source} {a : Nat} {val : Word} (h : s.Formed) : (s.busWrite src a val).Formed := ite h h.busUnit

theorem execGuardedFirstWrite {t : Nat} {src : Source} {addr val : Word} (h : s.Formed) :
    Lands (execGuardedFirstWrite t src addr val s) := by
  unfold Machine.execGuardedFirstWrite
  refine h.ticking (fun _ hr => ?_)
  split
  · exact hr.only (fun _ hv => hv.busWrite)
  · exact hr

theorem execGuardedComplementWrite {t : Nat} {src : Source} {addr val : Word} (h : s.Formed) :
    Lands (execGuardedComplementWrite t src addr val s) := by
  unfold Machine.execGuardedComplementWrite
  refine h.ticking (fun _ hr => ?_)
  split
  · exact hr.only (fun _ hv => hv.busWrite)
  · exact hr

theorem execGuardTimeout {t win : Nat} (h : s.Formed) : Lands (execGuardTimeout t win s) := by
  unfold Machine.execGuardTimeout
  refine h.ticking (fun _ hr => ?_)
  split
  · exact hr.only (fun _ hv => hv.closePair.guardFault.guardTick)
  · exact hr

theorem pairWrite {src : Source} {a : Nat} {val : Word} (h : s.Formed) :
    (s.pairWrite src a val).Formed := h.pairWhole (fun _ hr => hr.pairDone)

theorem execChirpTableWrite {t : Nat} {src : Source} {addr val : Word} (h : s.Formed) : Lands (execChirpTableWrite t src addr val s) :=
  h.ticking (fun _ hr => hr.only (fun _ hv => hv.busWrite))

theorem execQueueDoorbell {t : Nat} {src : Source} {q : Nat} (h : s.Formed) : Lands (execQueueDoorbell t src q s) :=
  h.ticking (fun _ hr => hr.only (fun _ hv => hv.pastLocks (fun _ hw => hw.doorbell)))

theorem execHostDone {t : Nat} {src : Source} {q seq : Nat} (h : s.Formed) : Lands (execHostDone t src q seq s) :=
  h.ticking (fun _ hr => hr.only (fun _ hv => hv.pastLocks (fun _ hw => hw.hostDone)))

theorem mirrorWord {a : Nat} {val : Word} (h : s.Formed) : (s.mirrorWord a val).Formed := ite h (ite h.guardApply h.apply)

theorem config {ps : List (Word × Word)} {last : Bool} (h : s.Formed) : (s.config ps last).Formed :=
  (h.linkHeard.foldl (fun _ _ hr => hr.mirrorWord)).commitAll.onTwn.syncCheck

theorem execConfig {t : Nat} {pairs : List (Word × Word)} {last : Bool} (h : s.Formed) : Lands (execConfig t pairs last s) :=
  h.clocked (fun _ hr => hr.only (fun _ hv => hv.config))

/-! ### The configuration CRC -/

theorem crcDeclare (h : s.Formed) : s.crcDeclare.Formed := by
  unfold State.crcDeclare
  dsimp only
  split
  · exact h.beside.setFlag.count.faultAt.beside.setFlag
  · exact h.beside.setFlag.count.faultAt.quenchTrip
  · exact h.beside.setFlag.count.faultAt

theorem crcCompare {crc : Nat} (h : s.Formed) : (s.crcCompare crc).Formed := ite h.beside.setFlag.setFlag (ite h.beside.crcDeclare h.beside)

theorem crcPass (h : s.Formed) : s.crcPass.Formed := by
  unfold State.crcPass
  extract_lets _ _ s1
  have hs1 : s1.Formed := h.drawn.setFld.setFlag.clearWatch
  exact ite hs1.crcCompare hs1.beside

theorem execCrcPassEnd {t : Nat} (h : s.Formed) :
    Lands (execCrcPassEnd t s) := h.ticking (fun _ hr => hr.only (fun _ hv => ite hv.beside hv.crcPass))

theorem execCrcHoldEnd {t : Nat} (h : s.Formed) : Lands (execCrcHoldEnd t s) := by
  unfold Machine.execCrcHoldEnd
  refine h.ticking (fun _ hr => ?_)
  split
  · exact hr.only (fun _ hv => hv.beside.setFlag)
  · exact hr

/-! ### Boot -/

theorem loadWords {a : Nat} {ws : List Word} (h : s.Formed) : (s.loadWords a ws).Formed := by
  induction ws generalizing s a with
  | nil => exact h
  | cons w ws ih => exact ih h.busWrite

theorem clearWords {a : Nat} {ws : List Word} (h : s.Formed) : (s.clearWords a ws).Formed := by
  induction ws generalizing s a with
  | nil => exact h
  | cons w ws ih => exact ih h.busWrite

theorem bootFail (h : s.Formed) : s.bootFail.Formed := h.beside.setFlag.stage

theorem imageFail {img : List Byte} (h : s.Formed) : (s.imageFail img).Formed := by
  unfold State.imageFail
  extract_lets _ s1 _ _ s2
  have hs2 : s2.Formed := (h.foldl (fun _ _ hr => hr.clearWords)).beside.foldl (fun _ _ hr => hr.busWrite)
  exact ite hs2.beside.setFlag hs2.bootFail

theorem geomFirst {lists : List (List (Nat × Nat))} (h : s.Formed) : (s.geomFirst lists).Formed := by
  unfold State.geomFirst
  split
  · exact h.plainWrite.commitAll
  · exact h

theorem imagePass {img : List Byte} (h : s.Formed) :
    (s.imagePass img).Formed := (h.foldl (fun _ _ hr => hr.loadWords)).beside.stage.geomFirst

theorem verify {img : List Byte} (h : s.Formed) : (s.verify img).Formed := ite h.imagePass h.imageFail

theorem execBootVerifyDone {t : Nat} {image : List Byte} (h : s.Formed) :
    Lands (execBootVerifyDone t image s) := h.clocked (fun _ hr => hr.only (fun _ hv => hv.verify))

theorem chunkReady (h : s.Formed) : s.chunkReady.Formed := ite h.beside.setFld h.beside.setFlag.verify

theorem takeChunk (h : s.Formed) : s.takeChunk.Formed := h.only (fun _ hr => hr.beside.chunkReady)

theorem write {src : Source} {a : Nat} {val : Word} (h : s.Formed) : (s.write src a val).Formed := h.busWrite.takeChunk

theorem execBootChunkReady {t : Nat} {src : Source} (h : s.Formed) : Lands (execBootChunkReady t src s) := h.ticking (fun _ hr => hr.write)

theorem execRegisterWrite {t : Nat} {src : Source} {addr val : Word} (h : s.Formed) :
    Lands (execRegisterWrite t src addr val s) := h.ticking (fun _ hr => hr.write)

theorem execTrainingDone {t : Nat} {fail0 fail1 : Option Nat} {vrefdq : List Nat} {temp : Nat} (h : s.Formed) :
    Lands (execTrainingDone t fail0 fail1 vrefdq temp s) := by
  unfold Machine.execTrainingDone
  refine h.clocked (fun _ hr => hr.only (fun _ hv => ?_))
  extract_lets bad
  have hbad : ∀ (x0 : Nat) (x1 : Option Nat) (r : State), r.Formed → (bad x0 x1 r).Formed := by
    unfold bad
    intro _ _ _ hw
    split
    · exact hw.trainFail
    · exact hw.trained
  exact ite hv.memReady.payloadsDue.sendHeld.stage ((hbad _ _ _ (hbad _ _ _ hv)).stage)

theorem listEntry {e : Nat × Nat} (h : s.Formed) : (s.listEntry e).Formed := ite h.busWrite.busWrite h.busWrite

theorem execBootApplyDone {t : Nat} (h : s.Formed) : Lands (execBootApplyDone t s) :=
  h.clocked (fun _ hr => hr.only (fun _ hv => ((hv.foldl (fun _ _ hw => hw.listEntry)).foldl (fun _ _ hw => hw.loadWords)).beside.hearthUp))

/-! ### The host's ports -/

theorem setSpi {read write : Nat} {abort badWrite : Bool} (h : s.Formed) : (s.setSpi read write abort badWrite).Formed := h.setFld

theorem spiErr {c : Bool} (h : s.Formed) : (s.spiErr c).Formed := h.only (fun _ hr => hr.count)

theorem spiBurst {a : Nat} {ws : List Word} (h : s.Formed) : (s.spiBurst a ws).1.Formed := by
  induction ws generalizing s a with
  | nil => exact h
  | cons w ws ih => exact ih h.write

theorem spiWrite {f : List Byte} (h : s.Formed) :
    (s.spiWrite f).Formed := ite h.setSpi.spiErr (ite h.setSpi.spiErr (ite h.setSpi.spiBurst.setFld h.setSpi.spiBurst))

theorem execSpiWrite {t : Nat} {bytes : List Byte} (h : s.Formed) :
    Lands (execSpiWrite t bytes s) := h.ticking (fun _ hr => hr.only (fun _ hv => hv.spiWrite))

theorem latch {src : Source} {a n : Nat} (h : s.Formed) : (s.latch src a n).1.Formed := by
  induction n generalizing s a with
  | zero => exact h
  | succ n ih =>
    unfold State.latch
    exact ih (ite_fst h.apertureRead h.busRead)

theorem spiFetch {f : List Byte} {late : Bool} (h : s.Formed) : (s.spiFetch f late).1.Formed := ite_fst h (ite_fst h (ite_fst h h.latch))

theorem spiRead {f : List Byte} {late : Bool} (h : s.Formed) :
    (s.spiRead f late).Formed := ite h.setSpi.spiErr.beside h.spiFetch.setSpi.spiErr.beside

theorem execSpiRead {t : Nat} {bytes : List Byte} {late : Bool} (h : s.Formed) : Lands (execSpiRead t bytes late s) :=
  h.ticking (fun _ hr => hr.only (fun _ hv => hv.spiRead))

theorem execSpiStatus {t : Nat} (h : s.Formed) : Lands (execSpiStatus t s) := h.ticking (fun _ hr => hr.setFld.beside)

theorem execSpiUnknownCommand {t : Nat} {_bytes : List Byte} (h : s.Formed) :
    Lands (execSpiUnknownCommand t _bytes s) := h.ticking (fun _ hr => hr)

theorem mgmtRead {c : Client} {b : List Byte} (h : s.Formed) : (s.mgmtRead c b).Formed := ite h.latch.mgmtAnswer h.mgmtAnswer

theorem mgmtWrite {c : Client} {b : List Byte} (h : s.Formed) : (s.mgmtWrite c b).Formed := ite h.busUnit.takeChunk.mgmtAnswer h.mgmtAnswer

theorem mgmtSubmit {c : Client} {b : List Byte} (h : s.Formed) :
    (s.mgmtSubmit c b).Formed := ite (ite h.waitRebuild h.frameSubmit) h.mgmtAnswer

theorem mgmtRun {c : Client} {op : Nat} {b : List Byte} (h : s.Formed) : (s.mgmtRun c op b).Formed := by
  unfold State.mgmtRun
  split
  · exact h.mgmtRead
  · exact h.mgmtWrite
  · exact h.mgmtSubmit
  · exact h.mgmtAnswer

theorem mgmt {n : Nat} {vid : Option Nat} {smac sip sport : Nat} {f : List Byte} (h : s.Formed) : (s.mgmt n vid smac sip sport f).Formed :=
  h.only (fun _ hr => hr.receive (fun _ hv => ite (hv.only (fun _ hw => hw.rxDrop)) (ite hv.beside.count.mgmtRun hv.count)))

theorem acceptHead {q : Nat} (h : s.Formed) : (s.acceptHead q).Formed := by
  unfold State.acceptHead
  split
  · exact h.accept.acceptAnswer
  · exact h

theorem answerTurned (h : s.Formed) : s.answerTurned.Formed := by
  unfold State.answerTurned
  refine h.beside.foldl (fun _ _ hr => ?_)
  split
  · exact hr.mgmtAnswer
  · exact hr

theorem execQueueAccept {t q : Nat} (h : s.Formed) :
    Lands (execQueueAccept t q s) := h.clocked (fun _ hr => (hr.only (fun _ hv => hv.acceptHead)).answerTurned)

end State.Formed

end Sys2Proof.Machine

/-! PROOFS. Every command keeps the form of the memories (O58). -/

namespace Sys2Proof.Machine

/-! ### Every command -/

namespace State.Formed

variable {s : State}

/-- The families whose instructions need no more than the family's lemma, then every other command in the order of the instructions. -/
theorem exec (c : Instr) (h : s.Formed) : Lands (exec c s) := by
  cases c
  all_goals dsimp only [Machine.exec]
  case commit | snapshot | eccInject | sliceFaultInject | dummyLoadSelect | emitFaultInject => exact h.ticking (fun _ hr => hr.busWrite)
  case sysRun | warmReset | legacySelect | expertEnable | expertDisable | crcRefWrite | twinEnable | twinDisable => exact h.ticking (fun _ hr => hr.pairWrite)
  case engineRun | engineHaltRequest | engineStep | engineReset | engineClrerr => exact h.onCtrl
  case add | sub | and | or | xor | shl | shr | sar | min | max | minu | maxu | mul | mulh | slt | sltu | cls | clz => exact h.salu
  case addi | subi | andi | ori | xori | shli | shri | sari | mini | maxi | minui | maxui | muli | mulhi | slti | sltui | clsi | clzi => exact h.salui
  case vadd | vsub | vaddh | vsubh | vand | vor | vxor | vmin | vmax | vminh | vmaxh | vabs | vabsh | vshl | vsar | vsarh | vmov | vswaph | vmulh |
      vmulw | vmuli | cmag2 | cconj => exact h.vop
  case vbcst | vbcsth | vsel | vmulhb | vpack | vnarw => exact h.anvEng (fun _ _ hr => hr.setLanes)
  case vext | kto | kpop => exact h.anvEng (fun _ _ hr => hr.setS)
  case vmac2 | vmsu2 | vmul2 => exact h.vmac (fun _ _ _ _ hr => hr.dotMac)
  case vmacp | vmsup | vmulp => exact h.vmac (fun _ _ _ _ hr => hr.pairMac)
  case vmac2Mem | vmsu2Mem | vmul2Mem => exact h.vmacm (fun _ _ _ _ hr => hr.dotMac)
  case vmacpMem | vmsupMem | vmulpMem => exact h.vmacm (fun _ _ _ _ hr => hr.pairMac)
  case aclr | amov | aadd => exact h.anvEng (fun _ _ hr => hr.setAccs)
  case cmul | cmulc => exact h.cmul
  case cmac | cmacc => exact h.cmac
  case cbflym | cbflymc => exact h.cbflym
  case vcmpeq | vcmpne | vcmplt | vcmple | vcmpgt | vcmpge | vtinv => exact h.vcmp
  case kand | kor | kxor | kandn | knot => exact h.kop
  case vld | vldbH | vldbW => exact h.vmem (fun _ _ _ hr => hr.loading (fun _ _ hv => hv.finish (fun _ hw => hw.setLanes.postMod)))
  case beqz | bnez | bltz | bgez => exact h.branch
  case wckRun | wckStop | wckClrerr => exact h.clocked (fun _ hr => hr.wckCtrlBit)
  case wckBlank | wckRange | wckTrig => exact h.clocked (fun _ hr => hr.wickDo (fun _ _ hv => hv.wickTick (fun _ hw => hw.onWick (fun _ h3 => h3.same rfl))))
  case mgmtRead | mgmtWrite | mgmtSubmit => exact h.ticking (fun _ hr => hr.mgmt)
  exacts [h.execRegisterWrite, h.execGuardedFirstWrite, h.execGuardedComplementWrite, h.execGuardTimeout, h.execRcRead, h.execUptimeLoRead,
    h.execCrcPassEnd, h.execCrcHoldEnd, h.execHibernate, h.execWake, h.execVaonApply, h.execColdReset, h.execResetRelease, h.execRailOutOfTolerance,
    h.execPllLock, h.execClockMonitorCheck, h.execWatchdogRefresh, h.execWatchdogExpiry, h.execLockstepMismatch, h.execHearthRestartDone,
    h.execWarmResetHoldEnd, h.execBootVerifyDone, h.execTrainingDone, h.execBootApplyDone, h.execBootChunkReady, h.execEmitEnable, h.execEmitDisable,
    h.execQforce, h.execQuenchClear, h.execQclrCheckEnd, h.execStringSample, h.execOvercurrent, h.execMonitorWindowEnd, h.execApcUpdate,
    h.execDecayCheck, h.execInterlockChange, h.execStringARampDone, h.execChirpTableWrite, h.execTableCopybackDone, h.execLaunchRelease,
    h.execBoosterLead, h.execBoosterPulseStart, h.execBoosterPulseEnd, h.execBoosterTailEnd, h.execRangeStepDecide, h.execOverloadRise,
    h.execRangeStepApply, h.execScheduleEntryStart, h.execBlankWindowStart, h.execBlankWindowEnd, h.execCmWindowEnd, h.execScheduleTableWrite,
    h.execHscCalibrate, h.execHscCalDone, h.execHscRotate, h.execRotationStart, h.execTrimPhaseEnd, h.execShadow0End, h.execShadow1End,
    h.execEstimationDone, h.execSliceSwap, h.execSliceCheckWindow, h.execSliceDiagEnd, h.execTrimSweepStart, h.execHscManWrite, h.execSpectrumWrite,
    h.execMfConversionDone, h.execPathBoundary, h.execDdcOutput, h.execPhaseSample, h.execBlockClose, h.execTraceEndEval, h.execPointStateEcc,
    h.execEngineHalt, h.execImemWrite, h.execDmemHostAccess, h.execDmaComplete, h.execTachEdge, h.execTachTimeout, h.execSld, h.execSldh, h.execSst,
    h.execSsth, h.execPset, h.execPseti, h.execPget, h.execPmod, h.execPstep, h.execAred, h.execCmag2a, h.execKfrom, h.execVst, h.execDmast,
    h.execDmawt, h.execDmard, h.execPost, h.execTake, h.execDone, h.execJmp, h.execCall, h.execJr, h.execDbnz, h.execRep, h.execRepReg, h.execWait,
    h.execNop, h.execHalt, h.execSrd, h.execSwr, h.execBxadv, h.execWickProgramWrite, h.execWckHalt, h.execWckWait, h.execWaitExpiry,
    h.execWckLaunch, h.execWckAlign, h.execAlignGridTick, h.execWckPps, h.execPpsTimeout, h.execWckLoop, h.execWckEndl, h.execWckJmp, h.execWckTone,
    h.execTriggerAction, h.execCaptureEnd, h.execCaptureTruncate, h.execToneOn, h.execToneOff, h.execRefReady, h.execSeqStart, h.execSeqStop,
    h.execInjectRequest, h.execAuxCalibrate, h.execAuxCalStepEnd, h.execAuxTempCheck, h.execDischargeStart, h.execDischargeEnd, h.execSourceConnect,
    h.execSettleEnd, h.execWindowEnd, h.execResultWrite, h.execLinesyncEdge, h.execLinesyncLost, h.execLeadCheck, h.execResultAgeStale,
    h.execAuxResultRead, h.execMemRequest, h.execMemCommandSlot, h.execRefreshDue, h.execSelfRefreshEntry, h.execBudgetWindowEnd, h.execZqcs,
    h.execRetrainSlot, h.execScrubRead, h.execQueueDoorbell, h.execQueueAccept, h.execHostDone, h.execCompletionFinal, h.execMirrorWaitTimeout,
    h.execMstFrameSend, h.execMstFlushTimeout, h.execMstAck, h.execMstRto, h.execPayloadUnreadable, h.execCompress, h.execDecompress,
    h.execCruJobEnd, h.execLinkUp, h.execLinkDown, h.execSpeedTryTimeout, h.execRxFrameDrop, h.execArpRequest, h.execNeighbourSolicitation,
    h.execPtpSyncRx, h.execPtpFollowUpRx, h.execPtpDelayRespRx, h.execPtpDelayReqRx, h.execPtpSyncTx, h.execPtpSyncTimeout, h.execPpsEdge,
    h.execPpsinTimeout, h.execSecondBoundary, h.execPpsOutEnd, h.execSpiWrite, h.execSpiRead, h.execSpiStatus, h.execSpiUnknownCommand,
    h.execFeedSample, h.execFeedQualified, h.execLeaseRenewal, h.execLeaseStop, h.execLeaseExpiryAcquire, h.execReleaseConfirmed,
    h.execNoconfTimeout, h.execFeedSwitchback, h.execPairingListenEnd, h.execHeartbeat, h.execStatus, h.execRelease, h.execJournal, h.execConfig,
    h.execCheckpoint, h.execBellowsResend, h.execBellowsLaneLoss, h.execLeaseInPulse, h.execLeaseOutPulse, h.execPathSilence, h.execOswSettled,
    h.execTwinSwitchback, h.execIllegalInstruction, h.execWickUndefinedOperation, h.execBellowsLaneLock, h.execTapInstruction, h.execVaonRemoved,
    h.execLaneIdle, h.execMailboxJobEnd]

end State.Formed

/-- Settles O58: what the command at the front does lands in a formed state, and the queue is no part of the form. -/
theorem memoriesKeepTheirForm : Obligations.MemoriesKeepTheirForm := by
  intro c s u rest hs hstep
  have hfront : (s.withPending rest).Formed := (s.formed_iff.mpr hs).beside
  exact u.formed_iff.mp (hfront.exec c u hstep)

end Sys2Proof.Machine

/-! PROOFS. The scalar instructions (O9). -/

namespace Sys2Proof.Machine

/-! ### Bits that an operation may not set (R227, R236, R246) -/

/-- No row of an operation in the opcode table names SAT or BX. -/
def opWithoutFlags (op : Nat) : Bool := anvTable.all (fun r => r.1 ≠ op || (!r.2.2.2.testBit 56 && !r.2.2.2.testBit 57))

/-- A word of such an operation with SAT or BX set is no instruction. -/
theorem anvDecode_none_of_flag {w : Nat} (hop : opWithoutFlags (wOp w) = true) (hflag : wSat w = true ∨ wBx w = true) : anvDecode w = none := by
  refine Option.eq_none_iff_forall_ne_some.mpr (fun ⟨op, fn⟩ hw => ?_)
  obtain ⟨rfl, -, -⟩ := legal_row hw
  have hrow (r) (hr : anvRow (wOp w) fn = some r) : r.2.2.2.testBit 56 = false ∧ r.2.2.2.testBit 57 = false := by
    have hsel := List.find?_some hr
    have hall := List.all_eq_true.mp hop r (List.mem_of_find?_eq_some hr)
    simp only [Bool.and_eq_true, decide_eq_true_eq] at hsel
    simpa [hsel.1.1] using hall
  rcases hflag with hsat | hbx
  · exact Bool.noConfusion (hsat.symm.trans (legal_clear hw 57 (.inr rfl) (fun r hr => (hrow r hr).2)))
  · exact Bool.noConfusion (hbx.symm.trans (legal_clear hw 56 (.inl rfl) (fun r hr => (hrow r hr).1)))

theorem flagged_undefined {a b : Nat} (ha : opWithoutFlags a = true) (hb : opWithoutFlags b = true) :
    ∀ w, wOp w = a ∨ wOp w = b → wSat w = true ∨ wBx w = true → anvDecode w = none := by
  rintro w (rfl | rfl) hflag
  · exact anvDecode_none_of_flag ha hflag
  · exact anvDecode_none_of_flag hb hflag

/-! ### SALU and SALUI (R236) -/

/-- An operation in its two forms: on two scalars, and on a scalar and the immediate. -/
theorem alu_retires {c ci : Nat → Nat → Instr} {fn : Nat} {f : Word → Word → Word} (hf : ∀ a b, aluOp fn a b = f a b)
    (hc : ∀ s t e, exec (c t e) s = salu fn t e s) (hci : ∀ s t e, exec (ci t e) s = salui fn t e s) :
    Retires c 0x01 fn (fun w x => x.setS (wD w) (f (x.sreg (wA w)) (x.sreg (wB w))))
      ∧ Retires ci 0x02 fn (fun w x => x.setS (wD w) (f (x.sreg (wA w)) (BitVec.ofNat 32 (wImm w)))) := by
  simp only [← hf]
  exact ⟨anvEng_retires (fun t e s => salu fn t e s) hc (fun _ _ _ => rfl), anvEng_retires (fun t e s => salui fn t e s) hci (fun _ _ _ => rfl)⟩

/-- The low bits of an integer as a word. -/
theorem ofNat_wrapInt (n : Nat) (x : Int) : BitVec.ofNat n (wrapInt n x) = BitVec.ofInt n x := by
  have hlt : x % ((2 ^ n : Nat) : Int) < ((2 ^ n : Nat) : Int) := Int.emod_lt_of_pos _ (by positivity)
  apply BitVec.eq_of_toNat_eq
  rw [BitVec.toNat_ofNat, BitVec.toNat_ofInt, wrapInt, Nat.mod_eq_of_lt (by omega)]

theorem aluOp_min (a b : Word) : aluOp 0x08 a b = BitVec.ofInt 32 (min a.toInt b.toInt) := by
  change (if a.toInt ≤ b.toInt then a else b) = _
  rw [min_def]
  split <;> rw [BitVec.ofInt_toInt]

theorem aluOp_max (a b : Word) : aluOp 0x09 a b = BitVec.ofInt 32 (max a.toInt b.toInt) := by
  change (if a.toInt ≤ b.toInt then b else a) = _
  rw [max_def]
  split <;> rw [BitVec.ofInt_toInt]

theorem aluOp_minu (a b : Word) : aluOp 0x0A a b = BitVec.ofNat 32 (min a.toNat b.toNat) := by
  change (if a.toNat ≤ b.toNat then a else b) = _
  rw [min_def]
  split <;> rw [BitVec.ofNat_toNat, BitVec.setWidth_eq]

theorem aluOp_maxu (a b : Word) : aluOp 0x0B a b = BitVec.ofNat 32 (max a.toNat b.toNat) := by
  change (if a.toNat ≤ b.toNat then b else a) = _
  rw [max_def]
  split <;> rw [BitVec.ofNat_toNat, BitVec.setWidth_eq]

theorem aluOp_mul (a b : Word) : aluOp 0x0C a b = BitVec.ofInt 32 (a.toInt * b.toInt) := by
  change a * b = _
  rw [BitVec.ofInt_mul, BitVec.ofInt_toInt, BitVec.ofInt_toInt]

theorem aluOp_mulh (a b : Word) : aluOp 0x0D a b = BitVec.ofInt 32 (a.toInt * b.toInt / 2 ^ 32) := ofNat_wrapInt 32 _

/-! ### What CLS and CLZ count (R236) -/

/-- The bits that a number needs. -/
def bitLength (m : Nat) : Nat := if m = 0 then 0 else Nat.log2 m + 1

theorem bitLength_le {m k : Nat} : bitLength m ≤ k ↔ ∀ i, k ≤ i → m.testBit i = false := by
  have hlt : bitLength m ≤ k ↔ m < 2 ^ k := by
    unfold bitLength
    split
    next h => simp [h]
    next h => rw [← Nat.log2_lt h]; exact Nat.succ_le_iff
  rw [hlt]
  exact ⟨fun h i hi => Nat.testBit_lt_two_pow (h.trans_le (Nat.pow_le_pow_right (by decide) hi)), Nat.lt_pow_two_of_testBit m⟩

/-- The bits of a word's value, or of the ones' complement of a negative one, are those that differ from the sign bit. -/
theorem signBits_word (a : Word) : signBits 32 a.toInt = 31 - bitLength (if a.msb then ~~~a else a).toNat := by
  have hmag : (if a.toInt < 0 then (-a.toInt - 1).toNat else a.toInt.toNat) = (if a.msb then ~~~a else a).toNat := by
    rw [BitVec.toInt_eq_msb_cond]
    have := a.isLt
    cases a.msb <;> simp only [Bool.false_eq_true, if_true, if_false, BitVec.toNat_not] <;> split <;> omega
  simp only [signBits, hmag, bitLength]

theorem clsMagnitude_testBit (a : Word) (i : Nat) (hi : i < 32) :
    (if a.msb then ~~~a else a).toNat.testBit i = false ↔ a.getLsbD i = a.getLsbD 31 := by
  have hmsb : a.msb = a.getLsbD 31 := by simp [BitVec.msb_eq_getLsbD_last]
  rw [BitVec.testBit_toNat, hmsb]
  cases h : a.getLsbD 31 <;> simp [hi]

theorem le_signBits_iff (a : Word) {n : Nat} (hn : n ≤ 31) :
    n ≤ signBits 32 a.toInt ↔ ∀ i, 31 - n ≤ i → i ≤ 31 → a.getLsbD i = a.getLsbD 31 := by
  have hlen : n ≤ signBits 32 a.toInt ↔ bitLength (if a.msb then ~~~a else a).toNat ≤ 31 - n ∨ n = 0 := by rw [signBits_word]; omega
  rw [hlen, bitLength_le]
  constructor
  · rintro (h | rfl) i hlo hhi
    · exact (clsMagnitude_testBit a i (by omega)).mp (h i hlo)
    · obtain rfl : i = 31 := by omega
      rfl
  · intro h
    refine .inl (fun i hlo => ?_)
    by_cases hi : i < 32
    · exact (clsMagnitude_testBit a i hi).mpr (h i hlo (by omega))
    · exact Nat.testBit_lt_two_pow ((BitVec.isLt _).trans_le (Nat.pow_le_pow_right (by decide) (by omega)))

theorem le_leadingZeros_iff (a : Word) {n : Nat} (hn : n ≤ 32) :
    n ≤ (if a = 0 then 32 else 31 - Nat.log2 a.toNat) ↔ ∀ i, 32 - n ≤ i → i < 32 → a.getLsbD i = false := by
  have hcount : (if a = 0 then 32 else 31 - Nat.log2 a.toNat) = 32 - bitLength a.toNat := by
    have hzero : a = 0 ↔ a.toNat = 0 := by rw [← BitVec.toNat_inj]; rfl
    simp only [bitLength, hzero]
    split <;> omega
  have hlen : bitLength a.toNat ≤ 32 := bitLength_le.mpr (fun i hi => by rw [BitVec.testBit_toNat, BitVec.getLsbD_of_ge _ _ hi])
  rw [hcount, show n ≤ 32 - bitLength a.toNat ↔ bitLength a.toNat ≤ 32 - n by omega, bitLength_le]
  refine ⟨fun h i hlo _ => h i hlo, fun h i hlo => ?_⟩
  by_cases hi : i < 32
  · exact h i hlo hi
  · exact BitVec.getLsbD_of_ge _ _ (by omega)

/-- Settles O9: each pair of words is one `aluOp`, and what CLS and CLZ count is what the length of the remaining bits leaves of 31 and of 32. -/
theorem scalarInstructions : Obligations.ScalarInstructions := by
  unfold Obligations.ScalarInstructions
  refine ⟨?_, fun a => ⟨by rw [signBits_word]; exact Nat.sub_le _ _, fun n hn => le_signBits_iff a hn⟩, fun a n hn => le_leadingZeros_iff a hn⟩
  intro Computes
  have form {c ci : Nat → Nat → Instr} {fn : Nat} {f : Word → Word → Word} (hf : ∀ a b, aluOp fn a b = f a b)
      (hc : ∀ s t e, exec (c t e) s = salu fn t e s) (hci : ∀ s t e, exec (ci t e) s = salui fn t e s) : Computes c ci fn f := alu_retires hf hc hci
  clear_value Computes
  refine ⟨?_, ?_, ?_, ?_, ?_, ?_, ?_, ?_, ?min, ?max, ?minu, ?maxu, ?mul, ?mulh, ?_, ?_, ?_, ?_, ?flags⟩
  case flags => exact flagged_undefined (by decide +kernel) (by decide +kernel)
  case min => exact form aluOp_min (fun _ _ _ => rfl) (fun _ _ _ => rfl)
  case max => exact form aluOp_max (fun _ _ _ => rfl) (fun _ _ _ => rfl)
  case minu => exact form aluOp_minu (fun _ _ _ => rfl) (fun _ _ _ => rfl)
  case maxu => exact form aluOp_maxu (fun _ _ _ => rfl) (fun _ _ _ => rfl)
  case mul => exact form aluOp_mul (fun _ _ _ => rfl) (fun _ _ _ => rfl)
  case mulh => exact form aluOp_mulh (fun _ _ _ => rfl) (fun _ _ _ => rfl)
  all_goals exact form (fun _ _ => rfl) (fun _ _ _ => rfl) (fun _ _ _ => rfl)

end Sys2Proof.Machine

/-! PROOFS. Comparisons and predicate instructions (O11). -/

namespace Sys2Proof.Machine

/-! ### Comparisons (R235, R246) -/

/-- A comparison retires with the active bits of predicate D. -/
theorem vcmp_retires {c : Nat → Nat → Instr} {fn : Nat} {g f : Vec → Vec → Nat → Bool} (ex : Nat → Nat → State → Out)
    (hc : ∀ s t e, exec (c t e) s = ex t e s) (hex : ∀ s t e, ex t e s = vcmp fn t e s g) (hgf : ∀ a b j, g a b j = f a b j) :
    Retires c 0x18 fn (fun w x => x.setK (wD w) (BitVec.ofNat 16 (lanes16.foldl (fun m j =>
      m + 2 ^ j * b2n (if x.active w j then f (x.vec (wA w)) (x.vec (wB w)) j else (x.pred (wD w)).getLsbD j)) 0))) := by
  simp only [← hgf]
  exact anvEng_retires ex hc hex

/-- A half holds INVALID when its bits are 0x8000. -/
theorem signed_eq_invalid (v : Nat) : signed 16 v = -0x8000 ↔ v % 2 ^ 16 = 0x8000 := by
  simp only [signed, Nat.reducePow]
  split <;> omega

theorem Vec.int_eq_iff (a b : Vec) (j : Nat) : a.int j = b.int j ↔ a.lane j = b.lane j := BitVec.toInt_inj

theorem Vec.hi_eq_invalid (a : Vec) (j : Nat) : a.hi j = -0x8000 ↔ (a.lane j).toNat / 2 ^ 16 = 0x8000 := by
  have := (a.lane j).isLt
  rw [Vec.hi, signed_eq_invalid, Nat.mod_eq_of_lt (by omega)]

/-- Settles O11: the comparisons are `vcmp` on lanes as bits, and the other predicate instructions their own effects. -/
theorem predicateInstructions : Obligations.PredicateInstructions := by
  unfold Obligations.PredicateInstructions
  refine ⟨?_, ?_, ?_, ?_, ?_, ?_, ?_, ?_, ?_, ?flags⟩
  case flags => exact flagged_undefined (by decide +kernel) (by decide +kernel)
  · intro Compares
    have compare {c : Nat → Nat → Instr} {fn : Nat} {g f : Vec → Vec → Nat → Bool} (ex : Nat → Nat → State → Out)
        (hc : ∀ s t e, exec (c t e) s = ex t e s) (hex : ∀ s t e, ex t e s = vcmp fn t e s g) (hgf : ∀ a b j, g a b j = f a b j) : Compares c fn f :=
      vcmp_retires ex hc hex hgf
    clear_value Compares
    refine ⟨compare execVcmpeq (fun _ _ _ => rfl) (fun _ _ _ => rfl) ?eq, compare execVcmpne (fun _ _ _ => rfl) (fun _ _ _ => rfl) ?ne,
      compare execVcmplt (fun _ _ _ => rfl) (fun _ _ _ => rfl) (fun _ _ _ => rfl), compare execVcmple (fun _ _ _ => rfl) (fun _ _ _ => rfl) (fun _ _ _ => rfl),
      compare execVcmpgt (fun _ _ _ => rfl) (fun _ _ _ => rfl) (fun _ _ _ => rfl), compare execVcmpge (fun _ _ _ => rfl) (fun _ _ _ => rfl) (fun _ _ _ => rfl),
      compare execVtinv (fun _ _ _ => rfl) (fun _ _ _ => rfl) ?invalid⟩
    case eq => exact fun a b j => decide_eq_decide.mpr (a.int_eq_iff b j)
    case ne => exact fun a b j => decide_eq_decide.mpr (not_congr (a.int_eq_iff b j))
    case invalid => exact fun a b j => congrArg₂ _ (decide_eq_decide.mpr (signed_eq_invalid _)) (decide_eq_decide.mpr (a.hi_eq_invalid j))
  · exact anvEng_retires execKand (fun _ _ _ => rfl) (fun _ _ _ => rfl)
  · exact anvEng_retires execKor (fun _ _ _ => rfl) (fun _ _ _ => rfl)
  · exact anvEng_retires execKxor (fun _ _ _ => rfl) (fun _ _ _ => rfl)
  · exact anvEng_retires execKandn (fun _ _ _ => rfl) (fun _ _ _ => rfl)
  · exact anvEng_retires execKnot (fun _ _ _ => rfl) (fun _ _ _ => rfl)
  · exact anvEng_retires execKfrom (fun _ _ _ => rfl) (fun _ _ _ => rfl)
  · exact anvEng_retires execKto (fun _ _ _ => rfl) (fun _ _ _ => rfl)
  · exact anvEng_retires execKpop (fun _ _ _ => rfl) (fun _ _ _ => rfl)

end Sys2Proof.Machine

/-! PROOFS. The vector instructions of VALU and VMUL (O12): rounding and narrowing, what a vector result writes, and the instructions. -/

namespace Sys2Proof.Machine

/-! ### Convergent rounding (R234) -/

/-- A shift goes down by the remainder or up to the next value, whichever is nearer, and from a half to the even one. -/
theorem shrEven_cases (x : Int) (n : Nat) :
    (shrEven x n * 2 ^ n - x = -(x % 2 ^ n) ∧ 2 * (x % 2 ^ n) ≤ 2 ^ n ∨ shrEven x n * 2 ^ n - x = 2 ^ n - x % 2 ^ n ∧ 2 ^ n ≤ 2 * (x % 2 ^ n))
      ∧ (2 * (x % 2 ^ n) = 2 ^ n → shrEven x n % 2 = 0) := by
  simp only [shrEven, Nat.cast_pow, Nat.cast_ofNat]
  generalize (2 : Int) ^ n = d
  have hdiv : d * (x / d) + x % d = x := Int.mul_ediv_add_emod x d
  have hdown : x / d * d - x = -(x % d) := by linarith
  have hup : (x / d + 1) * d - x = d - x % d := by linarith
  split
  next h => exact ⟨.inl ⟨hdown, h.le⟩, fun hhalf => absurd hhalf h.ne⟩
  next hlo =>
    split
    next h => exact ⟨.inr ⟨hup, h.le⟩, fun hhalf => absurd hhalf h.ne'⟩
    next hhi =>
      split
      next heven => exact ⟨.inl ⟨hdown, by omega⟩, fun _ => heven⟩
      next hodd => exact ⟨.inr ⟨hup, by omega⟩, fun _ => by omega⟩

theorem shrEven_nearest (x : Int) (n : Nat) : 2 * (shrEven x n * 2 ^ n - x) ≤ 2 ^ n ∧ -(2 ^ n : Int) ≤ 2 * (shrEven x n * 2 ^ n - x)
    ∧ ((2 * (shrEven x n * 2 ^ n - x) = 2 ^ n ∨ 2 * (shrEven x n * 2 ^ n - x) = -(2 ^ n)) → 0 < n → shrEven x n % 2 = 0) := by
  obtain ⟨herr, heven⟩ := shrEven_cases x n
  have hpos : (0 : Int) < 2 ^ n := by positivity
  have hrem : 0 ≤ x % 2 ^ n := Int.emod_nonneg _ hpos.ne'
  have hlt : x % 2 ^ n < 2 ^ n := Int.emod_lt_of_pos _ hpos
  exact ⟨by omega, by omega, fun hhalf _ => heven (by omega)⟩

/-- A shift by no place rounds nothing. -/
theorem shrEven_zero (x : Int) : shrEven x 0 = x := by simp [shrEven]

/-! ### Narrowing (R234) -/

theorem fits_iff (n : Nat) (x : Int) : fits n x = true ↔ -(2 ^ (n - 1)) ≤ x ∧ x < 2 ^ (n - 1) := by simp [fits]

theorem narrow_fits {sat : Bool} {n : Nat} {x : Int} (h : fits n x = true) : narrow sat n x = wrapInt n x := by simp [narrow, h]

/-- Without SAT the low bits are kept. -/
theorem narrow_wraps (n : Nat) (x : Int) : narrow false n x = wrapInt n x := by simp [narrow]

/-- Under SAT a value out of its format is the nearest of plus and minus the largest one. -/
theorem narrow_clamps {n : Nat} {x : Int} (h : fits n x = false) :
    narrow true n x = if x < 0 then wrapInt n (1 - ((2 ^ (n - 1) : Nat) : Int)) else 2 ^ (n - 1) - 1 := by simp [narrow, h]

theorem wideLane_ov_iff (sat : Bool) (x : Int) : (wideLane sat x).ov = true ↔ ¬ (-(2 ^ 31) ≤ x ∧ x < 2 ^ 31) := by
  rw [← fits_iff 32 x]
  simp [wideLane]

theorem wideLane_fits {sat : Bool} {x : Int} (h : (wideLane sat x).ov = false) : (wideLane sat x).val.toInt = x := by
  have hfits : fits 32 x = true := by simpa [wideLane] using h
  have hrange := (fits_iff 32 x).mp hfits
  rw [wideLane, narrow_fits hfits, ofNat_wrapInt, BitVec.toInt_ofInt, Int.bmod_def]
  norm_num at hrange ⊢
  omega

theorem wideLane_overflows {sat : Bool} {x : Int} (h : (wideLane sat x).ov = true) :
    (wideLane sat x).val = if sat = false then BitVec.ofInt 32 x else if x < 0 then BitVec.ofInt 32 (-(2 ^ 31 - 1)) else 0x7FFFFFFF := by
  have hfits : fits 32 x = false := by simpa [wideLane] using h
  cases sat
  · rw [wideLane, narrow_wraps, ofNat_wrapInt, if_pos rfl]
  · rw [wideLane, narrow_clamps hfits, if_neg (show ¬ true = false by decide)]
    split <;> rfl

/-- What a half holds after a value has been narrowed to it. -/
def narrowedHalf (sat : Bool) (x : Int) : Int :=
  if -(2 ^ 15) ≤ x ∧ x < 2 ^ 15 then x else if sat = false then signed 16 (wrapInt 16 x) else if x < 0 then -32767 else 32767

theorem signed_wrapInt {x : Int} (h : -(2 ^ 15) ≤ x ∧ x < 2 ^ 15) : signed 16 (wrapInt 16 x) = x := by
  simp only [signed, wrapInt, Nat.reducePow, Nat.cast_ofNat] at h ⊢
  omega

theorem signed_narrow (sat : Bool) (x : Int) : signed 16 (narrow sat 16 x) = narrowedHalf sat x := by
  unfold narrowedHalf
  split
  next h => rw [narrow_fits ((fits_iff 16 x).mpr h), signed_wrapInt h]
  next h =>
    have hfits : fits 16 x = false := Bool.eq_false_iff.mpr (fun hf => h ((fits_iff 16 x).mp hf))
    cases sat
    · rw [narrow_wraps, if_pos rfl]
    · rw [narrow_clamps hfits, if_neg (show ¬ true = false by decide)]
      split <;> rfl

/-- The low and the high half of a lane of two. -/
theorem joinHalves_lo (l h : Nat) : signed 16 (joinHalves l h).toNat = signed 16 l := by
  simp only [signed, joinHalves, BitVec.toNat_ofNat, show (l % 2 ^ 16 + h % 2 ^ 16 * 2 ^ 16) % 2 ^ 32 % 2 ^ 16 = l % 2 ^ 16 by omega]

theorem joinHalves_hi (l h : Nat) : signed 16 ((joinHalves l h).toNat / 2 ^ 16) = signed 16 h := by
  simp only [signed, joinHalves, BitVec.toNat_ofNat, show (l % 2 ^ 16 + h % 2 ^ 16 * 2 ^ 16) % 2 ^ 32 / 2 ^ 16 % 2 ^ 16 = h % 2 ^ 16 by omega]

theorem halfLane_parts (sat : Bool) (lo hi : Int) :
    signed 16 (halfLane sat lo hi).val.toNat = narrowedHalf sat lo ∧ signed 16 ((halfLane sat lo hi).val.toNat / 2 ^ 16) = narrowedHalf sat hi
      ∧ ((halfLane sat lo hi).ov = true ↔ ¬ ((-(2 ^ 15) ≤ lo ∧ lo < 2 ^ 15) ∧ (-(2 ^ 15) ≤ hi ∧ hi < 2 ^ 15)))
      ∧ (halfLane sat lo hi).head = min (signBits 16 (narrowedHalf sat lo)) (signBits 16 (narrowedHalf sat hi)) := by
  refine ⟨?_, ?_, ?_, ?_⟩
  · rw [← signed_narrow]; exact joinHalves_lo _ _
  · rw [← signed_narrow]; exact joinHalves_hi _ _
  · rw [← fits_iff 16 lo, ← fits_iff 16 hi, not_and_or]
    simp [halfLane]
  · rw [← signed_narrow, ← signed_narrow]; rfl

/-! ### A vector result (R206, R208, R235) -/

/-- The least of a bound and what a list's members have. -/
theorem foldl_min_spec (g : Nat → Nat) (l : List Nat) (d : Nat) :
    l.foldl (fun m j => min m (g j)) d ≤ d ∧ (∀ j ∈ l, l.foldl (fun m j => min m (g j)) d ≤ g j)
      ∧ (l.foldl (fun m j => min m (g j)) d = d ∨ ∃ j ∈ l, l.foldl (fun m j => min m (g j)) d = g j) := by
  induction l generalizing d with
  | nil => simp
  | cons i is ih =>
    obtain ⟨hle, hall, hsome⟩ := ih (min d (g i))
    rw [List.foldl_cons]
    generalize is.foldl (fun m j => min m (g j)) (min d (g i)) = m at hle hall hsome
    refine ⟨hle.trans (min_le_left _ _), List.forall_mem_cons.mpr ⟨hle.trans (min_le_right _ _), hall⟩, ?_⟩
    rcases hsome with heq | ⟨j, hj, heq⟩
    · rcases min_choice d (g i) with h | h
      · exact .inl (heq.trans h)
      · exact .inr ⟨i, List.mem_cons_self .., heq.trans h⟩
    · exact .inr ⟨j, List.mem_cons_of_mem _ hj, heq⟩

/-- The lanes in which a word takes effect. -/
theorem mem_activeLanes {x : Engine} {w j : Nat} : j ∈ lanes16.filter (x.active w) ↔ j < 16 ∧ x.active w j = true := by simp [lanes16]

theorem vecOf_lane (f : Nat → Word) {j : Nat} (hj : j < 16) : (vecOf f).lane j = f j := by simp [Vec.lane, vecOf, Vector.getD, hj]

namespace Engine

variable (x : Engine) (w : Nat) (f : Nat → LaneOut)

theorem setLanes_v : (x.setLanes w f).v = x.v.setIfInBounds (wD w) (vecOf (fun j => if x.active w j then (f j).val else (x.vec (wD w)).lane j)) := by
  unfold setLanes
  split <;> rfl

theorem setLanes_vov : (x.setLanes w f).vov = (x.vov || (lanes16.filter (x.active w)).any (fun j => (f j).ov)) := by
  unfold setLanes
  split <;> rfl

theorem setLanes_bexp : (x.setLanes w f).bexp
    = if wBx w then { x.bexp with head := min x.bexp.head ((lanes16.filter (x.active w)).foldl (fun m j => min m (f j).head) 15) } else x.bexp := by
  unfold setLanes
  split <;> rfl

/-- A vector result changes no register but vD and the flags. -/
theorem setLanes_frame : (x.setLanes w f).s = x.s ∧ (x.setLanes w f).a = x.a ∧ (x.setLanes w f).k = x.k ∧ (x.setLanes w f).p = x.p
    ∧ (x.setLanes w f).aov = x.aov ∧ (x.setLanes w f).dmem = x.dmem := by
  unfold setLanes
  split <;> exact ⟨rfl, rfl, rfl, rfl, rfl, rfl⟩

theorem setLanes_vec (i : Nat) : (x.setLanes w f).vec i
    = if i = wD w then vecOf (fun j => if x.active w j then (f j).val else (x.vec (wD w)).lane j) else x.vec i := by
  have hd := wD_lt w
  rw [vec, setLanes_v]
  split
  next h => simp [Vector.getD, h, hd]
  next h => simp [Vector.getD, vec, Array.getD_eq_getD_getElem?, Ne.symm h]

theorem setLanes_lane {j : Nat} (hj : j < 16) : ((x.setLanes w f).vec (wD w)).lane j = if x.active w j = true then (f j).val else (x.vec (wD w)).lane j := by
  rw [setLanes_vec, if_pos rfl, vecOf_lane _ hj]

theorem setLanes_vov_iff : (x.setLanes w f).vov = true ↔ x.vov = true ∨ ∃ j, j < 16 ∧ x.active w j = true ∧ (f j).ov = true := by
  simp only [setLanes_vov, Bool.or_eq_true, List.any_eq_true, mem_activeLanes, and_assoc]

/-- With BX set HEAD is lowered to the least headroom written, if that is smaller. -/
theorem setLanes_head (hbx : wBx w = true) (hhead : x.bexp.head ≤ 15) :
    (x.setLanes w f).bexp.head ≤ x.bexp.head ∧ (∀ j, j < 16 → x.active w j = true → (x.setLanes w f).bexp.head ≤ (f j).head)
      ∧ ((x.setLanes w f).bexp.head = x.bexp.head ∨ ∃ j, j < 16 ∧ x.active w j = true ∧ (x.setLanes w f).bexp.head = (f j).head) := by
  rw [setLanes_bexp, if_pos hbx]
  obtain ⟨-, hall, hsome⟩ := foldl_min_spec (fun j => (f j).head) (lanes16.filter (x.active w)) 15
  generalize (lanes16.filter (x.active w)).foldl (fun m j => min m (f j).head) 15 = m at hall hsome
  refine ⟨min_le_left _ _, fun j hj hact => (min_le_right _ _).trans (hall j (mem_activeLanes.mpr ⟨hj, hact⟩)), ?_⟩
  rcases hsome with rfl | ⟨j, hj, rfl⟩
  · exact .inl (min_eq_left hhead)
  · obtain ⟨hlt, hact⟩ := mem_activeLanes.mp hj
    rcases min_choice x.bexp.head (f j).head with h | h
    · exact .inl h
    · exact .inr ⟨j, hlt, hact, h⟩

end Engine

/-! ### The instructions (R239) -/

/-- A vector instruction of registers retires with what it gives each lane. -/
theorem vop_retires {c : Nat → Nat → Instr} {op fn : Nat} {g : Nat → Vec → Vec → Nat → Nat → LaneOut} {f : Nat → Engine → Nat → LaneOut}
    (ex : Nat → Nat → State → Out) (hc : ∀ s t e, exec (c t e) s = ex t e s) (hex : ∀ s t e, ex t e s = vop op fn t e s g)
    (hgf : ∀ w x j, anvDecode w = some (op, fn) → g w (x.vec (wA w)) (x.vec (wB w)) (wC w + x.scale w) j = f w x j) :
    Retires c op fn (fun w x => x.setLanes w (f w x)) :=
  (anvEng_retires (f := fun w x => x.setLanes w (g w (x.vec (wA w)) (x.vec (wB w)) (wC w + x.scale w))) ex hc hex).congr
    (fun w x hw => congrArg (x.setLanes w) (funext fun j => hgf w x j hw))

/-- An instruction without BX shifts by C alone (R208). -/
theorem shift_of_noBx {w op fn : Nat} (hw : anvDecode w = some (op, fn)) (hrow : ∀ r, anvRow op fn = some r → r.2.2.2.testBit 56 = false) (x : Engine) :
    wC w + x.scale w = wC w := by
  have hbx : wBx w = false := legal_clear hw 56 (.inl rfl) hrow
  simp [Engine.scale, hbx]

/-- Settles O12: the lanes of each instruction, what a vector result writes and flags, and how values are rounded and narrowed. -/
theorem vectorArithmetic : Obligations.VectorArithmetic := by
  unfold Obligations.VectorArithmetic
  refine ⟨?instructions, ?_, ?_, ?_, ?_, ?_, ?result, shrEven_nearest, ?wide, ?half⟩
  case result =>
    intro x w f y
    exact ⟨fun j hj => x.setLanes_lane w f hj, fun i hi => (x.setLanes_vec w f i).trans (if_neg hi), x.setLanes_vov_iff w f,
      fun hbx => (x.setLanes_bexp w f).trans (if_neg (by simp [hbx])), x.setLanes_head w f, x.setLanes_frame w f⟩
  case wide => exact fun sat x => ⟨wideLane_ov_iff sat x, wideLane_fits, wideLane_overflows⟩
  case half => exact fun sat lo hi => halfLane_parts sat lo hi
  case instructions =>
    intro Words Halves
    have words {c : Nat → Nat → Instr} {op fn : Nat} {g : Nat → Vec → Vec → Nat → Nat → LaneOut} {f : Nat → Vec → Vec → Nat → LaneOut}
        (ex : Nat → Nat → State → Out) (hc : ∀ s t e, exec (c t e) s = ex t e s) (hex : ∀ s t e, ex t e s = vop op fn t e s g)
        (hgf : ∀ w (x : Engine) a b j, anvDecode w = some (op, fn) → g w a b (wC w + x.scale w) j = f w a b j) : Words c op fn f :=
      vop_retires ex hc hex (fun w x j => hgf w x _ _ j)
    have halves {c : Nat → Nat → Instr} {op fn : Nat} {sat : Bool} {sh : Nat → Engine → Nat}
        {g : Nat → Vec → Vec → Nat → Nat → LaneOut} {f : Int → Int → Int}
        (ex : Nat → Nat → State → Out) (hc : ∀ s t e, exec (c t e) s = ex t e s) (hex : ∀ s t e, ex t e s = vop op fn t e s g)
        (hgf : ∀ w (x : Engine) (a b : Vec) j,
          g w a b (wC w + x.scale w) j = halfLane (sat && wSat w) (shrEven (f (a.lo j) (b.lo j)) (sh w x)) (shrEven (f (a.hi j) (b.hi j)) (sh w x))) :
        Halves c op fn sat sh f := vop_retires ex hc hex (fun w x j _ => hgf w x _ _ j)
    clear_value Words Halves
    refine ⟨words execVadd (fun _ _ _ => rfl) (fun _ _ _ => rfl) ?_, words execVsub (fun _ _ _ => rfl) (fun _ _ _ => rfl) ?_,
      halves execVaddh (fun _ _ _ => rfl) (fun _ _ _ => rfl) ?_, halves execVsubh (fun _ _ _ => rfl) (fun _ _ _ => rfl) ?_,
      words execVand (fun _ _ _ => rfl) (fun _ _ _ => rfl) ?_, words execVor (fun _ _ _ => rfl) (fun _ _ _ => rfl) ?_,
      words execVxor (fun _ _ _ => rfl) (fun _ _ _ => rfl) ?_, words execVmin (fun _ _ _ => rfl) (fun _ _ _ => rfl) ?_,
      words execVmax (fun _ _ _ => rfl) (fun _ _ _ => rfl) ?_, halves execVminh (fun _ _ _ => rfl) (fun _ _ _ => rfl) ?minh,
      halves execVmaxh (fun _ _ _ => rfl) (fun _ _ _ => rfl) ?maxh, words execVabs (fun _ _ _ => rfl) (fun _ _ _ => rfl) ?_,
      halves execVabsh (fun _ _ _ => rfl) (fun _ _ _ => rfl) ?_, words execVshl (fun _ _ _ => rfl) (fun _ _ _ => rfl) ?shl,
      words execVsar (fun _ _ _ => rfl) (fun _ _ _ => rfl) ?sar, halves execVsarh (fun _ _ _ => rfl) (fun _ _ _ => rfl) ?_,
      words execVmov (fun _ _ _ => rfl) (fun _ _ _ => rfl) ?_, words execVswaph (fun _ _ _ => rfl) (fun _ _ _ => rfl) ?swaph,
      halves execVmulh (fun _ _ _ => rfl) (fun _ _ _ => rfl) ?mulh, words execVmulw (fun _ _ _ => rfl) (fun _ _ _ => rfl) ?_,
      words execVmuli (fun _ _ _ => rfl) (fun _ _ _ => rfl) ?_⟩
    case minh | maxh => intro w x a b j; simp only [shrEven_zero, Bool.false_and]
    case shl => intro w x a b j hw; rw [shift_of_noBx hw (by decide +kernel)]
    case sar => intro w x a b j hw; rw [shift_of_noBx hw (by decide +kernel)]
    case swaph => intro w x a b j hw; simp only [joinHalves, Nat.mod_mod]
    case mulh => intro w x a b j; rw [Nat.add_assoc]; rfl
    all_goals intros; rfl
  · exact anvEng_retires execVbcst (fun _ _ _ => rfl) (fun _ _ _ => rfl)
  · exact anvEng_retires execVbcsth (fun _ _ _ => rfl) (fun _ _ _ => rfl)
  · exact anvEng_retires execVsel (fun _ _ _ => rfl) (fun _ _ _ => rfl)
  · exact anvEng_retires execVext (fun _ _ _ => rfl) (fun _ _ _ => rfl)
  · exact anvEng_retires execVmulhb (fun _ _ _ => rfl) (fun _ _ _ => rfl)

end Sys2Proof.Machine

/-! PROOFS. The statement on accumulators and complex instructions (O14) fails in its clause on ARED. A sum outside 32 bits sets VOV, and the PCLK edge on which it did is noted
with the other bits of ASTAT, so that a host clear on that edge leaves it set (R479); the clause's effect sets VOV without that note. -/

namespace Sys2Proof.Machine

/-- ARED of accumulator 0 into s0, without SAT and with a shift of 0. -/
def aredWord : Nat := 0x14 * 2 ^ 58 + 5 * 2 ^ 50

/-- The clocks run, and engine 0 is RUNNING at that word with the largest element in every lane of its accumulators. -/
def aredState : State :=
  { State.reset with sys := { State.reset.sys with power := .run } }.onEngine 0 (fun x =>
    { x with
      st := .running
      imem := [(1, BitVec.ofNat 32 (aredWord / 2 ^ 32))]
      a := Vector.replicate 4 (Vector.replicate 16 (BitVec.ofNat 40 (2 ^ 39 - 1))) })

theorem aredState_engineAt : aredState.EngineAt 0 aredWord 0x14 5 where
  runs := by decide
  unit := by decide
  issuing := by decide
  word := by decide +kernel
  legal := by decide +kernel
  sound := by decide

/-- The edge of the overflow is noted: bit 1 of ASTAT, on PCLK edge 0. -/
theorem aredState_overflow_noted : ∃ u, exec (.ared 0 0) aredState = .next u ∧ (u.engine 0).setOn = (0, 2) := ⟨_, rfl, by decide +kernel⟩

/-- Refutes O14: ARED of accumulators whose sum is outside 32 bits notes the edge of its overflow, and the effect that the clause on ARED names does not. -/
theorem not_accumulatorsAndComplex : ¬ Obligations.AccumulatorsAndComplex := by
  unfold Obligations.AccumulatorsAndComplex
  intro h
  obtain ⟨-, -, -, -, -, hared, -⟩ := h
  obtain ⟨u, hu, hnoted⟩ := aredState_overflow_noted
  have hclause := hared aredState 0 0 aredWord aredState_engineAt
  obtain rfl := Host.Outcome.next.inj (hu.symm.trans hclause)
  exact absurd hnoted (by decide +kernel)

end Sys2Proof.Machine

/-! PROOFS. Branches, NOP, BXADV, SRD and SWR (O17). -/

namespace Sys2Proof.Machine

/-! ### Branches (R249) -/

/-- A jump depends on what its effect makes of the engine as it stands. -/
theorem State.jumpTo_congr {s : State} {e : Nat} (pc : Nat) {f g : Engine → Engine} (h : f (s.engine e) = g (s.engine e)) : s.jumpTo e pc f = s.jumpTo e pc g := by
  simp only [State.jumpTo, State.onEngine, h]

/-- An instruction that goes on at an address of its own. -/
theorem jump_at {c : Nat → Nat → Instr} {fn : Nat} {pc : Nat → Engine → Nat} {f : Nat → Engine → Engine → Engine} {g : Nat → Engine → Engine}
    (ex : Nat → Nat → State → Out) (hc : ∀ s t e, exec (c t e) s = ex t e s)
    (hex : ∀ s t e, ex t e s = anv 0x30 (fun n => n = fn) t e s (fun w s => s.jumpTo e (pc w (s.engine e)) (f w (s.engine e))))
    (hfg : ∀ w x, f w x x = g w x) {s : State} {t e w : Nat} (h : s.EngineAt e w 0x30 fn) :
    exec (c t e) s = .next (s.after t (fun r => (r.fetched e).jumpTo e (pc w (s.engine e)) (g w))) := by
  rw [hc, hex, anv_at h t _ (by simp)]
  refine congrArg _ (s.after_congr t ?_)
  rw [State.jumpTo_congr _ (hfg w _), State.fetched_engine, State.begin_engine]

/-- A branch under a condition is one jump, to TARGET or to the next address. -/
theorem branch_eq (fn t e : Nat) (s : State) (cond : Word → Bool) : branch fn t e s cond
    = anv 0x30 (fun n => n = fn) t e s (fun w s =>
        s.jumpTo e (if cond ((s.engine e).sreg (wD w)) then wTarget w else (s.engine e).pc + 1) id) := by
  unfold branch
  congr
  funext w s
  split <;> rfl

/-- A branch on a condition of the value of sA. -/
theorem branch_at {c : Nat → Nat → Instr} {fn : Nat} {cond : Word → Bool} {p : Int → Prop} [DecidablePred p] (ex : Nat → Nat → State → Out)
    (hc : ∀ s t e, exec (c t e) s = ex t e s) (hex : ∀ s t e, ex t e s = branch fn t e s cond) (hp : ∀ v : Word, cond v = true ↔ p v.toInt)
    {s : State} {t e w : Nat} (h : s.EngineAt e w 0x30 fn) :
    exec (c t e) s = .next (s.after t (fun r =>
      (r.fetched e).jumpTo e (if p ((s.engine e).sreg (wD w)).toInt then wTarget w else (s.engine e).pc + 1) (fun x => x))) := by
  have hjump := jump_at (c := c) (fn := fn) (pc := fun w x => if cond (x.sreg (wD w)) then wTarget w else x.pc + 1) (f := fun _ _ => id) (g := fun _ x => x)
    ex hc (fun s t e => (hex s t e).trans (branch_eq ..)) (fun _ _ => rfl) (t := t) h
  simpa only [hp] using hjump

theorem eq_zero_iff_toInt (v : Word) : v = 0 ↔ v.toInt = 0 := by
  rw [← BitVec.toInt_inj]
  rfl

/-! ### Special registers (R207, R208, R252) -/

/-- What an instruction notes and how it retires is apart from the engine's binding. -/
theorem Engine.stamped_bound (x : Engine) (d : Nat) : (x.stamped d).bound = x.bound := by
  simp only [Engine.stamped, Engine.stored]
  split <;> rfl

theorem Engine.boundary_bound (x : Engine) (pc : Nat) : (x.boundary pc).bound = x.bound := by
  unfold Engine.boundary
  split <;> rfl

theorem Engine.retire_bound (x : Engine) : x.retire.bound = x.bound := by
  unfold Engine.retire
  split
  · exact x.boundary_bound _
  · split
    · exact Engine.boundary_bound _ _
    · rfl

/-- What SWR writes of a value: BEXP, ASTAT, or CKBLK. -/
def Engine.swr (x : Engine) (d : Nat) (v : Word) : Engine :=
  match d with
  | 0 => { x with bexp := ⟨bitsOf 3 0 v, bitsOf 5 4 v, bitsOf 9 8 v, bitsOf 23 16 v⟩ }
  | 1 => x.clearAstat v
  | _ => { x with ckblk := v }

theorem Engine.swr_eq (x : Engine) (d : Nat) (v : Word) : x.swr d v =
    if d = 0 then { x with bexp := ⟨v.toNat % 16, v.toNat / 16 % 4, v.toNat / 256 % 4, v.toNat / 65536 % 256⟩ }
    else if d = 1 then x.clearAstat v else { x with ckblk := v } := by
  unfold Engine.swr
  split
  · simp [bitsOf]
  · rfl
  next h0 h1 => rw [if_neg h0, if_neg h1]

theorem Engine.swr_bound (x : Engine) (d : Nat) (v : Word) : (x.swr d v).bound = x.bound := by
  unfold Engine.swr
  split
  · rfl
  · simp only [Engine.clearAstat, Engine.clearAov]
    split <;> rfl
  · rfl

theorem Engine.swr_fly (x : Engine) (d : Nat) (v : Word) : (x.swr d v).fly = x.fly := by
  unfold Engine.swr
  split
  · rfl
  · simp only [Engine.clearAstat, Engine.clearAov]
    split <;> rfl
  · rfl

/-- A bound engine's share may be complete (R222). -/
def State.shared (s : State) (e : Nat) : State :=
  match (s.engine e).bound with
  | some n => s.shareReady n
  | none => s

theorem execSwr_eq (t e : Nat) (s : State) :
    execSwr t e s = anv 0x38 (fun n => n = 1) t e s (fun w s => (s.finish e (fun x => x.swr (wD w) (x.sreg (wA w)))).shared e) := rfl

theorem State.shared_unbound {s : State} {e : Nat} (h : (s.engine e).bound = none) : s.shared e = s := by simp [State.shared, h]

/-- Without a binding no checkpoint awaits the engine's share, so SWR writes its register alone. -/
theorem swr_at {s : State} {t e w : Nat} (h : s.EngineAt e w 0x38 1) (hbound : (s.engine e).bound = none) (hfly : (s.engine e).fly = []) :
    exec (.swr t e) s = .next (s.after t (fun r => (r.fetched e).finish e (fun x => x.swr (wD w) (x.sreg (wA w))))) := by
  have he := h.unit.trans_le s.lanes_le
  change execSwr t e s = _
  rw [execSwr_eq, anv_at h t _ (by simp)]
  refine congrArg _ (s.after_congr t (State.shared_unbound ?_))
  rw [State.finish_engine _ _ _ _ he (by rw [Engine.swr_fly]; simpa using hfly), if_pos rfl, Engine.retire_bound, Engine.stamped_bound, Engine.swr_bound,
    State.fetched_engine, State.begin_engine, hbound]

/-- Settles O17: every branch is a jump, and the others retire with their effect on the engine. -/
theorem branchesAndSpecialRegisters : Obligations.BranchesAndSpecialRegisters := by
  unfold Obligations.BranchesAndSpecialRegisters
  refine ⟨?_, ?_, ?_, ?srd, ?special, ?swr⟩
  · intro Jumps If
    have jump {c : Nat → Nat → Instr} {fn : Nat} {pc : Nat → Engine → Nat} {g : Nat → Engine → Engine} (ex : Nat → Nat → State → Out)
        (f : Nat → Engine → Engine → Engine) (hc : ∀ s t e, exec (c t e) s = ex t e s)
        (hex : ∀ s t e, ex t e s = anv 0x30 (fun n => n = fn) t e s (fun w s => s.jumpTo e (pc w (s.engine e)) (f w (s.engine e))))
        (hfg : ∀ w x, f w x x = g w x) : Jumps c fn pc g := fun s t e w h => jump_at ex hc hex hfg h
    have branch {c : Nat → Nat → Instr} {fn : Nat} {cond : Word → Bool} {p : Int → Prop} [DecidablePred p] (ex : Nat → Nat → State → Out)
        (hc : ∀ s t e, exec (c t e) s = ex t e s) (hex : ∀ s t e, ex t e s = branch fn t e s cond) (hp : ∀ v : Word, cond v = true ↔ p v.toInt) :
        Jumps c fn (If p) (fun _ x => x) := fun s t e w h => branch_at ex hc hex hp h
    clear_value Jumps If
    refine ⟨?_, ?_, ?_, ?_, ?_, ?_, ?_, ?_⟩
    · exact jump execJmp (fun _ _ => id) (fun _ _ _ => rfl) (fun _ _ _ => rfl) (fun _ _ => rfl)
    · exact jump execCall (fun _ _ x => x.setS 31 (BitVec.ofNat 32 ((x.pc + 1) % 8192))) (fun _ _ _ => rfl) (fun _ _ _ => rfl) (fun _ _ => rfl)
    · exact jump execJr (fun _ _ => id) (fun _ _ _ => rfl) (fun _ _ _ => rfl) (fun _ _ => rfl)
    · exact branch execBeqz (fun _ _ _ => rfl) (fun _ _ _ => rfl) (fun v => decide_eq_true_iff.trans (eq_zero_iff_toInt v))
    · exact branch execBnez (fun _ _ _ => rfl) (fun _ _ _ => rfl) (fun v => decide_eq_true_iff.trans (not_congr (eq_zero_iff_toInt v)))
    · exact branch execBltz (fun _ _ _ => rfl) (fun _ _ _ => rfl) (fun v => decide_eq_true_iff)
    · exact branch execBgez (fun _ _ _ => rfl) (fun _ _ _ => rfl) (fun v => decide_eq_true_iff)
    · exact jump execDbnz (fun w x y => y.setS (wD w) (x.sreg (wD w) - 1)) (fun _ _ _ => rfl) (fun _ _ _ => rfl) (fun _ _ => rfl)
  · exact anvEng_retires execNop (fun _ _ _ => rfl) (fun _ _ _ => rfl)
  · exact anvEng_retires execBxadv (fun _ _ _ => rfl) (fun _ _ _ => rfl)
  case srd =>
    intro s t e w h
    change execSrd t e s = _
    rw [execSrd, anv_at h t _ (by simp)]
  case special => exact fun s e => ⟨rfl, rfl, rfl, rfl, rfl, rfl, rfl, rfl, rfl⟩
  case swr =>
    intro s t e w h hbound hfly
    rw [swr_at h hbound hfly]
    simp only [Engine.swr_eq]

end Sys2Proof.Machine

/-! PROOFS. Which accumulator AOVIDX names, and the instructions that overflow none (O26). -/

namespace Sys2Proof.Machine

/-! ### AOV and AOVIDX at an instruction's end (R207) -/

/-- AOV with AOVIDX. -/
def Engine.overflow (x : Engine) : Bool × AovIdx := (x.aov, x.aovIdx)

theorem Engine.stored_overflow (x : Engine) (d : Nat) : (x.stored d).overflow = x.overflow := by
  unfold Engine.stored
  split <;> rfl

theorem Engine.stamped_overflow (x : Engine) (d : Nat) : (x.stamped d).overflow = x.overflow := x.stored_overflow d

theorem Engine.boundary_overflow (x : Engine) (pc : Nat) : (x.boundary pc).overflow = x.overflow := by
  unfold Engine.boundary
  split <;> rfl

theorem Engine.retire_overflow (x : Engine) : x.retire.overflow = x.overflow := by
  unfold Engine.retire
  split
  · exact x.boundary_overflow _
  · split
    · exact Engine.boundary_overflow _ _
    · rfl

theorem Engine.postMod_overflow (x : Engine) (u : Bool) (k : Nat) : (x.postMod u k).overflow = x.overflow := by
  unfold Engine.postMod
  split <;> rfl

theorem Engine.store_overflow (x : Engine) (a : Nat) (bs : List Byte) : (x.store a bs).overflow = x.overflow := by
  induction bs generalizing x a with
  | nil => rfl
  | cons b bs ih => exact ih _ _

/-- A change of engine `e` that leaves its overflow flags. -/
theorem State.onEngine_overflow {s : State} {e : Nat} (he : e < 8) {f : Engine → Engine} (hf : (f (s.engine e)).overflow = (s.engine e).overflow) :
    ((s.onEngine e f).engine e).overflow = (s.engine e).overflow := by
  rw [State.engine_onEngine _ _ _ _ he, if_pos rfl, hf]

theorem State.dstore_overflow (s : State) {e : Nat} (he : e < 8) (a : Nat) (bs : List Byte) :
    ((s.dstore e a bs).engine e).overflow = (s.engine e).overflow := by
  have heng : (s.dstore e a bs).engine e = (s.onEngine e (fun x => x.store a bs)).engine e := State.engine_of_eng (by simp [State.dstore, State.eccWrite]) e
  rw [heng, State.onEngine_overflow he (Engine.store_overflow ..)]

/-- Butterfly results that are stored set VOV and HEAD, not AOV. -/
theorem State.flyStore_overflow (s : State) {e : Nat} (he : e < 8) : ((s.flyStore e).engine e).overflow = (s.engine e).overflow := by
  unfold State.flyStore
  split
  · rfl
  next r rest _ =>
    rw [State.dstore_overflow _ he, State.dstore_overflow _ he, State.onEngine_overflow he]
    cases r.head with
    | none => exact Engine.stored_overflow _ _
    | some h => exact Engine.stored_overflow _ _

theorem State.flyFlush_overflow (s : State) {e : Nat} (he : e < 8) : ((s.flyFlush e).engine e).overflow = (s.engine e).overflow :=
  (State.flyStore_overflow _ he).trans (State.flyStore_overflow _ he)

theorem State.flyLate_overflow (s : State) {e : Nat} (he : e < 8) : ((s.flyLate e).engine e).overflow = (s.engine e).overflow := by
  unfold State.flyLate State.only
  split
  · exact State.onEngine_overflow he rfl
  · rfl

/-- An instruction that retires leaves the overflow flags that its effect gave. -/
theorem State.finish_overflow (s : State) {e : Nat} (he : e < 8) (f : Engine → Engine) : ((s.finish e f).engine e).overflow = (f (s.engine e)).overflow := by
  have hset : ((s.onEngine e (fun x => (f x).stamped s.dev)).engine e).overflow = (f (s.engine e)).overflow := by
    rw [State.engine_onEngine _ _ _ _ he, if_pos rfl, Engine.stamped_overflow]
  have hflush (b : Bool) : ((if b then ((s.onEngine e (fun x => (f x).stamped s.dev)).flyLate e).flyFlush e
      else s.onEngine e (fun x => (f x).stamped s.dev)).engine e).overflow = (f (s.engine e)).overflow := by
    cases b
    · exact hset
    · exact ((State.flyFlush_overflow _ he).trans (State.flyLate_overflow _ he)).trans hset
  unfold State.finish
  rw [State.count_engine, State.onEngine_overflow he (Engine.retire_overflow _)]
  exact hflush _

/-! ### What an accumulator result records (R207, R242) -/

/-- The overflows of an accumulator result in the order of R207: by lanes, and in a lane by accumulators. -/
def Engine.accOverflows (x : Engine) (w : Nat) (accs : List Nat) (f : Nat → Nat → Int) : List (Nat × Nat) :=
  (lanes16.filter (x.active w)).flatMap (fun j => (accs.filter (fun a => !fits 40 (f a j))).map (fun a => (j, a)))

/-- AOV and AOVIDX after those overflows: the first is recorded while AOV is clear. -/
def Engine.recorded (x : Engine) : List (Nat × Nat) → Bool × AovIdx
  | [] => x.overflow
  | (l, a) :: _ => if x.aov then x.overflow else (true, ⟨(x.rep.map Rep.idx).getD 0, l, a, x.rep.isSome, true⟩)

theorem Engine.accFlags_overflow (x : Engine) (l : List (Nat × Nat)) : (x.accFlags l).overflow = x.recorded l := by
  match l with
  | [] => rfl
  | (l, a) :: _ =>
    simp only [Engine.accFlags, Engine.recorded]
    split <;> rfl

theorem Engine.setAccs_overflow (x : Engine) (w : Nat) (accs : List Nat) (f : Nat → Nat → Int) :
    (x.setAccs w accs f).overflow = x.recorded (x.accOverflows w accs f) := by
  have hwritten (y : Engine) (hy : y.overflow = x.overflow ∧ y.rep = x.rep) :
      (y.accFlags (x.accOverflows w accs f)).overflow = x.recorded (x.accOverflows w accs f) := by
    obtain ⟨hover, hrep⟩ := hy
    have haov : y.aov = x.aov := congrArg Prod.fst hover
    rw [Engine.accFlags_overflow]
    cases x.accOverflows w accs f with
    | nil => exact hover
    | cons o os => simp only [Engine.recorded, haov, hrep, hover]
  refine hwritten _ ?_
  generalize hg : (fun (y : Engine) a => { y with a := y.a.setIfInBounds a (accOf (fun j =>
    if x.active w j then BitVec.ofNat 40 (narrow (wSat w) 40 (f a j)) else (x.acc a).getD j 0)) }) = g
  have hstep (y : Engine) (a : Nat) : (g y a).overflow = y.overflow ∧ (g y a).rep = y.rep := by subst hg; exact ⟨rfl, rfl⟩
  have hfold (l : List Nat) (y : Engine) : (l.foldl g y).overflow = y.overflow ∧ (l.foldl g y).rep = y.rep := by
    induction l generalizing y with
    | nil => exact ⟨rfl, rfl⟩
    | cons a as ih => exact ⟨(ih _).1.trans (hstep y a).1, (ih _).2.trans (hstep y a).2⟩
  exact hfold accs x

/-- Values that fit record nothing. -/
theorem Engine.setAccs_fits {x : Engine} {w : Nat} {accs : List Nat} {f : Nat → Nat → Int} (h : ∀ a ∈ accs, ∀ j, fits 40 (f a j) = true) :
    (x.setAccs w accs f).overflow = x.overflow := by
  have hnone : x.accOverflows w accs f = [] := by
    refine List.flatMap_eq_nil_iff.mpr (fun j _ => ?_)
    rw [List.map_eq_nil_iff, List.filter_eq_nil_iff]
    exact fun a ha => by simp [h a ha j]
  rw [Engine.setAccs_overflow, hnone]
  rfl

theorem lanes16_split {j : Nat} (hj : j < 16) : lanes16 = List.range j ++ j :: List.range' (j + 1) (15 - j) := by
  revert j
  decide

/-- Of a pair the first lane that overflows is recorded, and in it the even accumulator before the odd one. -/
theorem Engine.pairOverflows_head {x : Engine} {w d j : Nat} {f : Nat → Nat → Int} (hj : j < 16) (hact : x.active w j = true)
    (hbefore : ∀ i, i < j → x.active w i = true → fits 40 (f d i) = true ∧ fits 40 (f (d + 1) i) = true)
    (hover : fits 40 (f d j) = false ∨ fits 40 (f (d + 1) j) = false) :
    ∃ os, x.accOverflows w [d, d + 1] f = (j, if fits 40 (f d j) = false then d else d + 1) :: os := by
  have hnone : ((List.range j).filter (x.active w)).flatMap (fun j => ([d, d + 1].filter (fun a => !fits 40 (f a j))).map (fun a => (j, a))) = [] := by
    refine List.flatMap_eq_nil_iff.mpr (fun i hi => ?_)
    obtain ⟨hlt, hacti⟩ := List.mem_filter.mp hi
    obtain ⟨heven, hodd⟩ := hbefore i (List.mem_range.mp hlt) hacti
    simp [heven, hodd]
  have hlane : ∃ os, ([d, d + 1].filter (fun a => !fits 40 (f a j))).map (fun a => (j, a)) = (j, if fits 40 (f d j) = false then d else d + 1) :: os := by
    cases heven : fits 40 (f d j) with
    | false => exact ⟨([d + 1].filter (fun a => !fits 40 (f a j))).map (fun a => (j, a)), by simp [heven]⟩
    | true =>
      have hodd : fits 40 (f (d + 1) j) = false := hover.resolve_left (by simp [heven])
      exact ⟨[], by simp [heven, hodd]⟩
  obtain ⟨os, hos⟩ := hlane
  rw [Engine.accOverflows, lanes16_split hj, List.filter_append, List.flatMap_append, hnone, List.nil_append, List.filter_cons_of_pos hact, List.flatMap_cons, hos]
  exact ⟨_, rfl⟩

/-! ### The values that an accumulator cannot overflow with (R242) -/

theorem signed_bounds (v : Nat) : -(2 ^ 15) ≤ signed 16 v ∧ signed 16 v ≤ 2 ^ 15 := by
  simp only [signed]
  omega

/-- A product of two halves. -/
theorem abs_halves_mul_le (u v : Nat) : |signed 16 u * signed 16 v| ≤ 2 ^ 30 := by
  rw [abs_mul]
  calc |signed 16 u| * |signed 16 v| ≤ 2 ^ 15 * 2 ^ 15 :=
        mul_le_mul (abs_le.mpr (signed_bounds u)) (abs_le.mpr (signed_bounds v)) (abs_nonneg _) (by positivity)
    _ = 2 ^ 30 := by norm_num

theorem fits_of_abs_le {x : Int} (h : |x| ≤ 2 ^ 32) : fits 40 x = true := by
  obtain ⟨hlo, hhi⟩ := abs_le.mp h
  exact (fits_iff 40 x).mpr ⟨by omega, by omega⟩

theorem fits_dot (a b : Vec) (j : Nat) : fits 40 (dot a b j) = true := by
  refine fits_of_abs_le ((abs_add_le _ _).trans ((add_le_add (abs_halves_mul_le _ _) (abs_halves_mul_le _ _)).trans (by norm_num)))

theorem fits_pairMul (a b : Vec) (odd : Bool) (j : Nat) : fits 40 (pairMul a b odd j) = true := by
  cases odd <;> exact fits_of_abs_le ((abs_halves_mul_le _ _).trans (by norm_num))

theorem fits_lane (a : Vec) (j : Nat) : fits 40 (a.int j) = true := by
  have hlo := BitVec.le_toInt (a.lane j)
  have hhi := BitVec.toInt_lt (x := a.lane j)
  exact fits_of_abs_le (abs_le.mpr ⟨by simp only [Vec.int]; omega, by simp only [Vec.int]; omega⟩)

theorem Engine.dotMul_overflow (x : Engine) (w : Nat) (a b : Vec) : (x.dotMac w 0 a b).overflow = x.overflow :=
  Engine.setAccs_fits (fun _ _ j => by simp [fits_dot])

theorem Engine.pairMul_overflow (x : Engine) (w : Nat) (a b : Vec) : (x.pairMac w 0 a b).overflow = x.overflow :=
  Engine.setAccs_fits (fun _ _ j => by simp [fits_pairMul])

/-! ### Pair forms and what they record -/

/-- The even accumulator of a pair has an even number (R227, R240). -/
theorem wD_even_of_legal {w op fn : Nat} (h : anvDecode w = some (op, fn)) (hrow : ∀ r, anvRow op fn = some r → r.2.2.2.testBit 45 = false) : wD w % 2 = 0 := by
  obtain ⟨-, -, -, r, hr, hw⟩ := legal_row h
  have hbit : (w % 2 ^ 50 + w / 2 ^ 56 % 4 * 2 ^ 56).testBit 45 = false := by rw [← hw, Nat.testBit_and, hrow r hr, Bool.and_false]
  simp only [Nat.testBit_eq_decide_div_mod_eq, decide_eq_false_iff_not] at hbit
  simp only [wD, wordBits]
  omega

/-- The overflow flags after an instruction whose whole effect is on its engine. -/
theorem Retires.overflow {c : Nat → Nat → Instr} {op fn : Nat} {f : Nat → Engine → Engine} (hc : Retires c op fn f) {s : State} {t e w : Nat}
    (h : s.EngineAt e w op fn) : ∃ u, exec (c t e) s = .next u ∧ (u.engine e).overflow = (f w (s.engine e)).overflow := by
  refine ⟨_, hc s t e w h, ?_⟩
  rw [State.after_engine, State.finish_overflow _ (h.unit.trans_le s.lanes_le), State.fetched_engine, State.begin_engine]

/-- Errors lie apart from the moment of an instruction, its fetch and the loads before. -/
theorem State.eccRange_congr {s u : State} (h : u.sys = s.sys) (a b n : Nat) : u.eccRange a b n = s.eccRange a b n := by simp [State.eccRange, h]

theorem State.eccCorrect_sys_congr {s u : State} (h : u.sys = s.sys) (a b n : Nat) : (u.eccCorrect a b n).sys = (s.eccCorrect a b n).sys := by
  simp only [State.eccCorrect, State.eccRange_congr h]
  split <;> simp [State.eccClear, h]

theorem State.dmaStall_sys (s : State) (e w : Nat) : (s.dmaStall e w).sys = s.sys := by
  simp only [State.dmaStall, State.only]
  split <;> simp

theorem State.fetched_begin_sys (s : State) (t e : Nat) : ((s.begin t).fetched e).sys = (s.fetched e).sys := by
  simp only [State.fetched, State.dmaStall_sys]
  exact State.eccCorrect_sys_congr (State.begin_sys s t) _ _ _

theorem State.DataAt.congr {s u : State} {e a n align : Nat} (h : s.DataAt e a n align) (hsys : u.sys = s.sys) : u.DataAt e a n align :=
  ⟨h.inside, h.aligned, by rw [State.eccRange_congr hsys]; exact h.sound⟩

/-- What a memory form multiplies the row at [P] by: the row at [Q], or the element there in every half (R240). -/
def Engine.operandQ (x : Engine) (w n : Nat) : Vec :=
  let q := x.load (x.ea (wQ w)) n
  if wV w then vecOf (fun _ => joinHalves q q) else rowVec q

/-- The overflow flags after a memory form whose accesses meet no fault: those of the sum on the rows read. -/
theorem vmacm_overflow {c : Nat → Nat → Instr} {fn : Nat} {f : Engine → Nat → Vec → Vec → Engine} (ex : Nat → Nat → State → Out)
    (hc : ∀ s t e, exec (c t e) s = ex t e s) (hex : ∀ s t e, ex t e s = vmacm fn t e s f) {s : State} {t e w n : Nat}
    (h : s.EngineAt e w 0x13 fn) (hn : n = if wV w then 2 else 64)
    (hp : (s.fetched e).DataAt e ((s.engine e).ea (wP w)) 64 64)
    (hq : ((s.fetched e).dataRead e ((s.engine e).ea (wP w)) 64).DataAt e ((s.engine e).ea (wQ w)) n n) :
    ∃ u, exec (c t e) s = .next u ∧ (u.engine e).overflow
      = (f (s.engine e) w (rowVec ((s.engine e).load ((s.engine e).ea (wP w)) 64)) ((s.engine e).operandQ w n)).overflow := by
  have hsys := s.fetched_begin_sys t e
  refine ⟨_, vmacm_at (g := fun w a b x => f x w a b) (fun s t e => (hc s t e).trans (hex s t e)) (fun _ _ _ _ => rfl) h hn (hp.congr hsys)
    (hq.congr (State.eccCorrect_sys_congr hsys _ _ _)), ?_⟩
  have hengine (r : State) (b : Bool) : (r.only b (fun r => r.count Fld.ANV_STALL_CNT e 1)).engine e = r.engine e := by cases b <;> simp
  rw [State.after_engine, State.finish_overflow _ (h.unit.trans_le s.lanes_le), Engine.postMod_overflow, Engine.postMod_overflow, hengine]
  simp only [State.dataRead_engine, State.fetched_engine, State.begin_engine]
  rfl

/-- The instruction of this outcome leaves AOV and AOVIDX of engine `e`. -/
def KeepsOverflow (s : State) (e : Nat) (o : Out) : Prop := ∃ u, o = .next u ∧ (u.engine e).aov = (s.engine e).aov ∧ (u.engine e).aovIdx = (s.engine e).aovIdx

theorem keepsOverflow_of_effect {s : State} {e : Nat} {o : Out} {x : Engine} (h : ∃ u, o = .next u ∧ (u.engine e).overflow = x.overflow)
    (hx : x.overflow = (s.engine e).overflow) : KeepsOverflow s e o := by
  obtain ⟨u, hu, hover⟩ := h
  obtain ⟨haov, hidx⟩ := Prod.mk.inj (hover.trans hx)
  exact ⟨u, hu, haov, hidx⟩

theorem Retires.keepsOverflow {c : Nat → Nat → Instr} {op fn : Nat} {f : Nat → Engine → Engine} (hc : Retires c op fn f)
    (hf : ∀ w x, (f w x).overflow = x.overflow) {s : State} {t e w : Nat} (h : s.EngineAt e w op fn) : KeepsOverflow s e (exec (c t e) s) :=
  keepsOverflow_of_effect (hc.overflow h) (hf w _)

theorem vmul2_retires : Retires .vmul2 0x12 2 (fun w x => x.dotMac w 0 (x.vec (wA w)) (x.vec (wB w))) :=
  anvEng_retires execVmul2 (fun _ _ _ => rfl) (fun _ _ _ => rfl)

theorem vmulp_retires : Retires .vmulp 0x12 5 (fun w x => x.pairMac w 0 (x.vec (wA w)) (x.vec (wB w))) :=
  anvEng_retires execVmulp (fun _ _ _ => rfl) (fun _ _ _ => rfl)

theorem aclr_retires : Retires .aclr 0x14 0 (fun w x => x.setAccs w [wD w] (fun _ _ => 0)) := anvEng_retires execAclr (fun _ _ _ => rfl) (fun _ _ _ => rfl)

theorem amov_retires : Retires .amov 0x14 1 (fun w x => x.setAccs w [wD w] (fun _ j => (x.vec (wA w)).int j)) :=
  anvEng_retires execAmov (fun _ _ _ => rfl) (fun _ _ _ => rfl)

/-- What R242 asks of a pair form on engine `e`, whose exact sums are `f`: the first lane that overflows is recorded, with the even accumulator if that one did. -/
def RecordsPair (f : Nat → Nat → Int) (s : State) (e w : Nat) (o : Out) : Prop :=
  wD w % 2 = 0 ∧ ((s.engine e).aov = false → ∀ j, j < 16 → (s.engine e).active w j = true →
    (∀ i, i < j → (s.engine e).active w i = true → fits 40 (f (wD w) i) = true ∧ fits 40 (f (wD w + 1) i) = true) →
    (fits 40 (f (wD w) j) = false ∨ fits 40 (f (wD w + 1) j) = false) →
    ∃ u, o = .next u ∧ (u.engine e).aov = true ∧ (u.engine e).aovIdx.lane = j
      ∧ (u.engine e).aovIdx.acc = (if fits 40 (f (wD w) j) = false then wD w else wD w + 1))

theorem recordsPair_of_overflow {s : State} {e w op fn : Nat} {o : Out} {f : Nat → Nat → Int} (hw : anvDecode w = some (op, fn))
    (hrow : ∀ r, anvRow op fn = some r → r.2.2.2.testBit 45 = false)
    (h : ∃ u, o = .next u ∧ (u.engine e).overflow = ((s.engine e).setAccs w [wD w, wD w + 1] f).overflow) : RecordsPair f s e w o := by
  refine ⟨wD_even_of_legal hw hrow, fun hclear j hj hact hbefore hover => ?_⟩
  obtain ⟨u, hu, heq⟩ := h
  obtain ⟨os, hos⟩ := Engine.pairOverflows_head hj hact hbefore hover
  rw [Engine.setAccs_overflow, hos, Engine.recorded, hclear] at heq
  obtain ⟨haov, hidx⟩ := Prod.mk.inj heq
  exact ⟨u, hu, haov, by rw [hidx], by rw [hidx]⟩

/-- A pair form of registers. -/
theorem Retires.recordsPair {c : Nat → Nat → Instr} {op fn : Nat} {f : Nat → Engine → Nat → Nat → Int}
    (hc : Retires c op fn (fun w x => x.setAccs w [wD w, wD w + 1] (f w x))) (hrow : ∀ r, anvRow op fn = some r → r.2.2.2.testBit 45 = false)
    {s : State} {t e w : Nat} (h : s.EngineAt e w op fn) : RecordsPair (f w (s.engine e)) s e w (exec (c t e) s) :=
  recordsPair_of_overflow h.legal hrow (hc.overflow h)

theorem Engine.pairMac_add (x : Engine) (w : Nat) (a b : Vec) :
    x.pairMac w 1 a b = x.setAccs w [wD w, wD w + 1] (fun k j => (x.acc k).int j + halfProd (k = wD w) a b j) := by
  rw [Engine.pairMac_eq (by decide), Engine.pairSum]
  simp

theorem Engine.pairMac_sub (x : Engine) (w : Nat) (a b : Vec) :
    x.pairMac w (-1) a b = x.setAccs w [wD w, wD w + 1] (fun k j => (x.acc k).int j - halfProd (k = wD w) a b j) := by
  rw [Engine.pairMac_eq (by decide), Engine.pairSum]
  simp [sub_eq_add_neg]

theorem vmacp_retires : Retires .vmacp 0x12 3 (fun w x => x.setAccs w [wD w, wD w + 1] (fun k j =>
    (x.acc k).int j + halfProd (k = wD w) (x.vec (wA w)) (x.vec (wB w)) j)) := by
  simp only [← Engine.pairMac_add]
  exact anvEng_retires execVmacp (fun _ _ _ => rfl) (fun _ _ _ => rfl)

theorem vmsup_retires : Retires .vmsup 0x12 4 (fun w x => x.setAccs w [wD w, wD w + 1] (fun k j =>
    (x.acc k).int j - halfProd (k = wD w) (x.vec (wA w)) (x.vec (wB w)) j)) := by
  simp only [← Engine.pairMac_sub]
  exact anvEng_retires execVmsup (fun _ _ _ => rfl) (fun _ _ _ => rfl)

/-- The part of an exact complex product that an accumulator of the pair takes (R243). -/
def cmulPart (conj : Bool) (a b : Vec) (even : Bool) (j : Nat) : Int :=
  if even then a.lo j * b.lo j + (if conj then 1 else -1) * (a.hi j * b.hi j) else a.hi j * b.lo j + (if conj then -1 else 1) * (a.lo j * b.hi j)

theorem cmulPart_eq (conj : Bool) (a b : Vec) (k d j : Nat) : (if k = d then cmulRe conj a b j else cmulIm conj a b j) = cmulPart conj a b (k = d) j := by
  by_cases hk : k = d <;> cases conj <;> simp [cmulPart, cmulRe, cmulIm, hk] <;> ring

theorem cmac_retires : Retires .cmac 0x15 2 (fun w x => x.setAccs w [wD w, wD w + 1] (fun k j =>
    (x.acc k).int j + cmulPart false (x.vec (wA w)) (x.vec (wB w)) (k = wD w) j)) := by
  simp only [← cmulPart_eq]
  exact anvEng_retires execCmac (fun _ _ _ => rfl) (fun _ _ _ => rfl)

theorem cmacc_retires : Retires .cmacc 0x15 3 (fun w x => x.setAccs w [wD w, wD w + 1] (fun k j =>
    (x.acc k).int j + cmulPart true (x.vec (wA w)) (x.vec (wB w)) (k = wD w) j)) := by
  simp only [← cmulPart_eq]
  exact anvEng_retires execCmacc (fun _ _ _ => rfl) (fun _ _ _ => rfl)

/-! ### The memory forms -/

section Rows

variable {s : State} {t e w n : Nat} (hn : n = if wV w then 2 else 64) (hp : (s.fetched e).DataAt e ((s.engine e).ea (wP w)) 64 64)
  (hq : ((s.fetched e).dataRead e ((s.engine e).ea (wP w)) 64).DataAt e ((s.engine e).ea (wQ w)) n n)
include hn hp hq

theorem vmacpMem_records (h : s.EngineAt e w 0x13 3) : RecordsPair (fun k j => ((s.engine e).acc k).int j
    + halfProd (k = wD w) (rowVec ((s.engine e).load ((s.engine e).ea (wP w)) 64)) ((s.engine e).operandQ w n) j) s e w (exec (.vmacpMem t e) s) := by
  refine recordsPair_of_overflow h.legal (by decide +kernel) ?_
  rw [← Engine.pairMac_add]
  exact vmacm_overflow execVmacpMem (fun _ _ _ => rfl) (fun _ _ _ => rfl) h hn hp hq

theorem vmsupMem_records (h : s.EngineAt e w 0x13 4) : RecordsPair (fun k j => ((s.engine e).acc k).int j
    - halfProd (k = wD w) (rowVec ((s.engine e).load ((s.engine e).ea (wP w)) 64)) ((s.engine e).operandQ w n) j) s e w (exec (.vmsupMem t e) s) := by
  refine recordsPair_of_overflow h.legal (by decide +kernel) ?_
  rw [← Engine.pairMac_sub]
  exact vmacm_overflow execVmsupMem (fun _ _ _ => rfl) (fun _ _ _ => rfl) h hn hp hq

theorem vmul2Mem_keeps (h : s.EngineAt e w 0x13 2) : KeepsOverflow s e (exec (.vmul2Mem t e) s) :=
  keepsOverflow_of_effect (vmacm_overflow (f := fun x w a b => x.dotMac w 0 a b) execVmul2Mem (fun _ _ _ => rfl) (fun _ _ _ => rfl) h hn hp hq)
    (Engine.dotMul_overflow ..)

theorem vmulpMem_keeps (h : s.EngineAt e w 0x13 5) : KeepsOverflow s e (exec (.vmulpMem t e) s) :=
  keepsOverflow_of_effect (vmacm_overflow (f := fun x w a b => x.pairMac w 0 a b) execVmulpMem (fun _ _ _ => rfl) (fun _ _ _ => rfl) h hn hp hq)
    (Engine.pairMul_overflow ..)

end Rows

/-- Settles O26: the flags at an instruction's end are those of its effect, which records the first of its overflows; a product of halves and a lane of 32 bits fit in 40. -/
theorem accumulatorOverflow : Obligations.AccumulatorOverflow := by
  unfold Obligations.AccumulatorOverflow
  intro re im Records Regs Rows Keeps part
  refine ⟨?_, ?_, ?_, ?_, fun t n s e w h hn hp hq => vmacpMem_records hn hp hq h, fun t n s e w h hn hp hq => vmsupMem_records hn hp hq h,
    fun s t e w => ⟨?_, ?_, ?_, ?_⟩, fun t n => ⟨fun s e w h hn hp hq => vmul2Mem_keeps hn hp hq h, fun s e w h hn hp hq => vmulpMem_keeps hn hp hq h⟩⟩
  · exact fun s t e w => vmacp_retires.recordsPair (by decide +kernel)
  · exact fun s t e w => vmsup_retires.recordsPair (by decide +kernel)
  · exact fun s t e w => cmac_retires.recordsPair (by decide +kernel)
  · exact fun s t e w => cmacc_retires.recordsPair (by decide +kernel)
  · exact vmul2_retires.keepsOverflow (fun w x => x.dotMul_overflow w _ _)
  · exact vmulp_retires.keepsOverflow (fun w x => x.pairMul_overflow w _ _)
  · exact aclr_retires.keepsOverflow (fun _ _ => Engine.setAccs_fits (fun _ _ _ => rfl))
  · exact amov_retires.keepsOverflow (fun _ _ => Engine.setAccs_fits (fun _ _ j => fits_lane _ j))

end Sys2Proof.Machine
